-- ==== Sys2Proof/Word.lean ====
section
/-! DEFINITION. The word types of the model. Register fields and counters are natural numbers truncated to their
width; general registers of the cores, memory bytes and instruction words are bit vectors. -/

namespace Sys2Proof

/-- A byte of memory. -/
abbrev Byte := BitVec 8

/-- A 64-bit word: a general register of a VZ64 core. -/
abbrev W64 := BitVec 64

/-- A 32-bit word: an instruction word of a VZ64 core. -/
abbrev W32 := BitVec 32

end Sys2Proof
end

