-- ==== Sys2Proof/Syntax.lean ====
section
/-! DEFINITION. The commands the block takes: `Instr`, one constructor per row of spec/opcode_table.json, and the
types of their operands. The spec's table gives its rows no bits and no operands; the operands here are what the rule
of each row names as coming from outside the part (a written value, a queue entry's contents, the outcome of a
measurement or of a signature check that the spec does not compute). -/

namespace Sys2Proof

/-- Who makes a control-space access (R450): the manager through BAR2, the security core, core `8 * q + k` at S. A tenant function
has no BAR2 (R62); it writes the registers of its own mailbox window in BAR0 alone (R98). -/
inductive Requester where
  | manager
  | security
  | core (c : Nat)
  | tenant (p : Nat)
  deriving DecidableEq, Repr

/-- The identity of an outstanding NVMe command (R14): plot, submission queue, command identifier. The plot and
queue generations are held in its completion latch. -/
structure CmdId where
  plot : Nat
  sq : Nat
  cid : Nat
  deriving DecidableEq, Repr

/-- The statuses a completion can carry (chapters 3, 4, 6, 8, 9). -/
inductive Sc where
  | success
  | invalidOpcode | invalidField | internalError
  /-- Internal Error of a command that the T_MAX watchdog or JS_TIMEOUT ended (R29, R453). -/
  | internalErrorTimeout
  | abortedSqDeletion | invalidNamespaceOrFormat
  | commandSequenceError | invalidNumberOfSglDescriptors | dataSglLengthInvalid | sglDescriptorTypeInvalid
  | prpOffsetInvalid | sanitizeInProgress | namespaceWriteProtected | lbaOutOfRange | capacityExceeded
  | namespaceNotReady | reservationConflict | invalidFormat | invalidQueueIdentifier | invalidQueueSize
  | completionQueueInvalid | aerLimitExceeded | invalidFirmwareSlot | invalidFirmwareImage | invalidInterruptVector
  | invalidLogPage | invalidQueueDeletion | firmwareActivationRequiresNvmSubsystemReset
  | firmwareActivationRequiresMaxTimeViolation | firmwareActivationProhibited | namespaceInsufficientCapacity
  | namespaceIdentifierUnavailable | namespaceAlreadyAttached | namespaceIsPrivate | namespaceNotAttached
  | controllerListInvalid | deviceSelfTestInProgress | invalidControllerIdentifier | invalidResourceIdentifier
  | invalidSecondaryControllerState
  | invalidProtectionInformation | unrecoveredReadError | compareFailure | guardCheckError | applicationTagCheckError | referenceTagCheckError
  | memoryRangeError | sanitizeFailed | featureNotSaveable
  | invalidProgramIndex | programNotActivated | invalidMemoryRangeSet
  | copyRangeSizeLimit | overlappingRange | abortedPreemptedReservation
  /-- A vendor status of R81, Status Code Type 7h. -/
  | vendor (code : Nat)
  deriving DecidableEq, Repr

/-- An SGL descriptor of a command (R76): its type and the bytes it describes. -/
inductive SglDesc where
  | data (len : Nat)
  | bitBucket (len : Nat)
  | segment
  | lastSegment
  | other
  deriving DecidableEq, Repr

/-- The data pointer of a command (R76): PRP entries by their page offsets, or an SGL. -/
inductive DataPtr where
  | prp (first : Nat) (list : List Nat)
  | sgl (descs : List SglDesc)
  deriving DecidableEq, Repr

/-- What every NVMe command carries (R65 to R67, R76): its identity, its NSID, whether a reserved field of the entry is set, and
its data pointer. -/
structure NCmd where
  id : CmdId
  nsid : Nat
  rsvd : Bool
  dp : DataPtr
  deriving DecidableEq, Repr

/-- What the entry that a fetch round takes asks for (R65, R66, R79): a command that has a row of its own, an opcode that neither
R65 nor R66 lists, Set Features of an identifier that R79 does not list, Sanitize with the Overwrite action. -/
inductive Fetched where
  | known | unknownOpcode | unlistedFeature | overwrite
  deriving DecidableEq, Repr

/-- The protection information fields of an I/O command (R68, as NVMe 2.1 has them): PRACT, PRCHK (bit 2 guard, bit 1
application tag, bit 0 reference tag), the initial reference tag, the application tag and its mask. -/
structure PiCmd where
  pract : Bool
  prchk : Nat
  ref : Nat
  app : Nat
  mask : Nat
  deriving DecidableEq, Repr

/-- What the LDPC decoder finds in a codeword (R122): it converges without correcting anything, converges after
correction, converges on wrong data (the CRC-32C then fails) or on a page tag whose TCRC fails (R127), or does not converge. -/
inductive Decode where
  | clean | corrected | miscorrected | badTag | failed
  deriving DecidableEq, Repr

/-- What Rake finds in a stripe (R180): every codeword succeeds and the parity matches; member `j` needed read
retry or soft decode; a codeword was reconstructed; reconstruction failed; only the parity differs. -/
inductive RakeFinding where
  | sound
  | hard (j : Nat)
  | reconstructed
  | lost
  | parity
  deriving DecidableEq, Repr


/-- A curd as it arrives (R210): the sideband fields the part acts on, its payload as a little-endian number, and for the
curd that begins an output unit the unit's length (0 elsewhere) with the input consumed by the units before it (R236). -/
structure CurdIn where
  vlen : Nat
  first : Bool
  last : Bool
  poison : Nat
  untrusted : Bool
  rstart : Nat
  rcount : Nat
  offset : Nat
  cseq : Nat
  src : Nat
  data : Nat
  unitLen : Nat
  consumed : Nat
  deriving DecidableEq, Repr

/-- What an engine finds in the content of a curd, by the rules of its format (R246 to R248, R264, R286). -/
inductive Finding where
  | noGain | badHeader | badCode | badDistance | lengthOverrun | badChecksum | matchLimit | authFail | fenced
  deriving DecidableEq, Repr

/-- A received frame by the fields of R183 as they came: TYPE, LEN, VC, SEQ, ACK, returned credit and its channel, HCHK; whether END stands
where LEN places it; the payload as a little-endian number; POISON and CRC. `dst` is the member that the header flit names (its layout is not
given). -/
structure GwlFrame where
  ty : Nat
  len : Nat
  vc : Nat
  seq : Nat
  ack : Nat
  cred : Nat
  credVc : Nat
  hchk : Nat
  lenOk : Bool
  msg : Nat
  poison : Nat
  crc : Nat
  dst : Nat
  deriving DecidableEq, Repr

/-- An entry of the cluster stripe journal (R199) by its fields, HCRC as it is stored. -/
structure CEntry where
  tseq : Nat
  owner : Nat
  lead : Nat
  state : Nat
  geom : Nat
  nsid : Nat
  stripe : Nat
  peer : Nat
  mirror : Nat
  chunks : Nat
  view : Nat
  hcrc : Nat
  deriving DecidableEq, Repr

/-- A Reseat Anchor token (R204): the cluster ID, roster hash, new anchor and epoch, nonce, whether the reserved bytes are
zero, and whether its signature verifies. -/
structure AnchorTok where
  cluster : Nat
  rhash : Nat
  anchor : Nat
  epoch : Nat
  nonce : Nat
  zeros : Bool
  sigOk : Bool
  deriving DecidableEq, Repr

/-- A Halward token (R395): TYPE, ARG, RIGHTS, DIEID, NONCE, the hash of the authority key it carries, whether MAGIC and the
reserved bytes are as they must be, and whether its signature verifies. -/
structure Token where
  type : Nat
  arg : Nat
  rights : Nat
  dieId : Nat
  nonce : Nat
  authHash : Nat
  zeros : Bool
  sigOk : Bool
  deriving DecidableEq, Repr

/-- A request that arrives at a subchannel of a memory controller (R359): its number in arrival order, the channel-local
address of its 64-byte burst, whether it writes, its owner ID, for a write its 64 bytes (little-endian), the bytes it writes
as a 64-bit mask, and whether its data carries poison. -/
structure MemReq where
  id : Nat
  addr : Nat
  write : Bool
  owner : Nat
  data : Nat
  mask : Nat
  poison : Bool
  deriving DecidableEq, Repr

/-- What a 64-byte MRAM block belongs to (R371): a write-cache slot, a commit record by its WSEQ, a journal batch by its
BSEQ, or device metadata whose second copy fails too or not. -/
inductive MramBlk where
  | slot (i : Nat)
  | commit (wseq : Nat)
  | batch (bseq : Nat)
  | metadata (both : Bool)
  deriving DecidableEq, Repr

/-- What the debugger reads or writes of a halted core (R422): a g register, a special register, `size` bytes of memory. -/
inductive DbgItem where
  | g (i : Nat)
  | sr (i : Nat)
  | mem (addr size : Nat)
  deriving DecidableEq, Repr

namespace Machine

/-- The header of a signed object (R381): what the header says, and whether its signature and its body hash verify,
which the model takes as facts about the object; `digest` stands for its SHA-384, `length` is LENGTH. -/
structure ObjHdr where
  wellFormed : Bool
  svn : Nat
  target : Nat
  step : Nat
  keySlot : Nat
  pubHash : Nat
  sigOk : Bool
  hashOk : Bool
  digest : Nat
  length : Nat
  deriving DecidableEq, Repr

/-- A firmware image (KIND 0x0003). -/
structure FwImage where
  hdr : ObjHdr
  rev : Nat
  deriving DecidableEq, Repr

/-- A die profile (DIEPROF): the JEDEC ID, the planes, sizes in bytes, counts, nominal times in 0.1 us, the byte offset and the bit mask
of the extended-rate declaration (R112). -/
structure DieProf where
  jedec : Nat
  planes : Nat
  xrOff : Nat
  xrMask : Nat
  page : Nat
  spare : Nat
  pages : Nat
  blocks : Nat
  tRead : Nat
  tProg : Nat
  tErase : Nat
  deriving DecidableEq, Repr

/-- One channel entry (CHANNELS): the CHAN_CFG fields, the local dies declared, the profile. -/
structure ChanEnt where
  iface : Nat
  rateMax : Nat
  xrate : Bool
  parity : Nat
  profile : Nat
  dies : List Nat
  deriving DecidableEq, Repr

/-- One die group (GROUPS): geometry code and member dies in stream order. -/
structure GroupEnt where
  geom : Nat
  members : List Nat
  deriving DecidableEq, Repr

/-- MEDIA: over-provisioning %, rated cycles, map limit in GiB, early-warning set and thresholds. -/
structure MediaSec where
  op : Nat
  rated : Nat
  mapLimit : Nat
  ewSet : Nat
  ewPct : Nat
  critPct : Nat
  wearPct : Nat
  deriving DecidableEq, Repr

/-- DRAM, per quadrant: MEMC_CFG fields, the capacity they give in GiB, and the two timing sets. -/
structure DramEnt where
  width : Nat
  density : Nat
  ranks : Nat
  rateA : Nat
  rateB : Nat
  tsetA : List Nat
  tsetB : List Nat
  deriving DecidableEq, Repr

/-- One pool entry (POOLS). -/
structure PoolEnt where
  en : Bool
  loc : Nat
  size : Nat
  fallback : Nat
  fben : Bool
  base : Nat
  count : Nat
  floor : Nat
  deriving DecidableEq, Repr

/-- One Pail requester (POOLS): its owner ID, whether it is response-class, its first pool, the most handles it may
hold at once. -/
structure ReqEnt where
  owner : Nat
  response : Bool
  first : Nat
  most : Nat
  deriving DecidableEq, Repr

/-- The defaults of one plot (PLOTS): PLOT_CTL to PLOT_ECAP and the signed-only flag. -/
structure PlotEnt where
  plot : Nat
  en : Bool
  psallow : Bool
  qmax : Nat
  vmax : Nat
  weight : Nat
  oshare : Nat
  slm : Nat
  fcWeight : Nat
  fcCap : Nat
  ewt : List Nat
  ecap : List Nat
  signedOnly : Bool
  deriving DecidableEq, Repr

/-- A template (R208): its PID and its 16 words. -/
structure Template where
  pid : Nat
  words : List Nat
  deriving DecidableEq, Repr

/-- A Trellis segment (TRELLIS, R456): SEGVER, the edge matrix, the templates in ascending PID. -/
structure Segment where
  segver : Nat
  edges : List Nat
  templates : List Template
  deriving DecidableEq, Repr

/-- The cluster roster (R189): the cluster ID, the members with their identity hashes, the retired set as bits, the anchor
and its epoch, the cluster authority key, the roster's hash. -/
structure Roster where
  clusterId : Nat
  members : List (Nat × Nat)
  retired : Nat
  anchor : Nat
  epoch : Nat
  authKey : Nat
  hash : Nat
  deriving DecidableEq, Repr

/-- A Brodzo stream: the header, the sections in object order as (TYPE, INST), its identifier, and the bodies of its
sections. A section that is missing is `none` or empty. -/
structure Stream where
  hdr : ObjHdr
  order : List (Nat × Nat)
  id : Nat
  ident : Option (Nat × Nat × Nat)
  units : Option (Nat × Nat)
  clocks : List Nat
  dieProfs : List DieProf
  chans : List ChanEnt
  retry : List (Nat × List Nat)
  groups : List GroupEnt
  media : Option MediaSec
  dram : List (Nat × DramEnt)
  pools : List PoolEnt
  reqs : List ReqEnt
  maxPlots : Nat
  plots : List PlotEnt
  segments : List (Nat × Segment)
  routes : List Nat
  roster : Option Roster
  progKeys : List (Nat × Bool)
  deriving DecidableEq, Repr

/-- A graft (KIND 0x0002): its sections as (TYPE, INST), the stream it applies to, its target quadrant and its segment;
`hdr.svn` holds its SEGVER. -/
structure Graft where
  hdr : ObjHdr
  order : List (Nat × Nat)
  streamId : Nat
  quad : Nat
  seg : Option Segment
  deriving DecidableEq, Repr

/-- What firmware download and commit can hold. -/
inductive Object where
  | firmware (i : FwImage)
  | stream (x : Stream)
  deriving DecidableEq, Repr

/-- A pattern of a Sieve image as its meaning (R257): a regular expression over bytes. -/
inductive Rx where
  | eps
  | set (bytes : List Nat)
  | seq (a b : Rx)
  | alt (a b : Rx)
  | star (a : Rx)
  | start
  | stop
  deriving DecidableEq, Repr

end Machine
/-- The commands: one constructor per row of the table, in the table's order. -/
inductive Instr where
  /-- CSR_WRITE (R17): A control-space write to a register that has no row of its own takes effect in issue order for its block. -/
  | csrWrite (by_ : Requester) (addr value : Nat) (wide : Bool)
  /-- CSR_BAD_ACCESS (R10): An access of the wrong size or alignment, or to an address that maps to no register, reads all ones or is dropped, and EVT records the address. -/
  | csrBadAccess (by_ : Requester) (addr size : Nat) (write : Bool)
  /-- CSR_SPLIT_READ_LOW (R11): A read of the low half of a 64-bit register latches the high half for that requester. -/
  | csrSplitReadLow (by_ : Requester) (addr : Nat)
  /-- CSR_SPLIT_READ_HIGH (R11): A read of the high half returns and releases the latched value, or returns the current value when nothing is latched. -/
  | csrSplitReadHigh (by_ : Requester) (addr : Nat)
  /-- CSR_SPLIT_WRITE_LOW (R11): A write of the low half is held for the requester and replaces any low half it already held. -/
  | csrSplitWriteLow (by_ : Requester) (addr value : Nat)
  /-- CSR_SPLIT_WRITE_HIGH (R11): A write of the high half completes a held 64-bit write, or otherwise changes the high half alone. -/
  | csrSplitWriteHigh (by_ : Requester) (addr value : Nat)
  /-- POWER_ON (R34): Power-on performs a part reset into RESET and clears every cause bit except POR. -/
  | powerOn
  /-- RESET_N_ASSERT (R440): RESET_N low for 1 µs or more causes a complete part reset. -/
  | resetNAssert
  /-- RESET_N_RISE (R428): The rising edge of RESET_N samples the straps and starts the start-up sequence. -/
  | resetNRise
  /-- TOP_RESET (R34): A write of GO with the key 0xC3A5 to TOP_RESET causes a part reset. -/
  | topReset (key : Nat) (go : Bool)
  /-- NVM_SUBSYSTEM_RESET (R458): A write of 4E564D65h to the NSSR register of physical function 0 is a part reset. -/
  | nvmSubsystemReset (p v : Nat)
  /-- HALWARD_SCRUB_DONE (R41): Halward finishes scrubbing its key stores, sets HALW_SCRUB.DONE and the part enters start-up SELFTEST. -/
  | halwardScrubDone
  /-- DEVICE_BIST_DONE (R43): The ECC checker and device-level tests end; a failure holds the part in RESET with FAULT_N asserted. -/
  | deviceBistDone (l m e : Bool) (ms misr : Nat)
  /-- QUADRANT_BIST_DONE (R43): The start-up tests of one quadrant end, and the next quadrant is tested or the outcome is decided. -/
  | quadrantBistDone (l m e : Bool) (ms misr : Nat)
  /-- DRAM_TRAINING_DONE (R357): DRAM training at timing sets A and B ends, and the DRAM fill starts. -/
  | dramTrainingDone (failed : List Nat)
  /-- SRAM_FILL_DONE (R38): The fill engine has written zeros with valid check bits to all on-chip SRAM. -/
  | sramFillDone
  /-- DRAM_FILL_DONE (R38): The DRAM fill ends, and the part enters BOOT or SAFE. -/
  | dramFillDone
  /-- FIRMWARE_VERIFY (R383): Halward finishes verifying the chosen firmware slot, falls back to other slots or to recovery boot, and releases the steward cores. -/
  | firmwareVerify
  /-- STREAM_VERIFY (R383): BRZ finishes verifying and checking the Brodzo stream and applies it, falls back to the other slot, or enters SAFE. -/
  | streamVerify
  /-- MAP_LOAD_DONE (R149): After a clean stop, every map segment is loaded from its directory copy and the part enters the operating mode. -/
  | mapLoadDone
  /-- RECOVERY_TAG_SCAN_DONE (R150): In RECOVER, the tag scan of the open blocks ends and commands are admitted. -/
  | recoveryTagScanDone
  /-- SEGMENT_RECOVERED (R149): One map segment is loaded, its journal records and tag candidates are applied, and its live cache records are pointed to. -/
  | segmentRecovered (seg : Nat)
  /-- RECOVER_DONE (R149): The last segment is applied, the interrupted erases are repeated, and the part enters the operating mode. -/
  | recoverDone (ms : Nat) (readable : Bool)
  /-- PWRFAIL_FALL (R47): PWRFAIL_N low for 1 µs stops fetching and starts the power-fail stop. -/
  | pwrfailFall
  /-- PWRFAIL_STOP_DONE (R47): The programs in progress finish, the open batch commits, the stop kind is recorded, and the NAND interfaces are released. -/
  | pwrfailStopDone
  /-- PWRFAIL_RISE (R48): PWRFAIL_N rises again, and a part reset with PFRET follows once the stop has finished. -/
  | pwrfailRise
  /-- PWRFAIL_HIGH_WAIT_END (R434): PWRFAIL_N has been high for 1 ms while the part waits in RESET, and start-up proceeds as from RESET_N rising. -/
  | pwrfailHighWaitEnd
  /-- THERMAL_TRIP (R447): A sensor reaches the trip temperature, the stop runs, and the part is held in RESET with FAULT_N asserted. -/
  | thermalTrip
  /-- PERST_ASSERT (R36): PERST_N low resets only its port, its link and its controllers. -/
  | perstAssert (port : Nat)
  /-- PERST_DEASSERT (R440): PERST_N rises and link training starts within 20 ms. -/
  | perstDeassert (port : Nat)
  /-- PCIE_LINK_UP (R57): A port finishes training and reports its rate and width, raising LINK_DEGRADED when below the expected rate or width. -/
  | pcieLinkUp (port rate width : Nat) (partner64 : Bool)
  /-- PCIE_LINK_DOWN (R58): A data link goes down without PERST_N and is treated as PERST_N for that port. -/
  | pcieLinkDown (port : Nat)
  /-- PCIE_LINK_RECOVERY (R85): A link that is up retrains through the Recovery state and is counted in RETRAIN. -/
  | pcieLinkRecovery (port : Nat)
  /-- QBIST_DUE (R44): The in-field test interval of a quadrant expires, and the test starts or is deferred. -/
  | qbistDue (q : Nat)
  /-- QBIST_NOW (R44): A write of NOW asks for a test of NEXTQ as soon as R44 allows. -/
  | qbistNow
  /-- QBIST_DRAIN_DONE (R44): The quadrant's programs and erases have drained, its state is saved and the quadrant is isolated for BIST. -/
  | qbistDrainDone
  /-- QBIST_PATTERNS_DONE (R46): In-field BIST ends, and the quadrant rejoins or is retired. -/
  | qbistPatternsDone (ok : Bool) (ms : Nat)
  /-- POWER_STATE_ENTRY_DONE (R50): The wait for outstanding work ends and the part enters PS3 or PS4 after the entry latency. -/
  | powerStateEntryDone
  /-- POWER_STATE_WAKE_DONE (R50): The exit latency after a wake ends, and the waking command is fetched. -/
  | powerStateWakeDone
  /-- AUTONOMOUS_PS_IDLE (R50): After 1 ms with no doorbell or admin command, the part enters the combined power state again. -/
  | autonomousPsIdle
  /-- SANITIZE_DONE (R40): The sanitize wipe and fill end, and the part enters the operating mode or SAFE. -/
  | sanitizeDone (ok : Bool)
  /-- MRAM_SLICE_TEST_DONE (R54): One 64 MiB write-cache slice test of the extended self-test ends. -/
  | mramSliceTestDone (ok : Bool)
  /-- EXTENDED_SELF_TEST_DONE (R54): The extended device self-test completes or takes its abort, and the part returns to the operating mode. -/
  | extendedSelfTestDone
  /-- FETCH_ROUND (R91): A fetch round grants one command to the eligible plot with the smallest virtual time. -/
  | fetchRound (cid bytes : Nat) (what : Fetched)
  /-- SQ_TAIL_DOORBELL (R61): A submission-queue tail doorbell write updates the tail or is refused as invalid. -/
  | sqTailDoorbell (p y v : Nat)
  /-- CQ_HEAD_DOORBELL (R30): A completion-queue head doorbell frees entries and lets stopped fetching resume. -/
  | cqHeadDoorbell (p y v : Nat)
  /-- HOST_CQ_STALL (R30): A completion queue stays full for 1 s, so fetching from its submission queues stops. -/
  | hostCqStall (p y : Nat)
  /-- CMD_TMAX_EXPIRED (R29): The T_MAX watchdog of a command expires and the command completes with Internal Error. -/
  | cmdTmaxExpired (id : CmdId) (held : List Nat)
  /-- INTERNAL_RESULT (R14): An internal result reaches the completion latch and is posted, or is discarded as late. -/
  | internalResult (id : CmdId) (pgen qgen : Nat) (st : Sc) (dw0 dw1 : Nat)
  /-- DELETE_IO_SUBMISSION_QUEUE (R70): Deletes a submission queue, and aborts its other commands exactly once at the deletion point. -/
  | deleteIoSubmissionQueue (c : NCmd) (qid : Nat) (unread : List Nat)
  /-- CREATE_IO_SUBMISSION_QUEUE (R63): Creates a contiguous I/O submission queue within the plot's allotment. -/
  | createIoSubmissionQueue (c : NCmd) (qid cqid size prio : Nat) (pc : Bool)
  /-- DELETE_IO_COMPLETION_QUEUE (R65): Deletes a completion queue unless a submission queue still posts to it. -/
  | deleteIoCompletionQueue (c : NCmd) (qid : Nat)
  /-- CREATE_IO_COMPLETION_QUEUE (R63): Creates a contiguous I/O completion queue within the plot's allotment. -/
  | createIoCompletionQueue (c : NCmd) (qid size vec : Nat) (ien pc : Bool)
  /-- GET_LOG_PAGE (R83): Returns a supported log page, filtered to the plot, and unmasks its asynchronous events when RAE = 0. -/
  | getLogPage (c : NCmd) (lid lsf lsi csi off len : Nat) (rae : Bool)
  /-- IDENTIFY (R80): Returns the Identify structures for the supported CNS values. -/
  | identify (c : NCmd) (cns cntid csi : Nat)
  /-- ABORT (R65): Always completes with command not aborted. -/
  | abort (c : NCmd)
  /-- GET_FEATURES (R79): Returns the value of a supported feature. -/
  | getFeatures (c : NCmd) (fid sel cdw11 : Nat)
  /-- SET_ARBITRATION (R64): Set Features 01h sets the arbitration burst and weights. -/
  | setArbitration (c : NCmd) (save : Bool) (ab lpw mpw hpw : Nat)
  /-- SET_POWER_MANAGEMENT (R51): Set Features 02h records the controller's power-state request, which combines with the others. -/
  | setPowerManagement (c : NCmd) (save : Bool) (ps : Nat)
  /-- SET_TEMPERATURE_THRESHOLD (R79): Set Features 04h sets the over or under temperature threshold. -/
  | setTemperatureThreshold (c : NCmd) (save : Bool) (t tsel sel : Nat)
  /-- SET_ERROR_RECOVERY (R79): Set Features 05h sets TLER, and DULBE = 1 is refused. -/
  | setErrorRecovery (c : NCmd) (save : Bool) (tler : Nat) (dulbe : Bool)
  /-- SET_NUMBER_OF_QUEUES (R79): Set Features 07h grants the smaller of the request and the allotment. -/
  | setNumberOfQueues (c : NCmd) (save : Bool) (nsq ncq : Nat)
  /-- SET_INTERRUPT_COALESCING (R79): Set Features 08h sets the coalescing threshold and time. -/
  | setInterruptCoalescing (c : NCmd) (save : Bool) (thr time : Nat)
  /-- SET_INTERRUPT_VECTOR_CONFIG (R79): Set Features 09h sets coalescing disable for a vector. -/
  | setInterruptVectorConfig (c : NCmd) (save : Bool) (vec : Nat) (cd : Bool)
  /-- SET_WRITE_ATOMICITY (R78): Set Features 0Ah sets Write Atomicity Normal. -/
  | setWriteAtomicity (c : NCmd) (save : Bool) (dn : Nat)
  /-- SET_ASYNC_EVENT_CONFIG (R82): Set Features 0Bh enables asynchronous event reporting bits. -/
  | setAsyncEventConfig (c : NCmd) (save : Bool) (v : Nat)
  /-- SET_AUTONOMOUS_PST (R50): Set Features 0Ch configures autonomous power state transitions. -/
  | setAutonomousPst (c : NCmd) (save on : Bool) (table : List (Nat × Nat × Nat))
  /-- SET_TIMESTAMP (R457): Set Features 0Eh sets the controller's timestamp, and the device timestamp for plot 0. -/
  | setTimestamp (c : NCmd) (save : Bool) (t : Nat)
  /-- SET_HOST_THERMAL_MGMT (R446): Set Features 10h sets TMT1 and TMT2. -/
  | setHostThermalMgmt (c : NCmd) (save : Bool) (t1 t2 : Nat)
  /-- SET_VOLATILE_WRITE_CACHE (R72): Set Features 06h completes with Invalid Field in Command. -/
  | setVolatileWriteCache (c : NCmd)
  /-- SET_COMMAND_BOUND (R79): Set Features C0h sets T_MAX, as TOP_TMAX does. -/
  | setCommandBound (c : NCmd) (save : Bool) (v : Nat)
  /-- SET_EARLY_WARNING (R159): Set Features C1h sets the early-warning set and thresholds, or completes with C7h. -/
  | setEarlyWarning (c : NCmd) (save : Bool) (set_ ew crit wear : Nat) (zeros : Bool)
  /-- SET_VENDOR_EVENT_NOTICES (R84): Set Features C2h enables vendor asynchronous events. -/
  | setVendorEventNotices (c : NCmd) (save : Bool) (v : Nat)
  /-- ASYNCHRONOUS_EVENT_REQUEST (R84): Holds an outstanding request that a later asynchronous event completes. -/
  | asynchronousEventRequest (c : NCmd)
  /-- NAMESPACE_MANAGEMENT (R69): Creates or deletes a namespace after the map-region and capacity checks. -/
  | namespaceManagement (c : NCmd) (del : Bool) (nsze ncap lbaf pi : Nat) (ext shared : Bool) (iu geom comp : Nat) (refused : Option Nat)
  /-- NAMESPACE_ATTACHMENT (R65): Attaches or detaches a namespace to controllers of any plot. -/
  | namespaceAttachment (c : NCmd) (detach : Bool) (list : List Nat)
  /-- VIRTUALIZATION_MANAGEMENT (R97): Changes a plot's queue and vector allotments, or completes with C7h. -/
  | virtualizationManagement (c : NCmd) (act rt cntid nr : Nat)
  /-- FORMAT_NVM (R65): Changes the LBA format of one namespace while keeping its IU and byte size. -/
  | formatNvm (c : NCmd) (lbaf ses pi : Nat) (ext : Bool)
  /-- FIRMWARE_IMAGE_DOWNLOAD (R65): Stores a 4 KiB-aligned piece of a firmware image or stream. -/
  | firmwareImageDownload (c : NCmd) (off len : Nat) (o : Machine.Object)
  /-- FIRMWARE_COMMIT (R75): Commit actions 0–2 verify an image and record it for the next part reset. -/
  | firmwareCommit (c : NCmd) (fs ca : Nat)
  /-- FW_ACTIVATE_NO_RESET (R75): Commit action 3 stops fetching and drains the commands in flight, so that the firmware can activate. -/
  | fwActivateNoReset (c : NCmd) (fs : Nat)
  /-- FW_ACTIVATION_DRAIN_DONE (R75): The drain ends in time, the image activates and fetching resumes. -/
  | fwActivationDrainDone (us : Nat)
  /-- FW_ACTIVATION_DRAIN_TIMEOUT (R75): The drain passes 1.5 s, activation is refused and fetching resumes. -/
  | fwActivationDrainTimeout (us : Nat)
  /-- STREAM_COMMIT (R385): Firmware Commit of a Brodzo stream verifies it and writes it to the inactive slot. -/
  | streamCommit (c : NCmd) (fs ca : Nat)
  /-- SHORT_SELF_TEST (R65): Device Self-test runs the ECC checker self-test and a metadata read check. -/
  | shortSelfTest (c : NCmd) (ok : Bool)
  /-- EXTENDED_SELF_TEST (R54): Device Self-test starts the extended self-test and enters SELFTEST. -/
  | extendedSelfTest (c : NCmd)
  /-- SELF_TEST_ABORT (R54): Device Self-test aborts the running test once the quadrant or slice under test is restored. -/
  | selfTestAbort (c : NCmd)
  /-- CRYPTO_ERASE (R282): Sanitize Crypto Erase advances every key epoch, clears the media keys, wipes MRAM and deallocates. -/
  | cryptoErase (c : NCmd)
  /-- BLOCK_ERASE (R65): Sanitize Block Erase does a crypto erase and erases every good block. -/
  | blockErase (c : NCmd)
  /-- RESEAT_ANCHOR (R204): Verifies an anchor token, records the new anchor and epoch, and decides quorum again. -/
  | reseatAnchor (c : NCmd) (anchor : Nat) (t : AnchorTok)
  /-- APPLY_GRAFT (R388): Verifies and checks a graft and makes it pending. -/
  | applyGraft (c : NCmd) (len : Nat) (g : Machine.Graft)
  /-- SECURITY_RECEIVE (R397): Returns the held Halward response, or pending or no request. -/
  | securityReceive (c : NCmd) (secp spsp al : Nat)
  /-- FLUSH (R72): Completes without waiting on flash, because covered writes are already in MRAM. -/
  | flush (c : NCmd)
  /-- WRITE (R137): Moves data into write-cache slots, writes a commit record and posts the completion. -/
  | write (c : NCmd) (slba : Nat) (data : List (Nat × Nat)) (pi : PiCmd)
  /-- WRITE_TRANSFER_RESUME (R141): A write held for want of a free slot or commit record continues once one is freed. -/
  | writeTransferResume
  /-- READ (R66): Reads logical blocks through the map and the media path to host memory. -/
  | read (c : NCmd) (slba nlb : Nat) (pi : PiCmd)
  /-- WRITE_UNCORRECTABLE (R66): Marks IUs or blocks uncorrectable through a commit record. -/
  | writeUncorrectable (c : NCmd) (slba nlb : Nat)
  /-- COMPARE (R66): Compares host data with the stored blocks. -/
  | compare (c : NCmd) (slba : Nat) (data : List (Nat × Nat)) (pi : PiCmd)
  /-- WRITE_ZEROES (R66): Records zeros in the map without a flash write. -/
  | writeZeroes (c : NCmd) (slba nlb : Nat) (deac : Bool)
  /-- DATASET_MANAGEMENT (R66): Deallocates ranges, and ignores the other attributes. -/
  | datasetManagement (c : NCmd) (ad : Bool) (ranges : List (Nat × Nat))
  /-- VERIFY (R66): Reads and decodes without transfer. -/
  | verify (c : NCmd) (slba nlb : Nat) (pi : PiCmd)
  /-- RESERVATION_REGISTER (R66): Registers a reservation key, persistently. -/
  | reservationRegister (c : NCmd) (rrega : Nat) (iekey : Bool) (cptpl crkey nrkey : Nat)
  /-- RESERVATION_REPORT (R66): Returns the reservation status. -/
  | reservationReport (c : NCmd) (len : Nat)
  /-- RESERVATION_ACQUIRE (R66): Acquires a reservation. -/
  | reservationAcquire (c : NCmd) (racqa rtype : Nat) (iekey : Bool) (crkey prkey : Nat)
  /-- RESERVATION_RELEASE (R66): Releases a reservation. -/
  | reservationRelease (c : NCmd) (rrela rtype : Nat) (iekey : Bool) (crkey : Nat)
  /-- COPY (R66): Copies ranges within a namespace without host transfer, keeping poison marks. -/
  | copy (c : NCmd) (sdlba fmt : Nat) (ranges : List (Nat × Nat)) (pr pw : PiCmd)
  /-- EXECUTE_PROGRAM (R454): Runs a fixed or downloadable program on its parameter block or launch block. -/
  | executeProgram (c : NCmd) (index set : Nat) (param : List Byte)
  /-- LOAD_PROGRAM (R337): Verifies and stores a program image or Sieve image at a program index. -/
  | loadProgram (c : NCmd) (index : Nat) (unload : Bool) (ptype size off : Nat) (image : List Byte) (pats : List Machine.Rx) (bodyOk sigOk : Bool)
  /-- PROGRAM_ACTIVATION_MANAGEMENT (R337): Activates or deactivates a loaded program or Sieve image. -/
  | programActivationManagement (c : NCmd) (index : Nat) (activate : Bool)
  /-- MEMORY_RANGE_SET_MANAGEMENT (R454): Defines memory range sets within the plot's memory namespace. -/
  | memoryRangeSetManagement (c : NCmd) (create : Bool) (id : Nat) (ranges : List (Nat × Nat × Nat))
  /-- MEMORY_READ (R454): Reads the plot's SLM to host memory. -/
  | memoryRead (c : NCmd) (offset bytes : Nat)
  /-- MEMORY_WRITE (R454): Writes host data into the plot's SLM. -/
  | memoryWrite (c : NCmd) (offset : Nat) (data : List Byte)
  /-- MEMORY_COPY (R454): Copies within the plot's SLM. -/
  | memoryCopy (c : NCmd) (dest : Nat) (sources : List (Nat × Nat × Nat))
  /-- MEMORY_FILL (R454): Fills a range of the plot's SLM. -/
  | memoryFill (c : NCmd) (offset bytes value : Nat)
  /-- CC_ENABLE (R37): CC.EN set to 1 makes the controller ready within 20 ms once the part has reached a serving mode. -/
  | ccEnable (p css ams asq acq : Nat)
  /-- CC_DISABLE (R73): CC.EN cleared resets the controller, advances its queue generations and posts nothing more. -/
  | ccDisable (p : Nat)
  /-- NORMAL_SHUTDOWN (R74): CC.SHN = 01b stops fetching, completes fetched commands and records a clean stop. -/
  | normalShutdown (p : Nat)
  /-- ABRUPT_SHUTDOWN (R74): CC.SHN = 10b shuts down without waiting for outstanding commands. -/
  | abruptShutdown (p : Nat)
  /-- FUNCTION_LEVEL_RESET (R104): A Function Level Reset is a controller reset of plot 0 or a plot reset of another plot. -/
  | functionLevelReset (p : Nat)
  /-- MI_STATUS (R86): NVMe-MI command code 0 returns the status data structure. -/
  | miStatus (busOk : Bool)
  /-- MI_VENDOR_ID_SERIAL (R86): NVMe-MI command code 8 returns the vendor ID and serial number. -/
  | miVendorIdSerial (busOk : Bool)
  /-- MI_ELOASKO_BLOCK (R86): NVMe-MI command code 90 returns the 8-byte Eloasko status block. -/
  | miEloaskoBlock (busOk : Bool)
  /-- SMBUS_SCL_TIMEOUT (R437): SMB_SCL held low for 25–35 ms makes the part release the bus. -/
  | smbusSclTimeout
  /-- PLOT_ENABLE (R89): A write of PLOT_CTL.EN = 1 enables a plot, or is refused against the totals. -/
  | plotEnable (n : Nat)
  /-- PLOT_DISABLE (R109): A write of PLOT_CTL.EN = 0 starts the removal of the plot. -/
  | plotDisable (n : Nat)
  /-- VF_ENABLE_CLEAR (R89): Clearing VF Enable or lowering NumVFs removes the plots of the vanished functions. -/
  | vfEnableClear (pf n : Nat)
  /-- PLOT_RST (R104): A write of PLOT_CTL.RST requests a plot reset, held while the generation would collide. -/
  | plotRst (n : Nat)
  /-- PLOT_RESET_POINT (R105): At the reset point, fetching stops, the generations advance, and the plot's jobs and programs are suspended. -/
  | plotResetPoint (n : Nat) (held : List Nat)
  /-- PLOT_SLM_FILL_DONE (R105): The zero fill of the plot's SLM ends and the controller state is cleared, ending the reset or removal. -/
  | plotSlmFillDone (n : Nat)
  /-- PLOT_SHARE_WRITE (R97): A write to a PLOT table share field takes effect as its row states, or is refused under R90. -/
  | plotShareWrite (n off v : Nat)
  /-- SLM_GROW_FILL_DONE (R97): The zero fill of added SLM ends, and EFFECT takes the new size. -/
  | slmGrowFillDone (n : Nat)
  /-- MB_SEQ_WRITE (R99): A write to UP_SEQ or DN_SEQ posts checked messages, or is rejected. -/
  | mbSeqWrite (n : Nat) (up : Bool) (v : Nat)
  /-- MB_ACK_WRITE (R100): A write to UP_ACK or DN_ACK frees acknowledged slots, or has no effect. -/
  | mbAckWrite (n : Nat) (up : Bool) (v : Nat)
  /-- MB_INC_WRITE (R102): A new incarnation is accepted and the restart is flagged to the peer. -/
  | mbIncWrite (n : Nat) (tenant : Bool) (v : Nat)
  /-- MB_SLOT_WRITE (R101): A write to a ring slot has no effect while its message is posted and unacknowledged. -/
  | mbSlotWrite (n : Nat) (up : Bool) (w v : Nat)
  /-- DIE_DISCOVERY (R114): At BOOT, Read ID and the parameter page are read from each declared die, and dies that fail are marked failed. -/
  | dieDiscovery (die : Nat) (answers crcOk : Bool) (tRead tProg tErase rate jedec : Nat) (page : List Byte) (susp : Bool)
  /-- CHANNEL_TRAINING (R130): At BOOT, a channel trains its targets, stepping down the rate until training passes. -/
  | channelTraining (ch : Nat) (passes : List Nat) (temps : List Int)
  /-- DIE_OP_ISSUE (R115): The sequencer issues the next operation of a die queue by class and age. -/
  | dieOpIssue (die : Nat)
  /-- DIE_STATUS_POLL (R117): A status poll shows the LUN ready, ending the operation in time or as a late status. -/
  | dieStatusPoll (die elapsed : Nat)
  /-- DIE_TIMEOUT (R118): An operation's deadline passes, it fails on the die, and the die is reset. -/
  | dieTimeout (die : Nat)
  /-- DIE_RESET_TIMEOUT (R118): The wait for ready after a die reset passes its deadline, and the reset is issued again. -/
  | dieResetTimeout (die : Nat)
  /-- PROGRAM_SUSPEND (R116): A host read has waited SUSPWAIT, so the program or erase is suspended to serve reads. -/
  | programSuspend (die : Nat)
  /-- CODEWORD_DECODE (R122): A codeword arrives and is hard-decoded, decrypted and CRC-checked. -/
  | codewordDecode (loc ptype : Nat) (v : Decode)
  /-- READ_RETRY_REREAD (R122): A reread under the next retry entry completes and the codewords that remain are decoded. -/
  | readRetryReread (die block page : Nat) (ok : List Nat) (expired : Bool) (elapsed : Nat)
  /-- SOFT_DECODE (R122): The two extra reads complete and the soft decode runs. -/
  | softDecode (loc : Nat) (v : Decode) (expired : Bool) (elapsed : Nat)
  /-- RECONSTRUCTION (R169): STRP reads the other members of the stripe and solves the erasures. -/
  | reconstruction (loc : Nat) (unread late : List Nat) (sound expired : Bool)
  /-- TARGET_RETRAIN (R130): A temperature change or 10-minute interval retrains a target, stepping the channel down after two failures. -/
  | targetRetrain (target : Nat) (temp : Int) (ok : Bool)
  /-- JOURNAL_BATCH_CLOSE (R142): The map journal batch closes after 64 µs or 8,192 records. -/
  | journalBatchClose
  /-- JOURNAL_BATCH_COMMIT (R142): MRAMC commits a batch in sequence order, which may free commit records. -/
  | journalBatchCommit
  /-- CHECKPOINT_PASS_START (R144): A checkpoint pass starts on its period, volume, ring or dirty trigger. -/
  | checkpointPassStart
  /-- SEGMENT_COPY_DONE (R144): A segment copy is programmed and protected, and the directory points to it. -/
  | segmentCopyDone (seg : Nat)
  /-- DESTAGE (R146): Cache IUs are programmed to flash in die-parity stripes. -/
  | destage (nsid iu g : Nat) (pad : Bool)
  /-- NAND_PROGRAM_DONE (R146): A page program succeeds, and its row accumulator and the map records advance. -/
  | nandProgramDone (die : Nat)
  /-- PROG_FAIL (R147): A program fails, the block closes and the data is programmed elsewhere. -/
  | progFail (die : Nat)
  /-- ERASE_DONE (R146): An erase succeeds and ERASE_DONE is committed. -/
  | eraseDone (die : Nat)
  /-- ERASE_FAIL (R147): An erase fails and the block is marked bad. -/
  | eraseFail (die : Nat)
  /-- COMPOST_VICTIM (R152): Compost selects a victim block by reason, once free blocks fall below a watermark. -/
  | compostVictim (g : Nat)
  /-- RELOCATION_COPY_DONE (R135): A relocated copy is programmed, and its conditional map update is journalled or dropped. -/
  | relocationCopyDone (nsid iu : Nat)
  /-- READ_DISTURB_LIMIT (R152): A block's read count reaches READMAX and it is queued for relocation. -/
  | readDisturbLimit (die block : Nat)
  /-- RETENTION_LIMIT (R153): A block's retention age reaches RETAIN and it is queued for relocation. -/
  | retentionLimit (die block : Nat)
  /-- STRIPE_REPLAY (R168): After an unclean stop, STRP replays every journal slot that is not FREE. -/
  | stripeReplay (torn : List Nat)
  /-- MAP_WALK_DONE (R174): The map walk lists the IUs on the failed die, and relocation starts. -/
  | mapWalkDone (g : Nat)
  /-- REBUILD_STRIPE (R174): Rebuild reconstructs and relocates one block stripe's valid codewords. -/
  | rebuildStripe (g bsn : Nat) (lost : List (Nat × Nat))
  /-- RAKE_STRIPE_CHECK (R180): Rake reads a stripe, recomputes its parity and acts on what it finds. -/
  | rakeStripeCheck (g bsn page slot : Nat) (x : RakeFinding) (last : Bool)
  /-- GWL_LINK_UP (R182): Link training ends with matching TRAIN frames and the link comes up. -/
  | gwlLinkUp (l : Nat) (x4 reversed : Bool)
  /-- GWL_TRAIN_RETRY (R182): The 1 s WIRING or 100 ms retry timer expires and the link trains again. -/
  | gwlTrainRetry (l : Nat)
  /-- GWL_DATA_FRAME (R184): A DATA frame is received, and accepted, dropped or treated as a duplicate. -/
  | gwlDataFrame (l : Nat) (f : GwlFrame)
  /-- GWL_IDLE_FRAME (R185): An IDLE frame brings an acknowledgement and credits. -/
  | gwlIdleFrame (l : Nat) (f : GwlFrame)
  /-- GWL_NAK (R185): A NAK causes a go-back-N resend of the kept frames. -/
  | gwlNak (l : Nat) (f : GwlFrame)
  /-- GWL_TRAIN_FRAME (R182): A TRAIN frame carries training and link control. -/
  | gwlTrainFrame (l peer plink cluster rhash : Nat)
  /-- GWL_HEARTBEAT (R191): A HEARTBEAT frame updates the newest heard counters of the members. -/
  | gwlHeartbeat (l : Nat) (f : GwlFrame)
  /-- GWL_REPLAY_TIMEOUT (R185): ACK has not advanced for REPLAYTO, so kept frames are resent, and the link retrains after REPLAYMAX resends. -/
  | gwlReplayTimeout (l : Nat)
  /-- GWL_ACK_HOLD_TIMEOUT (R185): An acknowledgement held for 16 frames or 200 ns sends an IDLE frame. -/
  | gwlAckHoldTimeout (l : Nat)
  /-- GWL_LINK_TIMEOUT (R186): No valid frame arrives for LINKTO, and the link is declared down. -/
  | gwlLinkTimeout (l : Nat)
  /-- HEARTBEAT_PERIOD (R191): Each period, a heartbeat is sent on every link that is up. -/
  | heartbeatPeriod
  /-- MEMBER_LOST (R191): A member's counter has not advanced within MISS, and it becomes unreachable. -/
  | memberLost (i : Nat)
  /-- VIEW_CHANGE (R192): The reachable set has been stable for SETTLE, so a new view is adopted and quorum decided. -/
  | viewChange (fresh : Nat)
  /-- CHUNK_FORWARD (R197): An owning member receives a forwarded chunk operation and serves it as local. -/
  | chunkForward (src nsid r j tag : Nat) (rebuild : Bool)
  /-- CHUNK_RESULT (R197): A chunk result reaches the receiving member for the command. -/
  | chunkResult (src nsid r j tag : Nat) (v : Option Nat)
  /-- CLUSTER_SHARE_RESERVE (R195): A member is asked to reserve its share of a new cluster namespace. -/
  | clusterShareReserve (src nsid nsze geom lbaf iu pi : Nat) (ext create : Bool)
  /-- STRIPE_LOCK (R198): An owner grants a stripe lock in arrival order. -/
  | stripeLock (lead tseq nsid r recv : Nat) (peer : Option Nat) (parts : List (Nat × Nat × Nat))
  /-- PREPARE (R198): A data member writes new chunk data under a KIND 0x5 record. -/
  | prepare (src lead tseq nsid r j : Nat) (parts : List (Nat × Nat)) (delta : Option Nat)
  /-- PREPARED (R198): A prepared notice reaches an owner or the lead. -/
  | prepared (lead tseq j delta : Nat) (ok : Bool)
  /-- MIRROR_ENTRY (R199): A mirror holder stores an owner's journal entry and acknowledges it. -/
  | mirrorEntry (e : CEntry)
  /-- MIRROR_ACK (R198): The mirror acknowledges the lead's COMMIT entry, which is the decision point. -/
  | mirrorAck (lead tseq st : Nat)
  /-- CLUSTER_COMMIT (R198): A member receives COMMIT and writes a KIND 0x6 record. -/
  | clusterCommit (src lead tseq : Nat)
  /-- CLUSTER_ABORT (R198): A member receives an abort and writes a KIND 0x7 record. -/
  | clusterAbort (lead tseq : Nat)
  /-- TRANSACTION_DONE (R198): Every member has committed, and the lead answers the receiving member. -/
  | transactionDone (lead tseq : Nat)
  /-- CLUSTER_JOURNAL_RESOLVE (R201): A restarting member resolves the transactions left in its journal. -/
  | clusterJournalResolve (failed : Option Nat) (lost : List (Nat × Nat))
  /-- DECISION_QUERY (R201): A member asks the lead or its mirror holder for a transaction's decision. -/
  | decisionQuery (src lead tseq : Nat) (lost : List (Nat × Nat))
  /-- RESYNC_STRIPE (R203): An owner resynchronises one dirty stripe to the rejoining members. -/
  | resyncStripe (owner nsid r : Nat) (recv : List (Nat × Nat)) (last : Bool)
  /-- ANCHOR_TOKEN (R204): A member receives a passed anchor token and decides quorum again. -/
  | anchorToken (t : AnchorTok)
  /-- TREL_RSUB (R218): A write to TREL_RSUB posts job descriptors, or is refused. -/
  | trelRsub (q r seq : Nat)
  /-- TREL_RACK (R219): A write to TREL_RACK acknowledges completion entries, or is refused. -/
  | trelRack (q r seq : Nat)
  /-- RING_ENABLE (R216): A write of TREL_RCTL.EN enables a ring, records the owner generation and zeroes the pointers. -/
  | ringEnable (q r value : Nat)
  /-- JOB_START (R215): The Trellis starts a job once a completion entry and any Skim context are reserved. -/
  | jobStart (q r u : Nat)
  /-- CURD_ARRIVAL (R213): A curd arrives at a node input under credit, or at a sink. -/
  | curdArrival (q slot stage : Nat) (curd : CurdIn) (finds : List Finding)
  /-- CREDIT_RETURN (R214): A freed buffer entry returns credit, and a suspended job resumes. -/
  | creditReturn (q slot stage : Nat)
  /-- JOB_END (R221): A job ends once with its final status and writes its completion entry. -/
  | jobEnd (q slot : Nat)
  /-- JOB_TIMEOUT (R221): A job's TIMEOUT expires and it ends with JS_TIMEOUT. -/
  | jobTimeout (q slot : Nat)
  /-- SKIM_UNIT (R225): A Skim unit parses and filters one input unit into at most one batch. -/
  | skimUnit (q un slot unitOff : Nat) (data : List Byte) (poison : List Nat) (untrusted unmapped channel : Bool) (src : Nat)
  /-- SKIM_REBIND (R222): The Trellis lends a Skim unit or binds it back to its channel. -/
  | skimRebind (q u : Nat) (lent : Bool)
  /-- SEGMENT_SWAPPED (R238): The last job on a changed template ends and the graft segment swaps in one cycle. -/
  | segmentSwapped (q : Nat)
  /-- CHURN_JOB_SWITCH (R241): At a suspension point, Churn suspends or rotates the running job by class and quantum. -/
  | churnJobSwitch (q pipe n : Nat) (ended : Bool)
  /-- IU_COMPRESS (R253): Destage compresses an IU of a compressed namespace, and stores it compressed or not. -/
  | iuCompress (q nsid iu : Nat)
  /-- IU_DECOMPRESS (R255): A read of a compressed IU decompresses the whole IU and checks UCRC. -/
  | iuDecompress (nsid iu : Nat)
  /-- SIEVE_JOB_SWITCH (R263): The automaton switches jobs at a curd boundary by class and quantum. -/
  | sieveJobSwitch (q n : Nat) (ended : Bool)
  /-- CAM_SEARCH (R266): A CAM slot searches a table, and the lowest matching index wins. -/
  | camSearch (q t key : Nat) (poisoned : Bool) (job : Option Nat) (bad : List (Nat × Bool))
  /-- CAM_WRITE (R269): UCMD WRITE writes an entry at INDEX with no shift. -/
  | camWrite (q t index : Nat)
  /-- INSERT_AT (R270): UCMD INSERT_AT inserts into a class A table, shifting entries up. -/
  | insertAt (q t index : Nat)
  /-- INSERT_KEY (R271): UCMD INSERT_KEY inserts into a class B group, or replaces an equal entry. -/
  | insertKey (q t : Nat) (replace : Bool)
  /-- CAM_DELETE (R269): UCMD DELETE clears an entry, and a class B group closes up. -/
  | camDelete (q t index : Nat)
  /-- CLEAR_TABLE (R269): UCMD CLEAR_TABLE clears every entry of the table. -/
  | clearTable (q t : Nat)
  /-- UPDATE_DONE (R269): A CAM update's writes finish, and BUSY clears with the status and index. -/
  | updateDone (q : Nat)
  /-- SIEVE_TBL_WRITE (R267): A write to a table descriptor enables it, or starts disabling it. -/
  | sieveTblWrite (q t value : Nat)
  /-- KEY_DERIVATION (R278): Halward derives a key from a label into a key slot. -/
  | keyDerivation (q : Nat) (lane : Option (Nat × Nat)) (slot purpose : Nat)
  /-- GCM_LEASE (R284): A key slot asks for a lease of GCM counter values, which is granted or refused. -/
  | gcmLease (q idx : Nat)
  /-- GCM_TAG_CHECK (R288): At the end of a GCM message the tag is checked, and output is marked untrusted on failure. -/
  | gcmTagCheck (q slot : Nat)
  /-- ENGINE_SWITCH (R291): CIPH or DGST suspends or rotates messages at block boundaries by class. -/
  | engineSwitch (q : Nat) (digest : Bool) (n : Nat) (ended : Bool)
  /-- DGST_OPEN (R293): SCTL.OPEN opens a digest session, takes a context and may derive an HMAC key. -/
  | dgstOpen (q ses plot : Nat)
  /-- DGST_DATA (R294): A 64-bit DATA write adds 8 message bytes. -/
  | dgstData (q ses plot word : Nat) (poisoned : Bool)
  /-- DGST_LAST (R294): A LAST[n] write adds n bytes and finishes the message. -/
  | dgstLast (q ses n plot word : Nat) (poisoned : Bool)
  /-- DGST_FIN0 (R294): FIN0 finishes a zero-byte message. -/
  | dgstFin0 (q ses plot : Nat)
  /-- DGST_ABORT (R295): SCTL.ABORT ends the session with ERR 5. -/
  | dgstAbort (q ses plot : Nat)
  /-- DGST_DIGEST_DONE (R294): The digest lands in DGST_RES, the session becomes DONE and the comparators run. -/
  | dgstDigestDone (q ses : Nat) (fault : Bool)
  /-- DGST_IDLE_TIMEOUT (R295): An open session idle for IDLE ms ends with ERR 4. -/
  | dgstIdleTimeout (q ses : Nat)
  /-- DGST_EXP_WRITE (R297): A complete write to DGST_EXP runs both comparators again. -/
  | dgstExpWrite (q ses i plot value : Nat) (fault : Bool)
  /-- ADD (R310): rd := ra + rb. -/
  | add (c g rd ra rb : Nat) (sf : Bool)
  /-- ADC (R310): rd := ra + rb + C. -/
  | adc (c g rd ra rb : Nat) (sf : Bool)
  /-- SUB (R310): rd := ra − rb. -/
  | sub (c g rd ra rb : Nat) (sf : Bool)
  /-- SBC (R310): rd := ra + NOT rb + C. -/
  | sbc (c g rd ra rb : Nat) (sf : Bool)
  /-- NEG (R310): rd := 0 − ra. -/
  | neg (c g rd ra : Nat) (sf : Bool)
  /-- AND (R310): rd := ra AND rb. -/
  | and (c g rd ra rb : Nat) (sf : Bool)
  /-- OR (R310): rd := ra OR rb. -/
  | or (c g rd ra rb : Nat) (sf : Bool)
  /-- XOR (R310): rd := ra XOR rb. -/
  | xor (c g rd ra rb : Nat) (sf : Bool)
  /-- ANDN (R310): rd := ra AND NOT rb. -/
  | andn (c g rd ra rb : Nat) (sf : Bool)
  /-- ORN (R310): rd := ra OR NOT rb. -/
  | orn (c g rd ra rb : Nat) (sf : Bool)
  /-- SHL (R311): Shift left by rb[7:0]. -/
  | shl (c g rd ra rb : Nat) (sf : Bool)
  /-- SHR (R311): Logical shift right by rb[7:0]. -/
  | shr (c g rd ra rb : Nat) (sf : Bool)
  /-- SAR (R311): Arithmetic shift right by rb[7:0]. -/
  | sar (c g rd ra rb : Nat) (sf : Bool)
  /-- ROR (R311): Rotate right by rb mod 64. -/
  | ror (c g rd ra rb : Nat) (sf : Bool)
  /-- ROL (R311): Rotate left by rb mod 64. -/
  | rol (c g rd ra rb : Nat) (sf : Bool)
  /-- MUL (R310): Low 64 bits of the product. -/
  | mul (c g rd ra rb : Nat) (sf : Bool)
  /-- MULHU (R310): High 64 bits of the unsigned product. -/
  | mulhu (c g rd ra rb : Nat) (sf : Bool)
  /-- MULHS (R310): High 64 bits of the signed product. -/
  | mulhs (c g rd ra rb : Nat) (sf : Bool)
  /-- DIVU (R312): Unsigned quotient, with the divide-by-zero rules. -/
  | divu (c g rd ra rb : Nat) (sf : Bool)
  /-- DIVS (R312): Signed quotient, truncating toward zero. -/
  | divs (c g rd ra rb : Nat) (sf : Bool)
  /-- REMU (R312): Unsigned remainder. -/
  | remu (c g rd ra rb : Nat) (sf : Bool)
  /-- REMS (R312): Signed remainder with the sign of the dividend. -/
  | rems (c g rd ra rb : Nat) (sf : Bool)
  /-- SXTB (R310): Sign-extend byte. -/
  | sxtb (c g rd ra : Nat) (sf : Bool)
  /-- SXTH (R310): Sign-extend halfword. -/
  | sxth (c g rd ra : Nat) (sf : Bool)
  /-- SXTW (R310): Sign-extend word. -/
  | sxtw (c g rd ra : Nat) (sf : Bool)
  /-- ZXTW (R310): Zero-extend word. -/
  | zxtw (c g rd ra : Nat) (sf : Bool)
  /-- CLZ (R310): Count leading zero bits. -/
  | clz (c g rd ra : Nat) (sf : Bool)
  /-- CTZ (R310): Count trailing zero bits. -/
  | ctz (c g rd ra : Nat) (sf : Bool)
  /-- POPC (R310): Count one bits. -/
  | popc (c g rd ra : Nat) (sf : Bool)
  /-- BSWAP (R310): Reverse the 8 bytes. -/
  | bswap (c g rd ra : Nat) (sf : Bool)
  /-- DADD (R320): Decimal addition of 16 BCD digits. -/
  | dadd (c g rd ra rb : Nat)
  /-- DADC (R320): Decimal addition with carry. -/
  | dadc (c g rd ra rb : Nat)
  /-- DSUB (R320): Decimal subtraction, ten's complement. -/
  | dsub (c g rd ra rb : Nat)
  /-- DSBC (R320): Decimal subtraction with borrow. -/
  | dsbc (c g rd ra rb : Nat)
  /-- DAA (R321): Decimal adjust of a byte after a binary addition. -/
  | daa (c g rd ra : Nat)
  /-- DAS (R321): Decimal adjust of a byte after a binary subtraction. -/
  | das (c g rd ra : Nat)
  /-- CVBD (R320): Binary to BCD. -/
  | cvbd (c g rd ra : Nat)
  /-- CVDB (R320): BCD to binary. -/
  | cvdb (c g rd ra unused : Nat)
  /-- ADDI (R310): Add a sign-extended immediate, without flags. -/
  | addi (c g rd ra imm : Nat)
  /-- ADDIS (R310): Add an immediate, setting flags. -/
  | addis (c g rd ra imm : Nat)
  /-- SUBIS (R310): Subtract an immediate, setting flags. -/
  | subis (c g rd ra imm : Nat)
  /-- ANDI (R310): AND with an immediate. -/
  | andi (c g rd ra imm : Nat)
  /-- ORI (R310): OR with an immediate. -/
  | ori (c g rd ra imm : Nat)
  /-- XORI (R310): XOR with an immediate. -/
  | xori (c g rd ra imm : Nat)
  /-- ANDIS (R310): AND with an immediate, setting N and Z. -/
  | andis (c g rd ra imm : Nat)
  /-- SHLI (R311): Shift left by an immediate. -/
  | shli (c g rd ra imm : Nat)
  /-- SHRI (R311): Logical shift right by an immediate. -/
  | shri (c g rd ra imm : Nat)
  /-- SARI (R311): Arithmetic shift right by an immediate. -/
  | sari (c g rd ra imm : Nat)
  /-- RORI (R311): Rotate right by an immediate. -/
  | rori (c g rd ra imm : Nat)
  /-- SETI (R302): Load a sign- or zero-extended 16-bit immediate. -/
  | seti (c g rd : Nat) (x : Bool) (imm : Nat)
  /-- SHIN (R302): Shift rd left 16 and insert an immediate. -/
  | shin (c g rd : Nat) (x : Bool) (imm : Nat)
  /-- ADDPC (R302): rd := pc + immediate. -/
  | addpc (c g rd imm : Nat)
  /-- LB (R313): Load a sign-extended byte. -/
  | lb (c g rd ra imm : Nat)
  /-- LBU (R313): Load a zero-extended byte. -/
  | lbu (c g rd ra imm : Nat)
  /-- LH (R313): Load a sign-extended halfword. -/
  | lh (c g rd ra imm : Nat)
  /-- LHU (R313): Load a zero-extended halfword. -/
  | lhu (c g rd ra imm : Nat)
  /-- LW (R313): Load a sign-extended word. -/
  | lw (c g rd ra imm : Nat)
  /-- LWU (R313): Load a zero-extended word. -/
  | lwu (c g rd ra imm : Nat)
  /-- LD (R313): Load a doubleword. -/
  | ld (c g rd ra imm : Nat)
  /-- SB (R313): Store a byte. -/
  | sb (c g rd ra imm : Nat)
  /-- SH (R313): Store a halfword. -/
  | sh (c g rd ra imm : Nat)
  /-- SW (R313): Store a word. -/
  | sw (c g rd ra imm : Nat)
  /-- SD (R313): Store a doubleword. -/
  | sd (c g rd ra imm : Nat)
  /-- CAS (R314): Atomic compare and swap of a doubleword. -/
  | cas (c g rd ra rb : Nat)
  /-- BCC (R316): Conditional branch. -/
  | bcc (c g cond disp : Nat)
  /-- B (R316): Branch. -/
  | b (c g disp : Nat)
  /-- BL (R316): Branch and link. -/
  | bl (c g disp : Nat)
  /-- BR (R316): Branch to a register. -/
  | br (c g ra : Nat)
  /-- BLR (R316): Branch to a register and link. -/
  | blr (c g ra : Nat)
  /-- MFSR (R300): Read a special register. -/
  | mfsr (c g rd sr unused : Nat)
  /-- MTSR (R317): Write a special register. -/
  | mtsr (c g sr ra unused : Nat)
  /-- RTE (R330): Return from a trap. -/
  | rte (c g unused : Nat)
  /-- FENCE (R309): Complete every earlier access before any later one. -/
  | fence (c g : Nat)
  /-- WFE (R347): Wait for a core event line, giving up the core at P. -/
  | wfe (c g : Nat)
  /-- SVC (R327): Supervisor call trap, for immediates other than 0–2 at P. -/
  | svc (c g imm : Nat)
  /-- BRK (R327): Breakpoint trap. -/
  | brk (c g imm : Nat)
  /-- REP (R325): Repeat the following block instruction under rc and MODE, interruptibly. -/
  | rep (c g mode next upto : Nat)
  /-- MOVB (R323): Move one byte from g1 to g2. -/
  | movb (c g : Nat)
  /-- MOVD (R323): Move one doubleword. -/
  | movd (c g : Nat)
  /-- FILB (R323): Fill one byte with g3. -/
  | filb (c g : Nat)
  /-- FILD (R323): Fill one doubleword with g3. -/
  | fild (c g : Nat)
  /-- CMPB (R323): Compare one byte pair. -/
  | cmpb (c g : Nat)
  /-- CMPD (R323): Compare one doubleword pair. -/
  | cmpd (c g : Nat)
  /-- SCNB (R323): Scan one byte against g3. -/
  | scnb (c g : Nat)
  /-- SCND (R323): Scan one doubleword against g3. -/
  | scnd (c g : Nat)
  /-- INTERRUPT (R328): A pending enabled core event line is taken at an instruction boundary. -/
  | interrupt (c : Nat)
  /-- PROGRAM_DISPATCH (R339): A field core is granted, the image is copied in and the program starts at ENTRY. -/
  | programDispatch (c : Nat)
  /-- QUANTUM_END (R346): The 1 ms quantum ends, and the monitor may switch programs. -/
  | quantumEnd (c : Nat)
  /-- PROGRAM_EXIT (R351): SVC #0 ends the program with its status. -/
  | programExit (c : Nat)
  /-- YIELD (R347): SVC #1 ends the quantum at once. -/
  | yield (c : Nat)
  /-- RESUME (R350): SVC #2 returns from a delegated trap, or ends the program when none is in progress. -/
  | resume (c : Nat)
  /-- PIN_TAIL (R340): A store to PIN_TAIL frees CPORT_IN curds and returns credit, or traps PORT. -/
  | pinTail (c t : Nat)
  /-- POUT_TAIL (R341): A store to POUT_TAIL posts checked output curds, or traps PORT. -/
  | poutTail (c t : Nat)
  /-- PROGRAM_TIMEOUT (R351): The launch TIMEOUT expires and the program ends with JS_TIMEOUT. -/
  | programTimeout (tag : Nat)
  /-- MEMC_SCHEDULE (R359): The scheduler issues the next column command by age, row hit and write drain. -/
  | memcSchedule (q sub : Nat) (arrivals : List MemReq) (elapsed : Nat) (errs : List Nat)
  /-- DRAM_BURST_READ (R366): A DRAM burst is decoded as clean, corrected or uncorrectable. -/
  | dramBurstRead (q id : Nat) (errs : List Nat) (slm : Option (Nat × Nat))
  /-- MR4_POLL (R361): Mode register 4 is polled every 1 ms and the refresh interval adjusted. -/
  | mr4Poll (q : Nat) (hot : Bool)
  /-- REFRESH_DUE (R361): A refresh falls due and is issued or postponed. -/
  | refreshDue (q : Nat)
  /-- RHT_WINDOW_END (R362): The row-disturbance window ends and the throttled owners are released. -/
  | rhtWindowEnd (q : Nat)
  /-- DQS_OSC_READ (R357): The 100 ms DQS oscillator read adjusts delays or retrains a rank. -/
  | dqsOscRead (q rank drift : Nat)
  /-- MEMC_FCHG_GO (R363): A write of GO starts a switch to the other timing set. -/
  | memcFchgGo (q : Nat)
  /-- FREQ_CHANGE_DONE (R363): The timing-set switch completes and held requests proceed. -/
  | freqChangeDone (q : Nat)
  /-- CA_PARITY_ALERT (R364): ALERT_n on CA parity triggers a replay from the retry buffer. -/
  | caParityAlert (q rank window : Nat) (again : List Bool)
  /-- SCRUB_READ (R369): Patrol scrub reads a burst at the lowest priority. -/
  | scrubRead (q : Nat) (errs : List Nat) (slm : Option (Nat × Nat))
  /-- SRAM_ECC_ERROR (R370): An SRAM word read shows an error that is corrected, refetched or poisoned. -/
  | sramEccError (unit quad inst off : Nat) (uncorrectable dirty : Bool)
  /-- MRAM_ECC_ERROR (R371): An MRAM block read shows an error that is corrected or delivered poisoned. -/
  | mramEccError (off : Nat) (x : MramBlk) (found : Nat)
  /-- PAIL_ALLOC (R377): An allocation request is granted by a pool, moves to the fallback pool, or gets the null handle. -/
  | pailAlloc (arrivals : List (Nat × Nat × Nat × Bool))
  /-- PAIL_FREE (R379): A free returns, retires or refuses a handle. -/
  | pailFree (h owner : Nat) (steward : Bool)
  /-- PAIL_CACHE_REFILL (R376): A pool's handle cache is refilled from or spilled to its ring. -/
  | pailCacheRefill (n : Nat)
  /-- GET_VERSION (R397): Halward message returning the protocol version, life-cycle state and LCCOUNT. -/
  | getVersion (c : NCmd) (reqId len : Nat) (zeros : Bool)
  /-- GET_IDENTITY (R397): Halward message returning DIEID, the identity key and the certificates. -/
  | getIdentity (c : NCmd) (reqId len : Nat) (zeros : Bool)
  /-- ATTEST (R398): Halward message returning a signed attestation report. -/
  | attest (c : NCmd) (reqId len challenge mask : Nat) (zeros : Bool)
  /-- GET_NONCE (R395): Halward message returning the current nonce. -/
  | getNonce (c : NCmd) (reqId len : Nat) (zeros : Bool)
  /-- LCS_CHANGE (R393): A TYPE 1 token requests a life-cycle transition. -/
  | lcsChange (c : NCmd) (reqId len : Nat) (zeros : Bool) (t : Token)
  /-- LIFE_CYCLE_BURN (R393): After the clean stop, Halward burns LCREC and LCCOUNT and resets the part. -/
  | lifeCycleBurn
  /-- DEBUG_AUTH (R396): A TYPE 2 token grants debug rights, possibly entering TEST. -/
  | debugAuth (c : NCmd) (reqId len : Nat) (zeros : Bool) (t : Token)
  /-- INSTALL_CERT (R397): Halward message writing the identity certificate chain. -/
  | installCert (c : NCmd) (reqId : Nat) (zeros : Bool) (chain : List Nat) (leafOk : Bool)
  /-- INSTALL_STREAMKEY (R397): Halward message burning a blank stream key slot. -/
  | installStreamkey (c : NCmd) (reqId : Nat) (zeros : Bool) (slot : Nat) (key : List Byte)
  /-- EVT_HOST_ACK_SEQ (R408): A write acknowledges journal records when within the window. -/
  | evtHostAckSeq (value : Nat)
  /-- EVT_SWTRIG (R399): A write raises SW_EVENT with the written argument. -/
  | evtSwtrig (value : Nat)
  /-- EVT_ROUTE (R402): A write to an event route is accepted or refused under check 0x11. -/
  | evtRoute (n value : Nat)
  /-- PMU_RUN (R412): PMU_CTL.RUN enables or stops the counters. -/
  | pmuRun (on : Bool)
  /-- PMU_FREEZE (R415): PMU_CTL.FREEZE stops every counter in one cycle. -/
  | pmuFreeze (on : Bool)
  /-- PMU_CLEAR (R415): PMU_CTL.CLEAR zeroes every counter and wrap flag. -/
  | pmuClear
  /-- PMU_CNT_WRITE (R415): A write to a counter sets it, plus that cycle's increment. -/
  | pmuCntWrite (i value inc : Nat)
  /-- PMU_OVERFLOW (R415): A counter wraps modulo 2^48 and sets its wrap flag. -/
  | pmuOverflow (i n : Nat)
  /-- FINJ_ENABLE (R416): A write of FINJ_INJ.EN enables an injector when permitted, or is refused. -/
  | finjEnable (i value : Nat)
  /-- TAP_RESET (R420): TRST_N or five TMS-high cycles reset the TAP to IDCODE. -/
  | tapReset
  /-- EXTEST (R420): Boundary cells drive and capture the pins while RESET_N is low. -/
  | extest (drive pins : Nat)
  /-- SAMPLE_PRELOAD (R420): Captures the pins without disturbing them. -/
  | samplePreload (preload pins : Nat)
  /-- IDCODE (R420): Shifts out the 32-bit IDCODE. -/
  | idcode
  /-- CLAMP (R420): Drives the preloaded values and selects BYPASS. -/
  | clamp
  /-- HIGHZ (R420): Releases every output. -/
  | highz
  /-- BISTSTAT (R420): Shifts out the 160 bits of BIST_RES. -/
  | biststat
  /-- SCAN (R420): Logic scan access in TEST, which stops the part. -/
  | scan
  /-- DBG (R422): Opens the core debug port under debug right 2. -/
  | dbg
  /-- BYPASS (R420): 1-bit bypass. -/
  | bypass
  /-- DBG_HALT (R422): The debugger halts a core. -/
  | dbgHalt (c : Nat)
  /-- DBG_STEP (R422): The debugger steps a halted core. -/
  | dbgStep (c upto : Nat)
  /-- DBG_RESUME (R422): The debugger resumes a halted core. -/
  | dbgResume (c : Nat)
  /-- DBG_ACCESS (R422): The debugger reads or writes registers or memory as the halted core. -/
  | dbgAccess (c : Nat) (x : DbgItem) (write : Bool) (value : Nat)
  /-- UART_RX_BYTE (R423): A console byte is passed to firmware or discarded. -/
  | uartRxByte (b : Nat)
  /-- SENSOR_READ (R445): The junction sensors are read every 1 ms, throttle levels entered and thresholds checked. -/
  | sensorRead (temps : List Int)
  /-- THROTTLE_EXIT (R446): Every entry condition has stayed 5 °C below its threshold for 1 s, and the level is left. -/
  | throttleExit
  /-- CORE_VSEL_STEP (R431): The core voltage code changes by one step at most per 100 µs. -/
  | coreVselStep (up : Bool)
  /-- POWER_LOSS (R148): The supply is actually lost, after the hold-up or cut short, so everything volatile stops wherever it stands and only MRAM and flash keep their contents. -/
  | powerLoss
  /-- STRAP_CHANGE (R428): A strap input (CID, PORTMODE or BOOTSEL) changes level between rising edges of RESET_N and has no effect until the next edge. -/
  | strapChange (cid portmode bootsel : Nat)
  /-- AUTONOMOUS_POWER_STATE_TRANSITION (R51): A controller's autonomous power state transition idle timer expires and changes that controller's requested state, which then combines under R51. -/
  | autonomousPowerStateTransition (p : Nat)
  /-- INTERRUPT_COALESCING_TIMEOUT (R79): The aggregation time of feature 08h expires and the pending completion interrupt is sent. -/
  | interruptCoalescingTimeout (p y : Nat)
  /-- PAGE_IDLE_CLOSE (R360): A DRAM row left open and idle for MEMC_PAGE.IDLE is precharged, whatever its predictor counter says. -/
  | pageIdleClose (q b : Nat)
  /-- GWL_FRAME_HUNT (R184): After a header check failure or length mismatch the Gorwasta receiver loses frame alignment, sends one NAK and hunts at 8-byte steps until it finds a valid STF and regains its footing. -/
  | gwlFrameHunt (l : Nat) (found : Bool)
  /-- RESERVED_WORD (R304): A core executes a word whose opcode, FN, condition, guard or zero field is reserved and traps RESERVED_OP with tval holding the word. -/
  | reservedWord (c word : Nat)
  deriving DecidableEq, Repr

end Sys2Proof
end

