-- ==== Sys2Proof/Decode.lean ====
section
/-! DEFINITION. Words to commands. The opcode table of this block gives no row any bits (every row's `fields` list is
empty), so no word spells a command. -/

namespace Sys2Proof

/-- The command that a word spells: none, since the table gives its rows no bits. -/
def decodeTableWord (_nbits _w : Nat) : Option Instr := none

end Sys2Proof
end

