-- ==== Sys2Proof/Config.lean ====
section
/-! DEFINITION. What the spec leaves open: free values, written as opaque constants, so that no proof can know
one. Each is applied to what it depends on, or to the counter `Dev.free` of the state for a value that is fresh each
time. Every constant here is named in the assumption log. -/

namespace Sys2Proof.Config

/-- The next state of an injector's LFSR (R419): the polynomial is given, the shift direction and the bit order
are not. -/
opaque lfsrNext : Nat → Nat

/-- The root key that Halward holds in the life-cycle state of this LCCOUNT; the second argument is 0, or for a session
root of TEST the number of the boot plus one (R278, R391, R55). 384 bits are taken. -/
opaque rootKey : Nat → Nat → Nat

/-- The nonce of the `n`-th draw of Halward (R395) and of the cluster (R204), 64 bits of a random-number generator. -/
opaque nonce : Nat → Nat

opaque clusterNonce : Nat → Nat

/-- A core's clock cycles since part reset, as a read of special register cyc finds them (R299): the model has no cycle
count. The argument is the number of the draw. -/
opaque cycles : Nat → Nat

/-- Which free handle of a pool a grant returns (R376): the index from which the free handles are searched, by the number of
the draw. -/
opaque pailPick : Nat → Nat

/-- The status with which a job or program ends that loses its quadrant (R26), which no chapter states: one of the statuses
of R221 but JS_OK, by the number of the draw. -/
opaque lostUnit : Nat → Nat

/-- The cause in the Almanac's RETIRE record of a quadrant whose memory channel has failed (R365, R158), which no listed
cause fits. -/
opaque memcRetireCause : Nat

/-- Bits [31:1] of a command's entry in the Commands Supported and Effects log, by opcode: the spec names the page and not the
effects it declares. -/
opaque cmdEffects : Nat → Nat

/-- The opcode of a command of the other two command sets, which their specifications fix: 0 Execute Program, 1 Load Program, 2 Program
Activation Management, 3 Memory Range Set Management, 4 Memory Read, 5 Memory Write, 6 Memory Copy, 7 Memory Fill. 8 bits are taken. -/
opaque csOpcode : Nat → Nat

/-- The percentage that the Device Self-test log shows of a running test, by the time in milliseconds. -/
opaque selfTestPct : Nat → Nat

/-- The progress that the Sanitize Status log shows of a running sanitize, by the time in milliseconds. -/
opaque sanitizeProgress : Nat → Nat

/-- The estimated times of the Sanitize Status log: 0 overwrite, 1 block erase, 2 crypto erase. -/
opaque sanitizeTime : Nat → Nat

/-- The globally unique identifier that Identify reports of a namespace. -/
opaque nguid : Nat → Nat

/-- Which free NSID a namespace is given, by the number of the draw: the index among the free ones. -/
opaque nsidPick : Nat → Nat

/-- The firmware slot a commit with FS = 0 uses, by the number of the draw: one less than the slot. -/
opaque slotPick : Nat → Nat

/-- The 8 bytes of protection information that a block reads with whose IU holds the zeros mark (R133), by NSID and logical
block. -/
opaque zeroPi : Nat → Nat → Nat

/-- Which template HIF runs a fixed program on, by quadrant and program code: the index among the segment's templates. -/
opaque progPid : Nat → Nat → Nat

/-- Which quadrant the part chooses for a program, by the number of the draw: the index among those that can take it. -/
opaque progQuad : Nat → Nat

/-- Which free identifier a memory range set is given, by the number of the draw. -/
opaque setPick : Nat → Nat

/-- Byte `i` of the identity public key, which Halward forms from a secret (R391). -/
opaque identityKey : Nat → Nat

/-- The SHA-384 of the Halward ROM, whose bytes the model does not hold. 384 bits are taken. -/
opaque romDigest : Nat

/-- Byte `i` of the signature over an attestation report, by the number of the draw. -/
opaque signature : Nat → Nat → Nat

/-- The reply to NVMe-MI command code 0 in fields that the spec leaves to NVMe-MI 1.2 and whose inputs the model does not hold:
byte `i`. -/
opaque miByte : Nat → Nat

/-- The value a register field takes, by its bit address and the value written, where the value lies outside the field's stated
range and the spec does not say what the write does. -/
opaque unstated : Nat → Nat → Nat

/-- Which of several pending enabled core event lines an interrupt takes, by the number of the draw (R328). -/
opaque linePick : Nat → Nat

/-- The tiles that a quadrant fetches from DRAM for a field that an image with tiles there is matched in (R261), by the number of the draw. -/
opaque tileFetches : Nat → Nat

/-- The bytes with which the compressor codes an independent block (R244), by format (0 DEFLATE, 3 LZ4), whether the block ends the stream,
and the block. -/
opaque squeeze : Nat → Bool → List (BitVec 8) → List (BitVec 8)

/-- What a compressed Zstandard block decodes to after a history, and whether and how it fails (0 not, 1 a code, 2 a distance, 3 a length). -/
opaque zstdBlock : List (BitVec 8) → List (BitVec 8) → List (BitVec 8)

opaque zstdFail : List (BitVec 8) → List (BitVec 8) → Nat

end Sys2Proof.Config
end

