-- ==== Sys2Proof/Machine/RegMap.lean ====
section
/-! DEFINITION. The control-space register map (chapters 01 to 19 of the spec, R448 and the register tables of
each chapter): one constructor of `Reg` per register, its offset, its width and its fields. A register the spec
replicates takes its index as an argument; a quadrant register takes its quadrant first, a channel register its
GLOBAL channel number and a core register its core number `8 * q + k`. `CHAN_RETRY` and `TREL_PIPE`, whose entries
are 128 and 512 bits, are listed by their 32-bit words (R10 admits no wider access). -/

namespace Sys2Proof.Machine

/-- The access types of a register field (00_scope, "Registers"). -/
inductive RegTy where
  | RW | RO | WO | W1C | W1S | RC | RWL
  deriving DecidableEq, Repr

/-- One field of one register: the register's control-space offset, the field's lowest bit, its width, its
access type and its reset value. Where the table's Reset column names a source and no number (the stream, the
fuses, a strap, the device metadata, "set at BOOT") the value here is 0 and the operation that supplies it
writes the field. -/
structure Field where
  addr : Nat
  lo : Nat
  width : Nat
  ty : RegTy
  reset : Nat
  deriving DecidableEq, Repr

/-- A field's key in the sparse register file: its bit address in control space. -/
def Field.key (f : Field) : Nat := f.addr * 8 + f.lo

/-- Every register of control space. -/
inductive Reg where
  | TOP_UNITS
  | TOP_CHRETIRED
  | TOP_TMAX
  | TOP_MODE
  | TOP_RSTCAUSE
  | TOP_RESET
  | TOP_QBIST
  | PWR_PSTATE
  | HIF_PORTCFG
  | HIF_PORTSTAT (p : Nat)
  | HIF_DISCARD
  | HIF_MAPCAP
  | HIF_ACTDRAIN
  | PLOT_CTL (n : Nat)
  | PLOT_STAT (n : Nat)
  | PLOT_QV (n : Nat)
  | PLOT_FETCH (n : Nat)
  | PLOT_SLM (n : Nat)
  | PLOT_FCORE (n : Nat)
  | PLOT_EWT (n : Nat)
  | PLOT_ECAP (n : Nat)
  | PLOT_USE (n : Nat)
  | PLOT_STALE (n : Nat)
  | PLOT_SUMQV
  | PLOT_SUMIO
  | PLOT_SLMPOOL
  | PLOT_ERR
  | CHAN_CFG (ch : Nat)
  | CHAN_STAT (ch : Nat)
  | CHAN_TNOM (ch k : Nat)
  | CHAN_DTO (ch : Nat)
  | CHAN_DIEPRES (ch i : Nat)
  | CHAN_DIEFAIL (ch i : Nat)
  | CHAN_DIEXR (ch i : Nat)
  | CHAN_DIESTAT (ch d : Nat)
  | CHAN_CNT (ch k : Nat)
  | CHAN_RETRY (ch e w : Nat)
  | MAPW_STAT
  | MAPW_CKPT
  | MAPW_COMPOST
  | MAPW_RELOC
  | MAPW_SPARE
  | MAPW_EWSET
  | MAPW_EWACT
  | MAPW_RECOV
  | MRAMC_WC
  | MRAMC_JHEAD
  | MRAMC_JTAIL
  | MRAMC_WSEQ
  | STRP_CFG
  | STRP_RBCFG
  | STRP_RBSTAT
  | STRP_RAKE
  | STRP_RAKESTAT
  | STRP_JSTAT
  | STRP_CNT (k : Nat)
  | STRP_GRP (g : Nat)
  | STRP_GMEM (x : Nat)
  | GWL_ID
  | GWL_CFG
  | GWL_HB
  | GWL_VIEW
  | GWL_SETS
  | GWL_RESYNC
  | GWL_CJ
  | GWL_LSTAT (l : Nat)
  | GWL_LCNT (x : Nat)
  | TREL_CFG (q : Nat)
  | TREL_ERR (q : Nat)
  | TREL_CNT (q k : Nat)
  | TREL_PIPE (q p w : Nat)
  | TREL_RBASE (q r : Nat)
  | TREL_RCTL (q r : Nat)
  | TREL_RSUB (q r : Nat)
  | TREL_RACK (q r : Nat)
  | TREL_RCMP (q r : Nat)
  | TREL_RSTAT (q r : Nat)
  | SKIM_BIND (q u : Nat)
  | SKIM_CNT (q k : Nat)
  | CHURN_CFG (q : Nat)
  | CHURN_STAT (q : Nat)
  | CHURN_ERR (q : Nat)
  | CHURN_ERROFF (q : Nat)
  | CHURN_CNT (q k : Nat)
  | SIEVE_CFG (q : Nat)
  | SIEVE_STAT (q : Nat)
  | SIEVE_UCMD (q : Nat)
  | SIEVE_URES (q : Nat)
  | SIEVE_UKEY (q i : Nat)
  | SIEVE_UMASK (q i : Nat)
  | SIEVE_UVAL (q : Nat)
  | SIEVE_IMG (q s : Nat)
  | SIEVE_CNT (q k : Nat)
  | SIEVE_TBL (q t : Nat)
  | SIEVE_TUSE (q t : Nat)
  | CIPH_STAT (q : Nat)
  | CIPH_ERR (q : Nat)
  | CIPH_CNT (q k : Nat)
  | DGST_CFG (q : Nat)
  | DGST_STAT (q : Nat)
  | DGST_CNT (q k : Nat)
  | DGST_SCTL (q s : Nat)
  | DGST_SSTAT (q s : Nat)
  | DGST_SEPOCH (q s : Nat)
  | DGST_SLABEL (q s : Nat)
  | DGST_DATA (q s : Nat)
  | DGST_LAST (q s i : Nat)
  | DGST_RES (q s i : Nat)
  | DGST_EXP (q s i : Nat)
  | DGST_CMP (q s : Nat)
  | DGST_SLEN (q s : Nat)
  | CORE_STAT (c : Nat)
  | CORE_PROG (c : Nat)
  | CORE_PC (c : Nat)
  | CORE_TRAP (c : Nat)
  | CORE_RGN (c i : Nat)
  | CORE_RLIM (c i : Nat)
  | CORE_CNT (c n : Nat)
  | MEMC_CFG (q : Nat)
  | MEMC_STAT (q : Nat)
  | MEMC_SCHED (q : Nat)
  | MEMC_PAGE (q : Nat)
  | MEMC_REF (q : Nat)
  | MEMC_RHT (q : Nat)
  | MEMC_FCHG (q : Nat)
  | MEMC_RETRY (q : Nat)
  | MEMC_SCRUB (q : Nat)
  | MEMC_MARK (q : Nat)
  | MEMC_CNT (q k : Nat)
  | MEMC_TSET (q x : Nat)
  | PAIL_POOLCFG (n : Nat)
  | PAIL_POOLBASE (n : Nat)
  | PAIL_POOLCNT (n : Nat)
  | PAIL_POOLFLOOR (n : Nat)
  | PAIL_POOLSTAT (n : Nat)
  | PAIL_POOLWM (n : Nat)
  | PAIL_ERR
  | PAIL_ERRH
  | PAIL_CNT (k : Nat)
  | HALW_LCS
  | HALW_SCRUB
  | HALW_DIEID
  | HALW_SVN
  | HALW_KEYS
  | HALW_DEBUG
  | HALW_BOOT
  | BRZ_STAT
  | BRZ_STREAMID
  | BRZ_GRAFT
  | EVT_JCFG
  | EVT_JSTAT
  | EVT_JHEAD
  | EVT_HOST_ACK_SEQ
  | EVT_BADADDR
  | EVT_BADINFO
  | EVT_SWTRIG
  | EVT_PEND (i : Nat)
  | EVT_CPEND (x : Nat)
  | EVT_ROUTE (n : Nat)
  | PMU_CTL
  | PMU_OVF (j : Nat)
  | PMU_SEL (i : Nat)
  | PMU_CNT (i : Nat)
  | FINJ_CTL
  | FINJ_SEED
  | FINJ_INJ (i : Nat)
  | FINJ_CNT (i : Nat)
  | BIST_RES (u : Nat)
  | BIST_MISR (u : Nat)
  | BIST_LAST
  | BIST_CNT (k : Nat)
  | TOP_STRAP
  | PWR_THERM
  | PWR_VCORE
  | PWR_TEMP (i : Nat)
  | TOP_ID
  | CLK_STAT
  deriving DecidableEq, Repr

/-- The control-space offset of a register (R448, R449 and the register index). -/
def Reg.addr : Reg → Nat
  | .TOP_UNITS => 0x20
  | .TOP_CHRETIRED => 0x24
  | .TOP_TMAX => 0x30
  | .TOP_MODE => 0x10
  | .TOP_RSTCAUSE => 0x14
  | .TOP_RESET => 0x18
  | .TOP_QBIST => 0x34
  | .PWR_PSTATE => 0x20010
  | .HIF_PORTCFG => 0x80000
  | .HIF_PORTSTAT p => 0x80010 + p * 0x4
  | .HIF_DISCARD => 0x80020
  | .HIF_MAPCAP => 0x80040
  | .HIF_ACTDRAIN => 0x80050
  | .PLOT_CTL n => 0xa0000 + n * 0x100
  | .PLOT_STAT n => 0xa0004 + n * 0x100
  | .PLOT_QV n => 0xa0008 + n * 0x100
  | .PLOT_FETCH n => 0xa000c + n * 0x100
  | .PLOT_SLM n => 0xa0010 + n * 0x100
  | .PLOT_FCORE n => 0xa0014 + n * 0x100
  | .PLOT_EWT n => 0xa0018 + n * 0x100
  | .PLOT_ECAP n => 0xa001c + n * 0x100
  | .PLOT_USE n => 0xa0020 + n * 0x100
  | .PLOT_STALE n => 0xa0024 + n * 0x100
  | .PLOT_SUMQV => 0xa0080
  | .PLOT_SUMIO => 0xa0084
  | .PLOT_SLMPOOL => 0xa0088
  | .PLOT_ERR => 0xa008c
  | .CHAN_CFG ch => 0x1000000 + (ch / 8) * 0x400000 + (ch % 8) * 0x4000 + 0x0
  | .CHAN_STAT ch => 0x1000000 + (ch / 8) * 0x400000 + (ch % 8) * 0x4000 + 0x4
  | .CHAN_TNOM ch k => 0x1000000 + (ch / 8) * 0x400000 + (ch % 8) * 0x4000 + 0x10 + k * 0x4
  | .CHAN_DTO ch => 0x1000000 + (ch / 8) * 0x400000 + (ch % 8) * 0x4000 + 0x1c
  | .CHAN_DIEPRES ch i => 0x1000000 + (ch / 8) * 0x400000 + (ch % 8) * 0x4000 + 0x20 + i * 0x4
  | .CHAN_DIEFAIL ch i => 0x1000000 + (ch / 8) * 0x400000 + (ch % 8) * 0x4000 + 0x28 + i * 0x4
  | .CHAN_DIEXR ch i => 0x1000000 + (ch / 8) * 0x400000 + (ch % 8) * 0x4000 + 0x30 + i * 0x4
  | .CHAN_DIESTAT ch d => 0x1000000 + (ch / 8) * 0x400000 + (ch % 8) * 0x4000 + 0x100 + d * 0x4
  | .CHAN_CNT ch k => 0x1000000 + (ch / 8) * 0x400000 + (ch % 8) * 0x4000 + 0x200 + k * 0x8
  | .CHAN_RETRY ch e w => 0x1000000 + (ch / 8) * 0x400000 + (ch % 8) * 0x4000 + 0x1000 + e * 0x10 + w * 0x4
  | .MAPW_STAT => 0x120000
  | .MAPW_CKPT => 0x120010
  | .MAPW_COMPOST => 0x120014
  | .MAPW_RELOC => 0x120018
  | .MAPW_SPARE => 0x12001c
  | .MAPW_EWSET => 0x120020
  | .MAPW_EWACT => 0x120028
  | .MAPW_RECOV => 0x120030
  | .MRAMC_WC => 0x1c0000
  | .MRAMC_JHEAD => 0x1c0010
  | .MRAMC_JTAIL => 0x1c0018
  | .MRAMC_WSEQ => 0x1c0020
  | .STRP_CFG => 0x100000
  | .STRP_RBCFG => 0x100010
  | .STRP_RBSTAT => 0x100014
  | .STRP_RAKE => 0x100018
  | .STRP_RAKESTAT => 0x10001c
  | .STRP_JSTAT => 0x100020
  | .STRP_CNT k => 0x100040 + k * 0x8
  | .STRP_GRP g => 0x100100 + g * 0x4
  | .STRP_GMEM x => 0x101000 + x * 0x4
  | .GWL_ID => 0x140000
  | .GWL_CFG => 0x140004
  | .GWL_HB => 0x140008
  | .GWL_VIEW => 0x140010
  | .GWL_SETS => 0x140018
  | .GWL_RESYNC => 0x140020
  | .GWL_CJ => 0x140024
  | .GWL_LSTAT l => 0x140040 + l * 0x4
  | .GWL_LCNT x => 0x140100 + x * 0x8
  | .TREL_CFG q => 0x1080000 + q * 0x400000
  | .TREL_ERR q => 0x1080010 + q * 0x400000
  | .TREL_CNT q k => 0x1080100 + q * 0x400000 + k * 0x8
  | .TREL_PIPE q p w => 0x1081000 + q * 0x400000 + p * 0x40 + w * 0x4
  | .TREL_RBASE q r => 0x1084000 + q * 0x400000 + r * 0x40
  | .TREL_RCTL q r => 0x1084008 + q * 0x400000 + r * 0x40
  | .TREL_RSUB q r => 0x108400c + q * 0x400000 + r * 0x40
  | .TREL_RACK q r => 0x1084010 + q * 0x400000 + r * 0x40
  | .TREL_RCMP q r => 0x1084014 + q * 0x400000 + r * 0x40
  | .TREL_RSTAT q r => 0x1084018 + q * 0x400000 + r * 0x40
  | .SKIM_BIND q u => 0x1040000 + q * 0x400000 + u * 0x4
  | .SKIM_CNT q k => 0x1040100 + q * 0x400000 + k * 0x8
  | .CHURN_CFG q => 0x10c0000 + q * 0x400000
  | .CHURN_STAT q => 0x10c0004 + q * 0x400000
  | .CHURN_ERR q => 0x10c0010 + q * 0x400000
  | .CHURN_ERROFF q => 0x10c0018 + q * 0x400000
  | .CHURN_CNT q k => 0x10c0100 + q * 0x400000 + k * 0x8
  | .SIEVE_CFG q => 0x1100000 + q * 0x400000
  | .SIEVE_STAT q => 0x1100004 + q * 0x400000
  | .SIEVE_UCMD q => 0x1100010 + q * 0x400000
  | .SIEVE_URES q => 0x1100014 + q * 0x400000
  | .SIEVE_UKEY q i => 0x1100020 + q * 0x400000 + i * 0x4
  | .SIEVE_UMASK q i => 0x1100040 + q * 0x400000 + i * 0x4
  | .SIEVE_UVAL q => 0x1100060 + q * 0x400000
  | .SIEVE_IMG q s => 0x1100100 + q * 0x400000 + s * 0x4
  | .SIEVE_CNT q k => 0x1100200 + q * 0x400000 + k * 0x8
  | .SIEVE_TBL q t => 0x1101000 + q * 0x400000 + t * 0x8
  | .SIEVE_TUSE q t => 0x1101800 + q * 0x400000 + t * 0x4
  | .CIPH_STAT q => 0x1140004 + q * 0x400000
  | .CIPH_ERR q => 0x1140010 + q * 0x400000
  | .CIPH_CNT q k => 0x1140100 + q * 0x400000 + k * 0x8
  | .DGST_CFG q => 0x1180000 + q * 0x400000
  | .DGST_STAT q => 0x1180004 + q * 0x400000
  | .DGST_CNT q k => 0x1180040 + q * 0x400000 + k * 0x8
  | .DGST_SCTL q s => 0x1180100 + q * 0x400000 + s * 0x100
  | .DGST_SSTAT q s => 0x1180104 + q * 0x400000 + s * 0x100
  | .DGST_SEPOCH q s => 0x1180108 + q * 0x400000 + s * 0x100
  | .DGST_SLABEL q s => 0x1180110 + q * 0x400000 + s * 0x100
  | .DGST_DATA q s => 0x1180118 + q * 0x400000 + s * 0x100
  | .DGST_LAST q s i => 0x1180120 + q * 0x400000 + s * 0x100 + i * 0x8
  | .DGST_RES q s i => 0x1180160 + q * 0x400000 + s * 0x100 + i * 0x8
  | .DGST_EXP q s i => 0x11801a0 + q * 0x400000 + s * 0x100 + i * 0x8
  | .DGST_CMP q s => 0x11801e0 + q * 0x400000 + s * 0x100
  | .DGST_SLEN q s => 0x11801e8 + q * 0x400000 + s * 0x100
  | .CORE_STAT c => 0x1200000 + (c / 8) * 0x400000 + (c % 8) * 0x8000 + 0x0
  | .CORE_PROG c => 0x1200000 + (c / 8) * 0x400000 + (c % 8) * 0x8000 + 0x4
  | .CORE_PC c => 0x1200000 + (c / 8) * 0x400000 + (c % 8) * 0x8000 + 0x8
  | .CORE_TRAP c => 0x1200000 + (c / 8) * 0x400000 + (c % 8) * 0x8000 + 0x10
  | .CORE_RGN c i => 0x1200000 + (c / 8) * 0x400000 + (c % 8) * 0x8000 + 0x100 + i * 0x10
  | .CORE_RLIM c i => 0x1200000 + (c / 8) * 0x400000 + (c % 8) * 0x8000 + 0x108 + i * 0x10
  | .CORE_CNT c n => 0x1200000 + (c / 8) * 0x400000 + (c % 8) * 0x8000 + 0x200 + n * 0x8
  | .MEMC_CFG q => 0x11c0000 + q * 0x400000
  | .MEMC_STAT q => 0x11c0004 + q * 0x400000
  | .MEMC_SCHED q => 0x11c0010 + q * 0x400000
  | .MEMC_PAGE q => 0x11c0014 + q * 0x400000
  | .MEMC_REF q => 0x11c0018 + q * 0x400000
  | .MEMC_RHT q => 0x11c001c + q * 0x400000
  | .MEMC_FCHG q => 0x11c0020 + q * 0x400000
  | .MEMC_RETRY q => 0x11c0024 + q * 0x400000
  | .MEMC_SCRUB q => 0x11c0028 + q * 0x400000
  | .MEMC_MARK q => 0x11c002c + q * 0x400000
  | .MEMC_CNT q k => 0x11c0100 + q * 0x400000 + k * 0x8
  | .MEMC_TSET q x => 0x11c0400 + q * 0x400000 + x * 0x4
  | .PAIL_POOLCFG n => 0xc0100 + n * 0x20
  | .PAIL_POOLBASE n => 0xc0108 + n * 0x20
  | .PAIL_POOLCNT n => 0xc0110 + n * 0x20
  | .PAIL_POOLFLOOR n => 0xc0114 + n * 0x20
  | .PAIL_POOLSTAT n => 0xc0118 + n * 0x20
  | .PAIL_POOLWM n => 0xc011c + n * 0x20
  | .PAIL_ERR => 0xc0010
  | .PAIL_ERRH => 0xc0014
  | .PAIL_CNT k => 0xc0040 + k * 0x8
  | .HALW_LCS => 0x180000
  | .HALW_SCRUB => 0x180004
  | .HALW_DIEID => 0x180008
  | .HALW_SVN => 0x180010
  | .HALW_KEYS => 0x180014
  | .HALW_DEBUG => 0x180018
  | .HALW_BOOT => 0x18001c
  | .BRZ_STAT => 0x1a0000
  | .BRZ_STREAMID => 0x1a0008
  | .BRZ_GRAFT => 0x1a0010
  | .EVT_JCFG => 0x30000
  | .EVT_JSTAT => 0x30004
  | .EVT_JHEAD => 0x30008
  | .EVT_HOST_ACK_SEQ => 0x30010
  | .EVT_BADADDR => 0x30018
  | .EVT_BADINFO => 0x3001c
  | .EVT_SWTRIG => 0x30020
  | .EVT_PEND i => 0x30100 + i * 0x4
  | .EVT_CPEND x => 0x30200 + x * 0x4
  | .EVT_ROUTE n => 0x31000 + n * 0x4
  | .PMU_CTL => 0x40000
  | .PMU_OVF j => 0x40040 + j * 0x4
  | .PMU_SEL i => 0x40100 + i * 0x4
  | .PMU_CNT i => 0x40400 + i * 0x8
  | .FINJ_CTL => 0x50000
  | .FINJ_SEED => 0x50004
  | .FINJ_INJ i => 0x50100 + i * 0x10
  | .FINJ_CNT i => 0x50108 + i * 0x10
  | .BIST_RES u => 0x60000 + u * 0x4
  | .BIST_MISR u => 0x60020 + u * 0x8
  | .BIST_LAST => 0x60050
  | .BIST_CNT k => 0x60060 + k * 0x8
  | .TOP_STRAP => 0x28
  | .PWR_THERM => 0x20020
  | .PWR_VCORE => 0x20024
  | .PWR_TEMP i => 0x20040 + i * 0x4
  | .TOP_ID => 0x0
  | .CLK_STAT => 0x10000

/-- The registers marked 64. -/
def Reg.wide : Reg → Bool
  | .HIF_DISCARD => true
  | .CHAN_CNT _ _ => true
  | .MAPW_EWSET => true
  | .MAPW_EWACT => true
  | .MRAMC_JHEAD => true
  | .MRAMC_JTAIL => true
  | .MRAMC_WSEQ => true
  | .STRP_CNT _ => true
  | .GWL_VIEW => true
  | .GWL_LCNT _ => true
  | .TREL_CNT _ _ => true
  | .TREL_RBASE _ _ => true
  | .SKIM_CNT _ _ => true
  | .CHURN_ERROFF _ => true
  | .CHURN_CNT _ _ => true
  | .SIEVE_UVAL _ => true
  | .SIEVE_CNT _ _ => true
  | .SIEVE_TBL _ _ => true
  | .CIPH_CNT _ _ => true
  | .DGST_CNT _ _ => true
  | .DGST_SLABEL _ _ => true
  | .DGST_DATA _ _ => true
  | .DGST_LAST _ _ _ => true
  | .DGST_RES _ _ _ => true
  | .DGST_EXP _ _ _ => true
  | .DGST_SLEN _ _ => true
  | .CORE_PC _ => true
  | .CORE_RGN _ _ => true
  | .CORE_RLIM _ _ => true
  | .CORE_CNT _ _ => true
  | .MEMC_CNT _ _ => true
  | .PAIL_POOLBASE _ => true
  | .PAIL_CNT _ => true
  | .HALW_DIEID => true
  | .BRZ_STREAMID => true
  | .EVT_JHEAD => true
  | .EVT_HOST_ACK_SEQ => true
  | .PMU_CNT _ => true
  | .FINJ_INJ _ => true
  | .FINJ_CNT _ => true
  | .BIST_MISR _ => true
  | .BIST_CNT _ => true
  | _ => false

/-- The index ranges of the replicated registers. -/
def Reg.valid : Reg → Bool
  | .TOP_UNITS => true
  | .TOP_CHRETIRED => true
  | .TOP_TMAX => true
  | .TOP_MODE => true
  | .TOP_RSTCAUSE => true
  | .TOP_RESET => true
  | .TOP_QBIST => true
  | .PWR_PSTATE => true
  | .HIF_PORTCFG => true
  | .HIF_PORTSTAT p => decide (p < 2)
  | .HIF_DISCARD => true
  | .HIF_MAPCAP => true
  | .HIF_ACTDRAIN => true
  | .PLOT_CTL n => decide (n < 512)
  | .PLOT_STAT n => decide (n < 512)
  | .PLOT_QV n => decide (n < 512)
  | .PLOT_FETCH n => decide (n < 512)
  | .PLOT_SLM n => decide (n < 512)
  | .PLOT_FCORE n => decide (n < 512)
  | .PLOT_EWT n => decide (n < 512)
  | .PLOT_ECAP n => decide (n < 512)
  | .PLOT_USE n => decide (n < 512)
  | .PLOT_STALE n => decide (n < 512)
  | .PLOT_SUMQV => true
  | .PLOT_SUMIO => true
  | .PLOT_SLMPOOL => true
  | .PLOT_ERR => true
  | .CHAN_CFG ch => decide (ch < 32)
  | .CHAN_STAT ch => decide (ch < 32)
  | .CHAN_TNOM ch k => decide (ch < 32) && decide (k < 3)
  | .CHAN_DTO ch => decide (ch < 32)
  | .CHAN_DIEPRES ch i => decide (ch < 32) && decide (i < 2)
  | .CHAN_DIEFAIL ch i => decide (ch < 32) && decide (i < 2)
  | .CHAN_DIEXR ch i => decide (ch < 32) && decide (i < 2)
  | .CHAN_DIESTAT ch d => decide (ch < 32) && decide (d < 64)
  | .CHAN_CNT ch k => decide (ch < 32) && decide (k < 8)
  | .CHAN_RETRY ch e w => decide (ch < 32) && decide (e < 64) && decide (w < 4)
  | .MAPW_STAT => true
  | .MAPW_CKPT => true
  | .MAPW_COMPOST => true
  | .MAPW_RELOC => true
  | .MAPW_SPARE => true
  | .MAPW_EWSET => true
  | .MAPW_EWACT => true
  | .MAPW_RECOV => true
  | .MRAMC_WC => true
  | .MRAMC_JHEAD => true
  | .MRAMC_JTAIL => true
  | .MRAMC_WSEQ => true
  | .STRP_CFG => true
  | .STRP_RBCFG => true
  | .STRP_RBSTAT => true
  | .STRP_RAKE => true
  | .STRP_RAKESTAT => true
  | .STRP_JSTAT => true
  | .STRP_CNT k => decide (k < 8)
  | .STRP_GRP g => decide (g < 128)
  | .STRP_GMEM x => decide (x < 4096)
  | .GWL_ID => true
  | .GWL_CFG => true
  | .GWL_HB => true
  | .GWL_VIEW => true
  | .GWL_SETS => true
  | .GWL_RESYNC => true
  | .GWL_CJ => true
  | .GWL_LSTAT l => decide (l < 4)
  | .GWL_LCNT x => decide (x < 32)
  | .TREL_CFG q => decide (q < 4)
  | .TREL_ERR q => decide (q < 4)
  | .TREL_CNT q k => decide (q < 4) && decide (k < 8)
  | .TREL_PIPE q p w => decide (q < 4) && decide (p < 64) && decide (w < 16)
  | .TREL_RBASE q r => decide (q < 4) && decide (r < 64)
  | .TREL_RCTL q r => decide (q < 4) && decide (r < 64)
  | .TREL_RSUB q r => decide (q < 4) && decide (r < 64)
  | .TREL_RACK q r => decide (q < 4) && decide (r < 64)
  | .TREL_RCMP q r => decide (q < 4) && decide (r < 64)
  | .TREL_RSTAT q r => decide (q < 4) && decide (r < 64)
  | .SKIM_BIND q u => decide (q < 4) && decide (u < 8)
  | .SKIM_CNT q k => decide (q < 4) && decide (k < 8)
  | .CHURN_CFG q => decide (q < 4)
  | .CHURN_STAT q => decide (q < 4)
  | .CHURN_ERR q => decide (q < 4)
  | .CHURN_ERROFF q => decide (q < 4)
  | .CHURN_CNT q k => decide (q < 4) && decide (k < 8)
  | .SIEVE_CFG q => decide (q < 4)
  | .SIEVE_STAT q => decide (q < 4)
  | .SIEVE_UCMD q => decide (q < 4)
  | .SIEVE_URES q => decide (q < 4)
  | .SIEVE_UKEY q i => decide (q < 4) && decide (i < 5)
  | .SIEVE_UMASK q i => decide (q < 4) && decide (i < 5)
  | .SIEVE_UVAL q => decide (q < 4)
  | .SIEVE_IMG q s => decide (q < 4) && decide (s < 32)
  | .SIEVE_CNT q k => decide (q < 4) && decide (k < 8)
  | .SIEVE_TBL q t => decide (q < 4) && decide (t < 256)
  | .SIEVE_TUSE q t => decide (q < 4) && decide (t < 256)
  | .CIPH_STAT q => decide (q < 4)
  | .CIPH_ERR q => decide (q < 4)
  | .CIPH_CNT q k => decide (q < 4) && decide (k < 8)
  | .DGST_CFG q => decide (q < 4)
  | .DGST_STAT q => decide (q < 4)
  | .DGST_CNT q k => decide (q < 4) && decide (k < 8)
  | .DGST_SCTL q s => decide (q < 4) && decide (s < 8)
  | .DGST_SSTAT q s => decide (q < 4) && decide (s < 8)
  | .DGST_SEPOCH q s => decide (q < 4) && decide (s < 8)
  | .DGST_SLABEL q s => decide (q < 4) && decide (s < 8)
  | .DGST_DATA q s => decide (q < 4) && decide (s < 8)
  | .DGST_LAST q s i => decide (q < 4) && decide (s < 8) && decide (i < 8)
  | .DGST_RES q s i => decide (q < 4) && decide (s < 8) && decide (i < 8)
  | .DGST_EXP q s i => decide (q < 4) && decide (s < 8) && decide (i < 8)
  | .DGST_CMP q s => decide (q < 4) && decide (s < 8)
  | .DGST_SLEN q s => decide (q < 4) && decide (s < 8)
  | .CORE_STAT c => decide (c < 32)
  | .CORE_PROG c => decide (c < 32)
  | .CORE_PC c => decide (c < 32)
  | .CORE_TRAP c => decide (c < 32)
  | .CORE_RGN c i => decide (c < 32) && decide (i < 16)
  | .CORE_RLIM c i => decide (c < 32) && decide (i < 16)
  | .CORE_CNT c n => decide (c < 32) && decide (n < 8)
  | .MEMC_CFG q => decide (q < 4)
  | .MEMC_STAT q => decide (q < 4)
  | .MEMC_SCHED q => decide (q < 4)
  | .MEMC_PAGE q => decide (q < 4)
  | .MEMC_REF q => decide (q < 4)
  | .MEMC_RHT q => decide (q < 4)
  | .MEMC_FCHG q => decide (q < 4)
  | .MEMC_RETRY q => decide (q < 4)
  | .MEMC_SCRUB q => decide (q < 4)
  | .MEMC_MARK q => decide (q < 4)
  | .MEMC_CNT q k => decide (q < 4) && decide (k < 8)
  | .MEMC_TSET q x => decide (q < 4) && decide (x < 32)
  | .PAIL_POOLCFG n => decide (n < 16)
  | .PAIL_POOLBASE n => decide (n < 16)
  | .PAIL_POOLCNT n => decide (n < 16)
  | .PAIL_POOLFLOOR n => decide (n < 16)
  | .PAIL_POOLSTAT n => decide (n < 16)
  | .PAIL_POOLWM n => decide (n < 16)
  | .PAIL_ERR => true
  | .PAIL_ERRH => true
  | .PAIL_CNT k => decide (k < 8)
  | .HALW_LCS => true
  | .HALW_SCRUB => true
  | .HALW_DIEID => true
  | .HALW_SVN => true
  | .HALW_KEYS => true
  | .HALW_DEBUG => true
  | .HALW_BOOT => true
  | .BRZ_STAT => true
  | .BRZ_STREAMID => true
  | .BRZ_GRAFT => true
  | .EVT_JCFG => true
  | .EVT_JSTAT => true
  | .EVT_JHEAD => true
  | .EVT_HOST_ACK_SEQ => true
  | .EVT_BADADDR => true
  | .EVT_BADINFO => true
  | .EVT_SWTRIG => true
  | .EVT_PEND i => decide (i < 16)
  | .EVT_CPEND x => decide (x < 32)
  | .EVT_ROUTE n => decide (n < 512)
  | .PMU_CTL => true
  | .PMU_OVF j => decide (j < 2)
  | .PMU_SEL i => decide (i < 48)
  | .PMU_CNT i => decide (i < 48)
  | .FINJ_CTL => true
  | .FINJ_SEED => true
  | .FINJ_INJ i => decide (i < 16)
  | .FINJ_CNT i => decide (i < 16)
  | .BIST_RES u => decide (u < 5)
  | .BIST_MISR u => decide (u < 5)
  | .BIST_LAST => true
  | .BIST_CNT k => decide (k < 4)
  | .TOP_STRAP => true
  | .PWR_THERM => true
  | .PWR_VCORE => true
  | .PWR_TEMP i => decide (i < 6)
  | .TOP_ID => true
  | .CLK_STAT => true

namespace F
/-- TOP_UNITS.QFUSED (reset: From fuses). -/
def TOP_UNITS_QFUSED : Field := ⟨Reg.TOP_UNITS.addr, 0, 4, .RO, 0⟩
/-- TOP_UNITS.QRETIRED (reset: From device metadata). -/
def TOP_UNITS_QRETIRED : Field := ⟨Reg.TOP_UNITS.addr, 4, 4, .RO, 0⟩
/-- TOP_CHRETIRED.CHOUT (reset: From fuses and device metadata). -/
def TOP_CHRETIRED_CHOUT : Field := ⟨Reg.TOP_CHRETIRED.addr, 0, 32, .RO, 0⟩
/-- TOP_TMAX.SECONDS (reset: 0x08). -/
def TOP_TMAX_SECONDS : Field := ⟨Reg.TOP_TMAX.addr, 0, 6, .RW, 8⟩
/-- TOP_MODE.MODE (reset: 0x0). -/
def TOP_MODE_MODE : Field := ⟨Reg.TOP_MODE.addr, 0, 4, .RO, 0⟩
/-- TOP_MODE.PREV (reset: 0x0). -/
def TOP_MODE_PREV : Field := ⟨Reg.TOP_MODE.addr, 4, 4, .RO, 0⟩
/-- TOP_MODE.CDEGR (reset: 0x0). -/
def TOP_MODE_CDEGR : Field := ⟨Reg.TOP_MODE.addr, 8, 1, .RO, 0⟩
/-- TOP_MODE.CRO (reset: 0x0). -/
def TOP_MODE_CRO : Field := ⟨Reg.TOP_MODE.addr, 9, 1, .RO, 0⟩
/-- TOP_MODE.CFENCE (reset: 0x0). -/
def TOP_MODE_CFENCE : Field := ⟨Reg.TOP_MODE.addr, 10, 1, .RO, 0⟩
/-- TOP_MODE.CXST (reset: 0x0). -/
def TOP_MODE_CXST : Field := ⟨Reg.TOP_MODE.addr, 11, 1, .RO, 0⟩
/-- TOP_MODE.ATOMIC (reset: 0x0). -/
def TOP_MODE_ATOMIC : Field := ⟨Reg.TOP_MODE.addr, 16, 2, .RO, 0⟩
/-- TOP_MODE.SAFECAUSE (reset: 0x0). -/
def TOP_MODE_SAFECAUSE : Field := ⟨Reg.TOP_MODE.addr, 20, 4, .RO, 0⟩
/-- TOP_RSTCAUSE.POR (reset: 0x1 on POR). -/
def TOP_RSTCAUSE_POR : Field := ⟨Reg.TOP_RSTCAUSE.addr, 0, 1, .W1C, 1⟩
/-- TOP_RSTCAUSE.PIN (reset: Set by cause). -/
def TOP_RSTCAUSE_PIN : Field := ⟨Reg.TOP_RSTCAUSE.addr, 1, 1, .W1C, 0⟩
/-- TOP_RSTCAUSE.NSSR (reset: Set by cause). -/
def TOP_RSTCAUSE_NSSR : Field := ⟨Reg.TOP_RSTCAUSE.addr, 2, 1, .W1C, 0⟩
/-- TOP_RSTCAUSE.SW (reset: Set by cause). -/
def TOP_RSTCAUSE_SW : Field := ⟨Reg.TOP_RSTCAUSE.addr, 3, 1, .W1C, 0⟩
/-- TOP_RSTCAUSE.PFRET (reset: Set by cause). -/
def TOP_RSTCAUSE_PFRET : Field := ⟨Reg.TOP_RSTCAUSE.addr, 4, 1, .W1C, 0⟩
/-- TOP_RSTCAUSE.LCS (reset: Set by cause). -/
def TOP_RSTCAUSE_LCS : Field := ⟨Reg.TOP_RSTCAUSE.addr, 5, 1, .W1C, 0⟩
/-- TOP_RSTCAUSE.TESTIN (reset: Set by cause). -/
def TOP_RSTCAUSE_TESTIN : Field := ⟨Reg.TOP_RSTCAUSE.addr, 6, 1, .W1C, 0⟩
/-- TOP_RESET.GO (reset: 0x0). -/
def TOP_RESET_GO : Field := ⟨Reg.TOP_RESET.addr, 0, 1, .WO, 0⟩
/-- TOP_RESET.KEY (reset: 0x0). -/
def TOP_RESET_KEY : Field := ⟨Reg.TOP_RESET.addr, 16, 16, .WO, 0⟩
/-- TOP_QBIST.INTERVAL (reset: 0x0018). -/
def TOP_QBIST_INTERVAL : Field := ⟨Reg.TOP_QBIST.addr, 0, 16, .RW, 24⟩
/-- TOP_QBIST.NEXTQ (reset: 0x0). -/
def TOP_QBIST_NEXTQ : Field := ⟨Reg.TOP_QBIST.addr, 16, 4, .RO, 0⟩
/-- TOP_QBIST.BUSY (reset: 0x0). -/
def TOP_QBIST_BUSY : Field := ⟨Reg.TOP_QBIST.addr, 20, 1, .RO, 0⟩
/-- TOP_QBIST.NOW (reset: 0x0). -/
def TOP_QBIST_NOW : Field := ⟨Reg.TOP_QBIST.addr, 21, 1, .W1S, 0⟩
/-- PWR_PSTATE.PS (reset: 0x0). -/
def PWR_PSTATE_PS : Field := ⟨Reg.PWR_PSTATE.addr, 0, 3, .RO, 0⟩
/-- PWR_PSTATE.LASTOP (reset: 0x0). -/
def PWR_PSTATE_LASTOP : Field := ⟨Reg.PWR_PSTATE.addr, 3, 3, .RO, 0⟩
/-- PWR_PSTATE.ENTERING (reset: 0x0). -/
def PWR_PSTATE_ENTERING : Field := ⟨Reg.PWR_PSTATE.addr, 6, 1, .RO, 0⟩
/-- PWR_PSTATE.MAXW (reset: 0x3C). -/
def PWR_PSTATE_MAXW : Field := ⟨Reg.PWR_PSTATE.addr, 8, 8, .RO, 60⟩
/-- HIF_PORTCFG.DUAL (reset: From PORTMODE). -/
def HIF_PORTCFG_DUAL : Field := ⟨Reg.HIF_PORTCFG.addr, 0, 1, .RO, 0⟩
/-- HIF_PORTCFG.RO_EN (reset: 0x1). -/
def HIF_PORTCFG_RO_EN : Field := ⟨Reg.HIF_PORTCFG.addr, 1, 1, .RW, 1⟩
/-- HIF_PORTSTAT.RATE (reset: 0x0). -/
def HIF_PORTSTAT_RATE (p : Nat) : Field := ⟨(Reg.HIF_PORTSTAT p).addr, 0, 3, .RO, 0⟩
/-- HIF_PORTSTAT.WIDTH (reset: 0x00). -/
def HIF_PORTSTAT_WIDTH (p : Nat) : Field := ⟨(Reg.HIF_PORTSTAT p).addr, 3, 5, .RO, 0⟩
/-- HIF_PORTSTAT.FLIT (reset: 0x0). -/
def HIF_PORTSTAT_FLIT (p : Nat) : Field := ⟨(Reg.HIF_PORTSTAT p).addr, 8, 1, .RO, 0⟩
/-- HIF_PORTSTAT.DEGR (reset: 0x0). -/
def HIF_PORTSTAT_DEGR (p : Nat) : Field := ⟨(Reg.HIF_PORTSTAT p).addr, 9, 1, .RO, 0⟩
/-- HIF_PORTSTAT.RETRAIN (reset: 0x0000). -/
def HIF_PORTSTAT_RETRAIN (p : Nat) : Field := ⟨(Reg.HIF_PORTSTAT p).addr, 16, 16, .RO, 0⟩
/-- HIF_DISCARD.COUNT (reset: 0x0). -/
def HIF_DISCARD_COUNT : Field := ⟨Reg.HIF_DISCARD.addr, 0, 64, .RO, 0⟩
/-- HIF_MAPCAP.REGION (reset: Set at BOOT). -/
def HIF_MAPCAP_REGION : Field := ⟨Reg.HIF_MAPCAP.addr, 0, 8, .RO, 0⟩
/-- HIF_MAPCAP.FREE (reset: Set at BOOT). -/
def HIF_MAPCAP_FREE : Field := ⟨Reg.HIF_MAPCAP.addr, 16, 16, .RO, 0⟩
/-- HIF_ACTDRAIN.LAST (reset: 0x0). -/
def HIF_ACTDRAIN_LAST : Field := ⟨Reg.HIF_ACTDRAIN.addr, 0, 21, .RO, 0⟩
/-- HIF_ACTDRAIN.OVER (reset: 0x0). -/
def HIF_ACTDRAIN_OVER : Field := ⟨Reg.HIF_ACTDRAIN.addr, 31, 1, .RO, 0⟩
/-- PLOT_CTL.EN (reset: Stream). -/
def PLOT_CTL_EN (n : Nat) : Field := ⟨(Reg.PLOT_CTL n).addr, 0, 1, .RW, (if n = 0 then 1 else 0)⟩
/-- PLOT_CTL.RST (reset: 0x0). -/
def PLOT_CTL_RST (n : Nat) : Field := ⟨(Reg.PLOT_CTL n).addr, 1, 1, .W1S, 0⟩
/-- PLOT_CTL.PSALLOW (reset: Stream). -/
def PLOT_CTL_PSALLOW (n : Nat) : Field := ⟨(Reg.PLOT_CTL n).addr, 2, 1, .RW, 0⟩
/-- PLOT_CTL.MGR (reset: 1 for n = 0, else 0). -/
def PLOT_CTL_MGR (n : Nat) : Field := ⟨(Reg.PLOT_CTL n).addr, 3, 1, .RO, (if n = 0 then 1 else 0)⟩
/-- PLOT_CTL.GEN (reset: 0x00). -/
def PLOT_CTL_GEN (n : Nat) : Field := ⟨(Reg.PLOT_CTL n).addr, 8, 8, .RO, 0⟩
/-- PLOT_STAT.STATE (reset: From EN). -/
def PLOT_STAT_STATE (n : Nat) : Field := ⟨(Reg.PLOT_STAT n).addr, 0, 2, .RO, (if n = 0 then 1 else 0)⟩
/-- PLOT_STAT.RSTPEND (reset: 0x0). -/
def PLOT_STAT_RSTPEND (n : Nat) : Field := ⟨(Reg.PLOT_STAT n).addr, 2, 1, .RO, 0⟩
/-- PLOT_STAT.SLMPEND (reset: 0x0). -/
def PLOT_STAT_SLMPEND (n : Nat) : Field := ⟨(Reg.PLOT_STAT n).addr, 3, 1, .RO, 0⟩
/-- PLOT_STAT.CQSTALL (reset: 0x0). -/
def PLOT_STAT_CQSTALL (n : Nat) : Field := ⟨(Reg.PLOT_STAT n).addr, 4, 1, .RO, 0⟩
/-- PLOT_QV.QMAX (reset: Stream). -/
def PLOT_QV_QMAX (n : Nat) : Field := ⟨(Reg.PLOT_QV n).addr, 0, 9, .RW, 0⟩
/-- PLOT_QV.VMAX (reset: Stream). -/
def PLOT_QV_VMAX (n : Nat) : Field := ⟨(Reg.PLOT_QV n).addr, 12, 13, .RW, 0⟩
/-- PLOT_FETCH.WEIGHT (reset: Stream). -/
def PLOT_FETCH_WEIGHT (n : Nat) : Field := ⟨(Reg.PLOT_FETCH n).addr, 0, 8, .RW, 0⟩
/-- PLOT_FETCH.OSHARE (reset: Stream). -/
def PLOT_FETCH_OSHARE (n : Nat) : Field := ⟨(Reg.PLOT_FETCH n).addr, 8, 17, .RW, 0⟩
/-- PLOT_SLM.SIZE (reset: Stream). -/
def PLOT_SLM_SIZE (n : Nat) : Field := ⟨(Reg.PLOT_SLM n).addr, 0, 16, .RW, 0⟩
/-- PLOT_SLM.EFFECT (reset: Stream). -/
def PLOT_SLM_EFFECT (n : Nat) : Field := ⟨(Reg.PLOT_SLM n).addr, 16, 16, .RO, 0⟩
/-- PLOT_FCORE.WEIGHT (reset: Stream). -/
def PLOT_FCORE_WEIGHT (n : Nat) : Field := ⟨(Reg.PLOT_FCORE n).addr, 0, 8, .RW, 0⟩
/-- PLOT_FCORE.CAP (reset: Stream). -/
def PLOT_FCORE_CAP (n : Nat) : Field := ⟨(Reg.PLOT_FCORE n).addr, 8, 5, .RW, 0⟩
/-- PLOT_EWT.CIPH (reset: Stream). -/
def PLOT_EWT_CIPH (n : Nat) : Field := ⟨(Reg.PLOT_EWT n).addr, 0, 8, .RW, 0⟩
/-- PLOT_EWT.DGST (reset: Stream). -/
def PLOT_EWT_DGST (n : Nat) : Field := ⟨(Reg.PLOT_EWT n).addr, 8, 8, .RW, 0⟩
/-- PLOT_EWT.CHURN (reset: Stream). -/
def PLOT_EWT_CHURN (n : Nat) : Field := ⟨(Reg.PLOT_EWT n).addr, 16, 8, .RW, 0⟩
/-- PLOT_EWT.SIEVE (reset: Stream). -/
def PLOT_EWT_SIEVE (n : Nat) : Field := ⟨(Reg.PLOT_EWT n).addr, 24, 8, .RW, 0⟩
/-- PLOT_ECAP.CIPH (reset: Stream). -/
def PLOT_ECAP_CIPH (n : Nat) : Field := ⟨(Reg.PLOT_ECAP n).addr, 0, 7, .RW, 0⟩
/-- PLOT_ECAP.DGST (reset: Stream). -/
def PLOT_ECAP_DGST (n : Nat) : Field := ⟨(Reg.PLOT_ECAP n).addr, 8, 7, .RW, 0⟩
/-- PLOT_ECAP.CHURN (reset: Stream). -/
def PLOT_ECAP_CHURN (n : Nat) : Field := ⟨(Reg.PLOT_ECAP n).addr, 16, 7, .RW, 0⟩
/-- PLOT_ECAP.SIEVE (reset: Stream). -/
def PLOT_ECAP_SIEVE (n : Nat) : Field := ⟨(Reg.PLOT_ECAP n).addr, 24, 7, .RW, 0⟩
/-- PLOT_USE.QUSED (reset: 0x0). -/
def PLOT_USE_QUSED (n : Nat) : Field := ⟨(Reg.PLOT_USE n).addr, 0, 9, .RO, 0⟩
/-- PLOT_USE.INFLIGHT (reset: 0x0). -/
def PLOT_USE_INFLIGHT (n : Nat) : Field := ⟨(Reg.PLOT_USE n).addr, 12, 17, .RO, 0⟩
/-- PLOT_STALE.COUNT (reset: 0x0). -/
def PLOT_STALE_COUNT (n : Nat) : Field := ⟨(Reg.PLOT_STALE n).addr, 0, 16, .RO, 0⟩
/-- PLOT_SUMQV.QSUM (reset: Stream). -/
def PLOT_SUMQV_QSUM : Field := ⟨Reg.PLOT_SUMQV.addr, 0, 14, .RO, 0⟩
/-- PLOT_SUMQV.VSUM (reset: Stream). -/
def PLOT_SUMQV_VSUM : Field := ⟨Reg.PLOT_SUMQV.addr, 16, 16, .RO, 0⟩
/-- PLOT_SUMIO.OSUM (reset: Stream). -/
def PLOT_SUMIO_OSUM : Field := ⟨Reg.PLOT_SUMIO.addr, 0, 17, .RO, 0⟩
/-- PLOT_SUMIO.MAXPLOTS (reset: Stream). -/
def PLOT_SUMIO_MAXPLOTS : Field := ⟨Reg.PLOT_SUMIO.addr, 22, 10, .RO, 0⟩
/-- PLOT_SLMPOOL.POOL (reset: Set at BOOT). -/
def PLOT_SLMPOOL_POOL : Field := ⟨Reg.PLOT_SLMPOOL.addr, 0, 16, .RO, 0⟩
/-- PLOT_SLMPOOL.SUM (reset: Stream). -/
def PLOT_SLMPOOL_SUM : Field := ⟨Reg.PLOT_SLMPOOL.addr, 16, 16, .RO, 0⟩
/-- PLOT_ERR.PLOT (reset: 0x0). -/
def PLOT_ERR_PLOT : Field := ⟨Reg.PLOT_ERR.addr, 0, 9, .RO, 0⟩
/-- PLOT_ERR.REG (reset: 0x0). -/
def PLOT_ERR_REG : Field := ⟨Reg.PLOT_ERR.addr, 12, 8, .RO, 0⟩
/-- PLOT_ERR.CAUSE (reset: 0x0). -/
def PLOT_ERR_CAUSE : Field := ⟨Reg.PLOT_ERR.addr, 20, 4, .RO, 0⟩
/-- PLOT_ERR.VALID (reset: 0x0). -/
def PLOT_ERR_VALID : Field := ⟨Reg.PLOT_ERR.addr, 31, 1, .W1C, 0⟩
/-- CHAN_CFG.IFACE (reset: Stream). -/
def CHAN_CFG_IFACE (ch : Nat) : Field := ⟨(Reg.CHAN_CFG ch).addr, 0, 1, .RWL, 0⟩
/-- CHAN_CFG.RATEMAX (reset: Stream). -/
def CHAN_CFG_RATEMAX (ch : Nat) : Field := ⟨(Reg.CHAN_CFG ch).addr, 1, 3, .RWL, 0⟩
/-- CHAN_CFG.XRATE_EN (reset: Stream). -/
def CHAN_CFG_XRATE_EN (ch : Nat) : Field := ⟨(Reg.CHAN_CFG ch).addr, 4, 1, .RWL, 0⟩
/-- CHAN_CFG.PARITY (reset: Stream). -/
def CHAN_CFG_PARITY (ch : Nat) : Field := ⟨(Reg.CHAN_CFG ch).addr, 8, 3, .RWL, 0⟩
/-- CHAN_CFG.SOFT_EN (reset: 0x1). -/
def CHAN_CFG_SOFT_EN (ch : Nat) : Field := ⟨(Reg.CHAN_CFG ch).addr, 12, 1, .RW, 1⟩
/-- CHAN_CFG.SUSP_EN (reset: 0x1). -/
def CHAN_CFG_SUSP_EN (ch : Nat) : Field := ⟨(Reg.CHAN_CFG ch).addr, 13, 1, .RW, 1⟩
/-- CHAN_CFG.RETRYMAX (reset: 0x20). -/
def CHAN_CFG_RETRYMAX (ch : Nat) : Field := ⟨(Reg.CHAN_CFG ch).addr, 16, 6, .RW, 32⟩
/-- CHAN_CFG.LOCK (reset: 0x0). -/
def CHAN_CFG_LOCK (ch : Nat) : Field := ⟨(Reg.CHAN_CFG ch).addr, 31, 1, .W1S, 0⟩
/-- CHAN_STAT.RATE (reset: 0x0). -/
def CHAN_STAT_RATE (ch : Nat) : Field := ⟨(Reg.CHAN_STAT ch).addr, 0, 3, .RO, 0⟩
/-- CHAN_STAT.TRAINED (reset: 0x0). -/
def CHAN_STAT_TRAINED (ch : Nat) : Field := ⟨(Reg.CHAN_STAT ch).addr, 3, 1, .RO, 0⟩
/-- CHAN_STAT.RETIRED (reset: From device metadata). -/
def CHAN_STAT_RETIRED (ch : Nat) : Field := ⟨(Reg.CHAN_STAT ch).addr, 4, 1, .RO, 0⟩
/-- CHAN_STAT.XRATE (reset: 0x0). -/
def CHAN_STAT_XRATE (ch : Nat) : Field := ⟨(Reg.CHAN_STAT ch).addr, 5, 1, .RO, 0⟩
/-- CHAN_STAT.DIESPRES (reset: 0x00). -/
def CHAN_STAT_DIESPRES (ch : Nat) : Field := ⟨(Reg.CHAN_STAT ch).addr, 8, 8, .RO, 0⟩
/-- CHAN_STAT.DIESFAIL (reset: 0x00). -/
def CHAN_STAT_DIESFAIL (ch : Nat) : Field := ⟨(Reg.CHAN_STAT ch).addr, 16, 8, .RO, 0⟩
/-- CHAN_TNOM.TIME (reset: From parameter page). -/
def CHAN_TNOM_TIME (ch k : Nat) : Field := ⟨(Reg.CHAN_TNOM ch k).addr, 0, 20, .RW, 0⟩
/-- CHAN_DTO.MULT (reset: 0x3). -/
def CHAN_DTO_MULT (ch : Nat) : Field := ⟨(Reg.CHAN_DTO ch).addr, 0, 4, .RW, 3⟩
/-- CHAN_DTO.FAILN (reset: 0x8). -/
def CHAN_DTO_FAILN (ch : Nat) : Field := ⟨(Reg.CHAN_DTO ch).addr, 8, 4, .RW, 8⟩
/-- CHAN_DTO.SUSPWAIT (reset: 0x14). -/
def CHAN_DTO_SUSPWAIT (ch : Nat) : Field := ⟨(Reg.CHAN_DTO ch).addr, 16, 8, .RW, 20⟩
/-- CHAN_DTO.SUSPMAX (reset: 0x4). -/
def CHAN_DTO_SUSPMAX (ch : Nat) : Field := ⟨(Reg.CHAN_DTO ch).addr, 24, 3, .RW, 4⟩
/-- CHAN_DIEPRES.PRES (reset: Set at BOOT). -/
def CHAN_DIEPRES_PRES (ch i : Nat) : Field := ⟨(Reg.CHAN_DIEPRES ch i).addr, 0, 32, .RO, 0⟩
/-- CHAN_DIEFAIL.FAIL (reset: From device metadata). -/
def CHAN_DIEFAIL_FAIL (ch i : Nat) : Field := ⟨(Reg.CHAN_DIEFAIL ch i).addr, 0, 32, .RO, 0⟩
/-- CHAN_DIEXR.XR (reset: Set at BOOT). -/
def CHAN_DIEXR_XR (ch i : Nat) : Field := ⟨(Reg.CHAN_DIEXR ch i).addr, 0, 32, .RO, 0⟩
/-- CHAN_DIESTAT.CONSEC (reset: 0x0). -/
def CHAN_DIESTAT_CONSEC (ch d : Nat) : Field := ⟨(Reg.CHAN_DIESTAT ch d).addr, 0, 4, .RO, 0⟩
/-- CHAN_DIESTAT.QDEPTH (reset: 0x00). -/
def CHAN_DIESTAT_QDEPTH (ch d : Nat) : Field := ⟨(Reg.CHAN_DIESTAT ch d).addr, 8, 6, .RO, 0⟩
/-- CHAN_DIESTAT.STATE (reset: 0b00). -/
def CHAN_DIESTAT_STATE (ch d : Nat) : Field := ⟨(Reg.CHAN_DIESTAT ch d).addr, 14, 2, .RO, 0⟩
/-- CHAN_DIESTAT.LASTRETRY (reset: 0x00). -/
def CHAN_DIESTAT_LASTRETRY (ch d : Nat) : Field := ⟨(Reg.CHAN_DIESTAT ch d).addr, 16, 6, .RO, 0⟩
/-- CHAN_CNT.COUNT (reset: 0x0). -/
def CHAN_CNT_COUNT (ch k : Nat) : Field := ⟨(Reg.CHAN_CNT ch k).addr, 0, 64, .RO, 0⟩
/-- CHAN_RETRY.ENTRY (reset: Stream). -/
def CHAN_RETRY_ENTRY (ch e w : Nat) : Field := ⟨(Reg.CHAN_RETRY ch e w).addr, 0, 32, .RW, 0⟩
/-- MAPW_STAT.RECOVERING (reset: 0x0). -/
def MAPW_STAT_RECOVERING : Field := ⟨Reg.MAPW_STAT.addr, 0, 1, .RO, 0⟩
/-- MAPW_STAT.ADMIT (reset: 0x0). -/
def MAPW_STAT_ADMIT : Field := ⟨Reg.MAPW_STAT.addr, 1, 1, .RO, 0⟩
/-- MAPW_STAT.ROCOND (reset: From device metadata). -/
def MAPW_STAT_ROCOND : Field := ⟨Reg.MAPW_STAT.addr, 2, 1, .RO, 0⟩
/-- MAPW_STAT.JFILL (reset: 0x00). -/
def MAPW_STAT_JFILL : Field := ⟨Reg.MAPW_STAT.addr, 8, 7, .RO, 0⟩
/-- MAPW_STAT.SPAREMIN (reset: Set at BOOT). -/
def MAPW_STAT_SPAREMIN : Field := ⟨Reg.MAPW_STAT.addr, 16, 7, .RO, 0⟩
/-- MAPW_STAT.USED (reset: Set at BOOT). -/
def MAPW_STAT_USED : Field := ⟨Reg.MAPW_STAT.addr, 24, 8, .RO, 0⟩
/-- MAPW_CKPT.PERIOD (reset: 0x05). -/
def MAPW_CKPT_PERIOD : Field := ⟨Reg.MAPW_CKPT.addr, 0, 6, .RW, 5⟩
/-- MAPW_CKPT.VOLUME (reset: 0x04). -/
def MAPW_CKPT_VOLUME : Field := ⟨Reg.MAPW_CKPT.addr, 8, 6, .RW, 4⟩
/-- MAPW_CKPT.DIRTYMAX (reset: 0x20). -/
def MAPW_CKPT_DIRTYMAX : Field := ⟨Reg.MAPW_CKPT.addr, 16, 6, .RW, 32⟩
/-- MAPW_COMPOST.START (reset: 0x1E). -/
def MAPW_COMPOST_START : Field := ⟨Reg.MAPW_COMPOST.addr, 0, 8, .RW, 30⟩
/-- MAPW_COMPOST.URGENT (reset: 0x0A). -/
def MAPW_COMPOST_URGENT : Field := ⟨Reg.MAPW_COMPOST.addr, 8, 8, .RW, 10⟩
/-- MAPW_RELOC.READMAX (reset: 0x00C8). -/
def MAPW_RELOC_READMAX : Field := ⟨Reg.MAPW_RELOC.addr, 0, 16, .RW, 200⟩
/-- MAPW_RELOC.RETAIN (reset: 0x00B4). -/
def MAPW_RELOC_RETAIN : Field := ⟨Reg.MAPW_RELOC.addr, 16, 16, .RW, 180⟩
/-- MAPW_SPARE.EWPCT (reset: Stream or saved). -/
def MAPW_SPARE_EWPCT : Field := ⟨Reg.MAPW_SPARE.addr, 0, 8, .RO, 0⟩
/-- MAPW_SPARE.CRITPCT (reset: Stream or saved). -/
def MAPW_SPARE_CRITPCT : Field := ⟨Reg.MAPW_SPARE.addr, 8, 8, .RO, 0⟩
/-- MAPW_SPARE.WEARPCT (reset: Stream or saved). -/
def MAPW_SPARE_WEARPCT : Field := ⟨Reg.MAPW_SPARE.addr, 16, 8, .RO, 0⟩
/-- MAPW_EWSET.SET (reset: Stream or saved). -/
def MAPW_EWSET_SET : Field := ⟨Reg.MAPW_EWSET.addr, 0, 64, .RO, 0⟩
/-- MAPW_EWACT.ACT (reset: 0x0). -/
def MAPW_EWACT_ACT : Field := ⟨Reg.MAPW_EWACT.addr, 0, 64, .RO, 0⟩
/-- MAPW_RECOV.MS (reset: From device metadata). -/
def MAPW_RECOV_MS : Field := ⟨Reg.MAPW_RECOV.addr, 0, 24, .RO, 0⟩
/-- MRAMC_WC.SLOTS (reset: Set at BOOT). -/
def MRAMC_WC_SLOTS : Field := ⟨Reg.MRAMC_WC.addr, 0, 18, .RO, 0⟩
/-- MRAMC_WC.RECFULL (reset: 0x0). -/
def MRAMC_WC_RECFULL : Field := ⟨Reg.MRAMC_WC.addr, 30, 1, .RO, 0⟩
/-- MRAMC_WC.FULL (reset: 0x0). -/
def MRAMC_WC_FULL : Field := ⟨Reg.MRAMC_WC.addr, 31, 1, .RO, 0⟩
/-- MRAMC_JHEAD.BSEQ (reset: Set at BOOT). -/
def MRAMC_JHEAD_BSEQ : Field := ⟨Reg.MRAMC_JHEAD.addr, 0, 64, .RO, 0⟩
/-- MRAMC_JTAIL.BSEQ (reset: Set at BOOT). -/
def MRAMC_JTAIL_BSEQ : Field := ⟨Reg.MRAMC_JTAIL.addr, 0, 64, .RO, 0⟩
/-- MRAMC_WSEQ.NEXT (reset: From device metadata). -/
def MRAMC_WSEQ_NEXT : Field := ⟨Reg.MRAMC_WSEQ.addr, 0, 64, .RO, 0⟩
/-- STRP_CFG.GROUPS (reset: Stream). -/
def STRP_CFG_GROUPS : Field := ⟨Reg.STRP_CFG.addr, 0, 8, .RO, 0⟩
/-- STRP_CFG.JSLOTS (reset: Set at BOOT). -/
def STRP_CFG_JSLOTS : Field := ⟨Reg.STRP_CFG.addr, 8, 10, .RO, 0⟩
/-- STRP_RBCFG.RATE (reset: 0x28). -/
def STRP_RBCFG_RATE : Field := ⟨Reg.STRP_RBCFG.addr, 0, 8, .RW, 40⟩
/-- STRP_RBCFG.MAXGRP (reset: 0x4). -/
def STRP_RBCFG_MAXGRP : Field := ⟨Reg.STRP_RBCFG.addr, 8, 4, .RW, 4⟩
/-- STRP_RBCFG.PAUSE (reset: 0x0). -/
def STRP_RBCFG_PAUSE : Field := ⟨Reg.STRP_RBCFG.addr, 16, 1, .RW, 0⟩
/-- STRP_RBSTAT.ACTIVE (reset: 0x00). -/
def STRP_RBSTAT_ACTIVE : Field := ⟨Reg.STRP_RBSTAT.addr, 0, 8, .RO, 0⟩
/-- STRP_RBSTAT.QUEUED (reset: From device metadata). -/
def STRP_RBSTAT_QUEUED : Field := ⟨Reg.STRP_RBSTAT.addr, 8, 8, .RO, 0⟩
/-- STRP_RAKE.DAYS (reset: 0x0E). -/
def STRP_RAKE_DAYS : Field := ⟨Reg.STRP_RAKE.addr, 0, 8, .RW, 14⟩
/-- STRP_RAKESTAT.PASSPCT (reset: From device metadata). -/
def STRP_RAKESTAT_PASSPCT : Field := ⟨Reg.STRP_RAKESTAT.addr, 0, 7, .RO, 0⟩
/-- STRP_RAKESTAT.PASSES (reset: From device metadata). -/
def STRP_RAKESTAT_PASSES : Field := ⟨Reg.STRP_RAKESTAT.addr, 16, 16, .RO, 0⟩
/-- STRP_JSTAT.INUSE (reset: Set at BOOT). -/
def STRP_JSTAT_INUSE : Field := ⟨Reg.STRP_JSTAT.addr, 0, 10, .RO, 0⟩
/-- STRP_JSTAT.FULL (reset: 0x0). -/
def STRP_JSTAT_FULL : Field := ⟨Reg.STRP_JSTAT.addr, 10, 1, .RO, 0⟩
/-- STRP_CNT.COUNT (reset: 0x0). -/
def STRP_CNT_COUNT (k : Nat) : Field := ⟨(Reg.STRP_CNT k).addr, 0, 64, .RO, 0⟩
/-- STRP_GRP.GEOM (reset: Stream). -/
def STRP_GRP_GEOM (g : Nat) : Field := ⟨(Reg.STRP_GRP g).addr, 0, 2, .RO, 0⟩
/-- STRP_GRP.LIVE (reset: Set at BOOT). -/
def STRP_GRP_LIVE (g : Nat) : Field := ⟨(Reg.STRP_GRP g).addr, 2, 6, .RO, 0⟩
/-- STRP_GRP.FAILED (reset: From device metadata). -/
def STRP_GRP_FAILED (g : Nat) : Field := ⟨(Reg.STRP_GRP g).addr, 8, 6, .RO, 0⟩
/-- STRP_GRP.STATE (reset: Set at BOOT). -/
def STRP_GRP_STATE (g : Nat) : Field := ⟨(Reg.STRP_GRP g).addr, 14, 2, .RO, 0⟩
/-- STRP_GMEM.DIE (reset: Stream). -/
def STRP_GMEM_DIE (x : Nat) : Field := ⟨(Reg.STRP_GMEM x).addr, 0, 11, .RO, 0⟩
/-- STRP_GMEM.FAILED (reset: From device metadata). -/
def STRP_GMEM_FAILED (x : Nat) : Field := ⟨(Reg.STRP_GMEM x).addr, 11, 1, .RO, 0⟩
/-- STRP_GMEM.USED (reset: Stream). -/
def STRP_GMEM_USED (x : Nat) : Field := ⟨(Reg.STRP_GMEM x).addr, 12, 1, .RO, 0⟩
/-- GWL_ID.MEMBER (reset: From CID[2:0]). -/
def GWL_ID_MEMBER : Field := ⟨Reg.GWL_ID.addr, 0, 3, .RO, 0⟩
/-- GWL_ID.CCOUNT (reset: Stream). -/
def GWL_ID_CCOUNT : Field := ⟨Reg.GWL_ID.addr, 4, 4, .RO, 0⟩
/-- GWL_ID.ANCHOR (reset: Stream or metadata). -/
def GWL_ID_ANCHOR : Field := ⟨Reg.GWL_ID.addr, 8, 3, .RO, 0⟩
/-- GWL_ID.CLUSTER (reset: Stream). -/
def GWL_ID_CLUSTER : Field := ⟨Reg.GWL_ID.addr, 11, 1, .RO, 0⟩
/-- GWL_CFG.LINKTO (reset: 0x0A). -/
def GWL_CFG_LINKTO : Field := ⟨Reg.GWL_CFG.addr, 0, 8, .RW, 10⟩
/-- GWL_CFG.REPLAYMAX (reset: 0x8). -/
def GWL_CFG_REPLAYMAX : Field := ⟨Reg.GWL_CFG.addr, 8, 4, .RW, 8⟩
/-- GWL_CFG.REPLAYTO (reset: 0x14). -/
def GWL_CFG_REPLAYTO : Field := ⟨Reg.GWL_CFG.addr, 16, 8, .RW, 20⟩
/-- GWL_HB.PERIOD (reset: 0x1). -/
def GWL_HB_PERIOD : Field := ⟨Reg.GWL_HB.addr, 0, 4, .RW, 1⟩
/-- GWL_HB.MISS (reset: 0x032). -/
def GWL_HB_MISS : Field := ⟨Reg.GWL_HB.addr, 8, 10, .RW, 50⟩
/-- GWL_HB.SETTLE (reset: 0x14). -/
def GWL_HB_SETTLE : Field := ⟨Reg.GWL_HB.addr, 24, 8, .RW, 20⟩
/-- GWL_VIEW.VIEW (reset: 0x0). -/
def GWL_VIEW_VIEW : Field := ⟨Reg.GWL_VIEW.addr, 0, 64, .RO, 0⟩
/-- GWL_SETS.VIEWSET (reset: 0x00). -/
def GWL_SETS_VIEWSET : Field := ⟨Reg.GWL_SETS.addr, 0, 8, .RO, 0⟩
/-- GWL_SETS.REACH (reset: 0x00). -/
def GWL_SETS_REACH : Field := ⟨Reg.GWL_SETS.addr, 8, 8, .RO, 0⟩
/-- GWL_SETS.RETSET (reset: Stream). -/
def GWL_SETS_RETSET : Field := ⟨Reg.GWL_SETS.addr, 16, 8, .RO, 0⟩
/-- GWL_SETS.REJSET (reset: 0x00). -/
def GWL_SETS_REJSET : Field := ⟨Reg.GWL_SETS.addr, 24, 8, .RO, 0⟩
/-- GWL_RESYNC.RATE (reset: 0x14). -/
def GWL_RESYNC_RATE : Field := ⟨Reg.GWL_RESYNC.addr, 0, 8, .RW, 20⟩
/-- GWL_RESYNC.PAUSE (reset: 0x0). -/
def GWL_RESYNC_PAUSE : Field := ⟨Reg.GWL_RESYNC.addr, 8, 1, .RW, 0⟩
/-- GWL_CJ.OWN (reset: Set at BOOT). -/
def GWL_CJ_OWN : Field := ⟨Reg.GWL_CJ.addr, 0, 16, .RO, 0⟩
/-- GWL_CJ.MIRROR (reset: Set at BOOT). -/
def GWL_CJ_MIRROR : Field := ⟨Reg.GWL_CJ.addr, 16, 16, .RO, 0⟩
/-- GWL_LSTAT.STATE (reset: 0x0). -/
def GWL_LSTAT_STATE (l : Nat) : Field := ⟨(Reg.GWL_LSTAT l).addr, 0, 3, .RO, 0⟩
/-- GWL_LSTAT.PEER (reset: 0x0). -/
def GWL_LSTAT_PEER (l : Nat) : Field := ⟨(Reg.GWL_LSTAT l).addr, 3, 3, .RO, 0⟩
/-- GWL_LSTAT.REVERSED (reset: 0x0). -/
def GWL_LSTAT_REVERSED (l : Nat) : Field := ⟨(Reg.GWL_LSTAT l).addr, 6, 1, .RO, 0⟩
/-- GWL_LSTAT.DOWNS (reset: 0x0000). -/
def GWL_LSTAT_DOWNS (l : Nat) : Field := ⟨(Reg.GWL_LSTAT l).addr, 16, 16, .RO, 0⟩
/-- GWL_LCNT.COUNT (reset: 0x0). -/
def GWL_LCNT_COUNT (x : Nat) : Field := ⟨(Reg.GWL_LCNT x).addr, 0, 64, .RO, 0⟩
/-- TREL_CFG.PIPES (reset: Stream). -/
def TREL_CFG_PIPES (q : Nat) : Field := ⟨(Reg.TREL_CFG q).addr, 0, 7, .RO, 0⟩
/-- TREL_CFG.SEGVER (reset: Stream). -/
def TREL_CFG_SEGVER (q : Nat) : Field := ⟨(Reg.TREL_CFG q).addr, 16, 16, .RO, 0⟩
/-- TREL_ERR.RING (reset: 0x00). -/
def TREL_ERR_RING (q : Nat) : Field := ⟨(Reg.TREL_ERR q).addr, 0, 6, .RO, 0⟩
/-- TREL_ERR.CAUSE (reset: 0x0). -/
def TREL_ERR_CAUSE (q : Nat) : Field := ⟨(Reg.TREL_ERR q).addr, 8, 4, .RO, 0⟩
/-- TREL_ERR.VALID (reset: 0x0). -/
def TREL_ERR_VALID (q : Nat) : Field := ⟨(Reg.TREL_ERR q).addr, 31, 1, .W1C, 0⟩
/-- TREL_CNT.COUNT (reset: 0x0). -/
def TREL_CNT_COUNT (q k : Nat) : Field := ⟨(Reg.TREL_CNT q k).addr, 0, 64, .RO, 0⟩
/-- TREL_PIPE.DESC (reset: Stream). -/
def TREL_PIPE_DESC (q p w : Nat) : Field := ⟨(Reg.TREL_PIPE q p w).addr, 0, 32, .RO, 0⟩
/-- TREL_RBASE.BASE (reset: 0x0). -/
def TREL_RBASE_BASE (q r : Nat) : Field := ⟨(Reg.TREL_RBASE q r).addr, 0, 64, .RW, 0⟩
/-- TREL_RCTL.LOG2E (reset: 0x4). -/
def TREL_RCTL_LOG2E (q r : Nat) : Field := ⟨(Reg.TREL_RCTL q r).addr, 0, 4, .RW, 4⟩
/-- TREL_RCTL.PLOT (reset: 0x000). -/
def TREL_RCTL_PLOT (q r : Nat) : Field := ⟨(Reg.TREL_RCTL q r).addr, 4, 9, .RW, 0⟩
/-- TREL_RCTL.GEN (reset: 0x00). -/
def TREL_RCTL_GEN (q r : Nat) : Field := ⟨(Reg.TREL_RCTL q r).addr, 13, 8, .RO, 0⟩
/-- TREL_RCTL.EN (reset: 0x0). -/
def TREL_RCTL_EN (q r : Nat) : Field := ⟨(Reg.TREL_RCTL q r).addr, 21, 1, .RW, 0⟩
/-- TREL_RCTL.STALE (reset: 0x0). -/
def TREL_RCTL_STALE (q r : Nat) : Field := ⟨(Reg.TREL_RCTL q r).addr, 22, 1, .RO, 0⟩
/-- TREL_RSUB.SUB (reset: 0x0000_0000). -/
def TREL_RSUB_SUB (q r : Nat) : Field := ⟨(Reg.TREL_RSUB q r).addr, 0, 32, .RW, 0⟩
/-- TREL_RACK.ACK (reset: 0x0000_0000). -/
def TREL_RACK_ACK (q r : Nat) : Field := ⟨(Reg.TREL_RACK q r).addr, 0, 32, .RW, 0⟩
/-- TREL_RCMP.CMPSEQ (reset: 0x0000_0000). -/
def TREL_RCMP_CMPSEQ (q r : Nat) : Field := ⟨(Reg.TREL_RCMP q r).addr, 0, 32, .RO, 0⟩
/-- TREL_RSTAT.ACTIVE (reset: 0x0000). -/
def TREL_RSTAT_ACTIVE (q r : Nat) : Field := ⟨(Reg.TREL_RSTAT q r).addr, 0, 13, .RO, 0⟩
/-- TREL_RSTAT.REJ (reset: 0x0). -/
def TREL_RSTAT_REJ (q r : Nat) : Field := ⟨(Reg.TREL_RSTAT q r).addr, 31, 1, .W1C, 0⟩
/-- SKIM_BIND.MODE (reset: 0b00). -/
def SKIM_BIND_MODE (q u : Nat) : Field := ⟨(Reg.SKIM_BIND q u).addr, 0, 2, .RO, 0⟩
/-- SKIM_BIND.CTX (reset: 0x0). -/
def SKIM_BIND_CTX (q u : Nat) : Field := ⟨(Reg.SKIM_BIND q u).addr, 2, 3, .RO, 0⟩
/-- SKIM_BIND.HOLD (reset: 0x0). -/
def SKIM_BIND_HOLD (q u : Nat) : Field := ⟨(Reg.SKIM_BIND q u).addr, 8, 1, .RW, 0⟩
/-- SKIM_CNT.COUNT (reset: 0x0). -/
def SKIM_CNT_COUNT (q k : Nat) : Field := ⟨(Reg.SKIM_CNT q k).addr, 0, 64, .RO, 0⟩
/-- CHURN_CFG.QUANTUM (reset: 0x4). -/
def CHURN_CFG_QUANTUM (q : Nat) : Field := ⟨(Reg.CHURN_CFG q).addr, 0, 4, .RW, 4⟩
/-- CHURN_CFG.ZWLOG (reset: 0x17). -/
def CHURN_CFG_ZWLOG (q : Nat) : Field := ⟨(Reg.CHURN_CFG q).addr, 8, 5, .RW, 23⟩
/-- CHURN_STAT.PCTX (reset: 0x00). -/
def CHURN_STAT_PCTX (q : Nat) : Field := ⟨(Reg.CHURN_STAT q).addr, 0, 7, .RO, 0⟩
/-- CHURN_STAT.ICTX (reset: 0x0). -/
def CHURN_STAT_ICTX (q : Nat) : Field := ⟨(Reg.CHURN_STAT q).addr, 8, 4, .RO, 0⟩
/-- CHURN_STAT.CBUSY (reset: 0x0). -/
def CHURN_STAT_CBUSY (q : Nat) : Field := ⟨(Reg.CHURN_STAT q).addr, 12, 1, .RO, 0⟩
/-- CHURN_STAT.DBUSY (reset: 0x0). -/
def CHURN_STAT_DBUSY (q : Nat) : Field := ⟨(Reg.CHURN_STAT q).addr, 13, 1, .RO, 0⟩
/-- CHURN_STAT.CCLASS (reset: 0x0). -/
def CHURN_STAT_CCLASS (q : Nat) : Field := ⟨(Reg.CHURN_STAT q).addr, 16, 2, .RO, 0⟩
/-- CHURN_STAT.DCLASS (reset: 0x0). -/
def CHURN_STAT_DCLASS (q : Nat) : Field := ⟨(Reg.CHURN_STAT q).addr, 18, 2, .RO, 0⟩
/-- CHURN_ERR.CODE (reset: 0x00). -/
def CHURN_ERR_CODE (q : Nat) : Field := ⟨(Reg.CHURN_ERR q).addr, 0, 8, .RO, 0⟩
/-- CHURN_ERR.JOB (reset: 0x0000). -/
def CHURN_ERR_JOB (q : Nat) : Field := ⟨(Reg.CHURN_ERR q).addr, 8, 16, .RO, 0⟩
/-- CHURN_ERR.INTERNAL (reset: 0x0). -/
def CHURN_ERR_INTERNAL (q : Nat) : Field := ⟨(Reg.CHURN_ERR q).addr, 24, 1, .RO, 0⟩
/-- CHURN_ERR.VALID (reset: 0x0). -/
def CHURN_ERR_VALID (q : Nat) : Field := ⟨(Reg.CHURN_ERR q).addr, 31, 1, .W1C, 0⟩
/-- CHURN_ERROFF.OFFSET (reset: 0x0). -/
def CHURN_ERROFF_OFFSET (q : Nat) : Field := ⟨(Reg.CHURN_ERROFF q).addr, 0, 64, .RO, 0⟩
/-- CHURN_CNT.COUNT (reset: 0x0). -/
def CHURN_CNT_COUNT (q k : Nat) : Field := ⟨(Reg.CHURN_CNT q k).addr, 0, 64, .RO, 0⟩
/-- SIEVE_CFG.QUANTUM (reset: 0x4). -/
def SIEVE_CFG_QUANTUM (q : Nat) : Field := ⟨(Reg.SIEVE_CFG q).addr, 0, 4, .RW, 4⟩
/-- SIEVE_CFG.UPDSHARE (reset: 0x4). -/
def SIEVE_CFG_UPDSHARE (q : Nat) : Field := ⟨(Reg.SIEVE_CFG q).addr, 4, 4, .RW, 4⟩
/-- SIEVE_CFG.RECMAX (reset: 0x0400). -/
def SIEVE_CFG_RECMAX (q : Nat) : Field := ⟨(Reg.SIEVE_CFG q).addr, 8, 16, .RW, 1024⟩
/-- SIEVE_STAT.PCTX (reset: 0x00). -/
def SIEVE_STAT_PCTX (q : Nat) : Field := ⟨(Reg.SIEVE_STAT q).addr, 0, 7, .RO, 0⟩
/-- SIEVE_STAT.ICTX (reset: 0x0). -/
def SIEVE_STAT_ICTX (q : Nat) : Field := ⟨(Reg.SIEVE_STAT q).addr, 8, 4, .RO, 0⟩
/-- SIEVE_STAT.BUSY (reset: 0x0). -/
def SIEVE_STAT_BUSY (q : Nat) : Field := ⟨(Reg.SIEVE_STAT q).addr, 12, 1, .RO, 0⟩
/-- SIEVE_STAT.CLASS (reset: 0x0). -/
def SIEVE_STAT_CLASS (q : Nat) : Field := ⟨(Reg.SIEVE_STAT q).addr, 13, 2, .RO, 0⟩
/-- SIEVE_STAT.TFREE (reset: 0x40). -/
def SIEVE_STAT_TFREE (q : Nat) : Field := ⟨(Reg.SIEVE_STAT q).addr, 16, 7, .RO, 64⟩
/-- SIEVE_STAT.IMAGES (reset: 0x00). -/
def SIEVE_STAT_IMAGES (q : Nat) : Field := ⟨(Reg.SIEVE_STAT q).addr, 24, 6, .RO, 0⟩
/-- SIEVE_UCMD.OP (reset: 0x0). -/
def SIEVE_UCMD_OP (q : Nat) : Field := ⟨(Reg.SIEVE_UCMD q).addr, 0, 3, .RW, 0⟩
/-- SIEVE_UCMD.REPLACE (reset: 0x0). -/
def SIEVE_UCMD_REPLACE (q : Nat) : Field := ⟨(Reg.SIEVE_UCMD q).addr, 3, 1, .RW, 0⟩
/-- SIEVE_UCMD.TABLE (reset: 0x00). -/
def SIEVE_UCMD_TABLE (q : Nat) : Field := ⟨(Reg.SIEVE_UCMD q).addr, 4, 8, .RW, 0⟩
/-- SIEVE_UCMD.INDEX (reset: 0x0000). -/
def SIEVE_UCMD_INDEX (q : Nat) : Field := ⟨(Reg.SIEVE_UCMD q).addr, 16, 16, .RW, 0⟩
/-- SIEVE_URES.INDEX (reset: 0x0000). -/
def SIEVE_URES_INDEX (q : Nat) : Field := ⟨(Reg.SIEVE_URES q).addr, 0, 16, .RO, 0⟩
/-- SIEVE_URES.STATUS (reset: 0x0). -/
def SIEVE_URES_STATUS (q : Nat) : Field := ⟨(Reg.SIEVE_URES q).addr, 16, 4, .RO, 0⟩
/-- SIEVE_URES.BUSY (reset: 0x0). -/
def SIEVE_URES_BUSY (q : Nat) : Field := ⟨(Reg.SIEVE_URES q).addr, 30, 1, .RO, 0⟩
/-- SIEVE_URES.DONE (reset: 0x0). -/
def SIEVE_URES_DONE (q : Nat) : Field := ⟨(Reg.SIEVE_URES q).addr, 31, 1, .W1C, 0⟩
/-- SIEVE_UKEY.KEY (reset: 0x0000_0000). -/
def SIEVE_UKEY_KEY (q i : Nat) : Field := ⟨(Reg.SIEVE_UKEY q i).addr, 0, 32, .RW, 0⟩
/-- SIEVE_UMASK.MASK (reset: 0x0000_0000). -/
def SIEVE_UMASK_MASK (q i : Nat) : Field := ⟨(Reg.SIEVE_UMASK q i).addr, 0, 32, .RW, 0⟩
/-- SIEVE_UVAL.VALUE (reset: 0x0). -/
def SIEVE_UVAL_VALUE (q : Nat) : Field := ⟨(Reg.SIEVE_UVAL q).addr, 0, 64, .RW, 0⟩
/-- SIEVE_IMG.PLOT (reset: 0x000). -/
def SIEVE_IMG_PLOT (q s : Nat) : Field := ⟨(Reg.SIEVE_IMG q s).addr, 0, 9, .RO, 0⟩
/-- SIEVE_IMG.TILES (reset: 0x00). -/
def SIEVE_IMG_TILES (q s : Nat) : Field := ⟨(Reg.SIEVE_IMG q s).addr, 16, 7, .RO, 0⟩
/-- SIEVE_IMG.OVER (reset: 0x0). -/
def SIEVE_IMG_OVER (q s : Nat) : Field := ⟨(Reg.SIEVE_IMG q s).addr, 23, 1, .RO, 0⟩
/-- SIEVE_IMG.USED (reset: 0x0). -/
def SIEVE_IMG_USED (q s : Nat) : Field := ⟨(Reg.SIEVE_IMG q s).addr, 31, 1, .RO, 0⟩
/-- SIEVE_CNT.COUNT (reset: 0x0). -/
def SIEVE_CNT_COUNT (q k : Nat) : Field := ⟨(Reg.SIEVE_CNT q k).addr, 0, 64, .RO, 0⟩
/-- SIEVE_TBL.BASE (reset: 0x0000). -/
def SIEVE_TBL_BASE (q t : Nat) : Field := ⟨(Reg.SIEVE_TBL q t).addr, 0, 16, .RW, 0⟩
/-- SIEVE_TBL.SIZE (reset: 0x0). -/
def SIEVE_TBL_SIZE (q t : Nat) : Field := ⟨(Reg.SIEVE_TBL q t).addr, 16, 17, .RW, 0⟩
/-- SIEVE_TBL.CLASS (reset: 0x0). -/
def SIEVE_TBL_CLASS (q t : Nat) : Field := ⟨(Reg.SIEVE_TBL q t).addr, 33, 1, .RW, 0⟩
/-- SIEVE_TBL.KEYW (reset: 0x14). -/
def SIEVE_TBL_KEYW (q t : Nat) : Field := ⟨(Reg.SIEVE_TBL q t).addr, 34, 5, .RW, 20⟩
/-- SIEVE_TBL.PLOT (reset: 0x000). -/
def SIEVE_TBL_PLOT (q t : Nat) : Field := ⟨(Reg.SIEVE_TBL q t).addr, 40, 9, .RW, 0⟩
/-- SIEVE_TBL.EN (reset: 0x0). -/
def SIEVE_TBL_EN (q t : Nat) : Field := ⟨(Reg.SIEVE_TBL q t).addr, 63, 1, .RW, 0⟩
/-- SIEVE_TUSE.USED (reset: 0x0). -/
def SIEVE_TUSE_USED (q t : Nat) : Field := ⟨(Reg.SIEVE_TUSE q t).addr, 0, 17, .RO, 0⟩
/-- CIPH_STAT.PCTX (reset: 0x00). -/
def CIPH_STAT_PCTX (q : Nat) : Field := ⟨(Reg.CIPH_STAT q).addr, 0, 7, .RO, 0⟩
/-- CIPH_STAT.ICTX (reset: 0x0). -/
def CIPH_STAT_ICTX (q : Nat) : Field := ⟨(Reg.CIPH_STAT q).addr, 8, 4, .RO, 0⟩
/-- CIPH_STAT.BUSY (reset: 0x0). -/
def CIPH_STAT_BUSY (q : Nat) : Field := ⟨(Reg.CIPH_STAT q).addr, 12, 1, .RO, 0⟩
/-- CIPH_STAT.CLASS (reset: 0x0). -/
def CIPH_STAT_CLASS (q : Nat) : Field := ⟨(Reg.CIPH_STAT q).addr, 13, 2, .RO, 0⟩
/-- CIPH_STAT.KSLOTS (reset: 0x000). -/
def CIPH_STAT_KSLOTS (q : Nat) : Field := ⟨(Reg.CIPH_STAT q).addr, 16, 9, .RO, 0⟩
/-- CIPH_ERR.CODE (reset: 0x00). -/
def CIPH_ERR_CODE (q : Nat) : Field := ⟨(Reg.CIPH_ERR q).addr, 0, 8, .RO, 0⟩
/-- CIPH_ERR.JOB (reset: 0x0000). -/
def CIPH_ERR_JOB (q : Nat) : Field := ⟨(Reg.CIPH_ERR q).addr, 8, 16, .RO, 0⟩
/-- CIPH_ERR.VALID (reset: 0x0). -/
def CIPH_ERR_VALID (q : Nat) : Field := ⟨(Reg.CIPH_ERR q).addr, 31, 1, .W1C, 0⟩
/-- CIPH_CNT.COUNT (reset: 0x0). -/
def CIPH_CNT_COUNT (q k : Nat) : Field := ⟨(Reg.CIPH_CNT q k).addr, 0, 64, .RO, 0⟩
/-- DGST_CFG.IDLE (reset: 0x3E8). -/
def DGST_CFG_IDLE (q : Nat) : Field := ⟨(Reg.DGST_CFG q).addr, 0, 12, .RW, 1000⟩
/-- DGST_STAT.PCTX (reset: 0x00). -/
def DGST_STAT_PCTX (q : Nat) : Field := ⟨(Reg.DGST_STAT q).addr, 0, 7, .RO, 0⟩
/-- DGST_STAT.ICTX (reset: 0x0). -/
def DGST_STAT_ICTX (q : Nat) : Field := ⟨(Reg.DGST_STAT q).addr, 8, 4, .RO, 0⟩
/-- DGST_STAT.BUSY (reset: 0x0). -/
def DGST_STAT_BUSY (q : Nat) : Field := ⟨(Reg.DGST_STAT q).addr, 12, 1, .RO, 0⟩
/-- DGST_STAT.CLASS (reset: 0x0). -/
def DGST_STAT_CLASS (q : Nat) : Field := ⟨(Reg.DGST_STAT q).addr, 13, 2, .RO, 0⟩
/-- DGST_STAT.SESS (reset: 0x00). -/
def DGST_STAT_SESS (q : Nat) : Field := ⟨(Reg.DGST_STAT q).addr, 16, 8, .RO, 0⟩
/-- DGST_CNT.COUNT (reset: 0x0). -/
def DGST_CNT_COUNT (q k : Nat) : Field := ⟨(Reg.DGST_CNT q k).addr, 0, 64, .RO, 0⟩
/-- DGST_SCTL.ALG (reset: 0x0). -/
def DGST_SCTL_ALG (q s : Nat) : Field := ⟨(Reg.DGST_SCTL q s).addr, 0, 3, .RW, 0⟩
/-- DGST_SCTL.URG (reset: 0x0). -/
def DGST_SCTL_URG (q s : Nat) : Field := ⟨(Reg.DGST_SCTL q s).addr, 4, 2, .RW, 0⟩
/-- DGST_SCTL.OPEN (reset: 0x0). -/
def DGST_SCTL_OPEN (q s : Nat) : Field := ⟨(Reg.DGST_SCTL q s).addr, 6, 1, .W1S, 0⟩
/-- DGST_SCTL.ABORT (reset: 0x0). -/
def DGST_SCTL_ABORT (q s : Nat) : Field := ⟨(Reg.DGST_SCTL q s).addr, 7, 1, .W1S, 0⟩
/-- DGST_SCTL.FIN0 (reset: 0x0). -/
def DGST_SCTL_FIN0 (q s : Nat) : Field := ⟨(Reg.DGST_SCTL q s).addr, 8, 1, .W1S, 0⟩
/-- DGST_SSTAT.STATE (reset: 0x0). -/
def DGST_SSTAT_STATE (q s : Nat) : Field := ⟨(Reg.DGST_SSTAT q s).addr, 0, 3, .RO, 0⟩
/-- DGST_SSTAT.ERR (reset: 0x0). -/
def DGST_SSTAT_ERR (q s : Nat) : Field := ⟨(Reg.DGST_SSTAT q s).addr, 4, 4, .RO, 0⟩
/-- DGST_SSTAT.PLOT (reset: 0x000). -/
def DGST_SSTAT_PLOT (q s : Nat) : Field := ⟨(Reg.DGST_SSTAT q s).addr, 8, 10, .RO, 0⟩
/-- DGST_SEPOCH.EPOCH (reset: 0x0000_0000). -/
def DGST_SEPOCH_EPOCH (q s : Nat) : Field := ⟨(Reg.DGST_SEPOCH q s).addr, 0, 32, .RW, 0⟩
/-- DGST_SLABEL.ULABEL (reset: 0x0). -/
def DGST_SLABEL_ULABEL (q s : Nat) : Field := ⟨(Reg.DGST_SLABEL q s).addr, 0, 64, .RW, 0⟩
/-- DGST_DATA.WORD (reset: 0x0). -/
def DGST_DATA_WORD (q s : Nat) : Field := ⟨(Reg.DGST_DATA q s).addr, 0, 64, .WO, 0⟩
/-- DGST_LAST.WORD (reset: 0x0). -/
def DGST_LAST_WORD (q s i : Nat) : Field := ⟨(Reg.DGST_LAST q s i).addr, 0, 64, .WO, 0⟩
/-- DGST_RES.DIGEST (reset: 0x0). -/
def DGST_RES_DIGEST (q s i : Nat) : Field := ⟨(Reg.DGST_RES q s i).addr, 0, 64, .RO, 0⟩
/-- DGST_EXP.DIGEST (reset: 0x0). -/
def DGST_EXP_DIGEST (q s i : Nat) : Field := ⟨(Reg.DGST_EXP q s i).addr, 0, 64, .RW, 0⟩
/-- DGST_CMP.MATCH (reset: 0x0). -/
def DGST_CMP_MATCH (q s : Nat) : Field := ⟨(Reg.DGST_CMP q s).addr, 0, 1, .RO, 0⟩
/-- DGST_CMP.MATCH_N (reset: 0x0). -/
def DGST_CMP_MATCH_N (q s : Nat) : Field := ⟨(Reg.DGST_CMP q s).addr, 1, 1, .RO, 0⟩
/-- DGST_SLEN.BYTES (reset: 0x0). -/
def DGST_SLEN_BYTES (q s : Nat) : Field := ⟨(Reg.DGST_SLEN q s).addr, 0, 64, .RO, 0⟩
/-- CORE_STAT.STATE (reset: 0x4). -/
def CORE_STAT_STATE (c : Nat) : Field := ⟨(Reg.CORE_STAT c).addr, 0, 3, .RO, 4⟩
/-- CORE_STAT.PLOT (reset: 0x000). -/
def CORE_STAT_PLOT (c : Nat) : Field := ⟨(Reg.CORE_STAT c).addr, 4, 9, .RO, 0⟩
/-- CORE_STAT.GEN (reset: 0x00). -/
def CORE_STAT_GEN (c : Nat) : Field := ⟨(Reg.CORE_STAT c).addr, 16, 8, .RO, 0⟩
/-- CORE_PROG.INDEX (reset: 0x0000). -/
def CORE_PROG_INDEX (c : Nat) : Field := ⟨(Reg.CORE_PROG c).addr, 0, 16, .RO, 0⟩
/-- CORE_PC.PC (reset: 0x0). -/
def CORE_PC_PC (c : Nat) : Field := ⟨(Reg.CORE_PC c).addr, 0, 64, .RO, 0⟩
/-- CORE_TRAP.CAUSE (reset: 0x00). -/
def CORE_TRAP_CAUSE (c : Nat) : Field := ⟨(Reg.CORE_TRAP c).addr, 0, 8, .RO, 0⟩
/-- CORE_TRAP.COUNT (reset: 0x0000). -/
def CORE_TRAP_COUNT (c : Nat) : Field := ⟨(Reg.CORE_TRAP c).addr, 16, 16, .RO, 0⟩
/-- CORE_RGN.V (reset: 0x0). -/
def CORE_RGN_V (c i : Nat) : Field := ⟨(Reg.CORE_RGN c i).addr, 0, 1, .RW, 0⟩
/-- CORE_RGN.PR (reset: 0x0). -/
def CORE_RGN_PR (c i : Nat) : Field := ⟨(Reg.CORE_RGN c i).addr, 1, 1, .RW, 0⟩
/-- CORE_RGN.PW (reset: 0x0). -/
def CORE_RGN_PW (c i : Nat) : Field := ⟨(Reg.CORE_RGN c i).addr, 2, 1, .RW, 0⟩
/-- CORE_RGN.PX (reset: 0x0). -/
def CORE_RGN_PX (c i : Nat) : Field := ⟨(Reg.CORE_RGN c i).addr, 3, 1, .RW, 0⟩
/-- CORE_RGN.SR (reset: 0x0). -/
def CORE_RGN_SR (c i : Nat) : Field := ⟨(Reg.CORE_RGN c i).addr, 4, 1, .RW, 0⟩
/-- CORE_RGN.SW (reset: 0x0). -/
def CORE_RGN_SW (c i : Nat) : Field := ⟨(Reg.CORE_RGN c i).addr, 5, 1, .RW, 0⟩
/-- CORE_RGN.SX (reset: 0x0). -/
def CORE_RGN_SX (c i : Nat) : Field := ⟨(Reg.CORE_RGN c i).addr, 6, 1, .RW, 0⟩
/-- CORE_RGN.BASE (reset: 0x0). -/
def CORE_RGN_BASE (c i : Nat) : Field := ⟨(Reg.CORE_RGN c i).addr, 12, 52, .RW, 0⟩
/-- CORE_RLIM.LIMIT (reset: 0x0). -/
def CORE_RLIM_LIMIT (c i : Nat) : Field := ⟨(Reg.CORE_RLIM c i).addr, 12, 52, .RW, 0⟩
/-- CORE_CNT.COUNT (reset: 0x0). -/
def CORE_CNT_COUNT (c n : Nat) : Field := ⟨(Reg.CORE_CNT c n).addr, 0, 64, .RO, 0⟩
/-- MEMC_CFG.WIDTH (reset: Stream). -/
def MEMC_CFG_WIDTH (q : Nat) : Field := ⟨(Reg.MEMC_CFG q).addr, 0, 1, .RWL, 0⟩
/-- MEMC_CFG.DENSITY (reset: Stream). -/
def MEMC_CFG_DENSITY (q : Nat) : Field := ⟨(Reg.MEMC_CFG q).addr, 1, 2, .RWL, 0⟩
/-- MEMC_CFG.RANKS (reset: Stream). -/
def MEMC_CFG_RANKS (q : Nat) : Field := ⟨(Reg.MEMC_CFG q).addr, 3, 1, .RWL, 0⟩
/-- MEMC_CFG.RATEA (reset: Stream). -/
def MEMC_CFG_RATEA (q : Nat) : Field := ⟨(Reg.MEMC_CFG q).addr, 4, 3, .RWL, 0⟩
/-- MEMC_CFG.RATEB (reset: Stream). -/
def MEMC_CFG_RATEB (q : Nat) : Field := ⟨(Reg.MEMC_CFG q).addr, 7, 3, .RWL, 0⟩
/-- MEMC_CFG.LOCK (reset: 0x0). -/
def MEMC_CFG_LOCK (q : Nat) : Field := ⟨(Reg.MEMC_CFG q).addr, 31, 1, .W1S, 0⟩
/-- MEMC_STAT.SET (reset: 0x0). -/
def MEMC_STAT_SET (q : Nat) : Field := ⟨(Reg.MEMC_STAT q).addr, 0, 1, .RO, 0⟩
/-- MEMC_STAT.TRAINED (reset: 0x0). -/
def MEMC_STAT_TRAINED (q : Nat) : Field := ⟨(Reg.MEMC_STAT q).addr, 1, 1, .RO, 0⟩
/-- MEMC_STAT.SREF (reset: 0x0). -/
def MEMC_STAT_SREF (q : Nat) : Field := ⟨(Reg.MEMC_STAT q).addr, 2, 1, .RO, 0⟩
/-- MEMC_STAT.HOTREF (reset: 0x0). -/
def MEMC_STAT_HOTREF (q : Nat) : Field := ⟨(Reg.MEMC_STAT q).addr, 3, 1, .RO, 0⟩
/-- MEMC_STAT.FBUSY (reset: 0x0). -/
def MEMC_STAT_FBUSY (q : Nat) : Field := ⟨(Reg.MEMC_STAT q).addr, 4, 1, .RO, 0⟩
/-- MEMC_STAT.FAULT (reset: 0x0). -/
def MEMC_STAT_FAULT (q : Nat) : Field := ⟨(Reg.MEMC_STAT q).addr, 5, 1, .RO, 0⟩
/-- MEMC_STAT.CAPGIB (reset: Set at BOOT). -/
def MEMC_STAT_CAPGIB (q : Nat) : Field := ⟨(Reg.MEMC_STAT q).addr, 8, 8, .RO, 0⟩
/-- MEMC_SCHED.AGECAP (reset: 0x0A). -/
def MEMC_SCHED_AGECAP (q : Nat) : Field := ⟨(Reg.MEMC_SCHED q).addr, 0, 8, .RW, 10⟩
/-- MEMC_SCHED.WRHI (reset: 0x30). -/
def MEMC_SCHED_WRHI (q : Nat) : Field := ⟨(Reg.MEMC_SCHED q).addr, 8, 6, .RW, 48⟩
/-- MEMC_SCHED.WRLO (reset: 0x10). -/
def MEMC_SCHED_WRLO (q : Nat) : Field := ⟨(Reg.MEMC_SCHED q).addr, 16, 6, .RW, 16⟩
/-- MEMC_PAGE.MODE (reset: 0x0). -/
def MEMC_PAGE_MODE (q : Nat) : Field := ⟨(Reg.MEMC_PAGE q).addr, 0, 2, .RW, 0⟩
/-- MEMC_PAGE.IDLE (reset: 0x20). -/
def MEMC_PAGE_IDLE (q : Nat) : Field := ⟨(Reg.MEMC_PAGE q).addr, 8, 8, .RW, 32⟩
/-- MEMC_REF.SB (reset: 0x1). -/
def MEMC_REF_SB (q : Nat) : Field := ⟨(Reg.MEMC_REF q).addr, 0, 1, .RW, 1⟩
/-- MEMC_REF.RFM (reset: Set at BOOT). -/
def MEMC_REF_RFM (q : Nat) : Field := ⟨(Reg.MEMC_REF q).addr, 1, 1, .RO, 0⟩
/-- MEMC_RHT.ACTMAX (reset: 0x0BB8). -/
def MEMC_RHT_ACTMAX (q : Nat) : Field := ⟨(Reg.MEMC_RHT q).addr, 0, 16, .RW, 3000⟩
/-- MEMC_RHT.WINDOW (reset: 0x0A). -/
def MEMC_RHT_WINDOW (q : Nat) : Field := ⟨(Reg.MEMC_RHT q).addr, 16, 8, .RW, 10⟩
/-- MEMC_FCHG.GO (reset: 0x0). -/
def MEMC_FCHG_GO (q : Nat) : Field := ⟨(Reg.MEMC_FCHG q).addr, 0, 1, .W1S, 0⟩
/-- MEMC_RETRY.MAX (reset: 0x3). -/
def MEMC_RETRY_MAX (q : Nat) : Field := ⟨(Reg.MEMC_RETRY q).addr, 0, 4, .RW, 3⟩
/-- MEMC_RETRY.COUNT (reset: 0x0000). -/
def MEMC_RETRY_COUNT (q : Nat) : Field := ⟨(Reg.MEMC_RETRY q).addr, 16, 16, .RO, 0⟩
/-- MEMC_SCRUB.HOURS (reset: 0x18). -/
def MEMC_SCRUB_HOURS (q : Nat) : Field := ⟨(Reg.MEMC_SCRUB q).addr, 0, 8, .RW, 24⟩
/-- MEMC_SCRUB.PCT (reset: 0x00). -/
def MEMC_SCRUB_PCT (q : Nat) : Field := ⟨(Reg.MEMC_SCRUB q).addr, 8, 7, .RO, 0⟩
/-- MEMC_MARK.MARKN (reset: 0x40). -/
def MEMC_MARK_MARKN (q : Nat) : Field := ⟨(Reg.MEMC_MARK q).addr, 0, 8, .RW, 64⟩
/-- MEMC_MARK.DEV0 (reset: From device metadata). -/
def MEMC_MARK_DEV0 (q : Nat) : Field := ⟨(Reg.MEMC_MARK q).addr, 8, 4, .RO, 15⟩
/-- MEMC_MARK.DEV1 (reset: From device metadata). -/
def MEMC_MARK_DEV1 (q : Nat) : Field := ⟨(Reg.MEMC_MARK q).addr, 12, 4, .RO, 15⟩
/-- MEMC_CNT.COUNT (reset: 0x0). -/
def MEMC_CNT_COUNT (q k : Nat) : Field := ⟨(Reg.MEMC_CNT q k).addr, 0, 64, .RO, 0⟩
/-- MEMC_TSET.CYCLES (reset: Stream). -/
def MEMC_TSET_CYCLES (q x : Nat) : Field := ⟨(Reg.MEMC_TSET q x).addr, 0, 16, .RW, 0⟩
/-- PAIL_POOLCFG.EN (reset: Stream). -/
def PAIL_POOLCFG_EN (n : Nat) : Field := ⟨(Reg.PAIL_POOLCFG n).addr, 0, 1, .RWL, 0⟩
/-- PAIL_POOLCFG.LOC (reset: Stream). -/
def PAIL_POOLCFG_LOC (n : Nat) : Field := ⟨(Reg.PAIL_POOLCFG n).addr, 1, 1, .RWL, 0⟩
/-- PAIL_POOLCFG.SIZE (reset: Stream). -/
def PAIL_POOLCFG_SIZE (n : Nat) : Field := ⟨(Reg.PAIL_POOLCFG n).addr, 2, 5, .RWL, 0⟩
/-- PAIL_POOLCFG.FALLBACK (reset: Stream). -/
def PAIL_POOLCFG_FALLBACK (n : Nat) : Field := ⟨(Reg.PAIL_POOLCFG n).addr, 8, 4, .RWL, 0⟩
/-- PAIL_POOLCFG.FBEN (reset: Stream). -/
def PAIL_POOLCFG_FBEN (n : Nat) : Field := ⟨(Reg.PAIL_POOLCFG n).addr, 12, 1, .RWL, 0⟩
/-- PAIL_POOLCFG.LOCK (reset: 0x0). -/
def PAIL_POOLCFG_LOCK (n : Nat) : Field := ⟨(Reg.PAIL_POOLCFG n).addr, 31, 1, .W1S, 0⟩
/-- PAIL_POOLBASE.BASE (reset: Stream). -/
def PAIL_POOLBASE_BASE (n : Nat) : Field := ⟨(Reg.PAIL_POOLBASE n).addr, 0, 64, .RWL, 0⟩
/-- PAIL_POOLCNT.COUNT (reset: Stream). -/
def PAIL_POOLCNT_COUNT (n : Nat) : Field := ⟨(Reg.PAIL_POOLCNT n).addr, 0, 28, .RWL, 0⟩
/-- PAIL_POOLFLOOR.FLOOR (reset: Stream). -/
def PAIL_POOLFLOOR_FLOOR (n : Nat) : Field := ⟨(Reg.PAIL_POOLFLOOR n).addr, 0, 28, .RWL, 0⟩
/-- PAIL_POOLSTAT.FREE (reset: COUNT at BOOT). -/
def PAIL_POOLSTAT_FREE (n : Nat) : Field := ⟨(Reg.PAIL_POOLSTAT n).addr, 0, 28, .RO, 0⟩
/-- PAIL_POOLSTAT.EMPTY (reset: 0x0). -/
def PAIL_POOLSTAT_EMPTY (n : Nat) : Field := ⟨(Reg.PAIL_POOLSTAT n).addr, 28, 1, .RO, 0⟩
/-- PAIL_POOLWM.LOW (reset: 0x20). -/
def PAIL_POOLWM_LOW (n : Nat) : Field := ⟨(Reg.PAIL_POOLWM n).addr, 0, 7, .RW, 32⟩
/-- PAIL_POOLWM.MID (reset: 0x40). -/
def PAIL_POOLWM_MID (n : Nat) : Field := ⟨(Reg.PAIL_POOLWM n).addr, 8, 7, .RW, 64⟩
/-- PAIL_POOLWM.HIGH (reset: 0x60). -/
def PAIL_POOLWM_HIGH (n : Nat) : Field := ⟨(Reg.PAIL_POOLWM n).addr, 16, 7, .RW, 96⟩
/-- PAIL_ERR.OWNER (reset: 0x000). -/
def PAIL_ERR_OWNER : Field := ⟨Reg.PAIL_ERR.addr, 0, 10, .RO, 0⟩
/-- PAIL_ERR.CAUSE (reset: 0x0). -/
def PAIL_ERR_CAUSE : Field := ⟨Reg.PAIL_ERR.addr, 10, 2, .RO, 0⟩
/-- PAIL_ERR.VALID (reset: 0x0). -/
def PAIL_ERR_VALID : Field := ⟨Reg.PAIL_ERR.addr, 31, 1, .W1C, 0⟩
/-- PAIL_ERRH.HANDLE (reset: 0x0000_0000). -/
def PAIL_ERRH_HANDLE : Field := ⟨Reg.PAIL_ERRH.addr, 0, 32, .RO, 0⟩
/-- PAIL_CNT.COUNT (reset: 0x0). -/
def PAIL_CNT_COUNT (k : Nat) : Field := ⟨(Reg.PAIL_CNT k).addr, 0, 64, .RO, 0⟩
/-- HALW_LCS.STATE (reset: From fuses). -/
def HALW_LCS_STATE : Field := ⟨Reg.HALW_LCS.addr, 0, 4, .RO, 0⟩
/-- HALW_LCS.LCCOUNT (reset: From fuses). -/
def HALW_LCS_LCCOUNT : Field := ⟨Reg.HALW_LCS.addr, 4, 5, .RO, 0⟩
/-- HALW_LCS.TEST (reset: 0x0). -/
def HALW_LCS_TEST : Field := ⟨Reg.HALW_LCS.addr, 9, 1, .RO, 0⟩
/-- HALW_SCRUB.DONE (reset: 0x0). -/
def HALW_SCRUB_DONE : Field := ⟨Reg.HALW_SCRUB.addr, 0, 1, .RO, 0⟩
/-- HALW_DIEID.DIEID (reset: From fuses). -/
def HALW_DIEID_DIEID : Field := ⟨Reg.HALW_DIEID.addr, 0, 64, .RO, 0⟩
/-- HALW_SVN.FW (reset: From fuses). -/
def HALW_SVN_FW : Field := ⟨Reg.HALW_SVN.addr, 0, 7, .RO, 0⟩
/-- HALW_SVN.STREAM (reset: From fuses). -/
def HALW_SVN_STREAM : Field := ⟨Reg.HALW_SVN.addr, 8, 7, .RO, 0⟩
/-- HALW_KEYS.BURNED (reset: From fuses). -/
def HALW_KEYS_BURNED : Field := ⟨Reg.HALW_KEYS.addr, 0, 4, .RO, 0⟩
/-- HALW_KEYS.REVOKED (reset: From fuses). -/
def HALW_KEYS_REVOKED : Field := ⟨Reg.HALW_KEYS.addr, 4, 4, .RO, 0⟩
/-- HALW_KEYS.AUTH (reset: From fuses). -/
def HALW_KEYS_AUTH : Field := ⟨Reg.HALW_KEYS.addr, 8, 1, .RO, 0⟩
/-- HALW_DEBUG.RIGHTS (reset: 0x0). -/
def HALW_DEBUG_RIGHTS : Field := ⟨Reg.HALW_DEBUG.addr, 0, 4, .RO, 0⟩
/-- HALW_BOOT.FWSLOT (reset: 0x0). -/
def HALW_BOOT_FWSLOT : Field := ⟨Reg.HALW_BOOT.addr, 0, 2, .RO, 0⟩
/-- HALW_BOOT.FWFALLBACK (reset: 0x0). -/
def HALW_BOOT_FWFALLBACK : Field := ⟨Reg.HALW_BOOT.addr, 2, 1, .RO, 0⟩
/-- HALW_BOOT.STRSLOT (reset: 0x0). -/
def HALW_BOOT_STRSLOT : Field := ⟨Reg.HALW_BOOT.addr, 3, 1, .RO, 0⟩
/-- HALW_BOOT.STRFALLBACK (reset: 0x0). -/
def HALW_BOOT_STRFALLBACK : Field := ⟨Reg.HALW_BOOT.addr, 4, 1, .RO, 0⟩
/-- HALW_BOOT.BOOTSEL (reset: From strap). -/
def HALW_BOOT_BOOTSEL : Field := ⟨Reg.HALW_BOOT.addr, 5, 2, .RO, 0⟩
/-- BRZ_STAT.CODE (reset: 0x00). -/
def BRZ_STAT_CODE : Field := ⟨Reg.BRZ_STAT.addr, 0, 8, .RO, 0⟩
/-- BRZ_STAT.SECTION (reset: 0x00). -/
def BRZ_STAT_SECTION : Field := ⟨Reg.BRZ_STAT.addr, 8, 8, .RO, 0⟩
/-- BRZ_STAT.ITEM (reset: 0x0000). -/
def BRZ_STAT_ITEM : Field := ⟨Reg.BRZ_STAT.addr, 16, 15, .RO, 0⟩
/-- BRZ_STAT.VALID (reset: 0x0). -/
def BRZ_STAT_VALID : Field := ⟨Reg.BRZ_STAT.addr, 31, 1, .W1C, 0⟩
/-- BRZ_STREAMID.ID (reset: Stream). -/
def BRZ_STREAMID_ID : Field := ⟨Reg.BRZ_STREAMID.addr, 0, 64, .RO, 0⟩
/-- BRZ_GRAFT.QUAD (reset: 0x0). -/
def BRZ_GRAFT_QUAD : Field := ⟨Reg.BRZ_GRAFT.addr, 0, 2, .RO, 0⟩
/-- BRZ_GRAFT.PENDING (reset: 0x0). -/
def BRZ_GRAFT_PENDING : Field := ⟨Reg.BRZ_GRAFT.addr, 2, 1, .RO, 0⟩
/-- BRZ_GRAFT.SEGVER (reset: 0x0000). -/
def BRZ_GRAFT_SEGVER : Field := ⟨Reg.BRZ_GRAFT.addr, 16, 16, .RO, 0⟩
/-- EVT_JCFG.HOSTWM (reset: 0x1000). -/
def EVT_JCFG_HOSTWM : Field := ⟨Reg.EVT_JCFG.addr, 0, 14, .RW, 4096⟩
/-- EVT_JSTAT.UNACK (reset: 0x0). -/
def EVT_JSTAT_UNACK : Field := ⟨Reg.EVT_JSTAT.addr, 0, 14, .RO, 0⟩
/-- EVT_JSTAT.LOST (reset: 0x0000). -/
def EVT_JSTAT_LOST : Field := ⟨Reg.EVT_JSTAT.addr, 16, 16, .RO, 0⟩
/-- EVT_JHEAD.SEQ (reset: Boot count × 2^40). -/
def EVT_JHEAD_SEQ : Field := ⟨Reg.EVT_JHEAD.addr, 0, 64, .RO, 0⟩
/-- EVT_HOST_ACK_SEQ.SEQ (reset: Boot count × 2^40). -/
def EVT_HOST_ACK_SEQ_SEQ : Field := ⟨Reg.EVT_HOST_ACK_SEQ.addr, 0, 64, .RW, 0⟩
/-- EVT_BADADDR.OFFSET (reset: 0x0). -/
def EVT_BADADDR_OFFSET : Field := ⟨Reg.EVT_BADADDR.addr, 0, 25, .RO, 0⟩
/-- EVT_BADINFO.OWNER (reset: 0x000). -/
def EVT_BADINFO_OWNER : Field := ⟨Reg.EVT_BADINFO.addr, 0, 10, .RO, 0⟩
/-- EVT_BADINFO.WRITE (reset: 0x0). -/
def EVT_BADINFO_WRITE : Field := ⟨Reg.EVT_BADINFO.addr, 10, 1, .RO, 0⟩
/-- EVT_BADINFO.WIDE (reset: 0x0). -/
def EVT_BADINFO_WIDE : Field := ⟨Reg.EVT_BADINFO.addr, 11, 1, .RO, 0⟩
/-- EVT_BADINFO.VALID (reset: 0x0). -/
def EVT_BADINFO_VALID : Field := ⟨Reg.EVT_BADINFO.addr, 31, 1, .W1C, 0⟩
/-- EVT_SWTRIG.ARG (reset: 0x0). -/
def EVT_SWTRIG_ARG : Field := ⟨Reg.EVT_SWTRIG.addr, 0, 32, .WO, 0⟩
/-- EVT_PEND.PEND (reset: 0x0). -/
def EVT_PEND_PEND (i : Nat) : Field := ⟨(Reg.EVT_PEND i).addr, 0, 32, .W1C, 0⟩
/-- EVT_CPEND.PEND (reset: 0x00). -/
def EVT_CPEND_PEND (x : Nat) : Field := ⟨(Reg.EVT_CPEND x).addr, 0, 8, .W1C, 0⟩
/-- EVT_CPEND.EN (reset: 0x00). -/
def EVT_CPEND_EN (x : Nat) : Field := ⟨(Reg.EVT_CPEND x).addr, 8, 8, .RW, 0⟩
/-- EVT_ROUTE.HOST (reset: Stream). -/
def EVT_ROUTE_HOST (n : Nat) : Field := ⟨(Reg.EVT_ROUTE n).addr, 0, 1, .RW, 0⟩
/-- EVT_ROUTE.CORE (reset: Stream). -/
def EVT_ROUTE_CORE (n : Nat) : Field := ⟨(Reg.EVT_ROUTE n).addr, 1, 1, .RW, 0⟩
/-- EVT_ROUTE.PLOT (reset: Stream). -/
def EVT_ROUTE_PLOT (n : Nat) : Field := ⟨(Reg.EVT_ROUTE n).addr, 2, 9, .RW, 0⟩
/-- EVT_ROUTE.VEC (reset: Stream). -/
def EVT_ROUTE_VEC (n : Nat) : Field := ⟨(Reg.EVT_ROUTE n).addr, 11, 12, .RW, 0⟩
/-- EVT_ROUTE.CQ (reset: Stream). -/
def EVT_ROUTE_CQ (n : Nat) : Field := ⟨(Reg.EVT_ROUTE n).addr, 23, 2, .RW, 0⟩
/-- EVT_ROUTE.CK (reset: Stream). -/
def EVT_ROUTE_CK (n : Nat) : Field := ⟨(Reg.EVT_ROUTE n).addr, 25, 3, .RW, 0⟩
/-- EVT_ROUTE.LINE (reset: Stream). -/
def EVT_ROUTE_LINE (n : Nat) : Field := ⟨(Reg.EVT_ROUTE n).addr, 28, 3, .RW, 0⟩
/-- PMU_CTL.RUN (reset: 0x0). -/
def PMU_CTL_RUN : Field := ⟨Reg.PMU_CTL.addr, 0, 1, .RW, 0⟩
/-- PMU_CTL.FREEZE (reset: 0x0). -/
def PMU_CTL_FREEZE : Field := ⟨Reg.PMU_CTL.addr, 1, 1, .RW, 0⟩
/-- PMU_CTL.CLEAR (reset: 0x0). -/
def PMU_CTL_CLEAR : Field := ⟨Reg.PMU_CTL.addr, 2, 1, .W1S, 0⟩
/-- PMU_OVF.OVF (reset: 0x0). -/
def PMU_OVF_OVF (j : Nat) : Field := ⟨(Reg.PMU_OVF j).addr, 0, 32, .W1C, 0⟩
/-- PMU_SEL.SRC (reset: 0x000). -/
def PMU_SEL_SRC (i : Nat) : Field := ⟨(Reg.PMU_SEL i).addr, 0, 10, .RW, 0⟩
/-- PMU_SEL.EN (reset: 0x0). -/
def PMU_SEL_EN (i : Nat) : Field := ⟨(Reg.PMU_SEL i).addr, 10, 1, .RW, 0⟩
/-- PMU_SEL.QSEL (reset: 0xF). -/
def PMU_SEL_QSEL (i : Nat) : Field := ⟨(Reg.PMU_SEL i).addr, 11, 4, .RW, 15⟩
/-- PMU_SEL.PFEN (reset: 0x0). -/
def PMU_SEL_PFEN (i : Nat) : Field := ⟨(Reg.PMU_SEL i).addr, 15, 1, .RW, 0⟩
/-- PMU_SEL.PLOT (reset: 0x000). -/
def PMU_SEL_PLOT (i : Nat) : Field := ⟨(Reg.PMU_SEL i).addr, 16, 9, .RW, 0⟩
/-- PMU_SEL.OVFEV (reset: 0x0). -/
def PMU_SEL_OVFEV (i : Nat) : Field := ⟨(Reg.PMU_SEL i).addr, 25, 1, .RW, 0⟩
/-- PMU_CNT.COUNT (reset: 0x0). -/
def PMU_CNT_COUNT (i : Nat) : Field := ⟨(Reg.PMU_CNT i).addr, 0, 48, .RW, 0⟩
/-- FINJ_CTL.ANY (reset: 0x0). -/
def FINJ_CTL_ANY : Field := ⟨Reg.FINJ_CTL.addr, 0, 1, .RO, 0⟩
/-- FINJ_CTL.REFUSED (reset: 0x0). -/
def FINJ_CTL_REFUSED : Field := ⟨Reg.FINJ_CTL.addr, 1, 1, .W1C, 0⟩
/-- FINJ_SEED.SEED (reset: 0x0000_0001). -/
def FINJ_SEED_SEED : Field := ⟨Reg.FINJ_SEED.addr, 0, 32, .RW, 1⟩
/-- FINJ_INJ.EN (reset: 0x0). -/
def FINJ_INJ_EN (i : Nat) : Field := ⟨(Reg.FINJ_INJ i).addr, 0, 1, .RW, 0⟩
/-- FINJ_INJ.ONESHOT (reset: 0x0). -/
def FINJ_INJ_ONESHOT (i : Nat) : Field := ⟨(Reg.FINJ_INJ i).addr, 1, 1, .RW, 0⟩
/-- FINJ_INJ.KIND (reset: 0x0). -/
def FINJ_INJ_KIND (i : Nat) : Field := ⟨(Reg.FINJ_INJ i).addr, 2, 4, .RW, 0⟩
/-- FINJ_INJ.INST (reset: 0x00). -/
def FINJ_INJ_INST (i : Nat) : Field := ⟨(Reg.FINJ_INJ i).addr, 8, 5, .RW, 0⟩
/-- FINJ_INJ.DIE (reset: 0x00). -/
def FINJ_INJ_DIE (i : Nat) : Field := ⟨(Reg.FINJ_INJ i).addr, 16, 6, .RW, 0⟩
/-- FINJ_INJ.ANYDIE (reset: 0x0). -/
def FINJ_INJ_ANYDIE (i : Nat) : Field := ⟨(Reg.FINJ_INJ i).addr, 22, 1, .RW, 0⟩
/-- FINJ_INJ.BITS (reset: 0x01). -/
def FINJ_INJ_BITS (i : Nat) : Field := ⟨(Reg.FINJ_INJ i).addr, 24, 7, .RW, 1⟩
/-- FINJ_INJ.RATE (reset: 0x0000). -/
def FINJ_INJ_RATE (i : Nat) : Field := ⟨(Reg.FINJ_INJ i).addr, 32, 16, .RW, 0⟩
/-- FINJ_CNT.COUNT (reset: 0x0). -/
def FINJ_CNT_COUNT (i : Nat) : Field := ⟨(Reg.FINJ_CNT i).addr, 0, 64, .RO, 0⟩
/-- BIST_RES.RUN (reset: 0x0). -/
def BIST_RES_RUN (u : Nat) : Field := ⟨(Reg.BIST_RES u).addr, 0, 1, .RO, 0⟩
/-- BIST_RES.PASS (reset: 0x0). -/
def BIST_RES_PASS (u : Nat) : Field := ⟨(Reg.BIST_RES u).addr, 1, 1, .RO, 0⟩
/-- BIST_RES.LFAIL (reset: 0x0). -/
def BIST_RES_LFAIL (u : Nat) : Field := ⟨(Reg.BIST_RES u).addr, 2, 1, .RO, 0⟩
/-- BIST_RES.MFAIL (reset: 0x0). -/
def BIST_RES_MFAIL (u : Nat) : Field := ⟨(Reg.BIST_RES u).addr, 3, 1, .RO, 0⟩
/-- BIST_RES.EFAIL (reset: 0x0). -/
def BIST_RES_EFAIL (u : Nat) : Field := ⟨(Reg.BIST_RES u).addr, 4, 1, .RO, 0⟩
/-- BIST_RES.SKIPPED (reset: 0x0). -/
def BIST_RES_SKIPPED (u : Nat) : Field := ⟨(Reg.BIST_RES u).addr, 5, 1, .RO, 0⟩
/-- BIST_RES.MS (reset: 0x0000). -/
def BIST_RES_MS (u : Nat) : Field := ⟨(Reg.BIST_RES u).addr, 16, 16, .RO, 0⟩
/-- BIST_MISR.MISR (reset: 0x0). -/
def BIST_MISR_MISR (u : Nat) : Field := ⟨(Reg.BIST_MISR u).addr, 0, 64, .RO, 0⟩
/-- BIST_LAST.QUAD (reset: 0x0). -/
def BIST_LAST_QUAD : Field := ⟨Reg.BIST_LAST.addr, 0, 2, .RO, 0⟩
/-- BIST_LAST.PASS (reset: 0x0). -/
def BIST_LAST_PASS : Field := ⟨Reg.BIST_LAST.addr, 2, 1, .RO, 0⟩
/-- BIST_LAST.VALID (reset: 0x0). -/
def BIST_LAST_VALID : Field := ⟨Reg.BIST_LAST.addr, 3, 1, .RO, 0⟩
/-- BIST_LAST.MS (reset: 0x0000). -/
def BIST_LAST_MS : Field := ⟨Reg.BIST_LAST.addr, 16, 16, .RO, 0⟩
/-- BIST_CNT.COUNT (reset: 0x0). -/
def BIST_CNT_COUNT (k : Nat) : Field := ⟨(Reg.BIST_CNT k).addr, 0, 64, .RO, 0⟩
/-- TOP_STRAP.CID (reset: From strap). -/
def TOP_STRAP_CID : Field := ⟨Reg.TOP_STRAP.addr, 0, 3, .RO, 0⟩
/-- TOP_STRAP.PORTMODE (reset: From strap). -/
def TOP_STRAP_PORTMODE : Field := ⟨Reg.TOP_STRAP.addr, 3, 1, .RO, 0⟩
/-- TOP_STRAP.BOOTSEL (reset: From strap). -/
def TOP_STRAP_BOOTSEL : Field := ⟨Reg.TOP_STRAP.addr, 4, 2, .RO, 0⟩
/-- PWR_THERM.LEVEL (reset: 0x0). -/
def PWR_THERM_LEVEL : Field := ⟨Reg.PWR_THERM.addr, 0, 2, .RO, 0⟩
/-- PWR_THERM.HOSTCAUSE (reset: 0x0). -/
def PWR_THERM_HOSTCAUSE : Field := ⟨Reg.PWR_THERM.addr, 2, 1, .RO, 0⟩
/-- PWR_THERM.HOTSENS (reset: 0x0). -/
def PWR_THERM_HOTSENS : Field := ⟨Reg.PWR_THERM.addr, 3, 3, .RO, 0⟩
/-- PWR_THERM.TRIPPED (reset: From device metadata). -/
def PWR_THERM_TRIPPED : Field := ⟨Reg.PWR_THERM.addr, 6, 1, .RO, 0⟩
/-- PWR_THERM.HOTTEMP (reset: 0x00). -/
def PWR_THERM_HOTTEMP : Field := ⟨Reg.PWR_THERM.addr, 16, 8, .RO, 0⟩
/-- PWR_VCORE.CODE (reset: 0x08). -/
def PWR_VCORE_CODE : Field := ⟨Reg.PWR_VCORE.addr, 0, 5, .RO, 8⟩
/-- PWR_TEMP.TEMP (reset: 0x00). -/
def PWR_TEMP_TEMP (i : Nat) : Field := ⟨(Reg.PWR_TEMP i).addr, 0, 8, .RO, 0⟩
/-- PWR_TEMP.VALID (reset: 0x0). -/
def PWR_TEMP_VALID (i : Nat) : Field := ⟨(Reg.PWR_TEMP i).addr, 8, 1, .RO, 0⟩
/-- TOP_ID.PART (reset: From fuses). -/
def TOP_ID_PART : Field := ⟨Reg.TOP_ID.addr, 0, 16, .RO, 0⟩
/-- TOP_ID.STEP (reset: 0xB0). -/
def TOP_ID_STEP : Field := ⟨Reg.TOP_ID.addr, 16, 8, .RO, 176⟩
/-- CLK_STAT.XTAL_OK (reset: 0x0). -/
def CLK_STAT_XTAL_OK : Field := ⟨Reg.CLK_STAT.addr, 0, 1, .RO, 0⟩
/-- CLK_STAT.REFCLK_OK (reset: 0x0). -/
def CLK_STAT_REFCLK_OK : Field := ⟨Reg.CLK_STAT.addr, 1, 1, .RO, 0⟩
/-- CLK_STAT.TARGETS (reset: 0x0). -/
def CLK_STAT_TARGETS : Field := ⟨Reg.CLK_STAT.addr, 2, 1, .RO, 0⟩
end F

/-- The fields of a register, lowest first. Bits in no field are reserved (R7). -/
def Reg.fields : Reg → List Field
  | .TOP_UNITS => [F.TOP_UNITS_QFUSED, F.TOP_UNITS_QRETIRED]
  | .TOP_CHRETIRED => [F.TOP_CHRETIRED_CHOUT]
  | .TOP_TMAX => [F.TOP_TMAX_SECONDS]
  | .TOP_MODE => [F.TOP_MODE_MODE, F.TOP_MODE_PREV, F.TOP_MODE_CDEGR, F.TOP_MODE_CRO, F.TOP_MODE_CFENCE, F.TOP_MODE_CXST, F.TOP_MODE_ATOMIC, F.TOP_MODE_SAFECAUSE]
  | .TOP_RSTCAUSE => [F.TOP_RSTCAUSE_POR, F.TOP_RSTCAUSE_PIN, F.TOP_RSTCAUSE_NSSR, F.TOP_RSTCAUSE_SW, F.TOP_RSTCAUSE_PFRET, F.TOP_RSTCAUSE_LCS, F.TOP_RSTCAUSE_TESTIN]
  | .TOP_RESET => [F.TOP_RESET_GO, F.TOP_RESET_KEY]
  | .TOP_QBIST => [F.TOP_QBIST_INTERVAL, F.TOP_QBIST_NEXTQ, F.TOP_QBIST_BUSY, F.TOP_QBIST_NOW]
  | .PWR_PSTATE => [F.PWR_PSTATE_PS, F.PWR_PSTATE_LASTOP, F.PWR_PSTATE_ENTERING, F.PWR_PSTATE_MAXW]
  | .HIF_PORTCFG => [F.HIF_PORTCFG_DUAL, F.HIF_PORTCFG_RO_EN]
  | .HIF_PORTSTAT p => [F.HIF_PORTSTAT_RATE p, F.HIF_PORTSTAT_WIDTH p, F.HIF_PORTSTAT_FLIT p, F.HIF_PORTSTAT_DEGR p, F.HIF_PORTSTAT_RETRAIN p]
  | .HIF_DISCARD => [F.HIF_DISCARD_COUNT]
  | .HIF_MAPCAP => [F.HIF_MAPCAP_REGION, F.HIF_MAPCAP_FREE]
  | .HIF_ACTDRAIN => [F.HIF_ACTDRAIN_LAST, F.HIF_ACTDRAIN_OVER]
  | .PLOT_CTL n => [F.PLOT_CTL_EN n, F.PLOT_CTL_RST n, F.PLOT_CTL_PSALLOW n, F.PLOT_CTL_MGR n, F.PLOT_CTL_GEN n]
  | .PLOT_STAT n => [F.PLOT_STAT_STATE n, F.PLOT_STAT_RSTPEND n, F.PLOT_STAT_SLMPEND n, F.PLOT_STAT_CQSTALL n]
  | .PLOT_QV n => [F.PLOT_QV_QMAX n, F.PLOT_QV_VMAX n]
  | .PLOT_FETCH n => [F.PLOT_FETCH_WEIGHT n, F.PLOT_FETCH_OSHARE n]
  | .PLOT_SLM n => [F.PLOT_SLM_SIZE n, F.PLOT_SLM_EFFECT n]
  | .PLOT_FCORE n => [F.PLOT_FCORE_WEIGHT n, F.PLOT_FCORE_CAP n]
  | .PLOT_EWT n => [F.PLOT_EWT_CIPH n, F.PLOT_EWT_DGST n, F.PLOT_EWT_CHURN n, F.PLOT_EWT_SIEVE n]
  | .PLOT_ECAP n => [F.PLOT_ECAP_CIPH n, F.PLOT_ECAP_DGST n, F.PLOT_ECAP_CHURN n, F.PLOT_ECAP_SIEVE n]
  | .PLOT_USE n => [F.PLOT_USE_QUSED n, F.PLOT_USE_INFLIGHT n]
  | .PLOT_STALE n => [F.PLOT_STALE_COUNT n]
  | .PLOT_SUMQV => [F.PLOT_SUMQV_QSUM, F.PLOT_SUMQV_VSUM]
  | .PLOT_SUMIO => [F.PLOT_SUMIO_OSUM, F.PLOT_SUMIO_MAXPLOTS]
  | .PLOT_SLMPOOL => [F.PLOT_SLMPOOL_POOL, F.PLOT_SLMPOOL_SUM]
  | .PLOT_ERR => [F.PLOT_ERR_PLOT, F.PLOT_ERR_REG, F.PLOT_ERR_CAUSE, F.PLOT_ERR_VALID]
  | .CHAN_CFG ch => [F.CHAN_CFG_IFACE ch, F.CHAN_CFG_RATEMAX ch, F.CHAN_CFG_XRATE_EN ch, F.CHAN_CFG_PARITY ch, F.CHAN_CFG_SOFT_EN ch, F.CHAN_CFG_SUSP_EN ch, F.CHAN_CFG_RETRYMAX ch, F.CHAN_CFG_LOCK ch]
  | .CHAN_STAT ch => [F.CHAN_STAT_RATE ch, F.CHAN_STAT_TRAINED ch, F.CHAN_STAT_RETIRED ch, F.CHAN_STAT_XRATE ch, F.CHAN_STAT_DIESPRES ch, F.CHAN_STAT_DIESFAIL ch]
  | .CHAN_TNOM ch k => [F.CHAN_TNOM_TIME ch k]
  | .CHAN_DTO ch => [F.CHAN_DTO_MULT ch, F.CHAN_DTO_FAILN ch, F.CHAN_DTO_SUSPWAIT ch, F.CHAN_DTO_SUSPMAX ch]
  | .CHAN_DIEPRES ch i => [F.CHAN_DIEPRES_PRES ch i]
  | .CHAN_DIEFAIL ch i => [F.CHAN_DIEFAIL_FAIL ch i]
  | .CHAN_DIEXR ch i => [F.CHAN_DIEXR_XR ch i]
  | .CHAN_DIESTAT ch d => [F.CHAN_DIESTAT_CONSEC ch d, F.CHAN_DIESTAT_QDEPTH ch d, F.CHAN_DIESTAT_STATE ch d, F.CHAN_DIESTAT_LASTRETRY ch d]
  | .CHAN_CNT ch k => [F.CHAN_CNT_COUNT ch k]
  | .CHAN_RETRY ch e w => [F.CHAN_RETRY_ENTRY ch e w]
  | .MAPW_STAT => [F.MAPW_STAT_RECOVERING, F.MAPW_STAT_ADMIT, F.MAPW_STAT_ROCOND, F.MAPW_STAT_JFILL, F.MAPW_STAT_SPAREMIN, F.MAPW_STAT_USED]
  | .MAPW_CKPT => [F.MAPW_CKPT_PERIOD, F.MAPW_CKPT_VOLUME, F.MAPW_CKPT_DIRTYMAX]
  | .MAPW_COMPOST => [F.MAPW_COMPOST_START, F.MAPW_COMPOST_URGENT]
  | .MAPW_RELOC => [F.MAPW_RELOC_READMAX, F.MAPW_RELOC_RETAIN]
  | .MAPW_SPARE => [F.MAPW_SPARE_EWPCT, F.MAPW_SPARE_CRITPCT, F.MAPW_SPARE_WEARPCT]
  | .MAPW_EWSET => [F.MAPW_EWSET_SET]
  | .MAPW_EWACT => [F.MAPW_EWACT_ACT]
  | .MAPW_RECOV => [F.MAPW_RECOV_MS]
  | .MRAMC_WC => [F.MRAMC_WC_SLOTS, F.MRAMC_WC_RECFULL, F.MRAMC_WC_FULL]
  | .MRAMC_JHEAD => [F.MRAMC_JHEAD_BSEQ]
  | .MRAMC_JTAIL => [F.MRAMC_JTAIL_BSEQ]
  | .MRAMC_WSEQ => [F.MRAMC_WSEQ_NEXT]
  | .STRP_CFG => [F.STRP_CFG_GROUPS, F.STRP_CFG_JSLOTS]
  | .STRP_RBCFG => [F.STRP_RBCFG_RATE, F.STRP_RBCFG_MAXGRP, F.STRP_RBCFG_PAUSE]
  | .STRP_RBSTAT => [F.STRP_RBSTAT_ACTIVE, F.STRP_RBSTAT_QUEUED]
  | .STRP_RAKE => [F.STRP_RAKE_DAYS]
  | .STRP_RAKESTAT => [F.STRP_RAKESTAT_PASSPCT, F.STRP_RAKESTAT_PASSES]
  | .STRP_JSTAT => [F.STRP_JSTAT_INUSE, F.STRP_JSTAT_FULL]
  | .STRP_CNT k => [F.STRP_CNT_COUNT k]
  | .STRP_GRP g => [F.STRP_GRP_GEOM g, F.STRP_GRP_LIVE g, F.STRP_GRP_FAILED g, F.STRP_GRP_STATE g]
  | .STRP_GMEM x => [F.STRP_GMEM_DIE x, F.STRP_GMEM_FAILED x, F.STRP_GMEM_USED x]
  | .GWL_ID => [F.GWL_ID_MEMBER, F.GWL_ID_CCOUNT, F.GWL_ID_ANCHOR, F.GWL_ID_CLUSTER]
  | .GWL_CFG => [F.GWL_CFG_LINKTO, F.GWL_CFG_REPLAYMAX, F.GWL_CFG_REPLAYTO]
  | .GWL_HB => [F.GWL_HB_PERIOD, F.GWL_HB_MISS, F.GWL_HB_SETTLE]
  | .GWL_VIEW => [F.GWL_VIEW_VIEW]
  | .GWL_SETS => [F.GWL_SETS_VIEWSET, F.GWL_SETS_REACH, F.GWL_SETS_RETSET, F.GWL_SETS_REJSET]
  | .GWL_RESYNC => [F.GWL_RESYNC_RATE, F.GWL_RESYNC_PAUSE]
  | .GWL_CJ => [F.GWL_CJ_OWN, F.GWL_CJ_MIRROR]
  | .GWL_LSTAT l => [F.GWL_LSTAT_STATE l, F.GWL_LSTAT_PEER l, F.GWL_LSTAT_REVERSED l, F.GWL_LSTAT_DOWNS l]
  | .GWL_LCNT x => [F.GWL_LCNT_COUNT x]
  | .TREL_CFG q => [F.TREL_CFG_PIPES q, F.TREL_CFG_SEGVER q]
  | .TREL_ERR q => [F.TREL_ERR_RING q, F.TREL_ERR_CAUSE q, F.TREL_ERR_VALID q]
  | .TREL_CNT q k => [F.TREL_CNT_COUNT q k]
  | .TREL_PIPE q p w => [F.TREL_PIPE_DESC q p w]
  | .TREL_RBASE q r => [F.TREL_RBASE_BASE q r]
  | .TREL_RCTL q r => [F.TREL_RCTL_LOG2E q r, F.TREL_RCTL_PLOT q r, F.TREL_RCTL_GEN q r, F.TREL_RCTL_EN q r, F.TREL_RCTL_STALE q r]
  | .TREL_RSUB q r => [F.TREL_RSUB_SUB q r]
  | .TREL_RACK q r => [F.TREL_RACK_ACK q r]
  | .TREL_RCMP q r => [F.TREL_RCMP_CMPSEQ q r]
  | .TREL_RSTAT q r => [F.TREL_RSTAT_ACTIVE q r, F.TREL_RSTAT_REJ q r]
  | .SKIM_BIND q u => [F.SKIM_BIND_MODE q u, F.SKIM_BIND_CTX q u, F.SKIM_BIND_HOLD q u]
  | .SKIM_CNT q k => [F.SKIM_CNT_COUNT q k]
  | .CHURN_CFG q => [F.CHURN_CFG_QUANTUM q, F.CHURN_CFG_ZWLOG q]
  | .CHURN_STAT q => [F.CHURN_STAT_PCTX q, F.CHURN_STAT_ICTX q, F.CHURN_STAT_CBUSY q, F.CHURN_STAT_DBUSY q, F.CHURN_STAT_CCLASS q, F.CHURN_STAT_DCLASS q]
  | .CHURN_ERR q => [F.CHURN_ERR_CODE q, F.CHURN_ERR_JOB q, F.CHURN_ERR_INTERNAL q, F.CHURN_ERR_VALID q]
  | .CHURN_ERROFF q => [F.CHURN_ERROFF_OFFSET q]
  | .CHURN_CNT q k => [F.CHURN_CNT_COUNT q k]
  | .SIEVE_CFG q => [F.SIEVE_CFG_QUANTUM q, F.SIEVE_CFG_UPDSHARE q, F.SIEVE_CFG_RECMAX q]
  | .SIEVE_STAT q => [F.SIEVE_STAT_PCTX q, F.SIEVE_STAT_ICTX q, F.SIEVE_STAT_BUSY q, F.SIEVE_STAT_CLASS q, F.SIEVE_STAT_TFREE q, F.SIEVE_STAT_IMAGES q]
  | .SIEVE_UCMD q => [F.SIEVE_UCMD_OP q, F.SIEVE_UCMD_REPLACE q, F.SIEVE_UCMD_TABLE q, F.SIEVE_UCMD_INDEX q]
  | .SIEVE_URES q => [F.SIEVE_URES_INDEX q, F.SIEVE_URES_STATUS q, F.SIEVE_URES_BUSY q, F.SIEVE_URES_DONE q]
  | .SIEVE_UKEY q i => [F.SIEVE_UKEY_KEY q i]
  | .SIEVE_UMASK q i => [F.SIEVE_UMASK_MASK q i]
  | .SIEVE_UVAL q => [F.SIEVE_UVAL_VALUE q]
  | .SIEVE_IMG q s => [F.SIEVE_IMG_PLOT q s, F.SIEVE_IMG_TILES q s, F.SIEVE_IMG_OVER q s, F.SIEVE_IMG_USED q s]
  | .SIEVE_CNT q k => [F.SIEVE_CNT_COUNT q k]
  | .SIEVE_TBL q t => [F.SIEVE_TBL_BASE q t, F.SIEVE_TBL_SIZE q t, F.SIEVE_TBL_CLASS q t, F.SIEVE_TBL_KEYW q t, F.SIEVE_TBL_PLOT q t, F.SIEVE_TBL_EN q t]
  | .SIEVE_TUSE q t => [F.SIEVE_TUSE_USED q t]
  | .CIPH_STAT q => [F.CIPH_STAT_PCTX q, F.CIPH_STAT_ICTX q, F.CIPH_STAT_BUSY q, F.CIPH_STAT_CLASS q, F.CIPH_STAT_KSLOTS q]
  | .CIPH_ERR q => [F.CIPH_ERR_CODE q, F.CIPH_ERR_JOB q, F.CIPH_ERR_VALID q]
  | .CIPH_CNT q k => [F.CIPH_CNT_COUNT q k]
  | .DGST_CFG q => [F.DGST_CFG_IDLE q]
  | .DGST_STAT q => [F.DGST_STAT_PCTX q, F.DGST_STAT_ICTX q, F.DGST_STAT_BUSY q, F.DGST_STAT_CLASS q, F.DGST_STAT_SESS q]
  | .DGST_CNT q k => [F.DGST_CNT_COUNT q k]
  | .DGST_SCTL q s => [F.DGST_SCTL_ALG q s, F.DGST_SCTL_URG q s, F.DGST_SCTL_OPEN q s, F.DGST_SCTL_ABORT q s, F.DGST_SCTL_FIN0 q s]
  | .DGST_SSTAT q s => [F.DGST_SSTAT_STATE q s, F.DGST_SSTAT_ERR q s, F.DGST_SSTAT_PLOT q s]
  | .DGST_SEPOCH q s => [F.DGST_SEPOCH_EPOCH q s]
  | .DGST_SLABEL q s => [F.DGST_SLABEL_ULABEL q s]
  | .DGST_DATA q s => [F.DGST_DATA_WORD q s]
  | .DGST_LAST q s i => [F.DGST_LAST_WORD q s i]
  | .DGST_RES q s i => [F.DGST_RES_DIGEST q s i]
  | .DGST_EXP q s i => [F.DGST_EXP_DIGEST q s i]
  | .DGST_CMP q s => [F.DGST_CMP_MATCH q s, F.DGST_CMP_MATCH_N q s]
  | .DGST_SLEN q s => [F.DGST_SLEN_BYTES q s]
  | .CORE_STAT c => [F.CORE_STAT_STATE c, F.CORE_STAT_PLOT c, F.CORE_STAT_GEN c]
  | .CORE_PROG c => [F.CORE_PROG_INDEX c]
  | .CORE_PC c => [F.CORE_PC_PC c]
  | .CORE_TRAP c => [F.CORE_TRAP_CAUSE c, F.CORE_TRAP_COUNT c]
  | .CORE_RGN c i => [F.CORE_RGN_V c i, F.CORE_RGN_PR c i, F.CORE_RGN_PW c i, F.CORE_RGN_PX c i, F.CORE_RGN_SR c i, F.CORE_RGN_SW c i, F.CORE_RGN_SX c i, F.CORE_RGN_BASE c i]
  | .CORE_RLIM c i => [F.CORE_RLIM_LIMIT c i]
  | .CORE_CNT c n => [F.CORE_CNT_COUNT c n]
  | .MEMC_CFG q => [F.MEMC_CFG_WIDTH q, F.MEMC_CFG_DENSITY q, F.MEMC_CFG_RANKS q, F.MEMC_CFG_RATEA q, F.MEMC_CFG_RATEB q, F.MEMC_CFG_LOCK q]
  | .MEMC_STAT q => [F.MEMC_STAT_SET q, F.MEMC_STAT_TRAINED q, F.MEMC_STAT_SREF q, F.MEMC_STAT_HOTREF q, F.MEMC_STAT_FBUSY q, F.MEMC_STAT_FAULT q, F.MEMC_STAT_CAPGIB q]
  | .MEMC_SCHED q => [F.MEMC_SCHED_AGECAP q, F.MEMC_SCHED_WRHI q, F.MEMC_SCHED_WRLO q]
  | .MEMC_PAGE q => [F.MEMC_PAGE_MODE q, F.MEMC_PAGE_IDLE q]
  | .MEMC_REF q => [F.MEMC_REF_SB q, F.MEMC_REF_RFM q]
  | .MEMC_RHT q => [F.MEMC_RHT_ACTMAX q, F.MEMC_RHT_WINDOW q]
  | .MEMC_FCHG q => [F.MEMC_FCHG_GO q]
  | .MEMC_RETRY q => [F.MEMC_RETRY_MAX q, F.MEMC_RETRY_COUNT q]
  | .MEMC_SCRUB q => [F.MEMC_SCRUB_HOURS q, F.MEMC_SCRUB_PCT q]
  | .MEMC_MARK q => [F.MEMC_MARK_MARKN q, F.MEMC_MARK_DEV0 q, F.MEMC_MARK_DEV1 q]
  | .MEMC_CNT q k => [F.MEMC_CNT_COUNT q k]
  | .MEMC_TSET q x => [F.MEMC_TSET_CYCLES q x]
  | .PAIL_POOLCFG n => [F.PAIL_POOLCFG_EN n, F.PAIL_POOLCFG_LOC n, F.PAIL_POOLCFG_SIZE n, F.PAIL_POOLCFG_FALLBACK n, F.PAIL_POOLCFG_FBEN n, F.PAIL_POOLCFG_LOCK n]
  | .PAIL_POOLBASE n => [F.PAIL_POOLBASE_BASE n]
  | .PAIL_POOLCNT n => [F.PAIL_POOLCNT_COUNT n]
  | .PAIL_POOLFLOOR n => [F.PAIL_POOLFLOOR_FLOOR n]
  | .PAIL_POOLSTAT n => [F.PAIL_POOLSTAT_FREE n, F.PAIL_POOLSTAT_EMPTY n]
  | .PAIL_POOLWM n => [F.PAIL_POOLWM_LOW n, F.PAIL_POOLWM_MID n, F.PAIL_POOLWM_HIGH n]
  | .PAIL_ERR => [F.PAIL_ERR_OWNER, F.PAIL_ERR_CAUSE, F.PAIL_ERR_VALID]
  | .PAIL_ERRH => [F.PAIL_ERRH_HANDLE]
  | .PAIL_CNT k => [F.PAIL_CNT_COUNT k]
  | .HALW_LCS => [F.HALW_LCS_STATE, F.HALW_LCS_LCCOUNT, F.HALW_LCS_TEST]
  | .HALW_SCRUB => [F.HALW_SCRUB_DONE]
  | .HALW_DIEID => [F.HALW_DIEID_DIEID]
  | .HALW_SVN => [F.HALW_SVN_FW, F.HALW_SVN_STREAM]
  | .HALW_KEYS => [F.HALW_KEYS_BURNED, F.HALW_KEYS_REVOKED, F.HALW_KEYS_AUTH]
  | .HALW_DEBUG => [F.HALW_DEBUG_RIGHTS]
  | .HALW_BOOT => [F.HALW_BOOT_FWSLOT, F.HALW_BOOT_FWFALLBACK, F.HALW_BOOT_STRSLOT, F.HALW_BOOT_STRFALLBACK, F.HALW_BOOT_BOOTSEL]
  | .BRZ_STAT => [F.BRZ_STAT_CODE, F.BRZ_STAT_SECTION, F.BRZ_STAT_ITEM, F.BRZ_STAT_VALID]
  | .BRZ_STREAMID => [F.BRZ_STREAMID_ID]
  | .BRZ_GRAFT => [F.BRZ_GRAFT_QUAD, F.BRZ_GRAFT_PENDING, F.BRZ_GRAFT_SEGVER]
  | .EVT_JCFG => [F.EVT_JCFG_HOSTWM]
  | .EVT_JSTAT => [F.EVT_JSTAT_UNACK, F.EVT_JSTAT_LOST]
  | .EVT_JHEAD => [F.EVT_JHEAD_SEQ]
  | .EVT_HOST_ACK_SEQ => [F.EVT_HOST_ACK_SEQ_SEQ]
  | .EVT_BADADDR => [F.EVT_BADADDR_OFFSET]
  | .EVT_BADINFO => [F.EVT_BADINFO_OWNER, F.EVT_BADINFO_WRITE, F.EVT_BADINFO_WIDE, F.EVT_BADINFO_VALID]
  | .EVT_SWTRIG => [F.EVT_SWTRIG_ARG]
  | .EVT_PEND i => [F.EVT_PEND_PEND i]
  | .EVT_CPEND x => [F.EVT_CPEND_PEND x, F.EVT_CPEND_EN x]
  | .EVT_ROUTE n => [F.EVT_ROUTE_HOST n, F.EVT_ROUTE_CORE n, F.EVT_ROUTE_PLOT n, F.EVT_ROUTE_VEC n, F.EVT_ROUTE_CQ n, F.EVT_ROUTE_CK n, F.EVT_ROUTE_LINE n]
  | .PMU_CTL => [F.PMU_CTL_RUN, F.PMU_CTL_FREEZE, F.PMU_CTL_CLEAR]
  | .PMU_OVF j => [F.PMU_OVF_OVF j]
  | .PMU_SEL i => [F.PMU_SEL_SRC i, F.PMU_SEL_EN i, F.PMU_SEL_QSEL i, F.PMU_SEL_PFEN i, F.PMU_SEL_PLOT i, F.PMU_SEL_OVFEV i]
  | .PMU_CNT i => [F.PMU_CNT_COUNT i]
  | .FINJ_CTL => [F.FINJ_CTL_ANY, F.FINJ_CTL_REFUSED]
  | .FINJ_SEED => [F.FINJ_SEED_SEED]
  | .FINJ_INJ i => [F.FINJ_INJ_EN i, F.FINJ_INJ_ONESHOT i, F.FINJ_INJ_KIND i, F.FINJ_INJ_INST i, F.FINJ_INJ_DIE i, F.FINJ_INJ_ANYDIE i, F.FINJ_INJ_BITS i, F.FINJ_INJ_RATE i]
  | .FINJ_CNT i => [F.FINJ_CNT_COUNT i]
  | .BIST_RES u => [F.BIST_RES_RUN u, F.BIST_RES_PASS u, F.BIST_RES_LFAIL u, F.BIST_RES_MFAIL u, F.BIST_RES_EFAIL u, F.BIST_RES_SKIPPED u, F.BIST_RES_MS u]
  | .BIST_MISR u => [F.BIST_MISR_MISR u]
  | .BIST_LAST => [F.BIST_LAST_QUAD, F.BIST_LAST_PASS, F.BIST_LAST_VALID, F.BIST_LAST_MS]
  | .BIST_CNT k => [F.BIST_CNT_COUNT k]
  | .TOP_STRAP => [F.TOP_STRAP_CID, F.TOP_STRAP_PORTMODE, F.TOP_STRAP_BOOTSEL]
  | .PWR_THERM => [F.PWR_THERM_LEVEL, F.PWR_THERM_HOSTCAUSE, F.PWR_THERM_HOTSENS, F.PWR_THERM_TRIPPED, F.PWR_THERM_HOTTEMP]
  | .PWR_VCORE => [F.PWR_VCORE_CODE]
  | .PWR_TEMP i => [F.PWR_TEMP_TEMP i, F.PWR_TEMP_VALID i]
  | .TOP_ID => [F.TOP_ID_PART, F.TOP_ID_STEP]
  | .CLK_STAT => [F.CLK_STAT_XTAL_OK, F.CLK_STAT_REFCLK_OK, F.CLK_STAT_TARGETS]

/-- The index of an array instance at offset `o`: instance 0 at `base`, one every `stride`, `n` in all. -/
def arrayIndex (base stride n o : Nat) : Option Nat :=
  if base ≤ o ∧ (o - base) % stride = 0 ∧ (o - base) / stride < n then some ((o - base) / stride) else none

/-- The indices of a two-level array instance at offset `o`. -/
def arrayIndex2 (base stride n stride2 m o : Nat) : Option (Nat × Nat) :=
  if base ≤ o ∧ (o - base) / stride < n ∧ (o - base) % stride % stride2 = 0 ∧ (o - base) % stride / stride2 < m then
    some ((o - base) / stride, (o - base) % stride / stride2) else none

/-- The register at offset `o` of block TOP. -/
def Reg.ofTOP (o : Nat) : Option Reg :=
  match o with
  | 0x20 => some (.TOP_UNITS)
  | 0x24 => some (.TOP_CHRETIRED)
  | 0x30 => some (.TOP_TMAX)
  | 0x10 => some (.TOP_MODE)
  | 0x14 => some (.TOP_RSTCAUSE)
  | 0x18 => some (.TOP_RESET)
  | 0x34 => some (.TOP_QBIST)
  | 0x28 => some (.TOP_STRAP)
  | 0x0 => some (.TOP_ID)
  | _ => none

/-- The register at offset `o` of block PWR. -/
def Reg.ofPWR (o : Nat) : Option Reg :=
  match o with
  | 0x10 => some (.PWR_PSTATE)
  | 0x20 => some (.PWR_THERM)
  | 0x24 => some (.PWR_VCORE)
  | o =>
    match arrayIndex 0x40 0x4 6 o with
    | some i => some (.PWR_TEMP i)
    | none =>
    none

/-- The register at offset `o` of block HIF. -/
def Reg.ofHIF (o : Nat) : Option Reg :=
  match o with
  | 0x0 => some (.HIF_PORTCFG)
  | 0x20 => some (.HIF_DISCARD)
  | 0x40 => some (.HIF_MAPCAP)
  | 0x50 => some (.HIF_ACTDRAIN)
  | o =>
    match arrayIndex 0x10 0x4 2 o with
    | some p => some (.HIF_PORTSTAT p)
    | none =>
    none

/-- The register at offset `o` of block PLOT. -/
def Reg.ofPLOT (o : Nat) : Option Reg :=
  match o with
  | 0x80 => some (.PLOT_SUMQV)
  | 0x84 => some (.PLOT_SUMIO)
  | 0x88 => some (.PLOT_SLMPOOL)
  | 0x8c => some (.PLOT_ERR)
  | o =>
    match arrayIndex 0x0 0x100 512 o with
    | some n => some (.PLOT_CTL n)
    | none =>
    match arrayIndex 0x4 0x100 512 o with
    | some n => some (.PLOT_STAT n)
    | none =>
    match arrayIndex 0x8 0x100 512 o with
    | some n => some (.PLOT_QV n)
    | none =>
    match arrayIndex 0xc 0x100 512 o with
    | some n => some (.PLOT_FETCH n)
    | none =>
    match arrayIndex 0x10 0x100 512 o with
    | some n => some (.PLOT_SLM n)
    | none =>
    match arrayIndex 0x14 0x100 512 o with
    | some n => some (.PLOT_FCORE n)
    | none =>
    match arrayIndex 0x18 0x100 512 o with
    | some n => some (.PLOT_EWT n)
    | none =>
    match arrayIndex 0x1c 0x100 512 o with
    | some n => some (.PLOT_ECAP n)
    | none =>
    match arrayIndex 0x20 0x100 512 o with
    | some n => some (.PLOT_USE n)
    | none =>
    match arrayIndex 0x24 0x100 512 o with
    | some n => some (.PLOT_STALE n)
    | none =>
    none

/-- The register at offset `o` of block CHAN. -/
def Reg.ofCHAN (ch o : Nat) : Option Reg :=
  match o with
  | 0x0 => some (.CHAN_CFG ch)
  | 0x4 => some (.CHAN_STAT ch)
  | 0x1c => some (.CHAN_DTO ch)
  | o =>
    match arrayIndex 0x10 0x4 3 o with
    | some k => some (.CHAN_TNOM ch k)
    | none =>
    match arrayIndex 0x20 0x4 2 o with
    | some i => some (.CHAN_DIEPRES ch i)
    | none =>
    match arrayIndex 0x28 0x4 2 o with
    | some i => some (.CHAN_DIEFAIL ch i)
    | none =>
    match arrayIndex 0x30 0x4 2 o with
    | some i => some (.CHAN_DIEXR ch i)
    | none =>
    match arrayIndex 0x100 0x4 64 o with
    | some d => some (.CHAN_DIESTAT ch d)
    | none =>
    match arrayIndex 0x200 0x8 8 o with
    | some k => some (.CHAN_CNT ch k)
    | none =>
    match arrayIndex2 0x1000 0x10 64 0x4 4 o with
    | some (e, w) => some (.CHAN_RETRY ch e w)
    | none =>
    none

/-- The register at offset `o` of block MAPW. -/
def Reg.ofMAPW (o : Nat) : Option Reg :=
  match o with
  | 0x0 => some (.MAPW_STAT)
  | 0x10 => some (.MAPW_CKPT)
  | 0x14 => some (.MAPW_COMPOST)
  | 0x18 => some (.MAPW_RELOC)
  | 0x1c => some (.MAPW_SPARE)
  | 0x20 => some (.MAPW_EWSET)
  | 0x28 => some (.MAPW_EWACT)
  | 0x30 => some (.MAPW_RECOV)
  | _ => none

/-- The register at offset `o` of block MRAMC. -/
def Reg.ofMRAMC (o : Nat) : Option Reg :=
  match o with
  | 0x0 => some (.MRAMC_WC)
  | 0x10 => some (.MRAMC_JHEAD)
  | 0x18 => some (.MRAMC_JTAIL)
  | 0x20 => some (.MRAMC_WSEQ)
  | _ => none

/-- The register at offset `o` of block STRP. -/
def Reg.ofSTRP (o : Nat) : Option Reg :=
  match o with
  | 0x0 => some (.STRP_CFG)
  | 0x10 => some (.STRP_RBCFG)
  | 0x14 => some (.STRP_RBSTAT)
  | 0x18 => some (.STRP_RAKE)
  | 0x1c => some (.STRP_RAKESTAT)
  | 0x20 => some (.STRP_JSTAT)
  | o =>
    match arrayIndex 0x40 0x8 8 o with
    | some k => some (.STRP_CNT k)
    | none =>
    match arrayIndex 0x100 0x4 128 o with
    | some g => some (.STRP_GRP g)
    | none =>
    match arrayIndex 0x1000 0x4 4096 o with
    | some x => some (.STRP_GMEM x)
    | none =>
    none

/-- The register at offset `o` of block GWL. -/
def Reg.ofGWL (o : Nat) : Option Reg :=
  match o with
  | 0x0 => some (.GWL_ID)
  | 0x4 => some (.GWL_CFG)
  | 0x8 => some (.GWL_HB)
  | 0x10 => some (.GWL_VIEW)
  | 0x18 => some (.GWL_SETS)
  | 0x20 => some (.GWL_RESYNC)
  | 0x24 => some (.GWL_CJ)
  | o =>
    match arrayIndex 0x40 0x4 4 o with
    | some l => some (.GWL_LSTAT l)
    | none =>
    match arrayIndex 0x100 0x8 32 o with
    | some x => some (.GWL_LCNT x)
    | none =>
    none

/-- The register at offset `o` of block TREL. -/
def Reg.ofTREL (q o : Nat) : Option Reg :=
  match o with
  | 0x0 => some (.TREL_CFG q)
  | 0x10 => some (.TREL_ERR q)
  | o =>
    match arrayIndex 0x100 0x8 8 o with
    | some k => some (.TREL_CNT q k)
    | none =>
    match arrayIndex2 0x1000 0x40 64 0x4 16 o with
    | some (p, w) => some (.TREL_PIPE q p w)
    | none =>
    match arrayIndex 0x4000 0x40 64 o with
    | some r => some (.TREL_RBASE q r)
    | none =>
    match arrayIndex 0x4008 0x40 64 o with
    | some r => some (.TREL_RCTL q r)
    | none =>
    match arrayIndex 0x400c 0x40 64 o with
    | some r => some (.TREL_RSUB q r)
    | none =>
    match arrayIndex 0x4010 0x40 64 o with
    | some r => some (.TREL_RACK q r)
    | none =>
    match arrayIndex 0x4014 0x40 64 o with
    | some r => some (.TREL_RCMP q r)
    | none =>
    match arrayIndex 0x4018 0x40 64 o with
    | some r => some (.TREL_RSTAT q r)
    | none =>
    none

/-- The register at offset `o` of block SKIM. -/
def Reg.ofSKIM (q o : Nat) : Option Reg :=
  match o with
  | o =>
    match arrayIndex 0x0 0x4 8 o with
    | some u => some (.SKIM_BIND q u)
    | none =>
    match arrayIndex 0x100 0x8 8 o with
    | some k => some (.SKIM_CNT q k)
    | none =>
    none

/-- The register at offset `o` of block CHURN. -/
def Reg.ofCHURN (q o : Nat) : Option Reg :=
  match o with
  | 0x0 => some (.CHURN_CFG q)
  | 0x4 => some (.CHURN_STAT q)
  | 0x10 => some (.CHURN_ERR q)
  | 0x18 => some (.CHURN_ERROFF q)
  | o =>
    match arrayIndex 0x100 0x8 8 o with
    | some k => some (.CHURN_CNT q k)
    | none =>
    none

/-- The register at offset `o` of block SIEVE. -/
def Reg.ofSIEVE (q o : Nat) : Option Reg :=
  match o with
  | 0x0 => some (.SIEVE_CFG q)
  | 0x4 => some (.SIEVE_STAT q)
  | 0x10 => some (.SIEVE_UCMD q)
  | 0x14 => some (.SIEVE_URES q)
  | 0x60 => some (.SIEVE_UVAL q)
  | o =>
    match arrayIndex 0x20 0x4 5 o with
    | some i => some (.SIEVE_UKEY q i)
    | none =>
    match arrayIndex 0x40 0x4 5 o with
    | some i => some (.SIEVE_UMASK q i)
    | none =>
    match arrayIndex 0x100 0x4 32 o with
    | some s => some (.SIEVE_IMG q s)
    | none =>
    match arrayIndex 0x200 0x8 8 o with
    | some k => some (.SIEVE_CNT q k)
    | none =>
    match arrayIndex 0x1000 0x8 256 o with
    | some t => some (.SIEVE_TBL q t)
    | none =>
    match arrayIndex 0x1800 0x4 256 o with
    | some t => some (.SIEVE_TUSE q t)
    | none =>
    none

/-- The register at offset `o` of block CIPH. -/
def Reg.ofCIPH (q o : Nat) : Option Reg :=
  match o with
  | 0x4 => some (.CIPH_STAT q)
  | 0x10 => some (.CIPH_ERR q)
  | o =>
    match arrayIndex 0x100 0x8 8 o with
    | some k => some (.CIPH_CNT q k)
    | none =>
    none

/-- The register at offset `o` of block DGST. -/
def Reg.ofDGST (q o : Nat) : Option Reg :=
  match o with
  | 0x0 => some (.DGST_CFG q)
  | 0x4 => some (.DGST_STAT q)
  | o =>
    match arrayIndex 0x40 0x8 8 o with
    | some k => some (.DGST_CNT q k)
    | none =>
    match arrayIndex 0x100 0x100 8 o with
    | some s => some (.DGST_SCTL q s)
    | none =>
    match arrayIndex 0x104 0x100 8 o with
    | some s => some (.DGST_SSTAT q s)
    | none =>
    match arrayIndex 0x108 0x100 8 o with
    | some s => some (.DGST_SEPOCH q s)
    | none =>
    match arrayIndex 0x110 0x100 8 o with
    | some s => some (.DGST_SLABEL q s)
    | none =>
    match arrayIndex 0x118 0x100 8 o with
    | some s => some (.DGST_DATA q s)
    | none =>
    match arrayIndex2 0x120 0x100 8 0x8 8 o with
    | some (s, i) => some (.DGST_LAST q s i)
    | none =>
    match arrayIndex2 0x160 0x100 8 0x8 8 o with
    | some (s, i) => some (.DGST_RES q s i)
    | none =>
    match arrayIndex2 0x1a0 0x100 8 0x8 8 o with
    | some (s, i) => some (.DGST_EXP q s i)
    | none =>
    match arrayIndex 0x1e0 0x100 8 o with
    | some s => some (.DGST_CMP q s)
    | none =>
    match arrayIndex 0x1e8 0x100 8 o with
    | some s => some (.DGST_SLEN q s)
    | none =>
    none

/-- The register at offset `o` of block CORE. -/
def Reg.ofCORE (c o : Nat) : Option Reg :=
  match o with
  | 0x0 => some (.CORE_STAT c)
  | 0x4 => some (.CORE_PROG c)
  | 0x8 => some (.CORE_PC c)
  | 0x10 => some (.CORE_TRAP c)
  | o =>
    match arrayIndex 0x100 0x10 16 o with
    | some i => some (.CORE_RGN c i)
    | none =>
    match arrayIndex 0x108 0x10 16 o with
    | some i => some (.CORE_RLIM c i)
    | none =>
    match arrayIndex 0x200 0x8 8 o with
    | some n => some (.CORE_CNT c n)
    | none =>
    none

/-- The register at offset `o` of block MEMC. -/
def Reg.ofMEMC (q o : Nat) : Option Reg :=
  match o with
  | 0x0 => some (.MEMC_CFG q)
  | 0x4 => some (.MEMC_STAT q)
  | 0x10 => some (.MEMC_SCHED q)
  | 0x14 => some (.MEMC_PAGE q)
  | 0x18 => some (.MEMC_REF q)
  | 0x1c => some (.MEMC_RHT q)
  | 0x20 => some (.MEMC_FCHG q)
  | 0x24 => some (.MEMC_RETRY q)
  | 0x28 => some (.MEMC_SCRUB q)
  | 0x2c => some (.MEMC_MARK q)
  | o =>
    match arrayIndex 0x100 0x8 8 o with
    | some k => some (.MEMC_CNT q k)
    | none =>
    match arrayIndex 0x400 0x4 32 o with
    | some x => some (.MEMC_TSET q x)
    | none =>
    none

/-- The register at offset `o` of block PAIL. -/
def Reg.ofPAIL (o : Nat) : Option Reg :=
  match o with
  | 0x10 => some (.PAIL_ERR)
  | 0x14 => some (.PAIL_ERRH)
  | o =>
    match arrayIndex 0x100 0x20 16 o with
    | some n => some (.PAIL_POOLCFG n)
    | none =>
    match arrayIndex 0x108 0x20 16 o with
    | some n => some (.PAIL_POOLBASE n)
    | none =>
    match arrayIndex 0x110 0x20 16 o with
    | some n => some (.PAIL_POOLCNT n)
    | none =>
    match arrayIndex 0x114 0x20 16 o with
    | some n => some (.PAIL_POOLFLOOR n)
    | none =>
    match arrayIndex 0x118 0x20 16 o with
    | some n => some (.PAIL_POOLSTAT n)
    | none =>
    match arrayIndex 0x11c 0x20 16 o with
    | some n => some (.PAIL_POOLWM n)
    | none =>
    match arrayIndex 0x40 0x8 8 o with
    | some k => some (.PAIL_CNT k)
    | none =>
    none

/-- The register at offset `o` of block HALW. -/
def Reg.ofHALW (o : Nat) : Option Reg :=
  match o with
  | 0x0 => some (.HALW_LCS)
  | 0x4 => some (.HALW_SCRUB)
  | 0x8 => some (.HALW_DIEID)
  | 0x10 => some (.HALW_SVN)
  | 0x14 => some (.HALW_KEYS)
  | 0x18 => some (.HALW_DEBUG)
  | 0x1c => some (.HALW_BOOT)
  | _ => none

/-- The register at offset `o` of block BRZ. -/
def Reg.ofBRZ (o : Nat) : Option Reg :=
  match o with
  | 0x0 => some (.BRZ_STAT)
  | 0x8 => some (.BRZ_STREAMID)
  | 0x10 => some (.BRZ_GRAFT)
  | _ => none

/-- The register at offset `o` of block EVT. -/
def Reg.ofEVT (o : Nat) : Option Reg :=
  match o with
  | 0x0 => some (.EVT_JCFG)
  | 0x4 => some (.EVT_JSTAT)
  | 0x8 => some (.EVT_JHEAD)
  | 0x10 => some (.EVT_HOST_ACK_SEQ)
  | 0x18 => some (.EVT_BADADDR)
  | 0x1c => some (.EVT_BADINFO)
  | 0x20 => some (.EVT_SWTRIG)
  | o =>
    match arrayIndex 0x100 0x4 16 o with
    | some i => some (.EVT_PEND i)
    | none =>
    match arrayIndex 0x200 0x4 32 o with
    | some x => some (.EVT_CPEND x)
    | none =>
    match arrayIndex 0x1000 0x4 512 o with
    | some n => some (.EVT_ROUTE n)
    | none =>
    none

/-- The register at offset `o` of block PMU. -/
def Reg.ofPMU (o : Nat) : Option Reg :=
  match o with
  | 0x0 => some (.PMU_CTL)
  | o =>
    match arrayIndex 0x40 0x4 2 o with
    | some j => some (.PMU_OVF j)
    | none =>
    match arrayIndex 0x100 0x4 48 o with
    | some i => some (.PMU_SEL i)
    | none =>
    match arrayIndex 0x400 0x8 48 o with
    | some i => some (.PMU_CNT i)
    | none =>
    none

/-- The register at offset `o` of block FINJ. -/
def Reg.ofFINJ (o : Nat) : Option Reg :=
  match o with
  | 0x0 => some (.FINJ_CTL)
  | 0x4 => some (.FINJ_SEED)
  | o =>
    match arrayIndex 0x100 0x10 16 o with
    | some i => some (.FINJ_INJ i)
    | none =>
    match arrayIndex 0x108 0x10 16 o with
    | some i => some (.FINJ_CNT i)
    | none =>
    none

/-- The register at offset `o` of block BIST. -/
def Reg.ofBIST (o : Nat) : Option Reg :=
  match o with
  | 0x50 => some (.BIST_LAST)
  | o =>
    match arrayIndex 0x0 0x4 5 o with
    | some u => some (.BIST_RES u)
    | none =>
    match arrayIndex 0x20 0x8 5 o with
    | some u => some (.BIST_MISR u)
    | none =>
    match arrayIndex 0x60 0x8 4 o with
    | some k => some (.BIST_CNT k)
    | none =>
    none

/-- The register at offset `o` of block CLK. -/
def Reg.ofCLK (o : Nat) : Option Reg :=
  match o with
  | 0x0 => some (.CLK_STAT)
  | _ => none

/-- The register that starts at a control-space offset (R448): device blocks below 0x20_0000, quadrant `q` in the
4 MiB from `QBASE(q)`. -/
def Reg.ofOffset (o : Nat) : Option Reg :=
  if o < 0x1000000 then
    if o < 0x10000 then Reg.ofTOP (o - 0x0)
    else if o < 0x20000 then Reg.ofCLK (o - 0x10000)
    else if o < 0x30000 then Reg.ofPWR (o - 0x20000)
    else if o < 0x40000 then Reg.ofEVT (o - 0x30000)
    else if o < 0x50000 then Reg.ofPMU (o - 0x40000)
    else if o < 0x60000 then Reg.ofFINJ (o - 0x50000)
    else if o < 0x80000 then Reg.ofBIST (o - 0x60000)
    else if o < 0xa0000 then Reg.ofHIF (o - 0x80000)
    else if o < 0xc0000 then Reg.ofPLOT (o - 0xa0000)
    else if o < 0x100000 then Reg.ofPAIL (o - 0xc0000)
    else if o < 0x120000 then Reg.ofSTRP (o - 0x100000)
    else if o < 0x140000 then Reg.ofMAPW (o - 0x120000)
    else if o < 0x180000 then Reg.ofGWL (o - 0x140000)
    else if o < 0x1a0000 then Reg.ofHALW (o - 0x180000)
    else if o < 0x1c0000 then Reg.ofBRZ (o - 0x1a0000)
    else if o < 0x200000 then Reg.ofMRAMC (o - 0x1c0000)
    else none
  else if o < 0x2000000 then
    let q := (o - 0x1000000) / 0x400000
    let p := (o - 0x1000000) % 0x400000
    if p < 0x20000 then Reg.ofCHAN (q * 8 + p / 0x4000) (p % 0x4000)
    else if p < 0x40000 then none
    else if p < 0x80000 then Reg.ofSKIM q (p - 0x40000)
    else if p < 0xc0000 then Reg.ofTREL q (p - 0x80000)
    else if p < 0x100000 then Reg.ofCHURN q (p - 0xc0000)
    else if p < 0x140000 then Reg.ofSIEVE q (p - 0x100000)
    else if p < 0x180000 then Reg.ofCIPH q (p - 0x140000)
    else if p < 0x1c0000 then Reg.ofDGST q (p - 0x180000)
    else if p < 0x200000 then Reg.ofMEMC q (p - 0x1c0000)
    else if p < 0x240000 then Reg.ofCORE (q * 8 + (p - 0x200000) / 0x8000) ((p - 0x200000) % 0x8000)
    else none
  else none

/-- A 64-bit register may also be reached by its high half, 4 above its offset (R11). -/
def Reg.ofHigh (o : Nat) : Option Reg :=
  if 4 ≤ o then
    match Reg.ofOffset (o - 4) with
    | some r => if r.wide then some r else none
    | none => none
  else none

end Sys2Proof.Machine
end

