-- ==== Sys2Proof/Machine/State.lean ====
section
/-! DEFINITION. The state of the part: everything the spec names, as plain data. Control-space registers are held
field by field in a sparse register file (`RegFile`): the key is the field's bit address, and a field at its reset
value has no entry. Everything else is in records, one per block. `State` adds the queue of waiting commands. -/

namespace Sys2Proof.Machine

/-- The model raises no fault: no command of the part stops it, and an access to nothing is recorded by EVT (R10,
R411). -/
inductive Fault where
  /-- Raised by nobody; the type has a value so that outcomes can be compared. Safe. -/
  | unused
  deriving DecidableEq, Repr

/-- The refusals of the model. -/
inductive Refusal where
  /-- Raised by `exec` for a command that has no meaning yet. Safe: nothing can be proved of it. -/
  | notModelled (mnemonic : String)
  deriving DecidableEq, Repr

/-- A sparse file of register fields: (key, value), no entry at its reset value. -/
abbrev RegFile := List (Nat × Nat)

/-- A byte memory: the listed bytes (addresses strictly rising, none listed as zero, R38), and the numbers of the
64-byte groups that carry a poison mark (R20). -/
structure Mem where
  cells : List Host.Cell
  poison : List Nat
  deriving DecidableEq, Repr

def Mem.init : Mem := { cells := [], poison := [] }

/-- A completion-queue entry (R18): the fields the spec uses. -/
structure Cqe where
  sq : Nat
  cid : Nat
  sqHead : Nat
  status : Sc
  dnr : Bool
  dw0 : Nat
  dw1 : Nat
  phase : Bool
  deriving DecidableEq, Repr

/-- The fields of the Identify structures of R80 that are the part's own. -/
inductive IdField where
  | NGUID | CSI | TNVMCAP | UNVMCAP | VID | SSVID | SN | MN | FR | RAB | MDTS | CNTLID | CMIC | RTD3R | RTD3E | ACL | AERL
  | FRMW | LPA | ELPE | NPSS | WCTEMP | CCTEMP | MTFA | SANICAP | SQES | CQES | NN | MNAN | ONCS | VWC | AWUN | AWUPF
  | SGLS | SUBNQN | OAES | NLBAF | FLBAS | NSFEAT | DLFEAT | NMIC | NPWG | NPWA | NPDG | NPDA | NOWS | MSSRL | MCL | MSRC
  | NAWUN | NAWUPF | NABSPF | NSZE | NCAP | NUSE | COMBINATION | NSID | LBAF0 | LBAF1 | LBAF2 | LBAF3 | OACS | VER
  | CRT | VQFRT | VQRFA | VQRFAP | VIFRT | VIRFA | VIRFAP
  deriving DecidableEq, Repr

/-- What HIF sends on a function's ordered posted path (R18), oldest first. A logical block is one natural number,
its bytes little-endian. A log page is sent as the window asked for (byte offset, bytes) and the fields of the page as (byte
offset, width, value), every byte that no field holds being zero; the Error Information page as its entries, newest first, as
(error count, queue, command identifier, status). A data structure of Get Features is its fields as (byte offset, value), an
Identify structure its fields by name, an Identify list its numbers. -/
inductive HostMsg where
  | block (plot : Nat) (data : Nat)
  | bytes (plot : Nat) (data : List Nat)
  | log (plot lid off len : Nat) (fields : List (Nat × Nat × Nat))
  | errors (plot off len : Nat) (entries : List (Nat × Nat × Nat × Sc))
  | feature (plot fid : Nat) (fields : List (Nat × Nat))
  | ids (plot cns : Nat) (numbers : List Nat)
  | ident (plot cns : Nat) (fields : List (IdField × Nat))
  | cqe (plot cq : Nat) (e : Cqe)
  | msix (plot vec : Nat)
  deriving DecidableEq, Repr

/-- Why the part is held in RESET (R34, R43, R434, R447). -/
inductive Hold where
  | none | bistFail | trip | pwrfail | pwrfailWait
  deriving DecidableEq, Repr

/-- The levels of the pins the spec names, and the straps' input levels (chapters 2, 17 and 18). These are driven
from outside and keep their level through a reset. `upMs` counts the milliseconds since RESET_N rose (R86). -/
structure Pins where
  resetN : Bool
  upMs : Nat
  pwrfailN : Bool
  perst0 : Bool
  perst1 : Bool
  cid : Nat
  portmode : Nat
  bootsel : Nat
  supply : Bool
  link0 : Bool
  link1 : Bool
  deriving DecidableEq, Repr

def Pins.init : Pins :=
  { resetN := true, upMs := 0, pwrfailN := true, perst0 := false, perst1 := false, cid := 0, portmode := 0, bootsel := 0,
    supply := true, link0 := false, link1 := false }

/-- An in-field quadrant test in progress (R44): the quadrant, and whether it has been drained and isolated. -/
structure QTest where
  quad : Nat
  isolated : Bool
  deriving DecidableEq, Repr

/-- A device self-test that runs (R54): whether it is extended, the quadrants still to test, the next slice,
whether an abort waits, the first segment that failed (quadrant q as q + 1, slice i as 16 + i). -/
structure SelfTest where
  extended : Bool
  quads : List Nat
  slice : Nat
  abort : Bool
  failed : Option Nat
  deriving DecidableEq, Repr

/-- Mode control: the hold, FAULT_N, whether the map is loaded, the start-up steps that are done, the quadrants that passed, the atomic scope
in force (R53), the in-field tests due (R44), the test in progress, the device self-test, the power-failure stop in
progress, the mode DOZE was entered from, a sanitize that waits or runs, the throttle levels' state (chapter 18),
the milliseconds since the part reset, the media counts at the
end of each of the last 60 minutes (codewords read, reaching retry, needing soft decode), and for each of the last 1,440
minutes whether it was throttled, newest first (R159). -/
structure ModeSt where
  hold : Hold
  faultN : Bool
  mapLoaded : Bool
  sramFilled : Bool
  dramTrained : Bool
  dramFilled : Bool
  devTested : Bool
  nextQ : Nat
  passed : Nat
  scope : Nat
  due : List Nat
  qtest : Option QTest
  selfTest : Option SelfTest
  pfStop : Bool
  pfReturned : Bool
  dozeFrom : Nat
  wakePending : Bool
  wakeAt : Nat
  sanitize : Option Nat
  sanitizeWait : Option Nat
  ms : Nat
  hourly : List (Nat × Nat × Nat)
  hot : List Bool
  deriving DecidableEq, Repr

def ModeSt.init : ModeSt :=
  { hold := .none, faultN := false, mapLoaded := false, sramFilled := false, dramTrained := false, dramFilled := false,
    devTested := false, nextQ := 0, passed := 0, scope := 2, due := [], qtest := none, selfTest := none,
     pfStop := false, pfReturned := false, dozeFrom := 0, wakePending := false, wakeAt := 0,
    sanitize := none, sanitizeWait := none, ms := 0, hourly := [], hot := [] }

/-- A submission queue: the head is the next entry to fetch, the tail the last doorbell value. -/
structure Sq where
  qid : Nat
  size : Nat
  cqid : Nat
  prio : Nat
  head : Nat
  tail : Nat
  deriving DecidableEq, Repr

/-- A completion queue: `held` are completions that wait for a free entry, `stalled` says that R30 has stopped the
submission queues that post to it. -/
structure Cq where
  qid : Nat
  size : Nat
  head : Nat
  tail : Nat
  phase : Bool
  vec : Nat
  ien : Bool
  held : List Cqe
  stalled : Bool
  coalesced : Nat
  deriving DecidableEq, Repr

/-- The features one controller holds (R79). Feature 05h is kept per namespace, 09h per vector. -/
structure Features where
  ab : Nat
  lpw : Nat
  mpw : Nat
  hpw : Nat
  ps : Nat
  tempOver : Nat
  tempUnder : Nat
  nsq : Nat
  ncq : Nat
  coalThr : Nat
  coalTime : Nat
  vecCd : List Nat
  dn : Nat
  asyncCfg : Nat
  apst : Bool
  apstTable : List (Nat × Nat × Nat)
  tmt1 : Nat
  tmt2 : Nat
  tsBase : Nat
  tsAt : Nat
  vendorNotices : Nat
  deriving DecidableEq, Repr

/-- The defaults of R79. -/
def Features.default : Features :=
  { ab := 3, lpw := 0, mpw := 0, hpw := 0, ps := 0, tempOver := 373, tempUnder := 0, nsq := 0, ncq := 0,
    coalThr := 0, coalTime := 0, vecCd := [], dn := 0, asyncCfg := 0x31F, apst := false, apstTable := [], tmt1 := 0,
    tmt2 := 0, tsBase := 0, tsAt := 0, vendorNotices := 0x3F }

/-- An asynchronous event (R84): its type, its information and the log page named for it. -/
structure AsyncEv where
  ty : Nat
  info : Nat
  lid : Nat
  deriving DecidableEq, Repr

/-- The age state of one arbiter (R24): the 4-bit ages, and the urgent requesters in the order they became
urgent. -/
structure Arb where
  ages : List (Nat × Nat)
  urgent : List Nat
  deriving DecidableEq, Repr

/-- One NVMe controller: CC and CSTS, the admin queue attributes, the features, the queues (qid 0 is the admin
pair), the outstanding Asynchronous Event Requests, the pending and the masked asynchronous events, the critical
warning bits last reported, the queue the last I/O grant went to and the commands left of its turn, the queue last granted in each
class and the credits left (R64), the ages of its queues, the error log, the reservation notifications, the
commands whose fetching a shutdown has stopped, whether Virtualization Management has taken it offline, the other bits of CC, and the base addresses of the admin queues (ASQ and ACQ). -/
structure Ctrl where
  en : Bool
  css : Nat
  ams : Nat
  shn : Nat
  rdy : Bool
  shst : Nat
  aqaS : Nat
  aqaC : Nat
  feat : Features
  sqs : List Sq
  cqs : List Cq
  aers : List CmdId
  asyncPend : List AsyncEv
  asyncMask : List (Nat × Nat)
  critWarn : Nat
  lastQ : Nat
  burstLeft : Nat
  lastQs : List (Nat × Nat)
  credits : List (Nat × Nat)
  qArb : Arb
  errLog : List (Nat × Nat × Sc)
  resvLog : List (Nat × Nat)
  fetchStopped : Bool
  offline : Bool
  ccRest : Nat
  asq : Nat
  acq : Nat
  deriving DecidableEq, Repr

def Ctrl.init : Ctrl :=
  { en := false, css := 0, ams := 0, shn := 0, rdy := false, shst := 0, aqaS := 0, aqaC := 0,
    feat := Features.default, sqs := [], cqs := [], aers := [], asyncPend := [], asyncMask := [], critWarn := 0,
    lastQ := 0, burstLeft := 0, lastQs := [], credits := [], qArb := ⟨[], []⟩, errLog := [], resvLog := [],
    fetchStopped := false, offline := false, ccRest := 0, asq := 0, acq := 0 }

/-- The completion latch of one outstanding command (R14): the generations it was fetched under, when it was
fetched and the T_MAX then in force in seconds (R29), whether it is an I/O command (R92). -/
structure Latch where
  id : CmdId
  plotGen : Nat
  qGen : Nat
  at_ : Nat
  tmax : Nat
  io : Bool
  deriving DecidableEq, Repr

/-- A firmware activation without reset that drains (R75): the commit command, the slot, when fetching stopped. -/
structure ActDrain where
  id : CmdId
  slot : Nat
  at_ : Nat
  deriving DecidableEq, Repr

/-- A program image that Load Program loads in pieces (R454): the plot and its generation, the index, the type, the size, the bytes so
far. -/
structure Loading where
  plot : Nat
  gen : Nat
  index : Nat
  ptype : Nat
  size : Nat
  image : List Byte
  deriving DecidableEq, Repr

/-- HIF: the controllers (by plot; one not listed is `Ctrl.init`), the completion latches, the queue generations (by `65536 * plot +
queue`), the C4h counters (by `16 * plot + field`), the fetch virtual times and ages, what has been sent to the hosts with its Relaxed
Ordering attribute (R57), the written words of the MSI-X tables (by `4 * (4096 * plot + vector) + word`) and the vectors that hold a
pending message (by `4096 * plot + vector`), the written words of the configuration spaces (by `1024 * plot + offset / 4`), the virtual
functions enabled of each physical function, CSTS.NSSRO (R458), the activation drain, the change list of attached namespaces, feature 05h
by NSID (R79), the latched halves of split control-space accesses (R11) by owner, the last value a read of a register or a window
returned, the last SMBus reply, and the program images being loaded (R454). -/
structure HostSt where
  ctrls : List (Nat × Ctrl)
  latches : List Latch
  qGens : List (Nat × Nat)
  stats : List (Nat × Nat)
  vt : List (Nat × Nat)
  wasEligible : List Nat
  arb : Arb
  out : List (HostMsg × Bool)
  msixTab : List (Nat × Nat)
  msixPend : List Nat
  cfg : List (Nat × Nat)
  nssro : Bool
  numVfs : List (Nat × Nat)
  drain : Option ActDrain
  changedNs : List (Nat × Nat)
  tler : List (Nat × Nat)
  readLatch : List (Nat × Nat × Nat)
  writeHold : List (Nat × Nat × Nat)
  csrReply : Option Nat
  smbusReply : List Nat
  loading : List Loading
  deriving DecidableEq, Repr

def HostSt.init : HostSt :=
  { ctrls := [], latches := [], qGens := [], stats := [], vt := [], wasEligible := [],
    arb := ⟨[], []⟩, out := [], msixTab := [], msixPend := [], cfg := [], nssro := false, numVfs := [], drain := none, changedNs := [],
    tler := [],
    readLatch := [], writeHold := [], csrReply := none, smbusReply := [], loading := [] }

/-- One plot's mailbox (R98 to R102): MB_PTR[0-3], MB_INC[0-1], MB_VEC, the flag bits of MB_STAT, and the two rings
as 32-bit words by word number (16 slots of 64 words; a word not listed is zero). -/
structure Mbx where
  upSeq : Nat
  upAck : Nat
  dnSeq : Nat
  dnAck : Nat
  incT : Nat
  incM : Nat
  vec : Nat
  vecEn : Bool
  trst : Bool
  mrst : Bool
  trej : Bool
  mrej : Bool
  up : List (Nat × Nat)
  dn : List (Nat × Nat)
  deriving DecidableEq, Repr

def Mbx.init : Mbx :=
  { upSeq := 0, upAck := 0, dnSeq := 0, dnAck := 0, incT := 0, incM := 0, vec := 0, vecEn := false, trst := false,
    mrst := false, trej := false, mrej := false, up := [], dn := [] }

/-- The PLOT block beside its registers: the mailboxes by plot, the restart bits MBS_RST, the SLM sizes being
filled, and the plots whose PSALLOW has taken effect (R97). -/
structure PlotSt where
  mbx : List (Nat × Mbx)
  rst : List Nat
  grow : List (Nat × Nat)
  psOk : List Nat
  deriving DecidableEq, Repr

def PlotSt.init : PlotSt := { mbx := [], rst := [], grow := [], psOk := [] }

/-- The class of a die operation (R115), highest first. -/
inductive OpClass where
  | hostRead | internalRead | program | erase | rake
  deriving DecidableEq, Repr

/-- One codeword as it lies on flash (R120, R127): its data and host metadata in clear, the epoch of the media key it
was encrypted under (R129), and its page tag. A parity codeword (R164) holds in `data`, `hmeta`, `wseq`, `reloc` and `gen`
the parity of what is stored there, in `cwidx` 0 for P and 1 for Q, and in `pf` the parity of CRC-32C, KIND, FLAGS and UMASK, from the
low end; `pf` is 0 elsewhere. -/
structure Cw where
  data : Nat
  hmeta : Nat
  umask : Nat
  epoch : Nat
  iu : Nat
  nsid : Nat
  wseq : Nat
  reloc : Nat
  gen : Nat
  cwidx : Nat
  kind : Nat
  poison : Bool
  pf : Nat
  deriving DecidableEq, Repr

/-- One queued or running die operation: its class, the die, block and page it acts on, the codeword slots a read
asks for, the codewords a program carries, the command a host read serves, the block stripe a program belongs to and
how often it has been suspended (R116). -/
structure DieOp where
  cls : OpClass
  die : Nat
  block : Nat
  page : Nat
  slots : List Nat
  cws : List Cw
  cmd : Option CmdId
  group : Nat
  bsn : Nat
  parity : Bool
  whole : Bool
  suspends : Nat
  deriving DecidableEq, Repr

/-- Where a codeword that is being read stands on the ladder of R122. -/
inductive Ladder where
  | decode | retry | soft | reconstruct
  deriving DecidableEq, Repr

/-- A codeword in a channel buffer that has not yet been delivered: its location, where it stands, the retry entry
to try next, how many have been tried, its page type, and whether its walk has already succeeded for another codeword. -/
structure ReadCw where
  loc : Nat
  cmd : Option CmdId
  step : Ladder
  entry : Nat
  tried : Nat
  ptype : Nat
  won : Bool
  deriving DecidableEq, Repr

/-- The sequencer of one die: its queue in arrival order, the class ages (R115), the operation in progress, a
suspended one, a finished program or erase whose status is about to be acted on. -/
structure DieSt where
  queue : List DieOp
  ages : Arb
  busy : Option DieOp
  suspended : Option DieOp
  ended : Option DieOp
  deriving DecidableEq, Repr

def DieSt.init : DieSt :=
  { queue := [], ages := ⟨[], []⟩, busy := none, suspended := none, ended := none }

/-- A target of a channel since it was last trained (R130): the retrainings that have failed at the current rate, when it was
trained, and its die temperature then. -/
structure NandTarget where
  fails : Nat
  at_ : Nat
  temp : Int
  deriving DecidableEq, Repr

def NandTarget.init : NandTarget := { fails := 0, at_ := 0, temp := 0 }

/-- The channel islands beside their registers: the sequencers by global die, the codewords being read, the rate
each present die declares (R111), the dies whose parameter page declares suspension (R110), the targets by `16 * channel + target`,
the media keys that each lane has loaded, by channel as (NSID, epoch), newest first (R129), whether the NAND interfaces are driven (R47), the soft decodes made
(R159). -/
structure MediaSt where
  dies : List (Nat × DieSt)
  reading : List ReadCw
  declared : List (Nat × Nat)
  suspOk : List Nat
  targets : List (Nat × NandTarget)
  lanes : List (Nat × List (Nat × Nat))
  driven : Bool
  softs : Nat
  deriving DecidableEq, Repr

def MediaSt.init : MediaSt := { dies := [], reading := [], declared := [], suspOk := [], targets := [], lanes := [], driven := true, softs := 0 }

/-- What the NAND packages hold: the codewords by location, in the layout of bits [37:0] of a map entry (R133), and the
originals of the bad-block tables (R39): the blocks bad as delivered, as `8192 * die + block`. -/
structure FlashSt where
  cws : List (Nat × Cw)
  factoryBad : List Nat
  deriving DecidableEq, Repr

def FlashSt.init : FlashSt := { cws := [], factoryBad := [] }

/-- The reservation of one namespace (R66): the registrants with their keys, the holder, the type, and whether it
persists through power loss. -/
structure Resv where
  regs : List (Nat × Nat)
  holder : Option Nat
  rtype : Nat
  gen : Nat
  ptpl : Bool
  deriving DecidableEq, Repr

def Resv.init : Resv := { regs := [], holder := none, rtype := 0, gen := 0, ptpl := true }

/-- The geometry of a cluster namespace (chapter 8): data and parity chunks of a stripe, the members that carry it. -/
structure ClusterGeom where
  k : Nat
  m : Nat
  deriving DecidableEq, Repr

/-- A namespace (R68, R69): its sizes in logical blocks, LBA format, IU code (0, 1, 2 for 4, 16, 64 KiB), protection
type, metadata as extended LBA, how it is compressed (R252: 0 not at all,
1 LZ4, 2 raw DEFLATE), the plots it is attached to, its media key epoch, whether it was created in TEST
(R55), its reservation, its cluster geometry. -/
structure Ns where
  nsid : Nat
  nsze : Nat
  ncap : Nat
  lbaf : Nat
  iu : Nat
  pi : Nat
  ext : Bool
  comp : Nat
  attached : List Nat
  shared : Bool
  epoch : Nat
  test : Bool
  resv : Resv
  cluster : Option ClusterGeom
  deriving DecidableEq, Repr

/-- A slot of the protected write cache: its data and host metadata, the blocks marked uncorrectable, and whether
its data carries poison. -/
structure Slot where
  data : Nat
  hmeta : Nat
  umask : Nat
  poison : Bool
  deriving DecidableEq, Repr

/-- A commit record (R137, R138). `dead` are the IUs superseded, `sent` those whose destage is under way, `staged` those whose MAP record
is journalled and not yet committed, with the entry it gives them, `moved` those whose MAP record is committed, with that entry (R140). -/
structure Commit where
  wseq : Nat
  nsid : Nat
  kind : Nat
  count : Nat
  firstIu : Nat
  firstSlot : Nat
  plot : Nat
  gen : Nat
  lead : Nat
  tseq : Nat
  dead : List Nat
  sent : List Nat
  staged : List (Nat × Nat)
  moved : List (Nat × Nat)
  deriving DecidableEq, Repr

/-- A record of the map journal (R143). -/
inductive MapRec where
  | mapTo (nsid iu entry reloc : Nat)
  | blockOpen (die block purpose : Nat)
  | blockClose (die block : Nat)
  | eraseStart (die block : Nat)
  | eraseDone (die block count : Nat)
  | blockBad (die block cause : Nat)
  deriving DecidableEq, Repr

/-- A batch of the map journal (R142). -/
structure Batch where
  bseq : Nat
  time : Nat
  recs : List MapRec
  deriving DecidableEq, Repr

/-- MRAM (R39): the write cache's slots, its commit records oldest first, the committed batches oldest first, the
next write sequence, and the commit records and batches that an uncorrectable block has made invalid (R371), by WSEQ and BSEQ. -/
structure MramSt where
  slots : List (Nat × Slot)
  commits : List Commit
  batches : List Batch
  jtail : Nat
  jhead : Nat
  badCommits : List Nat
  badBatches : List Nat
  deriving DecidableEq, Repr

def MramSt.init : MramSt :=
  { slots := [], commits := [], batches := [], jtail := 0, jhead := 0, badCommits := [], badBatches := [] }

/-- The role of a block (R136, R146, R147). -/
inductive BlkState where
  | free | open | closed | erasing | bad
  deriving DecidableEq, Repr

/-- An entry of the block table (R144): `reported` counts the Rake passes in a row that reported it, `doom` is the
cause for which it is marked bad once relocated (R147, R180), `cwRead` and `cwRetry` the codewords read from it since
its erase and those that reached read retry (R152), `queued` the reason for which Compost drains it or will, 0 for none (R148). -/
structure Blk where
  state : BlkState
  purpose : Nat
  group : Nat
  bsn : Nat
  erases : Nat
  reads : Nat
  age : Nat
  closedAt : Nat
  reported : Nat
  doom : Nat
  cwRead : Nat
  cwRetry : Nat
  queued : Nat
  deriving DecidableEq, Repr

def Blk.init : Blk :=
  { state := .free, purpose := 0, group := 0, bsn := 0, erases := 0, reads := 0, age := 0, closedAt := 0,
    reported := 0, doom := 0, cwRead := 0, cwRetry := 0, queued := 0 }

/-- A map segment's copy in flash (R144): the newest batch it includes, its mapped entries by IU, and the location of the first of its
codewords once the directory points to it. -/
structure SegCopy where
  bseq : Nat
  entries : List (Nat × Nat)
  loc : Option Nat
  deriving DecidableEq, Repr

/-- The part of the device metadata that the translation layer keeps (R144, R158): namespaces, the segment
directory (by `2^40 * nsid + segment`), the block table (by `8192 * die + block`), the good blocks at first boot of
each group, the next write sequence, the counters of the Almanac, and those of the SMART log (R157) by `8 * x + k` with
x the plot, or 1024 + NSID. -/
structure MetaSt where
  nss : List Ns
  dir : List (Nat × SegCopy)
  blocks : List (Nat × Blk)
  base : List (Nat × Nat)
  wseq : Nat
  bsns : List (Nat × Nat)
  media : List (Nat × Nat)
  smart : List (Nat × Nat)
  deriving DecidableEq, Repr

def MetaSt.init : MetaSt := { nss := [], dir := [], blocks := [], base := [], wseq := 1, bsns := [], media := [], smart := [] }

/-- What a command does with the blocks it reads: `copyTo` writes them to a cluster namespace from that logical block. -/
inductive ReadUse where
  | toHost | compareWith (data : List Nat) | verifyOnly | copyTo (sdlba : Nat)
  deriving DecidableEq, Repr

/-- A logical block of a read: its data, bad (poisoned or marked), still to come as block `sub` of the codeword at
`loc`, or block `sub` of a compressed IU whose first codeword is at `loc`, still to be decompressed. -/
inductive BlkSrc where
  | val (data : Nat)
  | bad
  | flash (loc sub : Nat)
  | packed (nsid iu loc sub : Nat)
  deriving DecidableEq, Repr

/-- A command that waits for codewords from flash; where the namespace has protection information, the command's fields of
it. -/
structure ReadJob where
  id : CmdId
  nsid : Nat
  use : ReadUse
  pi : Option PiCmd
  blocks : List BlkSrc
  deriving DecidableEq, Repr

/-- How a block is stored: good, marked uncorrectable (UMASK), or poisoned (R124). -/
inductive BlkMark where
  | good | marked | poisoned
  deriving DecidableEq, Repr

/-- What a piece of a command that changes the media does with its blocks: host data as (data, host metadata), zeros
written, deallocated, marked uncorrectable, or copied with (data, host metadata, mark). -/
inductive WriteKind where
  | data (blocks : List (Nat × Nat))
  | zeroes
  | deallocate
  | uncorrectable
  | copied (blocks : List (Nat × Nat × BlkMark))
  deriving DecidableEq, Repr

/-- A piece of such a command (R139): its first logical block, its length in blocks, what it does. -/
structure WPiece where
  slba : Nat
  nlb : Nat
  kind : WriteKind
  deriving DecidableEq, Repr

/-- A write held for want of slots or of a commit record (R141): the pieces still to commit. -/
structure HeldWrite where
  id : CmdId
  nsid : Nat
  pieces : List WPiece
  deriving DecidableEq, Repr

/-- A relocation queued for a block (R152): the block, the reason, whether it has started, and its valid pages then (R151). -/
structure Reloc where
  die : Nat
  block : Nat
  reason : Nat
  started : Bool
  valid : Nat
  deriving DecidableEq, Repr

/-- The translation layer in DRAM and firmware: the map entries by `2^40 * nsid + iu` (one not listed is
unmapped), the records of the open batch, the closed batches that wait for their commit, the dirty segments oldest
first, the reads in progress, the writes held, the Compost queue, the segments still to recover, the start of the
last checkpoint pass and the journal written since, the segments of the running pass, the
relocated codewords whose IU is not complete, the IUs that destage has compressed with the data of their codewords (none: stored
uncompressed, R253), the codewords that have come in for reads of compressed IUs (`none` poisoned, R255), the segment copies that are being programmed, and by group the codewords, in 1/65,536, that destage may still send
below URGENT (R151). -/
structure FtlSt where
  map : List (Nat × Nat)
  openRecs : List MapRec
  closed : List Batch
  dirty : List Nat
  reads : List ReadJob
  held : List HeldWrite
  compost : List Reloc
  recover : List Nat
  candidates : List (Nat × Nat)
  ckptAt : Nat
  ckptVol : Nat
  pass : List Nat
  relocBuf : List Cw
  packed : List (Nat × List Nat)
  packIn : List (Nat × Option Cw)
  copies : List (Nat × SegCopy)
  pace : List (Nat × Nat)
  deriving DecidableEq, Repr

def FtlSt.init : FtlSt :=
  { map := [], openRecs := [], closed := [], dirty := [], reads := [], held := [], compost := [], recover := [],
    candidates := [], ckptAt := 0, ckptVol := 0, pass := [], relocBuf := [], packed := [], packIn := [], copies := [], pace := [] }

/-- A block stripe (R162): its group and number, purpose, the block of each member (one not listed is a zero
position), the members that hold P and Q, whether it is open, and each data member's next page and the codewords
gathered for it. -/
structure BStripe where
  group : Nat
  bsn : Nat
  purpose : Nat
  blocks : List (Nat × Nat)
  pmem : Nat
  qmem : Option Nat
  isOpen : Bool
  closing : Bool
  next : List (Nat × Nat)
  fill : List (Nat × List Cw)
  deriving DecidableEq, Repr

/-- The state of a stripe-journal slot (R166). -/
inductive JState where
  | free | open | staged
  deriving DecidableEq, Repr

/-- A slot of the stripe journal (R166), with the parity of a staged row: the P page, then the Q page. -/
structure JSlot where
  index : Nat
  state : JState
  group : Nat
  bsn : Nat
  page : Nat
  done : Nat
  zero : Nat
  parityDone : Nat
  jseq : Nat
  parity : List (List Cw)
  deriving DecidableEq, Repr

/-- A record of the lost-stripe log (R177). -/
structure LostRec where
  ty : Nat
  cause : Nat
  group : Nat
  bsnFirst : Nat
  bsnLast : Nat
  page : Nat
  slot : Nat
  time : Nat
  stripes : Nat
  items : List (Nat × Nat × Nat × Nat)
  deriving DecidableEq, Repr

/-- A rebuild (R174): the group, its failed members with their walks done or not, the stripes lost in it. -/
structure Rebuild where
  group : Nat
  members : List (Nat × Bool)
  active : Bool
  lost : Nat
  left : List Nat
  deriving DecidableEq, Repr

/-- STRP: the block stripes, the stripe journal, the lost-stripe log (newest first) with its totals, the rebuilds in
order, the block stripes that Rake has checked in this pass, the journal slots that were not FREE at the last stop and wait for their
replay (R168). -/
structure StrpSt where
  stripes : List BStripe
  slots : List JSlot
  jseq : Nat
  lost : List LostRec
  lostTotal : Nat
  lostOverflow : Nat
  rebuilds : List Rebuild
  rakeDone : List (Nat × Nat)
  replay : List Nat
  deriving DecidableEq, Repr

def StrpSt.init : StrpSt :=
  { stripes := [], slots := [], jseq := 0, lost := [], lostTotal := 0, lostOverflow := 0, rebuilds := [],
    rakeDone := [], replay := [] }

/-- The Halward OTP (R390): the part code and the fused quadrants, the identifier, the image-key hashes by slot with
the burned and the revoked slots, the authority key, whether DUS is burned, the transitions burned (LCREC in order),
the anti-rollback counters, and the temperature suffix (R2: `true` for -E). -/
structure Fuses where
  part : Nat
  qfused : Nat
  chFused : Nat
  dieId : Nat
  imgKeys : List (Nat × Nat)
  burned : Nat
  revoked : Nat
  authKey : Option Nat
  dus : Bool
  lcrec : List Nat
  svnFw : Nat
  svnStream : Nat
  tempE : Bool
  deriving DecidableEq, Repr

/-- The fuses the model takes for a part delivered in FIELD (R392, R455): a KZ-7840 with no quadrant fused. -/
def Fuses.init : Fuses :=
  { part := 0x7840, qfused := 0, chFused := 0, dieId := 0, imgKeys := [(0, 0), (1, 1), (2, 2)], burned := 7,
    revoked := 0, authKey := some 0, dus := true, lcrec := [2, 3], svnFw := 0, svnStream := 0, tempE := false }

/-- How the last run stopped (R145, R149). -/
inductive StopKind where
  | clean | unclean
  deriving DecidableEq, Repr


/-- One copy of the boot-flash directory (R382); `none` for a copy that is not valid. -/
structure Directory where
  seq : Nat
  fwActive : Nat
  fwNext : Nat
  strActive : Nat
  deriving DecidableEq, Repr

/-- The boot flash (R382): the two directory copies, the certificate area, stream slots A and B, firmware slots 1
to 3. -/
structure BootFlash where
  dir0 : Option Directory
  dir1 : Option Directory
  cert : List Nat
  strA : Option Stream
  strB : Option Stream
  fw : List (Nat × FwImage)
  deriving DecidableEq, Repr

def BootFlash.init : BootFlash := { dir0 := none, dir1 := none, cert := [], strA := none, strB := none, fw := [] }

/-- A message held for a controller (R397): the request, or the response with its status and payload. -/
structure HalwMsg where
  plot : Nat
  code : Nat
  reqId : Nat
  ready : Bool
  status : Nat
  payload : List Nat
  deriving DecidableEq, Repr

/-- Halward and the loader (chapter 16): the stream and firmware in force, the pieces downloaded as (byte
offset, length, the object they are part of), the pending
graft, the messages held per controller, the nonce (by the number of its draw), a life-cycle change in progress
with its target and revocations, whether an authorised entry to TEST waits for its clean stop, whether the anti-rollback
counters have been raised. -/
structure BootSt where
  stream : Option Stream
  firmware : Option FwImage
  fwRunning : Nat
  download : List (Nat × Nat × Object)
  graft : Option Graft
  msgs : List HalwMsg
  nonce : Nat
  lcChange : Option (Nat × Nat)
  testEntry : Bool
  svnDone : Bool
  deriving DecidableEq, Repr

def BootSt.init : BootSt :=
  { stream := none, firmware := none, fwRunning := 0, download := [], graft := none, msgs := [], nonce := 0,
    lcChange := none, testEntry := false, svnDone := false }

/-- The device metadata in MRAM that is no part of a chapter's own record (R39): the boot count (R405), the retired
quadrants and channels, the failed dies (R119), how the last run stopped and how often, the sanitize and the
life-cycle change that are pending, the read-only condition (R156), the trip flag (R447), the saved features, the
Almanac's SCOPE and RETIRE records newest first, its early-warning items, the last recovery, the last sanitize with the kind that
was commanded and whether no data has been written since it erased all data, the self-test log newest first as (kind, result, unit, power-on
hours), the power cycles, the minutes powered and those with I/O outstanding, how often and for how
many milliseconds each host-controlled thermal threshold lowered power, the time above WCTEMP and CCTEMP and the temperature history. -/
structure NvSt where
  bootCount : Nat
  retiredQ : Nat
  retiredCh : Nat
  failedDies : List Nat
  stop : StopKind
  cleanStops : Nat
  uncleanStops : Nat
  sanitize : Option Nat
  lcPending : Bool
  roCond : Bool
  tripped : Bool
  saved : List (Nat × Features)
  savedTmax : Option Nat
  savedEw : Option (Nat × Nat × Nat × Nat)
  updates : Nat
  updatedAt : Nat
  scopes : List (Nat × Nat × Nat × Nat)
  retires : List (Nat × Nat × Nat × Nat)
  ewCount : Nat
  ewLast : Nat
  ewTime : Nat
  recMs : Nat
  recRec : Nat
  recBlk : Nat
  recPts : Nat
  sanLast : Nat
  sanKind : Nat
  gde : Bool
  selfLog : List (Nat × Nat × Nat × Nat)
  powerCycles : Nat
  onMin : Nat
  busyMin : Nat
  tmtCount : Nat × Nat
  tmtMs : Nat × Nat
  warnMin : Nat
  critMin : Nat
  tempHist : List (Nat × Nat)
  tmax : Int
  tmin : Int
  throtMin : Nat
  readable : Bool
  deriving DecidableEq, Repr

def NvSt.init : NvSt :=
  { bootCount := 0, retiredQ := 0, retiredCh := 0, failedDies := [], stop := .clean, cleanStops := 0,
    uncleanStops := 0, sanitize := none, lcPending := false, roCond := false, tripped := false,
    saved := [], savedTmax := none, savedEw := none, updates := 0, updatedAt := 0, scopes := [], retires := [],
    ewCount := 0, ewLast := 0, ewTime := 0, recMs := 0, recRec := 0, recBlk := 0, recPts := 0, sanLast := 0, sanKind := 0, gde := false, selfLog := [],
    powerCycles := 0, onMin := 0, busyMin := 0, tmtCount := (0, 0), tmtMs := (0, 0), warnMin := 0, critMin := 0, tempHist := [], tmax := -128, tmin := 127, throtMin := 0,
    readable := true }

/-- Who holds an engine context or pins a key slot: a Trellis job slot, a digest session, an XTS lane by local channel
and namespace, an internal request. -/
inductive EngUser where
  | job (slot : Nat)
  | session (s : Nat)
  | lane (ch nsid : Nat)
  | internal (tag : Nat)
  deriving DecidableEq, Repr

/-- An engine context in use (R239, R263, R290): its number, its plot (0x3FF for steward and internal work), urgency
class, holder, the pipe it runs on (Churn: 0 CHURN_C, 1 CHURN_D), whether it has work and credit, the bytes processed since
its last grant. -/
structure EngCtx where
  id : Nat
  plot : Nat
  cls : Nat
  user : EngUser
  pipe : Nat
  ready : Bool
  bytes : Nat
  deriving DecidableEq, Repr

/-- One engine of one quadrant: its contexts, the context each pipe runs, the plots' virtual times (R93), the internal
requests that wait for a context in order (user, class, pipe), and the ages of the requesters (R24). -/
structure EngSt where
  ctxs : List EngCtx
  running : List (Nat × Nat)
  vt : List (Nat × Nat)
  /-- Bytes that contexts now gone have processed for a plot since its last grant (R93). -/
  owed : List (Nat × Nat)
  waits : List (EngUser × Nat × Nat)
  arb : Arb
  deriving DecidableEq, Repr

def EngSt.init : EngSt := { ctxs := [], running := [], vt := [], owed := [], waits := [], arb := ⟨[], []⟩ }

/-- A context label (R277). -/
structure Label where
  purpose : Nat
  plot : Nat
  nsid : Nat
  epoch : Nat
  ulabel : Nat
  deriving DecidableEq, Repr

/-- A key slot (R281): its number, the label and ERA of the key it holds, who pins it, when it was last used, and the GCM
counter lease that it holds as (next value, one past the last) (R284). -/
structure KeySlot where
  idx : Nat
  label : Label
  era : Nat
  pins : List EngUser
  used : Nat
  lease : Option (Nat × Nat)
  deriving DecidableEq, Repr

/-- An entry of the GCM counter table (R284). -/
structure GcmEnt where
  plot : Nat
  ulabel : Nat
  epoch : Nat
  next : Nat
  deriving DecidableEq, Repr

/-- A digest register session beside its registers (R293 to R295): the message bytes taken, whether poison was written,
when it was last written, the key slot of an HMAC. -/
structure DgstSes where
  msg : List Byte
  poisoned : Bool
  at_ : Nat
  key : Option Nat
  written : Bool
  deriving DecidableEq, Repr

def DgstSes.init : DgstSes := { msg := [], poisoned := false, at_ := 0, key := none, written := false }

/-- The engines, by `4 * kind + quadrant` with kind 0 Cipher, 1 Digest, 2 Churn, 3 Sieve; the key slots by quadrant, the
count of key uses, the digest sessions by `8 * quadrant + session`, the derived key of an internal request. -/
structure CryptSt where
  engines : List (Nat × EngSt)
  keys : List (Nat × List KeySlot)
  uses : Nat
  sessions : List (Nat × DgstSes)
  deriving DecidableEq, Repr

def CryptSt.init : CryptSt := { engines := [], keys := [], uses := 0, sessions := [] }

/-- A loaded automaton image (R260): its program index, owner and the generation it was loaded under, its patterns in
order, the DFA tiles and bytes it needs, its bytes, whether it is active. -/
structure Image where
  index : Nat
  plot : Nat
  gen : Nat
  pats : List Rx
  dtiles : Nat
  nbytes : Nat
  image : List Byte
  active : Bool
  deriving DecidableEq, Repr

/-- A valid CAM entry (R266). -/
structure CamEnt where
  value : Nat
  mask : Nat
  result : Nat
  deriving DecidableEq, Repr

/-- One CAM lookup's answer (R266). -/
structure CamHit where
  index : Nat
  result : Nat
  count : Nat
  multi : Bool
  hit : Bool
  poisoned : Bool
  deriving DecidableEq, Repr

/-- One quadrant's Sieve beside its registers: the program index of the image in each resident slot with its tiles, the
CAM's valid entries by index, the status and index of the register update that runs, the tables whose EN is to clear
once their jobs end, the last search's answer. -/
structure SieveSt where
  resident : List (Nat × Nat × Nat)
  cam : List (Nat × CamEnt)
  upd : Option (Nat × Nat)
  closing : List Nat
  reply : Option CamHit
  deriving DecidableEq, Repr

def SieveSt.init : SieveSt := { resident := [], cam := [], upd := none, closing := [], reply := none }

/-- A job status (R221). -/
inductive Js where
  | ok | shortInput | longInput | outOfSpace | noGain | badCode | badDistance | lengthOverrun | authFail | poison
  | preempted | epochExhausted | genStale | badDesc | timeout | matchLimit | badHeader | badChecksum | fenced
  | recordLong | coreHalt | coreTrap
  deriving DecidableEq, Repr

/-- A Skim program, decoded (R226 to R229): columns as (offset, width, type), predicates as (column, operator, LEN, A, B),
terms as (CARE, VALUE). -/
structure SkimProg where
  mode : Nat
  align : Nat
  reclen : Nat
  p4 : Nat
  p5 : Nat
  ncols : Nat
  npred : Nat
  nterms : Nat
  projmode : Nat
  cols : List (Nat × Nat × Nat)
  preds : List (Nat × Nat × Nat × Nat × Nat)
  terms : List (Nat × Nat)
  colmask : Nat
  recref : Bool
  deriving DecidableEq, Repr

/-- A batch of output bytes that waits to be carried (R230): the input offset of its unit, its bytes, the 64-byte groups
of it that are poisoned, untrusted. -/
structure OutBatch where
  unitOff : Nat
  bytes : List Byte
  poison : List Nat
  untrusted : Bool
  fresh : Bool
  deriving DecidableEq, Repr

/-- A job descriptor, decoded (R217). -/
structure JobDesc where
  subseq : Nat
  pid : Nat
  prog : Nat
  resume : Bool
  late : Bool
  urg : Nat
  plot : Nat
  gen : Nat
  tag : Nat
  nsid : Nat
  instart : Nat
  inlen : Nat
  outoff : Nat
  outcap : Nat
  param : Nat
  paramlen : Nat
  token : Nat
  timeout : Nat
  flagsOk : Bool
  deriving DecidableEq, Repr

/-- The counts of a result summary (R234). -/
structure Summary where
  seen : Nat
  passed : Nat
  badFields : Nat
  shorts : Nat
  poisoned : Nat
  longs : Nat
  unmapped : Nat
  deriving DecidableEq, Repr

def Summary.init : Summary :=
  { seen := 0, passed := 0, badFields := 0, shorts := 0, poisoned := 0, longs := 0, unmapped := 0 }

/-- What the transform stage of a fixed program (CHURN_C, CHURN_D, CIPH or DGST) holds of its job: the input that it has got, each byte with
whether it is poisoned, whether LAST has come, the output bytes it has sent, the counter values its GCM messages have taken (R283), and the
decrypted messages whose tag has been checked (R288). -/
structure Feed where
  inp : List (BitVec 8 × Bool)
  ended : Bool
  sent : Nat
  nonces : List Nat
  checked : Nat
  deriving DecidableEq, Repr

def Feed.init : Feed := { inp := [], ended := false, sent := 0, nonces := [], checked := 0 }

/-- A job that has started (R215): its slot, ring, descriptor, template words, when it started, the conditions that have
occurred, the curds of credit used on each stage's outgoing edge, the stages suspended for credit, its Skim program and
the Skim unit that holds its context, the batches to carry and those written as (unit offset, SLM offset of the header),
the input units filtered at or above `low`, below which all are, its counts, the input and output so far, AUX, whether LAST has reached the sink, the parameter bytes, the IMAGE, COL,
EMIT and MAXREPORTS of a regex scan with the reports made, the engine that had no context as C4h names it (R81), the
generation of the ring it was posted on, and what its transform stage holds. -/
structure Job where
  slot : Nat
  ring : Nat
  desc : JobDesc
  words : List Nat
  started : Nat
  conds : List Js
  used : List (Nat × Nat)
  stalled : List Nat
  skim : Option SkimProg
  unit : Option Nat
  batches : List OutBatch
  wrote : List (Nat × Nat)
  units : List Nat
  low : Nat
  sum : Summary
  inBytes : Nat
  outBytes : Nat
  excess : Nat
  token : Option Nat
  untrustedAt : Option Nat
  drained : Bool
  reports : Nat
  param : List Byte
  resumed : Bool
  voided : Bool
  tainted : Bool
  eng : Nat
  sgen : Nat
  feed : Feed
  deriving DecidableEq, Repr

/-- A program command that HIF serves through job rings: its tag, the command, the parameter block, the jobs still to
end, the first status in R221's order so far, the output and input bytes, AUX of that status, the engine of C4h, the key
of C5h, the summed counts and SEEN, the generation it was issued under, the input units that its jobs have filtered at or above `low`, below
which all are, and the last batches written by jobs that have ended. -/
structure ProgCmd where
  tag : Nat
  id : CmdId
  param : List Byte
  left : Nat
  js : Js
  outBytes : Nat
  inBytes : Nat
  aux : Nat
  engine : Nat
  label : Nat
  sum : Summary
  seen : Nat
  gen : Nat
  units : List Nat
  low : Nat
  wrote : List (Nat × Nat)
  deriving DecidableEq, Repr

/-- A memory range set (R454): its identifier, owner, the generation it was created under, its ranges as (offset,
length). -/
structure RangeSet where
  id : Nat
  plot : Nat
  gen : Nat
  ranges : List (Nat × Nat)
  deriving DecidableEq, Repr

/-- The Trellis: the segment in force in each quadrant, one that waits to be swapped in, the jobs by quadrant, the posted
descriptors that wait as (ring, descriptor), the ring arbiters' ages, the jobs of each Skim unit by `8 * q + u`, the Sieve
halves by quadrant, the loaded images, HIF's command table, the range sets, the 16 MiB-unit SLM contents by plot,
device DRAM, and by quadrant the curds that its XQ_OUT has sent and no XQ_IN has taken. -/
structure TrelSt where
  segs : List (Nat × Segment)
  swap : List (Nat × Segment)
  jobs : List (Nat × List Job)
  waits : List (Nat × List (Nat × JobDesc))
  arbs : List (Nat × Arb)
  skimCtx : List (Nat × List Nat)
  sieve : List (Nat × SieveSt)
  images : List Image
  cmds : List ProgCmd
  sets : List RangeSet
  slm : List (Nat × Mem)
  dram : Mem
  xq : List (Nat × List CurdIn)
  deriving DecidableEq, Repr

def TrelSt.init : TrelSt :=
  { segs := [], swap := [], jobs := [], waits := [], arbs := [], skimCtx := [], sieve := [], images := [], cmds := [],
    sets := [], slm := [], dram := Mem.init, xq := [] }

/-- A request in a subchannel's read or write queue (R359): its number in arrival order, the channel-local byte address
of its 64-byte burst, whether it writes, its owner ID, for a write its 64 data bytes (little-endian), the bytes it writes
whether its data carries poison, how long it has waited in tenths of a microsecond, and whether it has been throttled. -/
structure DReq where
  id : Nat
  addr : Nat
  write : Bool
  owner : Nat
  data : Nat
  mask : Nat
  poison : Bool
  waited : Nat
  thr : Bool
  deriving DecidableEq, Repr

/-- One bank of a rank of a subchannel (R358, R360): the open row, the row last open, the 2-bit predictor, and its
rolling activation count (R361). -/
structure DBank where
  row : Option Nat
  last : Option Nat
  ctr : Nat
  raa : Nat
  deriving DecidableEq, Repr

def DBank.init : DBank := { row := none, last := none, ctr := 0, raa := 0 }

/-- One subchannel: its queues, whether writes drain, the request ages of R24. -/
structure DSub where
  rq : List DReq
  wq : List DReq
  draining : Bool
  arb : Arb
  deriving DecidableEq, Repr

def DSub.init : DSub := { rq := [], wq := [], draining := false, arb := ⟨[], []⟩ }

/-- A read that has been issued and whose burst is still to be decoded: its number, address, the subchannel, and the
queued writes it takes bytes from. -/
structure DInflight where
  id : Nat
  addr : Nat
  sub : Nat
  over_ : List DReq
  deriving DecidableEq, Repr

/-- A delivered read: its number, its 64 bytes, poisoned. -/
structure DOut where
  id : Nat
  data : Nat
  poison : Bool
  deriving DecidableEq, Repr

/-- A command in the retry buffer (R364). -/
structure DCmd where
  sub : Nat
  req : DReq
  deriving DecidableEq, Repr

/-- One memory controller beside its registers: the channel's contents by channel-local address, the two subchannels,
the banks by `64 * (2 * rank + sub) + 4 * group + bank`, the activation counts of the window as (bank, owner, count), the
owners already reported in it, the refreshes postponed, the cool polls in a row, the retry buffer (oldest first), reads
issued and delivered, the corrections of each device as (subchannel, device, time), a frequency change that waits, each
rank's DQS drift since training in 1/64 of a unit interval, the scrub position and when the pass began, the devices'
Refresh Management threshold. -/
structure MemcSt where
  mem : Mem
  subs : List (Nat × DSub)
  banks : List (Nat × DBank)
  acts : List (Nat × Nat × Nat)
  reported : List Nat
  postponed : Nat
  cool : Nat
  retry : List DCmd
  inflight : List DInflight
  out : List DOut
  fixes : List (Nat × Nat × Nat)
  goWaits : Bool
  drift : List (Nat × Nat)
  retrains : Nat
  scrubAt : Nat
  rfmAt : Nat
  deriving DecidableEq, Repr

def MemcSt.init : MemcSt :=
  { mem := Mem.init, subs := [], banks := [], acts := [], reported := [], postponed := 0, cool := 0, retry := [],
    inflight := [], out := [], fixes := [], goWaits := false, drift := [], retrains := 0, scrubAt := 0, rfmAt := 0 }

/-- An entry of a correctable-error table (R373). -/
structure EccEnt where
  unit : Nat
  quad : Nat
  inst : Nat
  addr : Nat
  count : Nat
  first : Nat
  last : Nat
  deriving DecidableEq, Repr

/-- The three correctable-error tables (R372), by class 0 SRAM, 1 DRAM, 2 MRAM: entries, corrections not entered,
whether the class has reported this filling. -/
structure EccSt where
  tabs : List (Nat × List EccEnt)
  ovf : List (Nat × Nat)
  told : List Nat
  deriving DecidableEq, Repr

def EccSt.init : EccSt := { tabs := [], ovf := [], told := [] }

/-- A request at the Pail (R377): its port, the pool where it contends now, the pool it named, its owner, whether it is
response-class. -/
structure PReq where
  port : Nat
  pool : Nat
  first : Nat
  owner : Nat
  response : Bool
  deriving DecidableEq, Repr

/-- The Pail beside its registers: the tags that are not FREE as (handle, the tag of R375), each pool's handle
cache, the requests that wait, each pool's rotation and ages, the replies by port in order (R375 to R378), and the
buffers of the Pail store and other SRAM groups that hold poison, as (unit, quadrant, instance, group). -/
structure PailSt where
  tags : List (Nat × Nat)
  cache : List (Nat × Nat)
  waiting : List PReq
  next : List (Nat × Nat)
  arbs : List (Nat × Arb)
  replies : List (Nat × Nat)
  sramPoison : List (Nat × Nat × Nat × Nat)
  deriving DecidableEq, Repr

def PailSt.init : PailSt :=
  { tags := [], cache := [], waiting := [], next := [], arbs := [], replies := [], sramPoison := [] }

/-- A VZ64 core beside its registers in control space (R299, R300): the general registers, pc, the special registers, the
load delay (the load's rd and the value it held before, R308), whether it waits in WFE, whether a quantum end waits for an instruction boundary at P (R308), whether the debugger has halted it and
lets it step (R422), its TCM, and the tag of the program instance on it. -/
structure CoreSt where
  g : Vector W64 32
  pc : W64
  fl : W64
  rc : W64
  ctl : W64
  pstat : W64
  tpc : W64
  tfl : W64
  tcause : W64
  tval : W64
  tbase : W64
  scratch : W64
  delay : Option (Nat × W64)
  waiting : Bool
  inRep : Bool
  preempt : Bool
  halted : Bool
  stepping : Bool
  tcm : Mem
  prog : Option Nat
  deriving DecidableEq, Repr

/-- A core after a core reset that starts at `pc` (R300, R333). -/
def CoreSt.reset (pc : Nat) : CoreSt :=
  { g := Vector.replicate 32 0#64, pc := BitVec.ofNat 64 pc, fl := 0#64, rc := 0#64, ctl := 0#64, pstat := 1#64,
    tpc := 0#64, tfl := 0#64, tcause := 0#64, tval := 0#64, tbase := 0#64, scratch := 0#64, delay := none,
    waiting := false, inRep := false, preempt := false, halted := false, stepping := false, tcm := Mem.init, prog := none }

/-- A launch block (R337, R338), decoded. -/
structure Launch where
  pver : Nat
  flags : Nat
  urg : Nat
  quad : Nat
  nsid : Nat
  instart : Nat
  inlen : Nat
  outoff : Nat
  outcap : Nat
  inpid : Nat
  outpid : Nat
  rings : Nat
  log2e : Nat
  timeout : Nat
  argoff : Nat
  arglen : Nat
  recoff : Nat
  ringoff : Nat
  zeros : Bool
  deriving DecidableEq, Repr

/-- A loaded program (R336, R337): its index, plot, the generation it was loaded under, its image, active. -/
structure LoadedProg where
  index : Nat
  plot : Nat
  gen : Nat
  image : List Byte
  active : Bool
  deriving DecidableEq, Repr

/-- What a switch saves of a program (R346): g registers, pc, rc, fl, ctl and each W segment as (address, bytes,
poisoned groups). -/
structure Saved where
  g : Vector W64 32
  pc : W64
  rc : W64
  fl : W64
  ctl : W64
  segs : List (Nat × List Byte × List Nat)
  deriving DecidableEq, Repr

/-- How a program ended (R351, R352): JS, CAUSE, byte 2 of the result record, core k, and the three doublewords. -/
structure ProgEnd where
  js : Js
  cause : Nat
  bits : Nat
  core : Nat
  val : Nat
  pc : Nat
  fl : Nat
  deriving DecidableEq, Repr

/-- An instance of a downloadable program (R339 to R351): the tag of its command, what it runs for, its launch block, the
image, its rings, whether it has started and when, the core it is on and since when, its saved state, the delegated-trap record (R350),
whether it waits in WFE (R347), core time in microseconds and instructions retired, the stream ports (R340 to R342): the
counters, the delivered curds by their number, the output window, the flags, whether the part posts the LAST curd itself (R343), the curds of each direction's job; and its
end with the input curds discarded then. -/
structure ProgInst where
  tag : Nat
  id : CmdId
  plot : Nat
  gen : Nat
  index : Nat
  quad : Nat
  launch : Launch
  image : List Byte
  rings : List Nat
  started : Option Nat
  core : Option Nat
  onAt : Nat
  saved : Option Saved
  inTrap : Bool
  waiting : Bool
  usedUs : Nat
  retired : Nat
  pinHead : Nat
  pinTail : Nat
  poutTail : Nat
  poutHead : Nat
  inCurds : List (Nat × CurdIn)
  out : Mem
  inLast : Bool
  outLast : Bool
  autoLast : Bool
  untr : Bool
  outOff : Nat
  inSlot : Option Nat
  outSlot : Option Nat
  ended : Option ProgEnd
  discarded : Nat
  deriving DecidableEq, Repr

/-- The cores and programs: core `8 * q + k` for k = 0 to 7 and 32 for the security core; the loaded programs; the
instances; each quadrant's field-core virtual times by `512 * q + plot` (R94). -/
structure CoreSys where
  cores : List (Nat × CoreSt)
  progs : List LoadedProg
  insts : List ProgInst
  vt : List (Nat × Nat)
  /-- The plots' ages at the grants of the field cores of each quadrant (R24). -/
  arbs : List (Nat × Arb)
  deriving DecidableEq, Repr

def CoreSys.init : CoreSys := { cores := [], progs := [], insts := [], vt := [], arbs := [] }

/-- What a cluster message is for (chapter 8). -/
inductive CKind where
  | read | readLost | result | reserve | reserved | refused | create | request | lock | prepare | prepareDelta | prepared
  | refusal | mirror | mirrorAck | commit | committed | abort | aborted | done | query | anchor | resync | resyncDone
  deriving DecidableEq, Repr

/-- A message to another member: its destination, purpose, the tag a request's answer carries back (R14, R23), the namespace, stripe and transaction it concerns, the lead, and
chunk contents or other values as (number, value). -/
structure CMsg where
  dst : Nat
  kind : CKind
  tag : Nat := 0
  nsid : Nat
  stripe : Nat
  tseq : Nat
  lead : Nat
  vals : List (Nat × Nat)
  deriving DecidableEq, Repr

/-- A frame handed to a link's transmitter: TYPE, SEQ, ACK, its message (`none` for one that only passes through, held as a
number in `raw`), its virtual channel, the flits of credit it returns and their channel (R183), and whether
a CORRUPT injector has changed it on the wire (R205). -/
structure GFrame where
  ty : Nat
  seq : Nat
  ack : Nat
  msg : Option CMsg
  raw : Nat
  poison : Nat
  vc : Nat
  cred : Nat
  credVc : Nat
  hurt : Bool := false
  deriving DecidableEq, Repr

/-- One Gorwasta link beside its registers (R182 to R187): the next SEQ to send and to accept, the frames kept for replay,
the resends of the oldest, a NAK outstanding, hunting, the acknowledgements held back, retrainings failed in a row, whether
it retrains, what the peer's TRAIN frame said (member, link, cluster ID, roster hash), the flits of credit in use by VC (R21), the flits
freed here and not yet returned by VC, the messages that wait for credit, a sequence number or the link as (VC, message, raw, poison), the
frames sent and not yet removed by the wire, NAKs sent. -/
structure GLink where
  next : Nat
  expect : Nat
  kept : List GFrame
  resends : Nat
  nak : Bool
  hunting : Bool
  heldAck : Nat
  fails : Nat
  retrain : Bool
  train : Option (Nat × Nat × Nat × Nat)
  credit : List (Nat × Nat)
  owe : List (Nat × Nat)
  queue : List (Nat × Option CMsg × Nat × Nat)
  wire : List GFrame
  naks : Nat
  deriving DecidableEq, Repr

def GLink.init : GLink :=
  { next := 0, expect := 0, kept := [], resends := 0, nak := false, hunting := false, heldAck := 0, fails := 0,
    retrain := false, train := none, credit := [], owe := [], queue := [], wire := [], naks := 0 }

/-- What the newest heartbeat of a member said (R191). -/
structure Heard where
  links : Nat
  view : Nat
  viewset : Nat
  anchor : Nat
  aepoch : Nat
  mode : Nat
  deriving DecidableEq, Repr

/-- A part of a cluster access: stripe, chunk, block of the chunk, and the block's data once it is known (`bad` for lost). -/
structure CPart where
  stripe : Nat
  chunk : Nat
  blk : Nat
  data : Option Nat
  bad : Bool
  deriving DecidableEq, Repr

/-- A host read of a cluster namespace that waits for chunks (R197): its parts are the space reserved for the whole answer (R22), and its tag
is what the answers carry (R14). -/
structure CRead where
  id : CmdId
  tag : Nat
  nsid : Nat
  use : ReadUse
  pi : Option PiCmd
  parts : List CPart
  deriving DecidableEq, Repr

/-- A transaction request of a host write (R198): its sequence, stripes and parts. -/
structure CReq where
  tseq : Nat
  lead : Nat
  peer : Option Nat
  stripe : Nat
  parts : List CPart
  deriving DecidableEq, Repr

/-- A host write of a cluster namespace that waits for its transactions. -/
structure CWrite where
  id : CmdId
  nsid : Nat
  reqs : List CReq
  deriving DecidableEq, Repr

/-- An owner's progress in a transaction (R198): its parts, the old content of chunks whose member is absent, the data
chunks still to prepare, whether parity is prepared, whether the participant is prepared, the members still to commit. -/
structure CTx where
  tseq : Nat
  lead : Nat
  nsid : Nat
  stripe : Nat
  peer : Option Nat
  recv : Nat
  parts : List CPart
  olds : List (Nat × Nat)
  granted : Bool
  need : List Nat
  delta : List (Nat × Nat)
  qWait : Bool
  ready : Bool
  peerReady : Bool
  deriving DecidableEq, Repr

/-- Why an owner reads k chunks of a stripe: to rebuild chunk `j` for the read `tag` of member `src` (R197), to resynchronise the stripe (R203),
for the old content of a transaction's absent chunks (R198 step 2, R202). -/
inductive GWhy where
  | rebuild (src tag j : Nat)
  | resync
  | lock (lead tseq : Nat)
  deriving DecidableEq, Repr

/-- Chunks of a stripe being read (R197): the tag of its requests, the chunks asked for, those that have come with their content, and those that
may still be asked for. -/
structure Gather where
  tag : Nat
  nsid : Nat
  stripe : Nat
  why : GWhy
  asked : List Nat
  got : List (Nat × Nat)
  left : List Nat
  deriving DecidableEq, Repr

/-- The cluster's working state: the links, the heartbeat counters, when each member's counter last advanced and what it
said, whether the roster mismatches, the member rejoins, the owners that have finished for it, the mirror holder in use, the
host reads and writes that wait, the transactions owned in lock order, the reserved shares as (NSID, NSZE, geometry, LBAF,
IU), the messages delivered by links as (link, message number, poison), those that no route takes (R190), those of this member to itself, which no link
carries, the next tag, the stripes of which chunks are being read, the regions still to resynchronise. -/
structure GwlSt where
  links : List (Nat × GLink)
  hbc : List (Nat × Nat)
  heardAt : List (Nat × Nat)
  heard : List (Nat × Heard)
  mismatch : Bool
  rejoining : Bool
  finished : List Nat
  mirrorAt : Option Nat
  reads : List CRead
  writes : List CWrite
  txs : List CTx
  reserved : List (Nat × Nat × Nat × Nat × Nat)
  inbox : List (Nat × Nat × Nat)
  unsent : List CMsg
  toSelf : List CMsg
  nextTag : Nat
  gathers : List Gather
  resync : List Nat
  deriving DecidableEq, Repr

def GwlSt.init : GwlSt :=
  { links := [], hbc := [], heardAt := [], heard := [], mismatch := false, rejoining := false, finished := [],
    mirrorAt := none, reads := [], writes := [], txs := [], reserved := [], inbox := [], unsent := [], toSelf := [], nextTag := 0, gathers := [], resync := [] }

/-- A prepared chunk (KIND 0x5): the transaction, the chunk and its new content. -/
structure CPrep where
  lead : Nat
  tseq : Nat
  nsid : Nat
  stripe : Nat
  chunk : Nat
  data : Nat
  deriving DecidableEq, Repr

/-- The cluster state that outlives a reset (R39, R199, R201 to R204): chunk contents by (`16 * (2^40 * nsid + stripe) +
chunk`), chunks marked uncorrectable, the prepared chunks, the journal's own and mirrored entries, the dirty regions, the
cursor of the resynchronisation as (NSID, stripe, members served), the anchor and epoch of an accepted token, the next transaction sequence, the tokens accepted, the lost stripes newest first as
(NSID, stripe, time, owner, mirror), their count and those not listed, whether the member was fenced. -/
structure CluNv where
  chunks : List (Nat × Nat)
  marked : List Nat
  preps : List CPrep
  own : List CEntry
  mirror : List CEntry
  dirty : List Nat
  cursor : List (Nat × Nat × Nat)
  anchor : Option (Nat × Nat)
  tseq : Nat
  tokens : Nat
  lost : List (Nat × Nat × Nat × Nat × Nat)
  lostCount : Nat
  overflow : Nat
  deriving DecidableEq, Repr

def CluNv.init : CluNv :=
  { chunks := [], marked := [], preps := [], own := [], mirror := [], dirty := [], cursor := [], anchor := none, tseq := 0, tokens := 0,
    lost := [], lostCount := 0, overflow := 0 }

/-- A record of the event journal (R406). `plot` is 0xFFFF for an event that concerns no plot. -/
structure JRec where
  seq : Nat
  time : Nat
  event : Nat
  plot : Nat
  mode : Nat
  flags : Nat
  suppressed : Nat
  args : List Nat
  deriving DecidableEq, Repr

/-- The rate limit state of one event and plot (R401): when its last record was written and how many occurrences
have been suppressed since. -/
structure RateRec where
  event : Nat
  key : Nat
  last : Nat
  suppressed : Nat
  deriving DecidableEq, Repr

/-- The EVT and PMU blocks: their registers, the journal (oldest record first), the rate limits, whether the host
watermark event has been sent (R409), the PMU counters whose wrap is still to be raised as an event (R415). -/
structure EvtSt where
  regs : RegFile
  journal : List JRec
  rates : List RateRec
  wmSent : Bool
  ovf : List Nat
  deriving DecidableEq, Repr

def EvtSt.init : EvtSt := { regs := [], journal := [], rates := [], wmSent := false, ovf := [] }

/-- The TAP's instructions (R420). -/
inductive TapIr where
  | extest | sample | idcode | clamp | highz | biststat | scan | dbg | bypass
  deriving DecidableEq, Repr

/-- Test access and the console: the TAP's instruction, the boundary register's preloaded cells, whether the
pins are driven from it or released, what was last shifted out, whether logic scan has stopped the part, the console
bytes passed to firmware and the number discarded (R420 to R423). -/
structure TestSt where
  ir : TapIr
  boundary : Nat
  pinsDriven : Bool
  pinsReleased : Bool
  captured : Nat
  shiftOut : Nat
  shiftBits : Nat
  scanStopped : Bool
  dbgActive : Bool
  dbgReply : Nat
  uartRx : List Nat
  uartDiscarded : Nat
  deriving DecidableEq, Repr

def TestSt.init : TestSt :=
  { ir := .idcode, boundary := 0, pinsDriven := false, pinsReleased := false, captured := 0, shiftOut := 0,
    shiftBits := 0, scanStopped := false, dbgActive := false, dbgReply := 0, uartRx := [], uartDiscarded := 0 }

/-- The LFSR of one injector (R419). -/
structure Lfsr where
  value : Nat
  deriving DecidableEq, Repr

/-- Everything of the part but the queue of waiting commands. -/
structure Dev where
  /-- The pins' levels. -/
  pins : Pins
  /-- Mode control and the start-up, stop and test sequences (chapter 2). -/
  mode : ModeSt
  /-- Every control-space register outside EVT and PMU. -/
  regs : RegFile
  /-- The model's own: the number of free values drawn so far (each draw reads `Config` at this number and adds one). -/
  free : Nat
  /-- The host interface (chapter 3). -/
  host : HostSt
  /-- The plots' mailboxes and pending SLM changes (chapter 4). -/
  plot : PlotSt
  /-- The channel islands (chapter 5). -/
  media : MediaSt
  /-- The contents of the NAND dies. -/
  flash : FlashSt
  /-- The MRAM data regions (R39). -/
  mram : MramSt
  /-- The translation layer's device metadata. -/
  md : MetaSt
  /-- The translation layer's working state (chapter 6). -/
  ftl : FtlSt
  /-- Die-group parity: stripes, journal, rebuild, patrol (chapter 7). -/
  strp : StrpSt
  /-- The fuses (chapter 16). -/
  fuses : Fuses
  /-- The xSPI boot flash. -/
  bootFlash : BootFlash
  /-- Halward and the stream loader (chapter 16). -/
  boot : BootSt
  /-- The device metadata in MRAM. -/
  nv : NvSt
  /-- The engines' contexts, key slots and digest sessions (chapters 10 to 12). -/
  crypt : CryptSt
  /-- The Trellis, Skim and Sieve, SLM and device DRAM (chapters 9, 11, 4). -/
  trel : TrelSt
  /-- Device metadata: ERA of each plot (R279). -/
  eras : List (Nat × Nat)
  /-- Device metadata: the media epoch of each NSID (R282). -/
  epochs : List (Nat × Nat)
  /-- Device metadata: NSIDs whose media key is spent (R282). -/
  spent : List Nat
  /-- Device metadata: the GCM counter table (R284). -/
  gcm : List GcmEnt
  /-- The memory controllers by quadrant (chapter 15). -/
  memc : List (Nat × MemcSt)
  /-- The correctable-error tables. -/
  ecc : EccSt
  /-- The Pail. -/
  pail : PailSt
  /-- An uncorrectable error in the Halward island or in device-level control state (R370): a fault of the die, which a reset does not mend. -/
  sramBad : Bool
  /-- Device marks in device metadata by `2 * q + subchannel` (R367). -/
  marks : List (Nat × Nat)
  /-- The VZ64 cores and the downloadable programs (chapters 13 and 14). -/
  core : CoreSys
  /-- The Gorwasta links and the cluster protocol (chapter 8). -/
  gwl : GwlSt
  /-- The cluster state in MRAM and on flash. -/
  clu : CluNv
  /-- Events, journal and performance counters (chapter 17). -/
  evt : EvtSt
  /-- JTAG, debug port and console (chapter 17). -/
  test : TestSt
  /-- The 16 injectors' LFSRs (R419). -/
  finj : List Lfsr
  deriving DecidableEq, Repr

/-- Every record at the value it has right after a part reset, before what outlives a reset is put back. -/
def Dev.init : Dev :=
  { pins := Pins.init,
    mode := ModeSt.init,
    regs := [],
    free := 0,
    host := HostSt.init,
    plot := PlotSt.init,
    media := MediaSt.init,
    flash := FlashSt.init,
    mram := MramSt.init,
    md := MetaSt.init,
    ftl := FtlSt.init,
    strp := StrpSt.init,
    fuses := Fuses.init,
    bootFlash := BootFlash.init,
    boot := BootSt.init,
    nv := NvSt.init,
    crypt := CryptSt.init,
    trel := TrelSt.init,
    eras := [],
    epochs := [],
    spent := [],
    gcm := [],
    memc := [],
    ecc := EccSt.init,
    pail := PailSt.init,
    sramBad := false,
    marks := [],
    core := CoreSys.init,
    gwl := GwlSt.init,
    clu := CluNv.init,
    evt := EvtSt.init,
    test := TestSt.init,
    finj := List.replicate 16 ⟨0⟩ }

/-- The machine: the part and the commands that wait, oldest first. -/
structure State where
  pending : List Instr
  dev : Dev
  deriving DecidableEq, Repr

/-- The machine right after a power-on reset: every register at its reset value (TOP_RSTCAUSE.POR reads 1; those that show
fuses as `Fuses.init` has them), mode RESET, RESET_N still low, memory filled with zeros, no command waiting. Halward's first
nonce is draw 0. -/
def State.reset : State :=
  { pending := [],
    dev := { Dev.init with
      free := 1,
      pins := { Pins.init with resetN := false },
      mode := { ModeSt.init with faultN := true },
      regs := [(F.TOP_ID_PART.key, 0x7840), (F.HALW_LCS_STATE.key, 3), (F.HALW_LCS_LCCOUNT.key, 2),
               (F.HALW_KEYS_BURNED.key, 7), (F.HALW_KEYS_AUTH.key, 1)] } }

end Sys2Proof.Machine
end

