-- ==== Sys2Proof/Machine/Ops.lean ====
section
/-! DEFINITION. The named operations every meaning is built from: finite maps, register fields, byte memory, the
arbiter of R24, the event journal and its routes, the performance counters, asynchronous events, completions, the
major mode. -/

namespace Sys2Proof.Machine

/-! ### Finite maps as lists -/

/-- The value listed for key `k`. -/
def AMap.find {α : Type} (k : Nat) : List (Nat × α) → Option α
  | [] => none
  | (j, v) :: t => if k = j then some v else AMap.find k t

/-- List `v` for key `k`, keys kept rising. -/
def AMap.put {α : Type} (k : Nat) (v : α) : List (Nat × α) → List (Nat × α)
  | [] => [(k, v)]
  | (j, u) :: t =>
    if k < j then (k, v) :: (j, u) :: t
    else if k = j then (k, v) :: t
    else (j, u) :: AMap.put k v t

/-- Remove key `k`. -/
def AMap.del {α : Type} (k : Nat) (m : List (Nat × α)) : List (Nat × α) := m.filter (fun p => p.1 != k)

/-- The value for key `k`, `dflt` where it is not listed. -/
def AMap.get {α : Type} (dflt : α) (k : Nat) (m : List (Nat × α)) : α := (AMap.find k m).getD dflt

/-- Set key `k` to `v`, dropping it where `v` is what an unlisted key reads as. -/
def AMap.set {α : Type} [DecidableEq α] (dflt : α) (k : Nat) (v : α) (m : List (Nat × α)) : List (Nat × α) :=
  if v = dflt then AMap.del k m else AMap.put k v m

/-- Insert a number into a rising list without repeats. -/
def NSet.add (k : Nat) : List Nat → List Nat
  | [] => [k]
  | j :: t => if k < j then k :: j :: t else if k = j then j :: t else j :: NSet.add k t

/-- Remove a number from a list. -/
def NSet.del (k : Nat) (m : List Nat) : List Nat := m.filter (fun j => j != k)

/-! ### Numbers -/

/-- Add, saturating at `w` bits. -/
def satAdd (w a b : Nat) : Nat := min (a + b) (2 ^ w - 1)

/-- Division rounded up. -/
def ceilDiv (a b : Nat) : Nat := (a + b - 1) / b

/-- Bit `i` of a number. -/
def bit (n i : Nat) : Bool := n.testBit i

/-- Set or clear bit `i`. -/
def setBit (n i : Nat) (v : Bool) : Nat :=
  if v then n ||| 2 ^ i else if n.testBit i then n - 2 ^ i else n

/-- Bits `[lo + w - 1 : lo]` of a number. -/
def bits (n lo w : Nat) : Nat := n / 2 ^ lo % 2 ^ w

/-- How many of the low `w` bits are set. -/
def popCount (w n : Nat) : Nat := ((List.range w).filter (fun i => n.testBit i)).length

/-- A truth value as a field. -/
def Bool.nat (b : Bool) : Nat := if b then 1 else 0

/-! ### Register fields -/

/-- A field's value in a register file: its reset value where it is not listed. -/
def RegFile.get (m : RegFile) (f : Field) : Nat := AMap.get f.reset f.key m

/-- Write a field, cut to its width. -/
def RegFile.set (m : RegFile) (f : Field) (v : Nat) : RegFile := AMap.set f.reset f.key (v % 2 ^ f.width) m

/-- A field of a register outside EVT and PMU. -/
def Dev.f (d : Dev) (x : Field) : Nat := d.regs.get x

/-- Set a field of a register outside EVT and PMU, as hardware does, whatever its access type. -/
def Dev.setF (d : Dev) (x : Field) (v : Nat) : Dev := { d with regs := d.regs.set x v }

/-- A one-bit field as a truth value. -/
def Dev.flag (d : Dev) (x : Field) : Bool := d.f x != 0

/-- A field of an EVT or PMU register. -/
def Dev.ef (d : Dev) (x : Field) : Nat := d.evt.regs.get x

/-- Set a field of an EVT or PMU register. -/
def Dev.setEf (d : Dev) (x : Field) (v : Nat) : Dev := { d with evt := { d.evt with regs := d.evt.regs.set x v } }

/-! ### Byte memory -/

/-- A byte: zero where nothing is listed (the fill of R38). -/
def Mem.byte (m : Mem) (a : Nat) : Byte := AMap.get 0 a m.cells

/-- Store a byte. -/
def Mem.setByte (m : Mem) (a : Nat) (b : Byte) : Mem := { m with cells := AMap.set 0 a b m.cells }

/-- `n` bytes from address `a`, lowest address first. -/
def Mem.bytes (m : Mem) (a : Nat) : Nat → List Byte
  | 0 => []
  | n + 1 => m.byte a :: m.bytes (a + 1) n

/-- Store a list of bytes from address `a` up. -/
def Mem.setBytes (m : Mem) (a : Nat) : List Byte → Mem
  | [] => m
  | b :: t => (m.setByte a b).setBytes (a + 1) t

/-- Does the 64-byte group of address `a` carry a poison mark (R20)? -/
def Mem.poisoned (m : Mem) (a : Nat) : Bool := m.poison.contains (a / 64)

/-- Does any byte of `a .. a + n - 1` lie in a poisoned group? -/
def Mem.poisonedRange (m : Mem) (a n : Nat) : Bool := m.poison.any (fun g => decide (g * 64 < a + n ∧ a < g * 64 + 64))

/-- Mark or clean the group of address `a`. -/
def Mem.setPoison (m : Mem) (a : Nat) (p : Bool) : Mem :=
  { m with poison := if p then NSet.add (a / 64) m.poison else NSet.del (a / 64) m.poison }

/-- Mark every group that `a .. a + n - 1` touches (`n` counted down). -/
def Mem.setPoisonRange (m : Mem) (a : Nat) (p : Bool) : Nat → Mem
  | 0 => m
  | n + 1 => ((m.setPoison a p).setPoisonRange (a + 1) p n)

/-- The canonical form: addresses strictly rising and no byte listed as zero. -/
def Mem.wf (m : Mem) : Bool :=
  decide (m.cells.Pairwise (fun x y => x.1 < y.1)) && m.cells.all (fun c => c.2 != 0)

/-- A little-endian number from bytes. -/
def leNat : List Byte → Nat
  | [] => 0
  | b :: t => b.toNat + 256 * leNat t

/-- The `n` low bytes of a number, little-endian. -/
def leBytes (n v : Nat) : List Byte :=
  match n with
  | 0 => []
  | n + 1 => BitVec.ofNat 8 v :: leBytes n (v / 256)

/-! ### Units in service -/

/-- Quadrant `q` is present and in service (R25, TOP_UNITS). -/
def Dev.quadOk (d : Dev) (q : Nat) : Bool :=
  decide (q < 4) && !bit (d.f F.TOP_UNITS_QFUSED) q && !bit (d.f F.TOP_UNITS_QRETIRED) q

/-- The quadrants in service. -/
def Dev.quads (d : Dev) : List Nat := (List.range 4).filter d.quadOk

/-- Is quadrant `q` under in-field test, and so takes no new work (R44, R45)? -/
def Dev.underTest (d : Dev) (q : Nat) : Bool :=
  match d.mode.qtest with
  | some t => t.quad == q
  | none => false

/-- Does a range of an interleaved region of DRAM, the map or an SLM, touch a channel whose quadrant is under test (R45, R95, R134)? Its
4 KiB page `k` lies on the channel in service that is number `k` modulo their count (PRESUMED, assumption 160). -/
def Dev.chanHeld (d : Dev) (a n : Nat) : Bool :=
  let qs := d.quads
  let pages := if n = 0 then 0 else (a + n - 1) / 4096 + 1 - a / 4096
  (List.range (min pages qs.length)).any (fun i => d.underTest (qs.getD ((a / 4096 + i) % max 1 qs.length) 0))

/-- Has its test isolated it, so that nothing in it runs? -/
def Dev.isolated (d : Dev) (q : Nat) : Bool :=
  match d.mode.qtest with
  | some t => t.quad == q && t.isolated
  | none => false

/-- Global channel `c` is in service (R25, R26, TOP_CHRETIRED). -/
def Dev.chanOk (d : Dev) (c : Nat) : Bool :=
  decide (c < 32) && d.quadOk (c / 8) && !bit (d.f F.TOP_CHRETIRED_CHOUT) c

/-- Does the source of event `n` still exist (R3, R26)? -/
def Dev.sourceOk (d : Dev) (n : Nat) : Bool :=
  if 0x40 ≤ n ∧ n < 0x1C0 then
    let q := (n - 0x40) / 0x60
    let o := (n - 0x40) % 0x60
    if o < 0x20 then d.chanOk (q * 8 + o / 4) else d.quadOk q
  else true

/-- Event `e` of slot `slot` (0 Skim, 1 Trellis, 2 Churn, 3 Sieve, 4 Cipher, 5 Digest, 6 MEMC, 7 Core) of quadrant
`q` (R3). -/
def quadEvent (q slot e : Nat) : Nat := 0x40 + q * 0x60 + 0x20 + slot * 8 + e

/-- Event `e` of global channel `c` (R3). -/
def chanEvent (c e : Nat) : Nat := 0x40 + (c / 8) * 0x60 + (c % 8) * 4 + e

/-! ### Plots -/

/-- Is plot `p` enabled (R89)? Plot 0 always is. -/
def Dev.plotEn (d : Dev) (p : Nat) : Bool := p == 0 || d.flag (F.PLOT_CTL_EN p)

/-- The plot's generation. -/
def Dev.plotGen (d : Dev) (p : Nat) : Nat := d.f (F.PLOT_CTL_GEN p)

/-- The enabled plots, ascending. -/
def Dev.plots (d : Dev) : List Nat := (List.range 512).filter d.plotEn

/-! ### Arbitration (R24) -/

/-- A requester's age. -/
def Arb.age (a : Arb) (r : Nat) : Nat := AMap.get 0 r a.ages

/-- The requester an arbiter grants among those that wait: the first of the urgent ones, else the one that the
weights, shares or priorities choose. -/
def Arb.pick (a : Arb) (waiting : List Nat) (choice : Nat) : Nat :=
  match a.urgent.find? (fun r => waiting.contains r) with
  | some r => r
  | none => choice

/-- One round: the age of the granted requester returns to zero, every other that waits ages by one, and those
whose age reaches 15 become urgent, lowest number first. -/
def Arb.round (a : Arb) (waiting : List Nat) (granted : Nat) : Arb :=
  let others := waiting.filter (fun r => r != granted)
  let newly := others.filter (fun r => a.age r + 1 == 15 && !a.urgent.contains r)
  { ages := AMap.set 0 granted 0 (others.foldl (fun m r => AMap.set 0 r (min 15 (a.age r + 1)) m) a.ages)
    urgent := (a.urgent.filter (fun r => r != granted)) ++ newly.foldr NSet.add [] }

/-! ### Free values -/

/-- Draw a free value: the number of the draw, and the state with the counter advanced. The value itself is an opaque
constant of `Config` at that number. -/
def Dev.draw (d : Dev) : Nat × Dev := (d.free, { d with free := d.free + 1 })

/-! ### Time -/

/-- Milliseconds since the part reset. -/
def Dev.now (d : Dev) : Nat := d.mode.ms

/-- The controller of a plot. -/
def Dev.ctrl (d : Dev) (p : Nat) : Ctrl := AMap.get Ctrl.init p d.host.ctrls

/-- Replace the controller of a plot. -/
def Dev.setCtrl (d : Dev) (p : Nat) (c : Ctrl) : Dev :=
  { d with host := { d.host with ctrls := AMap.set Ctrl.init p c d.host.ctrls } }

/-- The Timestamp feature value of a controller: the value last set, advanced by the milliseconds since. -/
def Dev.timestamp (d : Dev) (p : Nat) : Nat := (d.ctrl p).feat.tsBase + (d.now - (d.ctrl p).feat.tsAt)

/-- The device timestamp (R457): that of plot 0's controller. -/
def Dev.time (d : Dev) : Nat := d.timestamp 0

/-! ### Performance counters (R412 to R415) -/

/-- Does PMU counter `i` count source `src` of quadrant `q` (for a quadrant source) on behalf of plot `p`? -/
def Dev.pmuCounts (d : Dev) (i src q p : Nat) : Bool :=
  d.ef F.PMU_CTL_RUN == 1 && d.ef F.PMU_CTL_FREEZE == 0 && d.ef (F.PMU_SEL_EN i) == 1 &&
  d.ef (F.PMU_SEL_SRC i) == src &&
  (if i < 16 then true else d.quadOk ((i - 16) / 8)) &&
  (if 0x100 ≤ src ∧ src ≤ 0x1B8 then
      (if i < 16 then
        (d.ef (F.PMU_SEL_QSEL i) == 0xF && d.quadOk q) || d.ef (F.PMU_SEL_QSEL i) == q
       else (i - 16) / 8 == q)
    else true) &&
  (if d.ef (F.PMU_SEL_PFEN i) == 1 ∧ ((0x40 ≤ src ∧ src ≤ 0x48) ∨ 0x200 ≤ src) then d.ef (F.PMU_SEL_PLOT i) == p
    else true)

/-- Add `n` to PMU counter `i`, modulo 2^48, and set its wrap flag where it wraps (R415). With OVFEV = 1 the counter is noted:
`Dev.overflows` raises its event when the command's other effects are done. -/
def Dev.pmuBump (d : Dev) (i n : Nat) : Dev :=
  let v := d.ef (F.PMU_CNT_COUNT i) + n
  let d1 := d.setEf (F.PMU_CNT_COUNT i) (v % 2 ^ 48)
  if v < 2 ^ 48 then d1
  else
    let d2 := d1.setEf (F.PMU_OVF_OVF (i / 32)) (setBit (d1.ef (F.PMU_OVF_OVF (i / 32))) (i % 32) true)
    if d2.ef (F.PMU_SEL_OVFEV i) = 1 then { d2 with evt := { d2.evt with ovf := NSet.add i d2.evt.ovf } } else d2

/-- Add `n` occurrences of a source to every counter that counts it. -/
def Dev.pmuAdd (d : Dev) (src q p n : Nat) : Dev :=
  (List.range 48).foldl (fun e i => if d.pmuCounts i src q p then e.pmuBump i n else e) d

/-- "Concerns no plot" in a journal record (R406). -/
def noPlot : Nat := 0xFFFF

/-! ### Messages to the hosts -/

/-- A word of a function's configuration space as written, `init` where it has not been written. -/
def Dev.cfgWord (d : Dev) (p off init : Nat) : Nat := AMap.get init (1024 * p + off / 4) d.host.cfg

/-- The writable bits of a word of configuration space at reset: Device Control allows Relaxed Ordering and reads of 512 bytes (PRESUMED,
assumption 140). -/
def cfgInit (off : Nat) : Nat := if off = 0x48 then 0x2010 else 0

/-- The function for which a message is a write of data to host memory; a completion entry and an MSI-X message are none. -/
def HostMsg.data? : HostMsg → Option Nat
  | .block p _ => some p
  | .bytes p _ => some p
  | .log p _ _ _ _ => some p
  | .errors p _ _ _ => some p
  | .feature p _ _ => some p
  | .ids p _ _ => some p
  | .ident p _ _ => some p
  | .cqe _ _ _ => none
  | .msix _ _ => none

/-- Is Relaxed Ordering set on a message (R57): on a data write, when HIF_PORTCFG.RO_EN and the function's Device Control allow it? -/
def Dev.relaxed (d : Dev) (m : HostMsg) : Bool :=
  d.flag F.HIF_PORTCFG_RO_EN && (m.data?).any (fun p => bit (d.cfgWord p 0x48 (cfgInit 0x48)) 4)

/-- Put a message on a function's ordered posted path (R18), with its Relaxed Ordering attribute. -/
def Dev.send (d : Dev) (m : HostMsg) : Dev := { d with host := { d.host with out := d.host.out ++ [(m, d.relaxed m)] } }

/-- The offset of the MSI-X capability in configuration space (DESIGN CHOICE, assumption 140). -/
def msixCap : Nat := 0x80

/-- Word `w` of an MSI-X table entry: the mask bit of word 3 is set at reset (PRESUMED, assumption 140). -/
def Dev.msixWord (d : Dev) (p vec w : Nat) : Nat := AMap.get (if w = 3 then 1 else 0) (4 * (4096 * p + vec) + w) d.host.msixTab

/-- Does the function send no message on this vector now: MSI-X not enabled, or the function or the vector masked? -/
def Dev.msixHeld (d : Dev) (p vec : Nat) : Bool :=
  !bit (d.cfgWord p msixCap 0) 31 || bit (d.cfgWord p msixCap 0) 30 || bit (d.msixWord p vec 3) 0

/-- Send an MSI-X message; a vector that is masked, or whose function has MSI-X disabled, holds it pending. -/
def Dev.msix (d : Dev) (p vec : Nat) : Dev :=
  if d.msixHeld p vec then
    { d with host := { d.host with msixPend := NSet.add (4096 * p + vec) d.host.msixPend } }
  else d.send (.msix p vec)

/-- May a message be sent on this vector of this plot's function (R402)? -/
def Dev.vecOk (d : Dev) (p vec : Nat) : Bool := d.plotEn p && decide (vec < d.f (F.PLOT_QV_VMAX p))

/-- Add to a C4h counter of a plot (R85), by field number: field `k` is at bytes `8 * k`. -/
def Dev.stat (d : Dev) (p k n : Nat) : Dev :=
  let m := AMap.set 0 (16 * p + k) (satAdd 64 (AMap.get 0 (16 * p + k) d.host.stats) n) d.host.stats
  { d with host := { d.host with stats := m } }

/-! ### Completions (R14, R18, R453) -/

/-- The DNR bit of a status (R453, R81). An Internal Error carries DNR = 0 only when the T_MAX watchdog or
JS_TIMEOUT ended the command. -/
def dnrOf (st : Sc) : Bool :=
  match st with
  | .success | .abortedSqDeletion | .namespaceNotReady | .sanitizeInProgress
  | .firmwareActivationRequiresMaxTimeViolation | .deviceSelfTestInProgress => false
  | .internalErrorTimeout => false
  | .vendor c => !(c == 0xC0 || c == 0xC4)
  | _ => true

/-- The queue of a number. -/
def Ctrl.sq? (c : Ctrl) (q : Nat) : Option Sq := c.sqs.find? (fun x => x.qid == q)
def Ctrl.cq? (c : Ctrl) (q : Nat) : Option Cq := c.cqs.find? (fun x => x.qid == q)

/-- Replace a queue that exists. -/
def Ctrl.setSq (c : Ctrl) (x : Sq) : Ctrl := { c with sqs := c.sqs.map (fun y => if y.qid == x.qid then x else y) }
def Ctrl.setCq (c : Ctrl) (x : Cq) : Ctrl := { c with cqs := c.cqs.map (fun y => if y.qid == x.qid then x else y) }

/-- A completion queue with no free entry. -/
def Cq.full (q : Cq) : Bool := (q.tail + 1) % q.size == q.head

/-- The number of entries that wait in a submission queue. -/
def Sq.waiting (q : Sq) : Nat := (q.tail + q.size - q.head) % q.size

/-- The phase tag flips when the tail wraps. -/
def Cq.advance (q : Cq) : Cq :=
  { q with tail := (q.tail + 1) % q.size, phase := if q.tail + 1 = q.size then !q.phase else q.phase }

/-- Write a completion entry to a queue with a free entry, then signal its vector (R18), by the coalescing of
features 08h and 09h for an I/O queue. -/
def Dev.writeCqe (d : Dev) (p : Nat) (q : Cq) (e : Cqe) : Dev :=
  let c := d.ctrl p
  let d1 := d.send (.cqe p q.qid { e with phase := q.phase })
  let coal := q.qid != 0 && c.feat.coalThr != 0 && !c.feat.vecCd.contains q.vec
  let q1 := q.advance
  if !q.ien then d1.setCtrl p (c.setCq q1)
  else if coal ∧ q.coalesced < c.feat.coalThr then d1.setCtrl p (c.setCq { q1 with coalesced := q.coalesced + 1 })
  else (d1.setCtrl p (c.setCq { q1 with coalesced := 0 })).msix p q.vec

/-- Post a completion entry, or hold it until the queue has a free entry. -/
def Dev.postCqe (d : Dev) (p cq : Nat) (e : Cqe) : Dev :=
  match (d.ctrl p).cq? cq with
  | none => d
  | some q =>
    if q.full then d.setCtrl p ((d.ctrl p).setCq { q with held := q.held ++ [e] })
    else d.writeCqe p q e

/-- The queue generation of a submission queue. -/
def Dev.qGen (d : Dev) (p sq : Nat) : Nat := AMap.get 0 (65536 * p + sq) d.host.qGens

/-- Advance a queue generation. -/
def Dev.nextQGen (d : Dev) (p sq : Nat) : Dev :=
  { d with host := { d.host with qGens := AMap.set 0 (65536 * p + sq) (d.qGen p sq + 1) d.host.qGens } }

/-- The latch of an outstanding command. -/
def Dev.latch? (d : Dev) (id : CmdId) : Option Latch := d.host.latches.find? (fun l => l.id == id)

/-- Is this command outstanding? -/
def Dev.outstanding (d : Dev) (id : CmdId) : Bool := (d.latch? id).isSome

/-- Remove the latch: the command has been completed or ended. -/
def Dev.dropLatch (d : Dev) (id : CmdId) : Dev :=
  { d with host := { d.host with latches := d.host.latches.filter (fun l => !(l.id == id)) } }

/-- The status as NVMe 2.1 names it. -/
def scShown (st : Sc) : Sc := if st = .internalErrorTimeout then .internalError else st

/-- The entry that completes a command. -/
def Dev.entry (d : Dev) (id : CmdId) (st : Sc) (dw0 dw1 : Nat) : Cqe :=
  { sq := id.sq, cid := id.cid,
    sqHead := match (d.ctrl id.plot).sq? id.sq with
      | some q => q.head
      | none => 0,
    status := scShown st, dnr := dnrOf st, dw0 := dw0, dw1 := dw1, phase := false }

/-- The completion queue of a submission queue. -/
def Dev.cqOf (d : Dev) (p sq : Nat) : Nat :=
  match (d.ctrl p).sq? sq with
  | some q => q.cqid
  | none => 0

/-- Add to a counter of the SMART log (R157): 0 data units read, 1 data units written, 2 host reads, 3 host writes, 4 media
errors, 5 entries of the error log, 6 reservation notifications; `x` is the plot, or 1024 + NSID. -/
def Dev.smart (d : Dev) (x k n : Nat) : Dev :=
  { d with md := { d.md with smart := AMap.set 0 (8 * x + k) (AMap.get 0 (8 * x + k) d.md.smart + n) d.md.smart } }

/-- Present a completion for a command: the first one presented is posted and its latch is gone; one for a command
that is not outstanding changes nothing (R14). The error log keeps unsuccessful ones (log page 01h). -/
def Dev.complete (d : Dev) (id : CmdId) (st : Sc) (dw0 dw1 : Nat) : Dev :=
  match d.latch? id with
  | none => d
  | some _ =>
    let d1 := (d.dropLatch id).stat id.plot 1 1
    let d2 := d1.pmuAdd 0x41 0 id.plot 1
    let d2a := if st = .unrecoveredReadError then d2.smart id.plot 4 1 else d2
    let c := d2a.ctrl id.plot
    let d4 := if st = .success then d2a
      else (d2a.setCtrl id.plot { c with errLog := ((id.sq, id.cid, scShown st) :: c.errLog).take 64 }).smart id.plot 5 1
    d4.postCqe id.plot (d4.cqOf id.plot id.sq) (d4.entry id st dw0 dw1)

/-- Complete with a status and zero dwords. -/
def Dev.done (d : Dev) (id : CmdId) (st : Sc) : Dev := d.complete id st 0 0

/-- Remove the latched and held halves of a requester's split accesses (R11): 0 the manager, `c + 1` core `c`, 33 the security core. -/
def Dev.dropSplits (d : Dev) (owner : Nat) : Dev :=
  { d with host := { d.host with readLatch := d.host.readLatch.filter (fun x => x.1 != owner),
                                 writeHold := d.host.writeHold.filter (fun x => x.1 != owner) } }

/-! ### Asynchronous events (R82, R84) -/

/-- Send an asynchronous event to one controller: nothing while its type and information are masked; otherwise it
completes the oldest outstanding request, or waits as the one pending instance. -/
def Dev.asyncTo (d : Dev) (p : Nat) (e : AsyncEv) : Dev :=
  let c := d.ctrl p
  if !c.en || c.asyncMask.contains (e.ty, e.info) then d
  else match c.aers with
    | [] => if c.asyncPend.contains e then d else d.setCtrl p { c with asyncPend := c.asyncPend ++ [e] }
    | id :: rest =>
      (d.setCtrl p { c with aers := rest, asyncMask := (e.ty, e.info) :: c.asyncMask }).complete id .success
        (e.ty + 256 * e.info + 65536 * e.lid) 0

/-- The log page that unmasks a vendor event (R84). -/
def vendorLog (info : Nat) : Nat :=
  if info ≤ 2 then 0xC0 else if info = 3 then 0xC1 else if info = 4 then 0xC2 else 0xC3

/-- Send vendor asynchronous event `info` (type 7h) to a controller that feature C2h enables it for. -/
def Dev.vendorTo (d : Dev) (info p : Nat) : Dev :=
  if bit (d.ctrl p).feat.vendorNotices info then d.asyncTo p ⟨7, info, vendorLog info⟩ else d

/-- Send a vendor asynchronous event to every controller. -/
def Dev.vendorAll (d : Dev) (info : Nat) : Dev :=
  (d.host.ctrls.map Prod.fst).foldl (fun e p => e.vendorTo info p) d

/-! ### Raising an event (R399 to R409) -/

/-- The interval in milliseconds and the key of the events marked "at most once per" (R401): `(interval, key)`. -/
def rateOf (n p : Nat) (args : List Nat) : Option (Nat × Nat) :=
  if n = 0x000 ∨ n = 0x007 ∨ n = 0x013 ∨ n = 0x01F ∨ n = 0x1D3 ∨ n = 0x1E5 then some (1, 0)
  else if n = 0x1F9 then some (1, p)
  else if n = 0x010 then some (1000, args.headD 0)
  else if n = 0x017 ∨ n = 0x020 then some (1, args.headD 0)
  else if n = 0x032 then some (100, 0)
  else if 0x40 ≤ n ∧ n < 0x1C0 then
    let o := (n - 0x40) % 0x60
    if o = 0x22 then some (1000, args.headD 0)
    else if o = 0x21 ∨ o = 0x2A ∨ o = 0x30 ∨ o = 0x31 ∨ o = 0x39 ∨ o = 0x3A ∨ o = 0x3C ∨ o = 0x40 ∨ o = 0x41 ∨
        o = 0x48 ∨ o = 0x4A ∨ o = 0x53 ∨ o = 0x58 then some (1, 0)
    else none
  else none

/-- The rate record of an event and key. -/
def EvtSt.rate? (e : EvtSt) (n key : Nat) : Option RateRec := e.rates.find? (fun r => r.event == n && r.key == key)

/-- Is this occurrence suppressed (R401)? -/
def Dev.suppressed (d : Dev) (n p : Nat) (args : List Nat) : Bool :=
  match rateOf n p args with
  | none => false
  | some (iv, key) =>
    match d.evt.rate? n key with
    | none => false
    | some r => decide (d.now < r.last + iv)

/-- Count a suppressed occurrence. -/
def Dev.noteSuppressed (d : Dev) (n p : Nat) (args : List Nat) : Dev :=
  match rateOf n p args with
  | none => d
  | some (_, key) =>
    let up (r : RateRec) : RateRec :=
      if r.event == n && r.key == key then { r with suppressed := satAdd 16 r.suppressed 1 } else r
    { d with evt := { d.evt with rates := d.evt.rates.map up } }

/-- The occurrences suppressed since the previous record of the event. -/
def Dev.suppressedCount (d : Dev) (n p : Nat) (args : List Nat) : Nat :=
  match rateOf n p args with
  | none => 0
  | some (_, key) =>
    match d.evt.rate? n key with
    | none => 0
    | some r => r.suppressed

/-- Note the time of the record just written. -/
def Dev.noteRecord (d : Dev) (n p : Nat) (args : List Nat) : Dev :=
  match rateOf n p args with
  | none => d
  | some (_, key) =>
    let rest := d.evt.rates.filter (fun r => !(r.event == n && r.key == key))
    { d with evt := { d.evt with rates := ⟨n, key, d.now, 0⟩ :: rest } }

/-- The FLAGS of a record (R406), with `tv` for a message on a tenant vector. -/
def Dev.recFlags (d : Dev) (n : Nat) (tv : Bool) : Nat :=
  let host := d.ef (F.EVT_ROUTE_HOST n) == 1
  let ok := d.vecOk (d.ef (F.EVT_ROUTE_PLOT n)) (d.ef (F.EVT_ROUTE_VEC n))
  Bool.nat (host && ok) + 2 * Bool.nat (d.ef (F.EVT_ROUTE_CORE n) == 1) + 4 * Bool.nat tv + 8 * Bool.nat (host && !ok)

/-- The plain number of EVT_JHEAD; the first record of a boot follows the value the part reset set. -/
def Dev.jhead (d : Dev) : Nat := d.ef F.EVT_JHEAD_SEQ

/-- Set the acknowledged sequence number and what follows from it. -/
def Dev.setAck (d : Dev) (v : Nat) : Dev :=
  let d1 := d.setEf F.EVT_HOST_ACK_SEQ_SEQ v
  d1.setEf F.EVT_JSTAT_UNACK (d1.jhead - v)

/-- Append a journal record (R405 to R407): EVT_JHEAD moves to it; when the journal is full the oldest record goes,
and an unacknowledged one that goes moves the acknowledgement and is counted in LOST. -/
def Dev.journal (d : Dev) (n p : Nat) (args : List Nat) (tv : Bool) : Dev :=
  let seq := d.jhead + 1
  let r : JRec := { seq := seq, time := d.time, event := n, plot := p, mode := d.f F.TOP_MODE_MODE,
                    flags := d.recFlags n tv, suppressed := d.suppressedCount n p args, args := args }
  let d1 := d.setEf F.EVT_JHEAD_SEQ seq
  match (if d.evt.journal.length < 8192 then none else d.evt.journal.head?) with
  | none =>
    let d2 := { d1 with evt := { d1.evt with journal := d1.evt.journal ++ [r] } }
    d2.setAck (d2.ef F.EVT_HOST_ACK_SEQ_SEQ)
  | some old =>
    let d2 := { d1 with evt := { d1.evt with journal := d1.evt.journal.tail ++ [r] } }
    if d2.ef F.EVT_HOST_ACK_SEQ_SEQ < old.seq then
      (d2.setAck old.seq).setEf F.EVT_JSTAT_LOST (satAdd 16 (d2.ef F.EVT_JSTAT_LOST) 1)
    else d2.setAck (d2.ef F.EVT_HOST_ACK_SEQ_SEQ)

/-- Does the next record overwrite an unacknowledged one (R407)? -/
def Dev.journalLoses (d : Dev) : Bool :=
  decide (8192 ≤ d.evt.journal.length) &&
  (match d.evt.journal.head? with
    | none => false
    | some old => decide (d.ef F.EVT_HOST_ACK_SEQ_SEQ < old.seq))

/-- Set the pending bit of event `n`. -/
def Dev.setPend (d : Dev) (n : Nat) : Dev :=
  d.setEf (F.EVT_PEND_PEND (n / 32)) (setBit (d.ef (F.EVT_PEND_PEND (n / 32))) (n % 32) true)

/-- Set event line `line` of core `c` (R404). -/
def Dev.setLine (d : Dev) (c line : Nat) : Dev :=
  d.setEf (F.EVT_CPEND_PEND c) (setBit (d.ef (F.EVT_CPEND_PEND c)) line true)

/-- Signal an event on its route (R402). -/
def Dev.route (d : Dev) (n : Nat) : Dev :=
  let p := d.ef (F.EVT_ROUTE_PLOT n)
  let v := d.ef (F.EVT_ROUTE_VEC n)
  let d1 := if d.ef (F.EVT_ROUTE_HOST n) = 1 ∧ d.vecOk p v then d.msix p v else d
  if d.ef (F.EVT_ROUTE_CORE n) = 1 then
    d1.setLine (d.ef (F.EVT_ROUTE_CQ n) * 8 + d.ef (F.EVT_ROUTE_CK n)) (d.ef (F.EVT_ROUTE_LINE n))
  else d1

/-- The host watermark (R409): vendor asynchronous event 05h to plot 0, once until an acknowledgement brings the
number of unacknowledged records below it. -/
def Dev.watermark (d : Dev) : Dev :=
  if d.evt.wmSent = false ∧ d.ef F.EVT_JCFG_HOSTWM ≤ d.ef F.EVT_JSTAT_UNACK then
    ({ d with evt := { d.evt with wmSent := true } }).vendorTo 5 0
  else d

/-- Record and signal one occurrence that is not suppressed: pending bit, journal record, then the signal (R400,
R19), then the watermark. -/
def Dev.record (d : Dev) (n p : Nat) (args : List Nat) (tv : Bool) : Dev :=
  (((((d.setPend n).journal n p args tv).noteRecord n p args).route n).watermark)

/-- Raise event `n` for plot `p` (0xFFFF for none), with its journal items. An event whose source is fused off or
retired never fires (R26); an occurrence inside its interval is only counted (R401); the event's PMU source counts
every occurrence (R413). -/
def Dev.raiseOne (d : Dev) (n p : Nat) (args : List Nat) (tv : Bool) : Dev :=
  if d.sourceOk n then
    let d1 := d.pmuAdd (0x200 + n) 0 p 1
    if d1.suppressed n p args then d1.noteSuppressed n p args else d1.record n p args tv
  else d

/-- Raise an event; `tv` says that a message went out on a tenant vector (R406). A record that overwrites an unacknowledged one
raises JOURNAL_LOST (R407), whose own record may overwrite another but is then inside the millisecond. -/
def Dev.raiseTv (d : Dev) (n p : Nat) (args : List Nat) (tv : Bool) : Dev :=
  let lost := d.sourceOk n && !d.suppressed n p args && d.journalLoses
  let d1 := d.raiseOne n p args tv
  if lost then d1.raiseOne 0x000 0xFFFF [] false else d1

/-- Raise an event. -/
def Dev.raise (d : Dev) (n p : Nat) (args : List Nat) : Dev := d.raiseTv n p args false

/-- Add to a source that is no event. -/
def Dev.count (d : Dev) (src q p n : Nat) : Dev := d.pmuAdd src q p n

/-- PMU_OVERFLOW for the counters that have wrapped with OVFEV = 1 (R415), in ascending order. An overflow event may itself
wrap a counter; each round raises those noted so far, and a counter needs 2^48 occurrences to wrap again. -/
def Dev.overflowsN : Nat → Dev → Dev
  | 0, d => d
  | k + 1, d =>
    match d.evt.ovf with
    | [] => d
    | l => Dev.overflowsN k (l.foldl (fun (e : Dev) i => e.raise 0x008 noPlot [i]) { d with evt := { d.evt with ovf := [] } })

def Dev.overflows (d : Dev) : Dev := d.overflowsN 49

/-- A command's effect on the part, with the queue left as it is. A part that logic scan has stopped takes no command but those
that reset it (R420). -/
def run (f : Dev → Dev) (s : State) : Host.Outcome State Fault Refusal :=
  .next { s with dev := if s.dev.test.scanStopped then s.dev else (f s.dev).overflows }

/-- The effect of a command that also reaches a part stopped by logic scan: resets, power, the TAP. -/
def runHard (f : Dev → Dev) (s : State) : Host.Outcome State Fault Refusal := .next { s with dev := (f s.dev).overflows }

/-- Add to a saturating 64-bit block counter and to the PMU source that names it (R413). -/
def Dev.bump (d : Dev) (x : Field) (src q n : Nat) : Dev := (d.setF x (satAdd 64 (d.f x) n)).count src q noPlot n

/-- Add to a C4h counter and its PMU source. -/
def Dev.bumpStat (d : Dev) (p k n : Nat) : Dev := (d.stat p k n).count (0x40 + k) 0 p n

/-! ### Critical warnings (R82) -/

/-- Set the critical warning bits of a controller; each change from 0 to 1 sends a SMART/Health Status event when
feature 0Bh enables the bit. -/
def Dev.warnTo (d : Dev) (w p : Nat) : Dev :=
  let c := d.ctrl p
  let d1 := d.setCtrl p { c with critWarn := w }
  [(0, 2), (1, 1), (2, 0), (3, 0)].foldl (fun e (b : Nat × Nat) =>
    if bit w b.1 && !bit c.critWarn b.1 && bit c.feat.asyncCfg b.1 then e.asyncTo p ⟨1, b.2, 0x02⟩ else e) d1

/-! ### The major mode (R33, R34, R53, R417) -/

/-- The write scope of a mode (R52), as TOP_MODE.ATOMIC shows it. DOZE keeps that of the mode it wakes to. -/
def atomicOf (m dozeFrom : Nat) : Nat :=
  let m := if m = 0xA then dozeFrom else m
  if m = 6 ∨ m = 7 ∨ m = 9 then 2 else if m = 5 ∨ m = 0xB then 1 else 0

/-- TOP_MODE.ATOMIC in the state: extended SELFTEST accepts single blocks, start-up SELFTEST nothing. -/
def Dev.atomicNow (d : Dev) : Nat :=
  let m := d.f F.TOP_MODE_MODE
  if d.flag F.TOP_MODE_CXST && (m == 2 || m == 6 || m == 7 || m == 9) then 1 else atomicOf m d.mode.dozeFrom

/-- Does the mode in force permit fault injection (R416)? -/
def Dev.finjOk (d : Dev) : Bool :=
  d.f F.TOP_MODE_MODE == 0xB || (d.f F.TOP_MODE_MODE == 6 && bit (d.f F.HALW_DEBUG_RIGHTS) 1)

/-- Clear every injector when injection is no longer permitted (R417). -/
def Dev.finjLapse (d : Dev) : Dev :=
  if d.f F.FINJ_CTL_ANY = 1 ∧ d.finjOk = false then
    (((List.range 16).foldl (fun e i => e.setF (F.FINJ_INJ_EN i) 0) d).setF F.FINJ_CTL_ANY 0).raise 0x00A noPlot []
  else d

/-- The operating mode that R33 gives for the conditions that hold. -/
def Dev.operating (d : Dev) : Nat :=
  if d.flag F.TOP_MODE_CFENCE then 9
  else if d.flag F.TOP_MODE_CRO then 8
  else if d.flag F.TOP_MODE_CXST then 2
  else if d.flag F.TOP_MODE_CDEGR then 7
  else 6

/-- Is the part in an operating mode, extended SELFTEST included? -/
def Dev.isOperating (d : Dev) : Bool :=
  let m := d.f F.TOP_MODE_MODE
  (decide (6 ≤ m) && decide (m ≤ 9)) || (m == 2 && d.flag F.TOP_MODE_CXST)

end Sys2Proof.Machine
end

