-- ==== Sys2Proof/Machine/ModeOps.lean ====
section
/-! DEFINITION. Operations on the major mode and on health reporting that every family uses: the Almanac's records,
early warnings (R160), critical warnings (R82), mode changes (R33, R34, R53) and the start of service (R37). -/

namespace Sys2Proof.Machine

/-! ### Late results (R14, R106) -/

/-- The identity that the operations of a command keep once the command has ended without them: outside the 16-bit command
identifiers, so that it never meets a later command's latch (assumption 45). -/
def deadId (gen : Nat) (id : CmdId) : CmdId :=
  if id.cid < 65536 then { id with cid := id.cid + 65536 * (gen + 1) } else id

/-- A late internal result is discarded and counted (R14): HIF_DISCARD, the plot's statistics, LATE_DISCARD. -/
def Dev.lateDiscard (d : Dev) (p : Nat) : Dev :=
  ((d.setF F.HIF_DISCARD_COUNT (satAdd 64 (d.f F.HIF_DISCARD_COUNT) 1)).bumpStat p 2 1).raise 0x1E5 p []

/-- The plot generation that such an identity carries. -/
def deadGen (id : CmdId) : Nat := id.cid / 65536 - 1

/-- An internal result for a command (R14): the first for an outstanding command completes it, any other is late. -/
def Dev.result (d : Dev) (id : CmdId) (st : Sc) (dw0 dw1 : Nat) : Dev :=
  if d.outstanding id then d.complete id st dw0 dw1 else d.lateDiscard id.plot

/-- Note an update of the Almanac page (R158). -/
def Dev.almanacTouch (d : Dev) : Dev :=
  { d with nv := { d.nv with updates := satAdd 32 d.nv.updates 1, updatedAt := d.time } }

/-- Add a RETIRE record to the Almanac (R158): kind 1 quadrant, 2 channel, 3 die; its cause; the unit. -/
def Dev.almanacRetire (d : Dev) (kind cause unit : Nat) : Dev :=
  ({ d with nv := { d.nv with retires := ((d.time, kind, cause, unit) :: d.nv.retires).take 24 } }).almanacTouch

/-- Add to an Almanac counter by its byte offset (R158). -/
def Dev.almanacCount (d : Dev) (off n : Nat) : Dev :=
  ({ d with md := { d.md with media := AMap.set 0 off (satAdd 64 (AMap.get 0 off d.md.media) n) d.md.media } }).almanacTouch

/-- Report one early warning of an enabled bit (R160): the Almanac, event 0x010, vendor asynchronous event 01h. A
report inside the second of the bit's last one is suppressed with its event. -/
def Dev.ewReport (d : Dev) (b : Nat) : Dev :=
  if d.suppressed 0x010 noPlot [b] then d.raise 0x010 noPlot [b]
  else
    let d1 := ({ d with nv := { d.nv with ewCount := satAdd 64 d.nv.ewCount 1, ewLast := b,
                                          ewTime := d.time } }).almanacTouch
    (d1.raise 0x010 noPlot [b]).vendorAll 1

/-- An occurrence of an early-warning condition (R159, R160). -/
def Dev.ewOccur (d : Dev) (b : Nat) : Dev :=
  if bit (d.f F.MAPW_EWSET_SET) b then d.ewReport b else d

/-- An early-warning condition becomes true or false; a change to true of an enabled bit is reported. -/
def Dev.ewSet (d : Dev) (b : Nat) (v : Bool) : Dev :=
  let was := bit (d.f F.MAPW_EWACT_ACT) b
  let d1 := d.setF F.MAPW_EWACT_ACT (setBit (d.f F.MAPW_EWACT_ACT) b v)
  if v && !was && bit (d.f F.MAPW_EWSET_SET) b then d1.ewReport b else d1

/-- A signed 8-bit number. -/
def sbyte (v : Nat) : Int := if v < 128 then (v : Int) else (v : Int) - 256

/-- The composite temperature in kelvin: the hottest valid junction sensor (R79, R445). -/
def Dev.kelvin (d : Dev) : Int :=
  ((List.range 6).filter (fun i => d.flag (F.PWR_TEMP_VALID i))).foldl
    (fun m i => max m (sbyte (d.f (F.PWR_TEMP_TEMP i)) + 273)) 0

/-- The critical warning bits of a controller (R82). -/
def Dev.critNow (d : Dev) (p : Nat) : Nat :=
  let c := (d.ctrl p).feat
  let hot := d.kelvin
  let known := (List.range 6).any (fun i => d.flag (F.PWR_TEMP_VALID i))
  Bool.nat (bit (d.f F.MAPW_EWACT_ACT) 1)
    + 2 * Bool.nat (known && (decide ((c.tempOver : Int) ≤ hot) || decide (hot ≤ (c.tempUnder : Int))))
    + 4 * Bool.nat (d.flag F.TOP_MODE_CDEGR || !d.strp.lost.isEmpty)
    + 8 * Bool.nat (d.flag F.TOP_MODE_CRO)

/-- Bring the critical warnings of every controller up to date. -/
def Dev.refreshWarn (d : Dev) : Dev :=
  (d.host.ctrls.map Prod.fst).foldl (fun e p => e.warnTo (e.critNow p) p) d

/-- Record a change of the atomic scope (R53): the Almanac's SCOPE record, event 0x002, vendor asynchronous event
00h. Modes that accept no writes leave the scope as it is. -/
def Dev.scopeCheck (d : Dev) : Dev :=
  let a := d.atomicNow
  let d0 := d.setF F.TOP_MODE_ATOMIC a
  if a = 0 ∨ a = d.mode.scope then d0
  else
    let rec_ := (d0.time, d.mode.scope, a, d.f F.TOP_MODE_MODE)
    let d1 := ({ d0 with nv := { d0.nv with scopes := (rec_ :: d0.nv.scopes).take 8 } }).almanacTouch
    ((({ d1 with mode := { d1.mode with scope := a } }).raise 0x002 noPlot []).vendorAll 0)

/-- The modes in which an enabled controller is ready (R37): SAFE, SANITIZE, RECOVER, TEST and the operating modes,
with extended SELFTEST and DOZE, which are entered from those. -/
def servingMode (m : Nat) : Bool := m == 1 || m == 3 || (decide (5 ≤ m) && decide (m ≤ 0xB))

/-- Is the part in a mode in which controllers are ready? -/
def Dev.serving (d : Dev) : Bool := servingMode (d.f F.TOP_MODE_MODE) || (d.f F.TOP_MODE_MODE == 2 && d.flag F.TOP_MODE_CXST)

/-- Controllers of enabled plots with CC.EN = 1 become ready (R37, R89). -/
def Dev.readyAll (d : Dev) : Dev :=
  (d.host.ctrls.map Prod.fst).foldl
    (fun e p => if (e.ctrl p).en && e.plotEn p && e.serving then e.setCtrl p { e.ctrl p with rdy := true } else e) d

/-- Change the major mode (R33): PREV, MODE, event 0x001 with the old and the new value, the atomic scope, the end
of fault injection (R417) and the readiness of controllers (R37). No change where the mode is already `m`. -/
def Dev.setMode (d : Dev) (m : Nat) : Dev :=
  let old := d.f F.TOP_MODE_MODE
  if old = m then d.scopeCheck
  else
    ((((d.setF F.TOP_MODE_PREV old).setF F.TOP_MODE_MODE m).raise 0x001 noPlot [old, m]).scopeCheck).finjLapse.readyAll

/-- A condition of TOP_MODE.COND is set or cleared; in an operating mode the mode then shown is the one R33 gives. -/
def Dev.setCond (d : Dev) (x : Field) (v : Bool) : Dev :=
  let op := d.isOperating
  let d1 := d.setF x (Bool.nat v)
  (if op then d1.setMode d1.operating else d1).refreshWarn

/-- Raise an anti-rollback counter to the SVN in force (R384), with SVN_ADVANCED where it moves: `k` 0 firmware, 1 stream. -/
def Dev.svnTo (d : Dev) (k svn : Nat) : Dev :=
  let old := if k = 0 then d.fuses.svnFw else d.fuses.svnStream
  let new := min svn 64
  if new ≤ old then d
  else if k = 0 then
    (({ d with fuses := { d.fuses with svnFw := new } }).setF F.HALW_SVN_FW new).raise 0x02D noPlot []
  else (({ d with fuses := { d.fuses with svnStream := new } }).setF F.HALW_SVN_STREAM new).raise 0x02D noPlot []

/-- The SVN of a firmware image and of a stream in force. -/
def svnOfFw (i : Option FwImage) : Nat := (i.map (fun x => x.hdr.svn)).getD 0
def svnOfStream (i : Option Stream) : Nat := (i.map (fun x => x.hdr.svn)).getD 0

/-- The first entry to an operating mode after a part reset raises the anti-rollback counters (R384). -/
def Dev.svnRaise (d : Dev) : Dev :=
  if d.boot.svnDone then d
  else
    (({ d with boot := { d.boot with svnDone := true } }).svnTo 0 (svnOfFw d.boot.firmware)).svnTo 1 (svnOfStream d.boot.stream)

/-- Enter the operating mode that R33 gives. From here on only a clean stop makes the stop clean (R145). -/
def Dev.enterOperating (d : Dev) : Dev :=
  let e := ((d.setMode d.operating).svnRaise).refreshWarn
  { e with nv := { e.nv with stop := .unclean } }

/-- The memory in service in GiB: the capacities of the DRAM channels of the quadrants in service (R69). -/
def Dev.dramGib (d : Dev) : Nat := (d.quads.map (fun q => d.f (F.MEMC_STAT_CAPGIB q))).sum

end Sys2Proof.Machine
end

