-- ==== Sys2Proof/Machine/Finj.lean ====
section
/-! DEFINITION. Fault injection at an eligible item (R418, R419). The rows that enable an injector are in
`Sys2Proof.Machine.Events`. -/

namespace Sys2Proof.Machine

/-- Does injector `i` act on an item of this kind, instance and die? -/
def Dev.finjTargets (d : Dev) (i kind inst die : Nat) : Bool :=
  d.f (F.FINJ_INJ_EN i) == 1 && d.f (F.FINJ_INJ_KIND i) == kind && d.f (F.FINJ_INJ_INST i) == inst &&
  (kind != 3 || d.f (F.FINJ_INJ_ANYDIE i) == 1 || d.f (F.FINJ_INJ_DIE i) == die)

/-- Show FINJ_CTL.ANY. -/
def Dev.finjShow (d : Dev) : Dev :=
  d.setF F.FINJ_CTL_ANY (Bool.nat ((List.range 16).any (fun i => d.f (F.FINJ_INJ_EN i) == 1)))

/-- One injector meets one eligible item: the LFSR advances, and the item is injected when its low 16 bits are below
RATE, or always for ONESHOT, which then clears EN (R419). -/
def Dev.finjOne (d : Dev) (i : Nat) : Bool × Dev :=
  let v := Config.lfsrNext ((d.finj[i]?).getD ⟨0⟩).value
  let d1 := { d with finj := d.finj.set i ⟨v⟩ }
  let one := d.f (F.FINJ_INJ_ONESHOT i) == 1
  if one ∨ v % 2 ^ 16 < d.f (F.FINJ_INJ_RATE i) then
    let d2 := d1.setF (F.FINJ_CNT_COUNT i) (satAdd 64 (d1.f (F.FINJ_CNT_COUNT i)) 1)
    (true, if one then (d2.setF (F.FINJ_INJ_EN i) 0).finjShow else d2)
  else (false, d1)

/-- An eligible item meets every injector that targets it; the answer says whether one injected it. -/
def Dev.finjItem (d : Dev) (kind inst die : Nat) : Bool × Dev :=
  (List.range 16).foldl (fun (a : Bool × Dev) i =>
    if a.2.finjTargets i kind inst die then
      let r := a.2.finjOne i
      (a.1 || r.1, r.2)
    else a) (false, d)

end Sys2Proof.Machine
end

