-- ==== Sys2Proof/Machine/Aes.lean ====
section
/-! DEFINITION. AES (FIPS 197), XTS-AES (IEEE 1619) and AES-GCM (NIST SP 800-38D), which R128 and chapter 12 use by name.
PRESUMED: the algorithms are taken from those standards (assumption 149). A byte of a cipher block is a natural number below 256; the
S-box is computed, as FIPS 197 defines it, from inverses in GF(2^8). -/

namespace Sys2Proof.Machine.Aes

/-! ### GF(2^8) with the polynomial 0x11B -/

def xtime (b : Nat) : Nat := if b < 128 then 2 * b else (2 * b) ^^^ 0x11B

/-- The product of two bytes: `n` bits of `b` from the low one up, `a` doubled at each. -/
def gmulN : Nat → Nat → Nat → Nat
  | 0, _, _ => 0
  | n + 1, a, b => (if b % 2 = 1 then a else 0) ^^^ gmulN n (xtime a) (b / 2)

def gmul (a b : Nat) : Nat := gmulN 8 a b

/-- The inverse, `a` to the power 254; 0 for 0. -/
def ginv (a : Nat) : Nat :=
  let a2 := gmul a a
  let a4 := gmul a2 a2
  let a8 := gmul a4 a4
  let a16 := gmul a8 a8
  let a32 := gmul a16 a16
  let a64 := gmul a32 a32
  let a128 := gmul a64 a64
  [a4, a8, a16, a32, a64, a128].foldl gmul a2

def rotl8 (b k : Nat) : Nat := (b * 2 ^ k + b / 2 ^ (8 - k)) % 256

/-- The S-box and its inverse. -/
def sub (b : Nat) : Nat :=
  let i := ginv b
  i ^^^ rotl8 i 1 ^^^ rotl8 i 2 ^^^ rotl8 i 3 ^^^ rotl8 i 4 ^^^ 0x63

def unsub (b : Nat) : Nat := ginv (rotl8 b 1 ^^^ rotl8 b 3 ^^^ rotl8 b 6 ^^^ 0x05)

/-! ### The cipher -/

/-- Two blocks combined byte by byte. -/
def xorB (a b : List Nat) : List Nat := List.zipWith (fun x y => x ^^^ y) a b

/-- The words of the key schedule from the key's words, newest first, up to `n` more; `i` is the number of the next word. -/
def schedule (nk : Nat) : Nat → Nat → Nat → List (List Nat) → List (List Nat)
  | 0, _, _, ws => ws
  | n + 1, i, rcon, ws =>
    let last := ws.headD []
    let t :=
      if i % nk = 0 then xorB (((last.drop 1) ++ last.take 1).map sub) [rcon, 0, 0, 0]
      else if 6 < nk ∧ i % nk = 4 then last.map sub
      else last
    schedule nk n (i + 1) (if i % nk = 0 then xtime rcon else rcon) (xorB (ws.getD (nk - 1) []) t :: ws)

/-- A list in pieces of `k` (`n` of them). -/
def chunks (k : Nat) : Nat → List Nat → List (List Nat)
  | 0, _ => []
  | n + 1, l => l.take k :: chunks k n (l.drop k)

/-- The round keys of a 128-bit or 256-bit key, first to last. -/
def roundKeys (key : List Nat) : List (List Nat) :=
  let nk := key.length / 4
  let ws := (schedule nk (3 * nk + 28) nk 1 (chunks 4 nk key).reverse).reverse
  (List.range (nk + 7)).map (fun r => ((ws.drop (4 * r)).take 4).flatten)

/-- ShiftRows: row `r` of column `c` comes from column `c + r` (back for the inverse). -/
def shiftRows (s : List Nat) : List Nat := (List.range 16).map (fun i => s.getD ((i + 4 * (i % 4)) % 16) 0)
def unshiftRows (s : List Nat) : List Nat := (List.range 16).map (fun i => s.getD ((i + 12 * (i % 4)) % 16) 0)

/-- MixColumns with a row of coefficients. -/
def mix (co s : List Nat) : List Nat :=
  (List.range 16).map (fun i =>
    (List.range 4).foldl (fun x k => x ^^^ gmul (co.getD ((k + 4 - i % 4) % 4) 0) (s.getD (i / 4 * 4 + k) 0)) 0)

/-- Encrypt and decrypt one block of 16 bytes. -/
def enc (ks : List (List Nat)) (b : List Nat) : List Nat :=
  let n := ks.length - 1
  let mid := ((ks.drop 1).take (n - 1)).foldl (fun s k => xorB (mix [2, 3, 1, 1] (shiftRows (s.map sub))) k) (xorB b (ks.headD []))
  xorB (shiftRows (mid.map sub)) (ks.getLastD [])

def dec (ks : List (List Nat)) (b : List Nat) : List Nat :=
  let n := ks.length - 1
  let mid := ((ks.drop 1).take (n - 1)).reverse.foldl (fun s k => mix [14, 11, 13, 9] (xorB ((unshiftRows s).map unsub) k))
    (xorB b (ks.getLastD []))
  xorB ((unshiftRows mid).map unsub) (ks.headD [])

/-- The bytes of a number, little-endian. -/
def leOf : Nat → Nat → List Nat
  | 0, _ => []
  | n + 1, v => v % 256 :: leOf n (v / 256)

/-- The little-endian number of some bytes. -/
def ofLe : List Nat → Nat
  | [] => 0
  | b :: t => b + 256 * ofLe t

/-! ### XTS -/

/-- The next tweak: times alpha in GF(2^128), little-endian. -/
def nextTweak (t : Nat) : Nat := if t < 2 ^ 127 then 2 * t else (2 * t) % 2 ^ 128 ^^^ 0x87

/-- The blocks of a data unit under XTS, `f` the block cipher of the first key, `t` the tweak of the first block. -/
def xtsN (f : List Nat → List Nat) : Nat → Nat → List Nat → List Nat
  | 0, _, _ => []
  | n + 1, t, bs =>
    let tb := leOf 16 t
    xorB (f (xorB (bs.take 16) tb)) tb ++ xtsN f n (nextTweak t) (bs.drop 16)

/-- A data unit of whole blocks under a 512-bit key, whose first half encrypts the data and whose second half the tweak. -/
def xtsEnc (key : List Nat) (tweak : Nat) (bs : List Nat) : List Nat :=
  xtsN (enc (roundKeys (key.take 32))) (bs.length / 16) (ofLe (enc (roundKeys (key.drop 32)) (leOf 16 tweak))) bs

def xtsDec (key : List Nat) (tweak : Nat) (bs : List Nat) : List Nat :=
  xtsN (dec (roundKeys (key.take 32))) (bs.length / 16) (ofLe (enc (roundKeys (key.drop 32)) (leOf 16 tweak))) bs

/-- A data unit of 16 bytes or more under XTS, `f` the cipher of the first key, `t` the tweak of its first block: with bytes past the last
whole block, ciphertext stealing, in which the last two blocks use their tweaks in the order that `back` says. -/
def xtsSteal (f : List Nat → List Nat) (back : Bool) (t : Nat) (bs : List Nat) : List Nat :=
  let m := bs.length / 16
  let b := bs.length % 16
  if b = 0 then xtsN f m t bs
  else
    let t0 := Nat.repeat nextTweak (m - 1) t
    let t1 := nextTweak t0
    let (ta, tb) := if back then (t1, t0) else (t0, t1)
    let last := bs.drop (16 * m)
    let c := xtsN f 1 ta ((bs.drop (16 * (m - 1))).take 16)
    xtsN f (m - 1) t bs ++ xtsN f 1 tb (last ++ c.drop b) ++ c.take b

/-- A data unit under a 512-bit key and the tweak of its number. -/
def xtsUnit (back : Bool) (key : List Nat) (tweak : Nat) (bs : List Nat) : List Nat :=
  let ks := roundKeys (key.take 32)
  xtsSteal (if back then dec ks else enc ks) back (ofLe (enc (roundKeys (key.drop 32)) (leOf 16 tweak))) bs

/-! ### CBC -/

/-- `n` blocks in CBC from the block before them. -/
def cbcEnc (ks : List (List Nat)) : Nat → List Nat → List Nat → List Nat
  | 0, _, _ => []
  | n + 1, prev, bs =>
    let c := enc ks (xorB (bs.take 16) prev)
    c ++ cbcEnc ks n c (bs.drop 16)

def cbcDec (ks : List (List Nat)) : Nat → List Nat → List Nat → List Nat
  | 0, _, _ => []
  | n + 1, prev, bs => xorB (dec ks (bs.take 16)) prev ++ cbcDec ks n (bs.take 16) (bs.drop 16)

/-! ### GCM -/

/-- The big-endian number of some bytes, and back. -/
def ofBe (bs : List Nat) : Nat := bs.foldl (fun v b => 256 * v + b) 0
def beOf (n v : Nat) : List Nat := (leOf n v).reverse

/-- The product of GHASH: bit 127 of a number is the block's first bit, and the reduction is 0xE1 at its top. -/
def ghMulN : Nat → Nat → Nat → Nat
  | 0, _, _ => 0
  | n + 1, x, v => (if x.testBit n then v else 0) ^^^ ghMulN n x (if v % 2 = 1 then (v / 2) ^^^ (0xE1 * 2 ^ 120) else v / 2)

def ghMul (x h : Nat) : Nat := ghMulN 128 x h

/-- Zero bytes up to a whole block. -/
def padB (bs : List Nat) : List Nat := bs ++ List.replicate ((16 - bs.length % 16) % 16) 0

/-- GHASH of whole blocks. -/
def ghash (h : Nat) (bs : List Nat) : Nat :=
  (chunks 16 (bs.length / 16) bs).foldl (fun y b => ghMul (y ^^^ ofBe b) h) 0

/-- Counter mode: block `i` of the data is combined with the encryption of the counter block `i` past `ctr`. -/
def ctrMode (ks : List (List Nat)) (nonce : List Nat) : Nat → Nat → List Nat → List Nat
  | 0, _, _ => []
  | n + 1, ctr, bs => xorB (bs.take 16) (enc ks (nonce ++ beOf 4 ctr)) ++ ctrMode ks nonce n (ctr + 1) (bs.drop 16)

/-- The data under a 96-bit nonce, encrypted or decrypted. -/
def gcmCrypt (key nonce bs : List Nat) : List Nat := ctrMode (roundKeys key) nonce ((bs.length + 15) / 16) 2 bs

/-- The 16-byte tag of some ciphertext with additional data. -/
def gcmTag (key nonce aad ct : List Nat) : List Nat :=
  let ks := roundKeys key
  let h := ofBe (enc ks (List.replicate 16 0))
  let s := ghash h (padB aad ++ padB ct ++ beOf 8 (8 * aad.length) ++ beOf 8 (8 * ct.length))
  xorB (beOf 16 s) (enc ks (nonce ++ [0, 0, 0, 1]))

/-! ### CTR with a 128-bit counter -/

/-- `n` blocks from the counter block `c`, which counts up as a big-endian number of 128 bits. -/
def ctrBig (ks : List (List Nat)) : Nat → Nat → List Nat → List Nat
  | 0, _, _ => []
  | n + 1, c, bs => xorB (bs.take 16) (enc ks (beOf 16 (c % 2 ^ 128))) ++ ctrBig ks n (c + 1) (bs.drop 16)

end Sys2Proof.Machine.Aes
end

