-- ==== Sys2Proof/Machine/Sha.lean ====
section
/-! DEFINITION. SHA-256, SHA-384 and SHA-512 (FIPS 180-4) and HMAC over each (FIPS 198-1), which R278 and R292 to R297
use by name. PRESUMED: the algorithms are taken from those standards (assumption 30). The round constants are computed as
the standards define them, from the roots of the first primes. A hash's words are natural numbers below 2^w. -/

namespace Sys2Proof.Machine.Sha

/-- The floor of the `k`-th root of `n`, found bit by bit from bit `b - 1` down. -/
def root (k n : Nat) : Nat → Nat → Nat
  | 0, r => r
  | b + 1, r => if (r + 2 ^ b) ^ k ≤ n then root k n b (r + 2 ^ b) else root k n b r

/-- The first 80 primes. -/
def primes : List Nat :=
  ((List.range 410).filter (fun n => 2 ≤ n && (List.range n).all (fun d => d < 2 || n % d != 0))).take 80

/-- The low `w` bits of the fraction of a prime's `k`-th root. -/
def frac (k w p : Nat) : Nat := root k (p * 2 ^ (k * w)) (w + 5) 0 % 2 ^ w

/-- The parameters of one algorithm: word bits, rounds, the shift and rotate amounts of the four functions as FIPS 180-4
lists them (the third of each small sigma is a shift), output words, initial words. -/
structure Alg where
  w : Nat
  rounds : Nat
  S0 : Nat × Nat × Nat
  S1 : Nat × Nat × Nat
  s0 : Nat × Nat × Nat
  s1 : Nat × Nat × Nat
  out : Nat
  init : List Nat

def sha256 : Alg :=
  { w := 32, rounds := 64, S0 := (2, 13, 22), S1 := (6, 11, 25), s0 := (7, 18, 3), s1 := (17, 19, 10), out := 8,
    init := (primes.take 8).map (frac 2 32) }

def sha512 : Alg :=
  { w := 64, rounds := 80, S0 := (28, 34, 39), S1 := (14, 18, 41), s0 := (1, 8, 7), s1 := (19, 61, 6), out := 8,
    init := (primes.take 8).map (frac 2 64) }

def sha384 : Alg := { sha512 with out := 6, init := ((primes.drop 8).take 8).map (frac 2 64) }

/-- The algorithm of a code: 0 SHA-256, 1 SHA-384, 2 SHA-512 (3 to 5 are HMAC over each). -/
def algOf (c : Nat) : Alg := if c % 3 = 0 then sha256 else if c % 3 = 1 then sha384 else sha512

/-- Digest bytes. -/
def Alg.bytes (a : Alg) : Nat := a.out * a.w / 8
/-- Block bytes. -/
def Alg.block (a : Alg) : Nat := 2 * a.w

def rotr (w n x : Nat) : Nat := (x / 2 ^ n + x % 2 ^ n * 2 ^ (w - n)) % 2 ^ w

def big (w : Nat) (t : Nat × Nat × Nat) (x : Nat) : Nat := rotr w t.1 x ^^^ rotr w t.2.1 x ^^^ rotr w t.2.2 x
def small (w : Nat) (t : Nat × Nat × Nat) (x : Nat) : Nat := rotr w t.1 x ^^^ rotr w t.2.1 x ^^^ x / 2 ^ t.2.2

/-- The big-endian number of some bytes. -/
def beNat (bs : List Byte) : Nat := bs.foldl (fun n b => 256 * n + b.toNat) 0

/-- `n` bytes of a number, big-endian. -/
def beBytes (n v : Nat) : List Byte := ((List.range n).map (fun i => BitVec.ofNat 8 (v / 256 ^ (n - 1 - i))))

/-- A message block as its 16 words. -/
def words (a : Alg) (blk : List Byte) : List Nat :=
  (List.range 16).map (fun i => beNat ((blk.drop (i * (a.w / 8))).take (a.w / 8)))

/-- The message schedule, newest word first, extended `n` words. -/
def schedule (a : Alg) : Nat → List Nat → List Nat
  | 0, ws => ws
  | n + 1, ws =>
    let x := (small a.w a.s1 (ws.getD 1 0) + ws.getD 6 0 + small a.w a.s0 (ws.getD 14 0) + ws.getD 15 0) % 2 ^ a.w
    schedule a n (x :: ws)

/-- One round on the eight working variables. -/
def round (a : Alg) (v : List Nat) (kw : Nat) : List Nat :=
  match v with
  | [A, B, C, D, E, F, G, H] =>
    let m := 2 ^ a.w
    let ch := (E &&& F) ^^^ ((m - 1 - E) &&& G)
    let maj := (A &&& B) ^^^ (A &&& C) ^^^ (B &&& C)
    let t1 := (H + big a.w a.S1 E + ch + kw) % m
    let t2 := (big a.w a.S0 A + maj) % m
    [(t1 + t2) % m, A, B, C, (D + t1) % m, E, F, G]
  | v => v

/-- The compression function. -/
def compress (a : Alg) (h : List Nat) (blk : List Byte) : List Nat :=
  let ws := (schedule a (a.rounds - 16) (words a blk).reverse).reverse
  let ks := (primes.take a.rounds).map (frac 3 a.w)
  let v := (List.zipWith (fun k x => k + x) ks ws).foldl (round a) h
  List.zipWith (fun x y => (x + y) % 2 ^ a.w) h v

/-- The padding of a message of `n` bytes. -/
def pad (a : Alg) (n : Nat) : List Byte :=
  let l := a.w / 4
  let z := (a.block - (n + 1 + l) % a.block) % a.block
  0x80#8 :: (List.replicate z 0#8 ++ beBytes l (8 * n))

/-- Run the compression over `n` blocks. -/
def blocks (a : Alg) : Nat → List Byte → List Nat → List Nat
  | 0, _, h => h
  | n + 1, m, h => blocks a n (m.drop a.block) (compress a h (m.take a.block))

/-- The digest of a message. -/
def digest (a : Alg) (m : List Byte) : List Byte :=
  let p := m ++ pad a m.length
  (((blocks a (p.length / a.block) p a.init).take a.out).flatMap (beBytes (a.w / 8)))

/-- HMAC. -/
def hmac (a : Alg) (key m : List Byte) : List Byte :=
  let k0 := if a.block < key.length then digest a key else key
  let k := k0 ++ List.replicate (a.block - k0.length) 0#8
  let x (c : Byte) : List Byte := k.map (fun b => b ^^^ c)
  digest a (x 0x5C#8 ++ digest a (x 0x36#8 ++ m))

/-- The KDF in counter mode of SP 800-108r1 with HMAC-SHA-384 as R278 sets it: `bits` bits from the root key, with
the label's and the ERA's bytes in the fixed input. -/
def kdf (root_ : List Byte) (label era : List Byte) (bits : Nat) : List Byte :=
  let name : List Byte := [0x4B#8, 0x5A#8, 0x4B#8, 0x45#8, 0x59#8, 0x00#8]
  let n := (bits + 383) / 384
  ((List.range n).flatMap (fun i =>
    hmac sha384 root_ (beBytes 4 (i + 1) ++ name ++ label ++ era ++ beBytes 4 bits))).take (bits / 8)

end Sys2Proof.Machine.Sha
end

