-- ==== Sys2Proof/Machine/Codeword.lean ====
section
/-! DEFINITION. Keys as Halward derives them (R277 to R279), and a codeword as its bytes: the page tag (R127), the CRC-32C and the XTS
data unit (R120, R128), and die parity over what is stored (R163, R164, R169). -/

namespace Sys2Proof.Machine

/-! ### CRC-32C -/

/-- One bit of the reflected CRC-32C. -/
def crcBit (c : Nat) : Nat := if c % 2 = 1 then (c / 2) ^^^ 0x82F63B78 else c / 2

/-- CRC-32C (Castagnoli) of some bytes. -/
def crc32c (bs : List Byte) : Nat :=
  (bs.foldl (fun c b => Nat.repeat crcBit 8 (c ^^^ b.toNat)) 0xFFFFFFFF) ^^^ 0xFFFFFFFF

/-! ### Keys (R277 to R279) -/

/-- The label's 20 bytes (R277). -/
def Label.bytes (l : Label) : List Byte :=
  leBytes 1 l.purpose ++ leBytes 2 l.plot ++ leBytes 4 l.nsid ++ leBytes 4 l.epoch ++ leBytes 8 l.ulabel ++ [0#8]

/-- The key length in bits of a purpose; for HMAC it is the digest length (R277). -/
def keyBits (purpose alg : Nat) : Nat :=
  if purpose = 1 ∨ purpose = 2 then 512 else if purpose = 6 then 8 * (Sha.algOf alg).bytes else 256

/-- ERA of a plot (R279). -/
def Dev.era (d : Dev) (p : Nat) : Nat := AMap.get 0 p d.eras

/-- The root key Halward holds: that of the life-cycle state, or the session root of TEST, also while TEST is in DOZE (R278, R391, R55).
Its value is not in the spec: a free value. -/
def Dev.rootKey (d : Dev) : List Byte :=
  leBytes 48 (Config.rootKey (d.f F.HALW_LCS_LCCOUNT) (if d.flag F.HALW_LCS_TEST then d.nv.bootCount + 1 else 0))

/-- The key of a label (R278). -/
def Dev.keyOf (d : Dev) (l : Label) (alg : Nat) : List Byte :=
  Sha.kdf d.rootKey l.bytes (leBytes 4 (d.era l.plot)) (keyBits l.purpose alg)

/-- The label of the media key of a namespace and epoch (R129, R277). -/
def mediaLabel (nsid epoch : Nat) : Label := { purpose := 1, plot := 0, nsid := nsid, epoch := epoch, ulabel := 0 }

/-- Bytes as the cipher takes them. -/
def toNats (bs : List Byte) : List Nat := bs.map BitVec.toNat

/-! ### Key slots (R281) -/

/-- The key slots of a quadrant. -/
def Dev.keySlots (d : Dev) (q : Nat) : List KeySlot := AMap.get [] q d.crypt.keys

def Dev.setKeySlots (d : Dev) (q : Nat) (ks : List KeySlot) : Dev :=
  ({ d with crypt := { d.crypt with keys := AMap.set [] q ks d.crypt.keys } }).setF (F.CIPH_STAT_KSLOTS q) ks.length

def Dev.keySlot? (d : Dev) (q : Nat) (l : Label) : Option KeySlot :=
  (d.keySlots q).find? (fun k => k.label == l && k.era == d.era l.plot)

/-- The slot a derivation goes into: the lowest that holds no key, else the one of those not pinned used least recently
(R281). -/
def Dev.keyVictim (d : Dev) (q : Nat) : Option Nat :=
  let ks := d.keySlots q
  match (List.range 256).find? (fun i => !ks.any (fun k => k.idx == i)) with
  | some i => some i
  | none =>
    let loose := ks.filter (fun k => k.pins.isEmpty)
    let oldest := ((loose.map KeySlot.used).min?).getD 0
    (loose.find? (fun k => k.used == oldest)).map KeySlot.idx

/-- A request for a key (R281): a slot that holds it is used; otherwise Halward derives it. An XTS key whose halves are
equal refuses the request: the answer is then `none`. The answer names the slot. -/
def Dev.getKey (d : Dev) (q : Nat) (l : Label) (alg : Nat) (u : EngUser) : Option Nat × Dev :=
  let t := d.crypt.uses + 1
  let d0 := { d with crypt := { d.crypt with uses := t } }
  match d.keySlot? q l with
  | some k =>
    let up (x : KeySlot) : KeySlot :=
      if x.idx == k.idx then { x with used := t, pins := if x.pins.contains u then x.pins else x.pins ++ [u] } else x
    (some k.idx, (d0.setKeySlots q ((d.keySlots q).map up)).bump (F.CIPH_CNT_COUNT q 4) 0x164 q 1)
  | none =>
    let d1 := d0.bump (F.CIPH_CNT_COUNT q 5) 0x165 q 1
    let key := d1.keyOf l alg
    if keyBits l.purpose alg = 512 ∧ l.purpose ≤ 2 ∧ key.take 32 = key.drop 32 then (none, d1)
    else match d1.keyVictim q with
      | none => (none, d1)
      | some i =>
        let k : KeySlot := { idx := i, label := l, era := d1.era l.plot, pins := [u], used := t, lease := none }
        (some i, d1.setKeySlots q ((d1.keySlots q).filter (fun x => x.idx != i) ++ [k]))

/-- Unpin the slots a holder has pinned. -/
def Dev.unpin (d : Dev) (q : Nat) (u : EngUser) : Dev :=
  let up (k : KeySlot) : KeySlot := { k with pins := k.pins.filter (fun x => !(x == u)) }
  d.setKeySlots q ((d.keySlots q).map up)

/-- Clear the key slots that a test picks, in every quadrant (R281). -/
def Dev.clearKeys (d : Dev) (p : KeySlot → Bool) : Dev :=
  (List.range 4).foldl (fun (e : Dev) q => e.setKeySlots q ((e.keySlots q).filter (fun k => !p k))) d

/-- A lane loads the media key of a namespace from the quadrant's key slots, where it has not (R129): it holds 8, and the one loaded
first makes room (DESIGN CHOICE, assumption 151). `none` while no key slot can take the key. -/
def Dev.laneKey (d : Dev) (ch nsid epoch : Nat) : Option Dev :=
  let l := AMap.get [] ch d.media.lanes
  if l.contains (nsid, epoch) then some d
  else match d.getKey (ch / 8) (mediaLabel nsid epoch) 0 (.lane (ch % 8) nsid) with
  | (none, _) => none
  | (some _, e) =>
    let e1 := (l.drop 7).foldl (fun (x : Dev) k => x.unpin (ch / 8) (.lane (ch % 8) k.1)) e
    some { e1 with media := { e1.media with lanes := AMap.set [] ch ((nsid, epoch) :: l.take 7) e1.media.lanes } }

/-! ### The page tag (R127) -/

/-- One step of the CRC-8 with the polynomial 0x07 (R86, R183), most significant bit first. -/
def crc8Step (c : Nat) : Nat := if bit c 7 then Nat.xor (c * 2 % 256) 0x07 else c * 2 % 256

/-- The CRC-8 of bytes, from 0 on (that start is PRESUMED: SMBus has it, R183 gives none; assumption 172). -/
def crc8 (bs : List Nat) : Nat := bs.foldl (fun c b => Nat.repeat crc8Step 8 (Nat.xor c (b % 256))) 0

/-- One bit of the CRC-16 of CCITT, polynomial 0x1021, most significant bit first. -/
def ccittStep (c : Nat) : Nat := if bit c 15 then Nat.xor (c * 2 % 65536) 0x1021 else c * 2 % 65536

/-- CRC-16 (CCITT) with initial value 0xFFFF (PRESUMED, assumption 150). -/
def crcCcitt (bs : List Byte) : Nat := bs.foldl (fun c b => Nat.repeat ccittStep 8 (Nat.xor c (b.toNat * 256))) 0xFFFF

/-- FLAGS of a tag: POISON, and UNCORR_MARK for a UMASK that is not zero. -/
def Cw.flags (c : Cw) : Nat := Bool.nat c.poison + 2 * Bool.nat (c.umask != 0)

/-- Bytes 0 to 21 of the tag. -/
def Cw.tagBody (c : Cw) : List Byte :=
  leBytes 5 c.iu ++ leBytes 4 c.nsid ++ leBytes 8 c.wseq ++ leBytes 1 c.reloc ++ leBytes 1 c.gen ++ leBytes 1 c.cwidx ++ leBytes 1 c.kind ++
    leBytes 1 (if c.kind = 2 then 0 else c.flags)

/-- The 24 bytes of the tag, TCRC last. -/
def Cw.tag (c : Cw) : List Byte := c.tagBody ++ leBytes 2 (crcCcitt c.tagBody)

/-! ### The payload (R120, R128) -/

/-- CWCOUNT of the header in the first codeword of a compressed IU (R254). -/
def Cw.cwcount (c : Cw) : Nat := c.data / 256 % 256

/-- Write-cache slots, and codewords uncompressed, of an IU: 1, 4 or 16. -/
def Ns.iuSlots (n : Ns) : Nat := 4 ^ n.iu

def Dev.ns? (d : Dev) (nsid : Nat) : Option Ns := d.md.nss.find? (fun n => n.nsid == nsid)

/-- The XTS data unit in clear: the 4,096 data bytes and the 64 bytes of host metadata, as a number. -/
def Cw.unit (c : Cw) : Nat := c.data % 2 ^ 32768 + 2 ^ 32768 * (c.hmeta % 2 ^ 512)

/-- The CRC-32C over the plaintext. -/
def Cw.crc (c : Cw) : Nat := crc32c (leBytes 4160 c.unit)

/-- The tweak of a codeword: IU times the codewords of an IU, plus CWIDX. -/
def Dev.tweak (d : Dev) (nsid iu cwidx : Nat) : Nat := iu * ((d.ns? nsid).map Ns.iuSlots).getD 1 + cwidx

/-- The media key of a namespace in an epoch. -/
def Dev.mediaKey (d : Dev) (nsid epoch : Nat) : List Nat := toNats (d.keyOf (mediaLabel nsid epoch) 0)

/-- The data unit as it is stored: encrypted for KIND 0x0 and 0x1. -/
def Dev.stored (d : Dev) (c : Cw) : Nat :=
  if c.kind ≤ 1 then Aes.ofLe (Aes.xtsEnc (d.mediaKey c.nsid c.epoch) (d.tweak c.nsid c.iu c.cwidx) (Aes.leOf 4160 c.unit)) else c.unit

/-- The 4,192 bytes of payload of a codeword. -/
def Dev.payload (d : Dev) (c : Cw) : List Byte :=
  let u := leBytes 4160 (d.stored c)
  let tail := if c.kind = 2 then leBytes 8 c.pf else leBytes 4 c.crc ++ leBytes 4 c.umask
  u.take 4096 ++ c.tag ++ u.drop 4096 ++ tail

/-! ### Die parity (R163, R164, R169) -/

/-- Bytes of what parity covers: the data unit, WSEQ, RELOC, GEN, and the CRC-32C, KIND, FLAGS and UMASK. -/
def coverBytes : Nat := 4160 + 8 + 1 + 1 + 7

/-- What parity covers of a data codeword, as one number. -/
def Dev.covered (d : Dev) (c : Cw) : Nat :=
  d.stored c + 2 ^ 33280 * (c.wseq % 2 ^ 64 + 2 ^ 64 * (c.reloc % 256 + 256 * (c.gen % 256 + 256 *
    (c.crc + 2 ^ 32 * (c.kind % 256 + 256 * (c.flags + 256 * (c.umask % 256)))))))

/-- Every byte of a number of `n` bytes times 0x02 in GF(2^8) with the polynomial 0x11D (R163). -/
def gfDouble (n v : Nat) : Nat :=
  let ones := (256 ^ n - 1) / 255
  let hi := v / 128 &&& ones
  Nat.xor ((v - hi * 128) * 2) (hi * 0x1D)

/-- Every byte times g^n, g = 0x02. -/
def gfShift (n w : Nat) : Nat := Nat.repeat (gfDouble coverBytes) n w

/-- Every byte times g^(-n): g has order 255. -/
def gfUnshift (n w : Nat) : Nat := gfShift (255 - n % 255) w

/-- The power of g that the byte `c` is, which is not 0. -/
def gfLog (c : Nat) : Nat := ((List.range 255).find? (fun n => gfShift n 1 == c)).getD 0

/-- Every byte of `w` over the byte `c`. -/
def gfOver (c w : Nat) : Nat := gfUnshift (gfLog c) w

/-- P and Q over data members `j` with what they hold. -/
def pSum (ws : List (Nat × Nat)) : Nat := ws.foldl (fun x w => x ^^^ w.2) 0
def qSum (ws : List (Nat × Nat)) : Nat := ws.foldl (fun x w => x ^^^ gfShift w.1 w.2) 0

/-- A parity codeword that holds this parity (R164): KIND 0x2, the stripe number in IU, 0 for P and 1 for Q. -/
def parityCw (num : Nat) (q : Bool) (w : Nat) : Cw :=
  let u := w / 2 ^ 33280
  { data := w % 2 ^ 32768, hmeta := w / 2 ^ 32768 % 2 ^ 512, umask := 0, epoch := 0, iu := num, nsid := 0, wseq := u % 2 ^ 64,
    reloc := u / 2 ^ 64 % 256, gen := u / 2 ^ 72 % 256, cwidx := Bool.nat q, kind := 2, poison := false, pf := u / 2 ^ 80 }

/-- The parity that such a codeword holds. -/
def Cw.parity (c : Cw) : Nat :=
  c.unit + 2 ^ 33280 * (c.wseq + 2 ^ 64 * (c.reloc + 256 * (c.gen + 256 * c.pf)))

/-- The codeword that a reconstructed number spells, its NSID, IU and CWIDX from the map (R164): decrypted under the namespace's current
epoch; `none` where its CRC-32C does not match. -/
def Dev.uncover (d : Dev) (nsid iu cwidx w : Nat) : Option Cw :=
  let u := w / 2 ^ 33280
  let kind := u / 2 ^ 112 % 256
  let flags := u / 2 ^ 120 % 256
  let epoch := ((d.ns? nsid).map (fun n => n.epoch)).getD 0
  let ct := w % 2 ^ 33280
  let pt := if kind ≤ 1 then Aes.ofLe (Aes.xtsDec (d.mediaKey nsid epoch) (d.tweak nsid iu cwidx) (Aes.leOf 4160 ct)) else ct
  let c : Cw := { data := pt % 2 ^ 32768, hmeta := pt / 2 ^ 32768, umask := u / 2 ^ 128 % 256, epoch := epoch, iu := iu, nsid := nsid,
                  wseq := u % 2 ^ 64, reloc := u / 2 ^ 64 % 256, gen := u / 2 ^ 72 % 256, cwidx := cwidx, kind := kind,
                  poison := bit flags 0, pf := 0 }
  if c.crc = u / 2 ^ 80 % 2 ^ 32 then some c else none

end Sys2Proof.Machine
end

