-- ==== Sys2Proof/Machine/Formats.lean ====
section
/-! DEFINITION. The compressed formats of Churn (R243 to R249): DEFLATE, zlib, gzip, LZ4 and Zstandard, which the spec uses by name.
PRESUMED: their element formats are those of RFC 1950, 1951, 1952 and 8878 and of the LZ4 block format (assumption 165). A decoder checks
every element as it reads it and keeps what it has produced; the bytes a compressor emits are a free value that is used only where it is
a valid coding of its block. -/

namespace Sys2Proof.Machine.Fmt

/-! ### Checksums (R248) -/

/-- Adler-32. -/
def adler32 (bs : List Byte) : Nat :=
  let r := bs.foldl (fun (x : Nat × Nat) b => ((x.1 + b.toNat) % 65521, (x.2 + x.1 + b.toNat) % 65521)) (1, 0)
  r.2 * 65536 + r.1

/-- One bit of the reflected CRC-32 of gzip. -/
def crc32Bit (c : Nat) : Nat := if c % 2 = 1 then (c / 2) ^^^ 0xEDB88320 else c / 2

def crc32 (bs : List Byte) : Nat := (bs.foldl (fun c b => Nat.repeat crc32Bit 8 (c ^^^ b.toNat)) 0xFFFFFFFF) ^^^ 0xFFFFFFFF

/-! ### XXH64, for Zstandard's content checksum -/

def x1 : Nat := 11400714785074694791
def x2 : Nat := 14029467366897019727
def x3 : Nat := 1609587929392839161
def x4 : Nat := 9650029242287828579
def x5 : Nat := 2870177450012600261

def rol64 (v k : Nat) : Nat := (v * 2 ^ k) % 2 ^ 64 + v / 2 ^ (64 - k)
def xround (a v : Nat) : Nat := (rol64 ((a + v * x2) % 2 ^ 64) 31 * x1) % 2 ^ 64
def xmerge (h a : Nat) : Nat := ((h ^^^ xround 0 a) * x1 + x4) % 2 ^ 64

/-- The tail of a message after its 32-byte stripes. -/
def xtail : Nat → Nat → List Byte → Nat
  | 0, h, _ => h
  | n + 1, h, bs =>
    if 8 ≤ bs.length then xtail n ((rol64 (h ^^^ xround 0 (leNat (bs.take 8))) 27 * x1 + x4) % 2 ^ 64) (bs.drop 8)
    else if 4 ≤ bs.length then xtail n ((rol64 (h ^^^ (leNat (bs.take 4) * x1) % 2 ^ 64) 23 * x2 + x3) % 2 ^ 64) (bs.drop 4)
    else match bs with
      | [] => h
      | b :: t => xtail n ((rol64 (h ^^^ (b.toNat * x5) % 2 ^ 64) 11 * x1) % 2 ^ 64) t

/-- The four accumulators over `n` stripes. -/
def xstripes : Nat → List Byte → List Nat → List Nat
  | 0, _, acc => acc
  | n + 1, bs, acc => xstripes n (bs.drop 32) (acc.zipIdx.map (fun a => xround a.1 (leNat ((bs.drop (8 * a.2)).take 8))))

def xxh64 (bs : List Byte) : Nat :=
  let n := bs.length / 32
  let acc := xstripes n bs [(x1 + x2) % 2 ^ 64, x2, 0, 2 ^ 64 - x1]
  let h0 := if n = 0 then x5
    else acc.foldl xmerge ((rol64 (acc.getD 0 0) 1 + rol64 (acc.getD 1 0) 7 + rol64 (acc.getD 2 0) 12 + rol64 (acc.getD 3 0) 18) % 2 ^ 64)
  let h1 := xtail (bs.length + 1) ((h0 + bs.length) % 2 ^ 64) (bs.drop (32 * n))
  let h2 := ((h1 ^^^ h1 / 2 ^ 33) * x2) % 2 ^ 64
  let h3 := ((h2 ^^^ h2 / 2 ^ 29) * x3) % 2 ^ 64
  h3 ^^^ h3 / 2 ^ 32

/-! ### The state of a decoder -/

/-- The input as a number with its length in bits, the first bit lowest. -/
structure Src where
  v : Nat
  bits : Nat

def Src.of (bs : List Byte) : Src := ⟨leNat bs, 8 * bs.length⟩

/-- `n` bits at `p`, or `none` past the end. -/
def Src.get? (s : Src) (p n : Nat) : Option Nat := if p + n ≤ s.bits then some (s.v / 2 ^ p % 2 ^ n) else none

/-- A decoder: its place in the input in bits, the output newest byte first and its length, the output length at which the history begins,
the window, the most that this part of the output may hold, and the ends of the output units so far as (output bytes, input bits), newest
first (R249). -/
structure Dec where
  pos : Nat
  out : List Byte
  len : Nat
  base : Nat
  win : Nat
  limit : Nat
  units : List (Nat × Nat)

def Dec.init : Dec := { pos := 0, out := [], len := 0, base := 0, win := 32768, limit := 2 ^ 64, units := [] }

/-- Why a decoder stops: the input ends, or an element fails a check (R247). -/
inductive Stop where
  | short
  | bad (f : Finding)
  deriving DecidableEq, Repr

/-- A step of a decoder: its state, and where it has stopped, why and at which bit. -/
abbrev Res := Dec × Option (Stop × Nat)

/-- An output unit ends here. -/
def Dec.cut (s : Dec) : Dec := { s with units := (s.len, s.pos) :: s.units }

/-- The output since the last unit reaches 64 KiB: a unit ends at this element (R249; the cut falls on an element: DEDUCED, assumption
166). -/
def Dec.cut64 (s : Dec) : Dec := if 65536 ≤ s.len - ((s.units.head?).map Prod.fst).getD 0 then s.cut else s

/-- `n` bytes from `dist` back. -/
def copyBack (dist : Nat) : Nat → List Byte → List Byte
  | 0, out => out
  | n + 1, out => copyBack dist n (out.getD (dist - 1) 0#8 :: out)

/-- May a match reach back so far? -/
def Dec.reaches (s : Dec) (dist : Nat) : Bool := decide (1 ≤ dist ∧ dist ≤ s.len - s.base ∧ dist ≤ s.win)

def Dec.copy (s : Dec) (dist n p : Nat) : Dec := { s with pos := p, out := copyBack dist n s.out, len := s.len + n }

/-- Bytes of the input go to the output. -/
def Dec.put (s : Dec) (bs : List Byte) (p : Nat) : Dec := { s with pos := p, out := bs.reverse ++ s.out, len := s.len + bs.length }

/-! ### DEFLATE (RFC 1951) -/

/-- A Huffman code by its code lengths: the number of codes of each length 1 to 15, and the symbols in code order. -/
structure Huff where
  counts : List Nat
  syms : List Nat

def huff (ls : List Nat) : Huff :=
  { counts := (List.range 15).map (fun k => ls.count (k + 1))
    syms := (List.range 15).flatMap (fun k => (ls.zipIdx.filter (fun x => x.1 == k + 1)).map Prod.snd) }

/-- The share of the code space that a code uses, in 1/2^15. -/
def kraft (ls : List Nat) : Nat := (ls.map (fun l => if l = 0 then 0 else 2 ^ (15 - l))).sum

/-- A complete code; for distances also one code of one bit, or none (R247). -/
def codeOk (ls : List Nat) (dist : Bool) : Bool :=
  kraft ls == 2 ^ 15 || (dist && ls.all (fun l => decide (l ≤ 1)) && decide (ls.count 1 ≤ 1))

/-- Read one symbol: over the counts of the lengths from 1 up, with the code so far, the first code and the first symbol of the length. -/
def symLoop (s : Src) (syms : List Nat) : List Nat → Nat → Nat → Nat → Nat → Except Stop (Nat × Nat)
  | [], _, _, _, _ => .error (.bad .badCode)
  | c :: t, p, code, first, idx =>
    match s.get? p 1 with
    | none => .error .short
    | some b =>
      if code + b < first + c then .ok (syms.getD (idx + (code + b - first)) 0, p + 1)
      else symLoop s syms t (p + 1) (2 * (code + b)) (2 * (first + c)) (idx + c)

def Huff.sym (h : Huff) (s : Src) (p : Nat) : Except Stop (Nat × Nat) := symLoop s h.syms h.counts p 0 0 0

/-- Base and extra bits of a length symbol, 257 being 0, and of a distance symbol. -/
def lenCode (k : Nat) : Nat × Nat :=
  if k < 8 then (k + 3, 0) else if k = 28 then (258, 0) else ((4 + k % 4) * 2 ^ (k / 4 - 1) + 3, k / 4 - 1)

def distCode (k : Nat) : Nat × Nat := if k < 4 then (k + 1, 0) else ((2 + k % 2) * 2 ^ (k / 2 - 1) + 1, k / 2 - 1)

/-- The symbols of a block up to its end. -/
def symbols (s : Src) (hl hd : Huff) : Nat → Dec → Res
  | 0, d => (d, some (.short, d.pos))
  | n + 1, d =>
    match hl.sym s d.pos with
    | .error e => (d, some (e, d.pos))
    | .ok (k, p) =>
      if k < 256 then
        if d.limit ≤ d.len - d.base then (d, some (.bad .lengthOverrun, d.pos))
        else symbols s hl hd n ({ d with pos := p, out := BitVec.ofNat 8 k :: d.out, len := d.len + 1 }).cut64
      else if k = 256 then ({ d with pos := p }, none)
      else if 286 ≤ k then (d, some (.bad .badCode, d.pos))
      else
        let l := lenCode (k - 257)
        match s.get? p l.2 with
        | none => (d, some (.short, d.pos))
        | some x =>
          match hd.sym s (p + l.2) with
          | .error e => (d, some (e, p + l.2))
          | .ok (j, p2) =>
            if 30 ≤ j then (d, some (.bad .badCode, p + l.2))
            else
              let m := distCode j
              match s.get? p2 m.2 with
              | none => (d, some (.short, p + l.2))
              | some y =>
                if d.reaches (m.1 + y) = false then (d, some (.bad .badDistance, p + l.2))
                else if d.limit < d.len - d.base + (l.1 + x) then (d, some (.bad .lengthOverrun, d.pos))
                else symbols s hl hd n (d.copy (m.1 + y) (l.1 + x) (p2 + m.2)).cut64

/-- The code lengths of a dynamic block, `n` of them: so far in reverse. -/
def readLens (s : Src) (h : Huff) (n : Nat) : Nat → Nat → List Nat → Except (Stop × Nat) (List Nat × Nat)
  | 0, p, _ => .error (.short, p)
  | k + 1, p, ls =>
    if n ≤ ls.length then (if ls.length = n then .ok (ls.reverse, p) else .error (.bad .badCode, p))
    else match h.sym s p with
      | .error e => .error (e, p)
      | .ok (x, p1) =>
        if x < 16 then readLens s h n k p1 (x :: ls)
        else
          let w := if x = 16 then 2 else if x = 17 then 3 else 7
          match s.get? p1 w with
          | none => .error (.short, p)
          | some e =>
            let r := (if x = 18 then 11 else 3) + e
            if (x = 16 ∧ ls = []) ∨ n < ls.length + r then .error (.bad .badCode, p)
            else readLens s h n k (p1 + w) (List.replicate r (if x = 16 then ls.headD 0 else 0) ++ ls)

/-- The order of the code length code's lengths. -/
def clOrder : List Nat := [16, 17, 18, 0, 8, 7, 9, 6, 10, 5, 11, 4, 12, 3, 13, 2, 14, 1, 15]

/-- The two codes of a dynamic block whose header ends at `p`, and where its symbols begin. -/
def dynCodes (s : Src) (p : Nat) : Except (Stop × Nat) (Huff × Huff × Nat) :=
  match s.get? p 5, s.get? (p + 5) 5, s.get? (p + 10) 4 with
  | some hl, some hd, some hc =>
    let nl := hl + 257
    let n := nl + hd + 1
    match (List.range (hc + 4)).mapM (fun i => s.get? (p + 14 + 3 * i) 3) with
    | none => .error (.short, p + 14)
    | some cl =>
      let lens := (List.range 19).map (fun y => ((clOrder.take (hc + 4)).zipIdx.find? (fun o => o.1 == y)).elim 0 (fun o => cl.getD o.2 0))
      if codeOk lens false = false then .error (.bad .badCode, p + 14)
      else match readLens s (huff lens) n (n + 1) (p + 14 + 3 * (hc + 4)) [] with
        | .error e => .error e
        | .ok (ls, p2) =>
          if codeOk (ls.take nl) false = false ∨ codeOk (ls.drop nl) true = false then .error (.bad .badCode, p + 14 + 3 * (hc + 4))
          else .ok (huff (ls.take nl), huff (ls.drop nl), p2)
  | _, _, _ => .error (.short, p)

/-- The codes of a fixed block. -/
def fixedLit : Huff :=
  huff (List.replicate 144 8 ++ List.replicate 112 9 ++ List.replicate 24 7 ++ List.replicate 8 8)
def fixedDist : Huff := huff (List.replicate 32 5)

/-- One DEFLATE block whose 3 header bits end at `p`: a unit ends with it. -/
def block (s : Src) (ty p : Nat) (d : Dec) : Res :=
  let done (r : Res) : Res := match r.2 with
    | none => (if ((r.1.units.head?).map Prod.fst).getD 0 = r.1.len then { r.1 with units := (r.1.len, r.1.pos) :: r.1.units.drop 1 } else r.1.cut, none)
    | some _ => r
  match ty with
  | 0 =>
    let a := (p + 7) / 8 * 8
    match s.get? a 16, s.get? (a + 16) 16 with
    | some n, some m =>
      if n + m ≠ 65535 then (d, some (.bad .badCode, a))
      else if d.limit < d.len - d.base + n then (d, some (.bad .lengthOverrun, a + 32))
      else match s.get? (a + 32) (8 * n) with
        | some x => done (d.put (leBytes n x) (a + 32 + 8 * n), none)
        | none => (d, some (.short, a + 32))
    | _, _ => (d, some (.short, a))
  | 1 => done (symbols s fixedLit fixedDist (s.bits + 1) { d with pos := p })
  | 2 => match dynCodes s p with
    | .error e => (d, some e)
    | .ok (hl, hd, p2) => done (symbols s hl hd (s.bits + 1) { d with pos := p2 })
  | _ => (d, some (.bad .badCode, p - 2))

/-- DEFLATE blocks up to the final one; beside the state, the blocks as (type, output bytes, final), newest first. -/
def inflate (s : Src) : Nat → Dec → List (Nat × Nat × Bool) → Res × List (Nat × Nat × Bool)
  | 0, d, bs => ((d, some (.short, d.pos)), bs)
  | n + 1, d, bs =>
    match s.get? d.pos 1, s.get? (d.pos + 1) 2 with
    | some fin, some ty =>
      match block s ty (d.pos + 3) d with
      | (e, some x) => ((e, some x), bs)
      | (e, none) =>
        let bs1 := (ty, e.len - d.len, fin == 1) :: bs
        if fin = 1 then ((e, none), bs1) else inflate s n e bs1
    | _, _ => ((d, some (.short, d.pos)), bs)

def inflateAll (s : Src) (d : Dec) : Res := (inflate s (s.bits + 1) { d with base := d.len } []).1

/-- The next whole byte. -/
def Dec.align (d : Dec) : Dec := { d with pos := (d.pos + 7) / 8 * 8 }

/-- A checksum field of `n` bytes at the place, which must equal `v` where it is verified. -/
def checkAt (s : Src) (verify : Bool) (n v : Nat) (d : Dec) : Res :=
  match s.get? d.pos (8 * n) with
  | none => (d, some (.short, d.pos))
  | some x => if verify && x != v then (d, some (.bad .badChecksum, d.pos)) else ({ d with pos := d.pos + 8 * n }, none)

/-- The output of the stream that began at `base`, oldest byte first. -/
def Dec.stream (d : Dec) : List Byte := (d.out.take (d.len - d.base)).reverse

/-- zlib (RFC 1950). -/
def zlib (s : Src) (verify : Bool) (d : Dec) : Res :=
  match s.get? d.pos 8, s.get? (d.pos + 8) 8 with
  | some cmf, some flg =>
    if (256 * cmf + flg) % 31 ≠ 0 ∨ cmf % 16 ≠ 8 ∨ 7 < cmf / 16 ∨ bit flg 5 = true then (d, some (.bad .badHeader, d.pos))
    else match inflateAll s { d with pos := d.pos + 16, win := 2 ^ (cmf / 16 + 8) } with
      | (e, some x) => (e, some x)
      | (e, none) => checkAt s verify 4 (Sha.beNat (leBytes 4 (adler32 e.stream)) ) e.align
  | _, _ => (d, some (.short, d.pos))

/-- The place after a zero-terminated string. -/
def skipZ (s : Src) : Nat → Nat → Option Nat
  | 0, _ => none
  | n + 1, p => match s.get? p 8 with
    | none => none
    | some 0 => some (p + 8)
    | some _ => skipZ s n (p + 8)

/-- The end of the optional fields of a gzip header, before FHCRC. -/
def gzipOpts (s : Src) (flg p : Nat) : Option Nat :=
  let n := s.bits + 1
  let afterExtra := if bit flg 2 then (s.get? p 16).bind (fun x => (s.get? (p + 16) (8 * x)).map (fun _ => p + 16 + 8 * x)) else some p
  let afterName := afterExtra.bind (fun q => if bit flg 3 then skipZ s n q else some q)
  afterName.bind (fun q => if bit flg 4 then skipZ s n q else some q)

/-- One gzip member (RFC 1952). -/
def gzipMember (s : Src) (verify : Bool) (d : Dec) : Res :=
  let p := d.pos
  match s.get? p 32, s.get? (p + 32) 48 with
  | some h, some _ =>
    let flg := h / 2 ^ 24
    if h % 2 ^ 24 ≠ 0x088B1F ∨ 32 ≤ flg then (d, some (.bad .badHeader, p))
    else match gzipOpts s flg (p + 80) with
      | none => (d, some (.short, p + 80))
      | some p2 =>
        let hdr := leBytes ((p2 - p) / 8) (s.v / 2 ^ p % 2 ^ (p2 - p))
        let r := if bit flg 1 then checkAt s verify 2 (crc32 hdr % 65536) { d with pos := p2 } else ({ d with pos := p2 }, none)
        match r with
        | (e, some x) => (e, some x)
        | (e, none) =>
          match inflateAll s { e with win := 32768 } with
          | (f, some x) => (f, some x)
          | (f, none) =>
            match checkAt s verify 4 (crc32 f.stream) f.align with
            | (g, some x) => (g, some x)
            | (g, none) => checkAt s verify 4 (g.stream.length % 2 ^ 32) g
  | some h, none => if h % 2 ^ 24 ≠ 0x088B1F ∨ 32 ≤ h / 2 ^ 24 then (d, some (.bad .badHeader, p)) else (d, some (.short, p))
  | none, _ => (d, some (.short, p))

/-- Members one after the other; what continues with 0x1F 0x8B is a member (R247). -/
def gzip (s : Src) (verify : Bool) : Nat → Dec → Res
  | 0, d => (d, some (.short, d.pos))
  | n + 1, d =>
    match gzipMember s verify d with
    | (e, some x) => (e, some x)
    | (e, none) => if s.get? e.pos 16 = some 0x8B1F then gzip s verify n e else (e, none)

/-! ### LZ4 (R245) -/

/-- A length that goes on while bytes are 255. -/
def lz4Len (s : Src) (stop : Nat) : Nat → Nat → Nat → Option (Nat × Nat)
  | 0, _, _ => none
  | n + 1, p, v =>
    if stop < p + 8 then none
    else match s.get? p 8 with
      | none => none
      | some 255 => lz4Len s stop n (p + 8) (v + 255)
      | some b => some (v + b, p + 8)

/-- The sequences of an LZ4 block that ends at bit `stop`: literals and a match each, the last with literals alone. -/
def lz4Seqs (s : Src) (stop : Nat) : Nat → Dec → Res
  | 0, d => (d, some (.short, d.pos))
  | n + 1, d =>
    let ends (e : Dec) (p : Nat) : Res := (e, some (if s.bits < stop then .short else .bad .lengthOverrun, p))
    if stop < d.pos + 8 then ends d d.pos
    else match s.get? d.pos 8 with
    | none => ends d d.pos
    | some t =>
      let lit := if t / 16 = 15 then lz4Len s stop (s.bits + 1) (d.pos + 8) 15 else some (t / 16, d.pos + 8)
      match lit with
      | none => ends d d.pos
      | some (k, p) =>
        if stop < p + 8 * k then ends d d.pos
        else match s.get? p (8 * k) with
        | none => ends d d.pos
        | some x =>
          if d.limit < d.len - d.base + k then (d, some (.bad .lengthOverrun, d.pos))
          else
            let e := (d.put (leBytes k x) (p + 8 * k)).cut64
            if e.pos = stop then (e, none)
            else if stop < e.pos + 16 then ends e e.pos
            else match s.get? e.pos 16 with
            | none => ends e e.pos
            | some dist =>
              if e.reaches dist = false then (e, some (.bad .badDistance, e.pos))
              else
                let ml := if t % 16 = 15 then lz4Len s stop (s.bits + 1) (e.pos + 16) 15 else some (t % 16, e.pos + 16)
                match ml with
                | none => ends e e.pos
                | some (m, p2) =>
                  if e.limit < e.len - e.base + (m + 4) then (e, some (.bad .lengthOverrun, e.pos))
                  else lz4Seqs s stop n (e.copy dist (m + 4) p2).cut64

/-- One LZ4 block of `n` bytes at the place, of up to `limit` bytes of output. -/
def lz4Block (s : Src) (n limit : Nat) (d : Dec) : Res :=
  lz4Seqs s (d.pos + 8 * n) (s.bits + 1) { d with base := d.len, win := 65535, limit := limit }

/-- The framed blocks of R245, to the end of the input. -/
def lz4 (s : Src) : Nat → Dec → Res
  | 0, d => (d, some (.short, d.pos))
  | n + 1, d =>
    if d.pos = s.bits then (d, none)
    else match s.get? d.pos 32 with
    | none => (d, some (.short, d.pos))
    | some w =>
      let k := w % 2 ^ 31
      let r := if bit w 31 then
          if 4 * 2 ^ 20 < k then (d, some (.bad .lengthOverrun, d.pos))
          else match s.get? (d.pos + 32) (8 * k) with
            | some x => (d.put (leBytes k x) (d.pos + 32 + 8 * k), none)
            | none => (d, some (.short, d.pos))
        else lz4Block s k (4 * 2 ^ 20) { d with pos := d.pos + 32 }
      match r with
      | (e, some x) => (e, some x)
      | (e, none) => lz4 s n e.cut

/-! ### Zstandard (RFC 8878) -/

/-- The blocks of a frame. A compressed block is decoded by a free value (assumption 167): its bytes from the history and the block, or the
finding with which it fails. -/
def zBlocks (s : Src) : Nat → Dec → Res
  | 0, d => (d, some (.short, d.pos))
  | n + 1, d =>
    match s.get? d.pos 24 with
    | none => (d, some (.short, d.pos))
    | some h =>
      let size := h / 8
      let p := d.pos + 24
      let r : Res := match h / 2 % 4 with
        | 0 => match s.get? p (8 * size) with
          | some x => if 131072 < size then (d, some (.bad .lengthOverrun, d.pos)) else (d.put (leBytes size x) (p + 8 * size), none)
          | none => (d, some (.short, d.pos))
        | 1 => match s.get? p 8 with
          | some x =>
            if 131072 < size then (d, some (.bad .lengthOverrun, d.pos)) else (d.put (List.replicate size (BitVec.ofNat 8 x)) (p + 8), none)
          | none => (d, some (.short, d.pos))
        | 2 => match s.get? p (8 * size) with
          | some x =>
            let blk := leBytes size x
            let out := Config.zstdBlock d.stream blk
            let code := Config.zstdFail d.stream blk % 4
            if code = 1 then (d, some (.bad .badCode, p)) else if code = 2 then (d, some (.bad .badDistance, p))
            else if code = 3 ∨ 131072 < out.length then (d, some (.bad .lengthOverrun, p))
            else (d.put out (p + 8 * size), none)
          | none => (d, some (.short, d.pos))
        | _ => (d, some (.bad .badCode, d.pos))
      match r with
      | (e, some x) => (e, some x)
      | (e, none) =>
        if e.limit < e.len - e.base then (d, some (.bad .lengthOverrun, p))
        else if h % 2 = 1 then (e.cut, none) else zBlocks s n e.cut

/-- One frame, its magic number read: the header, the blocks, the content checksum. -/
def zFrame (s : Src) (verify : Bool) (wlog p0 : Nat) (d : Dec) : Res :=
  match s.get? d.pos 8 with
  | none => (d, some (.short, p0))
  | some fhd =>
    let single := bit fhd 5
    let did := [0, 1, 2, 4].getD (fhd % 4) 0
    let fcs := if fhd / 64 = 0 then Bool.nat single else [0, 2, 4, 8].getD (fhd / 64) 0
    let p1 := d.pos + 8
    let w := if single then some 0 else s.get? p1 8
    let p2 := if single then p1 else p1 + 8
    match w, s.get? p2 (8 * did), s.get? (p2 + 8 * did) (8 * fcs) with
    | some w, some dict, some c =>
      let content := if fcs = 2 then c + 256 else c
      let win := if single then content else 2 ^ (10 + w / 8) + 2 ^ (10 + w / 8) / 8 * (w % 8)
      if bit fhd 3 = true ∨ 2 ^ wlog < win ∨ dict ≠ 0 then (d, some (.bad .badHeader, p0))
      else
        let e0 := { d with pos := p2 + 8 * did + 8 * fcs, base := d.len, win := win, limit := if fcs = 0 then 2 ^ 64 else content }
        match zBlocks s (s.bits + 1) e0 with
        | (e, some x) => (e, some x)
        | (e, none) => if bit fhd 2 then checkAt s verify 4 (xxh64 e.stream % 2 ^ 32) e else (e, none)
    | _, _, _ => (d, some (.short, p0))

/-- Frames and skippable frames one after the other. -/
def zstd (s : Src) (verify : Bool) (wlog : Nat) : Nat → Dec → Res
  | 0, d => (d, some (.short, d.pos))
  | n + 1, d =>
    let more (e : Dec) : Res := match s.get? e.pos 32 with
      | some m => if m = 0xFD2FB528 ∨ m / 16 = 0x184D2A5 then zstd s verify wlog n e else (e, none)
      | none => (e, none)
    match s.get? d.pos 32 with
    | none => (d, some (.short, d.pos))
    | some m =>
      if m / 16 = 0x184D2A5 then
        match s.get? (d.pos + 32) 32 with
        | some k => match s.get? (d.pos + 64) (8 * k) with
          | some _ => more { d with pos := d.pos + 64 + 8 * k }
          | none => (d, some (.short, d.pos))
        | none => (d, some (.short, d.pos))
      else if m ≠ 0xFD2FB528 then (d, some (.bad .badHeader, d.pos))
      else match zFrame s verify wlog d.pos { d with pos := d.pos + 32 } with
        | (e, some x) => (e, some x)
        | (e, none) => more e

/-! ### The decompressor (R247, R248) -/

/-- Decode an input of a format code of R243: the state in which the decoder stops. `ended` says that the input is whole: its end inside a
stream is then an overrun. -/
def decode (fmt : Nat) (verify : Bool) (wlog : Nat) (inp : List Byte) (ended : Bool) : Dec × Option (Finding × Nat) :=
  let s := Src.of inp
  let n := s.bits + 1
  let r := match fmt with
    | 0 => inflateAll s Dec.init
    | 1 => zlib s verify Dec.init
    | 2 => gzip s verify n Dec.init
    | 3 => lz4 s n Dec.init
    | _ => zstd s verify wlog n Dec.init
  match r with
  | (d, some (.bad f, p)) => (d, some (f, p / 8))
  | (d, some (.short, p)) => (d, if ended then some (.lengthOverrun, p / 8) else none)
  | (d, none) => (d, none)

/-- Has the decoder come to the end of its format within this input? -/
def complete (fmt : Nat) (verify : Bool) (wlog : Nat) (inp : List Byte) : Bool :=
  let s := Src.of inp
  let n := s.bits + 1
  match fmt with
  | 0 => (inflateAll s Dec.init).2.isNone
  | 1 => (zlib s verify Dec.init).2.isNone
  | 2 => (gzip s verify n Dec.init).2.isNone
  | 3 => (lz4 s n Dec.init).2.isNone
  | _ => (zstd s verify wlog n Dec.init).2.isNone

/-! ### The compressor (R244, R245) -/

/-- Pieces of at most `k` bytes, at least one. -/
def pieces (k : Nat) (bs : List Byte) : List (List Byte) :=
  (List.range (max 1 (ceilDiv bs.length k))).map (fun i => (bs.drop (i * k)).take k)

/-- A stored DEFLATE block that begins on a byte. -/
def storedBlock (final : Bool) (bs : List Byte) : List Byte :=
  [if final then 1#8 else 0#8] ++ leBytes 2 bs.length ++ leBytes 2 (65535 - bs.length) ++ bs

/-- The empty stored block that ends an independent block. -/
def marker : List Byte := [0x00#8, 0x00#8, 0xFF#8, 0xFF#8]

/-- An independent block stored as it is. -/
def storedCode (final : Bool) (bs : List Byte) : List Byte :=
  let ps := pieces 16384 bs
  (ps.zipIdx.flatMap (fun p => storedBlock (final && p.2 + 1 == ps.length) p.1)) ++ (if final then [] else 0#8 :: marker)

/-- Is `c` a coding of the independent block `bs` as R244 and R245 want it: dynamic or stored DEFLATE blocks of at most 16 KiB that decode,
with nothing before them, to the block, and end as the block's place in the stream asks? -/
def codeOf (final : Bool) (bs c : List Byte) : Bool :=
  let s := Src.of c
  let r := inflate s (s.bits + 1) Dec.init []
  r.1.1.stream == bs && r.2.all (fun b => (b.1 == 0 || b.1 == 2) && decide (b.2.1 ≤ 16384)) &&
  (if final then r.1.2.isNone && decide ((r.1.1.pos + 7) / 8 = c.length)
   else r.1.1.pos == s.bits && r.2.all (fun b => !b.2.2) && ((r.2.head?).map (fun b => b.1 == 0 && b.2.1 == 0)).getD false &&
     c.drop (c.length - 4) == marker)

/-- The coding of an independent block: the compressor's own bytes, which are a free value of the format, the place and the block alone, where
they are a coding of it, else stored blocks. -/
def deflateBlock (final : Bool) (bs : List Byte) : List Byte :=
  let c := Config.squeeze 0 final bs
  if codeOf final bs c then c else storedCode final bs

/-- Does an LZ4 block decode to these bytes? -/
def lz4Of (bs c : List Byte) : Bool :=
  let r := lz4Block (Src.of c) c.length (4 * 2 ^ 20) Dec.init
  r.2.isNone && r.1.stream == bs

/-- The coding of an independent block with its length word; stored where LZ4 would not be shorter. -/
def lz4Coded (bs : List Byte) : List Byte :=
  let c := Config.squeeze 3 false bs
  if lz4Of bs c && decide (c.length < bs.length) then leBytes 4 c.length ++ c else leBytes 4 (2 ^ 31 + bs.length) ++ bs

/-- What comes before the first block and after the last (R245); `whole` is the whole input. -/
def wrapHead (fmt : Nat) : List Byte :=
  if fmt = 1 then [0x78#8, 0x5E#8] else if fmt = 2 then [0x1F#8, 0x8B#8, 8#8, 0#8, 0#8, 0#8, 0#8, 0#8, 0#8, 0xFF#8] else []

def wrapTail (fmt : Nat) (whole : List Byte) : List Byte :=
  if fmt = 1 then (leBytes 4 (adler32 whole)).reverse
  else if fmt = 2 then leBytes 4 (crc32 whole) ++ leBytes 4 (whole.length % 2 ^ 32) else []

/-- One independent block of a stream. -/
def coded (fmt : Nat) (final : Bool) (bs : List Byte) : List Byte := if fmt = 3 then lz4Coded bs else deflateBlock final bs

/-- The output units of a compressor that has got `inp` of its input and has sent the blocks below `from_` before (R250): one for each
independent block of `blk` bytes, as (output, input consumed, first input byte of the block). The last block is known when the input has
ended. -/
def compress (fmt blk from_ : Nat) (inp : List Byte) (ended : Bool) : List (List Byte × Nat × Nat) :=
  let n := if ended then max 1 (ceilDiv inp.length blk) else (inp.length - 1) / blk
  ((List.range n).filter (fun i => decide (from_ ≤ i * blk))).map (fun i =>
    let final := ended && i + 1 == n
    let b := coded fmt final ((inp.drop (i * blk)).take blk)
    ((if i = 0 then wrapHead fmt else []) ++ b ++ (if final then wrapTail fmt inp else []), min inp.length ((i + 1) * blk), i * blk))

/-! ### Compressed IUs (R253, R254) -/

/-- The compressed bytes of an IU, one independent block: `none` where no coding is at hand that decodes to it. -/
def iuCoded (fmt : Nat) (bs : List Byte) : Option (List Byte) :=
  if fmt = 1 then (let c := Config.squeeze 3 false bs; if lz4Of bs c then some c else none) else some (deflateBlock true bs)

/-- The data of the codewords that hold an IU compressed: the 16-byte header, the compressed bytes, zeros. None where that takes no codeword
less than the IU uncompressed. -/
def iuPack (fmt : Nat) (bs : List Byte) : List Nat :=
  match iuCoded fmt bs with
  | none => []
  | some c =>
    let n := ceilDiv (16 + c.length) 4096
    if n < bs.length / 4096 then
      let all := leBytes 1 fmt ++ leBytes 1 n ++ leBytes 2 0 ++ leBytes 4 c.length ++ leBytes 4 bs.length ++ leBytes 4 (crc32c bs) ++ c
      (List.range n).map (fun i => leNat ((all.drop (4096 * i)).take 4096))
    else []

/-- The IU of `size` bytes that the data of `n` codewords holds, or the check that fails (R256): of the header, of the format, whose
output may not pass ULEN, or of UCRC; with the offset of the failing element, counted from the header (DEDUCED, assumption 166). -/
def iuOpen (size : Nat) (cws : List Nat) : Except (Finding × Nat) Nat :=
  let all := cws.flatMap (leBytes 4096)
  let f (o k : Nat) : Nat := leNat ((all.drop o).take k)
  if ¬(f 0 1 = 1 ∨ f 0 1 = 2) ∨ f 1 1 ≠ cws.length ∨ size / 4096 ≤ f 1 1 ∨ f 2 2 ≠ 0 ∨ all.length < 16 + f 4 4 ∨ f 8 4 ≠ size then
    .error (.badHeader, 0)
  else
    let s := Src.of ((all.drop 16).take (f 4 4))
    let r := if f 0 1 = 1 then lz4Block s (f 4 4) size Dec.init else inflateAll s Dec.init
    match r with
    | (_, some (.bad e, p)) => .error (e, 16 + p / 8)
    | (_, some (.short, p)) => .error (.lengthOverrun, 16 + p / 8)
    | (d, none) =>
      if size < d.len then .error (.lengthOverrun, 16 + d.pos / 8)
      else if d.len ≠ size ∨ crc32c d.stream ≠ f 12 4 then .error (.badChecksum, 12)
      else .ok (leNat d.stream)

end Sys2Proof.Machine.Fmt
end

