-- ==== Sys2Proof/Machine/Flash.lean ====
section
/-! DEFINITION. The operations the media path, the translation layer and the stripe engine share (chapters 5, 6
and 7): locations and map entries, the die queues, the block table, the map journal, commit records, block stripes
and the stripe journal, failed members, lost stripes, the delivery of codewords to the commands that wait for them. -/

namespace Sys2Proof.Machine

/-! ### Locations and map entries (R113, R133) -/

/-- A codeword's location in the layout of bits [37:0] of a map entry. -/
def mkLoc (die block page slot : Nat) : Nat := die * 2 ^ 27 + block * 2 ^ 14 + page * 2 ^ 3 + slot
def locDie (l : Nat) : Nat := bits l 27 11
def locBlock (l : Nat) : Nat := bits l 14 13
def locPage (l : Nat) : Nat := bits l 3 11
def locSlot (l : Nat) : Nat := bits l 0 3
def dieChan (die : Nat) : Nat := die / 64
def dieLocal (die : Nat) : Nat := die % 64

def entryType (e : Nat) : Nat := e / 2 ^ 38
def flashEntry (loc : Nat) : Nat := 2 ^ 38 + loc
def cacheEntry (slot : Nat) : Nat := 2 * 2 ^ 38 + slot
def zerosEntry : Nat := 3 * 2 ^ 38
def badEntry : Nat := 3 * 2 ^ 38 + 2 ^ 36

/-- The key of an IU's map entry, and of its segment (R134). -/
def iuKey (nsid iu : Nat) : Nat := nsid * 2 ^ 40 + iu
def segKey (nsid iu : Nat) : Nat := nsid * 2 ^ 40 + iu / 131072

/-- The map entry of an IU: unmapped where nothing is listed. -/
def Dev.entry? (d : Dev) (nsid iu : Nat) : Nat := AMap.get 0 (iuKey nsid iu) d.ftl.map

/-- Has this die left service: failed (R119), or on a channel that is out of service? -/
def Dev.dieLost (d : Dev) (die : Nat) : Bool := d.nv.failedDies.contains die || !d.chanOk (dieChan die)

/-- Set a map entry; its segment becomes dirty, and a clean stop recorded earlier no longer stands (R145). -/
def Dev.mapSet (d : Dev) (nsid iu e : Nat) : Dev :=
  let k := segKey nsid iu
  let dirty := if d.ftl.dirty.contains k then d.ftl.dirty else d.ftl.dirty ++ [k]
  ({ d with ftl := { d.ftl with map := AMap.set 0 (iuKey nsid iu) e d.ftl.map, dirty := dirty },
            nv := { d.nv with stop := .unclean } }).count 0x59 0 noPlot 1

/-! ### Namespaces -/

def Dev.setNs (d : Dev) (n : Ns) : Dev :=
  { d with md := { d.md with nss := d.md.nss.map (fun m => if m.nsid == n.nsid then n else m) } }

/-- Bytes of one logical block of an LBA format (R68). -/
def lbaBytes (lbaf : Nat) : Nat := if lbaf = 3 then 512 else 4096
/-- Host metadata bytes of an LBA format. -/
def lbaMeta (lbaf : Nat) : Nat := if lbaf = 1 then 8 else if lbaf = 2 then 64 else 0
def Ns.iuBytes (n : Ns) : Nat := 4096 * 4 ^ n.iu
/-- Logical blocks in one 4,096-byte slot. -/
def Ns.slotBlocks (n : Ns) : Nat := if n.lbaf = 3 then 8 else 1
def Ns.iuBlocks (n : Ns) : Nat := n.iuSlots * n.slotBlocks
/-- The IUs of a namespace. -/
def Ns.ius (n : Ns) : Nat := ceilDiv (n.nsze * lbaBytes n.lbaf) n.iuBytes
/-- The map bytes of a namespace (R69). -/
def Ns.mapBytes (n : Ns) : Nat := n.ius * 5

/-! ### Die profiles (R121, R133) -/

def chanEnt? (d : Dev) (ch : Nat) : Option ChanEnt := d.boot.stream.bind (fun s => s.chans[ch]?)

def Dev.prof (d : Dev) (die : Nat) : DieProf :=
  ((chanEnt? d (dieChan die)).bind (fun c => d.boot.stream.bind (fun s => s.dieProfs[c.profile]?))).getD
    { page := 0, spare := 0, pages := 0, blocks := 0, tRead := 0, tProg := 0, tErase := 0, jedec := 0, planes := 1, xrOff := 0, xrMask := 0 }

/-- Codeword bytes of a parity code (R120). -/
def cwBytes (parity : Nat) : Nat := [4496, 4528, 4576, 4624, 4656, 4704, 4752].getD parity 4752

/-- Codewords in a page (R121). -/
def Dev.cwpp (d : Dev) (die : Nat) : Nat :=
  ((d.prof die).page + (d.prof die).spare) / cwBytes (d.f (F.CHAN_CFG_PARITY (dieChan die)))

/-- The location of the `i`-th codeword of an IU that starts at `loc`: program order within the block (R133). -/
def Dev.cwAt (d : Dev) (loc i : Nat) : Nat :=
  let c := max 1 (d.cwpp (locDie loc))
  let s := locSlot loc + i
  mkLoc (locDie loc) (locBlock loc) (locPage loc + s / c) (s % c)

/-- The codeword stored at a location; `none` reads as erased (R125). -/
def Dev.cw? (d : Dev) (loc : Nat) : Option Cw := AMap.find loc d.flash.cws

/-! ### The block table -/

def Dev.blk (d : Dev) (die block : Nat) : Blk := AMap.get Blk.init (8192 * die + block) d.md.blocks

def Dev.setBlk (d : Dev) (die block : Nat) (b : Blk) : Dev :=
  { d with md := { d.md with blocks := AMap.set Blk.init (8192 * die + block) b d.md.blocks } }

/-! ### The map journal (R142, R143) -/

/-- The BSEQ the next batch takes. -/
def Dev.nextBseq (d : Dev) : Nat := d.mram.jhead + d.ftl.closed.length + 1

/-- Close the open batch. -/
def Dev.closeBatch (d : Dev) : Dev :=
  let b : Batch := { bseq := d.nextBseq, time := d.time, recs := d.ftl.openRecs }
  { d with ftl := { d.ftl with closed := d.ftl.closed ++ [b], openRecs := [] } }

/-- The segment that a record changes: a map segment, or a segment of the block table, which is written under NSID 0 (R144). -/
def MapRec.seg : MapRec → Nat
  | .mapTo n u _ _ => segKey n u
  | .blockOpen die b _ | .blockClose die b | .eraseStart die b | .eraseDone die b _ | .blockBad die b _ => segKey 0 (8192 * die + b)

/-- Add a record to the open batch, with its segment dirty; a batch with 8,192 records closes. -/
def Dev.jrec (d : Dev) (r : MapRec) : Dev :=
  let dirty := if d.ftl.dirty.contains r.seg then d.ftl.dirty else d.ftl.dirty ++ [r.seg]
  let d1 := { d with ftl := { d.ftl with openRecs := d.ftl.openRecs ++ [r], dirty := dirty } }
  if 8192 ≤ d1.ftl.openRecs.length then d1.closeBatch else d1

/-- Is this record still uncommitted? -/
def Dev.uncommitted (d : Dev) (r : MapRec) : Bool :=
  d.ftl.openRecs.contains r || d.ftl.closed.any (fun b => b.recs.contains r)

/-- Bytes of a batch. -/
def Batch.bytes (b : Batch) : Nat := 64 + 16 * b.recs.length

/-- The bytes in the journal ring, and its fill in percent (R142: 256 MiB). -/
def Dev.jbytes (d : Dev) : Nat := (d.mram.batches.map Batch.bytes).sum
def Dev.jfill (d : Dev) : Nat := d.jbytes * 100 / (256 * 2 ^ 20)

/-- Show JFILL and JTAIL; early-warning condition 14 is a ring more than 75 % full, and passing that raises JOURNAL_PRESSURE. -/
def Dev.journalShow (d : Dev) : Dev :=
  let over_ := decide (75 * (256 * 2 ^ 20) < 100 * d.jbytes)
  let d1 := (d.setF F.MAPW_STAT_JFILL d.jfill).setF F.MRAMC_JTAIL_BSEQ d.mram.jtail
  let d2 := if over_ && !bit (d.f F.MAPW_EWACT_ACT) 14 then d1.raise 0x014 noPlot [] else d1
  d2.ewSet 14 over_

/-! ### The write cache (R137 to R141) -/

/-- The IUs a commit record covers. -/
def Commit.ius (c : Commit) : List Nat := (List.range c.count).map (fun i => c.firstIu + i)

/-- Write-cache occupancy as MRAMC_WC shows it. -/
def Dev.wcShow (d : Dev) : Dev :=
  ((d.setF F.MRAMC_WC_SLOTS d.mram.slots.length).setF F.MRAMC_WC_RECFULL
    (Bool.nat (decide (212992 ≤ d.mram.commits.length)))).setF F.MRAMC_WC_FULL
      (Bool.nat (decide (155648 ≤ d.mram.slots.length)))

/-- The lowest run of `n` free slots, if there is one. -/
def findRun (used : List Nat) (n : Nat) : Option Nat :=
  ((0 :: used.map (· + 1)).filter (fun c =>
    decide (c + n ≤ 155648) && used.all (fun u => decide (u < c) || decide (c + n ≤ u)))).min?

/-- Is the row that holds this location still unprotected (R165)? -/
def Dev.rowPending (d : Dev) (loc : Nat) : Bool :=
  let b := d.blk (locDie loc) (locBlock loc)
  d.strp.slots.any (fun s => s.state != .free && s.group == b.group && s.bsn == b.bsn && s.page == locPage loc)

/-- The slots of one IU of a commit record. -/
def Commit.iuSlotsOf (c : Commit) (per iu : Nat) : List Nat :=
  (List.range per).map (fun i => c.firstSlot + (iu - c.firstIu) * per + i)

/-- Codewords an IU at a flash location uses: CWCOUNT of a compressed one, else the IU's size (R133, R254). -/
def Dev.iuCws (d : Dev) (nsid loc : Nat) : Nat :=
  match d.cw? loc with
  | some c => if c.kind = 1 then c.cwcount else ((d.ns? nsid).map Ns.iuSlots).getD 1
  | none => ((d.ns? nsid).map Ns.iuSlots).getD 1

/-- The locations of the codewords of an IU's copy. -/
def Dev.iuLocs (d : Dev) (nsid loc : Nat) : List Nat := (List.range (d.iuCws nsid loc)).map (d.cwAt loc)

/-- Is one IU of a commit record done with: superseded, or destaged with its MAP record committed and its rows protected (R140,
R146)? -/
def Dev.iuDone (d : Dev) (c : Commit) (iu : Nat) : Bool :=
  c.dead.contains iu ||
  c.moved.any (fun x => x.1 == iu && (entryType x.2 != 1 || (d.iuLocs c.nsid (x.2 % 2 ^ 38)).all (fun l => !d.rowPending l)))

/-- May this commit record be freed (R140)? Every IU is done with, and every older record that covers one of its IUs
has been freed or marked dead there. A prepared record waits for its resolution (R138). -/
def Dev.freeable (d : Dev) (c : Commit) : Bool :=
  c.kind != 5 && c.ius.all (fun iu => d.iuDone c iu) &&
  d.mram.commits.all (fun o => decide (c.wseq ≤ o.wseq) || o.nsid != c.nsid ||
    o.ius.all (fun iu => !(decide (c.firstIu ≤ iu) && decide (iu < c.firstIu + c.count)) || o.dead.contains iu))

/-- The map entries of a record that is freed leave the cache for the copies on flash, each only while it still holds the cache
location (R135, R140). -/
def Dev.applyMoved (d : Dev) (c : Commit) : Dev :=
  let per := ((d.ns? c.nsid).map Ns.iuSlots).getD 1
  if c.kind = 1 ∨ c.kind = 6 then
    c.moved.foldl (fun (e : Dev) x =>
      if e.entry? c.nsid x.1 = cacheEntry (c.firstSlot + (x.1 - c.firstIu) * per) then e.mapSet c.nsid x.1 x.2
      else e.count 0x5A 0 noPlot 1) d
  else d

/-- Free every commit record that may be freed, with its slots. -/
def Dev.freeCommits (d : Dev) : Dev :=
  let gone := d.mram.commits.filter d.freeable
  let slotsOf (c : Commit) : List Nat :=
    if c.kind = 1 ∨ c.kind = 6 then
      let per := ((d.ns? c.nsid).map Ns.iuSlots).getD 1
      (List.range (c.count * per)).map (fun i => c.firstSlot + i)
    else []
  let freed := gone.flatMap slotsOf
  let d1 := { d with mram := { d.mram with
    commits := d.mram.commits.filter (fun c => !d.freeable c)
    slots := d.mram.slots.filter (fun s => !freed.contains s.1) } }
  (gone.foldl (fun (e : Dev) c => e.applyMoved c) d1).wcShow

/-- The entry that a MAP record just journalled gives an IU of a record (R140). -/
def Dev.stageAt (d : Dev) (wseq iu en : Nat) : Dev :=
  let up (c : Commit) : Commit := if c.wseq == wseq then { c with staged := c.staged.filter (fun x => x.1 != iu) ++ [(iu, en)] } else c
  { d with mram := { d.mram with commits := d.mram.commits.map up } }

/-- Mark IUs dead in every older commit record of the namespace (R140). -/
def Dev.supersede (d : Dev) (wseq nsid : Nat) (ius : List Nat) : Dev :=
  let up (c : Commit) : Commit :=
    if c.nsid == nsid && decide (c.wseq < wseq) && (c.kind != 5 && c.kind != 7) then
      { c with dead := c.dead ++ (c.ius.filter (fun iu => ius.contains iu && !c.dead.contains iu)) }
    else c
  { d with mram := { d.mram with commits := d.mram.commits.map up } }

/-! ### Die queues (R115) -/

def Dev.die (d : Dev) (die : Nat) : DieSt := AMap.get DieSt.init die d.media.dies

def Dev.setDie (d : Dev) (die : Nat) (x : DieSt) : Dev :=
  let d1 := { d with media := { d.media with dies := AMap.set DieSt.init die x d.media.dies } }
  d1.setF (F.CHAN_DIESTAT_QDEPTH (dieChan die) (dieLocal die)) (min 32 x.queue.length)

/-- The die is in service (CHAN_DIESTAT.STATE). -/
def Dev.dieState (d : Dev) (die : Nat) : Nat := d.f (F.CHAN_DIESTAT_STATE (dieChan die) (dieLocal die))

/-- Queue an operation at its die. -/
def Dev.enqueue (d : Dev) (op : DieOp) : Dev :=
  let x := d.die op.die
  d.setDie op.die { x with queue := x.queue ++ [op] }

def OpClass.num : OpClass → Nat
  | .hostRead => 0
  | .internalRead => 1
  | .program => 2
  | .erase => 3
  | .rake => 4

/-- A read of one codeword. -/
def readOp (cls : OpClass) (loc : Nat) (cmd : Option CmdId) : DieOp :=
  { cls := cls, die := locDie loc, block := locBlock loc, page := locPage loc, slots := [locSlot loc], cws := [],
    cmd := cmd, group := 0, bsn := 0, parity := false, whole := true, suspends := 0 }

/-! ### Die groups (R161, R162) -/

/-- Members of a geometry, and how many of them hold parity. -/
def geomN (g : Nat) : Nat := if g = 0 then 16 else 32
def geomM (g : Nat) : Nat := if g = 2 then 2 else 1

def Dev.groupGeom (d : Dev) (g : Nat) : Nat := d.f (F.STRP_GRP_GEOM g)
def Dev.memberDie (d : Dev) (g j : Nat) : Nat := d.f (F.STRP_GMEM_DIE (g * 32 + j))
def Dev.memberUsed (d : Dev) (g j : Nat) : Bool := d.flag (F.STRP_GMEM_USED (g * 32 + j))
def Dev.memberFailed (d : Dev) (g j : Nat) : Bool := d.flag (F.STRP_GMEM_FAILED (g * 32 + j))

/-- The members of a group, and those that are live. -/
def Dev.members (d : Dev) (g : Nat) : List Nat := (List.range 32).filter (d.memberUsed g)
def Dev.liveMembers (d : Dev) (g : Nat) : List Nat := (d.members g).filter (fun j => !d.memberFailed g j)

/-- The groups the stream declares. -/
def Dev.groups (d : Dev) : List Nat := List.range (d.f F.STRP_CFG_GROUPS)

/-- The group and member number of a die. -/
def Dev.memberOf (d : Dev) (die : Nat) : Option (Nat × Nat) :=
  d.groups.findSome? (fun g => ((d.members g).find? (fun j => d.memberDie g j == die)).map (fun j => (g, j)))

/-- Blocks of a die that are bad. -/
def Dev.badBlocks (d : Dev) (die : Nat) : Nat :=
  (d.md.blocks.filter (fun b => b.1 / 8192 == die && b.2.state == .bad)).length

/-- Good blocks of a group: those of its live members that are not bad (R136, R171). -/
def Dev.good (d : Dev) (g : Nat) : Nat :=
  ((d.liveMembers g).map (fun j =>
    (d.prof (d.memberDie g j)).blocks - d.badBlocks (d.memberDie g j))).sum

/-- The good blocks of a group at its first boot (R136). -/
def Dev.base (d : Dev) (g : Nat) : Nat := AMap.get 0 g d.md.base

/-- The map region in GiB (R69): 240 GiB, the DRAM in service less 16 GiB, or the stream's limit. -/
def Dev.mapRegion (d : Dev) : Nat :=
  min (min 240 (d.dramGib - 16)) (((d.boot.stream.bind (fun s => s.media)).map (fun m => m.mapLimit)).getD 240)

def Dev.op (d : Dev) : Nat := ((d.boot.stream.bind (fun s => s.media)).map (fun m => m.op)).getD 12

/-- Bytes of user data one block of the group holds: its pages' codewords. -/
def Dev.blockCws (d : Dev) (g : Nat) : Nat :=
  let die := d.memberDie g 0
  (d.prof die).pages * d.cwpp die

/-- The roles of a group's blocks (R136). -/
def Dev.floorOf (d : Dev) (g : Nat) : Nat := 2 * (d.members g).length
def Dev.share (d : Dev) (g : Nat) : Nat :=
  d.mapRegion * 2 ^ 30 * d.base g / max 1 ((d.groups.map d.base).sum)
def Dev.mapres (d : Dev) (g : Nat) : Nat := 2 * ceilDiv (d.share g) (max 1 (d.blockCws g * 4096))
def Dev.userOf (d : Dev) (g : Nat) : Int :=
  ((d.base g * (100 - d.op) / 100 : Nat) : Int) - (d.floorOf g : Int) - (d.mapres g : Int)
/-- The spare blocks of a group; 0 below m + 2 live members (R172). -/
def Dev.spareOf (d : Dev) (g : Nat) : Int :=
  if (d.liveMembers g).length < geomM (d.groupGeom g) + 2 then 0
  else (d.good g : Int) - d.userOf g - (d.floorOf g : Int) - (d.mapres g : Int)
/-- The spare of a group in percent of its spare at first boot, cut to 0 to 100 (R136). -/
def Dev.sparePct (d : Dev) (g : Nat) : Nat :=
  let whole : Int := (d.base g : Int) - d.userOf g - (d.floorOf g : Int) - (d.mapres g : Int)
  if whole ≤ 0 then 0 else (max 0 (min 100 (100 * d.spareOf g / whole))).toNat

/-- Available Spare: the least over the die groups (R157). -/
def Dev.availSpare (d : Dev) : Nat := ((d.groups.map d.sparePct).min?).getD 100

/-- The die group with the least spare. -/
def Dev.spareGroup (d : Dev) : Nat := (d.groups.find? (fun g => d.sparePct g == d.availSpare)).getD 0

/-- Percentage Used (R157). -/
def Dev.percentUsed (d : Dev) : Nat :=
  let rated := ((d.boot.stream.bind (fun s => s.media)).map (fun m => m.rated)).getD 0
  let eraseSum (g : Nat) : Nat :=
    ((d.members g).map (fun j => ((d.md.blocks.filter (fun b => b.1 / 8192 == d.memberDie g j)).map
      (fun b => b.2.erases)).sum)).sum
  let total (g : Nat) : Nat := ((d.members g).map (fun j => (d.prof (d.memberDie g j)).blocks)).sum
  if rated = 0 then 0
  else min 255 (((d.groups.map (fun g => 100 * eraseSum g / max 1 (total g * rated))).max?).getD 0)

/-- TNVMCAP (R136). -/
def Dev.tnvmcap (d : Dev) : Nat :=
  ((d.groups.map (fun g =>
    let n := geomN (d.groupGeom g)
    d.userOf g * ((d.blockCws g * 4096 * (n - geomM (d.groupGeom g)) : Nat) : Int) / (n : Int))).sum).toNat

/-- Set the read-only condition (R156). -/
def Dev.setReadOnly (d : Dev) (g : Nat) : Dev :=
  if d.flag F.TOP_MODE_CRO then d
  else
    ((({ d with nv := { d.nv with roCond := true } }).setF F.MAPW_STAT_ROCOND 1).raise 0x012 noPlot [g]).setCond
      F.TOP_MODE_CRO true

/-- Bring the spare figures up to date: SPAREMIN, USED, early-warning conditions 0 to 2, the read-only condition of a
group whose spare has reached 0 (R156). -/
def Dev.spareCheck (d : Dev) : Dev :=
  let d1 := (d.setF F.MAPW_STAT_SPAREMIN d.availSpare).setF F.MAPW_STAT_USED d.percentUsed
  let d2 := ((d1.ewSet 0 (decide (d.availSpare ≤ d.f F.MAPW_SPARE_EWPCT))).ewSet 1
    (decide (d.availSpare ≤ d.f F.MAPW_SPARE_CRITPCT))).ewSet 2 (decide (d.f F.MAPW_SPARE_WEARPCT ≤ d.percentUsed))
  let d3 := match d.groups.find? (fun g => decide (d.spareOf g ≤ 0) && decide (d.base g ≠ 0)) with
    | some g => d2.setReadOnly g
    | none => d2
  d3.refreshWarn

/-- Mark a block bad with its cause (R143, R147). -/
def Dev.blockBad (d : Dev) (die block cause : Nat) : Dev :=
  (((d.setBlk die block { d.blk die block with state := .bad, doom := 0 }).jrec (.blockBad die block cause)).almanacCount
    80 1).spareCheck

/-! ### Block stripes (R162, R165) -/

def Dev.stripe? (d : Dev) (g bsn : Nat) : Option BStripe := d.strp.stripes.find? (fun s => s.group == g && s.bsn == bsn)

def Dev.setStripe (d : Dev) (x : BStripe) : Dev :=
  let up (s : BStripe) : BStripe := if s.group == x.group && s.bsn == x.bsn then x else s
  { d with strp := { d.strp with stripes := d.strp.stripes.map up } }

/-- The free block a group takes from a die: the lowest erase count, then the lowest number (R154). -/
def Dev.freeBlock (d : Dev) (die : Nat) : Option Nat :=
  let free := (List.range (d.prof die).blocks).filter (fun b => (d.blk die b).state == .free)
  let least := ((free.map (fun b => (d.blk die b).erases)).min?).getD 0
  free.find? (fun b => (d.blk die b).erases == least)

/-- The next live member from `j` in ascending order, wrapping, other than `avoid` (R162). -/
def Dev.parityMember (d : Dev) (g j : Nat) (avoid : Option Nat) : Nat :=
  let n := geomN (d.groupGeom g)
  ((List.range n).map (fun i => (j + i) % n)).find? (fun k =>
    (d.liveMembers g).contains k && avoid != some k) |>.getD 0

/-- Free blocks of a group. -/
def Dev.freeBlocks (d : Dev) (g : Nat) : Nat :=
  ((d.liveMembers g).map (fun j =>
    let die := d.memberDie g j
    ((List.range (d.prof die).blocks).filter (fun b => (d.blk die b).state == .free)).length)).sum

/-- Free blocks of a group, in tenths of a percent of its good blocks. -/
def Dev.freePermille (d : Dev) (g : Nat) : Nat := d.freeBlocks g * 1000 / max 1 (d.good g)

/-- Is a group below URGENT (R151)? -/
def Dev.urgent (d : Dev) (g : Nat) : Bool := decide (d.freeBlocks g * 1000 < d.f F.MAPW_COMPOST_URGENT * d.good g)

/-- Bring early-warning condition 11 up to date: some die group is below URGENT (R159). -/
def Dev.freeCheck (d : Dev) : Dev := d.ewSet 11 (d.groups.any d.urgent)

/-- Open a block stripe of a group for a purpose (R162): a free block on each live member; `none` where the group may
not open one (R172) or a member has no free block. The floor of R136 is not for Compost (R151). -/
def Dev.openStripe (d : Dev) (g purpose : Nat) : Option Dev :=
  let geom := d.groupGeom g
  let live := d.liveMembers g
  if live.length < geomM geom + 2 ∨ (purpose = 1 ∧ d.freeBlocks g < d.floorOf g + live.length) then none
  else
    let picks := live.filterMap (fun j => (d.freeBlock (d.memberDie g j)).map (fun b => (j, b)))
    if picks.length ≠ live.length then none
    else
      let bsn := AMap.get 0 g d.md.bsns
      let n := geomN geom
      let p := d.parityMember g (bsn % n) none
      let q := if geom = 2 then some (d.parityMember g ((bsn + 1) % n) (some p)) else none
      let isPar (j : Nat) : Bool := j == p || q == some j
      let st : BStripe := { group := g, bsn := bsn, purpose := purpose, blocks := picks, pmem := p, qmem := q,
                            isOpen := true, closing := false, next := [], fill := [] }
      let d1 := { d with strp := { d.strp with stripes := d.strp.stripes ++ [st] },
                         md := { d.md with bsns := AMap.set 0 g (bsn + 1) d.md.bsns } }
      some ((picks.foldl (fun e (jb : Nat × Nat) =>
        let die := d.memberDie g jb.1
        let pu := if isPar jb.1 then 3 else purpose
        (e.setBlk die jb.2 { e.blk die jb.2 with state := .open, purpose := pu, group := g, bsn := bsn }).jrec
          (.blockOpen die jb.2 pu)) d1).freeCheck)

/-- The journal slots die groups may use (R166). -/
def Dev.jslots (d : Dev) : Nat := d.f F.STRP_CFG_JSLOTS

def Dev.jshow (d : Dev) : Dev :=
  let n := (d.strp.slots.filter (fun s => s.state != .free)).length
  (d.setF F.STRP_JSTAT_INUSE n).setF F.STRP_JSTAT_FULL (Bool.nat (decide (d.jslots ≤ n)))

def Dev.row? (d : Dev) (g bsn page : Nat) : Option JSlot :=
  d.strp.slots.find? (fun s => s.state != .free && s.group == g && s.bsn == bsn && s.page == page)

def Dev.setRow (d : Dev) (x : JSlot) : Dev :=
  let up (s : JSlot) : JSlot :=
    if s.state != .free && s.group == x.group && s.bsn == x.bsn && s.page == x.page then x else s
  { d with strp := { d.strp with slots := d.strp.slots.map up } }

/-- Take a journal slot for a row before its first data page is programmed (R165 step 1). -/
def Dev.openRow (d : Dev) (g bsn page zeroes : Nat) : Option Dev :=
  match d.row? g bsn page with
  | some _ => some d
  | none =>
    let used := (d.strp.slots.filter (fun s => s.state != .free)).map (fun s => s.index)
    match (List.range d.jslots).find? (fun i => !used.contains i) with
    | none => none
    | some i =>
      let s : JSlot := { index := i, state := .open, group := g, bsn := bsn, page := page, done := 0, zero := zeroes,
                         parityDone := 0, jseq := d.strp.jseq + 1, parity := [] }
      let rest := d.strp.slots.filter (fun (x : JSlot) => x.index != i)
      some ({ d with strp := { d.strp with slots := rest ++ [s], jseq := d.strp.jseq + 1 } }).jshow

/-- Members of a block stripe that hold data. -/
def BStripe.dataMembers (s : BStripe) : List Nat :=
  (s.blocks.map Prod.fst).filter (fun j => j != s.pmem && s.qmem != some j)

/-- Is every live data member of the row done or zero (R165 step 3)? -/
def Dev.rowFull (d : Dev) (s : BStripe) (r : JSlot) : Bool :=
  s.dataMembers.all (fun j => d.memberFailed s.group j || bit r.done j || bit r.zero j)

/-- The number of a stripe (R162). -/
def stripeNum (bsn page slot : Nat) : Nat := (bsn % 2 ^ 26) * 16384 + page * 8 + slot

/-- What the data members `js` of a stripe hold, by member; a member with nothing there holds zeros. -/
def Dev.memberWords (d : Dev) (s : BStripe) (page slot : Nat) (js : List Nat) : List (Nat × Nat) :=
  js.filterMap (fun j => (AMap.find j s.blocks).bind (fun b =>
    (d.cw? (mkLoc (d.memberDie s.group j) b page slot)).map (fun c => (j, d.covered c))))

/-- The parity pages of a row over the members that `done` names (R163): P, then Q where the geometry has one. -/
def Dev.parityPages (d : Dev) (s : BStripe) (page done : Nat) : List (List Cw) :=
  let js := s.dataMembers.filter (bit done)
  let slots := List.range (d.cwpp (d.memberDie s.group s.pmem))
  let pageOf (q : Bool) (f : List (Nat × Nat) → Nat) : List Cw :=
    slots.map (fun k => parityCw (stripeNum s.bsn page k) q (f (d.memberWords s page k js)))
  pageOf false pSum :: s.qmem.toList.map (fun _ => pageOf true qSum)

/-- Stage a row whose data members are all programmed or zero: the parity goes to the slot and its programs are
queued (R165 steps 3 and 4). -/
def Dev.stageRow (d : Dev) (s : BStripe) (r : JSlot) : Dev :=
  if r.state = .open ∧ d.rowFull s r = true then
    let pages := d.parityPages s r.page r.done
    let d1 := d.setRow { r with state := .staged, parity := pages }
    ((s.pmem :: s.qmem.toList).zip pages).foldl (fun e jp =>
      match AMap.find jp.1 s.blocks with
      | none => e
      | some b =>
        e.enqueue { cls := .program, die := d.memberDie s.group jp.1, block := b, page := r.page, slots := [],
                    cws := jp.2, cmd := none,
                    group := s.group, bsn := s.bsn, parity := true, whole := true, suspends := 0 }) d1
  else d

/-- Stage every row of a block stripe that can be staged. -/
def Dev.stageRows (d : Dev) (g bsn : Nat) : Dev :=
  (d.strp.slots.filter (fun r => r.group == g && r.bsn == bsn)).foldl (fun (e : Dev) r =>
    match e.stripe? g bsn with
    | some s => e.stageRow s r
    | none => e) d

/-- A pad codeword (KIND 0x5). -/
def padCw : Cw :=
  { data := 0, hmeta := 0, umask := 0, epoch := 0, iu := 0, nsid := 0, wseq := 0, reloc := 0, gen := 0, cwidx := 0,
    kind := 5, poison := false, pf := 0 }

/-- Queue the programs of every whole page gathered for member `j` of a stripe, a row slot for each; where no slot is
free the row waits and JOURNAL_WAIT is raised (R167). `n` bounds the pages. -/
def Dev.pageOut : Nat → Nat → Nat → Nat → Dev → Dev
  | 0, _, _, _, d => d
  | n + 1, g, bsn, j, d =>
    match d.stripe? g bsn with
    | none => d
    | some s =>
      match AMap.find j s.blocks with
      | none => d
      | some b =>
        let die := d.memberDie g j
        let c := d.cwpp die
        let fill := AMap.get [] j s.fill
        let page := AMap.get 0 j s.next
        if fill.length < c ∨ c = 0 ∨ (d.prof die).pages ≤ page then d
        else match d.openRow g bsn page 0 with
          | none => (d.bump (F.STRP_CNT_COUNT 6) 0x16 0 1).raise 0x01F noPlot []
          | some d1 =>
            let s1 := { s with fill := AMap.set [] j (fill.drop c) s.fill, next := AMap.set 0 j (page + 1) s.next }
            let op : DieOp := { cls := .program, die := die, block := b, page := page, slots := [],
                                cws := fill.take c, cmd := none, group := g, bsn := bsn, parity := false,
                                whole := true, suspends := 0 }
            Dev.pageOut n g bsn j ((d1.setStripe s1).enqueue op)

/-- The data member a new IU goes to: the one with the fewest pages taken, lowest number first, among those with
room for `n` codewords. -/
def Dev.pickMember (d : Dev) (s : BStripe) (n : Nat) : Option Nat :=
  let room := s.dataMembers.filter (fun j =>
    let die := d.memberDie s.group j
    !d.memberFailed s.group j &&
    decide ((AMap.get 0 j s.next) * d.cwpp die + (AMap.get [] j s.fill).length + n ≤ (d.prof die).pages * d.cwpp die))
  let load (j : Nat) : Nat := (AMap.get 0 j s.next) * d.cwpp (d.memberDie s.group j) + (AMap.get [] j s.fill).length
  let least := ((room.map load).min?).getD 0
  room.find? (fun j => load j == least)

/-- The open block stripes of a group and purpose that take new pages, and the first of them with room for `n` codewords, with the member
they go to. -/
def Dev.openStripes (d : Dev) (g purpose : Nat) : List BStripe :=
  d.strp.stripes.filter (fun s => s.group == g && s.purpose == purpose && s.isOpen && !s.closing)

def Dev.openStripe? (d : Dev) (g purpose : Nat) : Option BStripe := (d.openStripes g purpose).head?

def Dev.room? (d : Dev) (g purpose n : Nat) : Option (BStripe × Nat) :=
  (d.openStripes g purpose).findSome? (fun s => (d.pickMember s n).map (fun j => (s, j)))

/-- Place the codewords of one IU into an open stripe of the group for a purpose, opening one where none has room. `none` where
there is no room (the work waits). Under the read-only condition relocations open no stripe (R175). -/
def Dev.place (d : Dev) (g purpose : Nat) (cws : List Cw) : Option Dev :=
  let put (e : Dev) (x : BStripe × Nat) : Dev :=
    let s1 := { x.1 with fill := AMap.set [] x.2 (AMap.get [] x.2 x.1.fill ++ cws) x.1.fill }
    Dev.pageOut (cws.length + 1) g x.1.bsn x.2 (e.setStripe s1)
  match d.room? g purpose cws.length with
  | some x => some (put d x)
  | none =>
    if purpose = 1 ∧ d.flag F.TOP_MODE_CRO then none
    else (d.openStripe g purpose).bind (fun e => (e.room? g purpose cws.length).map (put e))

/-- The location of the first codeword that goes next to member `j` of a stripe. -/
def Dev.roomLoc (d : Dev) (s : BStripe) (j : Nat) : Nat :=
  let die := d.memberDie s.group j
  let c := max 1 (d.cwpp die)
  let at_ := AMap.get 0 j s.next * c + (AMap.get [] j s.fill).length
  mkLoc die (AMap.get 0 j s.blocks) (at_ / c) (at_ % c)

/-- Pad the pages gathered for a stripe to whole pages, so that its rows can be staged (KIND 0x5). -/
def Dev.padStripe (d : Dev) (s : BStripe) : Dev :=
  (s.dataMembers.filter (fun j => !d.memberFailed s.group j)).foldl (fun e j =>
    match e.stripe? s.group s.bsn with
    | none => e
    | some t =>
      let c := e.cwpp (e.memberDie s.group j)
      let fill := AMap.get [] j t.fill
      let most := ((t.dataMembers.map (fun k => AMap.get 0 k t.next + Bool.nat (!(AMap.get [] k t.fill).isEmpty))).max?).getD 0
      let need := (most - AMap.get 0 j t.next) * c - fill.length
      let t1 := { t with fill := AMap.set [] j (fill ++ List.replicate need padCw) t.fill }
      Dev.pageOut (need + 1) s.group s.bsn j (e.setStripe t1)) d

/-! ### Programs that do not take place (R118, R119, R147, R165) -/

/-- The write-cache IUs of these codewords are sent again. -/
def Dev.sendAgain (d : Dev) (cws : List Cw) : Dev :=
  let again (c : Commit) : Commit :=
    { c with sent := c.sent.filter (fun iu => !cws.any (fun w => w.wseq == c.wseq && w.nsid == c.nsid && w.iu == iu && w.reloc == 0)) }
  { d with mram := { d.mram with commits := d.mram.commits.map again } }

/-- The write-cache IUs with a codeword at one of these locations are sent again. -/
def Dev.unstage (d : Dev) (at_ : Nat → Bool) : Dev :=
  let keep (c : Commit) (x : Nat × Nat) : Bool := entryType x.2 != 1 || !(d.iuLocs c.nsid (x.2 % 2 ^ 38)).any at_
  let again (c : Commit) : Commit := { c with staged := c.staged.filter (keep c), moved := c.moved.filter (keep c) }
  { d with mram := { d.mram with commits := d.mram.commits.map again } }

/-- Queue a block for Compost by a reason of R152, once. -/
def Dev.queueCompost (d : Dev) (die block reason : Nat) : Dev :=
  if d.ftl.compost.any (fun c => c.die == die && c.block == block) then d
  else
    let r : Reloc := { die := die, block := block, reason := reason, started := false, valid := 0 }
    { d.setBlk die block { d.blk die block with queued := reason } with ftl := { d.ftl with compost := d.ftl.compost ++ [r] } }

/-- Queue a block again whose relocation has started, so that what is still valid in it is read anew. -/
def Dev.requeue (d : Dev) (die block : Nat) : Dev :=
  if d.ftl.compost.any (fun c => c.die == die && c.block == block) then
    let up (c : Reloc) : Reloc := if c.die == die && c.block == block then { c with started := false } else c
    { d with ftl := { d.ftl with compost := d.ftl.compost.map up } }
  else d.queueCompost die block 2

/-- Queue every block of a block stripe for Compost under reason 2. -/
def Dev.reportStripe (d : Dev) (s : BStripe) : Dev :=
  s.blocks.foldl (fun e jb => e.queueCompost (d.memberDie s.group jb.1) jb.2 2) d

/-- The copy of a segment that is being programmed is given up, and the segment is dirty. -/
def Dev.segAgain (d : Dev) (seg : Nat) : Dev :=
  { d with ftl := { d.ftl with
      dirty := if d.ftl.dirty.contains seg then d.ftl.dirty else d.ftl.dirty ++ [seg]
      pass := d.ftl.pass.filter (fun k => k != seg), copies := AMap.del seg d.ftl.copies } }

/-- The sources of codewords that were to be programmed supply them again: the write cache, the block that Compost drains, DRAM for a
map segment. -/
def Dev.again (d : Dev) (cws : List Cw) : Dev :=
  cws.foldl (fun (e : Dev) w =>
    if w.kind = 3 then e.segAgain (w.nsid * 2 ^ 40 + w.iu)
    else
      let en := e.entry? w.nsid w.iu
      if w.kind ≤ 1 ∧ 0 < w.reloc ∧ entryType en = 1 then e.requeue (locDie (en % 2 ^ 38)) (locBlock (en % 2 ^ 38)) else e) (d.sendAgain cws)

/-- Does background work run: an operating mode or TEST (R33), in PS0 to PS2 (R49), with no power failure (R47)? -/
def Dev.background (d : Dev) : Bool :=
  (d.isOperating || d.f F.TOP_MODE_MODE == 0xB) && decide (d.f F.PWR_PSTATE_PS ≤ 2) && !d.mode.pfStop

/-- Bring early-warning condition 10 up to date: some block has passed RETAIN by more than 24 hours (R159). -/
def Dev.retainCheck (d : Dev) : Dev :=
  d.ewSet 10 (d.md.blocks.any (fun b => b.2.state != .free && b.2.state != .bad &&
    decide (d.f F.MAPW_RELOC_RETAIN * 86400 + 86400 < b.2.age)))

/-- Segment copies in a block that Compost drains are written anew: their segments become dirty. -/
def Dev.segMove (d : Dev) (die block : Nat) : Dev :=
  let segs := (d.md.dir.filter (fun s => s.2.loc.any (fun l => locDie l == die && locBlock l == block))).map Prod.fst
  let mark (l : List Nat) (k : Nat) : List Nat := if l.contains k then l else l ++ [k]
  { d with ftl := { d.ftl with dirty := segs.foldl mark d.ftl.dirty } }

/-- A zero position: a failed page contributes zeros to its row, and the block stripe closes at the end of it (R165
step 2): the members that have no page of it yet are padded. -/
def Dev.zeroPage (d : Dev) (g bsn page j : Nat) : Dev :=
  match d.stripe? g bsn, d.row? g bsn page with
  | some s, some r =>
    let r1 := { r with zero := setBit r.zero j true }
    (((d.setStripe { s with closing := true }).setRow r1).padStripe { s with closing := true }).stageRows g bsn
  | _, _ => d

/-- The parity of the open rows of a block stripe cannot be written: the block stripe closes, and the rows not yet protected are
written again from the write cache or, where Compost wrote them, by Compost; map segments from DRAM. -/
def Dev.parityLost (d : Dev) (g bsn : Nat) : Dev :=
  match d.stripe? g bsn with
  | none => d
  | some s =>
    let pages := (d.strp.slots.filter (fun r => r.state != .free && r.group == g && r.bsn == bsn)).map (fun r => r.page)
    let dies := s.blocks.map (fun jb => (d.memberDie g jb.1, jb.2))
    let hit (l : Nat) : Bool := dies.contains (locDie l, locBlock l) && pages.contains (locPage l)
    let lost := (d.flash.cws.filter (fun x => hit x.1)).map Prod.snd
    let free (r : JSlot) : JSlot := if r.group == g && r.bsn == bsn then { r with state := .free, parity := [] } else r
    let d1 := ((d.unstage hit).again ((s.fill.flatMap Prod.snd) ++ lost.filter (fun c => c.kind == 3))).setStripe
      { s with closing := true, fill := [] }
    let d2 := ({ d1 with strp := { d1.strp with slots := d1.strp.slots.map free } }).jshow
    if s.purpose = 1 then d2.reportStripe s else d2

/-- A program does not take place, or fails: its data is programmed again, and its page is a zero position or its parity is lost. -/
def Dev.programLost (d : Dev) (o : DieOp) : Dev :=
  match d.memberOf o.die with
  | some (_, j) => if o.parity then d.parityLost o.group o.bsn else (d.again o.cws).zeroPage o.group o.bsn o.page j
  | none => d

/-! ### Delivery of codewords to commands -/

/-- The logical block `sub` of a codeword's data. -/
def subBlock (lbaf data sub : Nat) : Nat := if lbaf = 3 then data / 2 ^ (4096 * sub) % 2 ^ 4096 else data

/-- A logical block as an extended LBA: its data, and above them its host metadata where the format has any. -/
def extBlock (lbaf data sub hmeta : Nat) : Nat :=
  subBlock lbaf data sub + (if lbaMeta lbaf = 0 then 0 else hmeta * 2 ^ 32768)

/-- A codeword has arrived for the jobs that wait for it: `none` for poisoned data. -/
def BlkSrc.fillFlash (b : BlkSrc) (loc lbaf : Nat) (c : Option Cw) : BlkSrc :=
  match b with
  | .flash l sub =>
    if l = loc then
      match c with
      | some w => if bit w.umask sub then .bad else .val (extBlock lbaf w.data sub w.hmeta)
      | none => .bad
    else b
  | _ => b

def BlkSrc.waiting : BlkSrc → Bool
  | .flash _ _ => true
  | .packed _ _ _ _ => true
  | _ => false

def BlkSrc.isBad : BlkSrc → Bool
  | .bad => true
  | _ => false

def BlkSrc.data? : BlkSrc → Option Nat
  | .val v => some v
  | _ => none

/-- The SMART counts of a command that has read blocks of a namespace (R157). -/
def Dev.countRead (d : Dev) (j : ReadJob) : Dev :=
  let units := j.blocks.length * (lbaBytes (((d.ns? j.nsid).map (fun n => n.lbaf)).getD 0) / 512)
  (((d.smart j.id.plot 0 units).smart (1024 + j.nsid) 0 units).smart j.id.plot 2 1).smart (1024 + j.nsid) 2 1

/-! ### Protection information (R68) -/

/-- One bit of the CRC-16 of the T10 guard, polynomial 0x8BB7, most significant bit first. -/
def crc16Step (c : Nat) : Nat := if bit c 15 then Nat.xor (c * 2 % 65536) 0x8BB7 else c * 2 % 65536

/-- The 16-bit guard of a block's data. -/
def crc16 (bs : List Byte) : Nat := bs.foldl (fun c b => Nat.repeat crc16Step 8 (Nat.xor c (b.toNat * 256))) 0

/-- A big-endian number from bytes. -/
def beNat (bs : List Byte) : Nat := bs.foldl (fun v b => 256 * v + b.toNat) 0

/-- Guard, application tag and reference tag of 8 bytes of metadata, which hold them big-endian in that order. -/
def piGuard (m : Nat) : Nat := beNat (leBytes 2 m)
def piApp (m : Nat) : Nat := beNat (leBytes 2 (m / 2 ^ 16))
def piRef (m : Nat) : Nat := beNat (leBytes 4 (m / 2 ^ 32))

/-- The 8 bytes of metadata that hold these fields. -/
def piBytes (guard app ref : Nat) : Nat :=
  leNat ((leBytes 2 guard).reverse ++ (leBytes 2 app).reverse ++ (leBytes 4 ref).reverse)

/-- The check of block `i` of a command, `v` with its metadata above 4,096 bytes of data: the first of guard, application
and reference tag that PRCHK asks for and that differs. All ones in the application tag, with Type 3 in the reference tag too,
turn the checks off. -/
def piCheck (ty : Nat) (c : PiCmd) (i v : Nat) : Option Sc :=
  let m := v / 2 ^ 32768
  if piApp m = 0xFFFF ∧ (ty = 1 ∨ piRef m = 0xFFFFFFFF) then none
  else if bit c.prchk 2 ∧ piGuard m ≠ crc16 (leBytes 4096 v) then some .guardCheckError
  else if bit c.prchk 1 ∧ piApp m &&& c.mask ≠ c.app &&& c.mask then some .applicationTagCheckError
  else if bit c.prchk 0 ∧ ty = 1 ∧ piRef m ≠ (c.ref + i) % 2 ^ 32 then some .referenceTagCheckError
  else none

/-- A block with the protection information that PRACT = 1 generates. -/
def piMake (ty : Nat) (c : PiCmd) (i v : Nat) : Nat :=
  let x := v % 2 ^ 32768
  x + piBytes (crc16 (leBytes 4096 x)) (c.app % 65536) (if ty = 1 then (c.ref + i) % 2 ^ 32 else c.ref % 2 ^ 32) * 2 ^ 32768

/-- May a command ask for these checks: Type 1 with the reference tag of its first block, Type 3 without a reference tag check? -/
def piOk (ty : Nat) (c : PiCmd) (slba : Nat) : Bool :=
  !bit c.prchk 0 || (ty == 1 && c.ref % 2 ^ 32 == slba % 2 ^ 32)

/-- The first check of a read that fails. -/
def Dev.piFail (d : Dev) (j : ReadJob) : Option Sc :=
  match j.pi with
  | none => none
  | some c =>
    let ty := ((d.ns? j.nsid).map (fun n => n.pi)).getD 0
    ((j.blocks.filterMap BlkSrc.data?).zipIdx.map (fun x => piCheck ty c x.2 x.1)).findSome? id

/-- A block as a read transfers it: PRACT = 1 strips the protection information. -/
def ReadJob.strip (j : ReadJob) (v : Nat) : Nat :=
  match j.pi with
  | some c => if c.pract then v % 2 ^ 32768 else v
  | none => v

/-- A read with every block at hand ends (R66): a host read sends its clean blocks and completes; Compare compares;
poisoned or marked data gives Unrecovered Read Error. -/
def Dev.finishRead (d : Dev) (j : ReadJob) : Dev :=
  let bad := j.blocks.any BlkSrc.isBad
  if ¬d.outstanding j.id then d.result j.id .success 0 0
  else
  let d := d.countRead j
  match j.use with
  | .toHost =>
    let d1 := j.blocks.foldl (fun e b =>
      match b.data? with
      | some v => e.send (.block j.id.plot (j.strip v))
      | none => e) d
    if bad then d1.done j.id .unrecoveredReadError else d1.done j.id ((d.piFail j).getD .success)
  | .compareWith ref =>
    if bad then d.done j.id .unrecoveredReadError
    else match d.piFail j with
    | some st => d.done j.id st
    | none =>
      if (j.blocks.filterMap BlkSrc.data?).map j.strip = ref.map j.strip then d.done j.id .success
      else d.done j.id .compareFailure
  | .copyTo _ => d.done j.id .success
  | .verifyOnly => if bad then d.done j.id .unrecoveredReadError else d.done j.id ((d.piFail j).getD .success)

/-- Finish the jobs whose blocks are all at hand; the others keep waiting. -/
def Dev.finishReads (d : Dev) : Dev :=
  let fin := d.ftl.reads.filter (fun j => !j.blocks.any BlkSrc.waiting)
  let rest := d.ftl.reads.filter (fun j => j.blocks.any BlkSrc.waiting)
  fin.foldl (fun e j => e.finishRead j) { d with ftl := { d.ftl with reads := rest } }

/-- Deliver a codeword to every read that waits for it. -/
def Dev.deliverHost (d : Dev) (loc : Nat) (c : Option Cw) : Dev :=
  let of (b : BlkSrc) : List Nat := match b with
    | .packed n _ l _ => d.iuLocs n l
    | _ => []
  let need := d.ftl.reads.flatMap (fun j => (j.blocks.eraseDups).flatMap of)
  let got := d.ftl.packIn.filter (fun x => need.contains x.1)
  let d := { d with ftl := { d.ftl with packIn := if need.contains loc then AMap.put loc c got else got } }
  let up (j : ReadJob) : ReadJob :=
    { j with blocks := j.blocks.map (fun b => b.fillFlash loc (((d.ns? j.nsid).map (fun n => n.lbaf)).getD 0) c) }
  ({ d with ftl := { d.ftl with reads := d.ftl.reads.map up } }).finishReads

/-! ### Lost stripes (R170, R173, R177) -/

/-- Does the lost-stripe log hold the stripe of this location? -/
def Dev.lostAt (d : Dev) (loc : Nat) : Bool :=
  let b := d.blk (locDie loc) (locBlock loc)
  d.strp.lost.any (fun r => r.group == b.group && decide (r.bsnFirst ≤ b.bsn) && decide (b.bsn ≤ r.bsnLast) &&
    (r.ty == 2 || (r.page == locPage loc && r.slot == locSlot loc)))

/-! ### The contents of IUs -/

/-- What a block of an IU that stores nothing reads as: zeros, with metadata of ones where the namespace has protection
information and the block is deallocated, or, where zeros are marked as written, protection information that the spec does not
state (`Config.zeroPi`). -/
def Ns.emptyBlock (n : Ns) (marked : Bool) (lba : Nat) : Nat :=
  if n.pi = 0 then 0
  else (if marked then Config.zeroPi n.nsid lba % 2 ^ 64 else 2 ^ 64 - 1) * 2 ^ 32768

/-- The blocks of 4,096 bytes of data: each block with its metadata above it, and its mark. -/
def Ns.unpack (n : Ns) (data hmeta umask : Nat) (poison : Bool) : List (Nat × BlkMark) :=
  (List.range n.slotBlocks).map (fun i =>
    (extBlock n.lbaf data i hmeta, if poison then .poisoned else if bit umask i then .marked else .good))

/-- The blocks of an IU as they are stored now. -/
def Dev.iuBlocksNow (d : Dev) (n : Ns) (iu : Nat) : List (Nat × BlkMark) :=
  let e := d.entry? n.nsid iu
  let loc := e % 2 ^ 38
  if entryType e = 0 then (List.range n.iuBlocks).map (fun i => (n.emptyBlock false (iu * n.iuBlocks + i), .good))
  else if entryType e = 3 then
    (List.range n.iuBlocks).map (fun i => (n.emptyBlock true (iu * n.iuBlocks + i), if e = badEntry then .marked else .good))
  else if entryType e = 2 then
    (List.range n.iuSlots).flatMap (fun i =>
      let s := AMap.get ⟨0, 0, 0, true⟩ (e % 2 ^ 18 + i) d.mram.slots
      n.unpack s.data s.hmeta s.umask s.poison)
  else match d.cw? loc with
  | some c =>
    if c.kind = 1 then
      let ls := d.iuLocs n.nsid loc
      let cws := ls.filterMap d.cw?
      match Fmt.iuOpen n.iuBytes (cws.map Cw.data) with
      | .ok v => (List.range n.iuBlocks).map (fun i => (v / 2 ^ (8 * lbaBytes n.lbaf * i) % 2 ^ (8 * lbaBytes n.lbaf),
          if cws.any Cw.poison || ls.any d.lostAt then .poisoned else .good))
      | .error _ => (List.range n.iuBlocks).map (fun _ => (0, .poisoned))
    else
      (List.range n.iuSlots).flatMap (fun i =>
        let l := d.cwAt loc i
        match d.cw? l with
        | some w => n.unpack w.data w.hmeta w.umask (w.poison || d.lostAt l)
        | none => n.unpack 0 0 0 true)
  | none => (List.range n.iuBlocks).map (fun _ => (0, .poisoned))

/-- The slots of an IU that holds these blocks; a slot with a poisoned block carries the poison (R124). -/
def Ns.pack (n : Ns) (bs : List (Nat × BlkMark)) : List Slot :=
  let lba := lbaBytes n.lbaf
  (List.range n.iuSlots).map (fun s =>
    let mine := (bs.drop (s * n.slotBlocks)).take n.slotBlocks
    { data := (mine.zipIdx.map (fun x => x.1.1 % 2 ^ (8 * lba) * 2 ^ (8 * lba * x.2))).sum
      hmeta := if lbaMeta n.lbaf = 0 then 0 else ((mine.head?).map Prod.fst).getD 0 / 2 ^ 32768
      umask := (mine.zipIdx.map (fun x => if x.1.2 = .marked then 2 ^ x.2 else 0)).sum
      poison := mine.any (fun b => b.2 == .poisoned) })

/-- The locations of stripe (page, slot) of a block stripe. -/
def Dev.stripeLocs (d : Dev) (s : BStripe) (page slot : Nat) : List Nat :=
  s.blocks.map (fun jb => mkLoc (d.memberDie s.group jb.1) jb.2 page slot)

/-- Erasures of a stripe as the failed members see it: members that are failed and not zero positions. -/
def Dev.erased (d : Dev) (s : BStripe) : Nat :=
  (s.blocks.filter (fun jb => d.memberFailed s.group jb.1)).length

/-- The IUs that have a codeword at one of these locations: (nsid, iu, index of the codeword). -/
def Dev.iusAt (d : Dev) (locs : List Nat) : List (Nat × Nat × Nat) :=
  d.ftl.map.filterMap (fun ke =>
    if entryType ke.2 = 1 then
      let nsid := ke.1 / 2 ^ 40
      let n := ((d.ns? nsid).map Ns.iuSlots).getD 1
      ((List.range n).find? (fun i => locs.contains (d.cwAt (ke.2 % 2 ^ 38) i))).map (fun i => (nsid, ke.1 % 2 ^ 40, i))
    else none)

/-- Mark an IU uncorrectable in the map (R170 step 3). -/
def Dev.markIu (d : Dev) (nsid iu : Nat) : Dev :=
  ((d.mapSet nsid iu badEntry).jrec (.mapTo nsid iu badEntry 0)).bump (F.STRP_CNT_COUNT 7) 0x17 0 1

/-- Write a record of the lost-stripe log; a full log counts it as overflow. -/
def Dev.logLost (d : Dev) (r : LostRec) : Dev :=
  let d1 := { d with strp := { d.strp with lostTotal := satAdd 32 d.strp.lostTotal r.stripes } }
  if 1024 ≤ d.strp.lost.length then
    { d1 with strp := { d1.strp with lostOverflow := satAdd 32 d1.strp.lostOverflow r.stripes } }
  else { d1 with strp := { d1.strp with lost := r :: d1.strp.lost } }

/-- A stripe is lost (R170): log, event, asynchronous event, marks on the IUs that still point into it, Compost. A
stripe already in the log changes nothing. -/
def Dev.loseStripe (d : Dev) (s : BStripe) (page slot cause : Nat) : Dev :=
  let locs := d.stripeLocs s page slot
  if locs.any d.lostAt then d
  else
    let ius := d.iusAt locs
    let segs := (locs.filterMap d.cw?).filter (fun c => c.kind == 3 || c.kind == 4)
    let items := ius.map (fun x => (x.1, x.2.1, x.2.2, 1)) ++ segs.map (fun c => (0, c.iu, c.cwidx, 3))
    let r : LostRec := { ty := 1, cause := cause, group := s.group, bsnFirst := s.bsn, bsnLast := s.bsn, page := page,
                         slot := slot, time := d.time, stripes := 1, items := items }
    let d1 := ((d.logLost r).bump (F.STRP_CNT_COUNT 3) 0x13 0 1).raise 0x018 noPlot
      [s.group, 1, stripeNum s.bsn page slot]
    let d2 := ius.foldl (fun e x => e.markIu x.1 x.2.1) (d1.vendorAll 3)
    let d3 := segs.foldl (fun (e : Dev) c => e.segAgain (c.nsid * 2 ^ 40 + c.iu)) (d2.unstage locs.contains)
    (d3.reportStripe s).refreshWarn

/-- A host write, Write Zeroes or deallocation replaces marked IUs (R178): their items become replaced, and a record
with nothing left open leaves the log. -/
def Dev.replaceMarks (d : Dev) (nsid : Nat) (ius : List Nat) : Dev :=
  let item (x : Nat × Nat × Nat × Nat) : Nat × Nat × Nat × Nat :=
    if x.1 == nsid && ius.contains x.2.1 && x.2.2.2 == 1 then (x.1, x.2.1, x.2.2.1, 2) else x
  let recs := d.strp.lost.map (fun r => { r with items := r.items.map item })
  let keep (p : LostRec × LostRec) : Bool :=
    p.2.ty == 2 || p.2.items.any (fun x => x.2.2.2 == 1) || p.1.items == p.2.items
  let left := ((d.strp.lost.zip recs).filter keep).map Prod.snd
  ({ d with strp := { d.strp with lost := left } }).refreshWarn

/-! ### Failed members (R171 to R174) -/

/-- The state and counts of a group as STRP_GRP shows them. -/
def Dev.groupShow (d : Dev) (g : Nat) : Dev :=
  let live := (d.liveMembers g).length
  let failed := (d.members g).length - live
  let rb := d.strp.rebuilds.find? (fun r => r.group == g)
  let st := if live < geomM (d.groupGeom g) + 2 then 3
    else match rb with
      | some r => if r.active then 2 else 1
      | none => 0
  ((d.setF (F.STRP_GRP_LIVE g) live).setF (F.STRP_GRP_FAILED g) failed).setF (F.STRP_GRP_STATE g) st

/-- Rebuild counts as STRP_RBSTAT shows them. -/
def Dev.rebuildShow (d : Dev) : Dev :=
  let act := (d.strp.rebuilds.filter (fun r => r.active)).length
  (d.setF F.STRP_RBSTAT_ACTIVE act).setF F.STRP_RBSTAT_QUEUED (d.strp.rebuilds.length - act)

/-- Queue a group for rebuild for a newly failed member, and start it while fewer than MAXGRP groups rebuild. -/
def Dev.queueRebuild (d : Dev) (g j : Nat) : Dev :=
  let rs := match d.strp.rebuilds.find? (fun r => r.group == g) with
    | some _ => d.strp.rebuilds.map (fun r =>
        if r.group == g then { r with members := r.members ++ [(j, false)] } else r)
    | none =>
      let act := (d.strp.rebuilds.filter (fun r => r.active)).length
      d.strp.rebuilds ++ [{ group := g, members := [(j, false)], active := decide (act < d.f F.STRP_RBCFG_MAXGRP),
                            lost := 0, left := [] }]
  ((({ d with strp := { d.strp with rebuilds := rs } }).raise 0x019 noPlot [g, j]).groupShow g).rebuildShow

/-- The block stripes of a group that have lost more members than its parity become one range record (R173). -/
def Dev.exposeGroup (d : Dev) (g : Nat) : Dev :=
  let m := geomM (d.groupGeom g)
  let hit := d.strp.stripes.filter (fun s => s.group == g && decide (m < d.erased s) &&
    !d.strp.lost.any (fun r => r.group == g && decide (r.bsnFirst ≤ s.bsn) && decide (s.bsn ≤ r.bsnLast) && r.ty == 2))
  match (hit.map (fun s => s.bsn)).min?, (hit.map (fun s => s.bsn)).max? with
  | some lo, some hi =>
    let die := d.memberDie g 0
    let n := hit.length * (d.prof die).pages * d.cwpp die
    let r : LostRec := { ty := 2, cause := 3, group := g, bsnFirst := lo, bsnLast := hi, page := 0, slot := 0,
                         time := d.time, stripes := n, items := [] }
    ((((d.logLost r).bump (F.STRP_CNT_COUNT 3) 0x13 0 n).raise 0x01D noPlot [g]).raise 0x018 noPlot
      [g, 2, lo, hi]).vendorAll 3 |>.refreshWarn
  | _, _ => d

/-- The operations queued for a die that leaves service end as under R118: reads go to reconstruction, what was to be programmed is
programmed to other members from the cache or the source, an erase marks its block bad. -/
def Dev.endOps (d : Dev) (die : Nat) : Dev :=
  let x := d.die die
  let ops := x.queue ++ x.busy.toList ++ x.suspended.toList ++ x.ended.toList
  let rd := (ops.filter (fun o => o.cls == .hostRead || o.cls == .internalRead || o.cls == .rake)).flatMap (fun o =>
    o.slots.map (fun s => ({ loc := mkLoc o.die o.block o.page s, cmd := o.cmd, step := .reconstruct, entry := 0,
                             tried := 0, ptype := 0, won := false } : ReadCw)))
  let d1 := d.setDie die { x with queue := [], busy := none, suspended := none, ended := none }
  let d2 := { d1 with media := { d1.media with reading := d1.media.reading ++ rd } }
  ops.foldl (fun e o =>
    match o.cls with
    | .program => e.programLost o
    | .erase => e.blockBad die o.block 2
    | _ => e) d2

/-- A member leaves the block stripes that are open: what was gathered for it goes to other members, the rows that waited for it alone are
staged, and where it holds parity the rows not yet protected are written again. -/
def Dev.leaveStripes (d : Dev) (g j : Nat) : Dev :=
  (d.strp.stripes.filter (fun s => s.group == g && s.isOpen)).foldl (fun (e : Dev) s =>
    if s.pmem == j || s.qmem == some j then e.parityLost g s.bsn
    else
      match e.stripe? g s.bsn with
      | none => e
      | some t => ((e.again (AMap.get [] j t.fill)).setStripe { t with fill := AMap.del j t.fill }).stageRows g s.bsn) d

/-- Dies leave their groups by one event (R171, R173): failed members, zero positions from now on, their queued work ended,
their groups queued for rebuild, and each group that has lost more than its parity exposed once. -/
def Dev.loseMembers (d : Dev) (dies : List Nat) : Dev :=
  let out (e : Dev) (die : Nat) : Dev :=
    match e.memberOf die with
    | none => e.endOps die
    | some (g, j) =>
      if e.memberFailed g j then e.endOps die
      else (((e.setF (F.STRP_GMEM_FAILED (g * 32 + j)) 1).endOps die).leaveStripes g j).queueRebuild g j
  let gs := (dies.filterMap (fun die => (d.memberOf die).map Prod.fst)).eraseDups
  let d1 := gs.foldl (fun (e : Dev) g => e.exposeGroup g) (dies.foldl out d)
  if gs.isEmpty then d1 else (d1.setCond F.TOP_MODE_CDEGR true).spareCheck

/-- A die becomes a failed member (R119, R171): marked in CHAN_DIEFAIL and the device metadata. The die's own event is the
caller's. -/
def Dev.failMember (d : Dev) (die cause : Nat) : Dev :=
  let ch := dieChan die
  let l := dieLocal die
  let d1 := ((d.setF (F.CHAN_DIEFAIL_FAIL ch (l / 32)) (setBit (d.f (F.CHAN_DIEFAIL_FAIL ch (l / 32))) (l % 32) true)).setF
    (F.CHAN_DIESTAT_STATE ch l) 2)
  let d2 := { d1 with nv := { d1.nv with failedDies := NSet.add die d1.nv.failedDies } }
  let n := ((List.range 2).map (fun i => popCount 32 (d2.f (F.CHAN_DIEFAIL_FAIL ch i)))).sum
  let d3 := ((d2.setF (F.CHAN_STAT_DIESFAIL ch) n).almanacRetire 3 cause die)
  (d3.loseMembers [die]).ewOccur 3

/-- The dies present on a channel. -/
def Dev.chanDies (d : Dev) (ch : Nat) : List Nat :=
  ((List.range 64).filter (fun l => bit (d.f (F.CHAN_DIEPRES_PRES ch (l / 32))) (l % 32))).map (fun l => ch * 64 + l)

/-- The codewords of these channels that are being read go to reconstruction: their buffers are gone. -/
def Dev.dropBuffers (d : Dev) (chs : List Nat) : Dev :=
  let up (r : ReadCw) : ReadCw := if chs.contains (dieChan (locDie r.loc)) then { r with step := .reconstruct } else r
  { d with media := { d.media with reading := d.media.reading.map up } }

/-- Retire a channel (R131, R26): CHAN_STAT.RETIRED, TOP_CHRETIRED, its Skim unit, the device metadata, UNIT_RETIRED,
CHAN_FAULT and the loss of its dies as members. That UNIT_RETIRED carries no journal item here is the model's choice (DESIGN CHOICE,
assumption 141: R27 names no item). -/
def Dev.retireChannel (d : Dev) (ch cause : Nat) : Dev :=
  if d.chanOk ch then
    let d1 := d.raise (chanEvent ch 3) noPlot []
    let d2 := ((d1.setF (F.CHAN_STAT_RETIRED ch) 1).setF F.TOP_CHRETIRED_CHOUT
      (setBit (d1.f F.TOP_CHRETIRED_CHOUT) ch true)).setF (F.SKIM_BIND_MODE (ch / 8) (ch % 8)) 2
    let d3 := (({ d2 with nv := { d2.nv with retiredCh := setBit d2.nv.retiredCh ch true } }).almanacRetire 2 cause
      ch).raise 0x00F noPlot []
    ((((d3.vendorAll 2).ewOccur 4).dropBuffers [ch]).loseMembers (d.chanDies ch)).setCond F.TOP_MODE_CDEGR true
  else d

end Sys2Proof.Machine
end

