-- ==== Sys2Proof/Machine/Channel.lean ====
section
/-! DEFINITION. NAND channels and the media path (chapter 5): the meanings of the rows from die discovery to target
retraining, reconstruction (R169) among them. -/

namespace Sys2Proof.Machine

/-- The dies that the stream declares on a channel. -/
def Dev.declaredDies (d : Dev) (ch : Nat) : List Nat := (((chanEnt? d ch).map (fun c => c.dies)).getD []).map (fun l => ch * 64 + l)

/-- A channel whose every die is failed is retired (R131). -/
def Dev.chanSpent (d : Dev) (ch : Nat) : Dev :=
  let ds := d.declaredDies ch
  if !ds.isEmpty && ds.all (fun x => d.nv.failedDies.contains x) then d.retireChannel ch 4 else d

/-- Does a die qualify for 4,800 MT/s (R112): a die of its profile's JEDEC identification whose parameter page carries the declaration at
the profile's byte offset and bit mask? -/
def DieProf.qualifies (p : DieProf) (jedec : Nat) (page : List Byte) : Bool :=
  p.jedec == jedec && p.xrMask != 0 && (((page[p.xrOff]?).map BitVec.toNat).getD 0 &&& p.xrMask) == p.xrMask

/-- DIE_DISCOVERY (R114): during BOOT one declared die answers Read ID (`jedec`) and gives its parameter page, or does not. CHAN_TNOM takes
the longest time that a die of the channel states (DESIGN CHOICE, assumption 154: R117 has one time for a channel). -/
def dieDiscovery (die : Nat) (answers crcOk : Bool) (tRead tProg tErase rate jedec : Nat) (page : List Byte) (susp : Bool)
    (d : Dev) : Dev :=
  let ch := dieChan die
  let l := dieLocal die
  let m := d.f F.TOP_MODE_MODE
  if ¬(d.chanOk ch) ∨ ¬(d.declaredDies ch).contains die ∨ ¬(m = 3 ∨ m = 4 ∨ m = 5 ∨ m = 0xB) then d
  else if answers && crcOk then
    let xr := (d.prof die).qualifies jedec page
    let d1 := d.setF (F.CHAN_DIEPRES_PRES ch (l / 32)) (setBit (d.f (F.CHAN_DIEPRES_PRES ch (l / 32))) (l % 32) true)
    let d2 := d1.setF (F.CHAN_DIEXR_XR ch (l / 32)) (setBit (d1.f (F.CHAN_DIEXR_XR ch (l / 32))) (l % 32) xr)
    let n := ((List.range 2).map (fun i => popCount 32 (d2.f (F.CHAN_DIEPRES_PRES ch i)))).sum
    let d3 := d2.setF (F.CHAN_STAT_DIESPRES ch) n
    let d4 := d3.setF (F.CHAN_DIESTAT_STATE ch l) (if d.nv.failedDies.contains die then 2 else 1)
    let d5 := ((d4.setF (F.CHAN_TNOM_TIME ch 0) (max (d4.f (F.CHAN_TNOM_TIME ch 0)) tRead)).setF (F.CHAN_TNOM_TIME ch 1)
      (max (d4.f (F.CHAN_TNOM_TIME ch 1)) tProg)).setF (F.CHAN_TNOM_TIME ch 2)
        (max (d4.f (F.CHAN_TNOM_TIME ch 2)) tErase)
    ({ d5 with media := { d5.media with
        declared := AMap.put die rate d5.media.declared
        suspOk := if susp then NSet.add die d5.media.suspOk else NSet.del die d5.media.suspOk } }).chanSpent ch
  else if d.nv.failedDies.contains die then d.chanSpent ch
  else (d.failMember die 0).chanSpent ch

def execDieDiscovery (die : Nat) (answers crcOk : Bool) (tRead tProg tErase rate jedec : Nat) (page : List Byte) (susp : Bool) :=
  run (dieDiscovery die answers crcOk tRead tProg tErase rate jedec page susp)

/-- The highest rate code the channel may train at (R111, R112): not above RATEMAX, declared by every present die,
and 0x6 only with XRATE_EN and every present die qualified. -/
def Dev.rateCand (d : Dev) (ch : Nat) : Nat :=
  let dies := d.chanDies ch
  let decl := ((dies.map (fun die => AMap.get 0 die d.media.declared)).min?).getD 0
  let xr := d.flag (F.CHAN_CFG_XRATE_EN ch) &&
    dies.all (fun die => bit (d.f (F.CHAN_DIEXR_XR ch (dieLocal die / 32))) (dieLocal die % 32))
  if xr ∧ 6 ≤ d.f (F.CHAN_CFG_RATEMAX ch) then 6 else min (min 5 decl) (d.f (F.CHAN_CFG_RATEMAX ch))

/-- The dies present on a target: `16 * channel + chip enable`. -/
def Dev.targetDies (d : Dev) (t : Nat) : List Nat := (d.chanDies (t / 16)).filter (fun x => x / 4 == t)

def Dev.setTarget (d : Dev) (t : Nat) (x : NandTarget) : Dev :=
  { d with media := { d.media with targets := AMap.put t x d.media.targets } }

/-- CHANNEL_TRAINING (R130): the channel trains every present target from the highest candidate down; `passes` lists the codes at which
training passes, `temps` the die temperature of each target. A channel that fails at 0x1 is retired (R131). -/
def channelTraining (ch : Nat) (passes : List Nat) (temps : List Int) (d : Dev) : Dev :=
  if ¬d.chanOk ch ∨ d.flag (F.CHAN_STAT_TRAINED ch) ∨ (d.chanDies ch).isEmpty then d
  else
    let codes := ((List.range 7).filter (fun c => decide (1 ≤ c ∧ c ≤ d.rateCand ch) && passes.contains c))
    match codes.max? with
    | none => d.retireChannel ch 3
    | some c =>
      let d1 := (((d.setF (F.CHAN_STAT_RATE ch) c).setF (F.CHAN_STAT_TRAINED ch) 1).setF (F.CHAN_STAT_XRATE ch)
        (Bool.nat (c == 6)))
      (List.range 16).foldl (fun (e : Dev) t =>
        if (e.targetDies (16 * ch + t)).isEmpty then e
        else e.setTarget (16 * ch + t) { fails := 0, at_ := e.now, temp := temps.getD t 0 }) d1

def execChannelTraining (ch : Nat) (passes : List Nat) (temps : List Int) := run (channelTraining ch passes temps)

/-! ### Die queues (R115 to R119) -/

/-- May this queued operation be issued: a program only with its data whole (R115) and its BLOCK_OPEN record
committed, an erase only with its ERASE_START committed (R146); after PWRFAIL_N falls nothing new (R47, R132). -/
def Dev.issuable (d : Dev) (o : DieOp) : Bool :=
  !d.mode.pfStop &&
  (match o.cls with
    | .program => o.whole && !d.uncommitted (.blockOpen o.die o.block (d.blk o.die o.block).purpose)
    | .erase => !d.uncommitted (.eraseStart o.die o.block)
    | _ => true)

/-- Does a die have no operation in progress? -/
def DieSt.idle (x : DieSt) : Bool := x.busy.isNone && x.suspended.isNone && x.ended.isNone

/-- The other LUNs of a die's target. -/
def lunsBeside (die : Nat) : List Nat := ((List.range 4).map (fun i => die / 4 * 4 + i)).filter (fun x => x != die)

/-- Under Toggle DDR a target reset is issued once the other LUNs of the target are idle (R118); under ONFI a LUN is reset by itself. -/
def Dev.resetIssued (d : Dev) (die : Nat) : Bool :=
  d.f (F.CHAN_CFG_IFACE (dieChan die)) == 0 || (lunsBeside die).all (fun x => (d.die x).idle)

/-- Does a target reset keep a LUN from new operations? -/
def Dev.resetBeside (d : Dev) (die : Nat) : Bool :=
  d.f (F.CHAN_CFG_IFACE (dieChan die)) == 1 && (lunsBeside die).any (fun x => d.dieState x == 3)

/-- Does the sequencer of a die run: channel in service, die in service, interfaces driven, the part not in PS3 or PS4, the quadrant not
isolated for its test? -/
def Dev.dieRuns (d : Dev) (die : Nat) : Bool :=
  d.chanOk (dieChan die) && d.dieState die == 1 && d.media.driven && decide (d.f F.PWR_PSTATE_PS ≤ 2) && !d.isolated (dieChan die / 8)

/-- Does a die take new operations: its sequencer runs, its quadrant is not under test (R44), no target reset waits for it? -/
def Dev.dieTakes (d : Dev) (die : Nat) : Bool := d.dieRuns die && !d.underTest (dieChan die / 8) && !d.resetBeside die

/-- Load the media keys of the codewords of an operation into its lane (R129); `none` while one cannot be loaded. -/
def Dev.laneKeys (d : Dev) (o : DieOp) : Option Dev :=
  (o.cws.filter (fun c => c.kind ≤ 1)).foldl (fun (e : Option Dev) c => e.bind (fun x => x.laneKey (dieChan o.die) c.nsid c.epoch)) (some d)

/-- DIE_OP_ISSUE (R115, R24): the next operation of a die queue by class and age, first in its class; a suspended operation resumes once
no host read is queued (R116), or at once where the quadrant is to be tested (R44). After PWRFAIL_N falls only a suspended program
resumes (R132). -/
def dieOpIssue (die : Nat) (d : Dev) : Dev :=
  let x := d.die die
  let q := (x.queue.take 32).filter d.issuable
  let waiting := (List.range 5).filter (fun c => q.any (fun o => o.cls.num == c))
  if ¬d.dieRuns die then d
  else match x.busy, x.ended, x.suspended with
    | none, none, some o =>
      match if d.dieTakes die then q.filter (fun o => o.cls == .hostRead) else [] with
      | [] => if d.mode.pfStop ∧ o.cls ≠ .program then d else d.setDie die { x with busy := some o, suspended := none }
      | h :: _ => d.setDie die { x with busy := some h, queue := x.queue.erase h, ages := x.ages.round waiting 0 }
    | none, none, none =>
      match if d.dieTakes die then waiting else [] with
      | [] => d
      | c0 :: _ =>
        let c := x.ages.pick waiting c0
        match q.find? (fun o => o.cls.num == c) with
        | none => d
        | some o => ((d.laneKeys o).getD d).setDie die
            (if (d.laneKeys o).isNone then x else { x with busy := some o, queue := x.queue.erase o, ages := x.ages.round waiting c })
    | _, _, _ => d

def execDieOpIssue (die : Nat) := run (dieOpIssue die)

/-- The operation class of a deadline: 0 read, 1 program, 2 erase (CHAN_TNOM). -/
def OpClass.timeIx : OpClass → Nat
  | .program => 1
  | .erase => 2
  | _ => 0

/-- The deadline of an operation in 0.1 us (R117). -/
def Dev.deadline (d : Dev) (o : DieOp) : Nat :=
  d.f (F.CHAN_DTO_MULT (dieChan o.die)) * d.f (F.CHAN_TNOM_TIME (dieChan o.die) o.cls.timeIx)

/-- Add to a channel counter and its PMU source. -/
def Dev.chanCount (d : Dev) (ch k n : Nat) : Dev :=
  d.bump (F.CHAN_CNT_COUNT ch k) (0x100 + (ch % 8) * 8 + k) (ch / 8) n

/-- The codewords a finished page read leaves in the channel buffer. -/
def readCws (o : DieOp) (step : Ladder) : List ReadCw :=
  o.slots.map (fun s => { loc := mkLoc o.die o.block o.page s, cmd := o.cmd, step := step, entry := 0, tried := 0,
                          ptype := 0, won := false })

/-- A read of a page counts toward read disturb of its block (R152). -/
def Dev.countPageRead (d : Dev) (die block : Nat) : Dev :=
  let b := d.blk die block
  d.setBlk die block { b with reads := b.reads + 1 }

/-- DIE_STATUS_POLL (R117, R118): a poll shows the LUN ready, `elapsed` tenths of a microsecond after the confirm
cycle or after the reset command, suspensions not counted. A response in the deadline's cycle is in time (R32). -/
def dieStatusPoll (die elapsed : Nat) (d : Dev) : Dev :=
  let ch := dieChan die
  let x := d.die die
  if d.dieState die = 3 then
    if ¬d.resetIssued die then d
    else if elapsed ≤ d.f (F.CHAN_DTO_MULT ch) * 10000 then d.setF (F.CHAN_DIESTAT_STATE ch (dieLocal die)) 1
    else d.chanCount ch 7 1
  else match x.busy with
    | none => d
    | some o =>
      if d.deadline o < elapsed then d.chanCount ch 7 1
      else
        let d1 := d.setF (F.CHAN_DIESTAT_CONSEC ch (dieLocal die)) 0
        match o.cls with
        | .program | .erase => d1.setDie die { x with busy := none, ended := some o }
        | _ =>
          let d2 := (d1.setDie die { x with busy := none }).countPageRead die o.block
          { d2 with media := { d2.media with reading := d2.media.reading ++ readCws o .decode } }

def execDieStatusPoll (die elapsed : Nat) := run (dieStatusPoll die elapsed)

/-- A timeout is counted; the FAILN-th in a row fails the die (R119), and a channel whose every die has failed is retired (R131). The class in
the record is the queue class 0 to 4, and 5 for a reset (DESIGN CHOICE, assumption 156: R118 gives no numbers). -/
def Dev.countTimeout (d : Dev) (die cls : Nat) : Dev :=
  let ch := dieChan die
  let l := dieLocal die
  let n := d.f (F.CHAN_DIESTAT_CONSEC ch l) + 1
  let d1 := (((d.raise (chanEvent ch 0) noPlot [die, cls]).chanCount ch 6 1).setF (F.CHAN_DIESTAT_CONSEC ch l) n).setF
    (F.CHAN_DIESTAT_STATE ch l) 3
  let d2 := d1.almanacCount (112 + 8 * 7) 1
  if d2.f (F.CHAN_DTO_FAILN ch) ≤ n then ((d2.raise (chanEvent ch 1) noPlot []).failMember die 2).chanSpent ch else d2

/-- DIE_TIMEOUT (R118): the deadline of the operation in progress passes without a response: a read goes to reconstruction, the data of a
program is programmed again elsewhere, the block of an erase is bad. An operation that was suspended for this read is resumed after the
reset (DESIGN CHOICE, assumption 157: R118 does not say what becomes of it). -/
def dieTimeout (die : Nat) (d : Dev) : Dev :=
  let x := d.die die
  match x.busy with
  | none => d
  | some o =>
    let d1 := d.setDie die { x with busy := none }
    let d2 := match o.cls with
      | .program => d1.programLost o
      | .erase => d1.blockBad die o.block 2
      | _ => { d1 with media := { d1.media with reading := d1.media.reading ++ readCws o .reconstruct } }
    d2.countTimeout die o.cls.num

def execDieTimeout (die : Nat) := run (dieTimeout die)

/-- DIE_RESET_TIMEOUT (R118): the wait for ready after a reset passes its deadline; the class is `reset` (5), and
the reset is issued again unless the die has failed. -/
def dieResetTimeout (die : Nat) (d : Dev) : Dev :=
  if d.dieState die = 3 ∧ d.resetIssued die = true then d.countTimeout die 5 else d

def execDieResetTimeout (die : Nat) := run (dieResetTimeout die)

/-- PROGRAM_SUSPEND (R116): a host read has waited SUSPWAIT behind a program or erase of a die that declares suspension. -/
def programSuspend (die : Nat) (d : Dev) : Dev :=
  let ch := dieChan die
  let x := d.die die
  match x.busy, x.suspended with
  | some o, none =>
    if d.flag (F.CHAN_CFG_SUSP_EN ch) ∧ d.media.suspOk.contains die ∧ d.dieTakes die ∧ (o.cls = .program ∨ o.cls = .erase) ∧
        x.queue.any (fun r => r.cls == .hostRead) ∧ o.suspends < d.f (F.CHAN_DTO_SUSPMAX ch) then
      d.setDie die { x with busy := none, suspended := some { o with suspends := o.suspends + 1 } }
    else d
  | _, _ => d

def execProgramSuspend (die : Nat) := run (programSuspend die)

/-! ### The read recovery ladder (R122) -/

/-- Retry entry `e` of a channel is valid for a page type (R126). Entries for SLC-mode blocks apply to none: the spec has no way to open a
block in SLC mode. -/
def Dev.retryValid (d : Dev) (ch ptype e : Nat) : Bool :=
  let w0 := d.f (F.CHAN_RETRY_ENTRY ch e 0)
  let w1 := d.f (F.CHAN_RETRY_ENTRY ch e 1)
  bit w0 8 && !bit w0 10 && bit (bits w1 24 8) ptype

/-- The valid entries in table order starting at LASTRETRY and wrapping, at most RETRYMAX of them. -/
def Dev.retryWalk (d : Dev) (die ptype : Nat) : List Nat :=
  let ch := dieChan die
  let s := d.f (F.CHAN_DIESTAT_LASTRETRY ch (dieLocal die))
  (((List.range 64).map (fun i => (s + i) % 64)).filter (d.retryValid ch ptype)).take (d.f (F.CHAN_CFG_RETRYMAX ch))

/-- The next valid entry after `e` in table order, wrapping. -/
def Dev.retryNext (d : Dev) (ch ptype e : Nat) : Option Nat :=
  ((List.range 64).map (fun i => (e + 1 + i) % 64)).find? (d.retryValid ch ptype)

def Dev.reading? (d : Dev) (loc : Nat) (step : Ladder) : Option ReadCw :=
  d.media.reading.find? (fun r => r.loc == loc && r.step == step)

/-- Replace or remove the entry of a codeword being read. -/
def Dev.dropReading (d : Dev) (r : ReadCw) : Dev :=
  { d with media := { d.media with reading := d.media.reading.erase r } }

def Dev.moveReading (d : Dev) (r r' : ReadCw) : Dev :=
  { d with media := { d.media with reading := (d.media.reading.erase r) ++ [r'] } }

/-- The step after the retry table is spent, or skipped: soft decode when SOFT_EN, else reconstruction. -/
def Dev.pastRetry (d : Dev) (loc : Nat) : Ladder :=
  if d.flag (F.CHAN_CFG_SOFT_EN (dieChan (locDie loc))) then .soft else .reconstruct

/-- Relocating `n` codewords of a victim lets destage send `n` (p - v) / v below URGENT (R151): `p` the codewords of its block, `v` those
that were valid. -/
def Dev.paceGrant (d : Dev) (g die block n : Nat) : Dev :=
  match d.ftl.compost.find? (fun c => c.die == die && c.block == block && c.started) with
  | none => d
  | some c =>
    let more := n * 65536 * (d.blockCws g - c.valid) / max 1 c.valid
    { d with ftl := { d.ftl with pace := AMap.set 0 g (AMap.get 0 g d.ftl.pace + more) d.ftl.pace } }

/-- A codeword of a block that Compost relocates: buffered until its whole IU is there, then placed in a Compost
block stripe of the group with RELOC + 1 (R152). -/
def Dev.relocate (d : Dev) (g die block : Nat) (c : Cw) : Dev :=
  let c1 := { c with reloc := min 255 (c.reloc + 1) }
  let buf := d.ftl.relocBuf ++ [c1]
  let mine := buf.filter (fun x => x.nsid == c.nsid && x.iu == c.iu && x.wseq == c.wseq)
  let n : Nat := match mine.find? (fun x => x.cwidx == 0) with
    | some x => if x.kind = 1 then x.cwcount else ((d.ns? c.nsid).map Ns.iuSlots).getD 1
    | none => mine.length + 1
  if n ≤ mine.length then
    let rest := buf.filter (fun x => !(x.nsid == c.nsid && x.iu == c.iu && x.wseq == c.wseq))
    match d.place g 1 mine with
    | some e => ({ e with ftl := { e.ftl with relocBuf := rest } }).paceGrant g die block mine.length
    | none => { d with ftl := { d.ftl with relocBuf := buf } }
  else { d with ftl := { d.ftl with relocBuf := buf } }

/-- A codeword leaves the ladder: delivered as it is, or `none` for poisoned (R123, R124). A tag that carries POISON
and a stripe that is lost deliver poison although the codeword decodes. -/
def Dev.deliver (d : Dev) (r : ReadCw) (c : Option Cw) : Dev :=
  let die := locDie r.loc
  let b := d.blk die (locBlock r.loc)
  let c1 := match c with
    | some w => if w.poison || d.lostAt r.loc then none else some w
    | none => none
  let d1 := d.dropReading r
  let d2 := if c1.isNone then (d1.chanCount (dieChan die) 4 1).almanacCount (112 + 8 * 5) 1 else d1
  match r.cmd with
  | some _ => d2.deliverHost r.loc c1
  | none =>
    if d2.ftl.compost.any (fun x => x.die == die && x.block == locBlock r.loc && x.started) then
      match d2.cw? r.loc with
      | some w => d2.relocate b.group die (locBlock r.loc) (if c1.isNone then { w with poison := true } else w)
      | none => d2
    else d2

/-- A decoded codeword succeeds (R122): its tag holds (R127) and its CRC-32C matches (R120, R129): the decode is right, and a codeword of
KIND 0x0 or 0x1 was encrypted under the namespace's current epoch. -/
def Dev.crcOk (d : Dev) (c : Cw) (v : Decode) : Bool :=
  (v == .clean || v == .corrected) &&
  (1 < c.kind || ((d.ns? c.nsid).map (fun n => n.epoch == c.epoch)).getD false)

/-- A failed step whose LDPC had converged counts a CRC mismatch (R122). -/
def Dev.countMismatch (d : Dev) (ch : Nat) (v : Decode) : Dev :=
  if v = .failed ∨ v = .badTag then d else (d.chanCount ch 5 1).almanacCount 160 1

/-- The key that deciphers a codeword is in its lane (R129): that of the namespace's current epoch. `none` while it cannot be loaded. -/
def Dev.laneFor (d : Dev) (ch : Nat) (c : Cw) : Option Dev :=
  if c.kind ≤ 1 then d.laneKey ch c.nsid (((d.ns? c.nsid).map (fun n => n.epoch)).getD 0) else some d

/-- Read-retry accounting of a block (R152): more than 1 codeword in 1,000 reaching retry reports it. -/
def Dev.noteRetry (d : Dev) (die block : Nat) : Dev :=
  let b := d.blk die block
  let b1 := { b with cwRetry := b.cwRetry + 1 }
  let d1 := d.setBlk die block b1
  if b1.cwRead < 1000 * b1.cwRetry then d1.queueCompost die block 2 else d1

/-- CODEWORD_DECODE (R122 step 1): a codeword arrives, with its page type, and is hard-decoded, decrypted and checked. An erased one is
not decoded and goes to reconstruction (R125; for Compost, whose entry points to it, a DESIGN CHOICE, assumption 158). -/
def codewordDecode (loc ptype : Nat) (v : Decode) (d : Dev) : Dev :=
  match d.reading? loc .decode with
  | none => d
  | some r =>
    let die := locDie loc
    let ch := dieChan die
    let b := d.blk die (locBlock loc)
    if d.underTest (ch / 8) then d
    else match d.cw? loc with
    | none => (d.finjItem 3 ch (dieLocal die)).2.moveReading r { r with step := .reconstruct }
    | some c =>
      match d.laneFor ch c with
      | none => d
      | some d0 =>
        let d1 := (d0.finjItem 3 ch (dieLocal die)).2
        let d2 := ((d1.chanCount ch 0 1).almanacCount 112 1).setBlk die (locBlock loc) { b with cwRead := b.cwRead + 1 }
        if d2.crcOk c v then
          let d3 := if v = .corrected then (d2.chanCount ch 1 1).almanacCount 120 1 else d2
          d3.deliver r (some c)
        else
          let d3 := d2.countMismatch ch v
          match d3.retryWalk die ptype with
          | [] => d3.moveReading r { r with ptype := ptype, step := d3.pastRetry loc }
          | e :: _ =>
            (((d3.chanCount ch 2 1).almanacCount 128 1).noteRetry die (locBlock loc)).moveReading r
              { r with step := .retry, entry := e, tried := 0, ptype := ptype }

def execCodewordDecode (loc ptype : Nat) (v : Decode) := run (codewordDecode loc ptype v)

/-- The Error Recovery bound of the command a codeword serves has expired (R79, feature 05h). -/
def Dev.tlerOver (d : Dev) (r : ReadCw) (expired : Bool) : Bool :=
  expired && (match r.cmd with
    | none => false
    | some id =>
      match d.ftl.reads.find? (fun j => j.id == id) with
      | none => false
      | some j => AMap.get 0 j.nsid d.host.tler != 0)

/-- May the sequencer read a page of a die again now: it takes operations and has none in progress? -/
def Dev.rereadable (d : Dev) (die : Nat) : Bool := d.dieTakes die && (d.die die).busy.isNone && (d.die die).ended.isNone && !d.mode.pfStop

/-- The deadline of a page read in 0.1 us (R117). -/
def Dev.readDeadline (d : Dev) (die : Nat) : Nat := d.f (F.CHAN_DTO_MULT (dieChan die)) * d.f (F.CHAN_TNOM_TIME (dieChan die) 0)

/-- READ_RETRY_REREAD (R122 step 2): one reread of a page ends after `elapsed` tenths of a microsecond. The entry's parameters were written
to the LUN by Set Features for it, and the default levels are back (R126). `ok` lists the codeword slots that now decode and check; the
others go on to the next entry, or past the table. A reread that passes its deadline ends at reconstruction (R118). -/
def readRetryReread (die block page : Nat) (ok : List Nat) (expired : Bool) (elapsed : Nat) (d : Dev) : Dev :=
  let ch := dieChan die
  let walk := d.media.reading.filter (fun r =>
    r.step == .retry && locDie r.loc == die && locBlock r.loc == block && locPage r.loc == page)
  let good (r : ReadCw) : Bool :=
    ok.contains (locSlot r.loc) && (match d.cw? r.loc with
      | some c => d.crcOk c .corrected
      | none => false)
  let anyGood := walk.any good
  let won := walk.any (fun r => r.won)
  if ¬d.rereadable die ∨ walk.isEmpty then d
  else if d.readDeadline die < elapsed then
    (walk.foldl (fun (e : Dev) r => e.moveReading r { r with step := .reconstruct }) d).countTimeout die 0
  else
    let d0 := match walk.head? with
      | some r =>
        if anyGood && !won then d.setF (F.CHAN_DIESTAT_LASTRETRY ch (dieLocal die)) r.entry else d
      | none => d
    let d1 := (d0.countPageRead die block).setF (F.CHAN_DIESTAT_CONSEC ch (dieLocal die)) 0
    walk.foldl (fun e r =>
      let e1 := (e.finjItem 3 ch (dieLocal die)).2
      if e1.tlerOver r expired then e1.deliver r none
      else if good r then e1.deliver r (d.cw? r.loc)
      else
        let n := r.tried + 1
        match (if n < (d.retryWalk die r.ptype).length then d.retryNext ch r.ptype r.entry else none) with
        | some nx => e1.moveReading r { r with entry := nx, tried := n, won := won || anyGood }
        | none => e1.moveReading r { r with step := e1.pastRetry r.loc }) d1

def execReadRetryReread (die block page : Nat) (ok : List Nat) (expired : Bool) (elapsed : Nat) :=
  run (readRetryReread die block page ok expired elapsed)

/-- SOFT_DECODE (R122 step 3): the two extra reads end after `elapsed` tenths of a microsecond each at most; a block that needed soft decode is
reported (R152). The reads lie around the levels of the last entry marked SOFT; with no such entry, around the default levels (DESIGN CHOICE,
assumption 148: R126 sends a page type with no valid entry to this step). -/
def softDecode (loc : Nat) (v : Decode) (expired : Bool) (elapsed : Nat) (d : Dev) : Dev :=
  match d.reading? loc .soft with
  | none => d
  | some r =>
    let die := locDie loc
    let ch := dieChan die
    if ¬d.rereadable die then d
    else if d.tlerOver r expired then d.deliver r none
    else if d.readDeadline die < elapsed then (d.moveReading r { r with step := .reconstruct }).countTimeout die 0
    else match d.cw? loc with
      | none => d.moveReading r { r with step := .reconstruct }
      | some c =>
        let d0 := ((d.countPageRead die (locBlock loc)).countPageRead die (locBlock loc)).setF (F.CHAN_DIESTAT_CONSEC ch (dieLocal die)) 0
        let d1 := ({ d0 with media := { d0.media with softs := d0.media.softs + 1 } }).queueCompost die (locBlock loc) 2
        if d1.crcOk c v then ((d1.chanCount ch 3 1).almanacCount 136 1).deliver r (some c)
        else (d1.countMismatch ch v).moveReading r { r with step := .reconstruct }

def execSoftDecode (loc : Nat) (v : Decode) (expired : Bool) (elapsed : Nat) := run (softDecode loc v expired elapsed)

/-- A codeword that cannot be recovered is delivered poisoned, with CW_UNCORR (R123). -/
def Dev.uncorrectable (d : Dev) (r : ReadCw) : Dev :=
  let die := locDie r.loc
  ((d.raise (chanEvent (dieChan die) 2) noPlot [die, locBlock r.loc, locPage r.loc]).ewOccur 9).deliver r none

/-! ### Reconstruction (R169) -/

/-- P or Q of one stripe: from the row's journal slot while the row is open, where it is the sum over the pages programmed so far, or staged;
else from the parity member. -/
def Dev.parityOf (d : Dev) (s : BStripe) (page slot : Nat) (q : Bool) : Option Nat :=
  match d.row? s.group s.bsn page with
  | some r =>
    if r.state = .staged then ((r.parity[Bool.nat q]?).bind (fun p => p[slot]?)).map Cw.parity
    else some ((if q then qSum else pSum) (d.memberWords s page slot (s.dataMembers.filter (bit r.done))))
  | none =>
    let m := if q then s.qmem else some s.pmem
    (m.bind (fun j => (AMap.find j s.blocks).bind (fun b => d.cw? (mkLoc (d.memberDie s.group j) b page slot)))).bind
      (fun c => if c.kind = 2 then some c.parity else none)

/-- The members of a stripe that are erasures: the failed ones that are not zero positions and those that could not be read. Parity that is
still in the journal is not read from its member. -/
def Dev.erasures (d : Dev) (s : BStripe) (page : Nat) (unread : List Nat) : List Nat :=
  let inRow := (d.row? s.group s.bsn page).isSome
  (s.blocks.map Prod.fst).filter (fun k =>
    (d.memberFailed s.group k || unread.contains k) && !(inRow && (k == s.pmem || s.qmem == some k)))

/-- What data member `j` of a stripe holds, solved from the others, with `gone` the erasures (`j` among them): from P; from Q where P is gone;
from both where a second data member is. -/
def Dev.solve (d : Dev) (s : BStripe) (page slot j : Nat) (gone : List Nat) : Option Nat :=
  let known := d.memberWords s page slot (s.dataMembers.filter (fun k => !gone.contains k))
  let p := if gone.contains s.pmem then none else (d.parityOf s page slot false).map (fun x => x ^^^ pSum known)
  let q := if s.qmem.any gone.contains then none else (d.parityOf s page slot true).map (fun x => x ^^^ qSum known)
  match s.dataMembers.filter (fun k => gone.contains k && k != j), p, q with
  | [], some a, _ => some a
  | [], none, some b => some (gfUnshift j b)
  | [k], some a, some b => some (gfOver (gfShift j 1 ^^^ gfShift k 1) (b ^^^ gfShift k a))
  | _, _, _ => none

/-- The codeword that the solved number is: the one stored there, or what it spells under the namespace, IU and CWIDX of the map (R164). -/
def Dev.rebuilt (d : Dev) (loc w : Nat) : Option Cw :=
  match d.cw? loc with
  | some c => if w = d.covered c ∧ d.crcOk c .corrected then some c else none
  | none =>
    match d.iusAt [loc] with
    | (n, u, i) :: _ => d.uncover n u i w
    | [] => none

/-- RECONSTRUCTION (R122 step 4, R169): STRP reads the other members of the stripe. `unread` lists the members whose codeword failed steps 1
to 3, `late` those whose read passed its die deadline; `sound` says that no parity codeword was miscorrected. With more erasures than parity,
or a CRC-32C that fails, the stripe is lost (R170). A row that waits for its replay is waited for (R168). -/
def reconstruction (loc : Nat) (unread late : List Nat) (sound expired : Bool) (d : Dev) : Dev :=
  match d.reading? loc .reconstruct with
  | none => d
  | some r =>
    let die := locDie loc
    let b := d.blk die (locBlock loc)
    if d.tlerOver r expired then d.deliver r none
    else match d.stripe? b.group b.bsn, d.memberOf die with
      | some s, some (_, j) =>
        let dies := (s.blocks.filter (fun jb => !d.memberFailed s.group jb.1)).map (fun jb => (jb.1, d.memberDie s.group jb.1, jb.2))
        if dies.any (fun x => d.underTest (dieChan x.2.1 / 8)) ||
            (d.row? s.group s.bsn (locPage loc)).any (fun x => d.strp.replay.contains x.index) then d
        else
          let others := dies.filter (fun x => x.1 != j)
          let d1 := others.foldl (fun (e : Dev) x => e.countPageRead x.2.1 x.2.2) d
          let d2 := (others.filter (fun x => late.contains x.1)).foldl (fun (e : Dev) x => e.countTimeout x.2.1 0) d1
          let gone := d.erasures s (locPage loc) (j :: (unread ++ late))
          if geomM (d.groupGeom b.group) < gone.length ∨ d.lostAt loc then (d2.loseStripe s (locPage loc) (locSlot loc) 2).uncorrectable r
          else match ((d.solve s (locPage loc) (locSlot loc) j gone).bind (d.rebuilt loc)).filter (fun _ => sound) with
            | some c => (((d2.bump (F.STRP_CNT_COUNT 0) 0x10 0 1).almanacCount 144 1).ewOccur 8).deliver r (some c)
            | none => (d2.loseStripe s (locPage loc) (locSlot loc) 2).uncorrectable r
      | _, _ => d.uncorrectable r

def execReconstruction (loc : Nat) (unread late : List Nat) (sound expired : Bool) :=
  run (reconstruction loc unread late sound expired)

/-! ### Retraining (R130) -/

/-- Is a retraining of a target due: its die temperature has moved by more than 15 C since the last training, or 10 minutes have passed? -/
def Dev.retrainDue (d : Dev) (t : Nat) (temp : Int) : Bool :=
  let x := AMap.get NandTarget.init t d.media.targets
  decide (15 < (temp - x.temp).natAbs) || decide (x.at_ + 600000 ≤ d.now)

/-- The targets of a channel start to count afresh. -/
def Dev.clearFails (d : Dev) (ch : Nat) : Dev :=
  let up (x : Nat × NandTarget) : Nat × NandTarget := if x.1 / 16 = ch then (x.1, { x.2 with fails := 0 }) else x
  { d with media := { d.media with targets := d.media.targets.map up } }

/-- TARGET_RETRAIN (R130): a retraining of a target that is due ends, between operations. The second failure at the current rate steps the
channel down one code, or retires it below 0x1 (R131). A retraining that passes starts the count of failures again (DESIGN CHOICE,
assumption 155: R130 does not say whether the two must follow each other). -/
def targetRetrain (target : Nat) (temp : Int) (ok : Bool) (d : Dev) : Dev :=
  let ch := target / 16
  let x := AMap.get NandTarget.init target d.media.targets
  let ds := d.targetDies target
  if ¬d.chanOk ch ∨ ¬d.flag (F.CHAN_STAT_TRAINED ch) ∨ ds.isEmpty ∨ ds.any (fun y => !(d.die y).idle) ∨ d.underTest (ch / 8) ∨
      ¬d.retrainDue target temp then d
  else if ok then d.setTarget target { fails := 0, at_ := d.now, temp := temp }
  else if x.fails = 0 then d.setTarget target { x with fails := 1 }
  else
    let rate := d.f (F.CHAN_STAT_RATE ch)
    let d1 := d.clearFails ch
    if rate ≤ 1 then d1.retireChannel ch 3
    else ((d1.setF (F.CHAN_STAT_RATE ch) (rate - 1)).setF (F.CHAN_STAT_XRATE ch) 0).raise (chanEvent ch 3) noPlot []

def execTargetRetrain (target : Nat) (temp : Int) (ok : Bool) := run (targetRetrain target temp ok)

end Sys2Proof.Machine
end

