-- ==== Sys2Proof/Machine/Ftl.lean ====
section
/-! DEFINITION. Flash translation and die-group parity (chapters 6 and 7): the meanings of the rows from the map
journal to the patrol. -/

namespace Sys2Proof.Machine

/-! ### Journal and checkpoints -/

/-- JOURNAL_BATCH_CLOSE (R142): 64 us have passed, or the batch is full. -/
def journalBatchClose (d : Dev) : Dev := if d.f F.TOP_MODE_MODE = 0 then d else d.closeBatch

def execJournalBatchClose := run journalBatchClose

/-- A committed batch settles the destages whose MAP records it holds (R140). -/
def Commit.settle (c : Commit) (recs : List MapRec) : Commit :=
  let hit (x : Nat × Nat) : Bool := recs.any (fun r => match r with
    | .mapTo n u e _ => n == c.nsid && u == x.1 && e == x.2
    | _ => false)
  { c with staged := c.staged.filter (fun x => !hit x), moved := c.moved ++ c.staged.filter hit }

/-! ### Valid data, erases and rebuild progress -/

/-- The IUs whose map entry points into a block: (nsid, iu, location). -/
def Dev.validIn (d : Dev) (die block : Nat) : List (Nat × Nat × Nat) :=
  d.ftl.map.filterMap (fun ke =>
    if entryType ke.2 = 1 ∧ locDie (ke.2 % 2 ^ 38) = die ∧ locBlock (ke.2 % 2 ^ 38) = block then
      some (ke.1 / 2 ^ 40, ke.1 % 2 ^ 40, ke.2 % 2 ^ 38)
    else none)

/-- Does a block hold a segment copy that the directory points to or that is being programmed (R146 step 4)? -/
def Dev.segIn (d : Dev) (die block : Nat) : Bool :=
  (d.md.dir ++ d.ftl.copies).any (fun s => s.2.loc.any (fun l => locDie l == die && locBlock l == block))

/-- Does a write-cache IU depend on a block: is the copy there that its MAP record gives? -/
def Dev.stagedIn (d : Dev) (die block : Nat) : Bool :=
  d.mram.commits.any (fun c => (c.staged ++ c.moved).any (fun x => !c.dead.contains x.1 && entryType x.2 == 1 &&
    locDie (x.2 % 2 ^ 38) == die && locBlock (x.2 % 2 ^ 38) == block))

/-- Does any block of this block stripe hold valid data? -/
def Dev.stripeValid (d : Dev) (s : BStripe) : Bool :=
  s.blocks.any (fun jb =>
    let die := d.memberDie s.group jb.1
    !(d.validIn die jb.2).isEmpty || d.segIn die jb.2 || d.stagedIn die jb.2)

/-- May ERASE_START of this block be committed (R146 step 4, R165)? Its block stripe holds no valid data, every MAP
record is committed, no write-cache IU depends on the stripe, and every row that holds relocated copies of the group is
protected. -/
def Dev.eraseReady (d : Dev) (die block : Nat) : Bool :=
  let b := d.blk die block
  (match d.stripe? b.group b.bsn with
    | some s => !d.stripeValid s && !s.isOpen
    | none => (d.validIn die block).isEmpty && !d.segIn die block && !d.stagedIn die block) &&
  d.ftl.openRecs.all (fun r => match r with
    | .mapTo _ _ _ _ => false
    | _ => true) &&
  d.ftl.closed.isEmpty &&
  d.strp.slots.all (fun x => x.state == .free || x.group != b.group) &&
  d.ftl.relocBuf.isEmpty

/-- Compost victims that are empty are erased, or marked bad where that is what they were drained for (R146, R147,
R180). A block on a die that is lost is only dropped (R174, R26). -/
def Dev.eraseSweep (d : Dev) : Dev :=
  d.ftl.compost.foldl (fun (e : Dev) c =>
    let b := e.blk c.die c.block
    if c.started ∧ b.state = .closed ∧ e.eraseReady c.die c.block = true then
      let drop (x : Dev) : Dev :=
        { x with ftl := { x.ftl with compost := x.ftl.compost.filter (fun y => !(y.die == c.die && y.block == c.block)) } }
      if e.dieLost c.die then drop e
      else if b.doom ≠ 0 then drop (e.blockBad c.die c.block b.doom)
      else
        ((drop (e.setBlk c.die c.block { b with state := .erasing })).jrec (.eraseStart c.die c.block)).enqueue
          { cls := .erase, die := c.die, block := c.block, page := 0, slots := [], cws := [], cmd := none,
            group := b.group, bsn := b.bsn, parity := false, whole := true, suspends := 0 }
    else e) d

/-- Start queued rebuilds while fewer than MAXGRP run: the groups with the most failed members first, then the
earliest (R175). -/
def Dev.rebuildNext (d : Dev) : Dev :=
  let act := (d.strp.rebuilds.filter (fun r => r.active)).length
  let waiting := d.strp.rebuilds.filter (fun r => !r.active)
  let atLimit := waiting.filter (fun r => r.members.length == geomM (d.groupGeom r.group))
  match (atLimit ++ waiting).head? with
  | none => d.rebuildShow
  | some w =>
    if act < d.f F.STRP_RBCFG_MAXGRP then
      let up (r : Rebuild) : Rebuild := if r.group == w.group then { r with active := true } else r
      ((({ d with strp := { d.strp with rebuilds := d.strp.rebuilds.map up } }).groupShow w.group).rebuildShow)
    else d.rebuildShow

/-- End the rebuilds whose groups hold no valid data in a block stripe with a failed member (R174). -/
def Dev.rebuildSweep (d : Dev) : Dev :=
  d.strp.rebuilds.foldl (fun (e : Dev) r =>
    let busy := e.strp.stripes.any (fun s => s.group == r.group && decide (0 < e.erased s) && e.stripeValid s)
    if r.active ∧ r.members.all (fun m => m.2) ∧ ¬busy then
      let e1 := { e with strp := { e.strp with rebuilds := e.strp.rebuilds.filter (fun x => x.group != r.group) } }
      let e2 := ((e1.groupShow r.group).raise 0x01A noPlot [r.group, r.lost]).rebuildNext
      if e2.strp.rebuilds.isEmpty ∧ e2.nv.retiredQ = 0 then e2.setCond F.TOP_MODE_CDEGR false else e2
    else e) d

/-- JOURNAL_BATCH_COMMIT (R142, R140): MRAMC commits the oldest closed batch. -/
def journalBatchCommit (d : Dev) : Dev :=
  match d.ftl.closed with
  | [] => d
  | b :: rest =>
    let d1 := { d with
      ftl := { d.ftl with closed := rest, ckptVol := d.ftl.ckptVol + b.bytes }
      mram := { d.mram with batches := d.mram.batches ++ [b], jhead := b.bseq,
                            jtail := if d.mram.batches.isEmpty then b.bseq else d.mram.jtail,
                            commits := d.mram.commits.map (fun (c : Commit) => c.settle b.recs) } }
    let d2 := ((d1.setF F.MRAMC_JHEAD_BSEQ b.bseq).count 0x51 0 noPlot 1).count 0x52 0 noPlot b.bytes
    (d2.freeCommits.journalShow).eraseSweep

def execJournalBatchCommit := run journalBatchCommit

/-- Dirty map in bytes: segments of 640 KiB (R134). -/
def Dev.dirtyBytes (d : Dev) : Nat := d.ftl.dirty.length * 655360

/-- The entries of a segment as its copy holds them: an IU that has been destaged and is still in the cache has its flash location, so
that the copy stands after its commit record is freed. The entries of the block table's segments, NSID 0, hold the erase count in 16 bits,
the read count in thousands in 12 and the retention age in days in 12 (DESIGN CHOICE, assumption 153: R144 gives no format). -/
def Dev.segEntries (d : Dev) (seg : Nat) : List (Nat × Nat) :=
  let nsid := seg / 2 ^ 40
  if nsid = 0 then
    (d.md.blocks.filter (fun b => segKey 0 b.1 == seg)).map (fun b =>
      (b.1, b.2.erases % 65536 + 2 ^ 16 * (b.2.reads / 1000 % 4096) + 2 ^ 28 * (b.2.age / 86400 % 4096)))
  else
    let out (u e : Nat) : Nat :=
      ((d.mram.commits.filter (fun c => c.nsid == nsid && !c.dead.contains u)).findSome? (fun c =>
        ((c.moved ++ c.staged).find? (fun x => x.1 == u)).map Prod.snd)).getD e
    d.ftl.map.filterMap (fun ke =>
      if segKey (ke.1 / 2 ^ 40) (ke.1 % 2 ^ 40) = seg then
        some (ke.1 % 2 ^ 40, if entryType ke.2 = 2 then out (ke.1 % 2 ^ 40) ke.2 else ke.2)
      else none)

/-- A segment's entries packed at 5 bytes each (R134), as a number. -/
def segPacked (es : List (Nat × Nat)) : Nat := es.foldl (fun n e => n ||| e.2 * 2 ^ (40 * (e.1 % 131072))) 0

/-- The 160 codewords of a segment's copy (R144). -/
def SegCopy.cws (c : SegCopy) (seg : Nat) : List Cw :=
  let n := segPacked c.entries
  (List.range 160).map (fun i =>
    { data := n / 2 ^ (32768 * i) % 2 ^ 32768, hmeta := 0, umask := 0, epoch := 0, iu := seg % 2 ^ 40, nsid := seg / 2 ^ 40, wseq := c.bseq,
      reloc := 0, gen := 0, cwidx := i, kind := 3, poison := false, pf := 0 })

/-- The segments, other than `seg`, whose newest copy a group holds. -/
def Dev.segsHeld (d : Dev) (g seg : Nat) : Nat :=
  let newest := d.ftl.copies ++ d.md.dir.filter (fun s => (AMap.find s.1 d.ftl.copies).isNone)
  (newest.filter (fun s => s.1 != seg && s.2.loc.any (fun l => (d.memberOf (locDie l)).any (fun m => m.1 == g)))).length

/-- The groups that may take a copy of a segment: those that hold fewer than their share (R136). -/
def Dev.segGroups (d : Dev) (seg : Nat) : List Nat := d.groups.filter (fun g => decide ((d.segsHeld g seg + 1) * 655360 ≤ d.share g))

/-- Place the copy of a segment in a checkpoint block stripe of a group; the segment is no longer dirty. -/
def Dev.placeSeg (d : Dev) (g seg : Nat) : Option Dev :=
  let e? := if (d.room? g 2 160).isSome then some d else d.openStripe g 2
  e?.bind (fun e => (e.room? g 2 160).bind (fun x =>
    let c : SegCopy := { bseq := e.mram.jhead, entries := e.segEntries seg, loc := some (e.roomLoc x.1 x.2) }
    (e.place g 2 (c.cws seg)).map (fun f =>
      { f with ftl := { f.ftl with dirty := f.ftl.dirty.filter (fun k => k != seg), pass := f.ftl.pass.filter (fun k => k != seg),
                                   copies := AMap.put seg c f.ftl.copies } })))

/-- The segments of the running pass are placed, in its order, while a group has room; the last pages are padded. -/
def Dev.passStep (d : Dev) : Dev :=
  let d1 := d.ftl.pass.foldl (fun (e : Dev) seg => ((e.segGroups seg).findSome? (fun g => e.placeSeg g seg)).getD e) d
  if d.ftl.pass.isEmpty then d
  else d1.groups.foldl (fun (e : Dev) g => (e.openStripes g 2).foldl (fun (x : Dev) s => x.padStripe s) e) d1

/-- A checkpoint pass over every segment that is dirty now, oldest change first. -/
def Dev.passStart (d : Dev) : Dev :=
  ({ d with ftl := { d.ftl with pass := d.ftl.dirty, ckptAt := d.now, ckptVol := 0 } }).passStep

/-- CHECKPOINT_PASS_START (R144): the period, the journal volume, the half-full ring or the dirty limit starts a pass. -/
def checkpointPassStart (d : Dev) : Dev :=
  let due := decide (d.ftl.ckptAt + 1000 * d.f F.MAPW_CKPT_PERIOD ≤ d.now) ||
    decide (d.f F.MAPW_CKPT_VOLUME * 268435456 ≤ d.ftl.ckptVol) || decide (50 ≤ d.jfill) ||
    decide (d.f F.MAPW_CKPT_DIRTYMAX * 2 ^ 30 < d.dirtyBytes)
  if d.background && due && d.ftl.pass.isEmpty && d.ftl.copies.isEmpty then d.passStart else d

def execCheckpointPassStart := run checkpointPassStart

/-- Does a batch hold a record for a segment not written since that batch (R144)? -/
def Dev.batchNeeded (d : Dev) (b : Batch) : Bool :=
  b.recs.any (fun r => decide ((AMap.get ⟨0, [], none⟩ r.seg d.md.dir).bseq < b.bseq))

/-- The journal tail moves to the oldest batch still needed; ring space behind it is reused. -/
def Dev.trimJournal (d : Dev) : Dev :=
  let keep := d.mram.batches.dropWhile (fun b => !d.batchNeeded b)
  let tail := match keep with
    | b :: _ => b.bseq
    | [] => d.mram.jhead + 1
  ({ d with mram := { d.mram with batches := keep, jtail := tail } }).journalShow

/-- Is a segment's copy programmed and covered by parity? -/
def Dev.segWritten (d : Dev) (seg : Nat) (c : SegCopy) : Bool :=
  c.loc.any (fun l => (List.range 160).all (fun i =>
    (d.cw? (d.cwAt l i)).any (fun w => w.kind == 3 && w.nsid == seg / 2 ^ 40 && w.iu == seg % 2 ^ 40 && w.cwidx == i && w.wseq == c.bseq) &&
    !d.rowPending (d.cwAt l i)))

/-- SEGMENT_COPY_DONE (R144): a copy of the running pass is programmed and covered by parity, and the directory points to it. Segments of
the pass that had no room are placed now. -/
def segmentCopyDone (seg : Nat) (d : Dev) : Dev :=
  match AMap.find seg d.ftl.copies with
  | none => if d.ftl.pass.contains seg then d.passStep else d
  | some c =>
    if d.segWritten seg c then
      let d1 := { d with
        md := { d.md with dir := AMap.put seg c d.md.dir }
        ftl := { d.ftl with copies := AMap.del seg d.ftl.copies } }
      (((d1.count 0x5B 0 noPlot 1).trimJournal).eraseSweep).passStep
    else d

def execSegmentCopyDone (seg : Nat) := run (segmentCopyDone seg)

/-! ### Destage and programs -/

/-- The live commit record that holds an IU in the cache: the newest that covers it and is neither dead there nor
prepared. -/
def Dev.liveCommit (d : Dev) (nsid iu : Nat) : Option Commit :=
  (d.mram.commits.filter (fun c => c.nsid == nsid && (c.kind == 1 || c.kind == 6) && c.ius.contains iu &&
    !c.dead.contains iu)).getLast?

/-- The codewords destage writes for one IU of a commit record (R120, R127, R253): KIND 0x0 with the slots' data, or
for an IU that has been compressed the CWCOUNT codewords of KIND 0x1. -/
def Dev.iuCodewords (d : Dev) (n : Ns) (c : Commit) (iu : Nat) : List Cw :=
  let slots := (c.iuSlotsOf n.iuSlots iu).map (fun s => AMap.get ⟨0, 0, 0, false⟩ s d.mram.slots)
  let k := AMap.get [] (iuKey n.nsid iu) d.ftl.packed
  let tag (i : Nat) (s : Slot) : Cw :=
    { data := s.data, hmeta := s.hmeta, umask := s.umask, epoch := n.epoch, iu := iu, nsid := n.nsid, wseq := c.wseq,
      reloc := 0, gen := c.gen, cwidx := i, kind := 0, poison := s.poison, pf := 0 }
  if k.isEmpty then slots.zipIdx.map (fun p => tag p.2 p.1)
  else k.zipIdx.map (fun p => { tag p.2 ⟨p.1, 0, 0, false⟩ with kind := 1 })

def Dev.setCommit (d : Dev) (c : Commit) : Dev :=
  { d with mram := { d.mram with commits := d.mram.commits.map (fun x => if x.wseq == c.wseq then c else x) } }

/-- Has destage or the journal taken charge of an IU of a record? -/
def Commit.taken (c : Commit) (iu : Nat) : Bool := c.sent.contains iu || (c.staged ++ c.moved).any (fun x => x.1 == iu)

/-- Below URGENT destage takes from what Compost has relocated of the current victim (R151): `n` codewords; with no victim there is
nothing to wait for. `none` while Compost has to go on first. -/
def Dev.paced (d : Dev) (g n : Nat) : Option Dev :=
  let have_ := AMap.get 0 g d.ftl.pace
  let victim := d.ftl.compost.any (fun c => c.started && (d.blk c.die c.block).group == g)
  if ¬d.urgent g ∨ ¬victim then some d
  else if have_ < 65536 * n then none
  else some { d with ftl := { d.ftl with pace := AMap.set 0 g (have_ - 65536 * n) d.ftl.pace } }

/-- DESTAGE (R146, R165, R253): firmware sends one IU of the write cache to a die group's host block stripe; with
`pad` the pages gathered so far are padded and sent. Nothing moves where the group has no room or no journal slot
(R167), or while Compost paces destage (R151). -/
def destage (nsid iu g : Nat) (pad : Bool) (d : Dev) : Dev :=
  let d1 := match d.ns? nsid, d.liveCommit nsid iu with
    | some n, some c =>
      let cws := d.iuCodewords n c iu
      if c.taken iu || !d.groups.contains g || (n.comp != 0 && (AMap.find (iuKey nsid iu) d.ftl.packed).isNone) then d
      else match (d.paced g cws.length).bind (fun e => e.place g 0 cws) with
        | some e => e.setCommit { c with sent := c.sent ++ [iu] }
        | none => d
    | _, _ => d
  if pad then
    match d1.openStripe? g 0 with
    | some s => d1.padStripe s
    | none => d1
  else d1

def execDestage (nsid iu g : Nat) (pad : Bool) := run (destage nsid iu g pad)

/-- Write a page's codewords to flash. -/
def Dev.writePage (d : Dev) (o : DieOp) : Dev :=
  { d with flash := { d.flash with cws := o.cws.zipIdx.foldl (fun m p =>
    AMap.put (mkLoc o.die o.block o.page p.2) p.1 m) d.flash.cws } }

/-- The first codeword in this block of an IU's copy with this write sequence and relocation count, when every one of
its codewords is there. -/
def Dev.copyIn (d : Dev) (die block : Nat) (c : Cw) : Option Nat :=
  let mine := d.flash.cws.filter (fun x => locDie x.1 == die && locBlock x.1 == block && x.2.nsid == c.nsid &&
    x.2.iu == c.iu && x.2.wseq == c.wseq && x.2.reloc == c.reloc && x.2.kind == c.kind)
  match mine.find? (fun x => x.2.cwidx == 0) with
  | none => none
  | some x => if d.iuCws c.nsid x.1 ≤ mine.length then some x.1 else none

/-- A destaged IU is whole on flash: its MAP record is journalled while its entry still holds the cache location (R135); else the update is
dropped, and the copy holds no valid data. The entry in DRAM moves when the commit record is freed (R140). -/
def Dev.destaged (d : Dev) (o : DieOp) (c : Cw) : Dev :=
  match d.copyIn o.die o.block c, d.mram.commits.find? (fun x => x.wseq == c.wseq && x.nsid == c.nsid &&
      x.ius.contains c.iu) with
  | some loc, some cm =>
    if cm.sent.contains c.iu then
      let d1 := d.setCommit { cm with sent := cm.sent.filter (fun i => i != c.iu) }
      let per := ((d.ns? c.nsid).map Ns.iuSlots).getD 1
      if d.entry? c.nsid c.iu = cacheEntry (cm.firstSlot + (c.iu - cm.firstIu) * per) then
        (d1.stageAt c.wseq c.iu (flashEntry loc)).jrec (.mapTo c.nsid c.iu (flashEntry loc) 0)
      else d1.count 0x5A 0 noPlot 1
    else d
  | _, _ => d

/-- Close a block stripe that is full, or closing with no row left open (R162, R165): BLOCK_CLOSE for its blocks. -/
def Dev.closeStripe (d : Dev) (g bsn : Nat) : Dev :=
  match d.stripe? g bsn with
  | none => d
  | some s =>
    let full := s.dataMembers.all (fun j => decide ((d.prof (d.memberDie g j)).pages ≤ AMap.get 0 j s.next))
    let rows := d.strp.slots.any (fun x => x.state != .free && x.group == g && x.bsn == bsn)
    if s.isOpen ∧ (full ∨ s.closing) ∧ ¬rows then
      s.blocks.foldl (fun e (jb : Nat × Nat) =>
        let die := d.memberDie g jb.1
        let b := e.blk die jb.2
        (e.setBlk die jb.2 { b with state := .closed, closedAt := e.nv.bootCount * 2 ^ 40 + e.now }).jrec (.blockClose die jb.2))
        (d.setStripe { s with isOpen := false })
    else d

/-- Rows that waited for a journal slot open (R167). -/
def Dev.moreRows (d : Dev) : Dev :=
  (d.strp.stripes.filter (fun s => s.isOpen)).foldl (fun (e : Dev) s =>
    s.fill.foldl (fun (x : Dev) f => Dev.pageOut (f.2.length + 1) s.group s.bsn f.1 x) e) d

/-- A parity page is on flash: when every parity page of the row is, the row is protected and its slot is freed (R165
step 4). -/
def Dev.parityWritten (d : Dev) (o : DieOp) (j : Nat) : Dev :=
  match d.stripe? o.group o.bsn, d.row? o.group o.bsn o.page with
  | some s, some r =>
    let r1 := { r with parityDone := setBit r.parityDone j true }
    if (s.pmem :: s.qmem.toList).all (fun k => bit r1.parityDone k) then
      (((((d.setRow { r1 with state := .free, parity := [] }).jshow).freeCommits).closeStripe o.group o.bsn).moreRows).eraseSweep
    else d.setRow r1
  | _, _ => d

/-- NAND_PROGRAM_DONE (R146, R165): the program that has ended on a die reports success. -/
def nandProgramDone (die : Nat) (d : Dev) : Dev :=
  let x := d.die die
  match x.ended with
  | some o =>
    if o.cls = .program then
      let d1 := (d.setDie die { x with ended := none }).writePage o
      match d1.memberOf die with
      | none => d1
      | some (g, j) =>
        if o.parity then (d1.almanacCount 272 (4096 * o.cws.length)).parityWritten o j
        else
          let purpose := ((d1.stripe? g o.bsn).map (fun s => s.purpose)).getD 0
          let d2 := d1.almanacCount (if purpose = 1 then 256 else if purpose = 2 then 264 else 248) (4096 * o.cws.length)
          let d3 := match d2.stripe? g o.bsn, d2.row? g o.bsn o.page with
            | some s, some r =>
              let r1 := { r with done := setBit r.done j true }
              (d2.setRow r1).stageRow s r1
            | _, _ => d2
          let lasts := o.cws.filter (fun c => c.kind ≤ 1)
          let d4 := if purpose = 0 then lasts.foldl (fun (e : Dev) c => e.destaged o c) d3 else d3
          d4.closeStripe g o.bsn
    else d
  | none => d

def execNandProgramDone (die : Nat) := run (nandProgramDone die)

/-- PROG_FAIL (R147, R165): the program reports failure: its page is a zero position, or the rows it protects are written again; the block
closes and is drained and marked bad; the data is programmed again from the cache or the source. A parity block is drained with its
block stripe. -/
def progFail (die : Nat) (d : Dev) : Dev :=
  let x := d.die die
  match x.ended with
  | some o =>
    if o.cls = .program then
      let b := d.blk die o.block
      let d1 := ((((d.setDie die { x with ended := none }).raise 0x015 noPlot [die, o.block, o.page]).almanacCount 176
        1).setBlk die o.block { b with doom := 1 }).queueCompost die o.block 2
      let d2 := match d1.stripe? o.group o.bsn with
        | some s => if o.parity then d1.reportStripe s else d1
        | none => d1
      (d2.programLost o).closeStripe o.group o.bsn
    else d
  | none => d

def execProgFail (die : Nat) := run (progFail die)

/-- A block has been erased: it is free, its erase count is raised by one, ERASE_DONE is journalled. -/
def Dev.blockErased (d : Dev) (die block : Nat) : Dev :=
  let b := d.blk die block
  let d1 := d.setBlk die block { Blk.init with erases := b.erases + 1 }
  let d2 := { d1 with flash := { d1.flash with cws := d1.flash.cws.filter (fun c =>
    !(locDie c.1 == die && locBlock c.1 == block)) } }
  let st (s : BStripe) : BStripe :=
    if s.group == b.group && s.bsn == b.bsn then
      { s with blocks := s.blocks.filter (fun jb => !(d.memberDie s.group jb.1 == die && jb.2 == block)) }
    else s
  let left := (d2.strp.stripes.map st).filter (fun s => !s.blocks.isEmpty)
  ((({ d2 with strp := { d2.strp with stripes := left } }).jrec (.eraseDone die block (b.erases + 1))).almanacCount 280 1).freeCheck

/-- ERASE_DONE (R146 step 5): the erase succeeds; ERASE_DONE is journalled and the block is free. -/
def eraseDone (die : Nat) (d : Dev) : Dev :=
  let x := d.die die
  match x.ended with
  | some o => if o.cls = .erase then (d.setDie die { x with ended := none }).blockErased die o.block else d
  | none => d

def execEraseDone (die : Nat) := run (eraseDone die)

/-- ERASE_FAIL (R147): the block is marked bad. -/
def eraseFail (die : Nat) (d : Dev) : Dev :=
  let x := d.die die
  match x.ended with
  | some o =>
    if o.cls = .erase then
      (((d.setDie die { x with ended := none }).raise 0x016 noPlot [die, o.block]).almanacCount 184 1).blockBad die
        o.block 2
    else d
  | none => d

def execEraseFail (die : Nat) := run (eraseFail die)

/-! ### Compost (R151 to R153) -/

/-- The closed blocks of a group that no relocation has started on: (die, block). -/
def Dev.closedBlocks (d : Dev) (g : Nat) : List (Nat × Nat) :=
  (d.md.blocks.filter (fun b => b.2.state == .closed && b.2.group == g && b.2.purpose != 3 &&
    !d.ftl.compost.any (fun c => c.started && c.die == b.1 / 8192 && c.block == b.1 % 8192))).map
      (fun b => (b.1 / 8192, b.1 % 8192))

/-- Valid codewords of a block. -/
def Dev.validCws (d : Dev) (b : Nat × Nat) : Nat :=
  ((d.validIn b.1 b.2).map (fun x => d.iuCws x.1 x.2.2)).sum

/-- The victim for free space: among the blocks within 1/16 of the fewest valid codewords, the one closed longest ago
(R152). -/
def Dev.spaceVictim (d : Dev) (g : Nat) : Option (Nat × Nat) :=
  let bs := d.closedBlocks g
  let least := ((bs.map d.validCws).min?).getD 0
  let near := bs.filter (fun b => decide (16 * d.validCws b ≤ 17 * least))
  let oldest := ((near.map (fun b => (d.blk b.1 b.2).closedAt)).min?).getD 0
  near.find? (fun b => (d.blk b.1 b.2).closedAt == oldest)

/-- Start relocating a block: its valid codewords are read as internal reads; those on a die that is lost go straight to
reconstruction (R152, R174). -/
def Dev.startReloc (d : Dev) (die block reason : Nat) : Dev :=
  let others := d.ftl.compost.filter (fun c => !(c.die == die && c.block == block))
  let locs := (d.validIn die block).flatMap (fun x => d.iuLocs x.1 x.2.2)
  let mine : Reloc := { die := die, block := block, reason := reason, started := true, valid := locs.length }
  let d0 := { d.setBlk die block { d.blk die block with queued := reason } with ftl := { d.ftl with compost := others ++ [mine] } }
  let off := if reason = 1 ∨ reason = 5 then 288 else if reason = 2 then 296 else if reason = 3 then 304 else 312
  let d1 := d0.almanacCount off locs.length
  ((locs.foldl (fun (e : Dev) l =>
    if e.dieLost die then
      let r : ReadCw := { loc := l, cmd := none, step := .reconstruct, entry := 0, tried := 0, ptype := 0, won := false }
      { e with media := { e.media with reading := e.media.reading ++ [r] } }
    else e.enqueue (readOp .internalRead l none)) d1).segMove die block).eraseSweep

/-- COMPOST_VICTIM (R151, R152): the group takes its next victim, by the order of reasons. Under the read-only condition no victim is taken
(R33). -/
def compostVictim (g : Nat) (d : Dev) : Dev :=
  let d1 := d.freeCheck
  let listed (r : Nat) : Option (Nat × Nat) :=
    (d.ftl.compost.find? (fun c => !c.started && c.reason == r && (d.blk c.die c.block).group == g &&
      (d.blk c.die c.block).state == .closed)).map (fun c => (c.die, c.block))
  let low := decide (d.freePermille g < d.f F.MAPW_COMPOST_START)
  let space (r : Nat) (go : Bool) : Option (Nat × Nat) := if go then (listed r).orElse (fun _ => d.spaceVictim g) else none
  if ¬d.background ∨ d.flag F.TOP_MODE_CRO then d1
  else
    let tries : List (Nat × Option (Nat × Nat)) :=
      [(1, space 1 (d.urgent g)), (2, listed 2), (3, listed 3), (4, listed 4), (1, listed 1), (5, listed 5), (5, space 5 low)]
    match tries.findSome? (fun t => t.2.map (fun b => (t.1, b))) with
    | some (r, b) => d1.startReloc b.1 b.2 r
    | none => d1

def execCompostVictim (g : Nat) := run (compostVictim g)

/-- RELOCATION_COPY_DONE (R135, R146 step 3): a relocated copy of an IU is on flash. Its map update is made only while
the entry still holds the source location. -/
def relocationCopyDone (nsid iu : Nat) (d : Dev) : Dev :=
  let e := d.entry? nsid iu
  let src := e % 2 ^ 38
  let copies := d.flash.cws.filter (fun x => x.2.nsid == nsid && x.2.iu == iu && x.2.cwidx == 0 && x.2.kind ≤ 1)
  let r := if entryType e = 1 then
      match d.cw? src with
      | none => d
      | some old =>
        match (copies.filter (fun x => x.2.wseq == old.wseq && x.1 != src && (decide (old.reloc < x.2.reloc) ||
            (old.reloc == 255 && x.2.reloc == 255 && !d.ftl.relocBuf.any (fun w => w.nsid == nsid && w.iu == iu))))).getLast? with
        | none => d
        | some x =>
          match d.copyIn (locDie x.1) (locBlock x.1) x.2 with
          | some loc => (d.mapSet nsid iu (flashEntry loc)).jrec (.mapTo nsid iu (flashEntry loc) x.2.reloc)
          | none => d
    else if copies.isEmpty then d
    else d.count 0x5A 0 noPlot 1
  r.eraseSweep.rebuildSweep

def execRelocationCopyDone (nsid iu : Nat) := run (relocationCopyDone nsid iu)

/-- READ_DISTURB_LIMIT (R152): the reads of a block since its erase reach READMAX x 1,000. -/
def readDisturbLimit (die block : Nat) (d : Dev) : Dev :=
  if d.f F.MAPW_RELOC_READMAX * 1000 ≤ (d.blk die block).reads then d.queueCompost die block 3 else d

def execReadDisturbLimit (die block : Nat) := run (readDisturbLimit die block)

/-- RETENTION_LIMIT (R153): the retention age of a block, in seconds at 40 C, reaches RETAIN days. -/
def retentionLimit (die block : Nat) (d : Dev) : Dev :=
  if d.f F.MAPW_RELOC_RETAIN * 86400 ≤ (d.blk die block).age then (d.queueCompost die block 4).retainCheck else d.retainCheck

def execRetentionLimit (die block : Nat) := run (retentionLimit die block)

/-! ### Stripe replay, rebuild, Rake (R168, R174 to R180) -/

/-- Replay of one row (R168): a torn one is relocated; else the parity pages that are erased are programmed, from the slot or, for a row still
open, from its readable data pages; with every one of them on flash the row is protected. -/
def Dev.replayRow (d : Dev) (torn : Bool) (r : JSlot) : Dev :=
  match d.stripe? r.group r.bsn with
  | none => d.setRow { r with state := .free, parity := [] }
  | some s =>
    if torn then
      let hit (l : Nat) : Bool := s.blocks.any (fun jb => locDie l == d.memberDie s.group jb.1 && locBlock l == jb.2 && locPage l == r.page)
      (((d.unstage hit).again (((d.flash.cws.filter (fun x => hit x.1)).map Prod.snd).filter (fun c => c.kind == 3))).reportStripe s).setRow
        { r with state := .free, parity := [] }
    else
      let pages := if r.state = .staged then r.parity else d.parityPages s r.page r.done
      let there (j : Nat) : Bool := (AMap.find j s.blocks).all (fun b => (d.cw? (mkLoc (d.memberDie s.group j) b r.page 0)).isSome)
      let need := ((s.pmem :: s.qmem.toList).zip pages).filter (fun x => !there x.1)
      if need.isEmpty then d.setRow { r with state := .free, parity := [] }
      else
        let has := (s.pmem :: s.qmem.toList).filter there
        let d1 := d.setRow { r with state := .staged, parity := pages, parityDone := has.foldl (fun m j => setBit m j true) 0 }
        need.foldl (fun (e : Dev) x =>
          match AMap.find x.1 s.blocks with
          | none => e
          | some b => e.enqueue { cls := .program, die := d.memberDie s.group x.1, block := b, page := r.page, slots := [], cws := x.2, cmd := none,
                                  group := s.group, bsn := s.bsn, parity := true, whole := true, suspends := 0 }) d1

/-- STRIPE_REPLAY (R168): after the tag scan STRP replays every slot that was not FREE at the stop. `torn` lists the slots whose
parity page is partly programmed or does not match. The block stripes that were open then close. -/
def stripeReplay (torn : List Nat) (d : Dev) : Dev :=
  let busy := d.strp.slots.filter (fun s => s.state != .free && d.strp.replay.contains s.index)
  if ¬d.flag F.MAPW_STAT_ADMIT then d
  else
    let d1 := busy.foldl (fun (e : Dev) s => e.replayRow (torn.contains s.index) s) { d with strp := { d.strp with replay := [] } }
    let d2 := (d1.strp.stripes.filter (fun s => s.closing)).foldl (fun (e : Dev) s => e.closeStripe s.group s.bsn) d1
    let d3 := (d2.jshow).freeCommits
    if busy.isEmpty then d3 else (d3.bump (F.STRP_CNT_COUNT 1) 0x11 0 busy.length).raise 0x01C noPlot [busy.length]

def execStripeReplay (torn : List Nat) := run (stripeReplay torn)

/-- MAP_WALK_DONE (R174): the walk for a group's failed members has listed their IUs; relocation starts. -/
def mapWalkDone (g : Nat) (d : Dev) : Dev :=
  let up (r : Rebuild) : Rebuild :=
    if r.group == g then
      { r with members := r.members.map (fun m => (m.1, true)),
               left := (d.strp.stripes.filter (fun s => s.group == g && decide (0 < d.erased s) && d.stripeValid s)).map
                 (fun s => s.bsn) }
    else r
  ({ d with strp := { d.strp with rebuilds := d.strp.rebuilds.map up } }).rebuildSweep

def execMapWalkDone (g : Nat) := run (mapWalkDone g)

/-- May rebuild and Rake run (R175, R179): an operating mode. -/
def Dev.patrolMode (d : Dev) : Bool :=
  let m := d.f F.TOP_MODE_MODE
  decide (6 ≤ m) && decide (m ≤ 9)

/-- REBUILD_STRIPE (R174, R176): rebuild visits one block stripe: its blocks' valid codewords are read, those of
failed members by reconstruction, and relocated. `lost` lists the (page, slot) stripes whose reconstruction fails. -/
def rebuildStripe (g bsn : Nat) (lost : List (Nat × Nat)) (d : Dev) : Dev :=
  match d.strp.rebuilds.find? (fun r => r.group == g), d.stripe? g bsn with
  | some r, some s =>
    let walked := (s.blocks.map Prod.fst).all (fun j => r.members.all (fun m => m.1 != j || m.2))
    let room := !d.flag F.TOP_MODE_CRO || (d.openStripe? g 1).isSome
    let held := (s.blocks.map (fun jb => d.memberDie g jb.1)).any (fun x => d.underTest (dieChan x / 8))
    if r.active && !d.mode.pfStop && !held && r.left.contains bsn && !d.flag F.STRP_RBCFG_PAUSE && d.patrolMode &&
        decide (d.f F.PWR_PSTATE_PS ≤ 2) && walked && room then
      let d1 := lost.foldl (fun (e : Dev) ps => e.loseStripe s ps.1 ps.2 1) d
      let up (x : Rebuild) : Rebuild :=
        if x.group == g then { x with left := x.left.filter (fun b => b != bsn), lost := x.lost + lost.length } else x
      let d2 := { d1 with strp := { d1.strp with rebuilds := d1.strp.rebuilds.map up } }
      let d3 := s.blocks.foldl (fun (e : Dev) jb => e.startReloc (d.memberDie g jb.1) jb.2 2) d2
      (d3.bump (F.STRP_CNT_COUNT 2) 0x12 0 1).rebuildSweep
    else d
  | _, _ => d

def execRebuildStripe (g bsn : Nat) (lost : List (Nat × Nat)) := run (rebuildStripe g bsn lost)

/-- Rake reports the blocks of a stripe under reason 2; a block reported in two passes in a row is marked bad once
relocated (R180). -/
def Dev.rakeReport (d : Dev) (die block : Nat) : Dev :=
  let b := d.blk die block
  (d.setBlk die block { b with reported := b.reported + 1, doom := if 1 ≤ b.reported then 3 else b.doom }).queueCompost
    die block 2

/-- The closed block stripes Rake reads: those of groups without a failed member that is not a zero position. -/
def Dev.rakeStripes (d : Dev) : List (Nat × Nat) :=
  (d.strp.stripes.filter (fun s => !s.isOpen &&
    !d.strp.stripes.any (fun t => t.group == s.group && decide (0 < d.erased t)))).map (fun s => (s.group, s.bsn))

/-- The last stripe of a block stripe has been checked: progress, and RAKE_PASS when every eligible one has (R179). -/
def Dev.rakeAdvance (d : Dev) (g bsn : Nat) : Dev :=
  let done := if d.strp.rakeDone.contains (g, bsn) then d.strp.rakeDone else (g, bsn) :: d.strp.rakeDone
  let all := d.rakeStripes
  let left := all.filter (fun x => !done.contains x)
  if left.isEmpty then
    (((({ d with strp := { d.strp with rakeDone := [] } }).setF F.STRP_RAKESTAT_PASSPCT 0).setF F.STRP_RAKESTAT_PASSES
      (satAdd 16 (d.f F.STRP_RAKESTAT_PASSES) 1)).raise 0x01E noPlot [])
  else
    ({ d with strp := { d.strp with rakeDone := done } }).setF F.STRP_RAKESTAT_PASSPCT
      (100 * (all.length - left.length) / max 1 all.length)

/-- Rake reads one codeword of each block of a stripe. -/
def Dev.rakeRead (d : Dev) (s : BStripe) : Dev :=
  s.blocks.foldl (fun (e : Dev) jb =>
    let die := d.memberDie s.group jb.1
    let b := e.blk die jb.2
    ((e.setBlk die jb.2 { b with reads := b.reads + 1, cwRead := b.cwRead + 1 }).chanCount (dieChan die) 0 1).almanacCount 112 1) d

/-- RAKE_STRIPE_CHECK (R179, R180): Rake reads one stripe and acts on what it finds; `last` says that it is the last
stripe of its block stripe. -/
def rakeStripeCheck (g bsn page slot : Nat) (x : RakeFinding) (last : Bool) (d : Dev) : Dev :=
  match d.stripe? g bsn with
  | none => d
  | some s =>
    let held := (s.blocks.map (fun jb => d.memberDie g jb.1)).any (fun x => d.underTest (dieChan x / 8))
    if !d.patrolMode || d.mode.pfStop || held || decide (2 < d.f F.PWR_PSTATE_PS) || d.f F.STRP_RAKE_DAYS == 0 ||
        !d.rakeStripes.contains (g, bsn) then d
    else
      let all (e : Dev) : Dev := s.blocks.foldl (fun y jb => y.rakeReport (d.memberDie g jb.1) jb.2) e
      let d0 := (d.rakeRead s).bump (F.STRP_CNT_COUNT 4) 0x14 0 1
      let d1 := match x with
        | .sound => d0
        | .hard j => match AMap.find j s.blocks with
          | some b => d0.rakeReport (d.memberDie g j) b
          | none => d0
        | .reconstructed =>
          all (((d0.bump (F.STRP_CNT_COUNT 0) 0x10 0 1).almanacCount 144 1).ewOccur 8)
        | .lost => d0.loseStripe s page slot 4
        | .parity => (all (d0.bump (F.STRP_CNT_COUNT 5) 0x15 0 1)).raise 0x01B noPlot []
      if last then d1.rakeAdvance g bsn else d1

def execRakeStripeCheck (g bsn page slot : Nat) (x : RakeFinding) (last : Bool) :=
  run (rakeStripeCheck g bsn page slot x last)

end Sys2Proof.Machine
end

