-- ==== Sys2Proof/Machine/Engine.lean ====
section
/-! DEFINITION. Operations of the quadrant engines that several families use: job records and their conditions (R221),
engine contexts and the choice among them (R93, R240, R241, R263, R290, R291). -/

namespace Sys2Proof.Machine

/-! ### Job statuses -/

/-- The value of a status (R221, R351). -/
def Js.code : Js → Nat
  | .ok => 0x00
  | .shortInput => 0x01
  | .longInput => 0x02
  | .outOfSpace => 0x03
  | .noGain => 0x04
  | .badCode => 0x05
  | .badDistance => 0x06
  | .lengthOverrun => 0x07
  | .authFail => 0x08
  | .poison => 0x09
  | .preempted => 0x0A
  | .epochExhausted => 0x0B
  | .genStale => 0x0C
  | .badDesc => 0x0D
  | .timeout => 0x0E
  | .matchLimit => 0x0F
  | .badHeader => 0x10
  | .badChecksum => 0x11
  | .fenced => 0x12
  | .recordLong => 0x40
  | .coreTrap => 0x48
  | .coreHalt => 0x49

/-- The order in which a job's final status is chosen among the conditions that occurred (R221). -/
def jsOrder : List Js :=
  [.badDesc, .genStale, .fenced, .timeout, .coreTrap, .coreHalt, .preempted, .epochExhausted, .badHeader, .badCode, .badDistance,
   .lengthOverrun, .badChecksum, .outOfSpace, .poison, .authFail, .recordLong, .shortInput, .longInput, .matchLimit,
   .noGain, .ok]

/-- The final status of a set of conditions. -/
def jsFinal (conds : List Js) : Js := (jsOrder.find? (fun j => conds.contains j)).getD .ok

/-- The statuses that end a job as soon as they occur; the others are recorded while the job goes on. -/
def Js.fatal : Js → Bool
  | .poison | .authFail | .recordLong | .ok | .longInput => false
  | _ => true

/-! ### Job records -/

/-- The jobs of a quadrant. -/
def Dev.jobs (d : Dev) (q : Nat) : List Job := AMap.get [] q d.trel.jobs

def Dev.setJobs (d : Dev) (q : Nat) (js : List Job) : Dev :=
  { d with trel := { d.trel with jobs := AMap.set [] q js d.trel.jobs } }

def Dev.job? (d : Dev) (q slot : Nat) : Option Job := (d.jobs q).find? (fun j => j.slot == slot)

/-- Replace a job's record. -/
def Dev.setJob (d : Dev) (q : Nat) (j : Job) : Dev :=
  d.setJobs q ((d.jobs q).map (fun x => if x.slot == j.slot then j else x))

/-- Record a condition of a job (R221). -/
def Job.note (j : Job) (c : Js) : Job := if j.conds.contains c then j else { j with conds := j.conds ++ [c] }

/-- Record a condition of the job in a slot. -/
def Dev.jobCond (d : Dev) (q slot : Nat) (c : Js) : Dev :=
  match d.job? q slot with
  | some j => d.setJob q (j.note c)
  | none => d

/-- Has the job met a status that ends it? -/
def Job.ending (j : Job) : Bool := j.conds.any Js.fatal

/-- A counter of quadrant block `base` (its PMU source of counter 0). -/
def Dev.qBump (d : Dev) (x : Field) (src q n : Nat) : Dev := d.bump x src q n

/-! ### A job's input -/

/-- A plot's SLM and its size in bytes (R95, PLOT_SLM.EFFECT). -/
def Dev.slm (d : Dev) (p : Nat) : Mem := AMap.get Mem.init p d.trel.slm

def Dev.setSlm (d : Dev) (p : Nat) (m : Mem) : Dev :=
  { d with trel := { d.trel with slm := AMap.set Mem.init p m d.trel.slm } }

def Dev.slmBytes (d : Dev) (p : Nat) : Nat := d.f (F.PLOT_SLM_EFFECT p) * 2 ^ 24

/-! ### Chunks of cluster namespaces (R196) -/

def Dev.self (d : Dev) : Nat := d.f F.GWL_ID_MEMBER

/-- The roster in force. -/
def Dev.roster? (d : Dev) : Option Roster := d.boot.stream.bind (fun s => s.roster)

/-- The positions of the stripe layout: configured and retired members in ascending ID. -/
def Dev.positions (d : Dev) : List Nat :=
  match d.roster? with
  | some r => (List.range 8).filter (fun i => r.members.any (fun m => m.1 == i) || bit r.retired i)
  | none => []

/-- The member that holds chunk `j` of stripe `r`. -/
def Dev.holder (d : Dev) (r j : Nat) : Nat := d.positions.getD ((r + j) % max 1 d.positions.length) 0

def chunkBytes : Nat := 65536

def chunkKey (nsid r j : Nat) : Nat := 16 * (2 ^ 40 * nsid + r) + j

def Dev.chunk (d : Dev) (nsid r j : Nat) : Nat := AMap.get 0 (chunkKey nsid r j) d.clu.chunks

/-- The content of a chunk as a number: its 64 KiB of data, above them bit `b` for block `b` marked uncorrectable (R66), and
above the 128 marks 64 bytes of host metadata for each block. -/
def chunkMark (v blk : Nat) : Bool := bit v (8 * chunkBytes + blk)

/-- Block `b` of a chunk: its data and above them its host metadata. -/
def chunkBlk (lba c b : Nat) : Nat :=
  c / 2 ^ (8 * lba * b) % 2 ^ (8 * lba) + (c / 2 ^ (8 * chunkBytes + 128 + 512 * b) % 2 ^ 512) * 2 ^ (8 * lba)

/-- Where logical block `b` of a cluster namespace lies: stripe, chunk, block of the chunk (R196). -/
def clusterPlace (g : ClusterGeom) (lba b : Nat) : Nat × Nat × Nat :=
  let per := chunkBytes / lba
  let c := b / per
  (c / g.k, c % g.k, b % per)

/-- A logical block of a cluster namespace and whether it is lost, where this member holds its chunk. -/
def Dev.ownBlock (d : Dev) (x : Ns) (g : ClusterGeom) (b : Nat) : Option (Nat × Bool) :=
  let lba := lbaBytes x.lbaf
  let p := clusterPlace g lba b
  if d.holder p.1 p.2.1 = d.self then
    let c := d.chunk x.nsid p.1 p.2.1
    some (chunkBlk lba c p.2.2, d.clu.marked.contains (chunkKey x.nsid p.1 p.2.1) || chunkMark c p.2.2)
  else none

/-! ### A job's input -/

/-- The bytes of a namespace from byte `o` as they are stored, each with whether it is poisoned or marked uncorrectable; nothing where
another member of the cluster holds some of them. -/
def Dev.nsBytes (d : Dev) (nsid o n : Nat) : Option (List (Byte × Bool)) :=
  match d.ns? nsid with
  | none => none
  | some x =>
    let b := lbaBytes x.lbaf
    let ls := (List.range (ceilDiv (o % b + n) b)).map (fun i => o / b + i)
    let cut (blocks : List (Nat × Bool)) : List (Byte × Bool) :=
      ((blocks.flatMap (fun v => (leBytes b v.1).map (fun y => (y, v.2)))).drop (o % b)).take n
    match x.cluster with
    | some g => (ls.mapM (d.ownBlock x g)).map cut
    | none => some (cut (ls.map (fun l =>
        let v := ((d.iuBlocksNow x (l / x.iuBlocks))[l % x.iuBlocks]?).getD (0, .poisoned)
        (v.1, v.2 != .good))))

/-- The `n` bytes of a fixed program's input from byte `o`, each with its poison (R217, R232): SLM or a namespace. -/
def Dev.inputAt (d : Dev) (j : Job) (o n : Nat) : Option (List (Byte × Bool)) :=
  if j.desc.nsid = 0 then
    let m := d.slm j.desc.plot
    some ((m.bytes (j.desc.instart + o) n).zipIdx.map (fun x => (x.1, m.poisonedRange (j.desc.instart + o + x.2) 1)))
  else d.nsBytes j.desc.nsid (j.desc.instart * ((d.ns? j.desc.nsid).map (fun x => lbaBytes x.lbaf)).getD 1 + o) n

/-- Does a job's input from byte `o` need a chunk that this member does not hold, while it is fenced (R235)? -/
def Dev.fencedInput (d : Dev) (j : Job) (o n : Nat) : Bool :=
  d.flag F.TOP_MODE_CFENCE && j.desc.nsid != 0 && (d.ns? j.desc.nsid).isSome && (d.inputAt j o n).isNone

/-- HIF's command of a tag. -/
def Dev.cmd? (d : Dev) (tag : Nat) : Option ProgCmd := d.trel.cmds.find? (fun c => c.tag == tag)

def Dev.setCmd (d : Dev) (c : ProgCmd) : Dev :=
  { d with trel := { d.trel with cmds := d.trel.cmds.map (fun x => if x.tag == c.tag then c else x) } }

/-- HIF's command of a job, where the job serves one. -/
def Dev.jobCmd? (d : Dev) (j : Job) : Option ProgCmd := if j.ring < 16 then d.cmd? j.desc.tag else none

/-- The jobs that write one output area: those of one HIF command, else the job alone. -/
def Dev.group (d : Dev) (q : Nat) (j : Job) : List (Nat × Job) :=
  if (d.jobCmd? j).isSome then
    (List.range 4).flatMap (fun x => ((d.jobs x).filter (fun y => y.ring < 16 && y.desc.tag == j.desc.tag &&
      y.desc.prog == j.desc.prog)).map (fun y => (x, y)))
  else [(q, j)]

/-! ### Engine contexts -/

/-- The state of an engine: kind 0 Cipher, 1 Digest, 2 Churn, 3 Sieve. -/
def Dev.eng (d : Dev) (kind q : Nat) : EngSt := AMap.get EngSt.init (4 * kind + q) d.crypt.engines

/-- The contexts in use as the status registers show them: plot contexts and steward or internal ones. -/
def EngSt.pctx (e : EngSt) : Nat := (e.ctxs.filter (fun c => decide (c.id < 56))).length
def EngSt.ictx (e : EngSt) : Nat := (e.ctxs.filter (fun c => decide (56 ≤ c.id))).length

/-- The context a pipe runs. -/
def EngSt.run? (e : EngSt) (pipe : Nat) : Option EngCtx :=
  match AMap.find pipe e.running with
  | some i => e.ctxs.find? (fun c => c.id == i)
  | none => none

def EngSt.busy (e : EngSt) (pipe : Nat) : Nat := Bool.nat (e.run? pipe).isSome
def EngSt.cls (e : EngSt) (pipe : Nat) : Nat := ((e.run? pipe).map EngCtx.cls).getD 0

/-- Show an engine's status register. -/
def Dev.engShow (d : Dev) (kind q : Nat) : Dev :=
  let e := d.eng kind q
  match kind with
  | 0 => (((d.setF (F.CIPH_STAT_PCTX q) e.pctx).setF (F.CIPH_STAT_ICTX q) e.ictx).setF (F.CIPH_STAT_BUSY q)
      (e.busy 0)).setF (F.CIPH_STAT_CLASS q) (e.cls 0)
  | 1 => (((d.setF (F.DGST_STAT_PCTX q) e.pctx).setF (F.DGST_STAT_ICTX q) e.ictx).setF (F.DGST_STAT_BUSY q)
      (e.busy 0)).setF (F.DGST_STAT_CLASS q) (e.cls 0)
  | 2 => (((((d.setF (F.CHURN_STAT_PCTX q) e.pctx).setF (F.CHURN_STAT_ICTX q) e.ictx).setF (F.CHURN_STAT_CBUSY q)
      (e.busy 0)).setF (F.CHURN_STAT_DBUSY q) (e.busy 1)).setF (F.CHURN_STAT_CCLASS q) (e.cls 0)).setF
        (F.CHURN_STAT_DCLASS q) (e.cls 1)
  | _ => (((d.setF (F.SIEVE_STAT_PCTX q) e.pctx).setF (F.SIEVE_STAT_ICTX q) e.ictx).setF (F.SIEVE_STAT_BUSY q)
      (e.busy 0)).setF (F.SIEVE_STAT_CLASS q) (e.cls 0)

/-- Replace an engine's state and show it. -/
def Dev.setEng (d : Dev) (kind q : Nat) (e : EngSt) : Dev :=
  ({ d with crypt := { d.crypt with engines := AMap.set EngSt.init (4 * kind + q) e d.crypt.engines } }).engShow kind q

/-- A plot's weight and context cap for an engine kind (PLOT_EWT, PLOT_ECAP). -/
def Dev.engWeight (d : Dev) (kind p : Nat) : Nat :=
  match kind with
  | 0 => d.f (F.PLOT_EWT_CIPH p)
  | 1 => d.f (F.PLOT_EWT_DGST p)
  | 2 => d.f (F.PLOT_EWT_CHURN p)
  | _ => d.f (F.PLOT_EWT_SIEVE p)

def Dev.engCap (d : Dev) (kind p : Nat) : Nat :=
  match kind with
  | 0 => d.f (F.PLOT_ECAP_CIPH p)
  | 1 => d.f (F.PLOT_ECAP_DGST p)
  | 2 => d.f (F.PLOT_ECAP_CHURN p)
  | _ => d.f (F.PLOT_ECAP_SIEVE p)

/-- The number of the CTX_EXHAUSTED event of an engine kind. -/
def ctxEvent (kind q : Nat) : Nat :=
  match kind with
  | 0 => quadEvent q 4 1
  | 1 => quadEvent q 5 0
  | 2 => quadEvent q 2 1
  | _ => quadEvent q 3 4

/-- The owner number of steward and internal work. -/
def steward : Nat := 0x3FF

/-- The weight of internal and steward work among the requests of a class, which the spec does not give: that of plot 0
(DESIGN CHOICE, assumption 31). -/
def Dev.vtWeight (d : Dev) (kind p : Nat) : Nat := max 1 (d.engWeight kind (if p = steward then 0 else p))

/-- The virtual time of a plot at an engine. -/
def EngSt.vtOf (e : EngSt) (p : Nat) : Nat := AMap.get 0 p e.vt

/-- A plot that begins to wait starts no lower than the plots that already wait (R91, R93). -/
def EngSt.wake (e : EngSt) (p : Nat) : EngSt :=
  let others := ((e.ctxs.filter (fun c => c.ready && c.plot != p)).map (fun c => e.vtOf c.plot)).min?
  if e.ctxs.any (fun c => c.ready && c.plot == p) then e
  else match others with
    | some v => { e with vt := AMap.set 0 p (max (e.vtOf p) v) e.vt }
    | none => e

/-- The lowest free context number in a range. -/
def EngSt.freeCtx (e : EngSt) (lo n : Nat) : Option Nat :=
  ((List.range n).map (fun i => lo + i)).find? (fun i => !e.ctxs.any (fun c => c.id == i))

/-- A holder takes a context when it first reaches the engine (R240, R263, R290); `none` when no permitted one is free. -/
def Dev.engTake (d : Dev) (kind q p cls pipe : Nat) (u : EngUser) : Option Dev :=
  let e := d.eng kind q
  if e.ctxs.any (fun c => c.user == u && c.pipe == pipe) then some d
  else
    let held := (e.ctxs.filter (fun c => c.plot == p && c.id < 56)).length
    let id := if p = steward then e.freeCtx 56 8
      else if d.engWeight kind p = 0 ∨ d.engCap kind p ≤ held then none else e.freeCtx 0 56
    match id with
    | none => none
    | some i =>
      let e1 := e.wake p
      let c : EngCtx := { id := i, plot := p, cls := cls, user := u, pipe := pipe, ready := true, bytes := 0 }
      some (d.setEng kind q { e1 with ctxs := e1.ctxs ++ [c] })

/-- The requester that a pipe's grant goes to (R93, R24): the highest class that waits, in it an urgent context first, else
the plot with the smallest virtual time, lowest number among equals, and that plot's first context. -/
def Dev.engPick (d : Dev) (kind q pipe : Nat) (cands : List EngCtx) : Option EngCtx :=
  let e := d.eng kind q
  let top := ((cands.map EngCtx.cls).max?).getD 0
  let inCls := cands.filter (fun c => c.cls == top)
  let least := ((inCls.map (fun c => e.vtOf c.plot)).min?).getD 0
  let plot := (((inCls.filter (fun c => e.vtOf c.plot == least)).map EngCtx.plot).min?).getD 0
  match inCls.find? (fun c => c.plot == plot) with
  | none => none
  | some c =>
    let i := e.arb.pick (inCls.map (fun x => 128 * pipe + x.id)) (128 * pipe + c.id)
    inCls.find? (fun x => 128 * pipe + x.id == i)

/-- Grant a pipe to a context: its plot's virtual time advances by the bytes processed since its last grant, at 4 KiB a
unit and at least one (R93). -/
def Dev.engGrant (d : Dev) (kind q pipe : Nat) (waiting : List EngCtx) (c : EngCtx) : Dev :=
  let e := d.eng kind q
  let done := AMap.get 0 c.plot e.owed + ((e.ctxs.filter (fun x => x.plot == c.plot)).map EngCtx.bytes).sum
  let cost := max 1 (ceilDiv done 4096)
  let ctxs := e.ctxs.map (fun (x : EngCtx) => if x.plot == c.plot then { x with bytes := 0 } else x)
  d.setEng kind q { e with
    ctxs := ctxs
    owed := AMap.set 0 c.plot 0 e.owed
    running := AMap.put pipe c.id e.running
    vt := AMap.set 0 c.plot (e.vtOf c.plot + cost * 65536 / d.vtWeight kind c.plot) e.vt
    arb := e.arb.round (waiting.map (fun x => 128 * pipe + x.id)) (128 * pipe + c.id) }

/-- A suspension point of a pipe (R241, R263, R291): the running context has processed `n` bytes since the last one, and
`ended` says that its message or job is over. A waiting request of a higher class takes the pipe; one of the same class
takes it when the running one has ended or has processed `quantum` bytes; an idle pipe takes the best request. The answer
says whether a higher class suspended the running one. -/
def Dev.engPoint (d : Dev) (kind q pipe n : Nat) (ended : Bool) (quantum : Nat) : Bool × Dev :=
  let e0 := d.eng kind q
  match e0.run? pipe with
  | none =>
    match d.engPick kind q pipe (e0.ctxs.filter (fun c => c.ready && c.pipe == pipe)) with
    | some c => (false, d.engGrant kind q pipe (e0.ctxs.filter (fun c => c.ready && c.pipe == pipe)) c)
    | none => (false, d)
  | some r0 =>
    let r := { r0 with bytes := r0.bytes + n }
    let ctxs := e0.ctxs.map (fun (x : EngCtx) => if x.id == r.id then r else x)
    let d1 := d.setEng kind q { e0 with ctxs := ctxs }
    let waiting := ctxs.filter (fun c => c.ready && c.pipe == pipe && c.id != r.id)
    let top := ((waiting.map EngCtx.cls).max?).getD 0
    let higher := !waiting.isEmpty && decide (r.cls < top)
    let same := !waiting.isEmpty && r.cls == top && (ended || decide (quantum ≤ r.bytes))
    if higher || same || !r.ready || (ended && !waiting.isEmpty) then
      match d1.engPick kind q pipe waiting with
      | some c => (higher && !ended, d1.engGrant kind q pipe waiting c)
      | none =>
        let e1 := d1.eng kind q
        (false, d1.setEng kind q { e1 with running := AMap.del pipe e1.running })
    else (false, d1)

/-- A context's holder stalls for credit or has work again (R214). -/
def Dev.engReady (d : Dev) (kind q : Nat) (u : EngUser) (ready : Bool) : Dev :=
  let e := d.eng kind q
  match e.ctxs.find? (fun c => c.user == u) with
  | none => d
  | some c =>
    let e1 := if ready then e.wake c.plot else e
    let up (x : EngCtx) : EngCtx := if x.user == u then { x with ready := ready } else x
    d.setEng kind q { e1 with ctxs := e1.ctxs.map up }

/-- The bytes that contexts have processed since their plots' last grants stay owed when the contexts go (R93). -/
def EngSt.owe (e : EngSt) (cs : List EngCtx) : List (Nat × Nat) :=
  cs.foldl (fun m c => AMap.set 0 c.plot (AMap.get 0 c.plot m + c.bytes) m) e.owed

/-- Release the contexts of a holder; the oldest internal request that waits then takes a freed one (R240, R24). -/
def Dev.engFree (d : Dev) (kind q : Nat) (u : EngUser) : Dev :=
  let e := d.eng kind q
  let gone := (e.ctxs.filter (fun c => c.user == u)).map EngCtx.id
  if gone.isEmpty then d
  else
    let d1 := d.setEng kind q { e with
      ctxs := e.ctxs.filter (fun c => !(c.user == u))
      owed := e.owe (e.ctxs.filter (fun c => c.user == u))
      running := e.running.filter (fun r => !gone.contains r.2) }
    match (d1.eng kind q).waits with
    | [] => d1
    | w :: rest =>
      match d1.engTake kind q steward w.2.1 w.2.2 w.1 with
      | none => d1
      | some d2 => d2.setEng kind q { d2.eng kind q with waits := rest }

/-- An internal or steward request takes a context, or waits for one. -/
def Dev.engTakeInternal (d : Dev) (kind q cls pipe : Nat) (u : EngUser) : Dev :=
  match d.engTake kind q steward cls pipe u with
  | some e => e
  | none =>
    let e := d.eng kind q
    if e.waits.any (fun w => w.1 == u) then d else d.setEng kind q { e with waits := e.waits ++ [(u, cls, pipe)] }

/-- Record a refusal in CIPH_ERR. -/
def Dev.ciphErr (d : Dev) (q code job : Nat) : Dev :=
  ((d.setF (F.CIPH_ERR_CODE q) code).setF (F.CIPH_ERR_JOB q) job).setF (F.CIPH_ERR_VALID q) 1

/-- A job finds no context: PREEMPTED, with the engine's event (R240, R263, R290). -/
def Dev.noContext (d : Dev) (kind q slot : Nat) : Dev :=
  let d0 := match d.job? q slot with
    | some j => d.setJob q { j with eng := kind + 256 * q }
    | none => d
  let d1 := (d0.jobCond q slot .preempted).raise (ctxEvent kind q) noPlot []
  if kind = 0 then d1.ciphErr q Js.preempted.code slot else d1

/-- A job takes a context, or ends PREEMPTED. Jobs of plot 0x3FF are steward work and wait. -/
def Dev.jobTake (d : Dev) (kind q : Nat) (j : Job) (pipe : Nat) : Dev :=
  match d.engTake kind q j.desc.plot j.desc.urg pipe (.job j.slot) with
  | some e => e
  | none => if j.desc.plot = steward then d.engTakeInternal kind q j.desc.urg pipe (.job j.slot)
            else d.noContext kind q j.slot

end Sys2Proof.Machine
end

