-- ==== Sys2Proof/Machine/Cipher.lean ====
section
/-! DEFINITION. Cipher, digest and key derivation (chapter 12): the meanings of the rows from key derivation to the
comparators. -/

namespace Sys2Proof.Machine

/-- A field of `n` bytes at offset `o` of a parameter block, little-endian. -/
def Job.par (j : Job) (o n : Nat) : Nat := leNat ((j.param.drop o).take n)

/-- The purpose a job's operation uses (R277): ENCRYPT_RANGE by its MODE, HASH_RANGE with an HMAC. -/
def Job.purpose (j : Job) : Nat :=
  if j.desc.prog = 6 then 2 + j.par 64 1
  else if j.desc.prog = 5 ∧ 3 ≤ j.par 64 1 then 6
  else 0

/-- The label of a job's key (R280). -/
def Job.label (j : Job) : Label :=
  { purpose := j.purpose, plot := j.desc.plot, nsid := 0,
    epoch := if j.desc.prog = 6 then j.par 68 4 else j.par 72 4,
    ulabel := if j.desc.prog = 6 then j.par 72 8 else j.par 76 8 }

/-- KEY_DERIVATION (R278 to R281): a request for a key arrives from an XTS lane, given as (local channel, namespace), or
from a job for a purpose. A purpose that the operation does not use ends the job BAD_DESC; a refused key ends it
EPOCH_EXHAUSTED. -/
def keyDerivation (q : Nat) (lane : Option (Nat × Nat)) (slot purpose : Nat) (d : Dev) : Dev :=
  if ¬d.quadOk q then d
  else match lane with
  | some (ch, nsid) =>
    match d.ns? nsid with
    | none => d
    | some n => (d.getKey q { purpose := 1, plot := 0, nsid := nsid, epoch := n.epoch, ulabel := 0 } 0 (.lane ch nsid)).2
  | none =>
    match d.job? q slot with
    | none => d
    | some j =>
      if j.purpose = 0 ∨ j.purpose ≠ purpose then (d.jobCond q slot .badDesc).ciphErr q Js.badDesc.code slot
      else match d.getKey q j.label (j.par 64 1) (.job slot) with
        | (some _, e) => e
        | (none, e) => ((e.jobCond q slot .epochExhausted).ciphErr q Js.epochExhausted.code slot).bump
            (F.CIPH_CNT_COUNT q 7) 0x167 q 1

def execKeyDerivation (q : Nat) (lane : Option (Nat × Nat)) (slot purpose : Nat) :=
  run (keyDerivation q lane slot purpose)

/-- The values a lease holds (R284). -/
def leaseMax : Nat := 65536

/-- A lease request against the GCM counter table (R284): the table after it, and the lease or the cause of a refusal
(1 the plot holds 64 entries, 2 no value is left, 3 the epoch is below the entry's). -/
def gcmRequest (t : List GcmEnt) (plot ulabel epoch : Nat) : List GcmEnt × Except Nat (Nat × Nat) :=
  match t.find? (fun e => e.plot == plot && e.ulabel == ulabel) with
  | none =>
    if (t.filter (fun e => e.plot == plot)).length < 64 then
      (t ++ [{ plot := plot, ulabel := ulabel, epoch := epoch, next := leaseMax }], .ok (0, leaseMax))
    else (t, .error 1)
  | some e =>
    let rest := t.filter (fun x => !(x.plot == plot && x.ulabel == ulabel))
    if epoch < e.epoch then (t, .error 3)
    else if e.epoch < epoch then (rest ++ [{ e with epoch := epoch, next := leaseMax }], .ok (0, leaseMax))
    else if e.next = 2 ^ 64 then (t, .error 2)
    else
      let top := min (e.next + leaseMax) (2 ^ 64)
      (rest ++ [{ e with next := top }], .ok (e.next, top))

/-- The jobs that pin a key slot end EPOCH_EXHAUSTED. -/
def Dev.refuseUsers (d : Dev) (q : Nat) (k : KeySlot) : Dev :=
  k.pins.foldl (fun (e : Dev) u =>
    match u with
    | .job s => (e.jobCond q s .epochExhausted).ciphErr q Js.epochExhausted.code s
    | _ => e) d

/-- GCM_LEASE (R284): the key in slot `idx` has no counter value left of its lease and asks for one. -/
def gcmLease (q idx : Nat) (d : Dev) : Dev :=
  match (d.keySlots q).find? (fun k => k.idx == idx) with
  | none => d
  | some k =>
    let spent : Bool := match k.lease with
      | none => true
      | some l => decide (l.2 ≤ l.1)
    if k.label.purpose ≠ 3 ∨ ¬spent then d
    else match gcmRequest d.gcm k.label.plot k.label.ulabel k.label.epoch with
      | (t, .ok l) =>
        let up (x : KeySlot) : KeySlot := if x.idx == idx then { x with lease := some l } else x
        ({ d with gcm := t }).setKeySlots q ((d.keySlots q).map up)
      | (_, .error cause) =>
        ((d.refuseUsers q k).bump (F.CIPH_CNT_COUNT q 7) 0x167 q 1).raise (quadEvent q 4 2) noPlot
          [k.label.purpose, k.label.plot, cause]

def execGcmLease (q idx : Nat) := run (gcmLease q idx)

/-- ENGINE_SWITCH (R291, R93): a block boundary of CIPH, or of DGST where `digest`; the running message has processed `n`
bytes since the last one, and `ended` says that it is over. -/
def engineSwitch (q : Nat) (digest : Bool) (n : Nat) (ended : Bool) (d : Dev) : Dev :=
  if ¬d.quadOk q then d
  else
    let r := d.engPoint (if digest then 1 else 0) q 0 n ended 65536
    if r.1 && !digest then r.2.bump (F.CIPH_CNT_COUNT q 6) 0x166 q 1 else r.2

def execEngineSwitch (q : Nat) (digest : Bool) (n : Nat) (ended : Bool) := run (engineSwitch q digest n ended)

/-! ### Digest sessions -/

def Dev.ses (d : Dev) (q s : Nat) : DgstSes := AMap.get DgstSes.init (8 * q + s) d.crypt.sessions

def Dev.setSes (d : Dev) (q s : Nat) (x : DgstSes) : Dev :=
  { d with crypt := { d.crypt with sessions := AMap.set DgstSes.init (8 * q + s) x d.crypt.sessions } }

/-- A session's STATE. -/
def Dev.sesState (d : Dev) (q s : Nat) : Nat := d.f (F.DGST_SSTAT_STATE q s)

/-- Set a session's STATE and show which are OPEN or FINISHING. -/
def Dev.setSesState (d : Dev) (q s v : Nat) : Dev :=
  let d1 := d.setF (F.DGST_SSTAT_STATE q s) v
  d1.setF (F.DGST_STAT_SESS q) (setBit (d1.f (F.DGST_STAT_SESS q)) s (v == 1 || v == 2))

/-- Release what a session holds in its engine. -/
def Dev.sesFree (d : Dev) (q s : Nat) : Dev := (d.engFree 1 q (.session s)).unpin q (.session s)

/-- A session ends in ERROR (R294, R295). -/
def Dev.sesError (d : Dev) (q s err : Nat) : Dev :=
  ((((((d.setSesState q s 4).setF (F.DGST_SSTAT_ERR q s) err).setF (F.DGST_CMP_MATCH q s) 0).setF
    (F.DGST_CMP_MATCH_N q s) 0).sesFree q s).bump (F.DGST_CNT_COUNT q 4) 0x16C q 1).raise (quadEvent q 5 2) noPlot []

/-- May this writer write the session's SCTL, DATA, LAST and EXP (R293)? -/
def Dev.sesOwner (d : Dev) (q s plot : Nat) : Bool := d.f (F.DGST_SSTAT_PLOT q s) == plot

/-- DGST_OPEN (R293): `plot` is the writer's plot, 0x3FF for steward code. -/
def dgstOpen (q s plot : Nat) (d : Dev) : Dev :=
  let st := d.sesState q s
  if ¬d.quadOk q ∨ 8 ≤ s ∨ st = 1 ∨ st = 2 then d
  else
    let alg := d.f (F.DGST_SCTL_ALG q s)
    let zero (e : Dev) (i : Nat) : Dev :=
      (e.setF (F.DGST_RES_DIGEST q s i) 0).setF (F.DGST_EXP_DIGEST q s i) 0
    let d1 := ((List.range 8).foldl zero d).setF (F.DGST_SLEN_BYTES q s) 0
    let d2 := (((d1.setF (F.DGST_SSTAT_PLOT q s) plot).setF (F.DGST_SSTAT_ERR q s) 0).setF (F.DGST_CMP_MATCH q s) 0).setF
      (F.DGST_CMP_MATCH_N q s) 0
    let taken := match d2.engTake 1 q plot (d2.f (F.DGST_SCTL_URG q s)) 0 (.session s) with
      | some e => some e
      | none => if plot = steward then some (d2.engTakeInternal 1 q (d2.f (F.DGST_SCTL_URG q s)) 0 (.session s)) else none
    match taken with
    | none => (d2.sesError q s 1).raise (ctxEvent 1 q) noPlot []
    | some d3 =>
      let fresh : DgstSes := { DgstSes.init with at_ := d3.now }
      let d4 := ((d3.setSes q s fresh).setSesState q s 1).bump (F.DGST_CNT_COUNT q 3) 0x16B q 1
      if alg < 3 then d4
      else
        let l : Label := { purpose := 6, plot := plot, nsid := 0, epoch := d4.f (F.DGST_SEPOCH_EPOCH q s),
                           ulabel := d4.f (F.DGST_SLABEL_ULABEL q s) }
        match d4.getKey q l alg (.session s) with
        | (some i, e) => e.setSes q s { fresh with key := some i }
        | (none, e) => e.sesError q s 6

def execDgstOpen (q s plot : Nat) := run (dgstOpen q s plot)

/-- Message bytes enter an open session; any other STATE makes the write an error (R294). -/
def Dev.sesBytes (d : Dev) (q s plot : Nat) (bs : List Byte) (poisoned finish : Bool) : Dev :=
  if ¬d.quadOk q ∨ 8 ≤ s ∨ ¬d.sesOwner q s plot then d
  else if d.sesState q s ≠ 1 then d.sesError q s 2
  else if poisoned then
    (d.setSes q s { d.ses q s with poisoned := true }).sesError q s 3
  else
    let x := d.ses q s
    let d1 := d.setSes q s { x with msg := x.msg ++ bs, at_ := d.now, written := true }
    let d2 := d1.setF (F.DGST_SLEN_BYTES q s) (x.msg.length + bs.length)
    if finish then d2.setSesState q s 2 else d2

/-- DGST_DATA (R294): a 64-bit write adds 8 bytes. -/
def dgstData (q s plot word : Nat) (poisoned : Bool) (d : Dev) : Dev :=
  d.sesBytes q s plot (leBytes 8 word) poisoned false

def execDgstData (q s plot word : Nat) (poisoned : Bool) := run (dgstData q s plot word poisoned)

/-- DGST_LAST (R294): a 64-bit write to LAST[n] adds `n` bytes, 1 to 8, and finishes the message. -/
def dgstLast (q s n plot word : Nat) (poisoned : Bool) (d : Dev) : Dev :=
  if 1 ≤ n ∧ n ≤ 8 then d.sesBytes q s plot (leBytes n word) poisoned true else d

def execDgstLast (q s n plot word : Nat) (poisoned : Bool) := run (dgstLast q s n plot word poisoned)

/-- DGST_FIN0 (R294): finishes a message of zero bytes; no effect after any DATA write. -/
def dgstFin0 (q s plot : Nat) (d : Dev) : Dev :=
  if d.quadOk q && decide (s < 8) && d.sesOwner q s plot && d.sesState q s == 1 && !(d.ses q s).written then
    d.setSesState q s 2
  else d

def execDgstFin0 (q s plot : Nat) := run (dgstFin0 q s plot)

/-- DGST_ABORT (R295): the owner ends the session. -/
def dgstAbort (q s plot : Nat) (d : Dev) : Dev :=
  let st := d.sesState q s
  if d.quadOk q && decide (s < 8) && d.sesOwner q s plot && (st == 1 || st == 2) then d.sesError q s 5 else d

def execDgstAbort (q s plot : Nat) := run (dgstAbort q s plot)

/-- The words of a session's digest registers as bytes. -/
def Dev.sesWords (d : Dev) (exp : Bool) (q s n : Nat) : List Byte :=
  ((List.range 8).flatMap (fun i =>
    leBytes 8 (d.f (if exp then F.DGST_EXP_DIGEST q s i else F.DGST_RES_DIGEST q s i)))).take n

/-- Both comparators run (R297). `fault` says that they contradict each other by reading 1 and 1. -/
def Dev.sesCompare (d : Dev) (q s : Nat) (fault : Bool) : Dev :=
  if d.sesState q s ≠ 3 ∨ (d.ses q s).poisoned then
    (d.setF (F.DGST_CMP_MATCH q s) 0).setF (F.DGST_CMP_MATCH_N q s) 0
  else if fault then
    (((d.setF (F.DGST_CMP_MATCH q s) 1).setF (F.DGST_CMP_MATCH_N q s) 1).bump (F.DGST_CNT_COUNT q 7) 0x16F q 1).raise
      (quadEvent q 5 1) noPlot [s]
  else
    let n := (Sha.algOf (d.f (F.DGST_SCTL_ALG q s))).bytes
    let same := d.sesWords false q s n == d.sesWords true q s n
    ((d.setF (F.DGST_CMP_MATCH q s) (Bool.nat same)).setF (F.DGST_CMP_MATCH_N q s) (Bool.nat (!same))).bump
      (F.DGST_CNT_COUNT q (if same then 5 else 6)) (if same then 0x16D else 0x16E) q 1

/-- The digest or HMAC of a session's message. -/
def Dev.sesDigest (d : Dev) (q s : Nat) : List Byte :=
  let alg := d.f (F.DGST_SCTL_ALG q s)
  let x := d.ses q s
  let a := Sha.algOf alg
  if alg < 3 then Sha.digest a x.msg
  else match x.key.bind (fun i => (d.keySlots q).find? (fun k => k.idx == i)) with
    | some k => Sha.hmac a (d.keyOf k.label alg) x.msg
    | none => Sha.digest a x.msg

/-- DGST_DIGEST_DONE (R294, R296, R297): the digest of a FINISHING session lands in DGST_RES. -/
def dgstDigestDone (q s : Nat) (fault : Bool) (d : Dev) : Dev :=
  if ¬d.quadOk q ∨ 8 ≤ s ∨ d.sesState q s ≠ 2 then d
  else
    let out := d.sesDigest q s
    let alg := d.f (F.DGST_SCTL_ALG q s)
    let put (e : Dev) (i : Nat) : Dev := e.setF (F.DGST_RES_DIGEST q s i) (leNat ((out.drop (8 * i)).take 8))
    let d1 := (List.range 8).foldl put d
    let d2 := (d1.bump (F.DGST_CNT_COUNT q 0) 0x168 q (d.ses q s).msg.length).bump
      (F.DGST_CNT_COUNT q (if alg < 3 then 1 else 2)) (if alg < 3 then 0x169 else 0x16A) q 1
    ((d2.setSesState q s 3).sesFree q s).sesCompare q s fault

def execDgstDigestDone (q s : Nat) (fault : Bool) := run (dgstDigestDone q s fault)

/-- DGST_IDLE_TIMEOUT (R295): an OPEN session has received no write for IDLE ms. -/
def dgstIdleTimeout (q s : Nat) (d : Dev) : Dev :=
  if d.quadOk q && decide (s < 8) && d.sesState q s == 1 then d.sesError q s 4 else d

def execDgstIdleTimeout (q s : Nat) := run (dgstIdleTimeout q s)

/-- DGST_EXP_WRITE (R293, R297): the owner's complete write of word `i` of DGST_EXP; both comparators run again. -/
def dgstExpWrite (q s i plot value : Nat) (fault : Bool) (d : Dev) : Dev :=
  if d.quadOk q && decide (s < 8) && decide (i < 8) && d.sesOwner q s plot then
    let d1 := d.setF (F.DGST_EXP_DIGEST q s i) value
    if d1.sesState q s = 3 then d1.sesCompare q s fault else d1
  else d

def execDgstExpWrite (q s i plot value : Nat) (fault : Bool) := run (dgstExpWrite q s i plot value fault)

end Sys2Proof.Machine
end

