-- ==== Sys2Proof/Machine/Ecc.lean ====
section
/-! DEFINITION. The correctable-error tables (R372) and the counts beside them (R158). -/

namespace Sys2Proof.Machine

/-- The corrections of a class that found no entry. -/
def Dev.eccOvf (d : Dev) (cls : Nat) : Nat := AMap.get 0 cls d.ecc.ovf

def Dev.eccTab (d : Dev) (cls : Nat) : List EccEnt := AMap.get [] cls d.ecc.tabs

/-- A correction in class `cls` (0 SRAM, 1 DRAM, 2 MRAM) at an address (INST is part of an SRAM address, of a DRAM one it says whether the
device is marked): an entry that holds the address counts it; a new
address takes a free entry; with none free it is counted as overflow, reported once per filling (R372). -/
def Dev.eccCorrect (d : Dev) (cls unit quad inst addr : Nat) : Dev :=
  let t := d.eccTab cls
  let here (e : EccEnt) : Bool := e.unit == unit && e.quad == quad && (cls == 1 || e.inst == inst) && e.addr == addr
  let d0 := d.almanacCount (192 + 16 * cls) 1
  if t.any here then
    let up (e : EccEnt) : EccEnt := if here e then { e with inst := inst, count := satAdd 32 e.count 1, last := d.time } else e
    { d0 with ecc := { d0.ecc with tabs := AMap.set [] cls (t.map up) d0.ecc.tabs } }
  else if t.length < 32 then
    let e : EccEnt := { unit := unit, quad := quad, inst := inst, addr := addr, count := 1, first := d.time, last := d.time }
    { d0 with ecc := { d0.ecc with tabs := AMap.set [] cls (t ++ [e]) d0.ecc.tabs } }
  else
    let d1 := { d0 with ecc := { d0.ecc with ovf := AMap.set 0 cls (satAdd 32 (d.eccOvf cls) 1) d0.ecc.ovf } }
    if d1.ecc.told.contains cls then d1
    else (({ d1 with ecc := { d1.ecc with told := NSet.add cls d1.ecc.told } }).raise 0x024 noPlot [cls]).ewSet 16 true

/-- An uncorrectable error of a class is counted (R158). -/
def Dev.eccUncorrect (d : Dev) (cls : Nat) : Dev := d.almanacCount (200 + 16 * cls) 1

end Sys2Proof.Machine
end

