-- ==== Sys2Proof/Machine/Sieve.lean ====
section
/-! DEFINITION. Sieve (chapter 11): pattern matching as R257 and R259 define it, image placement, and the meanings of the
rows of the associative CAM. -/

namespace Sys2Proof.Machine

/-! ### Patterns (R257, R259) -/

/-- The union of two rising lists of numbers. -/
def NSet.union (a b : List Nat) : List Nat := b.foldl (fun m x => NSet.add x m) a

/-- The places in a field of `n` bytes that a pattern can reach from one of the places `is`. -/
def Rx.ends (f : List Byte) (n : Nat) : Rx → List Nat → List Nat
  | .eps, is => is
  | .set bs, is => (is.filter (fun i => match f[i]? with
      | some b => bs.contains b.toNat
      | none => false)).map (fun i => i + 1)
  | .seq a b, is => Rx.ends f n b (Rx.ends f n a is)
  | .alt a b, is => NSet.union (Rx.ends f n a is) (Rx.ends f n b is)
  | .star a, is => (List.range (n + 1)).foldl (fun acc _ => NSet.union acc (Rx.ends f n a acc)) is
  | .start, is => is.filter (fun i => i == 0)
  | .stop, is => is.filter (fun i => i == n)

/-- Does a pattern have a match that ends at `e` and starts before it? -/
def Rx.endsAt (r : Rx) (f : List Byte) (e : Nat) : Bool :=
  (List.range e).any (fun i => (r.ends f f.length [i]).contains e)

/-- The reports of an image on a field, as (pattern, end offset): ascending end offset, then ascending pattern (R259). -/
def Image.reports (m : Image) (f : List Byte) : List (Nat × Nat) :=
  (List.range f.length).flatMap (fun i =>
    (m.pats.zipIdx.filter (fun p => p.1.endsAt f (i + 1))).map (fun p => (p.2, i + 1)))

/-! ### Images (R260 to R262) -/

def Dev.sieve (d : Dev) (q : Nat) : SieveSt := AMap.get SieveSt.init q d.trel.sieve

def Dev.setSieve (d : Dev) (q : Nat) (x : SieveSt) : Dev :=
  { d with trel := { d.trel with sieve := AMap.set SieveSt.init q x d.trel.sieve } }

/-- A plot's loaded image at an index; plots number their images apart (R337). -/
def Dev.image? (d : Dev) (plot idx : Nat) : Option Image := d.trel.images.find? (fun m => m.plot == plot && m.index == idx)

/-- An image's key among the resident ones. -/
def Image.key (m : Image) : Nat := 256 * m.plot + m.index

/-- Show a quadrant's resident slots and free tiles. -/
def Dev.imgShow (d : Dev) (q : Nat) : Dev :=
  let r := (d.sieve q).resident
  (d.setF (F.SIEVE_STAT_TFREE q) (64 - (r.map (fun x => x.2.2)).sum)).setF (F.SIEVE_STAT_IMAGES q) r.length

/-- Place an image in one quadrant: the lowest free slot and as many free tiles as its DFA part needs (R261). -/
def Dev.imgPlace (d : Dev) (m : Image) (q : Nat) : Dev :=
  let x := d.sieve q
  let free := 64 - (x.resident.map (fun r => r.2.2)).sum
  let n := min free m.dtiles
  match (List.range 32).find? (fun s => !x.resident.any (fun r => r.1 == s)) with
  | none => d
  | some s =>
    let more := decide (n < m.dtiles)
    let d1 := (d.setSieve q { x with resident := x.resident ++ [(s, m.key, n)] }).imgShow q
    let d2 := (((d1.setF (F.SIEVE_IMG_PLOT q s) m.plot).setF (F.SIEVE_IMG_TILES q s) n).setF (F.SIEVE_IMG_OVER q s)
      (Bool.nat more)).setF (F.SIEVE_IMG_USED q s) 1
    if more then d2.raise (quadEvent q 3 0) m.plot [m.plot, m.dtiles - n] else d2

/-- Has every quadrant in service a free resident slot? -/
def Dev.imgRoom (d : Dev) : Bool := d.quads.all (fun q => decide ((d.sieve q).resident.length < 32))

def Dev.setImage (d : Dev) (m : Image) : Dev :=
  { d with trel := { d.trel with images := d.trel.images.map (fun x => if x.key == m.key then m else x) } }

/-- Activate an image in every quadrant in service. -/
def Dev.imgActivate (d : Dev) (m : Image) : Dev :=
  d.quads.foldl (fun (e : Dev) q => e.imgPlace m q) (d.setImage { m with active := true })

/-- Free an image's slots and tiles. -/
def Dev.imgDeactivate (d : Dev) (m : Image) : Dev :=
  let clear (e : Dev) (q : Nat) : Dev :=
    let x := e.sieve q
    match x.resident.find? (fun r => r.2.1 == m.key) with
    | none => e
    | some r =>
      let e1 := (e.setSieve q { x with resident := x.resident.filter (fun y => y.2.1 != m.key) }).imgShow q
      (((e1.setF (F.SIEVE_IMG_PLOT q r.1) 0).setF (F.SIEVE_IMG_TILES q r.1) 0).setF (F.SIEVE_IMG_OVER q r.1) 0).setF
        (F.SIEVE_IMG_USED q r.1) 0
  ((List.range 4).foldl clear d).setImage { m with active := false }

/-- SIEVE_JOB_SWITCH (R263, R93): a curd boundary of the automaton; the running job has consumed `n` bytes since the last
one. -/
def sieveJobSwitch (q n : Nat) (ended : Bool) (d : Dev) : Dev :=
  if d.quadOk q then (d.engPoint 3 q 0 n ended (d.f (F.SIEVE_CFG_QUANTUM q) * 65536)).2 else d

def execSieveJobSwitch (q n : Nat) (ended : Bool) := run (sieveJobSwitch q n ended)

/-! ### The CAM (R266 to R275) -/

/-- A table's range of entries. -/
def Dev.tblBase (d : Dev) (q t : Nat) : Nat := d.f (F.SIEVE_TBL_BASE q t)
def Dev.tblSize (d : Dev) (q t : Nat) : Nat := d.f (F.SIEVE_TBL_SIZE q t)
def Dev.tblEn (d : Dev) (q t : Nat) : Bool := d.flag (F.SIEVE_TBL_EN q t)
def Dev.tblIn (d : Dev) (q t i : Nat) : Bool := decide (d.tblBase q t ≤ i ∧ i < d.tblBase q t + d.tblSize q t)

/-- Does an entry match a key (R266)? -/
def CamEnt.matches (e : CamEnt) (key : Nat) : Bool := ((key ^^^ e.value) &&& e.mask) == 0

/-- The valid entries of a table in index order. -/
def Dev.tblEntries (d : Dev) (q t : Nat) : List (Nat × CamEnt) := (d.sieve q).cam.filter (fun p => d.tblIn q t p.1)

/-- The answer of one search (R266). -/
def Dev.camLookup (d : Dev) (q t key : Nat) : CamHit :=
  let hits := (d.tblEntries q t).filter (fun p => p.2.matches key)
  match hits with
  | [] => { index := 0xFFFFFFFF, result := 0, count := 0, multi := false, hit := false, poisoned := false }
  | h :: _ => { index := h.1, result := h.2.result, count := min 255 hits.length, multi := decide (1 < hits.length),
                hit := true, poisoned := false }

/-- The 16 bytes INDEX_LOOKUP writes for a key (R234). -/
def CamHit.bytes (h : CamHit) : List Byte :=
  leBytes 4 h.index ++ leBytes 1 h.count ++ leBytes 1 (Bool.nat h.multi + 2 * Bool.nat h.hit) ++ [0#8, 0#8] ++
    leBytes 8 h.result

/-- Show a table's occupancy. -/
def Dev.tblShow (d : Dev) (q t : Nat) : Dev := d.setF (F.SIEVE_TUSE_USED q t) (d.tblEntries q t).length

def Dev.setCam (d : Dev) (q : Nat) (cam : List (Nat × CamEnt)) : Dev := d.setSieve q { d.sieve q with cam := cam }

/-- A search met entries that fail their check, as (index, shadow lost): each is restored from its shadow, or cleared
(R275). -/
def Dev.camRestore (d : Dev) (q t : Nat) (bad : List (Nat × Bool)) : Dev :=
  bad.foldl (fun (e : Dev) b =>
    if e.tblIn q t b.1 && (AMap.find b.1 (e.sieve q).cam).isSome then
      let e1 := if b.2 then (e.setCam q (AMap.del b.1 (e.sieve q).cam)).tblShow q t else e
      ((e1.bump (F.SIEVE_CNT_COUNT q 7) 0x15F q 1).eccCorrect 0 8 q 0 b.1).raise (quadEvent q 3 5) noPlot
        [b.1, Bool.nat b.2]
    else e) d

/-- One slot searches a table (R266, R275). `bad` lists the damaged entries the search met. A key with a poisoned byte is not searched. -/
def Dev.camFind (d : Dev) (q t key : Nat) (poisoned : Bool) (job : Option Nat) (bad : List (Nat × Bool)) : Dev :=

    let none_ : CamHit := { index := 0xFFFFFFFF, result := 0, count := 0, multi := false, hit := false, poisoned := true }
    let d1 := if poisoned then d else d.camRestore q t bad
    let lost := bad.any (fun b => b.2 && (AMap.find b.1 (d.sieve q).cam).isSome && d.tblIn q t b.1)
    let h := if poisoned then none_ else { d1.camLookup q t (key % 2 ^ 160) with poisoned := lost }
    let d2 := if poisoned then d1 else d1.bump (F.SIEVE_CNT_COUNT q 2) 0x15A q 1
    let d3 := if h.multi then d2.bump (F.SIEVE_CNT_COUNT q 3) 0x15B q 1 else d2
    match job with
    | none => d3.setSieve q { d3.sieve q with reply := some h }
    | some slot =>
      match d3.job? q slot with
      | none => d3
      | some j0 =>
        let j := { j0 with feed := { j0.feed with sent := j0.feed.sent + d.f (F.SIEVE_TBL_KEYW q t) } }
        let out : OutBatch := { unitOff := j.inBytes, bytes := h.bytes, poison := if h.poisoned then [0] else [],
                                untrusted := false, fresh := true }
        let j1 := { j with batches := j.batches ++ [out] }
        d3.setJob q (if poisoned then j1.note .poison else j1)

/-- The next key of a lookup job (R274): KEYW bytes of its input that have arrived; `none` while they have not, and what the search is given
where another member of the cluster holds them. -/
def Dev.nextKey (d : Dev) (j : Job) (kw key : Nat) (poisoned : Bool) : Option (Nat × Bool) :=
  if j.inBytes < j.feed.sent + kw then none
  else match d.inputAt j j.feed.sent kw with
    | some r => some (leNat (r.map Prod.fst), r.any Prod.snd)
    | none => some (key, poisoned)

/-- CAM_SEARCH (R266, R268, R274, R275): one slot searches a table, for a job of INDEX_LOOKUP that names it or for steward code. `key` and
`poisoned` are the key of steward code, `bad` the damaged entries that the search met. -/
def camSearch (q t key : Nat) (poisoned : Bool) (job : Option Nat) (bad : List (Nat × Bool)) (d : Dev) : Dev :=
  if ¬d.quadOk q ∨ ¬d.tblEn q t then d
  else match job.map (d.job? q) with
    | none => d.camFind q t key poisoned none bad
    | some none => d
    | some (some j) =>
      if j.desc.prog ≠ 8 ∨ j.par 64 2 ≠ 256 * q + t ∨ j.ending then d
      else match d.nextKey j (d.f (F.SIEVE_TBL_KEYW q t)) key poisoned with
        | none => d
        | some k => d.camFind q t k.1 k.2 (some j.slot) bad

def execCamSearch (q t key : Nat) (poisoned : Bool) (job : Option Nat) (bad : List (Nat × Bool)) :=
  run (camSearch q t key poisoned job bad)

/-- What an update answers: its status (R269), the entry it names, the entries after it, and how many writes it cost. -/
structure CamRes where
  status : Nat
  index : Option Nat
  cam : List (Nat × CamEnt)
  writes : Nat

/-- Insert at index `p` of a class A table, shifting up to the first free entry (R270). -/
def camInsertAt (cam : List (Nat × CamEnt)) (base size p : Nat) (e : CamEnt) : CamRes :=
  let top := base + size
  match ((List.range (top - p)).map (fun i => p + i)).find? (fun i => (AMap.find i cam).isNone) with
  | none => { status := 1, index := none, cam := cam, writes := 0 }
  | some f =>
    let moved := ((List.range (f - p)).map (fun i => p + i)).foldr (fun i m =>
      match AMap.find i cam with
      | some x => AMap.put (i + 1) x m
      | none => m) cam
    { status := 0, index := some p, cam := AMap.put p e moved, writes := f - p + 1 }

/-- The valid entries of group `g` of a class B table, in order. -/
def camGroup (cam : List (Nat × CamEnt)) (base g : Nat) : List CamEnt :=
  (List.range 16).filterMap (fun i => AMap.find (base + 16 * g + i) cam)

/-- Write a group's entries packed from its first entry. -/
def camSetGroup (cam : List (Nat × CamEnt)) (base g : Nat) (es : List CamEnt) : List (Nat × CamEnt) :=
  let cleared := (List.range 16).foldl (fun m i => AMap.del (base + 16 * g + i) m) cam
  es.zipIdx.foldl (fun m p => AMap.put (base + 16 * g + p.2) p.1 m) cleared

/-- Insert into a class B table (R271); `key` is the padded key's 20 bytes. -/
def camInsertKey (cam : List (Nat × CamEnt)) (base size : Nat) (e : CamEnt) (replace : Bool) : CamRes :=
  let groups := size / 16
  let equal := (cam.filter (fun p => base ≤ p.1 && p.1 < base + size && p.2.value == e.value && p.2.mask == e.mask))
  match (if replace then equal.head? else none) with
  | some p => { status := 0, index := some p.1, cam := AMap.put p.1 { p.2 with result := e.result } cam, writes := 1 }
  | none =>
    let last := equal.getLast?
    let start := match last with
      | some p => (p.1 - base) / 16
      | none => crc32c (leBytes 20 e.value) % max 1 groups
    let order := match last with
      | some _ => (List.range (groups - start)).map (fun i => start + i)
      | none => (List.range groups).map (fun i => (start + i) % groups)
    match order.find? (fun g => decide ((camGroup cam base g).length < 15)) with
    | none => { status := 1, index := none, cam := cam, writes := 0 }
    | some g =>
      let es := camGroup cam base g
      let at_ : Nat := match last with
        | some p => if g = start then p.1 - base - 16 * g + 1 else es.length
        | none => es.length
      { status := 0, index := some (base + 16 * g + at_),
        cam := camSetGroup cam base g (es.take at_ ++ e :: es.drop at_), writes := es.length - at_ + 1 }

/-- Delete an entry; in class B its group closes up (R269, R271). -/
def camDeleteAt (cam : List (Nat × CamEnt)) (base i : Nat) (classB : Bool) : CamRes :=
  match AMap.find i cam with
  | none => { status := 5, index := none, cam := cam, writes := 0 }
  | some _ =>
    if classB then
      let g := (i - base) / 16
      let es := camGroup cam base g
      let k := i - base - 16 * g
      { status := 0, index := some i, cam := camSetGroup cam base g (es.eraseIdx k), writes := es.length - k }
    else { status := 0, index := some i, cam := AMap.del i cam, writes := 1 }

/-- The entry of the update registers, with the mask bytes from KEYW up written as zero (R267). -/
def Dev.camEntry (d : Dev) (q t : Nat) : CamEnt :=
  let word (x : Nat → Field) : Nat := ((List.range 5).map (fun i => d.f (x i) * 2 ^ (32 * i))).sum
  { value := word (F.SIEVE_UKEY_KEY q), mask := word (F.SIEVE_UMASK_MASK q) % 2 ^ (8 * d.f (F.SIEVE_TBL_KEYW q t)),
    result := d.f (F.SIEVE_UVAL_VALUE q) }

/-- Put an update's result into the CAM with its counts. -/
def Dev.camApply (d : Dev) (q t : Nat) (r : CamRes) : Dev :=
  let d1 := ((d.setCam q r.cam).tblShow q t).bump (F.SIEVE_CNT_COUNT q 4) 0x15C q r.writes
  if r.status = 1 then d1.bump (F.SIEVE_CNT_COUNT q 5) 0x15D q 1 else d1

/-- A write to SIEVE_UCMD that starts operation `op` (R269): no effect while BUSY. The checks come in the order table
enabled, operation valid for the class, INDEX in the table. -/
def Dev.camStart (d : Dev) (q op t index : Nat) (replace classOk usesIndex : Bool) (f : List (Nat × CamEnt) → CamRes) : Dev :=
  if ¬d.quadOk q ∨ 256 ≤ t ∨ d.flag (F.SIEVE_URES_BUSY q) then d
  else
    let d1 := (((d.setF (F.SIEVE_UCMD_OP q) op).setF (F.SIEVE_UCMD_REPLACE q) (Bool.nat replace)).setF
      (F.SIEVE_UCMD_TABLE q) t).setF (F.SIEVE_UCMD_INDEX q) index
    let d2 := d1.setF (F.SIEVE_URES_BUSY q) 1
    let cam := (d2.sieve q).cam
    let bad (s : Nat) : CamRes := { status := s, index := none, cam := cam, writes := 0 }
    let r := if ¬d.tblEn q t then bad 3 else if ¬classOk then bad 4 else if usesIndex && !d.tblIn q t index then bad 2 else f cam
    let d3 := d2.camApply q t r
    d3.setSieve q { d3.sieve q with upd := some (r.status, r.index.getD (d.f (F.SIEVE_URES_INDEX q))) }

/-- CAM_WRITE (R269): UCMD WRITE writes the entry at INDEX with no shift. -/
def camWrite (q t index : Nat) (d : Dev) : Dev :=
  d.camStart q 0 t index false true true (fun cam =>
    { status := 0, index := some index, cam := AMap.put index (d.camEntry q t) cam, writes := 1 })

def execCamWrite (q t index : Nat) := run (camWrite q t index)

/-- INSERT_AT (R270): class A only. -/
def insertAt (q t index : Nat) (d : Dev) : Dev :=
  d.camStart q 1 t index false (d.f (F.SIEVE_TBL_CLASS q t) == 0) true (fun cam =>
    camInsertAt cam (d.tblBase q t) (d.tblSize q t) index (d.camEntry q t))

def execInsertAt (q t index : Nat) := run (insertAt q t index)

/-- INSERT_KEY (R271): class B only. -/
def insertKey (q t : Nat) (replace : Bool) (d : Dev) : Dev :=
  d.camStart q 2 t (d.f (F.SIEVE_UCMD_INDEX q)) replace (d.f (F.SIEVE_TBL_CLASS q t) == 1) false (fun cam =>
    camInsertKey cam (d.tblBase q t) (d.tblSize q t) (d.camEntry q t) replace)

def execInsertKey (q t : Nat) (replace : Bool) := run (insertKey q t replace)

/-- CAM_DELETE (R269 to R271). -/
def camDelete (q t index : Nat) (d : Dev) : Dev :=
  d.camStart q 3 t index false true true (fun cam =>
    camDeleteAt cam (d.tblBase q t) index (d.f (F.SIEVE_TBL_CLASS q t) == 1))

def execCamDelete (q t index : Nat) := run (camDelete q t index)

/-- Every entry of a table cleared. -/
def camCleared (cam : List (Nat × CamEnt)) (base size : Nat) : CamRes :=
  let keep := cam.filter (fun p => !(base ≤ p.1 && p.1 < base + size))
  { status := 0, index := none, cam := keep, writes := size }

/-- CLEAR_TABLE (R269). -/
def clearTable (q t : Nat) (d : Dev) : Dev :=
  d.camStart q 4 t (d.f (F.SIEVE_UCMD_INDEX q)) false true false (fun cam =>
    camCleared cam (d.tblBase q t) (d.tblSize q t))

def execClearTable (q t : Nat) := run (clearTable q t)

/-- UPDATE_DONE (R269): the update's writes finish. -/
def updateDone (q : Nat) (d : Dev) : Dev :=
  match (d.sieve q).upd with
  | none => d
  | some (st, i) =>
    let d1 := d.setSieve q { d.sieve q with upd := none }
    let d2 := (((d1.setF (F.SIEVE_URES_BUSY q) 0).setF (F.SIEVE_URES_DONE q) 1).setF (F.SIEVE_URES_STATUS q) st).setF
      (F.SIEVE_URES_INDEX q) i
    let d3 := if st = 1 then d2.raise (quadEvent q 3 2) noPlot [] else d2
    d3.raise (quadEvent q 3 3) noPlot []

def execUpdateDone (q : Nat) := run (updateDone q)

/-- The table a job of INDEX_BUILD or INDEX_LOOKUP names: `q * 256 + t` (R267, R232). -/
def Job.table (j : Job) : Option Nat :=
  if j.desc.prog = 7 then some (j.par 1024 2) else if j.desc.prog = 8 then some (j.par 64 2) else none

/-- Does a job use table `t` of quadrant `q`? -/
def Dev.tblUsed (d : Dev) (q t : Nat) : Bool :=
  (List.range 4).any (fun x => (d.jobs x).any (fun j => j.table == some (256 * q + t)))

/-- Do the ranges of two tables of a quadrant overlap? -/
def Dev.tblOverlap (d : Dev) (q t u : Nat) : Bool :=
  decide (d.tblBase q t < d.tblBase q u + d.tblSize q u ∧ d.tblBase q u < d.tblBase q t + d.tblSize q t)

/-- May table `t` be enabled (SIEVE_TBL.EN, R267)? -/
def Dev.tblFit (d : Dev) (q t : Nat) : Bool :=
  let b := d.tblBase q t
  let n := d.tblSize q t
  let k := d.f (F.SIEVE_TBL_KEYW q t)
  decide (b % 16 = 0 ∧ n % 16 = 0 ∧ 16 ≤ n ∧ n ≤ 65536 ∧ b + n ≤ 65536 ∧ 1 ≤ k ∧ k ≤ 20) &&
  (List.range 256).all (fun u => u == t || !d.tblEn q u || !d.tblOverlap q t u)

/-- SIEVE_TBL_WRITE (R267): a 64-bit write to a table descriptor. Clearing EN takes effect once no job uses the table. -/
def sieveTblWrite (q t value : Nat) (d : Dev) : Dev :=
  if ¬d.quadOk q ∨ 256 ≤ t then d
  else if d.tblEn q t then
    if bit value 63 then d
    else if d.tblUsed q t then
      d.setSieve q { d.sieve q with closing := NSet.add t (d.sieve q).closing }
    else d.setF (F.SIEVE_TBL_EN q t) 0
  else
    let d1 := ((((d.setF (F.SIEVE_TBL_BASE q t) (bits value 0 16)).setF (F.SIEVE_TBL_SIZE q t) (bits value 16 17)).setF
      (F.SIEVE_TBL_CLASS q t) (bits value 33 1)).setF (F.SIEVE_TBL_KEYW q t) (bits value 34 5)).setF
        (F.SIEVE_TBL_PLOT q t) (bits value 40 9)
    if bit value 63 && d1.tblFit q t then (d1.setF (F.SIEVE_TBL_EN q t) 1).tblShow q t else d1

def execSieveTblWrite (q t value : Nat) := run (sieveTblWrite q t value)

/-- Tables whose EN is to clear, once their jobs have ended. -/
def Dev.tblSweep (d : Dev) : Dev :=
  (List.range 4).foldl (fun (e : Dev) q =>
    let x := e.sieve q
    x.closing.foldl (fun (e1 : Dev) t =>
      if e1.tblUsed q t then e1
      else (e1.setF (F.SIEVE_TBL_EN q t) 0).setSieve q { e1.sieve q with closing := NSet.del t (e1.sieve q).closing }) e) d

end Sys2Proof.Machine
end

