-- ==== Sys2Proof/Machine/Skim.lean ====
section
/-! DEFINITION. Skim (chapter 9, R222 to R231): the Skim program, the cutting of a unit into records, predicates, terms,
output batches, and the meanings of SKIM_UNIT and SKIM_REBIND. SCAN_REGEX's matches (R234) and INDEX_BUILD's inserts
(R273), which follow the filter unit by unit, are made here too. -/

namespace Sys2Proof.Machine

/-! ### The program (R226 to R229) -/

/-- `n` bytes at offset `o`, little-endian. -/
def field (b : List Byte) (o n : Nat) : Nat := leNat ((b.drop o).take n)

/-- Are the bytes `o` to `o + n - 1` zero? -/
def zeroAt (b : List Byte) (o n : Nat) : Bool := ((b.drop o).take n).all (fun x => x == 0#8)

/-- May a column have this width and type (R227)? -/
def colOk (mode : Nat) (c : Nat × Nat × Nat) : Bool :=
  let w := c.2.1
  let delim := mode == 2
  (decide (w ≤ 4096)) && (decide (1 ≤ w) || delim) && (!delim || decide (c.1 ≤ 255)) &&
  (match c.2.2 with
    | 0 | 1 | 2 | 3 => w == 1 || w == 2 || w == 4 || w == 8
    | 4 => w == 4 || w == 8
    | 5 => decide (1 ≤ w ∧ w ≤ 9)
    | 6 => true
    | 7 => delim
    | _ => false)

/-- May a predicate have this operator on its column's type (R228)? -/
def predOk (ncols : Nat) (cols : List (Nat × Nat × Nat)) (p : Nat × Nat × Nat × Nat × Nat) : Bool :=
  let ty := (cols.getD p.1 (0, 0, 6)).2.2
  decide (p.1 < ncols) &&
  (match p.2.1 with
    | 0 | 1 | 2 | 3 | 4 | 5 => ty != 6 || decide (1 ≤ p.2.2.1 ∧ p.2.2.1 ≤ 16)
    | 6 => ty != 6
    | 7 => ty == 6 && decide (1 ≤ p.2.2.1 ∧ p.2.2.1 ≤ 16)
    | 8 => decide (ty ≤ 3)
    | _ => false)

/-- The 960 bytes of a Skim program; `none` where a range or width is broken (R226). -/
def skimOf (b : List Byte) : Option SkimProg :=
  let g (o : Nat) : Nat := field b o 1
  let mode := g 0
  let ncols := g 6
  let npred := g 7
  let nterms := g 8
  let cols := (List.range ncols).map (fun i => (field b (16 + 8 * i) 2, field b (18 + 8 * i) 2, g (20 + 8 * i)))
  let preds := (List.range npred).map (fun i => (g (528 + 24 * i), g (529 + 24 * i), g (530 + 24 * i),
    field b (536 + 24 * i) 8, field b (544 + 24 * i) 8))
  let p : SkimProg :=
    { mode := mode, align := g 1, reclen := field b 2 2, p4 := g 4, p5 := g 5, ncols := ncols, npred := npred,
      nterms := nterms, projmode := g 9, cols := cols, preds := preds,
      terms := (List.range nterms).map (fun i => (field b (912 + 4 * i) 2, field b (914 + 4 * i) 2)),
      colmask := field b 944 8, recref := g 952 == 1 }
  if decide (960 ≤ b.length) && decide (mode ≤ 2) && decide (p.align ≤ 4) &&
      (if mode = 0 then decide (4 ≤ p.reclen ∧ p.reclen ≤ 4096) else p.reclen == 0) &&
      (mode != 1 || ((p.p4 == 1 || p.p4 == 2 || p.p4 == 4) && decide (p.p5 < 4))) &&
      decide (1 ≤ ncols ∧ ncols ≤ 64) && decide (npred ≤ 16) && decide (nterms ≤ 8) && decide (p.projmode ≤ 1) &&
      zeroAt b 10 6 && cols.all (colOk mode) && preds.all (predOk ncols cols) &&
      (List.range ncols).all (fun i => zeroAt b (21 + 8 * i) 3) &&
      (List.range npred).all (fun i => zeroAt b (531 + 24 * i) 5) &&
      p.colmask < 2 ^ ncols && decide (g 952 ≤ 1) && zeroAt b 953 7 then some p
  else none

/-- Bytes of a unit (R225). -/
def SkimProg.unit (p : SkimProg) : Nat := 4096 * 2 ^ p.align

/-! ### Records (R225, R228, R231) -/

/-- What a unit's parse yields at a place: a record, a long one that is skipped, the poisoned rest of the unit. -/
inductive Piece where
  | record (o n : Nat)
  | long
  | rest (o n : Nat)
  deriving DecidableEq, Repr

/-- Does a byte of `o .. o + n - 1` lie in a poisoned 64-byte group? -/
def poisonIn (poison : List Nat) (o n : Nat) : Bool := poison.any (fun g => decide (64 * g < o + n ∧ o < 64 * g + 64))

/-- FIXED records. -/
def cutFixed (n reclen : Nat) : List Piece := (List.range (n / reclen)).map (fun i => .record (i * reclen) reclen)

/-- LENPFX records from place `o`; `fuel` bounds the number of records. -/
def cutPfx (u : List Byte) (poison : List Nat) (w : Nat) (counted big : Bool) : Nat → Nat → List Piece
  | 0, _ => []
  | k + 1, o =>
    let n := u.length
    if n < o + w then []
    else if poisonIn poison o w then [.rest o (n - o)]
    else
      let bs := (u.drop o).take w
      let len := if big then leNat bs.reverse else leNat bs
      let size := if counted then len else len + w
      if len = 0 ∨ size < w then []
      else if n < o + size then [.long]
      else (if 4096 < size then .long else .record o size) :: cutPfx u poison w counted big k (o + size)

/-- The place of the first record delimiter from `o` up. -/
def findByte (u : List Byte) (c : Nat) (o : Nat) : Option Nat :=
  ((u.drop o).findIdx? (fun b => b.toNat == c)).map (fun i => o + i)

/-- DELIM records from place `o`. -/
def cutDelim (u : List Byte) (poison : List Nat) (c : Nat) : Nat → Nat → List Piece
  | 0, _ => []
  | k + 1, o =>
    let n := u.length
    if n ≤ o then []
    else if u.getD o 0#8 = 0#8 ∧ ¬poisonIn poison o 1 then []
    else match findByte u c o with
      | none => if 4096 < n - o then [.long] else [.record o (n - o)]
      | some e =>
        if poisonIn poison e 1 then [.rest o (n - o)]
        else (if 4096 < e - o then .long else .record o (e - o)) :: cutDelim u poison c k (e + 1)

/-- The pieces of a unit. -/
def SkimProg.cut (p : SkimProg) (u : List Byte) (poison : List Nat) : List Piece :=
  match p.mode with
  | 0 => cutFixed u.length p.reclen
  | 1 => cutPfx u poison p.p4 (bit p.p5 0) (bit p.p5 1) (u.length + 1) 0
  | _ => cutDelim u poison p.p4 (u.length + 1) 0

/-- The fields of a DELIM record as (offset in the record, length). -/
def splitFields (sep : Nat) (r : List Byte) (o : Nat) : Nat → List (Nat × Nat)
  | 0 => []
  | k + 1 =>
    match findByte r sep o with
    | none => [(o, r.length - o)]
    | some e => (o, e - o) :: splitFields sep r (e + 1) k

/-- Where column `i` lies in a record, as (offset, length); `none` where it is absent. -/
def SkimProg.span (p : SkimProg) (r : List Byte) (i : Nat) : Option (Nat × Nat) :=
  let c := p.cols.getD i (0, 0, 6)
  if p.mode = 2 then
    match (splitFields p.p5 r 0 (r.length + 1))[c.1]? with
    | none => none
    | some f => if c.2.1 = 0 then some f else if c.2.1 ≤ f.2 then some (f.1, c.2.1) else none
  else if c.1 + c.2.1 ≤ r.length then some (c.1, c.2.1) else none

/-! ### Values and predicates (R227 to R229) -/

/-- A `w`-bit number as two's complement. -/
def signedOf (w n : Nat) : Int := if n < 2 ^ (w - 1) then (n : Int) else (n : Int) - 2 ^ w

/-- A packed decimal: digits from the first byte, the sign in the low nibble of the last (R227). -/
def bcdOf (b : List Byte) : Option Int :=
  let nib := b.flatMap (fun x => [x.toNat / 16, x.toNat % 16])
  let digits := nib.dropLast
  let v : Int := (digits.foldl (fun n x => 10 * n + x) 0 : Nat)
  if digits.all (fun x => decide (x ≤ 9)) then
    match nib.getLast? with
    | some 0xA | some 0xC | some 0xE | some 0xF => some v
    | some 0xB | some 0xD => some (-v)
    | _ => none
  else none

/-- An ASCII integer: optional sign, 1 to 18 digits, spaces around it ignored (R227). -/
def asciiOf (b : List Byte) : Option Int :=
  let t := ((b.map BitVec.toNat).dropWhile (fun x => x == 0x20)).reverse.dropWhile (fun x => x == 0x20) |>.reverse
  let body := match t with
    | 0x2B :: r => r
    | 0x2D :: r => r
    | r => r
  let v : Int := (body.foldl (fun n x => 10 * n + (x - 0x30)) 0 : Nat)
  if 1 ≤ body.length ∧ body.length ≤ 18 ∧ body.all (fun x => decide (0x30 ≤ x ∧ x ≤ 0x39)) then
    some (if t.head? = some 0x2D then -v else v)
  else none

/-- A binary32 (`e` 8, `m` 23) or binary64 (11, 52) number as an integer scaled by 2^1074, an infinity as a number
beyond every finite one; `none` for a NaN. -/
def floatOf (e m n : Nat) : Option Int :=
  let man := n % 2 ^ m
  let ex := n / 2 ^ m % 2 ^ e
  let bias := 2 ^ (e - 1) - 1
  let mag : Option Nat :=
    if ex = 2 ^ e - 1 then (if man = 0 then some (2 ^ 2200) else none)
    else if ex = 0 then some (man * 2 ^ (1074 + 1 - bias - m))
    else some ((2 ^ m + man) * 2 ^ (1074 + ex - bias - m))
  mag.map (fun v => if n / 2 ^ (e + m) % 2 = 1 then -(v : Int) else (v : Int))

/-- What a predicate finds of its column: a bad field, or whether it is true. -/
inductive PredRes where
  | bad
  | val (b : Bool)
  deriving DecidableEq, Repr

/-- The comparison operators on ordered values. -/
def ordOp (op : Nat) (x a b : Int) : Bool :=
  match op with
  | 0 => x == a
  | 1 => x != a
  | 2 => decide (x < a)
  | 3 => decide (x ≤ a)
  | 4 => decide (a < x)
  | 5 => decide (a ≤ x)
  | 6 => decide (a ≤ x ∧ x ≤ b)
  | _ => false

/-- The FLOAT operators: a NaN makes all but NE false. -/
def floatOp (op : Nat) (x a b : Option Int) : Bool :=
  match x, a with
  | some v, some w =>
    if op = 6 then (match b with
      | some z => decide (w ≤ v ∧ v ≤ z)
      | none => false)
    else ordOp op v w 0
  | _, _ => op == 1

/-- Lexicographic order of byte strings, shorter first: -1, 0 or 1. -/
def lexCmp : List Byte → List Byte → Int
  | [], [] => 0
  | [], _ :: _ => -1
  | _ :: _, [] => 1
  | x :: s, y :: t => if x.toNat < y.toNat then -1 else if y.toNat < x.toNat then 1 else lexCmp s t

/-- The BYTES operators against the first LEN bytes of the constant. -/
def bytesOp (op : Nat) (x c : List Byte) : Bool :=
  match op with
  | 0 => x == c
  | 1 => x != c
  | 7 => x.take c.length == c
  | _ => ordOp op (lexCmp x c) 0 0

/-- A predicate on the bytes of its column (R228). -/
def evalPred (ty op len a b : Nat) (x : List Byte) : PredRes :=
  let w := 8 * x.length
  let int (v : Int) (sg : Bool) : PredRes :=
    let u (n : Nat) : Int := if sg then signedOf 64 n else (n : Int)
    if op = 8 then .val (((v % 2 ^ 64).toNat &&& b) == a) else .val (ordOp op v (u a) (u b))
  match ty with
  | 0 => int (leNat x : Nat) false
  | 1 => int (leNat x.reverse : Nat) false
  | 2 => int (signedOf w (leNat x)) true
  | 3 => int (signedOf w (leNat x.reverse)) true
  | 4 => .val (floatOp op (if x.length = 4 then floatOf 8 23 (leNat x) else floatOf 11 52 (leNat x)) (floatOf 11 52 a)
      (floatOf 11 52 b))
  | 5 => match bcdOf x with
    | some v => int v true
    | none => .bad
  | 6 => .val (bytesOp op x ((leBytes 8 a ++ leBytes 8 b).take len))
  | _ => match asciiOf x with
    | some v => int v true
    | none => .bad

/-- What the filter finds of one record: passes, poisoned without evaluation, bad fields, short. -/
structure RecRes where
  pass : Bool
  poisoned : Bool
  bad : Nat
  short : Bool

/-- Evaluate a record that starts at `o` of its unit (R228, R229, R231). -/
def SkimProg.eval (p : SkimProg) (r : List Byte) (poison : List Nat) (o : Nat) : RecRes :=
  let cols := (p.preds.map Prod.fst).eraseDups
  let spans := cols.map (fun c => (c, p.span r c))
  if spans.any (fun s => match s.2 with
      | some x => decide (0 < x.2) && poisonIn poison (o + x.1) x.2
      | none => false) then { pass := true, poisoned := true, bad := 0, short := false }
  else
    let res := p.preds.map (fun q => match p.span r q.1 with
      | none => (q.1, none)
      | some x => (q.1, some (evalPred (p.cols.getD q.1 (0, 0, 6)).2.2 q.2.1 q.2.2.1 q.2.2.2.1 q.2.2.2.2
          ((r.drop x.1).take x.2))))
    let vec := (res.zipIdx.map (fun x => match x.1.2 with
      | some (.val true) => 2 ^ x.2
      | _ => 0)).sum
    { pass := p.nterms == 0 || p.terms.any (fun t => (vec &&& t.1) == (t.2 &&& t.1))
      poisoned := false
      bad := ((res.filter (fun x => x.2 == some PredRes.bad)).map Prod.fst).eraseDups.length
      short := res.any (fun x => x.2.isNone) }

/-! ### Output (R230) -/

/-- One output record: its bytes, each with whether it comes from a poisoned input byte. -/
abbrev OutRec := List (Byte × Bool)

/-- Bytes of the unit from `o`, marked. -/
def marked (u : List Byte) (poison : List Nat) (o n : Nat) : OutRec :=
  ((u.drop o).take n).zipIdx.map (fun x => (x.1, poisonIn poison (o + x.2) 1))

def clean (bs : List Byte) : OutRec := bs.map (fun b => (b, false))

/-- The output record of a record at `o` of length `n` (R230). -/
def SkimProg.out (p : SkimProg) (whole : Bool) (u : List Byte) (poison : List Nat) (unitOff o n : Nat) : OutRec :=
  let r := (u.drop o).take n
  let ref := if p.recref then clean (leBytes 8 (unitOff + o)) else []
  let col (i : Nat) : OutRec :=
    let w := (p.cols.getD i (0, 0, 6)).2.1
    let var := p.mode == 2 || w == 0
    match p.span r i with
    | none => if var then clean [0#8, 0#8] else clean (List.replicate w 0#8)
    | some x => (if var then clean (leBytes 2 x.2) else []) ++ marked u poison (o + x.1) x.2
  ref ++ (if whole || p.projmode == 1 then marked u poison o n
    else ((List.range p.ncols).filter (bit p.colmask)).flatMap col)

/-- The batch of a unit's output records (R230); `none` with no survivors. -/
def batchOf (recs : List OutRec) (unitOff src : Nat) (untrusted : Bool) : Option OutBatch :=
  match recs with
  | [] => none
  | r0 :: _ =>
    let same := recs.all (fun r => r.length == r0.length)
    let body : OutRec := if same then recs.flatten else recs.flatMap (fun r => clean (leBytes 2 r.length) ++ r)
    let n := 16 + body.length
    let len := 8 * ceilDiv n 8
    let pois := body.any Prod.snd
    let head := leBytes 4 len ++ leBytes 2 recs.length ++ leBytes 1 (Bool.nat pois + 2 * Bool.nat untrusted) ++
      leBytes 1 src ++ leBytes 6 unitOff ++ leBytes 2 (if same then r0.length else 0)
    let all : OutRec := clean head ++ body ++ clean (List.replicate (len - n) 0#8)
    some { unitOff := unitOff, bytes := all.map Prod.fst,
           poison := (List.range (ceilDiv len 64)).filter (fun g => ((all.drop (64 * g)).take 64).any Prod.snd),
           untrusted := untrusted, fresh := true }

/-! ### The unit (R222 to R225) -/

/-- How a unit's parse goes on: the job, the part, the output records so far. -/
structure UnitRun where
  job : Job
  dev : Dev
  recs : List OutRec

/-- Add to a Skim counter. -/
def Dev.skimCount (d : Dev) (q k n : Nat) : Dev := d.bump (F.SKIM_CNT_COUNT q k) (0x148 + k) q n

/-- A key of INDEX_BUILD goes to its table's quadrant (R273). -/
def Dev.indexKey (d : Dev) (j : Job) (key : OutRec) (ref : Nat) (untrusted : Bool) : Job × Dev :=
  let tb := j.par 1024 2
  let tq := tb / 256
  let t := tb % 256
  let refused (x : Job) : Job := { x with sum := { x.sum with shorts := x.sum.shorts + 1 } }
  let kw := d.f (F.SIEVE_TBL_KEYW tq t)
  if key.any Prod.snd then (refused (j.note .poison), d)
  else if untrusted then (refused (j.note .authFail), d)
  else if kw < key.length then (refused j, d)
  else
    let e : CamEnt := { value := leNat (key.map Prod.fst), mask := 2 ^ (8 * kw) - 1, result := ref }
    let cam := (d.sieve tq).cam
    let r := camInsertKey cam (d.tblBase tq t) (d.tblSize tq t) e (bit (j.par 1026 1) 0)
    let d1 := d.camApply tq t r
    if r.status = 1 then (refused j, d1.raise (quadEvent tq 3 2) noPlot [])
    else if r.cam.length = cam.length then ({ j with sum := { j.sum with badFields := j.sum.badFields + 1 } }, d1)
    else ({ j with sum := { j.sum with passed := j.sum.passed + 1 } }, d1)

/-- The field SCAN_REGEX matches in: column COL, or the whole record (R259). -/
def SkimProg.rxField (p : SkimProg) (col : Nat) (r : List Byte) : Option (Nat × Nat) :=
  if col = 0xFF then some (0, r.length) else p.span r col

/-- Match reports of one record as output records (R234). -/
def rxReports (unitOff o base : Nat) (rs : List (Nat × Nat)) : List OutRec :=
  rs.map (fun x => clean (leBytes 8 (unitOff + o) ++ leBytes 4 x.1 ++ leBytes 4 (base + x.2)))

/-- A record that passed the terms of a SCAN_REGEX meets the image (R234, R259, R264, R265). -/
def UnitRun.regex (a : UnitRun) (q : Nat) (p : SkimProg) (u : List Byte) (poison : List Nat) (unitOff o n : Nat) :
    UnitRun :=
  let j := a.job
  let emit := j.par 1029 1 == 1
  let r := (u.drop o).take n
  match p.rxField (j.par 1028 1) r, a.dev.image? j.desc.plot (j.par 1024 4) with
  | some f, some m =>
    let whole := p.out true u poison unitOff o n
    if poisonIn poison (o + f.1) f.2 ∧ 0 < f.2 then
      let first := ((List.range n).find? (fun i => poisonIn poison (o + i) 1)).getD 0
      let rep : OutRec := (clean (leBytes 8 (unitOff + o) ++ leBytes 4 0xFFFFFFFF ++ leBytes 4 first)).map (fun x => (x.1, true))
      let j1 := (j.note .poison)
      { a with job := { j1 with sum := { j1.sum with passed := j1.sum.passed + 1, poisoned := j1.sum.poisoned + 1 } },
               recs := a.recs ++ [if emit then rep else whole] }
    else
      let over_ := (a.dev.sieve q).resident.any (fun x => x.2.1 == m.key && decide (x.2.2 < m.dtiles))
      let d0 := a.dev.bump (F.SIEVE_CNT_COUNT q 0) 0x158 q f.2
      let d1 := if over_ then d0.draw.2.bump (F.SIEVE_CNT_COUNT q 6) 0x15E q (Config.tileFetches d0.draw.1) else d0
      let all := m.reports ((r.drop f.1).take f.2)
      let recMax := d1.f (F.SIEVE_CFG_RECMAX q)
      let maxRep := j.par 1032 8
      let room := if maxRep = 0 then all.length else maxRep - j.reports
      let kept := (all.take recMax).take room
      let limit := decide (recMax ≤ all.length) || (maxRep != 0 && decide (maxRep ≤ j.reports + kept.length))
      let d2 := d1.bump (F.SIEVE_CNT_COUNT q 1) 0x159 q kept.length
      if all.isEmpty then { a with dev := d2 }
      else
        let j1 : Job := { j with sum := { j.sum with passed := j.sum.passed + 1 }, reports := j.reports + kept.length }
        let recs := a.recs ++ (if emit then rxReports unitOff o f.1 kept else [whole])
        if limit then { job := j1.note .matchLimit, dev := d2.raise (quadEvent q 3 1) noPlot [], recs := recs }
        else { job := j1, dev := d2, recs := recs }
  | _, _ => a

/-- One piece of a unit. -/
def UnitRun.piece (a : UnitRun) (q un : Nat) (p : SkimProg) (u : List Byte) (poison : List Nat) (untrusted : Bool)
    (unitOff : Nat) (x : Piece) : UnitRun :=
  if a.job.conds.contains .matchLimit then a
  else match x with
  | .long =>
    let j := a.job.note .recordLong
    { a with job := { j with sum := { j.sum with seen := j.sum.seen + 1, longs := j.sum.longs + 1 } },
             dev := ((a.dev.skimCount q 0 1).skimCount q 4 1).raise (quadEvent q 0 0) noPlot [] }
  | .rest o n =>
    let j := a.job.note .poison
    let s := j.sum
    { job := { j with sum := { s with seen := s.seen + 1, passed := s.passed + 1, poisoned := s.poisoned + 1 } },
      dev := (((a.dev.skimCount q 0 1).skimCount q 1 1).skimCount q 5 1).raise (quadEvent q 0 1) noPlot [],
      recs := a.recs ++ [(p.out true u poison unitOff o n).map (fun b => (b.1, true))] }
  | .record o n =>
    let r := (u.drop o).take n
    let e := p.eval r poison o
    let s := a.job.sum
    let s1 := { s with seen := s.seen + 1, badFields := s.badFields + e.bad, shorts := s.shorts + Bool.nat e.short }
    let s2 := if a.job.desc.prog = 7 then { s with seen := s.seen + 1 } else s1
    let d1 := ((a.dev.skimCount q 0 1).skimCount q 2 e.bad).skimCount q 3 (Bool.nat e.short)
    let d2 := if 0 < e.bad then d1.raise (quadEvent q 0 2) noPlot [un] else d1
    let j1 := { a.job with sum := s2 }
    if ¬e.pass then { a with job := j1, dev := d2 }
    else
      let d3 := d2.skimCount q 1 1
      let d4 := if e.poisoned then (d3.skimCount q 5 1).raise (quadEvent q 0 1) noPlot [] else d3
      let j2 := if e.poisoned then { j1.note .poison with sum := { j1.sum with poisoned := j1.sum.poisoned + 1 } } else j1
      let b := { a with job := j2, dev := d4 }
      match a.job.desc.prog with
      | 2 => b.regex q p u poison unitOff o n
      | 7 =>
        let k := d4.indexKey j2 (p.out false u poison unitOff o n) (unitOff + o) untrusted
        { b with job := k.1, dev := k.2 }
      | _ =>
        let out := p.out false u poison unitOff o n
        let j3 : Job := { j2 with sum := { j2.sum with passed := j2.sum.passed + 1 } }
        { b with job := if out.any Prod.snd then j3.note .poison else j3, recs := b.recs ++ [out] }

/-! ### Units in flight (R236) -/

/-- One more unit is done: `low`, below which all are, and those at or above it. -/
def unitsMark (unit low : Nat) (l : List Nat) (o : Nat) : Nat × List Nat :=
  let l1 := l ++ [o]
  let low1 := (List.range l1.length).foldl (fun x _ => if l1.contains x then x + unit else x) low
  (low1, l1.filter (fun x => decide (low1 ≤ x)))

/-- The units that the jobs of a command, or a job alone, have done: `low` and those above it. -/
def Dev.unitsDone (d : Dev) (j : Job) : Nat × List Nat :=
  let r := match d.jobCmd? j with
    | some c => (c.low, c.units)
    | none => (j.low, j.units)
  (max r.1 (if j.desc.resume then j.desc.token else 0), r.2)

/-- Input units start in ascending order, at most 256 in flight for each job: may the one at `o` be at work? -/
def Dev.unitInFlight (d : Dev) (q : Nat) (j : Job) (unit o : Nat) : Bool :=
  let r := d.unitsDone j
  let before := (r.2.filter (fun x => decide (x < o))).length
  decide (r.1 ≤ o) && !r.2.contains o && decide ((o - r.1) / unit - before < 256 * (d.group q j).length) && decide (j.batches.length < 256)

/-- The unit at `o` is done. -/
def Dev.unitDone (d : Dev) (j : Job) (unit o : Nat) : Job × Dev :=
  let r := d.unitsDone j
  let m := unitsMark unit r.1 r.2 o
  ({ j with low := m.1, units := m.2 }, match d.jobCmd? j with
    | some c => d.setCmd { c with low := m.1, units := m.2 }
    | none => d)

/-! ### Contexts (R222) -/

/-- The name of a job in a unit's contexts. -/
def skimName (q slot : Nat) : Nat := 2 ^ 17 * q + slot

/-- The jobs whose context a Skim unit holds. -/
def Dev.skimJobs (d : Dev) (q u : Nat) : List Nat := AMap.get [] (8 * q + u) d.trel.skimCtx

def Dev.setSkimJobs (d : Dev) (q u : Nat) (js : List Nat) : Dev :=
  ({ d with trel := { d.trel with skimCtx := AMap.set [] (8 * q + u) js d.trel.skimCtx } }).setF (F.SKIM_BIND_CTX q u)
    js.length

/-- A job takes one of the 4 contexts of unit `u` of quadrant `q` (R222). -/
def Dev.skimTake (d : Dev) (q u name : Nat) : Option Dev :=
  let js := d.skimJobs q u
  if js.contains name then some d else if 4 ≤ js.length then none else some (d.setSkimJobs q u (js ++ [name]))

/-- A job leaves every context it holds. -/
def Dev.skimFree (d : Dev) (name : Nat) : Dev :=
  (List.range 32).foldl (fun (e : Dev) i =>
    if (e.skimJobs (i / 8) (i % 8)).contains name then
      e.setSkimJobs (i / 8) (i % 8) ((e.skimJobs (i / 8) (i % 8)).filter (fun s => s != name))
    else e) d

/-- An input unit of a Skim program: its bytes, its poisoned 64-byte groups, whether all its IUs are unmapped or zeros (R225), the channel
its flash data lay in or 0xFF (R230), and whether it may be filtered in channel position (R223). -/
structure SkimIn where
  data : List Byte
  poison : List Nat
  unmapped : Bool
  src : Nat
  onChannel : Bool

/-- The unit of `n` bytes at `o` of a job's input, as it lies in SLM or in a namespace whose data this member holds; of a cluster namespace
it is what has come in, `given`. -/
def Dev.skimIn (d : Dev) (q un : Nat) (j : Job) (o n : Nat) (given : SkimIn) : SkimIn :=
  match d.inputAt j o n with
  | none => { given with onChannel := false }
  | some r =>
    let marks := (List.range (ceilDiv n 64)).filter (fun g => ((r.drop (64 * g)).take 64).any Prod.snd)
    let c : SkimIn := { data := r.map Prod.fst, poison := (given.poison ++ marks).eraseDups, unmapped := false, src := 0xFF, onChannel := false }
    match (if j.desc.nsid = 0 then none else d.ns? j.desc.nsid) with
    | none => c
    | some x =>
      let a := j.desc.instart * lbaBytes x.lbaf + o
      let es := (List.range ((a + n - 1) / x.iuBytes + 1 - a / x.iuBytes)).map (fun i => d.entry? x.nsid (a / x.iuBytes + i))
      let ch := dieChan (locDie (es.headD 0 % 2 ^ 38))
      let flash := es.all (fun e => entryType e == 1)
      if x.cluster.isSome then c
      else { c with
        unmapped := es.all (fun e => e == 0 || e == zerosEntry)
        src := if entryType (es.headD 0) = 1 then ch else 0xFF
        onChannel := flash && x.comp == 0 && decide (n ≤ x.iuBytes) && ch == un && un / 8 == q }

/-- SKIM_UNIT (R223 to R231): Skim unit `un % 8` of quadrant `un / 8` filters the input unit at `unitOff` for a job of quadrant `q`. `channel`
says that it does so in channel position, on a unit of the job's quadrant; else any lent unit may. `untrusted` says that the unit came in
untrusted, `poison` which 64-byte groups came in poisoned. `data`, `unmapped` and `src` tell of a unit whose data other members of the
cluster hold; under the fenced condition the job ends there (R235). -/
def skimUnit (q un slot unitOff : Nat) (data : List Byte) (poison : List Nat) (untrusted unmapped channel : Bool)
    (src : Nat) (d : Dev) : Dev :=
  match d.job? q slot with
  | none => d
  | some j =>
    match j.skim with
    | none => d
    | some p =>
      let uq := un / 8
      let u := d.skimIn q un j unitOff p.unit
        { data := data, poison := poison, unmapped := unmapped, src := src, onChannel := false }
      let place := d.f (F.SKIM_BIND_MODE uq (un % 8)) == (if channel then 0 else 1) && (!channel || (u.onChannel && uq == q))
      if ¬d.quadOk q ∨ ¬d.quadOk uq ∨ ¬place ∨ (channel && j.desc.late) ∨ j.ending ∨ unitOff % p.unit ≠ 0 ∨
          j.desc.inlen < unitOff + p.unit ∨ ¬d.unitInFlight q j p.unit unitOff then d
      else if d.fencedInput j unitOff p.unit then d.setJob q (j.note .fenced)
      else if ¬u.unmapped ∧ u.data.length ≠ p.unit then d
      else match d.skimTake uq (un % 8) (skimName q slot) with
        | none => d
        | some d0 =>
          let dn := d0.unitDone j p.unit unitOff
          let d1 := dn.2
          let j1 : Job := { dn.1 with inBytes := j.inBytes + p.unit }
          if u.unmapped then d1.setJob q { j1 with sum := { j1.sum with unmapped := j1.sum.unmapped + 1 } }
          else
            let d2 := d1.skimCount uq (if channel then 6 else 7) 1
            let a := (p.cut u.data u.poison).foldl (fun (x : UnitRun) y => x.piece uq un p u.data u.poison untrusted unitOff y)
              { job := j1, dev := d2, recs := [] }
            match batchOf a.recs unitOff u.src untrusted with
            | none => a.dev.setJob q a.job
            | some b => a.dev.setJob q { a.job with batches := a.job.batches ++ [b] }

def execSkimUnit (q un slot unitOff : Nat) (data : List Byte) (poison : List Nat) (untrusted unmapped channel : Bool)
    (src : Nat) := run (skimUnit q un slot unitOff data poison untrusted unmapped channel src)

/-- SKIM_REBIND (R222): the Trellis lends a unit or binds it back, only while none of its contexts is in use; a held unit is
never lent, a retired one stays retired. -/
def skimRebind (q u : Nat) (lent : Bool) (d : Dev) : Dev :=
  if ¬d.quadOk q ∨ 8 ≤ u ∨ d.f (F.SKIM_BIND_MODE q u) = 2 ∨ ¬(d.skimJobs q u).isEmpty ∨
      (lent && d.flag (F.SKIM_BIND_HOLD q u)) then d
  else d.setF (F.SKIM_BIND_MODE q u) (Bool.nat lent)

def execSkimRebind (q u : Nat) (lent : Bool) := run (skimRebind q u lent)

end Sys2Proof.Machine
end

