-- ==== Sys2Proof/Machine/Nodes.lean ====
section
/-! DEFINITION. What the engines of a fixed program make of its input: CHURN_C for COMPRESS_COPY (R244 to R246, R249 to R251), CHURN_D for
DECOMPRESS_COPY (R247 to R251), DGST for HASH_RANGE (R289, R292), CIPH for ENCRYPT_RANGE (R283, R285 to R289). The engine's output is a
list of output units, computed from the input that it has got; a curd that leaves it carries the next bytes of that output. The engines of
a downloadable program's pipelines have no parameter block: what leaves them is the operand of the curd (assumption 170). -/

namespace Sys2Proof.Machine

/-! ### Templates (R207, R208) -/

/-- Word 0 of a template: STAGES and URGMAX. -/
def tplStages (w : List Nat) : Nat := bits (w.getD 0 0) 8 8
def tplUrgMax (w : List Nat) : Nat := bits (w.getD 0 0) 24 8

/-- Node type, instance and outgoing credit of stage `i`. -/
def stageTy (w : List Nat) (i : Nat) : Nat := bits (w.getD (2 + i) 0) 0 8
def stageInst (w : List Nat) (i : Nat) : Nat := bits (w.getD (2 + i) 0) 8 4
def stageCred (w : List Nat) (i : Nat) : Nat := bits (w.getD (2 + i) 0) 16 6

/-- Is a node type consuming (R207)? -/
def consuming (ty : Nat) : Bool := decide (3 ≤ ty ∧ ty ≤ 9)

/-- Is a node type a sink? -/
def isSink (ty : Nat) : Bool := ty == 0x0B || ty == 0x0C || ty == 0x09 || ty == 0x0D

/-- The engine kind and pipe of a node type. -/
def nodeEngine (ty : Nat) : Option (Nat × Nat) :=
  match ty with
  | 4 => some (2, 0)
  | 5 => some (2, 1)
  | 6 => some (3, 0)
  | 7 => some (0, 0)
  | 8 => some (1, 0)
  | _ => none

/-- The node type that does the work of a fixed program which runs in order (R233). -/
def workTy (prog : Nat) : Nat :=
  match prog with
  | 3 => 4
  | 4 => 5
  | 5 => 8
  | 6 => 7
  | _ => 0

/-- The stage of a job that does so. -/
def Job.work? (j : Job) : Option Nat :=
  if workTy j.desc.prog = 0 then none
  else (List.range (tplStages j.words)).find? (fun i => stageTy j.words i == workTy j.desc.prog)

/-! ### The engine's output -/

/-- An output unit (R236): the bytes of it that are at hand, its whole length, the token once it has been written. -/
structure OutUnit where
  out : OutRec
  size : Nat
  upto : Nat

/-- Why an engine makes no more output before its input ends: a failed check at an input offset (R247), a poisoned flit there (R251), or a
message header that R286 refuses. -/
inductive Halt where
  | check (f : Finding) (off : Nat)
  | poison (off : Nat)
  | header
  deriving DecidableEq, Repr

/-- The output so far: its units, the halt after them, whether no unit is to follow, and the input bytes beyond the end of the format. -/
structure Product where
  units : List OutUnit
  halt : Option Halt
  done : Bool
  rest : Nat

def Product.none_ : Product := { units := [], halt := none, done := false, rest := 0 }

/-- The bytes, and whether one of them is poisoned. -/
def plain (r : OutRec) : List Byte := r.map Prod.fst
def foul (r : OutRec) : Bool := r.any Prod.snd

/-- Bytes that all carry one mark. -/
def all_ (p : Bool) (bs : List Byte) : OutRec := bs.map (fun b => (b, p))

/-- Numbers below 256 as bytes. -/
def ofNats (l : List Nat) : List Byte := l.map (fun n => BitVec.ofNat 8 n)

/-- `out` with the marks of the 16-byte blocks of `inp` that hold a poisoned byte (R289). -/
def byBlock (out : List Byte) (inp : OutRec) : OutRec :=
  out.zipIdx.map (fun x => (x.1, foul ((inp.drop (x.2 / 16 * 16)).take 16)))

/-- Input bytes before the first that a resumed job reads (R249, R250, R287): CHURN_D, and CHURN_C where a checksum covers the whole input,
read from the start again; CBC decryption reads from the block before the token. -/
def Job.skip (j : Job) : Nat :=
  if ¬j.desc.resume then 0
  else match j.desc.prog with
  | 3 => if j.par 64 1 = 1 ∨ j.par 64 1 = 2 then 0 else j.desc.token
  | 5 => j.desc.token
  | 6 => if j.par 64 1 = 3 ∧ j.par 65 1 = 1 then j.desc.token - 16 else j.desc.token
  | _ => 0

/-! ### Churn -/

/-- CHURN_C (R244, R245, R249, R251). A poisoned byte poisons the block it lies in from its first byte on (R251 from the poisoned byte on;
assumption 169), and a trailer over the whole input. -/
def Job.compressed (j : Job) : Product :=
  let fmt := j.par 64 1
  let blk := if j.par 66 2 = 0 then 65536 else 1024 * j.par 66 2
  let inp := j.feed.inp
  let from_ := if j.desc.resume then j.desc.token - j.skip else 0
  let us := Fmt.compress fmt blk from_ (plain inp) j.feed.ended
  let last := j.feed.ended && decide (0 < us.length)
  { units := us.zipIdx.map (fun u =>
      let head := if u.1.2.2 = 0 then (Fmt.wrapHead fmt).length else 0
      let tail := if last ∧ u.2 + 1 = us.length then (Fmt.wrapTail fmt []).length else 0
      let n := u.1.1.length - tail
      let bad := foul ((inp.drop u.1.2.2).take (u.1.2.1 - u.1.2.2))
      { out := all_ false (u.1.1.take head) ++ all_ bad ((u.1.1.take n).drop head) ++ all_ (foul inp) (u.1.1.drop n)
        size := u.1.1.length
        upto := j.skip + u.1.2.1 })
    halt := none, done := j.feed.ended, rest := 0 }

/-- CHURN_D (R247 to R251): the units that lie past the token of a resumed job; what it produced before a failing element or a poisoned flit
is a last unit. -/
def Job.decompressed (j : Job) (wlog : Nat) : Product :=
  let fmt := j.par 64 1
  let verify := bit (j.par 65 1) 0
  let inp := j.feed.inp
  let clean := inp.takeWhile (fun b => !b.2)
  let cut := decide (clean.length < inp.length)
  let r := Fmt.decode fmt verify wlog (plain clean) (j.feed.ended && !cut)
  let whole := Fmt.complete fmt verify wlog (plain clean)
  let halt : Option Halt := match r.2 with
    | some (f, off) => some (Halt.check f off)
    | none => if cut && !whole then some (.poison clean.length) else none
  let ends := r.1.units.reverse ++ (if halt.isSome ∧ ((r.1.units.head?).map Prod.fst).getD 0 < r.1.len then [(r.1.len, r.1.pos)] else [])
  let token := if j.desc.resume then j.desc.token else 0
  let out := r.1.out.reverse
  { units := ((ends.zip ((0, 0) :: ends)).filter (fun u => decide (token < u.1.2))).map (fun u =>
      { out := all_ false ((out.take u.1.1).drop u.2.1), size := u.1.1 - u.2.1, upto := u.1.2 })
    halt := halt
    done := j.feed.ended || halt.isSome
    rest := if j.feed.ended && halt.isNone then inp.length - (r.1.pos + 7) / 8 else 0 }

/-! ### Digests -/

/-- The length of chunk `i` of `n` bytes of input, `size` long or one chunk where that is 0; `none` while it is still to come. -/
def chunkAt (size n i : Nat) (ended : Bool) : Option (Nat × Nat) :=
  if size = 0 then (if ended ∧ i = 0 then some (0, n) else none)
  else if (i + 1) * size ≤ n then some (i * size, size)
  else if ended ∧ i * size < n then some (i * size, n - i * size) else none

/-- DGST (R289, R292): a digest of each chunk. -/
def Job.digests (j : Job) (key : List Byte) : Product :=
  let a := Sha.algOf (j.par 64 1)
  let inp := j.feed.inp
  let n := inp.length
  { units := (List.range (n + 1)).filterMap (fun i => (chunkAt (1024 * j.par 68 4) n i j.feed.ended).map (fun c =>
      let m := (inp.drop c.1).take c.2
      let h := if j.par 64 1 < 3 then Sha.digest a (plain m) else Sha.hmac a key (plain m)
      { out := all_ (foul m) h, size := a.bytes, upto := j.skip + c.1 + c.2 }))
    halt := none, done := j.feed.ended, rest := 0 }

/-! ### Ciphers -/

/-- The output units of the modes XTS, CTR and CBC: 4,096 bytes of input each, `f` the bytes and marks of the unit at a place. -/
def Job.byUnit (j : Job) (inp : OutRec) (f : Nat → OutRec → OutRec) : Product :=
  let n := inp.length
  { units := (List.range (n + 1)).filterMap (fun i => (chunkAt 4096 n i j.feed.ended).map (fun c =>
      let u := (inp.drop c.1).take c.2
      { out := f c.1 u, size := c.2, upto := (if j.desc.resume then j.desc.token else 0) + c.1 + c.2 }))
    halt := none, done := j.feed.ended, rest := 0 }

/-- The IV field (R285). -/
def Job.iv (j : Job) : List Nat := toNats ((j.param.drop 80).take 16)

/-- XTS (R285, R287, R289): data unit `i` under the tweak that is the IV field plus its number; with ciphertext stealing both final blocks
derive from each other. -/
def Job.xts (j : Job) (key : List Nat) : Product :=
  let back := j.par 65 1 == 1
  let unit0 := if j.desc.resume then j.desc.token / 4096 else 0
  j.byUnit j.feed.inp (fun o u =>
    let out := ofNats (Aes.xtsUnit back key ((Aes.ofLe j.iv + unit0 + o / 4096) % 2 ^ 128) (toNats (plain u)))
    let k := if u.length % 16 = 0 then u.length else 16 * (u.length / 16 - 1)
    byBlock (out.take k) (u.take k) ++ all_ (foul (u.drop k)) (out.drop k))

/-- CTR (R285, R287). -/
def Job.ctr (j : Job) (key : List Nat) : Product :=
  let ks := Aes.roundKeys key
  let c0 := Aes.ofBe j.iv + (if j.desc.resume then j.desc.token / 16 else 0)
  j.byUnit j.feed.inp (fun o u => byBlock (ofNats (Aes.ctrBig ks ((u.length + 15) / 16) (c0 + o / 16) (toNats (plain u)))) u)

/-- CBC encryption (R285, R289): poison from the first poisoned block to the end. -/
def Job.cbcE (j : Job) (key : List Nat) : Product :=
  let all := j.feed.inp
  let out := ofNats (Aes.cbcEnc (Aes.roundKeys key) (all.length / 16) j.iv (toNats (plain all)))
  let good := (all.takeWhile (fun b => !b.2)).length / 16 * 16
  j.byUnit all (fun o u => ((out.drop o).take u.length).zipIdx.map (fun b => (b.1, foul all && decide (good ≤ o + b.2))))

/-- CBC decryption (R285, R287, R289): a resumed job's first input block is its IV; a poisoned block poisons the one after it too. -/
def Job.cbcD (j : Job) (key : List Nat) : Product :=
  let resumed := j.desc.resume && decide (16 ≤ j.desc.token)
  let all := if resumed then j.feed.inp.drop 16 else j.feed.inp
  let iv := if resumed then j.feed.inp.take 16 else all_ false (ofNats j.iv)
  let out := ofNats (Aes.cbcDec (Aes.roundKeys key) (all.length / 16) (toNats (plain iv)) (toNats (plain all)))
  let src := iv ++ all
  j.byUnit all (fun o u => ((out.drop o).take u.length).zipIdx.map (fun b =>
    (b.1, foul ((src.drop ((o + b.2) / 16 * 16)).take 32))))

/-- The bytes of a GCM message, or 0 for one message (SEG of R285). -/
def Job.seg (j : Job) : Nat := 1024 * j.par 96 4

/-- GCM encryption (R283, R286, R289): each message with the counter value it has taken. -/
def Job.gcmE (j : Job) (key : List Nat) : Product :=
  let inp := j.feed.inp
  let n := inp.length
  { units := (List.range (n + 1)).filterMap (fun i => match chunkAt j.seg n i j.feed.ended, j.feed.nonces[i]? with
      | some c, some v =>
        let m := (inp.drop c.1).take c.2
        if c.2 = 0 then none
        else
          let nonce := leBytes 4 j.label.epoch ++ leBytes 8 v
          let head := nonce ++ leBytes 8 c.2 ++ leBytes 4 0
          let ct := Aes.gcmCrypt key (toNats nonce) (toNats (plain m))
          let tag := Aes.gcmTag key (toNats nonce) (toNats head) ct
          some { out := all_ false head ++ byBlock (ofNats ct) m ++ all_ (foul m) (ofNats tag), size := c.2 + 40, upto := j.skip + c.1 + c.2 }
      | _, _ => none)
    halt := none
    done := j.feed.ended && (n == 0 || decide ((if j.seg = 0 then 1 else ceilDiv n j.seg) ≤ j.feed.nonces.length))
    rest := 0 }

/-- The GCM message that begins at byte `p` of the input a decrypting CIPH has got: its plaintext length and its bytes so far, 40 more at
the end; `none` where the header is refused (R286), which a header that has not come in whole is not yet. `left` is the input left. -/
def gcmMsg (inp : OutRec) (p left : Nat) : Option (Nat × OutRec) :=
  let m := inp.drop p
  let len := leNat (plain ((m.drop 12).take 8))
  if left < 41 then none
  else if m.length < 24 then some (0, m)
  else if len = 0 ∨ 68719476704 < len ∨ left - 40 < len ∨ leNat (plain ((m.drop 20).take 4)) ≠ 0 then none
  else some (len, m.take (len + 40))

/-- The plaintext of a message's first `n` ciphertext bytes. -/
def gcmPlain (key : List Nat) (m : OutRec) (n : Nat) : OutRec :=
  let ct := (m.drop 24).take n
  byBlock (ofNats (Aes.gcmCrypt key (toNats (plain (m.take 12))) (toNats (plain ct)))) ct

/-- Does a whole message's tag match? -/
def gcmTagOk (key : List Nat) (len : Nat) (m : OutRec) : Bool :=
  let b := toNats (plain m)
  Aes.gcmTag key (b.take 12) (b.take 24) ((b.drop 24).take len) == (b.drop (24 + len)).take 16

/-- The output bytes that CIPH gives of a message of `len` bytes before its tag has been checked: all but the last curd (R288). -/
def heldFrom (len : Nat) : Nat := (len - 1) / 256 * 256

/-- GCM decryption (R286 to R288) from byte `p` of the input on: `k` messages have been checked, `total` is the whole input. -/
def gcmUnits (key : List Nat) (inp : OutRec) (total skip : Nat) : Nat → Nat → Nat → List OutUnit × Option Halt × Bool
  | 0, _, _ => ([], none, false)
  | n + 1, p, k =>
    if total ≤ p then ([], none, true)
    else match gcmMsg inp p (total - p) with
    | none => ([], some .header, true)
    | some (len, m) =>
      if m.length < 24 then ([], none, false)
      else
        let got := min len (m.length - 24)
        let whole := m.length == len + 40
        let u (x : Nat) : OutUnit := { out := gcmPlain key m x, size := len, upto := skip + p + len + 40 }
        if whole && decide (0 < k) then
          let r := gcmUnits key inp total skip n (p + len + 40) (k - 1)
          (u len :: r.1, r.2)
        else ([u (min got (heldFrom len))], none, false)

def Job.gcmD (j : Job) (key : List Nat) : Product :=
  let r := gcmUnits key j.feed.inp (j.desc.inlen - j.skip) j.skip (j.feed.inp.length + 2) 0 j.feed.checked
  { units := r.1, halt := r.2.1, done := r.2.2, rest := 0 }

/-! ### The product of a job -/

/-- Does the work of a job need a key, and which slot has it pinned? -/
def Dev.jobKey (d : Dev) (q : Nat) (j : Job) : Option KeySlot :=
  (d.keySlots q).find? (fun k => k.pins.contains (.job j.slot) && k.label == j.label)

/-- What the working stage of a job has made so far; nothing while it waits for its key (R281). -/
def Dev.product (d : Dev) (q : Nat) (j : Job) : Product :=
  let key := d.keyOf j.label (j.par 64 1)
  if j.purpose ≠ 0 ∧ (d.jobKey q j).isNone then Product.none_
  else match j.desc.prog with
  | 3 => j.compressed
  | 4 => j.decompressed (d.f (F.CHURN_CFG_ZWLOG q))
  | 5 => j.digests key
  | 6 => match j.par 64 1, j.par 65 1 with
    | 0, _ => j.xts (toNats key)
    | 1, 0 => j.gcmE (toNats key)
    | 1, _ => j.gcmD (toNats key)
    | 2, _ => j.ctr (toNats key)
    | _, 0 => j.cbcE (toNats key)
    | _, _ => j.cbcD (toNats key)
  | _ => Product.none_

/-- The messages that a GCM encryption has begun. -/
def Job.begun (j : Job) : Nat :=
  if j.purpose ≠ 3 ∨ j.par 65 1 = 1 ∨ j.feed.inp.isEmpty then 0 else if j.seg = 0 then 1 else ceilDiv j.feed.inp.length j.seg

/-- The messages begun take the next values of their key's lease, as far as it goes (R283, R284). -/
def Dev.takeNonces (d : Dev) (q : Nat) (j : Job) : Dev :=
  match d.jobKey q j with
  | none => d
  | some k =>
    match k.lease with
    | none => d
    | some l =>
      let n := min (j.begun - j.feed.nonces.length) (l.2 - l.1)
      let up (x : KeySlot) : KeySlot := if x.idx == k.idx then { x with lease := some (l.1 + n, l.2) } else x
      (d.setKeySlots q ((d.keySlots q).map up)).setJob q
        { j with feed := { j.feed with nonces := j.feed.nonces ++ (List.range n).map (fun i => l.1 + i) } }

/-- The unit that output byte `o` lies in: the unit, its first byte, its number. -/
def unitAt : List OutUnit → Nat → Nat → Nat → Option (OutUnit × Nat × Nat)
  | [], _, _, _ => none
  | u :: t, o, s, i => if o < s + u.size then some (u, s, i) else unitAt t o (s + u.size) (i + 1)

/-- What the working stage sends next. -/
inductive Sends where
  | nothing
  | curd (c : CurdIn) (unitEnd : Nat) (first : Bool)
  | halt (h : Halt)

/-- The 64-byte groups of a curd's bytes that hold a poisoned one. -/
def foulBits (r : OutRec) : Nat :=
  ((List.range 4).map (fun i => if foul ((r.drop (64 * i)).take 64) then 2 ^ i else 0)).sum

/-- The next curd of a product, of at most `n` bytes and no unit but one: FIRST with the first byte, LAST with the last. -/
def Product.next (p : Product) (j : Job) (n src : Nat) : Sends :=
  let o := j.feed.sent
  let total := (p.units.map OutUnit.size).sum
  let mk (r : OutRec) (last : Bool) (unit consumed : Nat) : CurdIn :=
    { vlen := r.length, first := o == 0, last := last, poison := foulBits r, untrusted := false, rstart := if unit = 0 then 0x1FF else 0,
      rcount := Bool.nat (unit != 0), offset := o, cseq := 0, src := src, data := leNat (plain r), unitLen := unit, consumed := consumed }
  match unitAt p.units o 0 0 with
  | some (u, s, i) =>
    let r := (u.out.drop (o - s)).take (min 256 (max 1 n))
    if r.isEmpty then .nothing
    else
      let before := if i = 0 then (if j.desc.resume then j.desc.token else 0) else ((p.units[i - 1]?).map OutUnit.upto).getD 0
      .curd (mk r (p.done && p.halt.isNone && decide (o + r.length = total)) (if o = s then u.size else 0) before) (s + u.size) (o == s)
  | none =>
    if ¬p.done then .nothing
    else match p.halt with
    | some h => .halt h
    | none => .curd (mk [] true 0 0) o false

/-! ### Input and tags -/

/-- The working stage gets a curd. -/
def Job.take (j : Job) (c : CurdIn) : Job :=
  let new : OutRec := (leBytes c.vlen c.data).zipIdx.map (fun b => (b.1, bit c.poison (b.2 / 64)))
  { j with feed := { j.feed with inp := j.feed.inp ++ new, ended := j.feed.ended || c.last } }

/-- GCM_TAG_CHECK (R288, R289): the next message that a job decrypts has come in whole, all of it but the held-back curd has been sent, and
its tag is checked. A difference, or a poisoned byte in the message, marks that curd and all later output untrusted. -/
def gcmTagCheck (q slot : Nat) (d : Dev) : Dev :=
  match d.job? q slot with
  | none => d
  | some j =>
    if j.purpose ≠ 3 ∨ j.par 65 1 ≠ 1 ∨ (d.jobKey q j).isNone then d
    else
      let key := toNats (d.keyOf j.label 0)
      let done := (d.product q j).units.take j.feed.checked
      let p := (done.map (fun u => u.size + 40)).sum
      let o := (done.map OutUnit.size).sum
      match gcmMsg j.feed.inp p (j.desc.inlen - j.skip - p) with
      | none => d
      | some (len, m) =>
        if m.length < len + 40 ∨ m.length < 41 ∨ j.feed.sent < o + heldFrom len then d
        else
          let j0 := { j with feed := { j.feed with checked := j.feed.checked + 1 } }
          if ¬foul m ∧ gcmTagOk key len m then d.setJob q j0
          else
            let j1 := (if foul m then j0.note .poison else j0).note .authFail
            let d1 := d.setJob q { j1 with tainted := true, untrustedAt := some (j1.untrustedAt.getD (o + heldFrom len)) }
            if foul m then d1 else (d1.bump (F.CIPH_CNT_COUNT q 3) 0x163 q 1).raise (quadEvent q 4 0) noPlot []

def execGcmTagCheck (q slot : Nat) := run (gcmTagCheck q slot)

end Sys2Proof.Machine
end

