-- ==== Sys2Proof/Machine/Trellis.lean ====
section
/-! DEFINITION. The Trellis (chapter 9): rings and descriptors (R216 to R219), templates and grafts (R208, R238), the
start of a job and its checks (R215, R217, R232), curds under credit (R210 to R214), sinks (R212, R236), the end of a job
(R219 to R221, R234, R235). -/

namespace Sys2Proof.Machine

/-! ### SLM and rings -/

/-- Write bytes to SLM with the 64-byte groups of them that carry poison, counted from the first byte. A group wholly
written clean loses its mark. -/
def Mem.store (m : Mem) (a : Nat) (bs : List Byte) (poison : List Nat) : Mem :=
  let m1 := m.setBytes a bs
  let whole := (List.range (bs.length / 64 + 1)).filter (fun i =>
    decide (64 * ceilDiv a 64 + 64 * i + 64 ≤ a + bs.length))
  let m2 := whole.foldl (fun (x : Mem) i => x.setPoison (64 * ceilDiv a 64 + 64 * i) false) m1
  poison.foldl (fun (x : Mem) g => x.setPoisonRange (a + 64 * g) true (min 64 (bs.length - 64 * g))) m2

/-- The memory a ring lies in: plot rings in the owner's SLM, steward rings in device DRAM (R216). -/
def Dev.ringMem (d : Dev) (q r : Nat) : Mem := if r < 16 then d.trel.dram else d.slm (d.f (F.TREL_RCTL_PLOT q r))

def Dev.setRingMem (d : Dev) (q r : Nat) (m : Mem) : Dev :=
  if r < 16 then { d with trel := { d.trel with dram := m } } else d.setSlm (d.f (F.TREL_RCTL_PLOT q r)) m

/-- Entries of a ring. -/
def Dev.ringE (d : Dev) (q r : Nat) : Nat := 2 ^ d.f (F.TREL_RCTL_LOG2E q r)

def Dev.ringBase (d : Dev) (q r : Nat) : Nat := d.f (F.TREL_RBASE_BASE q r)

/-- A job descriptor (R217). -/
def descOf (b : List Byte) : JobDesc :=
  { subseq := field b 0 4, pid := field b 4 1, prog := field b 5 1, resume := bit (field b 6 1) 0,
    late := bit (field b 6 1) 1, urg := field b 7 1, plot := field b 8 2, gen := field b 10 1, tag := field b 12 4,
    nsid := field b 16 4, instart := field b 20 8, inlen := field b 28 8, outoff := field b 36 8, outcap := field b 44 8,
    param := field b 52 8, paramlen := field b 60 4, token := field b 64 8, timeout := field b 72 4,
    flagsOk := decide (field b 6 1 < 4) && zeroAt b 11 1 && zeroAt b 76 52 }

/-- The descriptor with submission sequence number `s` (R217, R218). -/
def Dev.ringDesc (d : Dev) (q r s : Nat) : JobDesc :=
  descOf ((d.ringMem q r).bytes (d.ringBase q r + s % d.ringE q r * 128) 128)

/-- Sequence distance (RFC 1982). -/
def seqDist (a b : Nat) : Nat := (BitVec.ofNat 32 a - BitVec.ofNat 32 b).toNat

/-- A refused ring write (R218, R219): REJ, TREL_ERR, RING_REJECT. -/
def Dev.ringReject (d : Dev) (q r cause : Nat) : Dev :=
  let d1 := (((d.setF (F.TREL_RSTAT_REJ q r) 1).setF (F.TREL_ERR_RING q) r).setF (F.TREL_ERR_CAUSE q) cause).setF
    (F.TREL_ERR_VALID q) 1
  d1.raise (quadEvent q 1 0) noPlot []

def Dev.waits (d : Dev) (q : Nat) : List (Nat × JobDesc) := AMap.get [] q d.trel.waits

def Dev.setWaits (d : Dev) (q : Nat) (w : List (Nat × JobDesc)) : Dev :=
  { d with trel := { d.trel with waits := AMap.set [] q w d.trel.waits } }

/-- A write of `s` to TREL_RSUB (R218). The causes are taken in the order ring disabled, stale, window, SUBSEQ. -/
def Dev.ringSubmit (d : Dev) (q r s : Nat) : Dev :=
  let sub := d.f (F.TREL_RSUB_SUB q r)
  let n := seqDist s sub
  let room := d.ringE q r - seqDist sub (d.f (F.TREL_RACK_ACK q r))
  let new := (List.range (min n 4096)).map (fun i => (sub + 1 + i) % 2 ^ 32)
  if ¬d.flag (F.TREL_RCTL_EN q r) then d.ringReject q r 4
  else if d.flag (F.TREL_RCTL_STALE q r) then
    let p := d.f (F.TREL_RCTL_PLOT q r)
    (d.ringReject q r 3).raise 0x1F9 p []
  else if n = 0 ∨ room < n then d.ringReject q r 1
  else if new.any (fun i => (d.ringDesc q r i).subseq != i) then d.ringReject q r 2
  else (d.setF (F.TREL_RSUB_SUB q r) s).setWaits q (d.waits q ++ new.map (fun i => (r, d.ringDesc q r i)))

/-- TREL_RSUB (R218): steward-privilege code or plot 0 writes `s` to TREL_RSUB of ring `r`. -/
def trelRsub (q r s : Nat) (d : Dev) : Dev := if d.quadOk q && decide (r < 64) then d.ringSubmit q r (s % 2 ^ 32) else d

def execTrelRsub (q r seq : Nat) := run (trelRsub q r seq)

/-- A write of `a` to TREL_RACK (R219). -/
def Dev.ringAck (d : Dev) (q r a : Nat) : Dev :=
  let ack := d.f (F.TREL_RACK_ACK q r)
  let n := seqDist a ack
  if 1 ≤ n ∧ n ≤ seqDist (d.f (F.TREL_RCMP_CMPSEQ q r)) ack then d.setF (F.TREL_RACK_ACK q r) a
  else d.ringReject q r 5

/-- TREL_RACK (R219). -/
def trelRack (q r a : Nat) (d : Dev) : Dev := if d.quadOk q && decide (r < 64) then d.ringAck q r (a % 2 ^ 32) else d

def execTrelRack (q r seq : Nat) := run (trelRack q r seq)

/-- Enable a ring (R216): the owner's generation is recorded and the pointers are zeroed. -/
def Dev.ringEnable (d : Dev) (q r : Nat) : Dev :=
  let d1 := (d.setF (F.TREL_RCTL_GEN q r) (d.plotGen (d.f (F.TREL_RCTL_PLOT q r)))).setF (F.TREL_RCTL_STALE q r) 0
  let d2 := ((d1.setF (F.TREL_RSUB_SUB q r) 0).setF (F.TREL_RACK_ACK q r) 0).setF (F.TREL_RCMP_CMPSEQ q r) 0
  d2.setF (F.TREL_RCTL_EN q r) 1

/-- RING_ENABLE (R216): a 32-bit write to TREL_RCTL. LOG2E (4 to 12) and PLOT change only while EN = 0. -/
def ringEnable (q r value : Nat) (d : Dev) : Dev :=
  if ¬d.quadOk q ∨ 64 ≤ r then d
  else if d.flag (F.TREL_RCTL_EN q r) then if bit value 21 then d else d.setF (F.TREL_RCTL_EN q r) 0
  else
    let l := bits value 0 4
    let d1 := if 4 ≤ l ∧ l ≤ 12 then d.setF (F.TREL_RCTL_LOG2E q r) l else d
    let d2 := d1.setF (F.TREL_RCTL_PLOT q r) (bits value 4 9)
    if bit value 21 then d2.ringEnable q r else d2

def execRingEnable (q r value : Nat) := run (ringEnable q r value)

/-! ### Templates (R208) -/

/-- The segment in force. -/
def Dev.seg? (d : Dev) (q : Nat) : Option Segment := AMap.find q d.trel.segs

/-- The template of a PID in a segment. -/
def Segment.tpl? (s : Segment) (pid : Nat) : Option Template := s.templates.find? (fun t => t.pid == pid)

/-- Does the waiting segment change or remove the template of a PID (R238)? -/
def Dev.graftHolds (d : Dev) (q pid : Nat) : Bool :=
  match AMap.find q d.trel.swap, d.seg? q with
  | some new, some old => new.tpl? pid != old.tpl? pid
  | some _, none => true
  | none, _ => false

/-! ### Parameter checks (R232) -/

def powOf2In (v lo hi : Nat) : Bool := (List.range 25).any (fun i => v == 2 ^ i) && decide (lo ≤ v ∧ v ≤ hi)

/-- The bytes `lo` to `hi - 1` are zero. -/
def bodyZero (b : List Byte) (lo hi : Nat) : Bool := zeroAt b lo (hi - lo)

/-- The length a fixed program's parameter block needs. -/
def paramNeeds (prog : Nat) : Nat :=
  if prog = 1 then 1024 else if prog = 2 ∨ prog = 7 then 1040 else 128

/-- The parameter header's own checks. -/
def paramHead (b : List Byte) : Bool :=
  field b 0 1 == 1 && decide (field b 1 1 < 4) && decide (field b 2 1 ≤ 3) && zeroAt b 3 1 && zeroAt b 52 12 &&
  decide (64 ≤ field b 32 8)

/-- The bytes of the key an INDEX_BUILD program projects; a field to its separator counts as 0. -/
def SkimProg.keyBytes (p : SkimProg) : Nat :=
  if p.projmode = 1 then p.reclen
  else ((List.range p.ncols).map (fun i => if bit p.colmask i then (p.cols.getD i (0, 0, 6)).2.1 else 0)).sum

/-- The body checks of a fixed program, the table and image it names included (R232, R262, R267, R273, R285). -/
def Dev.paramBody (d : Dev) (prog plot inlen : Nat) (b : List Byte) : Bool :=
  let g (o n : Nat) : Nat := field b o n
  let skim := skimOf (b.drop 64)
  let tblOk (t : Nat) : Bool :=
    d.quadOk (t / 256) && d.tblEn (t / 256) (t % 256) && d.f (F.SIEVE_TBL_PLOT (t / 256) (t % 256)) == plot
  match prog with
  | 1 => skim.isSome
  | 2 => skim.isSome && (match skim with
      | some p => g 1028 1 == 0xFF || decide (g 1028 1 < p.ncols)
      | none => false) && decide (g 1029 1 ≤ 1) && bodyZero b 1030 1032 &&
      (match d.image? plot (g 1024 4) with
      | some m => m.active
      | none => false)
  | 3 => decide (g 64 1 ≤ 3) && bodyZero b 65 66 && (g 66 2 == 0 || powOf2In (g 66 2) 4 1024) && bodyZero b 68 128
  | 4 => decide (g 64 1 ≤ 4) && decide (g 65 1 ≤ 1) && bodyZero b 66 128
  | 5 => decide (g 64 1 ≤ 5) && bodyZero b 65 68 && (g 68 4 == 0 || powOf2In (g 68 4) 4 65536) && bodyZero b 84 128
  | 6 => decide (g 64 1 ≤ 3) && decide (g 65 1 ≤ 1) && bodyZero b 66 68 && bodyZero b 100 128 &&
      (g 96 4 == 0 || powOf2In (g 96 4) 4 16777216) &&
      (match g 64 1 with
      | 0 => inlen % 4096 == 0 || decide (16 ≤ inlen % 4096)
      | 1 => g 65 1 == 1 || decide ((if g 96 4 = 0 then inlen else min inlen (1024 * g 96 4)) ≤ 68719476704)
      | 3 => inlen % 16 == 0
      | _ => true)
  | 7 => (match skim with
      | some p => !p.recref && decide (p.keyBytes ≤ 20)
      | none => false) && tblOk (g 1024 2) && d.f (F.SIEVE_TBL_CLASS (g 1024 2 / 256) (g 1024 2 % 256)) == 1 &&
      decide (g 1026 1 ≤ 1) && bodyZero b 1027 1040
  | 8 => tblOk (g 64 2) && decide (1 ≤ g 66 1 ∧ g 66 1 ≤ 20) && inlen % max 1 (g 66 1) == 0 && bodyZero b 67 128
  | _ => false

/-- The reserved bits of a resume token (R249, R236). -/
def tokenOk (prog inlen token : Nat) (param : List Byte) : Bool :=
  match prog with
  | 3 => let blk := if field param 66 2 = 0 then 65536 else 1024 * field param 66 2
         decide (token < 2 ^ 48 ∧ token ≤ inlen) && token % blk == 0
  | 4 => decide (token < 2 ^ 51 ∧ token ≤ 8 * inlen)
  | _ => decide (token ≤ inlen)

/-! ### The start of a job (R215, R217) -/

def Dev.dropCmd (d : Dev) (tag : Nat) : Dev :=
  { d with trel := { d.trel with cmds := d.trel.cmds.filter (fun x => x.tag != tag) } }

/-- The parameter block of a job: the command's, or the SLM bytes its descriptor names. -/
def Dev.jobParam (d : Dev) (r : Nat) (x : JobDesc) : List Byte :=
  match (if r < 16 then d.cmd? x.tag else none) with
  | some c => c.param
  | none => (d.slm x.plot).bytes x.param (min x.paramlen 1040)

/-- Is a job's input in range (R217, R232)? A namespace's is a whole number of logical blocks, and for a Skim program of
units (R223), within the namespace. -/
def Dev.inputOk (d : Dev) (x : JobDesc) (b : List Byte) : Bool :=
  if x.nsid = 0 then decide (x.instart + x.inlen ≤ d.slmBytes x.plot)
  else match d.md.nss.find? (fun n => n.nsid == x.nsid && (x.plot == steward || n.attached.contains x.plot)) with
  | none => false
  | some n =>
    let bs := lbaBytes n.lbaf
    x.inlen % bs == 0 && decide (x.instart + x.inlen / bs ≤ n.nsze) &&
    (if x.prog = 1 ∨ x.prog = 2 ∨ x.prog = 7 then match skimOf (b.drop 64) with
      | some p => x.inlen % p.unit == 0
      | none => true
    else true)

/-- The checks before any input is read (R209, R217, R226, R232, R262, R285, R345). -/
def Dev.descOk (d : Dev) (q r : Nat) (x : JobDesc) (b : List Byte) : Bool :=
  match (d.seg? q).bind (fun s => s.tpl? x.pid) with
  | none => false
  | some t =>
    x.flagsOk && decide (x.urg ≤ tplUrgMax t.words) && decide (x.outoff + x.outcap ≤ d.slmBytes x.plot) &&
    d.inputOk x b &&
    (if x.prog = 0 then r < 16 || (x.plot == d.f (F.TREL_RCTL_PLOT q r) && x.gen == d.f (F.TREL_RCTL_GEN q r))
     else decide (r < 16) && decide (paramNeeds x.prog ≤ b.length) && paramHead b && d.paramBody x.prog x.plot x.inlen b &&
       (!x.resume || tokenOk x.prog x.inlen x.token b))

/-- The rings of a quadrant whose oldest waiting job a start may take: the jobs of one ring start in order (R218), and a graft may hold one. -/
def Dev.startable (d : Dev) (q : Nat) : List Nat :=
  (((d.waits q).map Prod.fst).eraseDups).filter (fun r =>
    ((d.waits q).find? (fun w => w.1 == r)).any (fun w => !d.graftHolds q w.2.pid))

/-- The lowest free job slot. -/
def Dev.freeSlot (d : Dev) (q : Nat) : Nat :=
  ((List.range 65536).find? (fun i => !(d.jobs q).any (fun j => j.slot == i))).getD 65536

/-- Takes a ring's oldest waiting descriptor that a graft does not hold. -/
def takeWait (d : Dev) (q r : Nat) : List (Nat × JobDesc) → Option (JobDesc × List (Nat × JobDesc))
  | [] => none
  | w :: t =>
    if w.1 = r then (if d.graftHolds q w.2.pid then none else some (w.2, t))
    else (takeWait d q r t).map (fun x => (x.1, w :: x.2))

/-- Clear a job's marks of bad input where its descriptor fails a check. -/
def Dev.newJob (d : Dev) (q r : Nat) (x : JobDesc) : Job :=
  let b := d.jobParam r x
  let ok := d.descOk q r x b
  let words := (((d.seg? q).bind (fun s => s.tpl? x.pid)).map Template.words).getD []
  let stale := x.gen != d.plotGen x.plot % 256 && x.plot != steward
  let conds : List Js := (if ok then [] else [.badDesc]) ++ (if stale then [.genStale] else [])
  { slot := d.freeSlot q, ring := r, desc := x, words := words, started := d.now, conds := conds, used := [],
    stalled := [], skim := if ok ∧ (x.prog = 1 ∨ x.prog = 2 ∨ x.prog = 7) then
        (skimOf (b.drop 64)).map (fun p => if x.prog = 2 then { p with projmode := 1 } else p) else none,
    unit := none, batches := [], wrote := [], units := [], low := if x.resume then x.token else 0, sum := Summary.init, inBytes := 0, outBytes := 0, excess := 0,
    token := none, untrustedAt := none, drained := false, reports := 0, param := b, resumed := x.resume,
    voided := false, tainted := false, eng := 0, sgen := d.f (F.TREL_RCTL_GEN q r), feed := Feed.init }

/-- A ring's age state is its quadrant's. -/
def Dev.ringArb (d : Dev) (q : Nat) : Arb := AMap.get ⟨[], []⟩ q d.trel.arbs

/-- JOB_START (R215): the Trellis grants one ring with a waiting job, the one `r` unless an older request is urgent (R24),
and starts its next job. A job with a Skim program reserves a context in unit `u`; with none free it keeps waiting. -/
def jobStart (q r u : Nat) (d : Dev) : Dev :=
  let rings := d.startable q
  if ¬d.quadOk q ∨ d.underTest q ∨ ¬rings.contains r then d
  else
    let a := d.ringArb q
    let g := a.pick rings r
    match takeWait d q g (d.waits q) with
    | none => d
    | some (x, rest) =>
      let j := d.newJob q g x
      let d1 := match j.skim with
        | some _ => if d.f (F.SKIM_BIND_MODE q u) = 2 ∨ 8 ≤ u then none else d.skimTake q u (skimName q j.slot)
        | none => some d
      match d1 with
      | none => d
      | some e =>
        let arb := a.round rings g
        let e1 := ({ e with trel := { e.trel with arbs := AMap.set ⟨[], []⟩ q arb e.trel.arbs } }).setWaits q rest
        let e2 := e1.setJobs q (e1.jobs q ++ [{ j with unit := if j.skim.isSome then some u else none }])
        (e2.setF (F.TREL_RSTAT_ACTIVE q g) (e2.f (F.TREL_RSTAT_ACTIVE q g) + 1)).bump (F.TREL_CNT_COUNT q 0) 0x140 q 1

def execJobStart (q r u : Nat) := run (jobStart q r u)

/-! ### Credit (R213, R214) -/

/-- Credit in use on the edge out of stage `i`. -/
def Job.usedOn (j : Job) (i : Nat) : Nat := AMap.get 0 i j.used

/-- A stage sends on its outgoing edge, or is suspended for want of credit. -/
def Dev.sendCurd (d : Dev) (q : Nat) (j : Job) (i : Nat) : Option Job × Dev :=
  if j.usedOn i < stageCred j.words i then
    let j1 := { j with used := AMap.set 0 i (j.usedOn i + 1) j.used }
    (some j1, (d.setJob q j1).bump (F.TREL_CNT_COUNT q 3) 0x143 q 1)
  else if j.stalled.contains i then (none, d)
  else
    let d1 := (d.setJob q { j with stalled := NSet.add i j.stalled }).bump (F.TREL_CNT_COUNT q 4) 0x144 q 1
    (none, match nodeEngine (stageTy j.words i) with
      | some k => d1.engReady k.1 q (.job j.slot) false
      | none => d1)

/-- Return one credit to the edge out of stage `i`; a job suspended there resumes. -/
def Dev.returnCredit (d : Dev) (q : Nat) (j : Job) (i : Nat) : Dev :=
  let j1 := { j with used := AMap.set 0 i (j.usedOn i - 1) j.used, stalled := NSet.del i j.stalled }
  let d1 := d.setJob q j1
  if j.stalled.contains i then
    match nodeEngine (stageTy j.words i) with
    | some k => d1.engReady k.1 q (.job j.slot) true
    | none => d1
  else d1

/-- CREDIT_RETURN (R214): the receiver of stage `i`'s edge has freed a buffer entry. -/
def creditReturn (q slot i : Nat) (d : Dev) : Dev :=
  match d.job? q slot with
  | some j => if 0 < j.usedOn i then d.returnCredit q j i else d
  | none => d

def execCreditReturn (q slot stage : Nat) := run (creditReturn q slot stage)

/-! ### Sinks (R212, R236) -/

/-- Does the program's output area begin with a result summary (R234)? -/
def hasSummary (prog : Nat) : Bool := prog == 1 || prog == 2 || prog == 7

/-- Output bytes of the group so far, the summary included. -/
def Dev.outUsed (d : Dev) (q : Nat) (j : Job) : Nat :=
  (if hasSummary j.desc.prog then 64 else 0) + (((d.group q j).map (fun x => x.2.outBytes)).sum) +
    ((d.jobCmd? j).map ProgCmd.outBytes).getD 0

/-- Set the VOID flag of a batch in the output area (R230, R236). -/
def Dev.voidBatch (d : Dev) (q p a : Nat) : Dev :=
  let m := d.slm p
  let b := m.byte (a + 6)
  ((d.setSlm p (m.setByte (a + 6) (b ||| 4#8))).bump (F.TREL_CNT_COUNT q 6) 0x146 q 1).raise (quadEvent q 1 5) noPlot []

/-- An output unit does not fit (R236): the jobs of the group stop with the token, below which every unit has been filtered and its batch
written, and batches written at or above it are voided. -/
def Dev.outOfSpace (d : Dev) (q : Nat) (j : Job) (consumed : Nat) : Dev :=
  let grp := d.group q j
  let pend := grp.flatMap (fun x => x.2.batches.map OutBatch.unitOff)
  let token := if j.skim.isSome then (pend.min?).getD j.desc.inlen |> min (d.unitsDone j).1 else consumed
  let early := (((d.jobCmd? j).map ProgCmd.wrote).getD []).filter (fun w => decide (token ≤ w.1))
  let d1 := early.foldl (fun (e : Dev) w => e.voidBatch q j.desc.plot w.2) d
  grp.foldl (fun (e : Dev) x =>
    match e.job? x.1 x.2.slot with
    | none => e
    | some y =>
      let bad := y.wrote.filter (fun w => decide (token ≤ w.1))
      let y1 := { y.note .outOfSpace with token := some token, voided := y.voided || !bad.isEmpty || !early.isEmpty }
      bad.foldl (fun (e1 : Dev) w => e1.voidBatch x.1 y.desc.plot w.2) (e.setJob x.1 y1)) d1

/-- The poisoned 64-byte groups of a curd. -/
def curdGroups (c : CurdIn) : List Nat := (List.range 4).filter (fun i => bit c.poison i)

/-- A sink writes an untrusted curd (R212). -/
def Dev.sinkTaint (d : Dev) (q : Nat) (j : Job) (c : CurdIn) (at_ : Nat) : Job × Dev :=
  if c.untrusted ∨ j.tainted then
    let j1 := { j.note .authFail with untrustedAt := some (j.untrustedAt.getD at_) }
    (j1, d.raise (quadEvent q 1 4) noPlot [])
  else (j, d)

/-- A curd's content reaches the SLM sink: a new output unit reserves its room first; bytes are written at the next place
of the output area, poison kept. `bs` and `pois` are the content, `unit` the length of the unit that begins here. -/
def Dev.slmSink (d : Dev) (q : Nat) (j : Job) (c : CurdIn) (bs : List Byte) (pois : List Nat) (unit : Nat)
    (head : Option Nat) : Dev :=
  let used := d.outUsed q j
  if unit ≠ 0 ∧ j.desc.outcap < used + unit then d.outOfSpace q j c.consumed
  else if j.desc.outcap < used + bs.length then d.outOfSpace q j c.consumed
  else
    let a := j.desc.outoff + used
    let t := d.sinkTaint q j c used
    let d1 := t.2.setSlm j.desc.plot ((t.2.slm j.desc.plot).store a bs pois)
    let j1 := { t.1 with outBytes := t.1.outBytes + bs.length,
                         wrote := match head with
                           | some u => (t.1.wrote ++ [(u, a)]).drop (t.1.wrote.length - 255)
                           | none => t.1.wrote }
    d1.setJob q j1

/-- A curd at an SLM sink: a Skim program's or a lookup's output comes from the job's batches in order; any other job's is
the curd's payload. -/
def Dev.toSlm (d : Dev) (q : Nat) (j : Job) (c : CurdIn) : Dev :=
  if j.skim.isSome ∨ j.desc.prog = 8 then
    match j.batches with
    | [] => d
    | b :: rest =>
      let n := min c.vlen b.bytes.length
      let lp := (b.poison.filter (fun g => decide (n ≤ 64 * g))).map (fun g => g - n / 64)
      let left : OutBatch := { b with bytes := b.bytes.drop n, poison := lp, fresh := false }
      let j1 := { j with batches := if n < b.bytes.length then left :: rest else rest }
      let c1 := { c with untrusted := c.untrusted || b.untrusted }
      let pois := b.poison.filter (fun g => decide (64 * g < n))
      let d1 := d.slmSink q j c1 (b.bytes.take n) pois (if b.fresh then b.bytes.length else 0)
        (if b.fresh ∧ j.skim.isSome then some b.unitOff else none)
      match d1.job? q j.slot with
      | some k => if k.conds.contains .outOfSpace then d1 else d1.setJob q { k with batches := j1.batches }
      | none => d1
  else d.slmSink q j c (leBytes c.vlen c.data) (curdGroups c) c.unitLen none

/-! ### Field-core stream ports (R340 to R342) -/

def Dev.inst? (d : Dev) (tag : Nat) : Option ProgInst := d.core.insts.find? (fun i => i.tag == tag)

def Dev.setInst (d : Dev) (x : ProgInst) : Dev :=
  { d with core := { d.core with insts := d.core.insts.map (fun y => if y.tag == x.tag then x else y) } }

/-! ### Time sharing (R94, R346 to R348) -/

/-- A plot's virtual time at a quadrant's field cores. -/
def Dev.coreVt (d : Dev) (q p : Nat) : Nat := AMap.get 0 (512 * q + p) d.core.vt

def Dev.setCoreVt (d : Dev) (q p v : Nat) : Dev :=
  { d with core := { d.core with vt := AMap.set 0 (512 * q + p) v d.core.vt } }

/-- Programs of a plot on a core, in the whole device. -/
def Dev.onCores (d : Dev) (p : Nat) : Nat := (d.core.insts.filter (fun x => x.plot == p && x.core.isSome)).length

/-- The instances of a quadrant that wait for a core: runnable, of the plot's generation, under the plot's cap. -/
def Dev.runnable (d : Dev) (q : Nat) : List ProgInst :=
  d.core.insts.filter (fun x => x.quad == q && x.core.isNone && !x.waiting && x.ended.isNone &&
    x.gen == d.plotGen x.plot && decide (d.onCores x.plot < d.f (F.PLOT_FCORE_CAP x.plot)))

/-- A plot that becomes eligible for the field cores of a quadrant starts no lower than the plots that are eligible already: those with a
program that runs there or may run (R91, R94). -/
def Dev.coreWake (d : Dev) (q p : Nat) : Dev :=
  let elig := (d.core.insts.filter (fun x => x.quad == q && x.core.isSome)) ++ d.runnable q
  let others := (elig.filter (fun x => x.plot != p)).map (fun x => d.coreVt q x.plot)
  match others.min? with
  | some v => if elig.any (fun x => x.plot == p) then d else d.setCoreVt q p (max (d.coreVt q p) v)
  | none => d

/-- Replace an instance's record by one that may run (R347). -/
def Dev.wakeInst (d : Dev) (x : ProgInst) : Dev :=
  if x.ended.isSome then d.setInst x else (d.coreWake x.quad x.plot).setInst { x with waiting := false }

/-- A curd is delivered to CPORT_IN of the program whose IN job this is: the program may run again (R347). -/
def Dev.toPort (d : Dev) (tag : Nat) (c : CurdIn) : Dev :=
  match d.inst? tag with
  | none => d
  | some x =>
    if x.ended.isSome then d.setInst { x with discarded := x.discarded + 1 }
    else d.wakeInst { x with
      pinHead := (x.pinHead + 1) % 2 ^ 32
      inCurds := x.inCurds ++ [(x.pinHead, c)]
      inLast := x.inLast || c.last
      untr := x.untr || c.untrusted }

/-- The output curd at POUT_HEAD (R341, R342), and the port after it has been taken. -/
def ProgInst.takeOut (x : ProgInst) : Option (CurdIn × ProgInst) :=
  if x.poutHead = x.poutTail then
    if x.autoLast then
      let c : CurdIn :=
      { vlen := 0, first := x.outOff == 0 && x.poutHead == 0, last := true, poison := 0, untrusted := x.untr,
        rstart := 0x1FF, rcount := 0, offset := x.outOff, cseq := x.poutHead % 65536, src := 64, data := 0,
        unitLen := 0, consumed := 0 }
      some (c, { x with autoLast := false })
    else none
  else
    let a := x.poutHead % 16 * 0x200
    let w := leNat (x.out.bytes (a + 0x100) 8)
    let n := bits w 0 9
    let bad (i : Nat) : Bool := x.out.poisonedRange (a + 64 * i) (min 64 (n - 64 * i)) && decide (64 * i < n)
    let pois := ((List.range 4).map (fun i => if bad i then 2 ^ i else 0)).sum
    let fst := x.outOff == 0 && x.poutHead == 0
    let src := 64 + x.core.getD 0 % 8
    let c : CurdIn :=
    { vlen := n, first := fst, last := bit w 10,
      poison := pois, untrusted := x.untr, rstart := bits w 16 9, rcount := bits w 25 9, offset := x.outOff,
      cseq := x.poutHead % 65536, src := src, data := leNat (x.out.bytes a n), unitLen := n,
      consumed := 0 }
    some (c, { x with poutHead := (x.poutHead + 1) % 2 ^ 32, outOff := x.outOff + n })

/-! ### A curd arrives (R210 to R214, R237, R247, R251, R264) -/

/-- The job status of a finding. -/
def findingJs : Finding → Js
  | .noGain => .noGain
  | .badHeader => .badHeader
  | .badCode => .badCode
  | .badDistance => .badDistance
  | .lengthOverrun => .lengthOverrun
  | .badChecksum => .badChecksum
  | .matchLimit => .matchLimit
  | .authFail => .authFail
  | .fenced => .fenced

/-- Record what an engine found. Decoder errors are recorded in CHURN_ERR with the input offset (R247). -/
def Dev.finding (d : Dev) (q slot off : Nat) (f : Finding) : Dev :=
  let d1 := d.jobCond q slot (findingJs f)
  match f with
  | .noGain => d1.bump (F.CHURN_CNT_COUNT q 4) 0x154 q 1
  | .badHeader | .badCode | .badDistance | .lengthOverrun | .badChecksum =>
    let d2 := ((((d1.setF (F.CHURN_ERR_CODE q) (findingJs f).code).setF (F.CHURN_ERR_JOB q) slot).setF (F.CHURN_ERR_INTERNAL q)
      0).setF (F.CHURN_ERR_VALID q) 1).setF (F.CHURN_ERROFF_OFFSET q) off
    (d2.bump (F.CHURN_CNT_COUNT q 5) 0x155 q 1).raise (quadEvent q 2 0) noPlot [slot, (findingJs f).code, off]
  | .matchLimit => d1.raise (quadEvent q 3 1) noPlot []
  | _ => d1

/-- The byte counters of a node for a curd that it receives (`got`) or has produced. -/
def Dev.nodeCount (d : Dev) (q : Nat) (j : Job) (ty : Nat) (got : Bool) (n : Nat) : Dev :=
  match ty, got with
  | 4, true => d.bump (F.CHURN_CNT_COUNT q 0) 0x150 q n
  | 4, false => d.bump (F.CHURN_CNT_COUNT q 1) 0x151 q n
  | 5, true => d.bump (F.CHURN_CNT_COUNT q 2) 0x152 q n
  | 5, false => d.bump (F.CHURN_CNT_COUNT q 3) 0x153 q n
  | 7, true => if j.desc.prog = 6 ∧ j.par 65 1 = 1 then d.bump (F.CIPH_CNT_COUNT q 1) 0x161 q n
               else d.bump (F.CIPH_CNT_COUNT q 0) 0x160 q n
  | 8, true => d.bump (F.DGST_CNT_COUNT q 0) 0x168 q n
  | _, _ => d

/-- Input arrives at the stage that receives it (R237): bytes beyond INLEN are discarded and counted, and LAST before INLEN
is short. A job with no declared length (the OUT job of a program, R343) skips the check. The answer is the part of the
curd that counts. -/
def Job.input (j : Job) (c : CurdIn) (declared : Bool) : Job × CurdIn :=
  if ¬declared then ({ j with inBytes := j.inBytes + c.vlen }, c)
  else
    let room := j.desc.inlen - j.skip - j.inBytes
    let n := min room c.vlen
    let j1 := { j with inBytes := j.inBytes + n, excess := j.excess + (c.vlen - n) }
    let j2 := if n < c.vlen then j1.note .longInput else j1
    let j3 := if c.last ∧ j2.inBytes + j.skip < j.desc.inlen then j2.note .shortInput else j2
    (j3, { c with vlen := n, data := c.data % 2 ^ (8 * n) })

/-- A curd goes over the device crossbar (R207, R213). -/
def Dev.xqSend (d : Dev) (q : Nat) (c : CurdIn) : Dev :=
  { d with trel := { d.trel with xq := AMap.set [] q (AMap.get [] q d.trel.xq ++ [{ c with src := 96 + q }]) d.trel.xq } }

/-- The next curd that the XQ_OUT of quadrant `p` has sent. -/
def Dev.xqTake (d : Dev) (p : Nat) : Option (CurdIn × Dev) :=
  match AMap.get [] p d.trel.xq with
  | [] => none
  | c :: t => some (c, { d with trel := { d.trel with xq := AMap.set [] p t d.trel.xq } })

/-- May LAST end the job's output? A Skim program's when its units have all been filtered, here or by the other jobs of its command, and its
batches written; a lookup's when its keys have. -/
def Dev.lastOk (d : Dev) (q : Nat) (j : Job) : Bool :=
  if j.skim.isSome then j.batches.isEmpty && (decide (j.desc.inlen ≤ (d.unitsDone j).1) || decide (1 < (d.group q j).length))
  else if j.desc.prog = 8 then j.batches.isEmpty && decide (j.desc.inlen ≤ j.feed.sent)
  else true

/-- A curd reaches the last stage of its chain. -/
def Dev.atSink (d : Dev) (q slot ty : Nat) (c : CurdIn) : Dev :=
  match d.job? q slot with
  | none => d
  | some j =>
    let d1 := match ty with
      | 0x0B => if j.ending then d else d.toSlm q j c
      | 0x0C =>
        let t := d.sinkTaint q j c j.outBytes
        (t.2.setJob q { t.1 with outBytes := t.1.outBytes + c.vlen }).send
          (.bytes j.desc.plot ((leBytes c.vlen c.data).map BitVec.toNat))
      | 0x09 => (d.setJob q { j with outBytes := j.outBytes + c.vlen }).toPort j.desc.tag c
      | _ => ((d.setJob q { j with outBytes := j.outBytes + c.vlen }).xqSend q c).bump (F.TREL_CNT_COUNT q 7) 0x147 q 1
    match d1.job? q slot with
    | none => d1
    | some k =>
      let e := tplStages k.words - 2
      let back := if ty = 0x09 ∨ ty = 0x0D then 0 else 1
      let k1 := { k with used := AMap.set 0 e (k.usedOn e - back) k.used, drained := k.drained || (c.last && d1.lastOk q k) }
      d1.setJob q k1

/-- The working stage of a job gets a curd; the GCM messages that begin in it take their counter values. -/
def Dev.feedJob (d : Dev) (q slot : Nat) (c : CurdIn) : Dev :=
  match d.job? q slot with
  | some j => (d.setJob q (j.take c)).takeNonces q (j.take c)
  | none => d

/-- A curd of a job that CHSRC or MEMSRC feeds in order carries the bytes of its input (R207, R217): from a namespace or SLM, the next in
order. -/
def Dev.sourced (d : Dev) (j : Job) (c : CurdIn) : CurdIn :=
  if j.skim.isSome ∨ (stageTy j.words 0 ≠ 1 ∧ stageTy j.words 0 ≠ 2) then c
  else match d.inputAt j (j.skip + j.inBytes) c.vlen with
  | none => c
  | some r => { c with data := leNat (plain r), poison := c.poison ||| foulBits r }

/-- A curd is taken by stage `i` of a running job that has credit for it. -/
def Dev.takeCurd (d : Dev) (q slot i : Nat) (c : CurdIn) (finds : List Finding) : Dev :=
  match d.job? q slot with
  | none => d
  | some j =>
    let ty := stageTy j.words i
    let declared := !(stageTy j.words 0 == 0x0A)
    let r := if i = 1 then j.input c declared else (j, c)
    let c1 := { r.2 with untrusted := r.2.untrusted || j.tainted }
    let j1 := if consuming ty && c1.poison != 0 && ty != 0x09 then r.1.note .poison else r.1
    let j2 := if consuming ty && c1.untrusted && ty != 0x09 then { j1 with tainted := true } else j1
    let d1 := ((d.setJob q j2).nodeCount q j2 (stageTy j2.words (i - 1)) false c1.vlen).nodeCount q j2 ty true c1.vlen
    let d2 := match nodeEngine ty with
      | some k => match d1.job? q slot with
        | some y =>
          let e := d1.jobTake k.1 q y k.2
          if j.work? = some i then e.feedJob q slot c1 else e
        | none => d1
      | none => d1
    let d3 := finds.foldl (fun (e : Dev) f => e.finding q slot j2.inBytes f) d2
    if i + 1 = tplStages j.words then d3.atSink q slot ty c1 else d3

/-- The working stage has come to a halt (R247, R251, R286): the failed check is recorded with its offset, which INBYTES shows; a refused
header leaves in AUX where its message would have begun. -/
def Dev.haltJob (d : Dev) (q slot : Nat) (h : Halt) : Dev :=
  match d.job? q slot with
  | none => d
  | some j =>
    match h with
    | .check f off => (d.setJob q { j with inBytes := off }).finding q slot off f
    | .poison off => d.setJob q { j.note .poison with inBytes := off, drained := true }
    | .header => d.setJob q { j.note .authFail with untrustedAt := some (j.untrustedAt.getD j.feed.sent), drained := true }

/-- The output of COMPRESS_COPY has reached INLEN, or would have in the unit that found no room (R246). -/
def Dev.gainCheck (d : Dev) (q slot sent unitEnd : Nat) : Dev :=
  match d.job? q slot with
  | none => d
  | some j =>
    if j.desc.prog = 3 ∧ (j.desc.inlen ≤ sent ∨ (j.conds.contains .outOfSpace ∧ j.desc.inlen ≤ unitEnd)) ∧ ¬j.conds.contains .noGain then
      d.finding q slot j.inBytes .noGain
    else d

/-- The stage after the working one takes the next curd of the job's output, of at most `c0.vlen` bytes (R213). With the last curd, input
that goes on beyond the end of its format is long (R237, R247). -/
def Dev.workOut (d : Dev) (q slot i : Nat) (c0 : CurdIn) : Dev :=
  match d.job? q slot with
  | none => d
  | some j0 =>
    let d0 := d.takeNonces q j0
    match d0.job? q slot with
    | none => d
    | some j =>
      let p := d0.product q j
      match p.next j c0.vlen c0.src with
      | .nothing => d0
      | .halt h => d0.haltJob q slot h
      | .curd c unitEnd begins =>
        match d0.sendCurd q j (i - 1) with
        | (none, d1) => d1
        | (some _, d1) =>
          let sent := j.feed.sent + c.vlen
          let up (x : Job) : Job :=
            let y := { x with feed := { x.feed with sent := sent } }
            if c.last ∧ 0 < p.rest then { y.note .longInput with excess := p.rest } else y
          let d2 := match d1.job? q slot with
            | some x => d1.setJob q (up x)
            | none => d1
          let d3 := if ¬begins then d2
            else if j.purpose = 3 ∧ j.par 65 1 ≠ 1 then d2.bump (F.CIPH_CNT_COUNT q 2) 0x162 q 1
            else if j.desc.prog = 5 then
              if j.par 64 1 < 3 then d2.bump (F.DGST_CNT_COUNT q 1) 0x169 q 1 else d2.bump (F.DGST_CNT_COUNT q 2) 0x16A q 1
            else d2
          let d4 := (d3.takeCurd q slot i c []).gainCheck q slot sent unitEnd
          match p.halt with
          | some h => if unitEnd = sent ∧ sent = (p.units.map OutUnit.size).sum then d4.haltJob q slot h else d4
          | none => d4

/-- CURD_ARRIVAL (R213): a curd of the job in `slot` goes from stage `i - 1` to stage `i` of its chain. Where stage `i - 1`
is CPORT_OUT, the curd is the one at POUT_HEAD of its program; where it does the work of a fixed program that runs in order, the next of
what it makes of its input; where it is CHSRC or MEMSRC, the next bytes of the job's namespace or SLM; where it is XQ_IN, the next that the
quadrant in `c0.src` has sent. `finds` is what the receiving engine of a downloadable program's pipeline finds in it. A curd of a job that
has ended is discarded and counted (R221). -/
def curdArrival (q slot i : Nat) (c0 : CurdIn) (finds : List Finding) (d : Dev) : Dev :=
  if ¬d.quadOk q ∨ d.isolated q then d
  else match d.job? q slot with
  | none => (d.bump (F.TREL_CNT_COUNT q 5) 0x145 q 1).raise (quadEvent q 1 2) noPlot []
  | some j =>
    if i = 0 ∨ tplStages j.words ≤ i ∨ (i + 1 = tplStages j.words ∧ stageTy j.words i = 0x0B ∧
        d.chanHeld (j.desc.outoff + d.outUsed q j) c0.vlen = true) then d
    else if stageTy j.words (i - 1) = 0x0A then
      match (d.inst? j.desc.tag).bind ProgInst.takeOut with
      | none => d
      | some (c, x) =>
        match d.sendCurd q j (i - 1) with
        | (none, d1) => d1
        | (some _, d1) => (d1.wakeInst x).takeCurd q slot i c finds
    else if j.work? = some (i - 1) then d.workOut q slot i c0
    else if i = 1 ∧ (stageTy j.words 0 = 1 ∨ stageTy j.words 0 = 2) ∧ d.fencedInput j (j.skip + j.inBytes) c0.vlen = true then
      d.setJob q (j.note .fenced)
    else match (if i = 1 ∧ stageTy j.words 0 = 0x0E then d.xqTake (c0.src % 4) else some (if i = 1 then d.sourced j c0 else c0, d)) with
      | none => d
      | some (c, d1) =>
        match d1.sendCurd q j (i - 1) with
        | (none, d2) => { d2 with trel := { d2.trel with xq := d.trel.xq } }
        | (some _, d2) => d2.takeCurd q slot i c (if j.work? = some i then [] else finds)

def execCurdArrival (q slot stage : Nat) (curd : CurdIn) (finds : List Finding) := run (curdArrival q slot stage curd finds)

/-! ### The end of a job (R219 to R221, R234, R235) -/

/-- SEEN (R219). -/
def Job.seen (j : Job) : Nat :=
  let has (c : Js) (b : Nat) : Nat := if j.conds.contains c then 2 ^ b else 0
  has .poison 0 + has .authFail 1 + has .shortInput 2 + has .longInput 3 + has .noGain 4 + has .matchLimit 5 +
    64 * Bool.nat j.resumed + 128 * Bool.nat j.voided

/-- AUX (R219). -/
def Job.aux (j : Job) (js : Js) : Nat :=
  match js with
  | .longInput => j.excess
  | .outOfSpace => j.token.getD 0
  | .authFail => j.untrustedAt.getD 0
  | _ => 0

/-- The result summary (R234). -/
def Summary.bytes (s : Summary) (seen : Nat) : List Byte :=
  leBytes 8 s.seen ++ leBytes 8 s.passed ++ leBytes 8 s.badFields ++ leBytes 8 s.shorts ++ leBytes 8 s.poisoned ++
    leBytes 8 s.longs ++ leBytes 8 s.unmapped ++ leBytes 1 seen ++ leBytes 7 0

def Summary.add (a b : Summary) : Summary :=
  { seen := a.seen + b.seen, passed := a.passed + b.passed, badFields := a.badFields + b.badFields,
    shorts := a.shorts + b.shorts, poisoned := a.poisoned + b.poisoned, longs := a.longs + b.longs,
    unmapped := a.unmapped + b.unmapped }

/-- A completion entry (R219). -/
def cplBytes (seq : Nat) (j : Job) (js : Js) (outBytes : Nat) : List Byte :=
  leBytes 4 seq ++ leBytes 4 j.desc.subseq ++ leBytes 1 js.code ++ leBytes 1 j.seen ++ leBytes 1 j.desc.gen ++
    leBytes 5 0 ++ leBytes 8 j.inBytes ++ leBytes 8 outBytes ++ leBytes 8 (j.aux js) ++ leBytes 8 j.sum.poisoned ++ leBytes 16 0

/-- Write a job's completion entry and advance CMPSEQ (R219); nothing of an earlier generation is written to SLM (R220).
A program that waits on the ring may run again (R347). -/
def Dev.postCpl (d : Dev) (q : Nat) (j : Job) (js : Js) (outBytes : Nat) : Dev :=
  let r := j.ring
  let seq := d.f (F.TREL_RCMP_CMPSEQ q r)
  let late := decide (16 ≤ r) && (d.flag (F.TREL_RCTL_STALE q r) || js == .genStale)
  let a := d.ringBase q r + d.ringE q r * 128 + seq % d.ringE q r * 64
  let d1 := if late then d else d.setRingMem q r ((d.ringMem q r).setBytes a (cplBytes seq j js outBytes))
  let d2 := (d1.setF (F.TREL_RCMP_CMPSEQ q r) ((seq + 1) % 2 ^ 32)).setF (F.TREL_RSTAT_ACTIVE q r)
    (d1.f (F.TREL_RSTAT_ACTIVE q r) - 1)
  (d2.core.insts.filter (fun x => x.quad == q && x.rings.contains r)).foldl (fun (e : Dev) x => e.wakeInst x) d2

/-- The completion of a program command for its job status (R81, R221, R235): status, Dword 0, Dword 1. -/
def progStatus (js : Js) (c : ProgCmd) (inlen gen : Nat) : Sc × Nat × Nat :=
  let two (v : Nat) : Nat × Nat := (v % 2 ^ 32, v / 2 ^ 32 % 2 ^ 32)
  match js with
  | .ok | .matchLimit => (.success, c.outBytes % 2 ^ 32, c.outBytes / 2 ^ 32 % 2 ^ 24 + 2 ^ 24 * js.code)
  | .shortInput => (.vendor 0xC2, two c.inBytes)
  | .longInput => (.vendor 0xC3, two c.aux)
  | .outOfSpace => (.capacityExceeded, two c.aux)
  | .noGain => (.vendor 0xC6, inlen % 2 ^ 32, 0)
  | .authFail => (.vendor 0xC1, two c.aux)
  | .poison => (.unrecoveredReadError, 0, 0)
  | .preempted => (.vendor 0xC4, c.engine, 0)
  | .epochExhausted => (.vendor 0xC5, c.label, 0)
  | .genStale => (.vendor 0xC8, gen, 0)
  | .badDesc => (.invalidField, 0, 0)
  | .timeout => (.internalErrorTimeout, 0, 0)
  | .fenced => (.vendor 0xC0, 0xFF, 0)
  | _ => (.internalError, js.code, 0)

/-- Dword 0 of C0h (R81, R194): the anchor of the continuing side that a heartbeat has named within MISS, else FFh. -/
def Dev.fenceDw (d : Dev) : Nat :=
  let fresh := d.gwl.heard.filter (fun h =>
    decide (d.now < AMap.get 0 h.1 d.gwl.heardAt + d.f F.GWL_HB_MISS) && h.2.mode != 9)
  match fresh with
  | h :: _ => h.2.anchor
  | [] => 0xFF

/-- Complete a program command. C0h carries the anchor on the continuing side (R81). -/
def Dev.finishCmd (d : Dev) (c : ProgCmd) (inlen : Nat) : Dev :=
  let r := progStatus c.js c inlen (d.plotGen c.id.plot)
  let dw0 := if c.js = .fenced then d.fenceDw else r.2.1
  (d.result c.id r.1 dw0 r.2.2).dropCmd c.tag

/-- A program instance has ended and both its jobs have ended: its rings are disabled (R345), the result record is written
except after a plot reset (R352), and its command completes (R351). -/
def Dev.progFinish (d : Dev) (tag : Nat) : Dev :=
  match d.inst? tag, d.cmd? tag with
  | some x, some c =>
    match x.ended with
    | none => d
    | some e =>
      if c.left ≠ 0 then d
      else
        let js := jsFinal [e.js, c.js]
        let d1 := x.rings.foldl (fun (y : Dev) r => y.setF (F.TREL_RCTL_EN x.quad r) 0) d
        let rec_ := leBytes 1 js.code ++ leBytes 1 e.cause ++ leBytes 1 e.bits ++ leBytes 1 x.quad ++ leBytes 1 e.core ++
          leBytes 3 0 ++ leBytes 8 e.val ++ leBytes 8 e.pc ++ leBytes 8 e.fl ++ leBytes 8 x.usedUs ++ leBytes 8 x.retired ++
          leBytes 8 x.discarded ++ leBytes 8 0
        let d2 := if js = .genStale then d1
          else d1.setSlm x.plot ((d1.slm x.plot).store x.launch.recoff rec_ [])
        let d3 := { d2 with core := { d2.core with insts := d2.core.insts.filter (fun y => y.tag != tag) } }
        if js = .coreTrap then (d3.result c.id .internalError (js.code + 256 * e.cause) 0).dropCmd tag
        else d3.finishCmd { c with js := js } x.launch.inlen
  | _, _ => d

/-- The earlier of two statuses in the order of R221. -/
def jsFirst (a b : Js) : Js := jsFinal [a, b]

/-- HIF takes a job's completion entry for its command (R14, R234, R235). The last of the command's jobs completes it. The
completion of a downloadable program waits for its end (R351). -/
def Dev.toCmd (d : Dev) (j : Job) (js : Js) : Dev :=
  match d.cmd? j.desc.tag with
  | none => d
  | some c =>
    let js1 := jsFirst c.js js
    let c1 : ProgCmd := { c with
      left := c.left - 1
      js := js1
      outBytes := c.outBytes + j.outBytes
      inBytes := c.inBytes + j.inBytes
      aux := if js = .longInput ∧ c.js = .longInput then c.aux + j.aux js
             else if js1 = js ∧ js ≠ c.js then j.aux js
             else if js = .outOfSpace ∧ c.js = .outOfSpace then min c.aux (j.aux js) else c.aux
      engine := if js = .preempted then j.eng else c.engine
      label := if js = .epochExhausted then j.purpose + 256 * j.desc.plot else c.label
      sum := c.sum.add j.sum
      seen := c.seen ||| j.seen
      wrote := (c.wrote ++ j.wrote).drop (c.wrote.length + j.wrote.length - 256) }
    let d1 := d.setCmd c1
    if (d1.inst? c.tag).isSome then d1.progFinish c.tag
    else if c1.left ≠ 0 then d1
    else
      let stale := js1 == .genStale
      let d2 := if hasSummary j.desc.prog ∧ js1 ≠ .badDesc ∧ ¬stale then
          d1.setSlm j.desc.plot ((d1.slm j.desc.plot).store j.desc.outoff (c1.sum.bytes c1.seen) [])
        else d1
      let c2 := if hasSummary j.desc.prog then { c1 with outBytes := c1.outBytes + 64 } else c1
      d2.finishCmd c2 j.desc.inlen

/-- Release everything a job holds: engine contexts, key slots, its Skim context, its tables. -/
def Dev.freeJob (d : Dev) (q : Nat) (j : Job) : Dev :=
  let d1 := [0, 1, 2, 3].foldl (fun (e : Dev) k => e.engFree k q (.job j.slot)) d
  let d2 := d1.unpin q (.job j.slot)
  let d3 := if j.skim.isSome then d2.skimFree (skimName q j.slot) else d2
  (d3.setJobs q ((d3.jobs q).filter (fun x => x.slot != j.slot))).tblSweep

/-- End a job once (R221): free what it holds, count it, write its completion entry, and pass it to HIF. -/
def Dev.endJob (d : Dev) (q slot : Nat) : Dev :=
  match d.job? q slot with
  | none => d
  | some j =>
    let js := jsFinal j.conds
    let good := js == .ok || js == .matchLimit
    let d1 := d.freeJob q j
    let d2 := d1.bump (F.TREL_CNT_COUNT q (if js = .ok then 1 else 2)) (if js = .ok then 0x141 else 0x142) q 1
    let d3 := if good then d2 else d2.raise (quadEvent q 1 1) j.desc.plot []
    let d4 := d3.postCpl q j js (j.outBytes + if hasSummary j.desc.prog then 64 else 0)
    if j.ring < 16 then d4.toCmd j js else if js = .poison then d4.smart j.desc.plot 4 1 else d4

/-- The jobs of a quadrant whose descriptor satisfies `p` end with a status, those that still wait on their ring too. -/
def Dev.endJobs (d : Dev) (q : Nat) (js : Js) (p : JobDesc → Bool) : Dev :=
  let d1 := ((d.waits q).filter (fun w => p w.2)).foldl (fun (x : Dev) w =>
    let j := x.newJob q w.1 w.2
    (x.setF (F.TREL_RSTAT_ACTIVE q w.1) (x.f (F.TREL_RSTAT_ACTIVE q w.1) + 1)).setJobs q (x.jobs q ++ [j]))
    (d.setWaits q ((d.waits q).filter (fun w => !p w.2)))
  (((d1.jobs q).filter (fun j => p j.desc)).map (fun j => j.slot)).foldl (fun (x : Dev) s => (x.jobCond q s js).endJob q s) d1

/-- JOB_END (R221): a job that a status has ended, or whose LAST has reached the sink, ends. -/
def jobEnd (q slot : Nat) (d : Dev) : Dev :=
  match d.job? q slot with
  | some j => if j.ending || j.drained then d.endJob q slot else d
  | none => d

def execJobEnd (q slot : Nat) := run (jobEnd q slot)

/-- JOB_TIMEOUT (R221, R217): the job's TIMEOUT expires. A last curd taken in the same cycle completes the job (R32). -/
def jobTimeout (q slot : Nat) (d : Dev) : Dev :=
  match d.job? q slot with
  | some j => if j.desc.timeout = 0 ∨ j.drained then d else (d.jobCond q slot .timeout).endJob q slot
  | none => d

def execJobTimeout (q slot : Nat) := run (jobTimeout q slot)

/-! ### Grafts (R238) -/

/-- Show a segment: TREL_CFG and the templates. -/
def Dev.segShow (d : Dev) (q : Nat) (s : Segment) : Dev :=
  let d1 := (d.setF (F.TREL_CFG_PIPES q) s.templates.length).setF (F.TREL_CFG_SEGVER q) s.segver
  (List.range 64).foldl (fun (e : Dev) p =>
    let w := ((s.tpl? p).map Template.words).getD []
    (List.range 16).foldl (fun (e1 : Dev) i => e1.setF (F.TREL_PIPE_DESC q p i) (w.getD i 0)) e) d1

/-- Put a segment in force. -/
def Dev.setSegment (d : Dev) (q : Nat) (s : Segment) : Dev :=
  ({ d with trel := { d.trel with segs := AMap.put q s d.trel.segs } }).segShow q s

/-- SEGMENT_SWAPPED (R238): the last job on a changed template has ended; the waiting segment swaps in. -/
def segmentSwapped (q : Nat) (d : Dev) : Dev :=
  match AMap.find q d.trel.swap with
  | none => d
  | some s =>
    if (d.jobs q).any (fun j => d.graftHolds q j.desc.pid) then d
    else
      let d1 := { d with trel := { d.trel with swap := AMap.del q d.trel.swap } }
      let d2 := if d1.f F.BRZ_GRAFT_QUAD = q then d1.setF F.BRZ_GRAFT_PENDING 0 else d1
      (d2.setSegment q s).raise (quadEvent q 1 3) noPlot []

def execSegmentSwapped (q : Nat) := run (segmentSwapped q)

end Sys2Proof.Machine
end

