-- ==== Sys2Proof/Machine/Churn.lean ====
section
/-! DEFINITION. Churn (chapter 10): the pipes' suspension points (R241) and the transparent compression of namespaces
(R252 to R256). The compression and decompression of program jobs are curds (`Sys2Proof.Machine.Trellis`). -/

namespace Sys2Proof.Machine

/-- CHURN_JOB_SWITCH (R241, R93): a suspension point of pipe `pipe` (0 CHURN_C, 1 CHURN_D); the running job has consumed `n`
bytes since the last one, and `ended` says that it is over. -/
def churnJobSwitch (q pipe n : Nat) (ended : Bool) (d : Dev) : Dev :=
  if d.quadOk q && decide (pipe < 2) then (d.engPoint 2 q pipe n ended (d.f (F.CHURN_CFG_QUANTUM q) * 65536)).2 else d

def execChurnJobSwitch (q pipe n : Nat) (ended : Bool) := run (churnJobSwitch q pipe n ended)

/-- The holder name of an internal request for an IU. -/
def iuUser (nsid iu : Nat) : EngUser := .internal (iuKey nsid iu)

/-- An internal request for an IU has a context. -/
def Dev.iuHas (d : Dev) (q nsid iu : Nat) : Bool := (d.eng 2 q).ctxs.any (fun c => c.user == iuUser nsid iu)

/-- IU_COMPRESS (R253): destage compresses an IU of a compressed namespace on CHURN_C of quadrant `q`, in class 2. With contexts 56 to 63
all in use it waits (R240). An IU with poison or a marked block is stored uncompressed. -/
def iuCompress (q nsid iu : Nat) (d : Dev) : Dev :=
  match d.ns? nsid, d.liveCommit nsid iu with
  | some n, some c =>
    if ¬d.quadOk q ∨ n.comp = 0 then d
    else
      let d1 := d.engTakeInternal 2 q 2 0 (iuUser nsid iu)
      if ¬d1.iuHas q nsid iu then d1
      else
        let slots := (c.iuSlotsOf n.iuSlots iu).map (fun s => AMap.get ⟨0, 0, 0, false⟩ s d.mram.slots)
        let plain := slots.any (fun s => s.poison || s.umask != 0)
        let k := if plain then [] else Fmt.iuPack n.comp (slots.flatMap (fun s => leBytes 4096 s.data))
        let clen := ((Fmt.iuCoded n.comp (slots.flatMap (fun s => leBytes 4096 s.data))).map List.length).getD 0
        let d2 := { d1 with ftl := { d1.ftl with packed := AMap.put (iuKey nsid iu) k d1.ftl.packed } }
        let d3 := if plain then d2
          else (d2.bump (F.CHURN_CNT_COUNT q 0) 0x150 q n.iuBytes).bump (F.CHURN_CNT_COUNT q 1) 0x151 q clen
        let d4 := if k.isEmpty then d3.bump (F.CHURN_CNT_COUNT q 7) 0x157 q 1 else d3
        d4.engFree 2 q (iuUser nsid iu)
  | _, _ => d

def execIuCompress (q nsid iu : Nat) := run (iuCompress q nsid iu)

/-- The decompressed IU is given to the reads that wait for it; `none` delivers it poisoned. -/
def BlkSrc.fillPacked (b : BlkSrc) (nsid loc lbaf : Nat) (data : Option Nat) : BlkSrc :=
  match b with
  | .packed n _ l sub =>
    if n = nsid ∧ l = loc then
      match data with
      | some v => .val (v / 2 ^ (8 * lbaBytes lbaf * sub) % 2 ^ (8 * lbaBytes lbaf))
      | none => .bad
    else b
  | _ => b

/-- Deliver a decompressed IU. -/
def Dev.deliverIu (d : Dev) (n : Ns) (loc : Nat) (data : Option Nat) : Dev :=
  let up (j : ReadJob) : ReadJob := { j with blocks := j.blocks.map (fun b => b.fillPacked n.nsid loc n.lbaf data) }
  ({ d with ftl := { d.ftl with reads := d.ftl.reads.map up } }).finishReads

/-- The codewords of a compressed IU as they have come in for its readers, each `none` where it is poisoned; nothing while one is still to
come. -/
def Dev.iuGot (d : Dev) (nsid loc : Nat) : Option (List (Option Cw)) :=
  let got := (d.iuLocs nsid loc).map (fun l => AMap.find l d.ftl.packIn)
  if got.all Option.isSome then some (got.filterMap id) else none

/-- The first codeword of the oldest copy of a compressed IU that a read waits for. -/
def Dev.packedAt (d : Dev) (nsid iu : Nat) : Option Nat :=
  (d.ftl.reads.flatMap ReadJob.blocks).findSome? (fun b => match b with
    | .packed n i l _ => if n = nsid ∧ i = iu then some l else none
    | _ => none)

/-- A compressed IU that no check lets through (R256): CHURN_ERR, the counts, IU_CORRUPT. -/
def Dev.iuCorrupt (d : Dev) (q nsid iu : Nat) (f : Finding) (off : Nat) : Dev :=
  let d1 := ((((d.setF (F.CHURN_ERR_CODE q) (findingJs f).code).setF (F.CHURN_ERR_JOB q) 0).setF (F.CHURN_ERR_INTERNAL q) 1).setF
    (F.CHURN_ERR_VALID q) 1).setF (F.CHURN_ERROFF_OFFSET q) off
  ((d1.bump (F.CHURN_CNT_COUNT q 5) 0x155 q 1).bump (F.CHURN_CNT_COUNT q 6) 0x156 q 1).raise (quadEvent q 2 2) noPlot [nsid, iu]

/-- IU_DECOMPRESS (R255, R256): the codewords of a compressed IU have come in, and CHURN_D of the quadrant that holds the first
decompresses the whole of it, in class 3. Poison in one of them delivers the IU poisoned. -/
def iuDecompress (nsid iu : Nat) (d : Dev) : Dev :=
  let loc := (d.packedAt nsid iu).getD 0
  let q := dieChan (locDie loc) / 8
  match d.ns? nsid, d.iuGot nsid loc with
  | some n, some cws =>
    if ¬d.quadOk q ∨ d.packedAt nsid iu = none ∨ cws.isEmpty then d
    else
      let d1 := d.engTakeInternal 2 q 3 1 (iuUser nsid iu)
      if ¬d1.iuHas q nsid iu then d1
      else
        let d2 := (d1.bump (F.CHURN_CNT_COUNT q 2) 0x152 q (4096 * cws.length)).engFree 2 q (iuUser nsid iu)
        if cws.any Option.isNone then d2.deliverIu n loc none
        else match Fmt.iuOpen n.iuBytes ((cws.filterMap id).map Cw.data) with
        | .ok v => (d2.bump (F.CHURN_CNT_COUNT q 3) 0x153 q n.iuBytes).deliverIu n loc (some v)
        | .error (f, off) => (d2.iuCorrupt q nsid iu f off).deliverIu n loc none
  | _, _ => d

def execIuDecompress (nsid iu : Nat) := run (iuDecompress nsid iu)

end Sys2Proof.Machine
end

