-- ==== Sys2Proof/Machine/Cores.lean ====
section
/-! DEFINITION. Field cores and downloadable programs (chapter 14): the region table, program images and their checks,
dispatch and quanta, stream ports, traps and delegation (R327 to R330, R349, R350), the end of a program (R351 to R354). -/

namespace Sys2Proof.Machine

/-! ### Cores -/

/-- Is core `c` a field core, a steward core? Core 32 is the security core. -/
def fieldCore (c : Nat) : Bool := decide (c < 32) && decide (c % 8 < 6)
def stewardCore (c : Nat) : Bool := decide (c < 32) && decide (6 ≤ c % 8)

/-- Where a core starts after a core reset (R333); the security core's start address is not in the spec: 0. -/
def coreStart (c : Nat) : Nat := if fieldCore c then 0x3C000 else 0

def Dev.cpu (d : Dev) (c : Nat) : CoreSt := AMap.get (CoreSt.reset (coreStart c)) c d.core.cores

def Dev.setCpu (d : Dev) (c : Nat) (s : CoreSt) : Dev :=
  { d with core := { d.core with cores := AMap.set (CoreSt.reset (coreStart c)) c s d.core.cores } }

/-- CORE_STAT.STATE; the security core has no such register and always runs. -/
def Dev.coreState (d : Dev) (c : Nat) : Nat := if c < 32 then d.f (F.CORE_STAT_STATE c) else 2

def Dev.setCoreState (d : Dev) (c v : Nat) : Dev := if c < 32 then d.setF (F.CORE_STAT_STATE c) v else d

/-- CORE_STAT.STATE of a core that runs at S: 2, and 0 for a field core with no program on it (DESIGN CHOICE, assumption 60). -/
def Dev.stateAtS (d : Dev) (c : Nat) : Nat := if fieldCore c ∧ (d.cpu c).prog.isNone then 0 else 2

/-- Add to a core counter and its PMU source. -/
def Dev.coreBump (d : Dev) (c k n : Nat) : Dev :=
  if c < 32 then d.bump (F.CORE_CNT_COUNT c k) (0x178 + 8 * (c % 8) + k) (c / 8) n else d

/-- pstat fields (R299). -/
def CoreSt.prv (s : CoreSt) : Bool := s.pstat.getLsbD 0
def CoreSt.ie (s : CoreSt) : Bool := s.pstat.getLsbD 2
def CoreSt.nest (s : CoreSt) : Bool := s.pstat.getLsbD 4

/-- Register `g i`: g0 reads zero. -/
def CoreSt.reg (s : CoreSt) (i : Nat) : W64 := if i = 0 then 0#64 else s.g.getD i 0#64

/-- Write register `g i`: writes to g0 are discarded. -/
def CoreSt.setReg (s : CoreSt) (i : Nat) (v : W64) : CoreSt :=
  if i = 0 then s else { s with g := s.g.setIfInBounds i v }

/-! ### Region table (R334, R335) -/

/-- The kinds of access. -/
inductive Acc where
  | fetch | load | store | atomic
  deriving DecidableEq, Repr

/-- tcause.ACC. -/
def accCode : Acc → Nat
  | .fetch => 0
  | .load => 1
  | .store => 2
  | .atomic => 3

/-- Does region entry `i` of a core cover the bytes? -/
def Dev.rgnCovers (d : Dev) (c i addr size : Nat) : Bool :=
  d.flag (F.CORE_RGN_V c i) && decide (d.f (F.CORE_RGN_BASE c i) * 4096 ≤ addr ∧
    addr + size - 1 ≤ d.f (F.CORE_RLIM_LIMIT c i) * 4096 + 0xFFF)

/-- Does the entry grant this kind of access at this privilege (`s` for S)? -/
def Dev.rgnGrants (d : Dev) (c i : Nat) (s : Bool) (k : Acc) : Bool :=
  let r := d.flag (if s then F.CORE_RGN_SR c i else F.CORE_RGN_PR c i)
  let w := d.flag (if s then F.CORE_RGN_SW c i else F.CORE_RGN_PW c i)
  match k with
  | .fetch => d.flag (if s then F.CORE_RGN_SX c i else F.CORE_RGN_PX c i)
  | .load => r
  | .store => w
  | .atomic => r && w

/-- Is the access permitted: the lowest entry that covers it decides (R334)? The security core's table is not in control
space and not described; its accesses are permitted (PRESUMED, assumption 40). -/
def Dev.rgnOk (d : Dev) (c addr size : Nat) (s : Bool) (k : Acc) : Bool :=
  c == 32 || match (List.range 16).find? (fun i => d.rgnCovers c i addr size) with
    | some i => d.rgnGrants c i s k
    | none => false

/-- Set a region entry: pages `lo` to `hi`, the P rights as R, W, X; the monitor keeps read and write at S (DESIGN CHOICE,
assumption 41). -/
def Dev.setRgn (d : Dev) (c i : Nat) (v : Bool) (base last : Nat) (r w x : Bool) : Dev :=
  let d1 := ((d.setF (F.CORE_RGN_V c i) (Bool.nat v)).setF (F.CORE_RGN_BASE c i) (base / 4096)).setF
    (F.CORE_RLIM_LIMIT c i) (last / 4096)
  let d2 := ((d1.setF (F.CORE_RGN_PR c i) (Bool.nat r)).setF (F.CORE_RGN_PW c i) (Bool.nat w)).setF (F.CORE_RGN_PX c i)
    (Bool.nat x)
  ((d2.setF (F.CORE_RGN_SR c i) 1).setF (F.CORE_RGN_SW c i) 1).setF (F.CORE_RGN_SX c i) 0

/-! ### Program images (R336, R337) -/

/-- A segment: ADDR, FILELEN, MEMLEN, PERM. -/
structure Seg where
  addr : Nat
  filelen : Nat
  memlen : Nat
  perm : Nat
  deriving DecidableEq, Repr

def imgEntry (b : List Byte) : Nat := field b 12 4
def imgStack (b : List Byte) : Nat := field b 16 4
def imgUtrap (b : List Byte) : Nat := field b 20 4
def imgMask (b : List Byte) : Nat := field b 24 2
def imgNseg (b : List Byte) : Nat := field b 26 1
def imgSigKey (b : List Byte) : Nat := field b 27 1
def imgHasUtrap (b : List Byte) : Bool := bit (field b 6 2) 0

/-- The segments of an image. -/
def imgSegs (b : List Byte) : List Seg :=
  (List.range (min 8 (imgNseg b))).map (fun i =>
    let o := 32 + 16 * i
    { addr := field b o 4, filelen := field b (o + 4) 4, memlen := field b (o + 8) 4, perm := field b (o + 12) 1 })

/-- The last byte of a segment after rounding. -/
def Seg.top (s : Seg) : Nat := s.addr + 4096 * ceilDiv s.memlen 4096

def Seg.isW (s : Seg) : Bool := bit s.perm 1
def Seg.isX (s : Seg) : Bool := bit s.perm 2

/-- The file data of each segment. -/
def segData (b : List Byte) : List Seg → Nat → List (Seg × List Byte)
  | [], _ => []
  | s :: t, o => (s, (b.drop o).take s.filelen) :: segData b t (o + s.filelen)

/-- Check 0x0002: MAGIC, VERSION, FLAGS, reserved bytes. -/
def imgHeadOk (b : List Byte) : Bool :=
  decide (256 ≤ b.length) && b.take 4 == [0x56#8, 0x5A#8, 0x50#8, 0x47#8] && field b 4 2 == 1 && decide (field b 6 2 ≤ 1) &&
  decide (field b 24 2 < 64) && (List.range 8).all (fun i =>
    if i < imgNseg b then zeroAt b (45 + 16 * i) 3 else zeroAt b (32 + 16 * i) 16)

/-- Check 0x0003: IMGLEN and CRC. -/
def imgCrcOk (b : List Byte) : Bool :=
  field b 8 4 == b.length && field b 28 4 == crc32c (b.take 28 ++ (b.drop 32).take 128 ++ b.drop 256)

/-- Check 0x0004: segments, ENTRY, STACK, UTRAP (R336). -/
def imgLayoutOk (b : List Byte) : Bool :=
  let ss := imgSegs b
  let one (s : Seg) : Bool := s.addr % 4096 == 0 && decide (s.filelen ≤ s.memlen ∧ s.memlen ≤ 240 * 1024 ∧
    s.top ≤ 0x3C000 ∧ s.perm < 8) && !(s.isW && s.isX)
  let inX (a : Nat) : Bool := ss.any (fun s => s.isX && decide (s.addr ≤ a ∧ a < s.addr + s.memlen))
  let rec apart : List Seg → Bool
    | [] => true
    | s :: t => t.all (fun u => decide (s.top ≤ u.addr ∨ u.top ≤ s.addr)) && apart t
  decide (1 ≤ imgNseg b ∧ imgNseg b ≤ 8) && ss.all one && apart ss && imgEntry b % 4 == 0 && inX (imgEntry b) &&
  imgStack b % 16 == 0 && ss.any (fun s => s.isW && decide (s.addr ≤ imgStack b ∧ imgStack b ≤ s.addr + s.memlen)) &&
  (if imgHasUtrap b then inX (imgUtrap b) else imgUtrap b == 0) &&
  b.length == 256 + (ss.map Seg.filelen).sum && decide (b.length ≤ 256 + 240 * 1024)

/-- The first check of R337 that an image fails. `sigOk` says that its signature verifies with the key it names. -/
def Dev.imgCheck (d : Dev) (plot index : Nat) (b : List Byte) (sigOk : Bool) : Option Nat :=
  let s := d.boot.stream
  let signedOnly := ((s.map Stream.plots).getD []).any (fun (p : PlotEnt) => p.plot == plot && p.signedOnly)
  let keys := (s.map Stream.progKeys).getD []
  let key := imgSigKey b
  let taken := d.core.progs.any (fun p => p.plot == plot && p.index == index) ||
    d.trel.images.any (fun m => m.plot == plot && m.index == index)
  if ¬imgHeadOk b then some 2
  else if ¬imgCrcOk b then some 3
  else if ¬imgLayoutOk b then some 4
  else if 512 ≤ d.core.progs.length ∨ 16 ≤ (d.core.progs.filter (fun p => p.plot == plot)).length ∨ taken ∨
      512 * 2 ^ 20 < ((d.core.progs.map (fun p => p.image.length)).sum + b.length) ∨ ¬(0x10 ≤ index ∧ index ≤ 0xFF) then some 5
  else if key = 0xFF then (if signedOnly = true then some 6 else none)
  else if keys.any (fun k => k.1 == key) && sigOk then none else some 6

/-! ### Launch blocks (R338) -/

/-- A launch block, decoded. -/
def launchOf (b : List Byte) : Launch :=
  { pver := field b 0 1, flags := field b 1 1, urg := field b 2 1, quad := field b 3 1, nsid := field b 4 4,
    instart := field b 8 8, inlen := field b 16 8, outoff := field b 24 8, outcap := field b 32 8, inpid := field b 40 1,
    outpid := field b 41 1, rings := field b 42 1, log2e := field b 43 1, timeout := field b 44 4, argoff := field b 48 8,
    arglen := field b 56 4, recoff := field b 64 8, ringoff := field b 72 8,
    zeros := decide (128 ≤ b.length) && zeroAt b 60 4 && zeroAt b 80 48 }

def Launch.isIn (l : Launch) : Bool := bit l.flags 0
def Launch.isOut (l : Launch) : Bool := bit l.flags 1

/-- The free plot rings of a quadrant. -/
def Dev.freeRings (d : Dev) (q : Nat) : List Nat :=
  ((List.range 48).map (fun i => 16 + i)).filter (fun r =>
    !d.flag (F.TREL_RCTL_EN q r) && d.f (F.TREL_RSTAT_ACTIVE q r) == 0)

/-- The checks of R338 for quadrant `q`. -/
def Dev.launchOk (d : Dev) (plot q : Nat) (l : Launch) : Bool :=
  let top := d.slmBytes plot
  let inRange (o n : Nat) : Bool := n == 0 || decide (o + n ≤ top)
  let tpl (pid : Nat) : List Nat := (((d.seg? q).bind (fun s => s.tpl? pid)).map Template.words).getD []
  l.zeros && l.pver == 1 && decide (l.flags < 4 ∧ l.urg ≤ 3 ∧ l.rings ≤ 4) && (l.quad == 0xFF || decide (l.quad < 4)) &&
  (l.rings == 0 || (decide (4 ≤ l.log2e ∧ l.log2e ≤ 12) && l.ringoff % 4096 == 0)) && l.recoff % 64 == 0 &&
  inRange l.recoff 64 && inRange l.argoff l.arglen && inRange l.ringoff (l.rings * 2 ^ l.log2e * 192) &&
  (!l.isOut || inRange l.outoff l.outcap) && (!l.isIn || l.nsid != 0 || inRange l.instart l.inlen) &&
  (!l.isIn || (decide (2 ≤ tplStages (tpl l.inpid)) && stageTy (tpl l.inpid) (tplStages (tpl l.inpid) - 1) == 0x09)) &&
  (!l.isOut || stageTy (tpl l.outpid) 0 == 0x0A) && d.quadOk q && decide (l.rings ≤ (d.freeRings q).length)

/-- Enable a program's rings (R216, R339, R345). -/
def Dev.launchRings (d : Dev) (q plot : Nat) (l : Launch) : List Nat × Dev :=
  let rs := (d.freeRings q).take l.rings
  (rs, rs.zipIdx.foldl (fun (e : Dev) r =>
    ((((e.setF (F.TREL_RBASE_BASE q r.1) (l.ringoff + r.2 * 2 ^ l.log2e * 192)).setF (F.TREL_RCTL_LOG2E q r.1)
      l.log2e).setF (F.TREL_RCTL_PLOT q r.1) plot)).ringEnable q r.1) d)

/-- HIF posts a job on its ring of the quadrant (DESIGN CHOICE: ring 0, assumption 42). -/
def Dev.hifPost (d : Dev) (q : Nat) (x : JobDesc) : Dev :=
  let s := (d.f (F.TREL_RSUB_SUB q 0) + 1) % 2 ^ 32
  (d.setF (F.TREL_RSUB_SUB q 0) s).setWaits q (d.waits q ++ [(0, { x with subseq := s })])

/-- Start the launch of a program: its rings are enabled and the instance waits for a core (R339). -/
def Dev.launch (d : Dev) (tag : Nat) (id : CmdId) (p : LoadedProg) (q : Nat) (l : Launch) : Dev :=
  let r := d.launchRings q p.plot l
  let x : ProgInst :=
  { tag := tag, id := id, plot := p.plot, gen := d.plotGen p.plot, index := p.index, quad := q, launch := l,
    image := p.image, rings := r.1, started := none, core := none, onAt := 0, saved := none, inTrap := false,
    waiting := false, usedUs := 0, retired := 0, pinHead := 0, pinTail := 0, poutTail := 0, poutHead := 0, inCurds := [],
    out := Mem.init, inLast := false, outLast := false, autoLast := false, untr := false, outOff := 0, inSlot := none,
    outSlot := none, ended := none, discarded := 0 }
  let d1 := r.2.coreWake q p.plot
  { d1 with core := { d1.core with insts := d1.core.insts ++ [x] } }

/-! ### Time sharing: grants (R94, R346 to R348) -/

/-- The ages of the plots at the grants of a quadrant's field cores (R24). -/
def Dev.coreArb (d : Dev) (q : Nat) : Arb := AMap.get ⟨[], []⟩ q d.core.arbs

/-- The plot that a field core goes to, of those whose programs `rs` compete for it (R24, R91, R94): an urgent one, else the one with the
smallest virtual time, the lowest number among equals. -/
def Dev.corePlot (d : Dev) (q : Nat) (rs : List ProgInst) : Nat :=
  let least := ((rs.map (fun x => d.coreVt q x.plot)).min?).getD 0
  let plot := (((rs.filter (fun x => d.coreVt q x.plot == least)).map ProgInst.plot).min?).getD 0
  (d.coreArb q).pick ((rs.map ProgInst.plot).eraseDups) plot

/-- The program a free core goes to: of the plot's instances the one that has used least core time, the first launched among equals
(DESIGN CHOICE, assumption 180). -/
def Dev.nextProg (d : Dev) (q : Nat) : Option ProgInst :=
  let rs := d.runnable q
  let mine := rs.filter (fun x => x.plot == d.corePlot q rs)
  let least := ((mine.map ProgInst.usedUs).min?).getD 0
  mine.find? (fun x => x.usedUs == least)

/-- The ages after a grant of a field core to a plot: one round (R24). -/
def Dev.coreRound (d : Dev) (q p : Nat) : Dev :=
  let ps := ((d.runnable q).map ProgInst.plot).eraseDups
  { d with core := { d.core with arbs := AMap.set ⟨[], []⟩ q ((d.coreArb q).round ps p) d.core.arbs } }

/-- Charge a program for its time on the core, measured by the model's clock (assumption 43). -/
def Dev.chargeProg (d : Dev) (x : ProgInst) : Dev :=
  let us := 1000 * (d.now - x.onAt)
  let w := max 1 (d.f (F.PLOT_FCORE_WEIGHT x.plot))
  (d.setCoreVt x.quad x.plot (d.coreVt x.quad x.plot + us * 65536 / w)).setInst { x with usedUs := x.usedUs + us,
                                                                                         onAt := d.now }

/-- Put segment bytes into a core's TCM; marks of the old content go. -/
def tcmLoad (m : Mem) (a : Nat) (bs : List Byte) (poison : List Nat) : Mem :=
  let m1 := (m.setPoisonRange a false bs.length).setBytes a bs
  { m1 with poison := NSet.union m1.poison poison }

/-- The region entries 0 to 11 of a program (R335). -/
def Dev.progRegions (d : Dev) (c : Nat) (x : ProgInst) : Dev :=
  let ss := imgSegs x.image
  let d1 := (List.range 8).foldl (fun (e : Dev) i =>
    match ss[i]? with
    | some s => e.setRgn c i true s.addr (s.top - 1) (bit s.perm 0) s.isW s.isX
    | none => e.setRgn c i false 0 0 false false false) d
  let slm := d.slmBytes x.plot
  let d2 := d1.setRgn c 8 (decide (0 < slm)) 0x100000000 (0x100000000 + slm - 1) true true false
  let d3 := d2.setRgn c 9 true 0x8000000 0x8007FFF true false false
  (d3.setRgn c 10 true 0x8010000 0x8011FFF true true false).setRgn c 11 true 0x801F000 0x8020FFF true true false

/-- The descriptor of a program's IN or OUT job (R339). -/
def ProgInst.job (x : ProgInst) (out : Bool) : JobDesc :=
  let l := x.launch
  { subseq := 0, pid := if out then l.outpid else l.inpid, prog := 0, resume := false, late := false, urg := l.urg,
    plot := x.plot, gen := x.gen, tag := x.tag, nsid := if out then 0 else l.nsid, instart := if out then 0 else l.instart,
    inlen := if out then 0 else l.inlen, outoff := if out then l.outoff else 0, outcap := if out then l.outcap else 0,
    param := 0, paramlen := 0, token := 0, timeout := 0, flagsOk := true }

/-- Put a program on a core: its segments are loaded (a new one's zero-filled to MEMLEN, a preempted one's W segments from
its save area), entries 0 to 11 rewritten, and its registers set. A new program's IN and OUT jobs are posted (R339, R346,
R348). -/
def Dev.putProg (d : Dev) (c : Nat) (x : ProgInst) : Dev :=
  let s := d.cpu c
  let load (m : Mem) (p : Seg × List Byte) : Mem :=
    let n := p.1.memlen - p.2.length
    tcmLoad m p.1.addr (p.2 ++ List.replicate n 0#8) []
  let blank := tcmLoad s.tcm 0 (List.replicate 0x3C000 0#8) []
  let tcm0 := (segData x.image (imgSegs x.image) 256).foldl load { blank with cells := blank.cells.filter (fun y => decide (0x3C000 ≤ y.1)) }
  let s1 : CoreSt := match x.saved with
    | some v =>
      let tcm := v.segs.foldl (fun (m : Mem) w => tcmLoad m w.1 w.2.1 w.2.2) tcm0
      { s with g := v.g, pc := v.pc, rc := v.rc, fl := v.fl, ctl := v.ctl, pstat := 4#64, delay := none, tcm := tcm,
               prog := some x.tag, waiting := false }
    | none =>
      let g := ((((Vector.replicate 32 0#64).set 4 (BitVec.ofNat 64 (0x100000000 + x.launch.argoff))).set 5
        (BitVec.ofNat 64 x.launch.arglen)).set 6 (BitVec.ofNat 64 x.launch.rings)).set 30 (BitVec.ofNat 64 (imgStack x.image))
      { s with g := g, pc := BitVec.ofNat 64 (imgEntry x.image), rc := 0#64, fl := 0#64, ctl := 0#64, pstat := 4#64,
               delay := none, tcm := tcm0, prog := some x.tag, waiting := false }
  let d1 := ((d.setCpu c s1).progRegions c x).setCoreState c 1
  let d2 := ((d1.setF (F.CORE_STAT_PLOT c) x.plot).setF (F.CORE_STAT_GEN c) x.gen).setF (F.CORE_PROG_INDEX c) x.index
  let d3 := d2.setInst { x with core := some c, onAt := d.now, saved := none, started := some (x.started.getD d.now) }
  let d4 := if x.started.isNone ∧ x.launch.isIn then d3.hifPost x.quad (x.job false) else d3
  let d5 := if x.started.isNone ∧ x.launch.isOut then d4.hifPost x.quad (x.job true) else d4
  d5.coreBump c 6 1

/-- Take the program off a core: charge it, save its state (R346), and leave the core to the monitor. -/
def Dev.offCore (d : Dev) (c : Nat) (x : ProgInst) (keep : Bool) : Dev :=
  let d1 := d.chargeProg x
  let s := d1.cpu c
  let ws := (imgSegs x.image).filter Seg.isW
  let area (m : Seg) : Nat × List Byte × List Nat :=
    (m.addr, s.tcm.bytes m.addr m.memlen,
      s.tcm.poison.filter (fun g => decide (m.addr ≤ 64 * g ∧ 64 * g < m.addr + m.memlen)))
  let v : Saved := { g := s.g, pc := s.pc, rc := s.rc, fl := s.fl, ctl := s.ctl, segs := ws.map area }
  let d2 := match d1.inst? x.tag with
    | some y => d1.setInst { y with core := none, saved := if keep then some v else none }
    | none => d1
  let d3 := d2.setCpu c { d2.cpu c with prog := none, pstat := 1#64, delay := none, preempt := false }
  (((d3.setF (F.CORE_STAT_PLOT c) 0).setF (F.CORE_STAT_GEN c) 0).setF (F.CORE_PROG_INDEX c) 0).setCoreState c 0

/-- Grant a free field core to the next runnable program. -/
def Dev.grantCore (d : Dev) (c : Nat) : Dev :=
  if fieldCore c && d.quadOk (c / 8) && !d.underTest (c / 8) && (d.coreState c == 0 || d.coreState c == 3) && (d.cpu c).prog.isNone && !(d.cpu c).halted then
    match d.nextProg (c / 8) with
    | some x => (d.coreRound x.quad x.plot).putProg c x
    | none => d
  else d

/-- PROGRAM_DISPATCH (R339, R94): a field core is free and is granted to a runnable program of its quadrant. -/
def programDispatch (c : Nat) (d : Dev) : Dev := d.grantCore c

def execProgramDispatch (c : Nat) := run (programDispatch c)

/-- The program on a core. -/
def Dev.progOn (d : Dev) (c : Nat) : Option ProgInst := (d.cpu c).prog.bind d.inst?

/-- The end of a quantum on a core (R94, R346): the core is granted anew, its own program among those that compete for it. The program
leaves when another is to run, or when its plot is over its cap (R97). -/
def Dev.quantumEnd (d : Dev) (c : Nat) : Dev :=
  let d0 := d.setCpu c { d.cpu c with preempt := false }
  match d0.progOn c with
  | none => d0
  | some x =>
    let d1 := d0.chargeProg x
    let rs := d1.runnable x.quad
    let above := decide (d1.f (F.PLOT_FCORE_CAP x.plot) < d1.onCores x.plot)
    let stays := d1.corePlot x.quad (rs ++ [x]) == x.plot && !rs.any (fun y => y.plot == x.plot)
    if above || !stays then
      match d1.inst? x.tag with
      | some y => (d1.offCore c y true).grantCore c
      | none => d1
    else d1.coreRound x.quad x.plot

/-- QUANTUM_END (R346): a 1 ms quantum ends on field core `c`. Between a load and its slot instruction, and while the core runs at S for
its program, it waits for the next instruction boundary at P (R308). -/
def quantumEnd (c : Nat) (d : Dev) : Dev :=
  if ¬fieldCore c then d
  else if (d.progOn c).isSome ∧ ((d.cpu c).delay.isSome ∨ (d.cpu c).prv = true) then d.setCpu c { d.cpu c with preempt := true }
  else d.quantumEnd c

def execQuantumEnd (c : Nat) := run (quantumEnd c)

/-! ### The end of a program (R351 to R353) -/

/-- End the program instance of a tag: its core is freed, its IN job stops, its OUT job drains to a LAST curd. -/
def Dev.endProg (d : Dev) (tag : Nat) (e : ProgEnd) : Dev :=
  match d.inst? tag with
  | none => d
  | some x =>
    if x.ended.isSome then d
    else
      let d1 := match x.core with
        | some c => d.offCore c x false
        | none => d
      let d2 := match d1.inst? tag with
        | none => d1
        | some y => d1.setInst { y with
            ended := some e
            discarded := y.discarded + y.inCurds.length
            inCurds := []
            autoLast := y.launch.isOut && !y.outLast && y.started.isSome }
      let jobs := (d2.jobs x.quad).filter (fun j => j.ring == 0 && j.desc.tag == tag)
      let gone := (d2.waits x.quad).filter (fun w => w.1 == 0 && w.2.tag == tag && stageTy
        (((d2.seg? x.quad).bind (fun s => (s.tpl? w.2.pid).map Template.words)).getD []) 0 != 0x0A)
      let d3 := d2.setWaits x.quad ((d2.waits x.quad).filter (fun w => !gone.contains w))
      let d4 := jobs.foldl (fun (y : Dev) j => if stageTy j.words 0 = 0x0A then y else y.endJob x.quad j.slot) d3
      let d5 := match d4.cmd? tag with
        | some c => d4.setCmd { c with left := c.left - gone.length }
        | none => d4
      d5.progFinish tag

/-- The final record of a program on core `c`. -/
def Dev.progEndAt (d : Dev) (c : Nat) (js : Js) (cause bits val pc : Nat) : ProgEnd :=
  { js := js, cause := cause, bits := bits, core := c % 8, val := val, pc := pc, fl := (d.cpu c).fl.toNat }

/-- A program ends on a trap that is not delegated: CORE_TRAP, PROG_TRAP, its end (R351). -/
def Dev.trapEnd (d : Dev) (c : Nat) (x : ProgInst) (cause : Nat) : Dev :=
  let s := d.cpu c
  let t := s.tcause.toNat
  let bits_ := bits t 10 1 + 2 * bits t 11 1 + 4 * bits t 8 2
  let js := if cause = 6 then Js.poison else Js.coreTrap
  let e : ProgEnd := { js := js, cause := cause, bits := bits_, core := c % 8, val := s.tval.toNat, pc := s.tpc.toNat,
                       fl := s.tfl.toNat }
  let d1 := (d.setF (F.CORE_TRAP_CAUSE c) cause).setF (F.CORE_TRAP_COUNT c) (satAdd 16 (d.f (F.CORE_TRAP_COUNT c)) 1)
  (d1.raise (quadEvent (c / 8) 7 0) x.plot [c % 8, x.plot, cause]).endProg x.tag e

/-- The bit of UTRAPMASK for a cause (R336). -/
def maskBit (cause : Nat) : Option Nat :=
  match cause with
  | 1 => some 0
  | 4 => some 1
  | 6 => some 2
  | 7 => some 3
  | 8 => some 4
  | 0xA => some 5
  | _ => none

/-- Is a cause delegated now (R350)? -/
def ProgInst.delegates (x : ProgInst) (cause : Nat) : Bool :=
  imgHasUtrap x.image && !x.inTrap && (match maskBit cause with
    | some b => bit (imgMask x.image) b
    | none => false)

/-- The trap frame's address (R350). -/
def trapFrame : Nat := 0x3BFC0

/-- The monitor hands a trap to the program's handler (R350). -/
def Dev.delegate (d : Dev) (c : Nat) (x : ProgInst) (cause : Nat) : Dev :=
  let s := d.cpu c
  let t := s.tcause.toNat
  let frame := leBytes 1 cause ++ leBytes 1 (bits t 8 2 + 4 * bits t 10 1 + 8 * bits t 11 1) ++ leBytes 6 0 ++
    leBytes 8 s.tpc.toNat ++ leBytes 8 s.tval.toNat ++ leBytes 8 s.tfl.toNat ++ leBytes 4 1 ++ leBytes 28 0
  let s1 := { s with
    tcm := tcmLoad s.tcm trapFrame frame []
    pc := BitVec.ofNat 64 (imgUtrap x.image)
    pstat := if s.pstat.getLsbD 3 then 4#64 else 0#64 }
  (((d.setCpu c s1).setInst { x with inTrap := true }).setCoreState c 1).coreBump c 5 1

/-- A double trap stops the core (R329, R353): a field core is reset and its program ends with JS_CORE_HALT; a steward core
is reset and restarts its firmware. -/
def Dev.doubleTrap (d : Dev) (c : Nat) : Dev :=
  let s := d.cpu c
  let fresh : CoreSt := { CoreSt.reset (coreStart c) with tcm := s.tcm, prog := s.prog }
  let d1 := ((d.setCpu c fresh).dropSplits (c + 1)).setCoreState c (if fieldCore c then 0 else 2)
  if fieldCore c then
    let d2 := match d1.progOn c with
      | some x => d1.endProg x.tag (d.progEndAt c .coreHalt 0 0 s.tval.toNat s.tpc.toNat)
      | none => d1
    d2.raise (quadEvent (c / 8) 7 1) noPlot [c % 8]
  else d1

/-- Trap entry (R329) with tcause's fields; a trap of a tenant program is then handled by the monitor: delegated, or the
end of the program (R349 to R351). `dslot` says that the instruction stood in a load delay slot. -/
def Dev.trap (d : Dev) (c cause : Nat) (acc : Nat) (val at_ : Nat) (reppair dslot : Bool) : Dev :=
  let s := d.cpu c
  if s.nest ∧ cause ≠ 0x10 then d.doubleTrap c
  else
    let p := s.pstat
    let old := 2 * Bool.nat (p.getLsbD 0) + 8 * Bool.nat (p.getLsbD 2)
    let s1 := { s with
      tpc := BitVec.ofNat 64 at_
      tfl := s.fl
      tval := BitVec.ofNat 64 val
      tcause := BitVec.ofNat 64 (cause + 256 * acc + 1024 * Bool.nat reppair + 2048 * Bool.nat dslot)
      pstat := BitVec.ofNat 64 (1 + old + 16)
      pc := s.tbase + BitVec.ofNat 64 (cause * 0x80)
      waiting := false
      delay := none
      inRep := false }
    let d1 := ((d.setCpu c s1).setCoreState c (d.stateAtS c)).coreBump c 4 1
    if s.prv ∨ cause = 0x10 then d1
    else match d1.progOn c with
      | none => d1
      | some x => if x.delegates cause then d1.delegate c x cause else d1.trapEnd c x cause

/-- RTE (R330). -/
def Dev.rte (d : Dev) (c : Nat) : Dev :=
  let s := d.cpu c
  let pp := s.pstat.getLsbD 1
  let pi := s.pstat.getLsbD 3
  let keep := 2 * Bool.nat pp + 8 * Bool.nat pi
  let s1 := { s with pc := s.tpc, fl := s.tfl, pstat := BitVec.ofNat 64 (Bool.nat pp + 4 * Bool.nat pi + keep), delay := none }
  (d.setCpu c s1).setCoreState c (if pp then d.stateAtS c else 1)

/-! ### SVC of a program (R347, R350, R351) -/

/-- Does core `c` run a program at P? -/
def Dev.atP (d : Dev) (c : Nat) : Option ProgInst :=
  if fieldCore c && d.quadOk (c / 8) && d.coreState c == 1 && !(d.cpu c).prv && !(d.cpu c).halted then d.progOn c else none

/-- The trap entry that an SVC makes, without the monitor's part: the state the monitor then works from. -/
def Dev.svcEntry (d : Dev) (c imm : Nat) : Dev :=
  let s := d.cpu c
  let dslot := s.delay.isSome
  let old := 8 * Bool.nat (s.pstat.getLsbD 2)
  let s1 := { s with
    tpc := s.pc + 4#64
    tfl := s.fl
    tval := BitVec.ofNat 64 imm
    tcause := BitVec.ofNat 64 (9 + 2048 * Bool.nat dslot)
    pstat := BitVec.ofNat 64 (1 + old + 16)
    pc := s.tbase + BitVec.ofNat 64 (9 * 0x80)
    delay := none }
  ((d.setCpu c s1).setCoreState c 2).coreBump c 4 1

/-- The monitor returns to the program after an SVC. -/
def Dev.svcReturn (d : Dev) (c : Nat) : Dev := d.rte c

/-- SVC #0: the program ends with its status (R351); g4 and pc go into the result record (R352). -/
def Dev.svcExit (d : Dev) (c : Nat) (x : ProgInst) : Dev :=
  let s := d.cpu c
  let e : ProgEnd := { js := .ok, cause := 0, bits := 0, core := c % 8, val := (s.reg 4).toNat, pc := s.pc.toNat,
                       fl := s.fl.toNat }
  (d.svcEntry c 0).endProg x.tag e

/-- SVC #1 ends the quantum at once (R347). -/
def Dev.svcYield (d : Dev) (c : Nat) : Dev := ((d.svcEntry c 1).svcReturn c).quantumEnd c

/-- SVC #2 returns from a delegated trap: pc and fl come from the frame; with none in progress the program ends (R350). -/
def Dev.svcResume (d : Dev) (c : Nat) (x : ProgInst) : Dev :=
  let d1 := d.svcEntry c 2
  if ¬x.inTrap then d1.trapEnd c x 9
  else
    let s := d1.cpu c
    let m := s.tcm
    let s1 := { s with
      tpc := BitVec.ofNat 64 (leNat (m.bytes (trapFrame + 8) 8))
      tfl := BitVec.ofNat 64 (leNat (m.bytes (trapFrame + 24) 8)) &&& 0x1011F#64
      tcm := m.setBytes (trapFrame + 32) (leBytes 4 0) }
    ((d1.setCpu c s1).setInst { x with inTrap := false }).svcReturn c

/-- PROGRAM_EXIT (R351): the program on core `c` executes SVC #0. -/
def programExit (c : Nat) (d : Dev) : Dev :=
  match d.atP c with
  | some x => d.svcExit c x
  | none => d

def execProgramExit (c : Nat) := run (programExit c)

/-- YIELD (R347): SVC #1. -/
def yield (c : Nat) (d : Dev) : Dev :=
  match d.atP c with
  | some _ => d.svcYield c
  | none => d

def execYield (c : Nat) := run (yield c)

/-- RESUME (R350): SVC #2. -/
def resume (c : Nat) (d : Dev) : Dev :=
  match d.atP c with
  | some x => d.svcResume c x
  | none => d

def execResume (c : Nat) := run (resume c)

/-- PROGRAM_TIMEOUT (R351): the launch TIMEOUT of a program expires. -/
def programTimeout (tag : Nat) (d : Dev) : Dev :=
  match d.inst? tag with
  | some x =>
    if x.launch.timeout = 0 ∨ x.started.isNone then d
    else
      let c := x.core.getD 0
      let s := d.cpu c
      d.endProg tag { js := .timeout, cause := 0, bits := 0, core := c % 8, val := (if x.core.isSome then s.tval.toNat else 0),
                      pc := (if x.core.isSome then s.pc.toNat else 0), fl := (if x.core.isSome then s.fl.toNat else 0) }
  | none => d

def execProgramTimeout (tag : Nat) := run (programTimeout tag)

/-! ### Port stores (R340, R341) -/

/-- The slots freed by a store of `t` to PIN_TAIL return their credit to the IN job's last edge. -/
def Dev.pinCredit (d : Dev) (x : ProgInst) (n : Nat) : Dev :=
  match (d.jobs x.quad).find? (fun j => j.ring == 0 && j.desc.tag == x.tag && stageTy j.words 0 != 0x0A) with
  | none => d
  | some j =>
    (List.range n).foldl (fun (e : Dev) _ =>
      match e.job? x.quad j.slot with
      | some y => e.returnCredit x.quad y (tplStages y.words - 2)
      | none => e) d

/-- A store of `t` to PIN_TAIL (R340); `none` where it traps PORT. -/
def Dev.pinTail (d : Dev) (x : ProgInst) (t : Nat) : Option Dev :=
  let n := seqDist t x.pinTail
  if 1 ≤ n ∧ n ≤ seqDist x.pinHead x.pinTail then
    let x1 := { x with pinTail := t, inCurds := x.inCurds.filter (fun c => !decide (seqDist c.1 x.pinTail < n)) }
    some ((d.setInst x1).pinCredit x1 n)
  else none

/-- A control doubleword of the CPORT_OUT window passes the checks of R341. -/
def poutOk (w : Nat) : Bool :=
  let v := bits w 0 9
  let rs := bits w 16 9
  ((decide (1 ≤ v ∧ v ≤ 256)) || (v == 0 && bit w 10)) && (decide (rs < v) || rs == 0x1FF) && decide (bits w 25 9 ≤ 256) &&
  bits w 9 1 == 0 && bits w 11 5 == 0 && decide (w < 2 ^ 34)

/-- A store of `t` to POUT_TAIL (R341); `none` where it traps PORT and nothing is posted. -/
def Dev.poutTail (d : Dev) (x : ProgInst) (t : Nat) : Option Dev :=
  let n := seqDist t x.poutTail
  let room := seqDist t x.poutHead
  let word (i : Nat) : Nat := leNat (x.out.bytes ((x.poutTail + i) % 16 * 0x200 + 0x100) 8)
  let ws := (List.range (min n 16)).map word
  if 1 ≤ n ∧ n ≤ 16 ∧ room ≤ 16 ∧ ws.all poutOk ∧ ¬x.outLast ∧ ws.dropLast.all (fun w => !bit w 10) then
    let last := match ws.getLast? with
      | some w => bit w 10
      | none => false
    some (d.setInst { x with poutTail := t, outLast := x.outLast || last })
  else none

/-- PIN_TAIL (R340): the program on core `c` stores `t` to PIN_TAIL. A refused store traps PORT at the store. -/
def pinTail (c t : Nat) (d : Dev) : Dev :=
  match d.atP c with
  | none => d
  | some x =>
    match d.pinTail x (t % 2 ^ 32) with
    | some e => e.setCpu c { e.cpu c with pc := (e.cpu c).pc + 4#64, delay := none }
    | none => d.trap c 0xC 2 0x801F004 (d.cpu c).pc.toNat false (d.cpu c).delay.isSome

def execPinTail (c t : Nat) := run (pinTail c t)

/-- POUT_TAIL (R341): the program on core `c` stores `t` to POUT_TAIL. -/
def poutTail (c t : Nat) (d : Dev) : Dev :=
  match d.atP c with
  | none => d
  | some x =>
    match d.poutTail x (t % 2 ^ 32) with
    | some e => e.setCpu c { e.cpu c with pc := (e.cpu c).pc + 4#64, delay := none }
    | none => d.trap c 0xC 2 0x801F008 (d.cpu c).pc.toNat false (d.cpu c).delay.isSome

def execPoutTail (c t : Nat) := run (poutTail c t)

end Sys2Proof.Machine
end

