-- ==== Sys2Proof/Machine/Cluster.lean ====
section
/-! DEFINITION. Gorwasta links and clusters (chapter 8): frames, replay and training (R181 to R187), routes (R190), views and
quorum (R191 to R194), the layout of cluster namespaces (R195 to R197), transactions and their journal (R198 to R201), rejoin
(R203) and the anchor (R204). -/

namespace Sys2Proof.Machine

/-! ### Links -/

def Dev.link (d : Dev) (l : Nat) : GLink := AMap.get GLink.init l d.gwl.links

def Dev.setLink (d : Dev) (l : Nat) (x : GLink) : Dev :=
  { d with gwl := { d.gwl with links := AMap.set GLink.init l x d.gwl.links } }

def Dev.linkState (d : Dev) (l : Nat) : Nat := d.f (F.GWL_LSTAT_STATE l)

/-- A link is up at x8 or x4. -/
def Dev.linkUp (d : Dev) (l : Nat) : Bool := d.linkState l == 2 || d.linkState l == 3

/-- Add to a link counter and its PMU source (R413). -/
def Dev.lcount (d : Dev) (l k n : Nat) : Dev := d.bump (F.GWL_LCNT_COUNT (l * 8 + k)) (0x20 + k) 0 n

/-- The mask of a link (R188). -/
def linkMask (l : Nat) : Nat := [1, 2, 4, 7].getD l 0

/-- The links a member uses: only with a roster that lists this part (R188, R189). -/
def Dev.linkable (d : Dev) (l : Nat) : Bool :=
  decide (l < 4) && d.flag F.GWL_ID_CLUSTER && !d.gwl.mismatch &&
  (match d.roster? with
    | some r => r.members.any (fun m => m.1 == Nat.xor d.self (linkMask l))
    | none => false)

/-- The acknowledgement a link's frames carry. -/
def GLink.ack (x : GLink) : Nat := (x.expect + 65535) % 65536

/-- Hand a frame to the transmitter's wire, where the injectors act on it, after it has been kept for replay (R205, R419): DROP (KIND 0)
removes it, REORDER (KIND 2) swaps it with the DATA frame before it, CORRUPT (KIND 1) changes it. -/
def Dev.onWire (d : Dev) (l : Nat) (f : GFrame) : Dev :=
  let item (e : Dev) (k ty : Nat) : Bool × Dev := if f.ty ≤ ty then e.finjItem k l 0 else (false, e)
  let drop := item d 0 3
  if drop.1 then drop.2
  else
    let swap := item drop.2 2 0
    let hurt := item swap.2 1 3
    let x := hurt.2.link l
    let g := { f with hurt := hurt.1 }
    let plain := x.wire ++ [g]
    let w := if swap.1 then match x.wire.reverse with
        | y :: t => if y.ty = 0 then t.reverse ++ [g, y] else plain
        | [] => plain
      else plain
    hurt.2.setLink l { x with wire := w }

/-- The credit a frame returns: up to 63 flits of the lowest channel that has any to return (R183, R187). -/
def GLink.returns (x : GLink) : Nat × Nat :=
  match (List.range 4).find? (fun v => decide (0 < AMap.get 0 v x.owe)) with
  | some v => (v, min 63 (AMap.get 0 v x.owe))
  | none => (0, 0)

/-- The link after a frame has returned credit and the acknowledgement. -/
def GLink.returned (x : GLink) : GLink :=
  let r := x.returns
  { x with owe := AMap.set 0 r.1 (AMap.get 0 r.1 x.owe - r.2) x.owe, heldAck := 0 }

/-- Send an unsequenced frame: IDLE 1, NAK 2, HEARTBEAT 3, TRAIN 4, `raw` its flit. Every frame returns ACK (R185). -/
def Dev.sendRaw (d : Dev) (l ty raw : Nat) : Dev :=
  let x := d.link l
  (d.setLink l x.returned).onWire l
    { ty := ty, seq := 0, ack := x.ack, msg := none, raw := raw, poison := 0, vc := 3, cred := x.returns.2, credVc := x.returns.1 }

def Dev.sendFrame (d : Dev) (l ty : Nat) : Dev := d.sendRaw l ty 0

/-- The flits a hop has room for on each virtual channel: one message of the greatest length, the least that R21 asks for (DESIGN CHOICE,
assumption 162), and the flits a message takes. -/
def vcRoom : Nat := 5
def msgFlits : Nat := 5

/-- May a message be sent now: 512 frames at most are unacknowledged (R185), its channel has credit (R21), and no message waits that it may
not pass (R23): one of its own channel, or a PST before a REQ. -/
def GLink.canSend (x : GLink) (vc : Nat) : Bool :=
  decide (x.kept.length < 512) && decide (AMap.get 0 vc x.credit + msgFlits ≤ vcRoom) &&
  !x.queue.any (fun m => m.1 == vc || (vc == 0 && m.1 == 2))

/-- Send a message in a DATA frame: it takes the next SEQ and is kept (R185); one that may not be sent yet waits at the link. -/
def Dev.sendData (d : Dev) (l vc : Nat) (m : Option CMsg) (raw poison : Nat) : Dev :=
  let x := d.link l
  if ¬d.linkUp l ∨ ¬x.canSend vc then d.setLink l { x with queue := x.queue ++ [(vc, m, raw, poison)] }
  else
    let f : GFrame := { ty := 0, seq := x.next, ack := x.ack, msg := m, raw := raw, poison := poison, vc := vc, cred := x.returns.2, credVc := x.returns.1 }
    let d1 := d.setLink l { x.returned with
      next := (x.next + 1) % 65536, kept := x.kept ++ [f], credit := AMap.set 0 vc (AMap.get 0 vc x.credit + msgFlits) x.credit }
    (d1.lcount l 0 1).onWire l f

/-- Messages that wait at a link go on, in order, as far as they may. -/
def Dev.pump (d : Dev) (l : Nat) : Dev :=
  let q := (d.link l).queue
  if q.isEmpty then d
  else q.foldl (fun (e : Dev) m => e.sendData l m.1 m.2.1 m.2.2.1 m.2.2.2) (d.setLink l { d.link l with queue := [] })

/-- An acknowledgement frees the kept frames up to it (R185). -/
def Dev.ackTo (d : Dev) (l a : Nat) : Dev :=
  let x := d.link l
  match x.kept.find? (fun f => f.seq == a % 65536) with
  | none => d
  | some _ =>
    let left := (x.kept.dropWhile (fun f => f.seq != a % 65536)).drop 1
    d.setLink l { x with kept := left, resends := 0 }

/-- Resend every kept frame in order (go-back-N). -/
def Dev.resend (d : Dev) (l : Nat) : Dev :=
  let ks := (d.link l).kept
  ks.foldl (fun (e : Dev) f => e.onWire l { f with ack := (e.link l).ack }) (d.lcount l 6 ks.length)

/-- A valid frame has come: its ACK and credit are taken, and what waits at the link goes on. -/
def Dev.frameIn (d : Dev) (l : Nat) (f : GwlFrame) : Dev :=
  let d1 := d.ackTo l f.ack
  let x := d1.link l
  (d1.setLink l { x with credit := AMap.set 0 f.credVc (AMap.get 0 f.credVc x.credit - f.cred) x.credit }).pump l

/-- A drop (R184): counted by cause, answered by one NAK until the expected frame is accepted. -/
def Dev.dropFrame (d : Dev) (l k : Nat) : Dev :=
  let d1 := d.lcount l k 1
  let x := d1.link l
  if x.nak then d1 else (d1.setLink l { x with nak := true, naks := satAdd 32 x.naks 1 }).sendFrame l 2

/-- Is LEN in the range of its TYPE (R183)? -/
def frameLenOk (ty len : Nat) : Bool :=
  match ty with
  | 0 => decide (1 ≤ len ∧ len ≤ 5)
  | 1 | 2 => len == 0
  | 3 | 4 => len == 1
  | _ => false

/-- Bytes 0 to 6 of a frame's header (R183). -/
def frameHead (f : GwlFrame) : List Nat :=
  [0xFB, f.len + 8 * f.vc + 32 * f.ty, f.seq % 256, f.seq / 256, f.ack % 256, f.ack / 256, f.cred + 64 * f.credVc]

/-- HCHK holds: CRC-8 over bytes 0 to 6. -/
def headOk (f : GwlFrame) : Bool := crc8 (frameHead f) == f.hchk

/-- The CRC holds: CRC-32C over the header, the payload and trailer bytes 0 and 1. -/
def frameCrcOk (f : GwlFrame) : Bool :=
  crc32c ((frameHead f ++ [f.hchk]).map (BitVec.ofNat 8) ++ leBytes (64 * f.len) f.msg ++ leBytes 1 f.poison ++ leBytes 1 0) == f.crc

/-- The drop counter of a frame that the common checks refuse: 2 HCHK, 3 length or a reserved TYPE, 4 CRC. -/
def frameFault (f : GwlFrame) : Option Nat :=
  if ¬headOk f then some 2 else if ¬f.lenOk then some 3 else if ¬frameCrcOk f then some 4
  else if ¬frameLenOk f.ty f.len then some 3 else none

/-- The common part of receiving a frame of TYPE `ty`: dropped, hunting after HCHK or length (R184). -/
def Dev.receive (d : Dev) (l ty : Nat) (f : GwlFrame) (go : Dev → Dev) : Dev :=
  if ¬d.linkUp l ∨ (d.link l).hunting then d
  else match frameFault f with
    | some k =>
      let d1 := d.dropFrame l k
      if ¬headOk f ∨ ¬f.lenOk then d1.setLink l { d1.link l with hunting := true } else d1
    | none => if f.ty = ty then go d else d

/-! ### Routes (R190) and messages -/

/-- Is link `k` of the neighbour `i` up, by the LINKS of its last heartbeat (R191)? A neighbour not heard yet counts as having its links up
(DESIGN CHOICE, assumption 173). -/
def Dev.nbrUp (d : Dev) (i k : Nat) : Bool :=
  match d.gwl.heard.lookup i with
  | some h => bit h.links k
  | none => true

/-- The next hop toward a member: its own link where that is up, else the lowest link whose far end has a direct link to it that is up
(the distance in an 8-member cube with opposite links is at most 2). -/
def Dev.route? (d : Dev) (dst : Nat) : Option Nat :=
  let ups := (List.range 4).filter d.linkUp
  let far (l : Nat) : Nat := Nat.xor d.self (linkMask l)
  match ups.find? (fun l => far l == dst) with
  | some l => some l
  | none => ups.find? (fun l => (List.range 4).any (fun k => Nat.xor (far l) (linkMask k) == dst && d.nbrUp (far l) k))

/-- The virtual channel of a message: requests, the answers to them, and management (DEDUCED from the table of R19, assumption 161). -/
def CKind.vc : CKind → Nat
  | .result | .reserved | .refused | .prepared | .refusal | .mirrorAck | .committed | .aborted | .done => 1
  | .anchor => 3
  | _ => 0

/-- Send a message to another member over its route; without one the originator holds it (R190). What this member sends to itself takes no
link, and comes back as the command it stands for. -/
def Dev.sendTo (d : Dev) (m : CMsg) : Dev :=
  if m.dst = d.self then { d with gwl := { d.gwl with toSelf := d.gwl.toSelf ++ [m] } }
  else match d.route? m.dst with
  | none => { d with gwl := { d.gwl with unsent := d.gwl.unsent ++ [m] } }
  | some l => d.sendData l m.kind.vc (some m) 0 0

/-- Routes are recomputed: what no route took goes on (R190). -/
def Dev.reroute (d : Dev) : Dev :=
  d.gwl.unsent.foldl Dev.sendTo { d with gwl := { d.gwl with unsent := [] } }

/-! ### Training (R182) -/

/-- Does what the peer said at step 5 match (R182)? -/
def Dev.trainOk (d : Dev) (l : Nat) : Bool :=
  match (d.link l).train, d.roster? with
  | some t, some r => t.1 == Nat.xor d.self (linkMask l) && t.2.1 == l && t.2.2.1 == r.clusterId && t.2.2.2 == r.hash
  | _, _ => false

/-- The TRAIN check has failed: state WIRING, LINK_WIRING. -/
def Dev.wiring (d : Dev) (l : Nat) : Dev := (d.setF (F.GWL_LSTAT_STATE l) 4).raise 0x1C8 noPlot [l]

/-- GWL_LINK_UP (R182): training of a link ends. `x4` says that a lane failed, `reversed` that lane reversal is in use. -/
def gwlLinkUp (l : Nat) (x4 reversed : Bool) (d : Dev) : Dev :=
  if ¬d.linkable l ∨ d.linkState l ≠ 1 then d
  else if ¬d.trainOk l then d.wiring l
  else
    let x := d.link l
    let was := x.retrain
    let d1 := d.setLink l (if was then { x with retrain := false, fails := 0, nak := false, hunting := false }
      else { GLink.init with train := x.train, naks := x.naks, queue := x.queue })
    let d2 := (((d1.setF (F.GWL_LSTAT_STATE l) (if x4 then 3 else 2)).setF (F.GWL_LSTAT_PEER l)
      (Nat.xor d.self (linkMask l))).setF (F.GWL_LSTAT_REVERSED l) (Bool.nat reversed))
    let d3 := if was then d2.resend l else d2.raise (0x1C0 + l) noPlot []
    let d4 := if x4 || was then d3.raise (0x1C4 + l) noPlot [] else d3
    (d4.pump l).reroute

def execGwlLinkUp (l : Nat) (x4 reversed : Bool) := run (gwlLinkUp l x4 reversed)

/-- A link is declared down (R186): its kept frames are discarded; the messages of this member among them and those that waited are sent again
over the new routes (R190, R197). -/
def Dev.declareDown (d : Dev) (l : Nat) : Dev :=
  let d1 := (d.setF (F.GWL_LSTAT_STATE l) 0).setF (F.GWL_LSTAT_DOWNS l) (satAdd 16 (d.f (F.GWL_LSTAT_DOWNS l)) 1)
  let x := d.link l
  let again := (x.kept.filterMap (fun f => f.msg)) ++ (x.queue.filterMap (fun m => m.2.1))
  let d2 := (d1.setLink l { GLink.init with naks := x.naks }).raise (0x1C0 + l) noPlot []
  again.foldl Dev.sendTo d2

/-- GWL_TRAIN_RETRY (R182): the 1 s or 100 ms timer expires: the training in progress has failed, and the link trains again. Where it was a
retraining, the second failure in a row declares the link down (R186). -/
def gwlTrainRetry (l : Nat) (d : Dev) : Dev :=
  if ¬d.linkable l ∨ d.linkUp l then d
  else
    let x := d.link l
    if x.retrain ∧ 1 ≤ x.fails then d.declareDown l
    else (d.setF (F.GWL_LSTAT_STATE l) 1).setLink l { x with train := none, fails := x.fails + Bool.nat x.retrain }

def execGwlTrainRetry (l : Nat) := run (gwlTrainRetry l)

/-- GWL_TRAIN_FRAME (R182, step 5): the peer's member ID, link number, cluster ID and roster hash. -/
def gwlTrainFrame (l peer plink cluster rhash : Nat) (d : Dev) : Dev :=
  if ¬d.linkable l ∨ d.linkState l ≠ 1 then d
  else
    let d1 := d.setLink l { d.link l with train := some (peer, plink, cluster, rhash) }
    if d1.trainOk l then d1.sendFrame l 4 else d1.wiring l

def execGwlTrainFrame (l peer plink cluster rhash : Nat) := run (gwlTrainFrame l peer plink cluster rhash)

/-- Retrain a link that is up (R186): its kept frames stay. -/
def Dev.retrain (d : Dev) (l : Nat) : Dev :=
  let x := d.link l
  ((d.setF (F.GWL_LSTAT_STATE l) 1).setLink l { x with retrain := true, resends := 0 }).lcount l 7 1

/-! ### Frames (R184, R185) -/

/-- Sequence distance of 16 bits (RFC 1982). -/
def seq16 (a b : Nat) : Nat := (BitVec.ofNat 16 a - BitVec.ofNat 16 b).toNat

/-- A message that has come: for this member it goes to the fabric, for another it is forwarded (R187). -/
def Dev.gwlDeliver (d : Dev) (l : Nat) (f : GwlFrame) : Dev :=
  if f.dst = d.self then { d with gwl := { d.gwl with inbox := d.gwl.inbox ++ [(l, f.msg, f.poison)] } }
  else match d.route? f.dst with
    | some k => d.sendData k f.vc none f.msg f.poison
    | none => d

/-- Resend the kept frames; when REPLAYMAX resends have passed without ACK advancing, the link retrains (R185, R186). -/
def Dev.replay (d : Dev) (l : Nat) : Dev :=
  let x := d.link l
  if x.kept.isEmpty then d
  else if d.f F.GWL_CFG_REPLAYMAX ≤ x.resends then d.retrain l
  else (d.setLink l { x with resends := x.resends + 1 }).resend l

/-- GWL_DATA_FRAME (R184, R185). -/
def gwlDataFrame (l : Nat) (f : GwlFrame) (d : Dev) : Dev :=
  d.receive l 0 f (fun e =>
    let x := e.link l
    if f.seq % 65536 = x.expect then
      let e1 := (e.frameIn l f).lcount l 1 1
      let y := e1.link l
      let owe := AMap.set 0 f.vc (AMap.get 0 f.vc y.owe + f.len) y.owe
      let e2 := (e1.setLink l { y with expect := (y.expect + 1) % 65536, nak := false, heldAck := y.heldAck + 1, owe := owe }).gwlDeliver l f
      if 16 ≤ (e2.link l).heldAck then e2.sendFrame l 1 else e2
    else if seq16 x.expect f.seq ≤ 512 then ((e.frameIn l f).lcount l 5 1).sendFrame l 1
    else e.dropFrame l 5)

def execGwlDataFrame (l : Nat) (f : GwlFrame) := run (gwlDataFrame l f)

/-- GWL_IDLE_FRAME (R185). -/
def gwlIdleFrame (l : Nat) (f : GwlFrame) (d : Dev) : Dev := d.receive l 1 f (fun e => e.frameIn l f)

def execGwlIdleFrame (l : Nat) (f : GwlFrame) := run (gwlIdleFrame l f)

/-- GWL_NAK (R185): every kept frame from ACK + 1 is resent. -/
def gwlNak (l : Nat) (f : GwlFrame) (d : Dev) : Dev := d.receive l 2 f (fun e => (e.frameIn l f).replay l)

def execGwlNak (l : Nat) (f : GwlFrame) := run (gwlNak l f)

/-- GWL_FRAME_HUNT (R184): the receiver hunts at 8-byte steps; `found` says that a valid STF has been found. -/
def gwlFrameHunt (l : Nat) (found : Bool) (d : Dev) : Dev :=
  if ¬d.linkUp l then d
  else
    let x := d.link l
    if found then d.setLink l { x with hunting := false }
    else
      let d1 := d.setLink l { x with hunting := true, nak := true, naks := if x.nak then x.naks else satAdd 32 x.naks 1 }
      if x.nak then d1 else d1.sendFrame l 2

def execGwlFrameHunt (l : Nat) (found : Bool) := run (gwlFrameHunt l found)

/-- GWL_REPLAY_TIMEOUT (R185, R186): kept frames are resent; after REPLAYMAX resends the link retrains. -/
def gwlReplayTimeout (l : Nat) (d : Dev) : Dev := if d.linkUp l then d.replay l else d

def execGwlReplayTimeout (l : Nat) := run (gwlReplayTimeout l)

/-- GWL_ACK_HOLD_TIMEOUT (R185). -/
def gwlAckHoldTimeout (l : Nat) (d : Dev) : Dev := if d.linkUp l && decide (0 < (d.link l).heldAck) then d.sendFrame l 1 else d

def execGwlAckHoldTimeout (l : Nat) := run (gwlAckHoldTimeout l)

/-- GWL_LINK_TIMEOUT (R186): no valid frame for LINKTO: the link is declared down. -/
def gwlLinkTimeout (l : Nat) (d : Dev) : Dev :=
  if 4 ≤ l ∨ ¬(d.linkUp l || (d.link l).retrain) then d else d.declareDown l

def execGwlLinkTimeout (l : Nat) := run (gwlLinkTimeout l)

/-! ### Heartbeats and views (R191 to R193) -/

/-- Set and clear a member's bit in a set. -/
def setMember (s i : Nat) (v : Bool) : Nat := setBit s i v

/-- The member that sent a heartbeat's flit, what it says, and its counter for member `i` (R191). -/
def hbMember (p : Nat) : Nat := p / 2 ^ 8 % 256
def hbCount (p i : Nat) : Nat := p / 2 ^ (128 + 32 * i) % 2 ^ 32
def hbHeard (p : Nat) : Heard :=
  { links := p / 2 ^ 16 % 16, view := p / 2 ^ 64 % 2 ^ 64, viewset := p / 2 ^ 384 % 256, anchor := p / 2 ^ 392 % 256,
    aepoch := p / 2 ^ 416 % 2 ^ 32, mode := p / 2 ^ 24 % 256 }

/-- The newest counter of member `i` is heard; its advance makes the member reachable. -/
def Dev.hear (d : Dev) (i v : Nat) : Dev :=
  let old := AMap.get 0 i d.gwl.hbc
  if i ≠ d.self ∧ 1 ≤ seqDist v old ∧ seqDist v old < 2 ^ 31 then
    let g := { d.gwl with hbc := AMap.set 0 i v d.gwl.hbc, heardAt := AMap.put i d.now d.gwl.heardAt }
    ({ d with gwl := g }).setF F.GWL_SETS_REACH (setMember (d.f F.GWL_SETS_REACH) i true)
  else d

/-- GWL_HEARTBEAT (R191): the newest counters heard; a counter's advance makes its member reachable. Where the neighbour's links have changed,
routes are recomputed (R190). -/
def gwlHeartbeat (l : Nat) (f : GwlFrame) (d : Dev) : Dev :=
  d.receive l 3 f (fun e =>
    let d1 := (List.range 8).foldl (fun (x : Dev) i => x.hear i (hbCount f.msg i)) (e.frameIn l f)
    ({ d1 with gwl := { d1.gwl with heard := AMap.put (hbMember f.msg) (hbHeard f.msg) d1.gwl.heard } }).reroute)

def execGwlHeartbeat (l : Nat) (f : GwlFrame) := run (gwlHeartbeat l f)

/-- The anchor epoch in force. -/
def Dev.aepoch (d : Dev) : Nat := match d.clu.anchor with
  | some a => a.2
  | none => (d.roster?.map Roster.epoch).getD 0

/-- The flit of this member's heartbeat (R191), as a number. -/
def Dev.hbFlit (d : Dev) : Nat :=
  leNat (leBytes 1 1 ++ leBytes 1 d.self ++ leBytes 1 ((List.range 4).foldl (fun n l => setBit n l (d.linkUp l)) 0) ++
    leBytes 1 (d.f F.TOP_MODE_MODE) ++ leBytes 4 ((d.roster?.map Roster.hash).getD 0) ++ leBytes 8 (d.f F.GWL_VIEW_VIEW) ++
    (List.range 8).flatMap (fun i => leBytes 4 (AMap.get 0 i d.gwl.hbc)) ++ leBytes 1 (d.f F.GWL_SETS_VIEWSET) ++
    leBytes 1 (d.f F.GWL_ID_ANCHOR) ++ leBytes 2 0 ++ leBytes 4 d.aepoch ++ leBytes 8 0)

/-- HEARTBEAT_PERIOD (R191): the own counter rises and a heartbeat goes out on every link that is up. -/
def heartbeatPeriod (d : Dev) : Dev :=
  if d.flag F.GWL_ID_CLUSTER then
    let n := (AMap.get 0 d.self d.gwl.hbc + 1) % 2 ^ 32
    let d1 := { d with gwl := { d.gwl with hbc := AMap.set 0 d.self n d.gwl.hbc } }
    ((List.range 4).filter d1.linkUp).foldl (fun (e : Dev) l => e.sendRaw l 3 d1.hbFlit) d1
  else d

def execHeartbeatPeriod := run heartbeatPeriod

/-- MEMBER_LOST (R191): a member's counter has not advanced within MISS. An advance taken within it, in the same cycle too, discards the
expiry (R32). -/
def memberLost (i : Nat) (d : Dev) : Dev :=
  if bit (d.f F.GWL_SETS_REACH) i && i != d.self && decide (AMap.get 0 i d.gwl.heardAt + d.f F.GWL_HB_MISS ≤ d.now) then d.setF F.GWL_SETS_REACH (setMember (d.f F.GWL_SETS_REACH) i false) else d

def execMemberLost (i : Nat) := run (memberLost i)

/-- The configured members that are not retired, as a set. -/
def Dev.configured (d : Dev) : Nat :=
  match d.roster? with
  | some r => (r.members.map (fun m => if bit r.retired m.1 then 0 else 2 ^ m.1)).sum
  | none => 0

/-- The configured count C (R189). -/
def Dev.ccount (d : Dev) : Nat := popCount 8 d.configured

def Dev.view (d : Dev) : Nat := d.f F.GWL_SETS_VIEWSET

def Dev.inView (d : Dev) (i : Nat) : Bool := bit d.view i

/-- Quorum of the view (R193). -/
def Dev.quorum (d : Dev) : Bool :=
  let n := popCount 8 (d.view &&& d.configured)
  decide (d.ccount < 2 * n) || (d.ccount == 2 * n && bit d.view (d.f F.GWL_ID_ANCHOR))

/-- The held cluster writes complete with C0h (R194). -/
def Dev.fenceWrites (d : Dev) : Dev :=
  let dw := d.fenceDw
  d.gwl.writes.foldl (fun (e : Dev) w => e.complete w.id (.vendor 0xC0) dw 0) { d with gwl := { d.gwl with writes := [] } }

/-- The other members of the view, with what they said last. -/
def Dev.peers (d : Dev) : List (Nat × Heard) := d.gwl.heard.filter (fun h => d.inView h.1 && h.1 != d.self)

/-- Become a rejoining member (R203). -/
def Dev.rejoin (d : Dev) : Dev :=
  let d1 := { d with gwl := { d.gwl with rejoining := true, finished := [] } }
  (d1.setF F.GWL_SETS_REJSET (setMember (d1.f F.GWL_SETS_REJSET) d.self true)).raise 0x1CE noPlot []

/-- Set the fenced condition (R193, R194). -/
def Dev.fence (d : Dev) : Dev := (((d.setCond F.TOP_MODE_CFENCE true).raise 0x1CC noPlot []).vendorAll 4).fenceWrites

/-- A fenced member whose anchor epoch is above that of every continuing member it meets keeps its data: it leaves the fenced condition and
the others are resynchronised (R203). -/
def Dev.takeOver (d : Dev) (low : List (Nat × Heard)) : Dev :=
  let d1 := ((d.setCond F.TOP_MODE_CFENCE false).raise 0x1CD noPlot []).vendorAll 4
  let d2 := d1.setF F.GWL_SETS_REJSET ((d1.f F.GWL_SETS_REJSET) ||| (low.map (fun h => 2 ^ h.1)).sum)
  ({ d2 with gwl := { d2.gwl with resync := d2.clu.dirty } }).raise 0x1CE noPlot []

/-- Decide quorum (R193): without it the fenced condition is set; a fenced member with quorum is rejoining (R203). Anchor epochs are compared
first: the side with the higher one keeps its data, and a continuing member that meets a fenced one with a higher epoch is fenced and
rejoins (DEDUCED from 'the roles are exchanged', assumption 164). -/
def Dev.decideQuorum (d : Dev) : Dev :=
  let fenced := d.flag F.TOP_MODE_CFENCE
  let cont := d.peers.filter (fun h => h.2.mode != 9)
  if ¬d.quorum then if fenced then { d with gwl := { d.gwl with rejoining := false } } else d.fence
  else if fenced ∧ ¬d.gwl.rejoining then
    if cont.isEmpty = false ∧ cont.all (fun h => decide (h.2.aepoch < d.aepoch)) = true then d.takeOver cont else d.rejoin
  else if ¬fenced ∧ d.peers.any (fun h => h.2.mode == 9 && decide (d.aepoch < h.2.aepoch)) = true then d.fence.rejoin
  else d

/-! ### Layout (R196) -/

/-- The stripe's owner: the member with chunk k; without it the first member of the stripe in chunk order in the view acts
(R202). -/
def Dev.owner (d : Dev) (g : ClusterGeom) (r : Nat) : Nat :=
  let o := d.holder r g.k
  if d.inView o then o
  else (((List.range (g.k + g.m)).map (d.holder r)).find? d.inView).getD o

def geomOf (b : Nat) : Option ClusterGeom :=
  match b with
  | 1 => some { k := 4, m := 1 }
  | 2 => some { k := 6, m := 2 }
  | 3 => some { k := 7, m := 1 }
  | _ => none

def geomByte (g : ClusterGeom) : Nat := if g.k = 4 then 1 else if g.k = 6 then 2 else 3

def Dev.setChunk (d : Dev) (nsid r j v : Nat) : Dev :=
  { d with clu := { d.clu with chunks := AMap.set 0 (chunkKey nsid r j) v d.clu.chunks,
                               marked := NSet.del (chunkKey nsid r j) d.clu.marked } }

/-- Stripes of a namespace, and the chunks of it a member holds (R196). -/
def Dev.stripes (n : Ns) (g : ClusterGeom) : Nat := ceilDiv (n.nsze * lbaBytes n.lbaf) (g.k * chunkBytes)

/-- The chunks of a namespace that a member holds in the stripes before `s`. -/
def Dev.chunksBefore (d : Dev) (g : ClusterGeom) (i s : Nat) : Nat :=
  let np := max 1 d.positions.length
  let mine (r : Nat) : Nat := ((List.range (g.k + g.m)).filter (fun j => d.holder r j == i)).length
  (s / np) * (((List.range np).map mine).sum) + (((List.range (s % np)).map (fun r => mine (s - s % np + r))).sum)

def Dev.chunksOf (d : Dev) (n : Ns) (g : ClusterGeom) (i : Nat) : Nat :=
  d.chunksBefore g i (Dev.stripes n g)

/-- The map memory a namespace takes on this member (R69, R196). -/
def Dev.nsMap (d : Dev) (n : Ns) : Nat :=
  match n.cluster with
  | none => n.mapBytes
  | some g => d.chunksOf n g d.self * (chunkBytes / n.iuBytes) * 5

/-- The capacity a namespace takes of this member's (R136): NCAP, or the chunks it holds of a cluster namespace. -/
def Dev.nsCap (d : Dev) (n : Ns) : Nat :=
  match n.cluster with
  | none => n.ncap * lbaBytes n.lbaf
  | some g => d.chunksOf n g d.self * chunkBytes

/-- Does the flash capacity hold one more namespace? -/
def Dev.capFits (d : Dev) (n : Ns) : Bool := decide ((d.md.nss.map d.nsCap).sum + d.nsCap n ≤ d.tnvmcap)

/-- The first IU of a chunk in this member's backing namespace, which holds its chunks in stripe and chunk order (R196; the order is a
DESIGN CHOICE, assumption 163). -/
def Dev.chunkIu (d : Dev) (n : Ns) (g : ClusterGeom) (r j : Nat) : Nat :=
  let before := d.chunksBefore g d.self r + ((List.range j).filter (fun x => d.holder r x == d.self)).length
  before * (chunkBytes / n.iuBytes)

/-- The bytes of a chunk that its parity covers: the data, the uncorrectable marks and the host metadata of its blocks (the last two are a DESIGN
CHOICE, assumption 108). -/
def wideBytes : Nat := chunkBytes + 16 + 64 * 128

/-- A chunk times g^j (R163), and over g^j. -/
def gfPow (j v : Nat) : Nat := Nat.repeat (gfDouble wideBytes) j v
def gfRoot (j v : Nat) : Nat := gfPow (255 - j % 255) v

/-- P and Q over data chunks `j` with their contents (R196). -/
def chunkP (cs : List (Nat × Nat)) : Nat := cs.foldl (fun v x => Nat.xor v x.2) 0
def chunkQ (cs : List (Nat × Nat)) : Nat := cs.foldl (fun v x => Nat.xor v (gfPow x.1 x.2)) 0

/-- Data chunk `j` from other chunks of its stripe: from P; from Q where P is gone; from both where a second data chunk is. -/
def chunkData? (g : ClusterGeom) (got : List (Nat × Nat)) (j : Nat) : Option Nat :=
  let known := got.filter (fun x => decide (x.1 < g.k))
  let p := (got.lookup g.k).map (fun x => Nat.xor x (chunkP known))
  let q := if g.m = 2 then (got.lookup (g.k + 1)).map (fun x => Nat.xor x (chunkQ known)) else none
  match got.lookup j, (List.range g.k).filter (fun x => x != j && (got.lookup x).isNone), p, q with
  | some v, _, _, _ => some v
  | none, [], some a, _ => some a
  | none, [], none, some b => some (gfRoot j b)
  | none, [x], some a, some b => some (gfRoot (gfLog (Nat.xor (gfPow j 1) (gfPow x 1))) (Nat.xor b (gfPow x a)))
  | _, _, _, _ => none

/-- Any chunk of a stripe from k others (R197): data as above, parity computed again from the data. -/
def chunkOf? (g : ClusterGeom) (got : List (Nat × Nat)) (j : Nat) : Option Nat :=
  if j < g.k then chunkData? g got j
  else ((List.range g.k).mapM (fun x => (chunkData? g got x).map (fun v => (x, v)))).map (fun ds => if j = g.k then chunkP ds else chunkQ ds)

/-! ### Journal and locks (R198, R199) -/

/-- Bytes 0 to 55 of an entry. -/
def entryBytes (e : CEntry) : List Byte :=
  leBytes 8 e.tseq ++ leBytes 1 e.owner ++ leBytes 1 e.lead ++ leBytes 1 e.state ++ leBytes 1 e.geom ++ leBytes 4 e.nsid ++ leBytes 8 e.stripe ++
    leBytes 1 e.peer ++ leBytes 1 e.mirror ++ leBytes 1 e.chunks ++ leBytes 1 0 ++ leBytes 8 e.view ++ leBytes 20 0

/-- The entry with its HCRC; one that fails it counts as FREE. -/
def entrySeal (e : CEntry) : CEntry := { e with hcrc := crc32c (entryBytes e) }
def entryUsed (e : CEntry) : Bool := e.state != 0 && e.hcrc == crc32c (entryBytes e)

/-- Show the journal occupancy. -/
def Dev.cjShow (d : Dev) : Dev :=
  let n := (d.clu.own.filter entryUsed).length
  let m := (d.clu.mirror.filter entryUsed).length
  (d.setF F.GWL_CJ_OWN (min n 65535)).setF F.GWL_CJ_MIRROR (min m 65535)

/-- The mirror holder (R199). -/
def Dev.mirrorFor (d : Dev) : Option Nat :=
  [7, 1, 2, 4].map (fun m => Nat.xor d.self m) |>.find? d.inView

/-- Choose the mirror holder; a change away from the opposite member raises MIRROR_MOVED. -/
def Dev.pickMirror (d : Dev) : Option Nat × Dev :=
  match d.mirrorFor with
  | none => (none, d)
  | some m =>
    let d1 := { d with gwl := { d.gwl with mirrorAt := some m } }
    if d.gwl.mirrorAt = some m ∨ (d.gwl.mirrorAt = none ∧ m = Nat.xor d.self 7) then (some m, d1)
    else (some m, d1.raise 0x1D2 noPlot [m])

/-- Write an own entry and mirror it. -/
def Dev.putEntry (d : Dev) (e : CEntry) : Dev :=
  let rest := d.clu.own.filter (fun x => !(x.tseq == e.tseq && x.lead == e.lead))
  let d1 := ({ d with clu := { d.clu with own := rest ++ [entrySeal e] } }).cjShow
  d1.sendTo { dst := e.mirror, kind := .mirror, nsid := e.nsid, stripe := e.stripe, tseq := e.tseq, lead := e.lead,
              vals := [(0, e.state), (1, e.chunks), (2, e.peer), (3, e.view)] }

/-- Free an own entry. -/
def Dev.freeEntry (d : Dev) (lead tseq : Nat) : Dev :=
  match d.clu.own.find? (fun x => x.tseq == tseq && x.lead == lead) with
  | none => d
  | some e =>
    let d1 := ({ d with clu := { d.clu with own := d.clu.own.filter (fun x => !(x.tseq == tseq && x.lead == lead)) } }).cjShow
    d1.sendTo { dst := e.mirror, kind := .mirror, nsid := e.nsid, stripe := e.stripe, tseq := tseq, lead := lead, vals := [(0, 0)] }

/-- The region of a stripe in the dirty-region log (R202). -/
def Dev.region (d : Dev) (nsid r : Nat) : Nat := 2 ^ 40 * nsid + r / max 1 d.positions.length / 64

/-- A stripe is written in degraded form: its region is dirty, and what the resynchronisation wrote of it is old. -/
def Dev.markDirty (d : Dev) (nsid r : Nat) : Dev :=
  { d with clu := { d.clu with dirty := NSet.add (d.region nsid r) d.clu.dirty,
                               cursor := d.clu.cursor.filter (fun x => !(x.1 == nsid && x.2.1 == r)) } }

/-- What a part holds for a block that a Write Uncorrectable marks: a value beyond every block of data. -/
def markBlock (lba : Nat) : Nat := 2 ^ (8 * lba + 512)

/-- Bits `[sh + w - 1 : sh]` of a number replaced. -/
def putBits (v sh w x : Nat) : Nat := v - (v / 2 ^ sh % 2 ^ w) * 2 ^ sh + (x % 2 ^ w) * 2 ^ sh

/-- New content of a chunk: blocks of it replaced or marked. -/
def mergeParts (lba old : Nat) (ps : List CPart) : Nat :=
  ps.foldl (fun v p =>
    let x := p.data.getD 0
    let u := putBits (putBits v (8 * lba * p.blk) (8 * lba) x) (8 * chunkBytes + 128 + 512 * p.blk) 512 (x / 2 ^ (8 * lba))
    setBit u (8 * chunkBytes + p.blk) (p.data == some (markBlock lba))) old

def Dev.setTx (d : Dev) (t : CTx) : Dev :=
  { d with gwl := { d.gwl with txs := d.gwl.txs.map (fun x => if x.tseq == t.tseq && x.lead == t.lead && x.stripe == t.stripe then t else x) } }

def Dev.tx? (d : Dev) (lead tseq : Nat) : Option CTx := d.gwl.txs.find? (fun x => x.tseq == tseq && x.lead == lead)

/-- The geometry and LBA size of a cluster namespace. -/
def Dev.cns? (d : Dev) (nsid : Nat) : Option (Ns × ClusterGeom) :=
  (d.ns? nsid).bind (fun n => n.cluster.map (fun g => (n, g)))

/-- The 16 write-cache slots of a chunk's content. -/
def chunkSlots (lba v : Nat) : List Slot :=
  let per := 4096 / lba
  (List.range 16).map (fun s =>
    { data := v / 2 ^ (32768 * s) % 2 ^ 32768
      hmeta := if lba = 4096 then v / 2 ^ (8 * chunkBytes + 128 + 512 * s) % 2 ^ 512 else 0
      umask := v / 2 ^ (8 * chunkBytes + per * s) % 2 ^ per
      poison := false })

/-- The write-cache slots of a commit record. -/
def Dev.recSlots (d : Dev) (c : Commit) : List Nat :=
  (List.range (c.count * ((d.ns? c.nsid).map Ns.iuSlots).getD 1)).map (fun i => c.firstSlot + i)

/-- Write a commit record for the chunks of a cluster namespace (R137, R138, R198): the next write sequence; a record of KIND 0x6, or 0x1 for
a resynchronised chunk, supersedes older ones and changes the map entries. -/
def Dev.putChunkRecord (d : Dev) (c : Commit) : Dev :=
  let w := d.md.wseq
  let r := { c with wseq := w }
  let d1 := { d with
    mram := { d.mram with commits := d.mram.commits ++ [r] }
    md := { d.md with wseq := w + 1 } }
  let d2 := ((d1.setF F.MRAMC_WSEQ_NEXT (w + 1)).count 0x50 0 noPlot 1).count 0x52 0 noPlot 64
  if c.kind = 5 then d2
  else
    let per := ((d.ns? c.nsid).map Ns.iuSlots).getD 1
    let d3 := d2.supersede w c.nsid c.ius
    let d4 := { d3 with nv := { d3.nv with gde := false } }
    (List.range c.count).foldl (fun (e : Dev) i => e.mapSet c.nsid (c.firstIu + i) (cacheEntry (c.firstSlot + i * per))) d4

/-- Put a chunk's content into free slots under a record of a kind; `none` while the write cache has no room. -/
def Dev.chunkRecord (d : Dev) (kind lead tseq nsid r j v : Nat) : Option Dev :=
  match d.cns? nsid, findRun (d.mram.slots.map Prod.fst) 16 with
  | some (n, g), some s =>
    if 212992 ≤ d.mram.commits.length then none
    else
      let put := (chunkSlots (lbaBytes n.lbaf) v).zipIdx.foldl (fun m x => AMap.put (s + x.2) x.1 m) d.mram.slots
      let c : Commit :=
        { wseq := 0, nsid := nsid, kind := kind, count := chunkBytes / n.iuBytes, firstIu := d.chunkIu n g r j, firstSlot := s, plot := 0,
          gen := d.plotGen 0, lead := lead, tseq := tseq, dead := [], sent := [], staged := [], moved := [] }
      some (((({ d with mram := { d.mram with slots := put } }).putChunkRecord c).count 0x52 0 noPlot (16 * 4224)).wcShow)
  | _, _ => none

/-- Free the prepared slots of a transaction's records that `p` picks. -/
def Dev.dropPrepared (d : Dev) (p : Commit → Bool) : Dev :=
  let gone := (d.mram.commits.filter (fun c => c.kind == 5 && p c)).flatMap d.recSlots
  ({ d with mram := { d.mram with commits := d.mram.commits.filter (fun c => !(c.kind == 5 && p c)),
                                  slots := d.mram.slots.filter (fun s => !gone.contains s.1) } }).wcShow

/-- Write a chunk's new content as a prepared record (KIND 0x5), which holds its slots and which no read sees (R138); a prepared chunk of the
transaction is replaced. `none` while the write cache has no room. -/
def Dev.prep (d : Dev) (p : CPrep) : Option Dev :=
  match d.cns? p.nsid with
  | none => none
  | some (n, g) =>
    let iu := d.chunkIu n g p.stripe p.chunk
    let d1 := d.dropPrepared (fun c => c.lead == p.lead && c.tseq == p.tseq && c.nsid == p.nsid && c.firstIu == iu)
    let rest := d1.clu.preps.filter (fun x => !(x.lead == p.lead && x.tseq == p.tseq && x.stripe == p.stripe && x.chunk == p.chunk))
    ({ d1 with clu := { d1.clu with preps := rest ++ [p] } }).chunkRecord 5 p.lead p.tseq p.nsid p.stripe p.chunk p.data

/-- A resynchronised chunk is written (R203): its data goes through the write cache. `none` while that has no room. -/
def Dev.writeChunk (d : Dev) (nsid r j v : Nat) : Option Dev := (d.setChunk nsid r j v).chunkRecord 1 0 0 nsid r j v

/-- Ask for chunks until k have come or been asked for; those this member holds are read at once. -/
def Dev.gatherAsk (d : Dev) (g : ClusterGeom) (x : Gather) : Dev × Gather :=
  x.left.foldl (fun (a : Dev × Gather) c =>
    let y := a.2
    let h := a.1.holder y.stripe c
    if g.k ≤ y.got.length + y.asked.length then (a.1, { y with left := y.left ++ [c] })
    else if h = a.1.self then
      if a.1.clu.marked.contains (chunkKey y.nsid y.stripe c) then a
      else (a.1, { y with got := y.got ++ [(c, a.1.chunk y.nsid y.stripe c)] })
    else if a.1.inView h then
      (a.1.sendTo { dst := h, kind := .read, tag := y.tag, nsid := y.nsid, stripe := y.stripe, tseq := 0, lead := a.1.self, vals := [(c, 0)] },
       { y with asked := y.asked ++ [c] })
    else a) (d, { x with left := [] })

/-- Go on with a gathering: it ends with k chunks, or with `none` where the stripe cannot supply them, and is held until then. -/
def Dev.gatherRun (d : Dev) (g : ClusterGeom) (x : Gather) : Dev × Option (Option (List (Nat × Nat))) :=
  let a := d.gatherAsk g x
  let rest := a.1.gwl.gathers.filter (fun y => y.tag != x.tag)
  let put (l : List Gather) : Dev := { a.1 with gwl := { a.1.gwl with gathers := l } }
  if g.k ≤ a.2.got.length then (put rest, some (some a.2.got))
  else if a.2.asked.isEmpty then (put rest, some none)
  else (put (rest ++ [a.2]), none)

/-- Begin to read k chunks of a stripe, none of them in `no`. -/
def Dev.gather (d : Dev) (g : ClusterGeom) (nsid r : Nat) (no : List Nat) (why : GWhy) : Dev × Option (Option (List (Nat × Nat))) :=
  let tag := d.gwl.nextTag
  ({ d with gwl := { d.gwl with nextTag := tag + 1 } }).gatherRun g
    { tag := tag, nsid := nsid, stripe := r, why := why, asked := [], got := [], left := (List.range (g.k + g.m)).filter (fun j => !no.contains j) }

/-- Open a granted transaction (R198 steps 2 and 3): entry OPEN, mirrored, PREPARE to the data members. Chunks of members outside the view are
not written; the parity carries their content (R202). -/
def Dev.openTx (d : Dev) (t : CTx) (n : Ns) (g : ClusterGeom) (m : Nat) : Dev :=
  let nsid := t.nsid
  let r := t.stripe
  let js := (t.parts.map CPart.chunk).eraseDups
  let live := js.filter (fun j => d.inView (d.holder r j))
  let all := (List.range (g.k + g.m)).all (fun j => d.inView (d.holder r j))
  let e : CEntry :=
  { tseq := t.tseq, owner := d.self, lead := t.lead, state := 1, geom := geomByte g, nsid := nsid, stripe := r,
    peer := t.peer.getD 0xFF, mirror := m, chunks := (js.map (fun j => 2 ^ j)).sum, view := d.f F.GWL_VIEW_VIEW, hcrc := 0 }
  let d2 := (if all then d else d.markDirty nsid r).putEntry e
  let lba := lbaBytes n.lbaf
  let absent := (js.filter (fun j => !live.contains j)).map (fun j =>
    let old := AMap.get 0 j t.olds
    (j, Nat.xor old (mergeParts lba old (t.parts.filter (fun p => p.chunk == j)))))
  let d3 := d2.setTx { t with granted := true, need := live, delta := absent }
  let d4 := live.foldl (fun (x : Dev) j =>
    x.sendTo { dst := d.holder r j, kind := .prepare, nsid := nsid, stripe := r, tseq := t.tseq, lead := t.lead,
               vals := ((t.parts.filter (fun p => p.chunk == j)).map (fun p => (j * 4096 + p.blk, p.data.getD 0))) }) d3
  match t.peer with
  | some p => if t.lead = d.self then d4.sendTo { dst := p, kind := .lock, nsid := nsid, stripe := r + 1, tseq := t.tseq, lead := t.lead, vals := [] } else d4
  | none => d4

/-- The old content of a transaction's absent chunks is known: it opens. Where the stripe cannot supply it, it waits (assumption 174). -/
def Dev.gotOlds (d : Dev) (lead tseq nsid r : Nat) (got : Option (List (Nat × Nat))) : Dev :=
  match got, d.gwl.txs.find? (fun x => x.tseq == tseq && x.lead == lead && x.stripe == r), d.cns? nsid with
  | some cs, some t, some (n, g) =>
    let js := ((t.parts.map CPart.chunk).eraseDups).filter (fun j => !d.inView (d.holder r j))
    match d.pickMirror with
    | (none, d1) => d1
    | (some m, d1) => d1.openTx { t with olds := js.filterMap (fun j => (chunkData? g cs j).map (fun v => (j, v))) } n g m
  | _, _, _ => d

/-- Grant a stripe's lock to the first transaction that waits for it (R198 step 1). With no member to mirror to, or no free entry, it waits
(R199); so it does while the stripe is being resynchronised (R203). The old content of chunks whose member is absent is rebuilt first. -/
def Dev.grantLock (d : Dev) (nsid r : Nat) : Dev :=
  match d.gwl.txs.find? (fun x => x.nsid == nsid && x.stripe == r), d.cns? nsid with
  | some t, some (n, g) =>
    if t.granted ∨ d.gwl.gathers.any (fun x => x.nsid == nsid && x.stripe == r && !(x.why matches .rebuild _ _ _)) then d
    else match d.pickMirror with
    | (none, d1) => d1
    | (some m, d1) =>
      if 65280 ≤ d1.clu.own.length then d1.raise 0x1D3 noPlot []
      else
        let gone := ((t.parts.map CPart.chunk).eraseDups).filter (fun j => !d1.inView (d1.holder r j))
        if gone.isEmpty then d1.openTx t n g m
        else match d1.gather g nsid r gone (.lock t.lead t.tseq) with
          | (d2, some got) => d2.gotOlds t.lead t.tseq nsid r got
          | (d2, none) => d2
  | _, _ => d

/-- The first transaction of every stripe that waits for its lock. -/
def Dev.grantAll (d : Dev) : Dev :=
  ((d.gwl.txs.map (fun t => (t.nsid, t.stripe))).eraseDups).foldl (fun (e : Dev) x => e.grantLock x.1 x.2) d

/-- STRIPE_LOCK (R198): a transaction's request for a stripe's lock reaches its owner, which grants locks in arrival order.
`parts` are the blocks it writes in the stripe. -/
def stripeLock (lead tseq nsid r recv : Nat) (peer : Option Nat) (parts : List (Nat × Nat × Nat)) (d : Dev) : Dev :=
  match d.cns? nsid with
  | none => d
  | some (_, g) =>
    if d.owner g r ≠ d.self ∨ d.gwl.txs.any (fun x => x.tseq == tseq && x.lead == lead && x.stripe == r) then d
    else
      let mine := d.gwl.writes.flatMap (fun w => w.reqs.filter (fun q => q.tseq == tseq && q.lead == lead && lead == d.self))
      let ps : List CPart := match mine with
        | q :: _ => q.parts.filter (fun p => p.stripe == r)
        | [] => parts.map (fun p => { stripe := r, chunk := p.1, blk := p.2.1, data := some p.2.2, bad := false })
      let t : CTx :=
      { tseq := tseq, lead := lead, nsid := nsid, stripe := r, peer := peer, recv := recv, parts := ps, olds := [],
        granted := false, need := [], delta := [], qWait := false, ready := false, peerReady := peer.isNone || lead != d.self }
      let d1 := { d with gwl := { d.gwl with txs := d.gwl.txs ++ [t] } }
      if d.gwl.txs.any (fun x => x.nsid == nsid && x.stripe == r) then d1 else d1.grantLock nsid r

def execStripeLock (lead tseq nsid r recv : Nat) (peer : Option Nat) (parts : List (Nat × Nat × Nat)) :=
  run (stripeLock lead tseq nsid r recv peer parts)

/-- PREPARE (R198, R200): a data member writes new chunk data under a KIND 0x5 record: the blocks of `parts` replaced, or with
`delta` the whole chunk changed by XOR (a parity chunk). Under the read-only condition it refuses; while the write cache has no room the
transaction waits. -/
def prepare (src lead tseq nsid r j : Nat) (parts : List (Nat × Nat)) (delta : Option Nat) (d : Dev) : Dev :=
  match d.cns? nsid with
  | none => d
  | some (n, g) =>
    if d.holder r j ≠ d.self ∨ g.k + g.m ≤ j then d
    else
      let reply (k : CKind) (v : Nat) (e : Dev) : Dev :=
        e.sendTo { dst := src, kind := k, nsid := nsid, stripe := r, tseq := tseq, lead := lead, vals := [(j, v)] }
      if d.flag F.TOP_MODE_CRO then reply .refusal 0 d
      else
        let old := d.chunk nsid r j
        let new := match delta with
          | some x => Nat.xor old x
          | none => mergeParts (lbaBytes n.lbaf) old (parts.map (fun p =>
              { stripe := r, chunk := j, blk := p.1, data := some p.2, bad := false }))
        match d.prep { lead := lead, tseq := tseq, nsid := nsid, stripe := r, chunk := j, data := new } with
        | some e => reply .prepared (Nat.xor old new) e
        | none => d

def execPrepare (src lead tseq nsid r j : Nat) (parts : List (Nat × Nat)) (delta : Option Nat) :=
  run (prepare src lead tseq nsid r j parts delta)

/-- The prepared records of a transaction are resolved (R138): records of KIND 0x6 make their slots live, supersede older records and change
the map entries as they are written; records of KIND 0x7 free them, and are freed with them. -/
def Dev.settle (d : Dev) (lead tseq : Nat) (commit : Bool) : Dev :=
  let mine (c : Commit) : Bool := c.lead == lead && c.tseq == tseq
  let recs := d.mram.commits.filter (fun c => c.kind == 5 && mine c)
  let ps := d.clu.preps.filter (fun p => p.lead == lead && p.tseq == tseq)
  let d1 := { d with clu := { d.clu with preps := d.clu.preps.filter (fun p => !(p.lead == lead && p.tseq == tseq)) } }
  if commit then
    let d2 := { d1 with mram := { d1.mram with commits := d1.mram.commits.filter (fun c => !(c.kind == 5 && mine c)) } }
    (ps.foldl (fun (e : Dev) p => e.setChunk p.nsid p.stripe p.chunk p.data)
      (recs.foldl (fun (e : Dev) c => e.putChunkRecord { c with kind := 6 }) d2)).freeCommits
  else
    let w := d1.md.wseq + recs.length
    (({ d1 with md := { d1.md with wseq := w } }).dropPrepared mine).setF F.MRAMC_WSEQ_NEXT w

/-- The members of a stripe that a transaction wrote, in view. -/
def Dev.txMembers (d : Dev) (t : CTx) : List Nat :=
  match d.cns? t.nsid with
  | none => []
  | some (_, g) => (((t.parts.map CPart.chunk).eraseDups ++ (List.range g.m).map (fun i => g.k + i)).map (d.holder t.stripe)).eraseDups.filter
      (fun i => d.inView i && i != d.self)

/-- Send COMMIT or an abort to the members of a transaction's stripe, and from the lead to the participant. -/
def Dev.tellTx (d : Dev) (t : CTx) (k : CKind) : Dev :=
  let to_ := (if t.lead = d.self then t.peer.toList else []) ++ d.txMembers t
  to_.eraseDups.foldl (fun (e : Dev) i => e.sendTo { dst := i, kind := k, nsid := t.nsid, stripe := t.stripe, tseq := t.tseq, lead := t.lead, vals := [] }) d

/-- A transaction leaves a stripe: its lock passes to the next one that waits. -/
def Dev.unlock (d : Dev) (lead tseq : Nat) : Dev :=
  let mine := d.gwl.txs.filter (fun x => x.tseq == tseq && x.lead == lead)
  let d1 := { d with gwl := { d.gwl with txs := d.gwl.txs.filter (fun x => !(x.tseq == tseq && x.lead == lead)) } }
  if mine.isEmpty then d1 else d1.grantAll

/-- A transaction of a host write has ended with a status: the write completes after its last one (R198). A late one is discarded and
counted (R14). -/
def Dev.txEnd (d : Dev) (lead tseq : Nat) (st : Sc) : Dev :=
  let hit (w : CWrite) : Bool := w.reqs.any (fun q => q.tseq == tseq && q.lead == lead)
  match d.gwl.writes.find? hit with
  | none => d.setF F.HIF_DISCARD_COUNT (satAdd 64 (d.f F.HIF_DISCARD_COUNT) 1)
  | some w =>
    let left := w.reqs.filter (fun q => !(q.tseq == tseq && q.lead == lead))
    let others := d.gwl.writes.filter (fun x => !(x.id == w.id))
    if st ≠ .success ∨ left.isEmpty then ({ d with gwl := { d.gwl with writes := others } }).result w.id st 0 0
    else { d with gwl := { d.gwl with writes := others ++ [{ w with reqs := left }] } }

/-- Abort a transaction at its owner. -/
def Dev.abortTx (d : Dev) (t : CTx) (st : Sc) : Dev :=
  let d1 := ((((d.tellTx t .abort).settle t.lead t.tseq false).freeEntry t.lead t.tseq).unlock t.lead t.tseq)
  if t.lead ≠ d.self then d1
  else if t.recv = d.self then d1.txEnd t.lead t.tseq st
  else d1.sendTo { dst := t.recv, kind := .aborted, nsid := t.nsid, stripe := t.stripe, tseq := t.tseq, lead := t.lead, vals := [] }

/-- The owner's own side is prepared: a participant sets its entry to PREPARED and tells the lead; a lead whose participant is
prepared too sets COMMIT (R198 steps 4 and 5). -/
def Dev.txStep (d : Dev) (t : CTx) : Dev :=
  if ¬t.ready then d
  else match d.clu.own.find? (fun x => x.tseq == t.tseq && x.lead == t.lead) with
    | none => d
    | some e =>
      if t.lead ≠ d.self then
        (d.putEntry { e with state := 2 }).sendTo { dst := t.lead, kind := .prepared, nsid := t.nsid, stripe := t.stripe,
                                                    tseq := t.tseq, lead := t.lead, vals := [(0xFF, 0)] }
      else if t.peerReady then d.putEntry { e with state := 3 } else d

/-- PREPARED (R198): a member reports chunk `j` prepared, with the change of its content, or the participant reports with
`j` = FFh; or it refuses. When all data chunks are prepared the owner prepares the parity. -/
def prepared (lead tseq j delta : Nat) (ok : Bool) (d : Dev) : Dev :=
  match d.tx? lead tseq with
  | none => d
  | some t =>
    match d.cns? t.nsid with
    | none => d
    | some (_, g) =>
      if ¬ok then d.abortTx t .namespaceWriteProtected
      else if j = 0xFF then
        let t1 := { t with peerReady := true }
        (d.setTx t1).txStep t1
      else
        let ds := if j < g.k then t.delta ++ [(j, delta)] else t.delta
        let t1 := { t with need := NSet.del j t.need, delta := ds, qWait := t.qWait && j != g.k + 1 }
        if ¬t1.need.isEmpty ∨ t1.qWait then d.setTx t1
        else if j < g.k ∨ t.need.isEmpty = false then
          let p := chunkP t1.delta
          let qd := chunkQ t1.delta
          let mine := d.holder t.stripe g.k == d.self
          let own := if mine then d.prep { lead := lead, tseq := tseq, nsid := t.nsid, stripe := t.stripe, chunk := g.k,
                                           data := Nat.xor (d.chunk t.nsid t.stripe g.k) p } else some d
          let d1 := own.getD d
          let qh := d.holder t.stripe (g.k + 1)
          if own.isNone then d
          else if g.m = 2 ∧ d.inView qh then
            let msg : CMsg :=
              { dst := qh, kind := .prepareDelta, nsid := t.nsid, stripe := t.stripe, tseq := tseq, lead := lead,
                vals := [(g.k + 1, qd)] }
            (d1.setTx { t1 with qWait := true }).sendTo msg
          else
            let t2 := { t1 with ready := true }
            (d1.setTx t2).txStep t2
        else
          let t2 := { t1 with ready := true }
          (d.setTx t2).txStep t2

def execPrepared (lead tseq j delta : Nat) (ok : Bool) := run (prepared lead tseq j delta ok)

/-- MIRROR_ENTRY (R199): a mirror holder stores an owner's entry, or frees it, and acknowledges it. -/
def mirrorEntry (e : CEntry) (d : Dev) : Dev :=
  let rest := d.clu.mirror.filter (fun x => !(x.owner == e.owner && x.tseq == e.tseq && x.lead == e.lead))
  let new := if e.state = 0 then rest else rest ++ [entrySeal e]
  if e.state ≠ 0 ∧ 65280 ≤ rest.length then d
  else (({ d with clu := { d.clu with mirror := new } }).cjShow).sendTo
    { dst := e.owner, kind := .mirrorAck, nsid := e.nsid, stripe := e.stripe, tseq := e.tseq, lead := e.lead, vals := [(0, e.state)] }

def execMirrorEntry (e : CEntry) := run (mirrorEntry e)

/-- MIRROR_ACK (R198): the mirror has an entry in state `st`. For the lead's COMMIT this is the decision point: COMMIT goes to
the members and the participant. -/
def mirrorAck (lead tseq st : Nat) (d : Dev) : Dev :=
  match d.tx? lead tseq, d.clu.own.find? (fun x => x.tseq == tseq && x.lead == lead) with
  | some t, some e => if lead = d.self ∧ st = 3 ∧ e.state = 3 then (d.tellTx t .commit).settle lead tseq true else d
  | _, _ => d

def execMirrorAck (lead tseq st : Nat) := run (mirrorAck lead tseq st)

/-- CLUSTER_COMMIT (R198 step 6): a KIND 0x6 record makes the prepared slots live; a participant sets its own entry to COMMIT, so that it can
answer for the decision (DEDUCED, assumption 176), and passes COMMIT on. A member that has committed already ignores it. -/
def clusterCommit (src lead tseq : Nat) (d : Dev) : Dev :=
  let d1 := d.settle lead tseq true
  let d2 := match d.tx? lead tseq, d.clu.own.find? (fun x => x.tseq == tseq && x.lead == lead) with
    | some t, some e => if lead = d.self then d1 else (d1.putEntry { e with state := 3 }).tellTx t .commit
    | _, _ => d1
  d2.sendTo { dst := src, kind := .committed, nsid := 0, stripe := 0, tseq := tseq, lead := lead, vals := [] }

def execClusterCommit (src lead tseq : Nat) := run (clusterCommit src lead tseq)

/-- CLUSTER_ABORT (R198): a KIND 0x7 record frees the prepared slots. At the receiving member an abort ends the write. -/
def clusterAbort (lead tseq : Nat) (d : Dev) : Dev :=
  let d1 := d.settle lead tseq false
  match d.tx? lead tseq with
  | some t => if lead = d.self then d1 else (((d1.tellTx t .abort).freeEntry lead tseq).unlock lead tseq)
  | none => d1.txEnd lead tseq .namespaceWriteProtected

def execClusterAbort (lead tseq : Nat) := run (clusterAbort lead tseq)

/-- TRANSACTION_DONE (R198 step 7): every member has committed: at the lead the entry is freed, the lock passes on, and the participant and the
receiving member are told; the participant frees its own entry; at the receiving member the write has one transaction less. -/
def transactionDone (lead tseq : Nat) (d : Dev) : Dev :=
  let recvd (e : Dev) : Dev := if e.gwl.writes.any (fun w => w.reqs.any (fun q => q.tseq == tseq && q.lead == lead)) then e.txEnd lead tseq .success else e
  match d.tx? lead tseq, d.clu.own.find? (fun x => x.tseq == tseq && x.lead == lead) with
  | none, _ => if lead = d.self then d else d.txEnd lead tseq .success
  | some _, none => d
  | some t, some e =>
    if lead ≠ d.self then recvd ((d.freeEntry lead tseq).unlock lead tseq)
    else if e.state ≠ 3 then d
    else
      let d1 := (d.freeEntry lead tseq).unlock lead tseq
      let far := (t.peer.toList ++ [t.recv]).eraseDups.filter (fun i => i != d.self)
      let d2 := far.foldl (fun (y : Dev) i =>
        y.sendTo { dst := i, kind := .done, nsid := t.nsid, stripe := t.stripe, tseq := tseq, lead := lead, vals := [] }) d1
      if t.recv = d.self then d2.txEnd lead tseq .success else d2

def execTransactionDone (lead tseq : Nat) := run (transactionDone lead tseq)

/-! ### Host access to cluster namespaces (R194, R197, R198, R200) -/

/-- A block of a chunk that this member holds. -/
def Dev.chunkBlock (d : Dev) (nsid r j blk lba : Nat) : Nat := chunkBlk lba (d.chunk nsid r j) blk

/-- The transaction requests of a write of contiguous blocks (R198): at most 256 KiB each, numbered from `base`. -/
def Dev.clusterReqs (d : Dev) (n : Ns) (g : ClusterGeom) (slba : Nat) (data : List Nat) (base : Nat) : List CReq :=
  let lba := lbaBytes n.lbaf
  let per := 262144 / lba
  let tx (i : Nat) : CReq :=
    let bs := (data.drop (i * per)).take per
    let ps : List CPart := bs.zipIdx.map (fun x =>
      let p := clusterPlace g lba (slba + i * per + x.2)
      { stripe := p.1, chunk := p.2.1, blk := p.2.2, data := some x.1, bad := false })
    let lo := ((ps.map CPart.stripe).min?).getD 0
    let hi := ((ps.map CPart.stripe).max?).getD 0
    { tseq := base + i, lead := d.owner g lo, peer := if lo < hi then some (d.owner g hi) else none, stripe := lo, parts := ps }
  (List.range (ceilDiv data.length per)).map tx

/-- Write runs of blocks of a cluster namespace (R198): each run is cut into transactions, each requested from its lead, and the
command completes after the last. -/
def Dev.clusterRanges (d : Dev) (id : CmdId) (n : Ns) (g : ClusterGeom) (runs : List (Nat × List Nat)) : Dev :=
  if d.flag F.TOP_MODE_CFENCE then d.complete id (.vendor 0xC0) d.fenceDw 0
  else
    let reqs := runs.foldl (fun (l : List CReq) r => l ++ d.clusterReqs n g r.1 r.2 (d.clu.tseq + l.length)) []
    let d1 := { d with clu := { d.clu with tseq := d.clu.tseq + reqs.length } }
    let d2 := { d1 with gwl := { d1.gwl with writes := d1.gwl.writes ++ [{ id := id, nsid := n.nsid, reqs := reqs }] } }
    reqs.foldl (fun (e : Dev) q => if q.lead = e.self then e
      else e.sendTo { dst := q.lead, kind := .request, nsid := n.nsid, stripe := q.stripe, tseq := q.tseq, lead := q.lead,
                      vals := q.parts.map (fun p => (4096 * p.chunk + p.blk, p.data.getD 0)) }) d2

/-- Write contiguous blocks of a cluster namespace. -/
def Dev.clusterWrite (d : Dev) (id : CmdId) (n : Ns) (g : ClusterGeom) (slba : Nat) (data : List Nat) : Dev :=
  d.clusterRanges id n g [(slba, data)]

/-- Complete a cluster read whose blocks are all known. -/
def Dev.finishCRead (d : Dev) (x : CRead) : Dev :=
  if x.parts.any (fun p => p.data.isNone && !p.bad) then { d with gwl := { d.gwl with reads := d.gwl.reads ++ [x] } }
  else
    let bs : List BlkSrc := x.parts.map (fun p => match p.data with
      | some v => if p.bad then .bad else .val v
      | none => .bad)
    match x.use, d.cns? x.nsid with
    | .copyTo sdlba, some (n, g) =>
      d.clusterWrite x.id n g sdlba (bs.map (fun b => (b.data?).getD (markBlock (lbaBytes n.lbaf))))
    | _, _ => d.finishRead { id := x.id, nsid := x.nsid, use := x.use, pi := x.pi, blocks := bs }

/-- A chunk, or its loss, reaches the reads that wait for it under a tag: `none` where no read does. -/
def Dev.takeChunk (d : Dev) (n : Ns) (r j tag : Nat) (v : Option Nat) : Option Dev :=
  let lba := lbaBytes n.lbaf
  let wants (x : CRead) : Bool := x.tag == tag && x.nsid == n.nsid && x.parts.any (fun p => p.stripe == r && p.chunk == j && p.data.isNone)
  let up (p : CPart) : CPart :=
    if p.stripe = r ∧ p.chunk = j then
      match v with
      | some c => { p with data := some (chunkBlk lba c p.blk), bad := p.bad || chunkMark c p.blk }
      | none => { p with bad := true }
    else p
  match d.gwl.reads.filter wants with
  | [] => none
  | hit => some (hit.foldl (fun (e : Dev) x => e.finishCRead { x with parts := x.parts.map up })
      { d with gwl := { d.gwl with reads := d.gwl.reads.filter (fun x => !wants x) } })

/-- A late result is discarded and counted (R14, R32). -/
def Dev.discard (d : Dev) : Dev := d.setF F.HIF_DISCARD_COUNT (satAdd 64 (d.f F.HIF_DISCARD_COUNT) 1)

/-- Answer a request for a chunk; this member's own is taken at once. -/
def Dev.answerChunk (d : Dev) (src nsid r j tag : Nat) (v : Option Nat) : Dev :=
  if src = d.self then
    match d.cns? nsid with
    | some (n, _) => (d.takeChunk n r j tag v).getD d.discard
    | none => d
  else d.sendTo { dst := src, kind := .result, tag := tag, nsid := nsid, stripe := r, tseq := 0, lead := src,
                  vals := (v.map (fun x => (j, x))).toList }

/-- Rebuild chunk `j` of a stripe from k others for a read (R197). -/
def Dev.rebuildFor (d : Dev) (g : ClusterGeom) (src nsid r j tag : Nat) : Dev :=
  match d.gather g nsid r [j] (.rebuild src tag j) with
  | (d1, some got) => d1.answerChunk src nsid r j tag (got.bind (fun cs => chunkOf? g cs j))
  | (d1, none) => d1

/-- Send a read of a chunk to the stripe's owner for reconstruction (R197). -/
def Dev.askOwner (d : Dev) (g : ClusterGeom) (nsid r j tag : Nat) : Dev :=
  let o := d.owner g r
  if o = d.self then d.rebuildFor g d.self nsid r j tag
  else d.sendTo { dst := o, kind := .readLost, tag := tag, nsid := nsid, stripe := r, tseq := 0, lead := d.self, vals := [(j, 0)] }

/-- Read the listed blocks of a cluster namespace (R197): chunks this member holds are read, the others forwarded to their
holder, or to the stripe owner for reconstruction while the holder is outside the view. -/
def Dev.clusterReadAt (d : Dev) (id : CmdId) (n : Ns) (g : ClusterGeom) (lbas : List Nat) (use : ReadUse) (pi : Option PiCmd) : Dev :=
  let lba := lbaBytes n.lbaf
  let parts : List CPart := lbas.map (fun b =>
    let p := clusterPlace g lba b
    if d.holder p.1 p.2.1 = d.self then
      { stripe := p.1, chunk := p.2.1, blk := p.2.2, data := some (d.chunkBlock n.nsid p.1 p.2.1 p.2.2 lba),
        bad := d.clu.marked.contains (chunkKey n.nsid p.1 p.2.1) || chunkMark (d.chunk n.nsid p.1 p.2.1) p.2.2 }
    else { stripe := p.1, chunk := p.2.1, blk := p.2.2, data := none, bad := false })
  let far := parts.filter (fun p => p.data.isNone)
  if d.flag F.TOP_MODE_CFENCE ∧ ¬far.isEmpty then d.complete id (.vendor 0xC0) d.fenceDw 0
  else
    let tag := d.gwl.nextTag
    let d0 := { d with gwl := { d.gwl with nextTag := tag + 1 } }
    let d1 := d0.finishCRead { id := id, tag := tag, nsid := n.nsid, use := use, pi := pi, parts := parts }
    (far.map (fun p => (p.stripe, p.chunk))).eraseDups.foldl (fun (e : Dev) x =>
      let h := e.holder x.1 x.2
      if e.inView h then e.sendTo { dst := h, kind := .read, tag := tag, nsid := n.nsid, stripe := x.1, tseq := 0, lead := e.self, vals := [(x.2, 0)] }
      else e.askOwner g n.nsid x.1 x.2 tag) d1

/-- Read contiguous blocks of a cluster namespace. -/
def Dev.clusterRead (d : Dev) (id : CmdId) (n : Ns) (g : ClusterGeom) (slba nlb : Nat) (use : ReadUse) (pi : Option PiCmd) : Dev :=
  d.clusterReadAt id n g ((List.range nlb).map (fun i => slba + i)) use pi

/-- Copy within a cluster namespace (R66): the sources are read, then written from `sdlba` on. -/
def Dev.clusterCopy (d : Dev) (id : CmdId) (n : Ns) (g : ClusterGeom) (sdlba : Nat) (ranges : List (Nat × Nat)) : Dev :=
  d.clusterReadAt id n g (ranges.flatMap (fun r => (List.range r.2).map (fun i => r.1 + i))) (.copyTo sdlba) none

/-- CHUNK_FORWARD (R197): an owning member receives a forwarded read of chunk `j` and serves it as local; with `rebuild` it is asked to rebuild
the chunk from k others. The answer carries the request's tag. -/
def chunkForward (src nsid r j tag : Nat) (rebuild : Bool) (d : Dev) : Dev :=
  match d.cns? nsid with
  | none => d
  | some (_, g) =>
    if g.k + g.m ≤ j then d
    else if rebuild then d.rebuildFor g src nsid r j tag
    else if d.holder r j ≠ d.self ∨ d.clu.marked.contains (chunkKey nsid r j) then d.answerChunk src nsid r j tag none
    else d.answerChunk src nsid r j tag (some (d.chunk nsid r j))

def execChunkForward (src nsid r j tag : Nat) (rebuild : Bool) := run (chunkForward src nsid r j tag rebuild)

/-- The stripes of a region that this member owns or acts for (R202). -/
def Dev.regionStripes (d : Dev) (n : Ns) (g : ClusterGeom) (r : Nat) : List Nat :=
  let np := 64 * max 1 d.positions.length
  ((List.range np).map (fun i => r / np * np + i)).filter (fun x => decide (x < Dev.stripes n g) && d.owner g x == d.self)

/-- A stripe has been resynchronised: its lock passes on, and with the region's last stripe the region is done, and with the last region this
owner has finished (R203). -/
def Dev.synced (d : Dev) (n : Ns) (g : ClusterGeom) (nsid r : Nat) : Dev :=
  let set := d.f F.GWL_SETS_REJSET
  let rest := d.clu.cursor.filter (fun x => !(x.1 == nsid && x.2.1 == r))
  let d1 : Dev := ({ d with clu := { d.clu with cursor := rest ++ [(nsid, r, set)] } } : Dev).grantLock nsid r
  let done (x : Nat) : Bool := d1.clu.cursor.any (fun y => y.1 == nsid && y.2.1 == x && y.2.2 &&& set == set)
  if ¬(d1.regionStripes n g r).all done then d1
  else
    let d2 : Dev := { d1 with gwl := { d1.gwl with resync := NSet.del (d1.region nsid r) d1.gwl.resync } }
    if ¬d2.gwl.resync.isEmpty then d2
    else
      let to_ := (List.range 8).filter (fun i => bit set i && i != d.self)
      let d3 := to_.foldl (fun (e : Dev) i =>
        e.sendTo { dst := i, kind := .resyncDone, nsid := 0, stripe := 0, tseq := 0, lead := e.self, vals := [] }) d2
      let d4 := (d3.setF F.GWL_SETS_REJSET 0).raise 0x1CF noPlot []
      if d4.view &&& d4.configured = d4.configured then { d4 with clu := { d4.clu with dirty := [], cursor := [] } } else d4

/-- The current data of a stripe has been read: every chunk that a rejoining member holds is computed and sent. A stripe that cannot supply k
chunks stays to be done. -/
def Dev.sendStripe (d : Dev) (n : Ns) (g : ClusterGeom) (nsid r : Nat) (got : Option (List (Nat × Nat))) : Dev :=
  match got with
  | none => d.grantLock nsid r
  | some cs =>
    let to_ := (List.range 8).filter (fun i => bit (d.f F.GWL_SETS_REJSET) i && i != d.self)
    let mine (i : Nat) : List (Nat × Nat) :=
      ((List.range (g.k + g.m)).filter (fun j => d.holder r j == i)).filterMap (fun j => (chunkOf? g cs j).map (fun v => (j, v)))
    (to_.foldl (fun (e : Dev) i =>
      e.sendTo { dst := i, kind := .resync, nsid := nsid, stripe := r, tseq := 0, lead := e.self, vals := mine i }) d).synced n g nsid r

/-- What a gathering was for is done. -/
def Dev.gathered (d : Dev) (n : Ns) (g : ClusterGeom) (x : Gather) (got : Option (List (Nat × Nat))) : Dev :=
  match x.why with
  | .rebuild src tag j => d.answerChunk src x.nsid x.stripe j tag (got.bind (fun cs => chunkOf? g cs j))
  | .resync => d.sendStripe n g x.nsid x.stripe got
  | .lock lead tseq => d.gotOlds lead tseq x.nsid x.stripe got

/-- A chunk, or its loss, reaches a gathering. -/
def Dev.gatherTake (d : Dev) (n : Ns) (g : ClusterGeom) (x : Gather) (j : Nat) (v : Option Nat) : Dev :=
  let y := { x with asked := NSet.del j x.asked, got := x.got ++ (v.map (fun c => (j, c))).toList }
  match d.gatherRun g y with
  | (d1, some got) => d1.gathered n g y got
  | (d1, none) => d1

/-- CHUNK_RESULT (R197): a chunk comes back for the read of its tag, or is reported lost; a result that nothing waits for is late and is
counted (R14). Its holder's report sends the read on to the stripe owner for reconstruction, and a reconstruction that fails ends in
Unrecovered Read Error. -/
def chunkResult (src nsid r j tag : Nat) (v : Option Nat) (d : Dev) : Dev :=
  match d.cns? nsid with
  | none => d
  | some (n, g) =>
    match d.gwl.gathers.find? (fun x => x.tag == tag && x.nsid == nsid && x.stripe == r && x.asked.contains j) with
    | some x => d.gatherTake n g x j v
    | none =>
      let wants (x : CRead) : Bool := x.tag == tag && x.nsid == nsid && x.parts.any (fun p => p.stripe == r && p.chunk == j && p.data.isNone)
      if v = none ∧ src = d.holder r j ∧ d.owner g r ≠ src ∧ d.gwl.reads.any wants then d.askOwner g nsid r j tag
      else (d.takeChunk n r j tag v).getD d.discard

def execChunkResult (src nsid r j tag : Nat) (v : Option Nat) := run (chunkResult src nsid r j tag v)

/-- Members have left the view: reads that wait for one go to the stripe's owner (R197), and a gathering asks others. -/
def Dev.redirect (d : Dev) (lost : List Nat) (old : ClusterGeom → Nat → Nat) : Dev :=
  let d1 := d.gwl.gathers.foldl (fun (e : Dev) x =>
    match e.cns? x.nsid with
    | none => e
    | some (n, g) =>
      (x.asked.filter (fun j => lost.contains (e.holder x.stripe j))).foldl (fun (y : Dev) j =>
        match y.gwl.gathers.find? (fun z => z.tag == x.tag) with
        | some z => y.gatherTake n g z j none
        | none => y) e) d
  d1.gwl.reads.foldl (fun (e : Dev) x =>
    match e.cns? x.nsid with
    | none => e
    | some (_, g) =>
      let open_ := (x.parts.filter (fun p => p.data.isNone && !p.bad)).map (fun p => (p.stripe, p.chunk))
      let again (p : Nat × Nat) : Bool :=
        lost.contains (e.holder p.1 p.2) || (!e.inView (e.holder p.1 p.2) && lost.contains (old g p.1))
      (open_.eraseDups.filter again).foldl (fun (y : Dev) p => y.askOwner g x.nsid p.1 p.2 x.tag) e) d1

/-- Every region of the cluster namespaces (R202). -/
def Dev.allRegions (d : Dev) : List Nat :=
  d.md.nss.flatMap (fun n => match n.cluster with
    | none => []
    | some g => (List.range (ceilDiv (Dev.stripes n g) (64 * max 1 d.positions.length))).map (fun i => 2 ^ 40 * n.nsid + i))

/-- A member that comes back to a continuing side is resynchronised (R203): the dirty regions wait, or, where one of them is a new part or has
lost its device metadata, every region. How an owner learns that is not given (assumption 175). -/
def Dev.startResync (d : Dev) (added fresh : Nat) : Dev :=
  let back := added &&& d.configured
  if d.flag F.TOP_MODE_CFENCE ∨ (d.f F.GWL_SETS_REJSET) &&& back = back ∨ ¬d.quorum ∨ d.f F.GWL_VIEW_VIEW ≤ 1 then d
  else
    let d1 := d.setF F.GWL_SETS_REJSET ((d.f F.GWL_SETS_REJSET) ||| back)
    let todo := if back &&& fresh = 0 then d1.clu.dirty else d1.allRegions
    ({ d1 with gwl := { d1.gwl with resync := todo }
               clu := { d1.clu with cursor := d1.clu.cursor.map (fun (x : Nat × Nat × Nat) => (x.1, x.2.1, x.2.2 - (x.2.2 &&& back &&& fresh))) } }).raise 0x1CE noPlot []

/-- VIEW_CHANGE (R192): the reachable set has been unchanged for SETTLE. `fresh` are the members added that are new parts or have lost their
device metadata. What waited for a member that has left, or for a member to mirror to, goes on. -/
def viewChange (fresh : Nat) (d : Dev) : Dev :=
  let new := setMember (d.f F.GWL_SETS_REACH) d.self true
  let old := d.view
  if ¬d.flag F.GWL_ID_CLUSTER ∨ new = old then d
  else
    let heard := (d.gwl.heard.filter (fun h => bit new h.1)).map (fun h => h.2.view)
    let n := (heard.foldl max (d.f F.GWL_VIEW_VIEW)) + 1
    let d1 := ((d.setF F.GWL_SETS_VIEWSET new).setF F.GWL_VIEW_VIEW n).raise 0x1CB noPlot []
    let lost := (List.range 8).filter (fun i => bit old i && !bit new i)
    let back := (List.range 8).filter (fun i => bit new i && !bit old i)
    let d2 := lost.foldl (fun (e : Dev) i => e.raise 0x1C9 noPlot [i]) d1
    let d3 := (back.filter (fun i => i != d.self)).foldl (fun (e : Dev) i => e.raise 0x1CA noPlot [i]) d2
    let added := (back.map (fun i => if i = d.self then 0 else 2 ^ i)).sum
    (((d3.decideQuorum).startResync added fresh).redirect lost d.owner).grantAll

def execViewChange (fresh : Nat) := run (viewChange fresh)

/-! ### Shares (R195) -/

/-- The bytes of the map region that namespaces use, and those they leave free (R69). -/
def Dev.mapUsed (d : Dev) : Nat := (d.md.nss.map d.nsMap).sum
def Dev.mapFree (d : Dev) : Nat := d.mapRegion * 2 ^ 30 - d.mapUsed

/-- Show the map region and the space left. -/
def Dev.mapShow (d : Dev) : Dev :=
  (d.setF F.HIF_MAPCAP_REGION d.mapRegion).setF F.HIF_MAPCAP_FREE (min 65535 (d.mapFree / 2 ^ 24))

/-- A map record of this namespace. -/
def MapRec.ofNs (r : MapRec) (nsid : Nat) : Bool :=
  match r with
  | .mapTo n _ _ _ => n == nsid
  | _ => false

/-- The data of a namespace goes: its map entries and records, its write-cache records with their slots, its cluster
chunks. -/
def Dev.purgeNs (d : Dev) (nsid : Nat) : Dev :=
  let mine (k : Nat) : Bool := k / 2 ^ 40 == nsid
  let per := ((d.ns? nsid).map Ns.iuSlots).getD 1
  let gone := (d.mram.commits.filter (fun c => c.nsid == nsid && (c.kind == 1 || c.kind == 6))).flatMap (fun c =>
    (List.range (c.count * per)).map (fun i => c.firstSlot + i))
  let recs (l : List MapRec) : List MapRec := l.filter (fun r => !r.ofNs nsid)
  let batch (b : Batch) : Batch := { b with recs := recs b.recs }
  ({ d with
    md := { d.md with dir := d.md.dir.filter (fun x => !mine x.1) }
    mram := { d.mram with commits := d.mram.commits.filter (fun c => c.nsid != nsid), batches := d.mram.batches.map batch,
                          slots := d.mram.slots.filter (fun s => !gone.contains s.1) }
    ftl := { d.ftl with map := d.ftl.map.filter (fun x => !mine x.1), dirty := d.ftl.dirty.filter (fun x => !mine x),
                        pass := d.ftl.pass.filter (fun x => !mine x), packed := d.ftl.packed.filter (fun x => !mine x.1),
                        openRecs := recs d.ftl.openRecs, closed := d.ftl.closed.map batch,
                        recover := d.ftl.recover.filter (fun x => !mine x), copies := d.ftl.copies.filter (fun x => !mine x.1) }
    clu := { d.clu with chunks := d.clu.chunks.filter (fun x => x.1 / 16 / 2 ^ 40 != nsid),
                        marked := d.clu.marked.filter (fun x => x / 16 / 2 ^ 40 != nsid) } }).wcShow

/-- A namespace ceases to exist, with its data. -/
def Dev.deleteNs (d : Dev) (nsid : Nat) : Dev :=
  let e := d.purgeNs nsid
  ({ e with md := { e.md with nss := e.md.nss.filter (fun n => n.nsid != nsid) } }).mapShow

/-- CLUSTER_SHARE_RESERVE (R195): a member is asked to reserve its share of a new cluster namespace; with `create` every
member has accepted and the namespace comes to be, or, with `nsze` 0, is deleted. -/
def clusterShareReserve (src nsid nsze geom lbaf iu pi : Nat) (ext create : Bool) (d : Dev) : Dev :=
  match geomOf geom with
  | none => d
  | some g =>
    let n : Ns :=
    { nsid := nsid, nsze := nsze, ncap := nsze, lbaf := lbaf, iu := iu, pi := pi, ext := ext, comp := 0, attached := [],
      shared := true, epoch := 0, test := false, resv := Resv.init, cluster := some g }
    let reply (k : CKind) (e : Dev) : Dev :=
      e.sendTo { dst := src, kind := k, nsid := nsid, stripe := 0, tseq := 0, lead := src, vals := [] }
    if create then
      if nsze = 0 then (if 769 ≤ nsid then d.deleteNs nsid else d)
      else if d.gwl.reserved.contains (nsid, nsze, geom, lbaf, iu) then
        ({ d with gwl := { d.gwl with reserved := d.gwl.reserved.filter (fun x => x.1 != nsid) },
                  md := { d.md with nss := d.md.nss ++ [n] } }).mapShow
      else d
    else if (d.ns? nsid).isSome ∨ ¬(769 ≤ nsid ∧ nsid ≤ 1024) ∨ d.mapFree < d.nsMap n ∨ d.capFits n = false then reply .refused d
    else reply .reserved { d with gwl := { d.gwl with reserved := d.gwl.reserved ++ [(nsid, nsze, geom, lbaf, iu)] } }

def execClusterShareReserve (src nsid nsze geom lbaf iu pi : Nat) (ext create : Bool) :=
  run (clusterShareReserve src nsid nsze geom lbaf iu pi ext create)

/-! ### Restart and decisions (R201) -/

/-- Ask for the decision of a transaction. -/
def Dev.ask (d : Dev) (dst nsid r tseq lead : Nat) : Dev :=
  d.sendTo { dst := dst, kind := .query, nsid := nsid, stripe := r, tseq := tseq, lead := lead, vals := [] }

/-- Tell every member of an entry's stripe to commit or abort. -/
def Dev.tellEntry (d : Dev) (e : CEntry) (k : CKind) : Dev :=
  let g := (geomOf e.geom).getD { k := 4, m := 1 }
  let ms := ((List.range (g.k + g.m)).map (d.holder e.stripe)).eraseDups.filter (fun i => i != d.self && d.inView i)
  ms.foldl (fun (x : Dev) i => x.sendTo { dst := i, kind := k, nsid := e.nsid, stripe := e.stripe, tseq := e.tseq, lead := e.lead, vals := [] }) d

/-- The action on one entry found at a restart (R201). -/
def Dev.resolve (d : Dev) (e : CEntry) : Dev :=
  if e.state = 3 then (d.settle e.lead e.tseq true).tellEntry e .commit
  else if e.state = 2 then d.ask e.lead e.nsid e.stripe e.tseq e.lead
  else ((d.settle e.lead e.tseq false).tellEntry e .abort).freeEntry e.lead e.tseq

/-- A lost stripe is listed once, and this member's chunks in it are marked (R201). -/
def Dev.loseCStripe (d : Dev) (nsid r owner mir : Nat) : Dev :=
  match d.cns? nsid with
  | none => d
  | some (_, g) =>
    let mine := ((List.range (g.k + g.m)).filter (fun j => d.holder r j == d.self)).map (chunkKey nsid r)
    let c := d.clu
    let full := decide (112 ≤ c.lost.length)
    { d with clu := { c with
        marked := mine.foldl (fun m x => NSet.add x m) c.marked
        lost := ((nsid, r, d.time, owner, mir) :: c.lost).take 112
        lostCount := satAdd 32 c.lostCount 1
        overflow := if full then satAdd 32 c.overflow 1 else c.overflow } }

/-- Stripes whose owner and mirror holder are both outside a view with quorum (R201). -/
def Dev.loseStripes (d : Dev) (lost : List (Nat × Nat)) : Dev :=
  if lost.isEmpty ∨ ¬d.quorum then d
  else (lost.foldl (fun (e : Dev) x =>
    let o := match e.cns? x.1 with
      | some (_, g) => e.holder x.2 g.k
      | none => 0
    e.loseCStripe x.1 x.2 o (Nat.xor o 7)) d).raise 0x1D0 noPlot []

/-- CLUSTER_JOURNAL_RESOLVE (R201): a restarting member resolves its own journal; a mirror holder does so for the owner
`failed`. `lost` lists stripes whose owner and mirror holder are both gone. -/
def clusterJournalResolve (failed : Option Nat) (lost : List (Nat × Nat)) (d : Dev) : Dev :=
  let es := (match failed with
    | none => d.clu.own
    | some i => d.clu.mirror.filter (fun e => e.owner == i)).filter entryUsed
  let d1 := es.foldl (fun (e : Dev) x => e.resolve x) d
  let mine := (d1.clu.preps.map (fun p => (p.lead, p.tseq, p.nsid, p.stripe))).eraseDups
  let d2 := if failed.isNone then mine.foldl (fun (e : Dev) p =>
      match e.cns? p.2.2.1 with
      | none => e
      | some (_, g) =>
        let o := e.holder p.2.2.2 g.k
        let to_ := if e.inView o then o else Nat.xor o 7
        if to_ = e.self then e else e.ask to_ p.2.2.1 p.2.2.2 p.2.1 p.1) d1
    else d1
  d2.loseStripes lost

def execClusterJournalResolve (failed : Option Nat) (lost : List (Nat × Nat)) := run (clusterJournalResolve failed lost)

/-- DECISION_QUERY (R201): a member asks an owner, or its mirror holder, for the decision: COMMIT means commit and anything else abort. A
participant that does not know the decision asks the lead itself, and its answer waits for that; a lead that has not decided yet aborts, so that
its answer stays true (DESIGN CHOICE, assumption 176). -/
def decisionQuery (src lead tseq : Nat) (lost : List (Nat × Nat)) (d : Dev) : Dev :=
  let hit (e : CEntry) : Bool := entryUsed e && e.lead == lead && e.tseq == tseq
  let es := (d.clu.own ++ d.clu.mirror).filter hit
  let ans (k : CKind) (e : Dev) : Dev := e.sendTo { dst := src, kind := k, nsid := 0, stripe := 0, tseq := tseq, lead := lead, vals := [] }
  let d1 :=
    if es.any (fun e => e.state == 3) then ans .commit d
    else match es.find? (fun e => e.state == 2 && e.owner == d.self), d.tx? lead tseq with
      | some e, _ => d.ask lead e.nsid e.stripe tseq lead
      | none, some t => ans .abort (if lead = d.self then d.abortTx t .internalError else d)
      | none, none => ans .abort d
  d1.loseStripes lost

def execDecisionQuery (src lead tseq : Nat) (lost : List (Nat × Nat)) := run (decisionQuery src lead tseq lost)

/-! ### Rejoin (R203) -/

/-- The fenced condition of a rejoining member ends. -/
def Dev.fenceExit (d : Dev) : Dev :=
  let d1 := { d with gwl := { d.gwl with rejoining := false, finished := [] } }
  let d2 := (d1.setF F.GWL_SETS_REJSET (setMember (d1.f F.GWL_SETS_REJSET) d.self false)).setCond F.TOP_MODE_CFENCE false
  (d2.raise 0x1CD noPlot []).vendorAll 4

/-- RESYNC_STRIPE (R203): an owner resynchronises one stripe of a region to be done: it takes the stripe lock, reads the current data,
recomputes the parity, and writes every chunk that a rejoining member holds. At a rejoining member `recv` are the chunks it receives from
`owner`; with `last` that owner has finished. -/
def resyncStripe (owner nsid r : Nat) (recv : List (Nat × Nat)) (last : Bool) (d : Dev) : Dev :=
  if owner ≠ d.self then
    if ¬d.gwl.rejoining then d
    else
      let d1 := (recv.filter (fun c => d.holder r c.1 == d.self)).foldl (fun (e : Dev) c => (e.writeChunk nsid r c.1 c.2).getD e) d
      if ¬last then d1
      else
        let d2 := { d1 with gwl := { d1.gwl with finished := NSet.add owner d1.gwl.finished } }
        let need := (List.range 8).filter (fun i => d2.inView i && i != d.self && !bit (d2.f F.GWL_SETS_REJSET) i)
        if need.all (fun i => d2.gwl.finished.contains i) then d2.fenceExit else d2
  else
    match d.cns? nsid with
    | none => d
    | some (n, g) =>
      if ¬d.gwl.resync.contains (d.region nsid r) ∨ d.flag F.GWL_RESYNC_PAUSE ∨ d.owner g r ≠ d.self ∨ Dev.stripes n g ≤ r ∨
          d.gwl.txs.any (fun t => t.nsid == nsid && t.stripe == r) ∨
          d.gwl.gathers.any (fun x => x.nsid == nsid && x.stripe == r && x.why == .resync) then d
      else
        let no := (List.range (g.k + g.m)).filter (fun j => bit (d.f F.GWL_SETS_REJSET) (d.holder r j))
        match d.gather g nsid r no .resync with
        | (d1, some got) => d1.sendStripe n g nsid r got
        | (d1, none) => d1

def execResyncStripe (owner nsid r : Nat) (recv : List (Nat × Nat)) (last : Bool) := run (resyncStripe owner nsid r recv last)

/-! ### The anchor (R204) -/

/-- The nonce of the cluster status log. -/
def Dev.cluNonce (d : Dev) : Nat := Config.clusterNonce d.clu.tokens

/-- Is a token good? -/
def Dev.tokenGood (d : Dev) (t : AnchorTok) (own : Bool) : Bool :=
  match d.roster? with
  | none => false
  | some r => t.sigOk && t.zeros && t.cluster == r.clusterId && t.rhash == r.hash && (!own || t.nonce == d.cluNonce) &&
      t.epoch == d.aepoch + 1 && bit d.configured t.anchor

/-- Take an accepted token: the anchor and epoch are recorded and quorum is decided again. -/
def Dev.reseat (d : Dev) (t : AnchorTok) : Dev :=
  let d1 := { d with clu := { d.clu with anchor := some (t.anchor, t.epoch), tokens := d.clu.tokens + 1 } }
  ((d1.setF F.GWL_ID_ANCHOR t.anchor).decideQuorum).raise 0x1D1 noPlot [t.anchor]

/-- Pass a token to every member in the view. -/
def Dev.passToken (d : Dev) (t : AnchorTok) : Dev :=
  ((List.range 8).filter (fun i => d.inView i && i != d.self)).foldl (fun (e : Dev) i =>
    e.sendTo { dst := i, kind := .anchor, nsid := 0, stripe := 0, tseq := 0, lead := t.anchor, vals := [(0, t.epoch)] }) d

/-- ANCHOR_TOKEN (R204): a member receives a passed token and decides quorum again. -/
def anchorToken (t : AnchorTok) (d : Dev) : Dev := if d.tokenGood t false then d.reseat t else d

def execAnchorToken (t : AnchorTok) := run (anchorToken t)

end Sys2Proof.Machine
end

