-- ==== Sys2Proof/Machine/HostOps.lean ====
section
/-! DEFINITION. Operations that the host interface, the plots and the modes share (chapters 2 to 4): the memory
controllers' timing sets, the combined power state (R49 to R51), wake-up, the end of a
controller's commands (R73). -/

namespace Sys2Proof.Machine

/-! ### Timing sets (R363) -/

def Dev.mc (d : Dev) (q : Nat) : MemcSt := AMap.get MemcSt.init q d.memc

def Dev.setMc (d : Dev) (q : Nat) (x : MemcSt) : Dev := { d with memc := AMap.set MemcSt.init q x d.memc }

/-- A switch to the other timing set starts: at once, or when the switch or the in-field test under way has ended. -/
def Dev.fchgGo (d : Dev) (q : Nat) : Dev :=
  let d1 := d.setF (F.MEMC_FCHG_GO q) 1
  if d.flag (F.MEMC_STAT_FBUSY q) ∨ d.underTest q then d1.setMc q { d1.mc q with goWaits := true }
  else (d1.setF (F.MEMC_STAT_FBUSY q) 1).setF (F.MEMC_STAT_SREF q) 1

/-- The timing set a channel will have when what is under way and what waits has been done. -/
def Dev.setAhead (d : Dev) (q : Nat) : Nat :=
  (d.f (F.MEMC_STAT_SET q) + d.f (F.MEMC_STAT_FBUSY q) + Bool.nat (d.mc q).goWaits) % 2

/-- Bring every channel to the timing set that the power state and the throttle level ask for (R363, R446): set B in PS2
and in thermal throttling. -/
def Dev.retune (d : Dev) : Dev :=
  let want := Bool.nat (d.f F.PWR_PSTATE_PS == 2 || d.f F.PWR_THERM_LEVEL != 0)
  d.quads.foldl (fun (e : Dev) q =>
    if e.setAhead q = want ∨ ¬e.flag (F.MEMC_STAT_TRAINED q) then e
    else if (e.mc q).goWaits then (e.setMc q { e.mc q with goWaits := false }).setF (F.MEMC_FCHG_GO q) (e.f (F.MEMC_STAT_FBUSY q))
    else e.fchgGo q) d

/-! ### The combined power state (R49 to R51) -/

/-- Does the roster list two or more members (R50)? -/
def Dev.isMember (d : Dev) : Bool :=
  match d.roster? with
  | some r => decide (2 ≤ r.members.length)
  | none => false

/-- Do a plot's power requests count (R51)? PSALLOW takes effect at the plot's next Set Features 02h (R97). -/
def Dev.psAllowed (d : Dev) (p : Nat) : Bool := p == 0 || d.plot.psOk.contains p

/-- PSALLOW of a plot takes effect (R97). -/
def Dev.psLatch (d : Dev) (p : Nat) : Dev :=
  { d with plot := { d.plot with psOk := if d.flag (F.PLOT_CTL_PSALLOW p) then NSet.add p d.plot.psOk else NSet.del p d.plot.psOk } }

/-- The requests that count: those of enabled controllers of plot 0 and of enabled plots whose requests count (R51). -/
def Dev.psRequests (d : Dev) : List Nat :=
  (d.host.ctrls.filter (fun c => c.2.en && d.plotEn c.1 && d.psAllowed c.1)).map (fun c => c.2.feat.ps)

/-- The combined request; PS4 becomes PS3 on a cluster member (R50), and SAFE runs in an operational state. -/
def Dev.psWant (d : Dev) : Nat :=
  let w := (d.psRequests.min?).getD 0
  let w1 := if w = 4 ∧ d.isMember then 3 else w
  if d.f F.TOP_MODE_MODE = 1 then min w1 2 else w1

/-- Watts of a power state, rounded down. -/
def psWatts (n : Nat) : Nat := [60, 40, 25, 6, 1].getD n 60

/-- The part runs in another power state: PSTATE_CHANGE, the state to resume after PS3 and PS4, the DRAM timing set. -/
def Dev.setPs (d : Dev) (n : Nat) : Dev :=
  let old := d.f F.PWR_PSTATE_PS
  if old = n then d
  else
    let d1 := (d.setF F.PWR_PSTATE_PS n).setF F.PWR_PSTATE_MAXW (psWatts n)
    let d2 := if 3 ≤ n ∧ old < 3 then d1.setF F.PWR_PSTATE_LASTOP old else d1
    let d3 := d2.raise 0x006 noPlot []
    if n < 3 then d3.retune else d3

/-- A wake from PS3 or PS4 begins (R50): it ends after the exit latency. -/
def Dev.wake (d : Dev) : Dev :=
  if 3 ≤ d.f F.PWR_PSTATE_PS then { d with mode := { d.mode with wakePending := true } } else d

/-- The combined request may have changed (R51): an operational state is entered at once, PS3 and PS4 wait (R50), and a
request for an operational state wakes the part. -/
def Dev.powerCombine (d : Dev) : Dev :=
  let w := d.psWant
  if d.f F.TOP_MODE_MODE = 0 then d
  else if 3 ≤ w then
    if d.f F.PWR_PSTATE_PS = w then d.setF F.PWR_PSTATE_ENTERING 0 else d.setF F.PWR_PSTATE_ENTERING 1
  else
    let d1 := d.setF F.PWR_PSTATE_ENTERING 0
    if d1.f F.PWR_PSTATE_PS < 3 then d1.setPs w else (d1.setF F.PWR_PSTATE_LASTOP w).wake

/-- Note a result of the device self-test: kind 1 short, 2 extended; the result code and segment are those of NVMe 2.1
(0 no error, 1 aborted by a command, 7 a segment failed, 8 aborted for another reason, 9 aborted by a sanitize). -/
def Dev.selfTestResult (d : Dev) (kind result unit_ : Nat) : Dev :=
  { d with nv := { d.nv with selfLog := ((kind, result, unit_, d.nv.onMin / 60) :: d.nv.selfLog).take 20 } }

/-- Enter SAFE with its cause (TOP_MODE.SAFECAUSE). An extended self-test ends with what it has found (assumption 147); SAFE runs in an
operational power state and waits for no other (R50). -/
def Dev.enterSafe (d : Dev) (cause : Nat) : Dev :=
  let d1 := match d.mode.selfTest with
    | none => d
    | some t =>
      let r := match t.failed with
        | some seg => d.selfTestResult 2 7 seg
        | none => d.selfTestResult 2 8 0
      { r with mode := { r.mode with selfTest := none } }
  (((d1.setF F.TOP_MODE_CXST 0).setF F.TOP_MODE_SAFECAUSE cause).setMode 1).powerCombine

/-- A doorbell write or an admin command reaches the part: it wakes, and a combined state that waits is put off. -/
def Dev.hostActivity (d : Dev) : Dev := { d.wake with mode := { d.wake.mode with wakeAt := d.now } }

/-! ### The end of commands (R73, R105, R106) -/

/-- The identities of the commands that the operations of the media path and of the cluster serve, one for each operation. -/
def Dev.opIds (d : Dev) : List CmdId :=
  d.media.dies.flatMap (fun x => (x.2.queue ++ x.2.busy.toList ++ x.2.suspended.toList ++ x.2.ended.toList).filterMap (fun o => o.cmd)) ++
  d.media.reading.filterMap (fun r => r.cmd) ++ d.gwl.reads.map (fun r => r.id) ++ d.gwl.writes.map (fun w => w.id)

/-- The operations of earlier generations of a plot that are still outstanding, by generation (R92, R106, R108). -/
def Dev.staleOps (d : Dev) (p : Nat) : List Nat :=
  (d.opIds.filter (fun i => i.plot == p && decide (65536 ≤ i.cid) && deadGen i != d.plotGen p)).map deadGen

/-- The in-flight count of a plot (R92): its I/O commands fetched and not completed, and the operations of earlier generations. -/
def Dev.inflightOf (d : Dev) (p : Nat) : Nat :=
  (d.host.latches.filter (fun l => l.id.plot == p && l.io)).length + (d.staleOps p).length

/-- The operations of a command that has ended are tracked by their channels alone (R106): no identity names the command. -/
def Dev.forgetOps (d : Dev) (id : CmdId) : Dev :=
  let op (o : DieOp) : DieOp := if o.cmd = some id then { o with cmd := none } else o
  let die (x : Nat × DieSt) : Nat × DieSt :=
    (x.1, { x.2 with queue := x.2.queue.filter (fun o => o.cmd != some id), busy := x.2.busy.map op, suspended := x.2.suspended.map op,
                     ended := x.2.ended.map op })
  { d with
    ftl := { d.ftl with reads := d.ftl.reads.filter (fun r => !(r.id == id)) }
    gwl := { d.gwl with reads := d.gwl.reads.filter (fun r => !(r.id == id)), writes := d.gwl.writes.filter (fun w => !(w.id == id)) }
    media := { d.media with dies := d.media.dies.map die, reading := d.media.reading.filter (fun r => r.cmd != some id) } }

/-- The operations of commands that have ended keep another identity, so that their results are late (R14). Writes that
wait for slots go (R71). -/
def Dev.orphan (d : Dev) (p : CmdId → Bool) : Dev :=
  let g (id : CmdId) : CmdId := if p id then deadId (d.plotGen id.plot) id else id
  let op (o : DieOp) : DieOp := { o with cmd := o.cmd.map g }
  let die (x : Nat × DieSt) : Nat × DieSt :=
    (x.1, { x.2 with queue := x.2.queue.map op, busy := x.2.busy.map op, suspended := x.2.suspended.map op, ended := x.2.ended.map op })
  { d with
    ftl := { d.ftl with
      reads := d.ftl.reads.map (fun r => { r with id := g r.id })
      held := d.ftl.held.filter (fun w => !p w.id) }
    trel := { d.trel with cmds := d.trel.cmds.map (fun c => { c with id := g c.id }) }
    core := { d.core with insts := d.core.insts.map (fun x => { x with id := g x.id }) }
    gwl := { d.gwl with
      reads := d.gwl.reads.map (fun r => { r with id := g r.id })
      writes := d.gwl.writes.map (fun w => { w with id := g w.id }) }
    media := { d.media with
      dies := d.media.dies.map die
      reading := d.media.reading.map (fun r => { r with cmd := r.cmd.map g }) } }

/-- End commands without a completion (a controller or plot reset): their latches go and they are counted. -/
def Dev.endCommands (d : Dev) (p : CmdId → Bool) : Dev :=
  let hit := d.host.latches.filter (fun l => p l.id)
  let d1 := { d with host := { d.host with latches := d.host.latches.filter (fun l => !p l.id) } }
  (hit.foldl (fun (e : Dev) l => e.bumpStat l.id.plot 5 1) d1).orphan p

/-- Advance the generation of every queue of a plot's controller. -/
def Dev.nextQGens (d : Dev) (p : Nat) : Dev :=
  ((d.ctrl p).sqs.map (fun x => x.qid)).foldl (fun (e : Dev) q => e.nextQGen p q) (d.nextQGen p 0)

/-- The features of a controller after a controller reset: the defaults, with the values that were saved (R79). The
timestamp goes on. -/
def Dev.resetFeatures (d : Dev) (p : Nat) : Features :=
  let f := (AMap.get Features.default p d.nv.saved)
  { f with tsBase := (d.ctrl p).feat.tsBase, tsAt := (d.ctrl p).feat.tsAt }

/-- Is the function that carries a plot there (R59, R89): a physical function, or a virtual function that VF Enable and NumVFs
cover? -/
def Dev.fnThere (d : Dev) (p : Nat) : Bool :=
  let dual := d.flag F.HIF_PORTCFG_DUAL
  if p = 0 then true
  else if dual && decide (256 ≤ p) then decide (p - 256 ≤ min 255 (AMap.get 0 1 d.host.numVfs))
  else decide (p ≤ min (if dual then 255 else 511) (AMap.get 0 0 d.host.numVfs))

/-- The PCI Express state of the functions that `q` names returns to its reset values: configuration registers, MSI-X tables and
pending messages. -/
def Dev.clearFns (d : Dev) (q : Nat → Bool) : Dev :=
  { d with host := { d.host with
      cfg := d.host.cfg.filter (fun x => !q (x.1 / 1024))
      msixTab := d.host.msixTab.filter (fun x => !q (x.1 / 16384))
      msixPend := d.host.msixPend.filter (fun v => !q (v / 4096)) } }

/-- The state of a controller after a controller reset: disabled, no queues, its features as above; the error log stays
(assumption 46). -/
def Dev.clearCtrl (d : Dev) (p : Nat) : Dev :=
  let c := d.ctrl p
  let d1 := d.setCtrl p { Ctrl.init with
    feat := d.resetFeatures p, errLog := c.errLog, offline := c.offline, aqaS := c.aqaS, aqaC := c.aqaC, asq := c.asq, acq := c.acq }
  let d2 := { d1.setF (F.PLOT_USE_QUSED p) 0 with boot := { d1.boot with msgs := d1.boot.msgs.filter (fun m => m.plot != p) } }
  if p = 0 then d2.dropSplits 0 else d2

/-- Reset the controller of a plot (R73). -/
def Dev.ctrlReset (d : Dev) (p : Nat) : Dev :=
  let d1 := ((d.endCommands (fun id => id.plot == p)).nextQGens p).clearCtrl p
  ((d1.setF (F.PLOT_STAT_CQSTALL p) 0).raise 0x1E7 p []).powerCombine

end Sys2Proof.Machine
end

