-- ==== Sys2Proof/Machine/Pail.lean ====
section
/-! DEFINITION. The Pail, the buffer pool manager (R374 to R380). -/

namespace Sys2Proof.Machine

/-- The null handle (R375). -/
def nullHandle : Nat := 0xFFFFFFFF

/-- The pool and the index of a handle (R375). -/
def hPool (h : Nat) : Nat := bits h 28 4
def hIndex (h : Nat) : Nat := bits h 0 28

/-- The 16-bit tag of a handle (R375): zero for one that is FREE. -/
def Dev.pailTag (d : Dev) (h : Nat) : Nat := AMap.get 0 h d.pail.tags
def tagOwner (t : Nat) : Nat := bits t 0 10
def tagState (t : Nat) : Nat := bits t 10 2

def Dev.setPailTag (d : Dev) (h t : Nat) : Dev := { d with pail := { d.pail with tags := AMap.set 0 h t d.pail.tags } }

/-- The handles a pool's on-chip cache holds (R376). -/
def Dev.pailCache (d : Dev) (n : Nat) : Nat := AMap.get 0 n d.pail.cache

def Dev.setPailCache (d : Dev) (n v : Nat) : Dev := { d with pail := { d.pail with cache := AMap.set 0 n v d.pail.cache } }

/-- A pool's free count. -/
def Dev.pailFreeCount (d : Dev) (n : Nat) : Nat := d.f (F.PAIL_POOLSTAT_FREE n)

/-- Is a pool with `free` free handles empty for a request of this class (R377)? -/
def Dev.pailEmpty (d : Dev) (n free : Nat) (response : Bool) : Bool :=
  decide (free ≤ if response then 0 else d.f (F.PAIL_POOLFLOOR_FLOOR n))

/-- Set a pool's free count and show EMPTY. -/
def Dev.setPailFree (d : Dev) (n v : Nat) : Dev :=
  (d.setF (F.PAIL_POOLSTAT_FREE n) v).setF (F.PAIL_POOLSTAT_EMPTY n) (Bool.nat (d.pailEmpty n v false))

def Dev.pailCount (d : Dev) (k : Nat) : Dev := d.bump (F.PAIL_CNT_COUNT k) (0x18 + k) 0 1

/-- The first index from `i` up, wrapping at `count`, whose handle is free; `n` bounds the search. -/
def Dev.pailSearch (d : Dev) (pool count : Nat) : Nat → Nat → Nat
  | 0, i => i
  | n + 1, i =>
    if d.pailTag (pool * 2 ^ 28 + i) = 0 then i
    else Dev.pailSearch d pool count n ((i + 1) % max 1 count)

/-- A free handle of a pool: which one is unspecified (R376), a free value among the pool's free handles. -/
def Dev.pailPick (d : Dev) (pool : Nat) : Nat × Dev :=
  let count := d.f (F.PAIL_POOLCNT_COUNT pool)
  let r := d.draw
  (pool * 2 ^ 28 + d.pailSearch pool count (d.pail.tags.length + 1) (Config.pailPick r.1 % max 1 count), r.2)

/-- The request that a pool grants among the candidates: urgent ports first (R24), then by rotating priority (R377). -/
def Dev.pailWinner (d : Dev) (pool : Nat) (cands : List PReq) : Option PReq :=
  let ports := cands.map (fun r => r.port)
  let nxt := AMap.get 0 pool d.pail.next
  let rot := match (ports.filter (fun p => decide (nxt ≤ p))).min? with
    | some p => some p
    | none => ports.min?
  match rot with
  | none => none
  | some p =>
    let g := Arb.pick (AMap.get ⟨[], []⟩ pool d.pail.arbs) ports p
    cands.find? (fun r => r.port == g)

/-- The plot that an owner ID stands for in the journal. -/
def ownerPlot (o : Nat) : Nat := if o < 512 then o else noPlot

/-- One pool in one cycle: at most one grant, then the others stay, move to the fallback pool, or end with the null
handle (R377, R378). -/
def Dev.pailPool (here : List PReq) (d : Dev) (pool : Nat) : Dev :=
  let reqs := here.filter (fun r => r.pool == pool)
  let free := d.pailFreeCount pool
  let cands := if d.pailCache pool = 0 then [] else reqs.filter (fun r => !d.pailEmpty pool free r.response)
  let win := d.pailWinner pool cands
  let d1 := match win with
    | none => d
    | some r =>
      let h := d.pailPick pool
      let a := (AMap.get ⟨[], []⟩ pool d.pail.arbs).round (cands.map (fun x => x.port)) r.port
      let e := (((h.2.setPailTag h.1 (1024 + r.owner % 1024)).setPailFree pool (free - 1)).setPailCache pool
        (d.pailCache pool - 1)).pailCount 0
      let e1 := if r.first = pool then e else e.pailCount 1
      let e2 := if r.response ∧ free ≤ d.f (F.PAIL_POOLFLOOR_FLOOR pool) then e1.pailCount 3 else e1
      { e2 with pail := { e2.pail with
          replies := e2.pail.replies ++ [(r.port, h.1)]
          next := AMap.set 0 pool (r.port + 1) e2.pail.next
          arbs := AMap.put pool a e2.pail.arbs } }
  let rest := match win with
    | none => reqs
    | some r => reqs.filter (fun x => x.port != r.port)
  rest.foldl (fun (e : Dev) r =>
    if e.pailEmpty pool (e.pailFreeCount pool) r.response = false then
      { e with pail := { e.pail with waiting := e.pail.waiting ++ [r] } }
    else if e.flag (F.PAIL_POOLCFG_FBEN pool) then
      { e with pail := { e.pail with
          waiting := e.pail.waiting ++ [{ r with pool := e.f (F.PAIL_POOLCFG_FALLBACK pool) }] } }
    else
      let e1 := (e.pailCount 2).raise 0x020 (ownerPlot r.owner) [r.first, r.owner]
      { e1 with pail := { e1.pail with replies := e1.pail.replies ++ [(r.port, nullHandle)] } }) d1

/-- PAIL_ALLOC (R377, R378): one cycle of the Pail, with the requests that arrive in it as (port, pool, owner, response). -/
def pailAlloc (arrivals : List (Nat × Nat × Nat × Bool)) (d : Dev) : Dev :=
  let new : List PReq := arrivals.map (fun a => ⟨a.1, a.2.1, a.2.1, a.2.2.1, a.2.2.2⟩)
  let here := d.pail.waiting ++ new
  (List.range 16).foldl (Dev.pailPool here) { d with pail := { d.pail with waiting := [] } }

def execPailAlloc (arrivals : List (Nat × Nat × Nat × Bool)) := run (pailAlloc arrivals)

/-- The DRAM channels over which the pools were laid out: those in service at BOOT. -/
def Dev.bootQuads (d : Dev) : List Nat := (List.range 4).filter (fun q => d.f (F.MEMC_STAT_CAPGIB q) != 0)

/-- Does a buffer lie partly in a DRAM channel that is out of service (R379; the 4 KiB interleave of R358)? -/
def Dev.pailLost (d : Dev) (h : Nat) : Bool :=
  let pool := hPool h
  let qs := d.bootQuads
  let size := 2 ^ d.f (F.PAIL_POOLCFG_SIZE pool)
  let at_ := d.f (F.PAIL_POOLBASE_BASE pool) + hIndex h * size
  let first := at_ / 4096
  let last := (at_ + size - 1) / 4096
  d.f (F.PAIL_POOLCFG_LOC pool) == 0 &&
    (List.range (last - first + 1)).any (fun i => match qs[(first + i) % max 1 qs.length]? with
      | some q => !d.quadOk q
      | none => false)

/-- Refuse a free (R379): PAIL_ERR, PAIL_ERRH, the event of the cause. -/
def Dev.pailRefuse (d : Dev) (h owner cause : Nat) : Dev :=
  let d1 := ((d.setF F.PAIL_ERR_OWNER owner).setF F.PAIL_ERR_CAUSE cause).setF F.PAIL_ERR_VALID 1
  let ev := if cause = 1 then 0x023 else if cause = 2 then 0x021 else 0x022
  ((d1.setF F.PAIL_ERRH_HANDLE h).pailCount 6).raise ev (ownerPlot owner) [h, owner]

/-- Free a handle (R379), by a requester with or without the manager privilege. -/
def Dev.pailFree (d : Dev) (h owner : Nat) (mgr : Bool) : Dev :=
  let pool := hPool h
  let t := d.pailTag h
  if ¬d.flag (F.PAIL_POOLCFG_EN pool) ∨ d.f (F.PAIL_POOLCNT_COUNT pool) ≤ hIndex h then d.pailRefuse h owner 1
  else if tagState t ≠ 1 then d.pailRefuse h owner 2
  else if tagOwner t ≠ owner ∧ ¬mgr then d.pailRefuse h owner 3
  else
    let d1 := d.pailCount 4
    let d2 := if tagOwner t ≠ owner then d1.pailCount 5 else d1
    if d.pailLost h then (d2.setPailTag h (3 * 1024 + tagOwner t)).pailCount 7
    else ((d2.setPailTag h 0).setPailFree pool (d2.pailFreeCount pool + 1)).setPailCache pool
      (min 128 (d2.pailCache pool + 1))

/-- PAIL_FREE (R379): `steward` says that steward-privilege code frees. -/
def pailFree (h owner : Nat) (steward : Bool) (d : Dev) : Dev :=
  d.pailFree h owner (steward || owner == 0 || owner == 0x3FF)

def execPailFree (h owner : Nat) (steward : Bool) := run (pailFree h owner steward)

/-- PAIL_CACHE_REFILL (R376): a pool's cache is filled from its ring, or spilled to it, up or down to MID. -/
def pailCacheRefill (n : Nat) (d : Dev) : Dev :=
  let c := d.pailCache n
  let mid := d.f (F.PAIL_POOLWM_MID n)
  if c < d.f (F.PAIL_POOLWM_LOW n) then d.setPailCache n (max c (min mid (d.pailFreeCount n)))
  else if d.f (F.PAIL_POOLWM_HIGH n) < c then d.setPailCache n mid
  else d

def execPailCacheRefill (n : Nat) := run (pailCacheRefill n)

/-- The handles of an owner that are allocated and not held by an outstanding operation are freed, as if by the manager
(R105 step 3, R380). -/
def Dev.pailRelease (d : Dev) (owner : Nat) (held : List Nat) : Dev :=
  ((d.pail.tags.filter (fun t => tagOwner t.2 == owner && tagState t.2 == 1)).map Prod.fst).foldl
    (fun (e : Dev) h => if held.contains h then e else e.pailFree h owner true) d

end Sys2Proof.Machine
end

