-- ==== Sys2Proof/Machine/Plots.lean ====
section
/-! DEFINITION. The plots (chapter 4): shares and their totals, the mailboxes, plot reset and removal. -/

namespace Sys2Proof.Machine

/-! ### Totals (R87, R95) -/

/-- The SLM units a plot counts for: the larger of the size asked for and the size in force (R97). -/
def Dev.slmUnits (d : Dev) (p : Nat) : Nat := max (d.f (F.PLOT_SLM_SIZE p)) (d.f (F.PLOT_SLM_EFFECT p))

def Dev.sumQ (d : Dev) : Nat := (d.plots.map (fun p => d.f (F.PLOT_QV_QMAX p))).sum
def Dev.sumV (d : Dev) : Nat := (d.plots.map (fun p => d.f (F.PLOT_QV_VMAX p))).sum
def Dev.sumO (d : Dev) : Nat := (d.plots.map (fun p => d.f (F.PLOT_FETCH_OSHARE p))).sum
def Dev.sumSlm (d : Dev) : Nat := (d.plots.map d.slmUnits).sum

/-- The SLM pool in units of 16 MiB (R95). -/
def Dev.slmPool (d : Dev) : Nat := (d.dramGib - d.mapRegion - 4) * 64

/-- Show the totals of the enabled plots. -/
def Dev.plotSums (d : Dev) : Dev :=
  ((((d.setF F.PLOT_SUMQV_QSUM d.sumQ).setF F.PLOT_SUMQV_VSUM d.sumV).setF F.PLOT_SUMIO_OSUM d.sumO).setF
    F.PLOT_SLMPOOL_POOL d.slmPool).setF F.PLOT_SLMPOOL_SUM d.sumSlm

/-- Record a refused write (R90). -/
def Dev.plotRefuse (d : Dev) (n off cause : Nat) : Dev :=
  ((((d.setF F.PLOT_ERR_PLOT n).setF F.PLOT_ERR_REG off).setF F.PLOT_ERR_CAUSE cause).setF F.PLOT_ERR_VALID 1).raise 0x1F7 n []

/-! ### Enabling (R89) -/

def Dev.mbx (d : Dev) (n : Nat) : Mbx := AMap.get Mbx.init n d.plot.mbx

def Dev.setMbx (d : Dev) (n : Nat) (m : Mbx) : Dev := { d with plot := { d.plot with mbx := AMap.set Mbx.init n m d.plot.mbx } }

/-- Is a total of the enabled plots carried over the device's limit, from `old` to `d` (R87, R90)? A write that raises no total is not
refused for one that a retirement has left too large. -/
def Dev.totalsRise (old d : Dev) : Bool :=
  let over_ (a b n : Nat) : Bool := decide (n < b) && decide (a < b)
  over_ old.sumQ d.sumQ 8192 || over_ old.sumV d.sumV 32768 || over_ old.sumO d.sumO 65536 || over_ old.sumSlm d.sumSlm d.slmPool

/-- Is the plot's removal in progress or asked for? R89 names STATE = REMOVING alone; that an enable is refused from the write that
asks for the removal on, while STATE still reads ACTIVE, is the model's choice (DESIGN CHOICE, assumption 142). -/
def Dev.removing (d : Dev) (n : Nat) : Bool :=
  d.f (F.PLOT_STAT_STATE n) == 3 || (n != 0 && !d.plotEn n && d.f (F.PLOT_STAT_STATE n) == 1)

/-- PLOT_ENABLE (R89): a write that sets EN of plot `n`. The mailbox starts empty (R102), and a controller with CC.EN = 1 becomes
ready (R37). -/
def plotEnable (n : Nat) (d : Dev) : Dev :=
  if n = 0 ∨ 512 ≤ n ∨ d.plotEn n then d
  else if d.f F.PLOT_SUMIO_MAXPLOTS ≤ n then d.plotRefuse n 0 4
  else if d.removing n then d.plotRefuse n 0 6
  else
    let d1 := d.setF (F.PLOT_CTL_EN n) 1
    if d.totalsRise d1 then d.plotRefuse n 0 5
    else
      let d2 := if d1.f (F.PLOT_STAT_STATE n) = 0 then d1.setF (F.PLOT_STAT_STATE n) 1 else d1
      (((d2.setMbx n Mbx.init).plotSums).readyAll).powerCombine

def execPlotEnable (n : Nat) := run (plotEnable n)

/-! ### Reset and removal (R104 to R109) -/

/-- Would the next generation meet an operation that is still outstanding (R108)? -/
def Dev.genHeld (d : Dev) (n : Nat) : Bool :=
  (d.staleOps n).contains ((d.plotGen n + 1) % 256)

/-- A reset point is asked for: it is held while the next generation is in use, and the plot fetches nothing (R108). -/
def Dev.askReset (d : Dev) (n : Nat) : Dev := d.setF (F.PLOT_STAT_RSTPEND n) (Bool.nat (d.genHeld n))

/-- PLOT_RST (R104): a write of 1 to RST. -/
def plotRst (n : Nat) (d : Dev) : Dev :=
  if n = 0 ∨ 512 ≤ n ∨ ¬d.plotEn n ∨ d.flag (F.PLOT_CTL_RST n) then d
  else (d.setF (F.PLOT_CTL_RST n) 1).askReset n

def execPlotRst (n : Nat) := run (plotRst n)

/-- PLOT_DISABLE (R89, R109): a write of 0 to EN starts the removal; a plot reset that runs becomes the removal. CSTS.RDY of a plot
with EN = 0 is 0, and its power request no longer counts (R51). -/
def plotDisable (n : Nat) (d : Dev) : Dev :=
  if n = 0 ∨ 512 ≤ n ∨ ¬d.plotEn n then d
  else
    let d0 := (d.setF (F.PLOT_CTL_EN n) 0).plotSums
    let d1 := (d0.setCtrl n { d0.ctrl n with rdy := false }).powerCombine
    if d1.f (F.PLOT_STAT_STATE n) = 2 then d1.setF (F.PLOT_STAT_STATE n) 3 else d1.askReset n

def execPlotDisable (n : Nat) := run (plotDisable n)

/-- The plots of physical function `pf` whose virtual functions have numbers above `n` (R59). -/
def Dev.vanished (d : Dev) (pf n : Nat) : List Nat :=
  let top := if d.flag F.HIF_PORTCFG_DUAL then 255 else 511
  let base := if pf = 0 then 0 else 256
  (List.range (top - n)).map (fun i => base + n + 1 + i)

/-- Set how many virtual functions of a physical function exist; the plots of those that vanish are removed (R89). -/
def Dev.setVfs (d : Dev) (pf n : Nat) : Dev :=
  let gone := d.vanished pf n
  gone.foldl (fun (e : Dev) p => plotDisable p e)
    (Dev.clearFns { d with host := { d.host with numVfs := AMap.set 0 pf n d.host.numVfs } } gone.contains)

/-- VF_ENABLE_CLEAR (R89): VF Enable of physical function `pf` is cleared (`n` = 0) or NumVFs becomes `n`. -/
def vfEnableClear (pf n : Nat) (d : Dev) : Dev :=
  if pf = 0 ∨ (pf = 1 ∧ d.flag F.HIF_PORTCFG_DUAL) then d.setVfs pf n else d

def execVfEnableClear (pf n : Nat) := run (vfEnableClear pf n)

/-- Every engine job of a plot ends with JS_GEN_STALE, the posted ones too (R220). -/
def Dev.endPlotJobs (d : Dev) (n : Nat) : Dev :=
  (List.range 4).foldl (fun (e : Dev) q => e.endJobs q .genStale (fun x => x.plot == n)) d

/-- The class B tables of a plot are cleared (R276). -/
def Dev.clearPlotTables (d : Dev) (n : Nat) : Dev :=
  (List.range 4).foldl (fun (e : Dev) q =>
    ((List.range 256).filter (fun t => e.f (F.SIEVE_TBL_PLOT q t) == n && e.f (F.SIEVE_TBL_CLASS q t) == 1 &&
      e.tblSize q t != 0)).foldl
      (fun (x : Dev) t => (x.setCam q (camCleared (x.sieve q).cam (x.tblBase q t) (x.tblSize q t)).cam).tblShow q t) e) d

/-- The completions that a full queue holds back are dropped: no entry is written after the reset point (R105). -/
def Dev.dropCqes (d : Dev) (n : Nat) : Dev :=
  let c := d.ctrl n
  d.setCtrl n { c with cqs := c.cqs.map (fun q => { q with held := [] }) }

/-- What the reset point stops (R105 steps 1 to 3): `held` are the Pail handles that an outstanding operation still holds. -/
def Dev.resetPoint (d : Dev) (n : Nat) (held : List Nat) : Dev :=
  let d1 := ((d.endCommands (fun id => id.plot == n)).nextQGens n).dropCqes n
  let d2 := ((d1.setF (F.PLOT_CTL_GEN n) ((d1.plotGen n + 1) % 256)).setF (F.PLOT_STAT_STATE n)
    (if d.removing n then 3 else 2)).setF (F.PLOT_STAT_RSTPEND n) 0
  let d3 := d2.raise 0x1F4 n []
  let d4 := (List.range 4).foldl (fun (e : Dev) q => (List.range 64).foldl (fun (x : Dev) r =>
    if 16 ≤ r ∧ x.f (F.TREL_RCTL_PLOT q r) = n ∧ x.flag (F.TREL_RCTL_EN q r) then x.setF (F.TREL_RCTL_STALE q r) 1 else x) e) d3
  let d5 := ((d4.core.insts.filter (fun x => x.plot == n)).map (fun x => x.tag)).foldl (fun (e : Dev) t =>
    e.endProg t { js := .genStale, cause := 0, bits := 0, core := 0, val := 0, pc := 0, fl := 0 }) d4
  let d6 := d5.endPlotJobs n
  let d7 := (d6.trel.images.filter (fun m => m.plot == n && m.active)).foldl (fun (e : Dev) m => e.imgDeactivate m) d6
  let d8 := (List.range 4).foldl (fun (e : Dev) q => (List.range 16).foldl (fun (x : Dev) s =>
    if x.sesState q s = 1 ∧ x.f (F.DGST_SSTAT_PLOT q s) = n then x.sesError q s 5 else x) e) (d7.clearPlotTables n)
  d8.pailRelease n held

/-- PLOT_RESET_POINT (R105, R108): the reset point of a plot reset or removal that has been asked for. A Function Level Reset asks for
one of a plot with EN = 0 too (R104). -/
def plotResetPoint (n : Nat) (held : List Nat) (d : Dev) : Dev :=
  if d.f (F.PLOT_STAT_STATE n) < 2 ∧ (d.flag (F.PLOT_CTL_RST n) ∨ d.removing n) ∧ d.genHeld n = false ∧ n < 512 then
    d.resetPoint n held
  else d

def execPlotResetPoint (n : Nat) (held : List Nat) := run (plotResetPoint n held)

/-- The plot's SLM is filled with zeros and a pending shrink takes effect (R105 step 4). -/
def Dev.slmFill (d : Dev) (n : Nat) : Dev :=
  let d1 := d.setSlm n Mem.init
  let d2 := if d1.f (F.PLOT_SLM_SIZE n) < d1.f (F.PLOT_SLM_EFFECT n) then
      d1.setF (F.PLOT_SLM_EFFECT n) (d1.f (F.PLOT_SLM_SIZE n))
    else d1
  (d2.setF (F.PLOT_STAT_SLMPEND n) 0).plotSums

/-- The end of a removal (R109, R276, R279, R281): attachments, tables, keys, ERA, the mailbox, ABSENT, PLOT_REMOVED. -/
def Dev.plotRemoved (d : Dev) (n : Nat) : Dev :=
  let d1 := { d with
    md := { d.md with nss := d.md.nss.map (fun x => { x with attached := NSet.del n x.attached }) }
    eras := AMap.set 0 n (d.era n + 1) d.eras }
  let d2 := (List.range 4).foldl (fun (e : Dev) q => (List.range 256).foldl (fun (x : Dev) t =>
    if x.tblEn q t && x.f (F.SIEVE_TBL_PLOT q t) == n then x.setF (F.SIEVE_TBL_EN q t) 0 else x) e) d1
  let d3 := d2.clearKeys (fun k => k.label.plot == n)
  ((d3.setMbx n Mbx.init).setF (F.PLOT_STAT_STATE n) 0).raise 0x1F6 n []

/-- PLOT_SLM_FILL_DONE (R105 steps 4 and 5): the fill ends, the controller's state is cleared, and the plot is active
again or removed. -/
def plotSlmFillDone (n : Nat) (d : Dev) : Dev :=
  if n < 512 ∧ 2 ≤ d.f (F.PLOT_STAT_STATE n) then
    let d1 := (((d.slmFill n).clearCtrl n).raise 0x1E7 n []).powerCombine
    let d2 := (d1.setF (F.PLOT_CTL_RST n) 0).setF (F.PLOT_STAT_CQSTALL n) 0
    if d.f (F.PLOT_STAT_STATE n) = 2 then
      ((d2.setF (F.PLOT_STAT_STATE n) (Bool.nat (d2.plotEn n))).raise 0x1F5 n [])
    else (d2.raise 0x1F5 n []).plotRemoved n
  else d

def execPlotSlmFillDone (n : Nat) := run (plotSlmFillDone n)

/-! ### Shares (R97) -/

/-- A write of one field of a plot's share, taken when `ok` holds of its range and of the totals that follow. -/
def Dev.tryShare (d : Dev) (n off : Nat) (inRange : Bool) (e : Dev) : Dev :=
  if ¬inRange then d.plotRefuse n off 2
  else if d.totalsRise e then d.plotRefuse n off 1
  else e.plotSums

/-- The most vectors of a plot (R87). -/
def vecMax (n : Nat) : Nat := if n = 0 ∨ n = 256 then 4096 else 64

/-- A write of PLOT_SLM.SIZE: larger, the added space is filled first; smaller, at the next reset or removal, or at once
while no plot can reach it (R97). -/
def Dev.slmSize (d : Dev) (n v : Nat) : Dev :=
  let eff := d.f (F.PLOT_SLM_EFFECT n)
  let d1 := d.setF (F.PLOT_SLM_SIZE n) v
  if eff < v then
    { d1.setF (F.PLOT_STAT_SLMPEND n) 0 with plot := { d1.plot with grow := AMap.put n v d1.plot.grow } }
  else
    let d2 := { d1 with plot := { d1.plot with grow := AMap.del n d1.plot.grow } }
    if d2.f (F.PLOT_STAT_STATE n) = 0 then (d2.setF (F.PLOT_SLM_EFFECT n) v).setF (F.PLOT_STAT_SLMPEND n) 0
    else d2.setF (F.PLOT_STAT_SLMPEND n) (Bool.nat (decide (v < eff)))

/-- PLOT_SHARE_WRITE (R90, R97): a write of `v` to the share register at entry offset `off` of plot `n`; at offset 0 to
PSALLOW alone. -/
def plotShareWrite (n off v : Nat) (d : Dev) : Dev :=
  let b := bits v
  if 512 ≤ n then d
  else if off = 0x00 then d.setF (F.PLOT_CTL_PSALLOW n) (b 2 1)
  else if off = 0x08 then
    if b 12 13 ≠ d.f (F.PLOT_QV_VMAX n) ∧ d.plotEn n = true then d.plotRefuse n off 3
    else d.tryShare n off
      (decide (b 0 9 ≤ 256) && decide (1 ≤ b 12 13) && decide (b 12 13 ≤ vecMax n))
      ((d.setF (F.PLOT_QV_QMAX n) (b 0 9)).setF (F.PLOT_QV_VMAX n) (b 12 13))
  else if off = 0x0C then
    d.tryShare n off (decide (1 ≤ b 0 8) && decide (b 8 17 ≤ 65536) && (n != 0 || decide (64 ≤ b 8 17)))
      ((d.setF (F.PLOT_FETCH_WEIGHT n) (b 0 8)).setF (F.PLOT_FETCH_OSHARE n) (b 8 17))
  else if off = 0x10 then d.tryShare n off true (d.slmSize n (b 0 16))
  else if off = 0x14 then
    d.tryShare n off (decide (1 ≤ b 0 8) && decide (b 8 5 ≤ 24))
      ((d.setF (F.PLOT_FCORE_WEIGHT n) (b 0 8)).setF (F.PLOT_FCORE_CAP n) (b 8 5))
  else if off = 0x18 then
    (((d.setF (F.PLOT_EWT_CIPH n) (b 0 8)).setF (F.PLOT_EWT_DGST n) (b 8 8)).setF (F.PLOT_EWT_CHURN n) (b 16 8)).setF
      (F.PLOT_EWT_SIEVE n) (b 24 8)
  else if off = 0x1C then
    d.tryShare n off (decide (b 0 7 ≤ 64) && decide (b 8 7 ≤ 64) && decide (b 16 7 ≤ 64) && decide (b 24 7 ≤ 64))
      ((((d.setF (F.PLOT_ECAP_CIPH n) (b 0 7)).setF (F.PLOT_ECAP_DGST n) (b 8 7)).setF (F.PLOT_ECAP_CHURN n) (b 16 7)).setF
        (F.PLOT_ECAP_SIEVE n) (b 24 7))
  else d

def execPlotShareWrite (n off v : Nat) := run (plotShareWrite n off v)

/-- SLM_GROW_FILL_DONE (R97): the zero fill of added SLM ends and EFFECT takes the new size. -/
def slmGrowFillDone (n : Nat) (d : Dev) : Dev :=
  match AMap.find n d.plot.grow with
  | none => d
  | some v =>
    ({ d with plot := { d.plot with grow := AMap.del n d.plot.grow } }.setF (F.PLOT_SLM_EFFECT n) v).plotSums

def execSlmGrowFillDone (n : Nat) := run (slmGrowFillDone n)

/-- Cut the SLM sizes in descending plot number until they fit the pool (R96): `boot` before any controller is ready,
where EFFECT falls too. -/
def Dev.slmCut (d : Dev) (boot : Bool) : Dev :=
  (d.plots.reverse).foldl (fun (e : Dev) p =>
    let sum := (e.plots.map (fun x => e.f (F.PLOT_SLM_SIZE x))).sum
    if sum ≤ e.slmPool ∨ e.f (F.PLOT_SLM_SIZE p) = 0 then e
    else
      let e1 := (e.setF (F.PLOT_SLM_SIZE p) 0).raise 0x1F8 p []
      let e2 := { e1 with plot := { e1.plot with grow := AMap.del p e1.plot.grow } }
      if boot then e2.setF (F.PLOT_SLM_EFFECT p) 0
      else e2.setF (F.PLOT_STAT_SLMPEND p) (Bool.nat (e2.f (F.PLOT_SLM_EFFECT p) != 0))) d |>.plotSums

/-- A retirement has shrunk the pool (R96): where the sizes no longer fit, every plot that holds SLM is reset and the
sizes are cut. -/
def Dev.slmShrunk (d : Dev) : Dev :=
  if d.sumSlm ≤ d.slmPool then d.plotSums
  else
    let d1 := (d.plots.filter (fun p => d.slmUnits p != 0)).foldl (fun (e : Dev) p =>
      if e.flag (F.PLOT_CTL_RST p) then e else (e.setF (F.PLOT_CTL_RST p) 1).askReset p) d
    d1.slmCut false

/-! ### Mailboxes (R98 to R103) -/

/-- d(a, b): distance of 32-bit sequence numbers. -/
def seq32 (a b : Nat) : Nat := (BitVec.ofNat 32 a - BitVec.ofNat 32 b).toNat

/-- The SEQ and ACK pointers of a ring, the writer's incarnation, and the ring's words. -/
def Mbx.seq (m : Mbx) (up : Bool) : Nat := if up then m.upSeq else m.dnSeq
def Mbx.ack (m : Mbx) (up : Bool) : Nat := if up then m.upAck else m.dnAck
def Mbx.inc (m : Mbx) (up : Bool) : Nat := if up then m.incT else m.incM
def Mbx.ring (m : Mbx) (up : Bool) : List (Nat × Nat) := if up then m.up else m.dn

/-- May message `q` be posted (R99): its SEQ, LEN and INC fields? -/
def Mbx.msgOk (m : Mbx) (up : Bool) (q : Nat) : Bool :=
  let w (i : Nat) : Nat := AMap.get 0 (q % 16 * 64 + i) (m.ring up)
  w 0 == q && decide (bits (w 1) 16 16 ≤ 240) && w 2 == m.inc up && m.inc up != 0

/-- Is the write of `v` to a SEQ pointer accepted (R99)? -/
def Mbx.seqOk (m : Mbx) (up : Bool) (v : Nat) : Bool :=
  let n := seq32 v (m.seq up)
  decide (1 ≤ n) && decide (n + seq32 (m.seq up) (m.ack up) ≤ 16) &&
    (List.range n).all (fun i => m.msgOk up ((m.seq up + 1 + i) % 2 ^ 32))

/-- Raise an event that is also sent on the tenant vector of a mailbox (R403). -/
def Dev.raiseTenant (d : Dev) (n p : Nat) : Dev :=
  let m := d.mbx p
  let ok := m.vecEn && d.vecOk p m.vec
  let d1 := d.raiseTv n p [] ok
  if ok then d1.msix p m.vec else d1

/-- Can a side reach the mailbox window of a plot: the plot is enabled, and for the tenant its function is there (R89)? -/
def Dev.mbOpen (d : Dev) (n : Nat) (tenant : Bool) : Bool :=
  n != 0 && decide (n < 512) && d.plotEn n && (!tenant || d.fnThere n)

/-- MB_SEQ_WRITE (R99): the tenant (`up`) or the manager posts messages up to sequence number `v`. -/
def mbSeqWrite (n : Nat) (up : Bool) (v : Nat) (d : Dev) : Dev :=
  let m := d.mbx n
  if ¬d.mbOpen n up then d
  else if m.seqOk up v then
    if up then (d.setMbx n { m with upSeq := v }).raise 0x1F0 n []
    else (d.setMbx n { m with dnSeq := v }).raiseTenant 0x1F1 n
  else (d.setMbx n (if up then { m with trej := true } else { m with mrej := true })).raise 0x1F3 n []

def execMbSeqWrite (n : Nat) (up : Bool) (v : Nat) := run (mbSeqWrite n up v)

/-- MB_ACK_WRITE (R100): the reader of the up ring (the manager) or of the down ring acknowledges up to `v`. -/
def mbAckWrite (n : Nat) (up : Bool) (v : Nat) (d : Dev) : Dev :=
  let m := d.mbx n
  let k := seq32 v (m.ack up)
  if ¬d.mbOpen n (!up) then d
  else if 1 ≤ k ∧ k ≤ seq32 (m.seq up) (m.ack up) then
    d.setMbx n (if up then { m with upAck := v } else { m with dnAck := v })
  else d

def execMbAckWrite (n : Nat) (up : Bool) (v : Nat) := run (mbAckWrite n up v)

/-- MB_INC_WRITE (R102): a side writes a new incarnation; 0 and the current value are not accepted. -/
def mbIncWrite (n : Nat) (tenant : Bool) (v : Nat) (d : Dev) : Dev :=
  let m := d.mbx n
  if ¬d.mbOpen n tenant ∨ v = 0 ∨ v = m.inc tenant then d
  else if tenant then
    let d1 := d.setMbx n { m with incT := v, trst := true }
    ({ d1 with plot := { d1.plot with rst := NSet.add n d1.plot.rst } }).raise 0x1F2 n []
  else (d.setMbx n { m with incM := v, mrst := true }).raiseTenant 0x1F2 n

def execMbIncWrite (n : Nat) (tenant : Bool) (v : Nat) := run (mbIncWrite n tenant v)

/-- Does slot `i` of a ring hold a message that is posted and not acknowledged (R101)? -/
def Mbx.held (m : Mbx) (up : Bool) (i : Nat) : Bool :=
  (List.range (seq32 (m.seq up) (m.ack up))).any (fun k => (m.ack up + 1 + k) % 16 == i)

/-- MB_SLOT_WRITE (R101): a write of 32-bit word `w` (16 slots of 64 words) of a ring by its writer. -/
def mbSlotWrite (n : Nat) (up : Bool) (w v : Nat) (d : Dev) : Dev :=
  let m := d.mbx n
  if ¬d.mbOpen n up ∨ 1024 ≤ w ∨ m.held up (w / 64) then d
  else d.setMbx n (if up then { m with up := AMap.set 0 w (v % 2 ^ 32) m.up } else { m with dn := AMap.set 0 w (v % 2 ^ 32) m.dn })

def execMbSlotWrite (n : Nat) (up : Bool) (w v : Nat) := run (mbSlotWrite n up w v)

end Sys2Proof.Machine
end

