-- ==== Sys2Proof/Machine/Retire.lean ====
section
/-! DEFINITION. The retirement of a quadrant (R25 to R27, R46, R96, R389). -/

namespace Sys2Proof.Machine

/-- Discard a pending graft (R389). -/
def Dev.discardGraft (d : Dev) : Dev :=
  if d.flag F.BRZ_GRAFT_PENDING then
    ({ (d.setF F.BRZ_GRAFT_PENDING 0) with trel := { d.trel with swap := [] } }).raise 0x02B noPlot []
  else d

/-- The quadrant in service after `q`, in turn. -/
def Dev.quadAfter (d : Dev) (q : Nat) : Nat := (([1, 2, 3, 4].map (fun i => (q + i) % 4)).find? d.quadOk).getD q

/-- In-field tests leave out a quadrant that has left service: TOP_QBIST.NEXTQ moves on, nothing is due there, and a device self-test
does not wait for it. -/
def Dev.testForget (d : Dev) (q : Nat) : Dev :=
  let left (t : SelfTest) : SelfTest := { t with quads := NSet.del q t.quads }
  let d1 := { d with mode := { d.mode with
    due := NSet.del q d.mode.due
    selfTest := d.mode.selfTest.map left
    qtest := d.mode.qtest.filter (fun t => t.quad != q) } }
  let d2 := if d.underTest q then d1.setF F.TOP_QBIST_BUSY 0 else d1
  if d2.f F.TOP_QBIST_NEXTQ = q then (d2.setF F.TOP_QBIST_NEXTQ (d2.quadAfter q)).setF F.TOP_QBIST_NOW 0 else d2

/-- A quadrant leaves service (R26, R27): TOP_UNITS and TOP_CHRETIRED, the device metadata, the Almanac, UNIT_RETIRED, its
Skim units and cores, a graft pending for it. The journal item of UNIT_RETIRED, the quadrant's number, is the model's choice (DESIGN
CHOICE, assumption 141: R27 names no item). -/
def Dev.markRetired (d : Dev) (q cause : Nat) : Dev :=
  let d1 := d.setF F.TOP_UNITS_QRETIRED (setBit (d.f F.TOP_UNITS_QRETIRED) q true)
  let d2 := d1.setF F.TOP_CHRETIRED_CHOUT (d1.f F.TOP_CHRETIRED_CHOUT ||| 255 * 2 ^ (8 * q))
  let d3 := { d2 with nv := { d2.nv with retiredQ := setBit d2.nv.retiredQ q true } }
  let d4 := (((d3.almanacRetire 1 cause q).raise 0x00F noPlot [q]).vendorAll 2).ewOccur 5
  let d5 := (List.range 8).foldl (fun (e : Dev) k => (e.setF (F.SKIM_BIND_MODE q k) 2).setCoreState (8 * q + k) 5) d4
  if d5.f F.BRZ_GRAFT_QUAD = q then (d5.testForget q).discardGraft else d5.testForget q

/-- The jobs and programs of a quadrant end with its loss (R26, R46); the status is a free value (`Config.lostUnit`). -/
def Dev.loseJobs (d : Dev) (q : Nat) : Dev :=
  let r := d.draw
  let bad := jsOrder.filter (fun j => j != .ok)
  let js := (bad[Config.lostUnit r.1 % bad.length]?).getD .poison
  let d1 := ((r.2.core.insts.filter (fun x => x.quad == q)).map (fun x => x.tag)).foldl (fun (e : Dev) t =>
    e.endProg t { js := js, cause := 0, bits := 0, core := 0, val := 0, pc := 0, fl := 0 }) r.2
  d1.endJobs q js (fun _ => true)

/-- The mode after a retirement in service (R34, R46): in an operating mode or RECOVER, SAFE where fewer than two quadrants remain or
the map no longer fits; else the degraded condition. -/
def Dev.afterRetire (d : Dev) : Dev :=
  let d1 := d.mapShow
  if ¬d1.isOperating ∧ d1.f F.TOP_MODE_MODE ≠ 5 then d1.setCond F.TOP_MODE_CDEGR true
  else if d1.quads.length < 2 then d1.enterSafe 1
  else if d1.mapRegion * 2 ^ 30 < d1.mapUsed then d1.enterSafe 2
  else d1.setCond F.TOP_MODE_CDEGR true

/-- Retire a quadrant in service: its channels' dies become missing members, its jobs end, the SLM pool shrinks. -/
def Dev.retireQuadrant (d : Dev) (q cause : Nat) : Dev :=
  if d.quadOk q then
    let chs := ((List.range 8).map (fun k => 8 * q + k)).filter d.chanOk
    let dies := chs.flatMap d.chanDies
    let d1 := (d.loseJobs q).markRetired q cause
    (((d1.dropBuffers chs).loseMembers dies).slmShrunk).afterRetire
  else d

end Sys2Proof.Machine
end

