-- ==== Sys2Proof/Machine/Nvme.lean ====
section
/-! DEFINITION. Queues and controllers (chapters 2 to 4): command fetch, doorbells, the end of commands, queue creation and
deletion, enabling, shutdown and reset of a controller. -/

namespace Sys2Proof.Machine

/-! ### Command fetch (R64, R91, R92, R24) -/

/-- Admin commands that hold one of the plot's 4 admin slots: Asynchronous Event Requests hold none. -/
def Dev.adminUsed (d : Dev) (p : Nat) : Nat :=
  (d.host.latches.filter (fun l => l.id.plot == p && !l.io && !(d.ctrl p).aers.contains l.id)).length

/-- May a queue of a controller be fetched from: entries wait and R30 has not stopped it? -/
def Ctrl.fetchable (c : Ctrl) (q : Sq) : Bool :=
  decide (0 < q.waiting) &&
  (match c.cq? q.cqid with
    | some x => !x.stalled
    | none => false)

/-- Does the mode in force let I/O be fetched? In RECOVER once commands are admitted (R150). -/
def Dev.ioAdmitted (d : Dev) : Bool := d.f F.TOP_MODE_MODE != 5 || d.flag F.MAPW_STAT_ADMIT

/-- The queues of a plot that a fetch round can take from (R91): the admin queue with one of the 4 admin slots free, the I/O queues
while the in-flight count is below OSHARE. -/
def Dev.fetchQueues (d : Dev) (p : Nat) : List Nat :=
  let c := d.ctrl p
  let admin := decide (d.adminUsed p < 4)
  let io := d.ioAdmitted && decide (d.inflightOf p < d.f (F.PLOT_FETCH_OSHARE p))
  (c.sqs.filter (fun q => c.fetchable q && (if q.qid = 0 then admin else io))).map (fun q => q.qid)

/-- Is a plot eligible in a fetch round (R91)? Nothing is fetched for a plot that is resetting or whose reset point is held
(R105, R108), after a shutdown (R74), during an activation drain (R75), before a life-cycle change or the entry to TEST (R393, R396), a power-failure stop (R47) or in PS3 and PS4 (R50). -/
def Dev.eligible (d : Dev) (p : Nat) : Bool :=
  let c := d.ctrl p
  d.plotEn p && c.en && c.rdy && !c.fetchStopped && !c.offline && d.f (F.PLOT_STAT_STATE p) == 1 && !d.flag (F.PLOT_STAT_RSTPEND p) &&
  d.host.drain.isNone && !d.mode.pfStop && d.boot.lcChange.isNone && !d.boot.testEntry && decide (d.f F.PWR_PSTATE_PS < 3) && d.serving && !(d.fetchQueues p).isEmpty

def Dev.fetchVt (d : Dev) (p : Nat) : Nat := AMap.get 0 p d.host.vt

/-- Plots that become eligible start at the smallest virtual time of those that already were (R91). -/
def Dev.fetchWake (d : Dev) (now : List Nat) : Dev :=
  let was := d.host.wasEligible.filter (fun p => now.contains p)
  let low := ((was.map d.fetchVt).min?).getD 0
  let fresh := now.filter (fun p => !d.host.wasEligible.contains p)
  let vt := if was.isEmpty then d.host.vt else fresh.foldl (fun m p => AMap.set 0 p (max (d.fetchVt p) low) m) d.host.vt
  { d with host := { d.host with vt := vt, wasEligible := now } }

/-- The plot with the smallest virtual time, the lowest number among equals. -/
def Dev.fetchChoice (d : Dev) (now : List Nat) : Nat :=
  let low := ((now.map d.fetchVt).min?).getD 0
  (now.find? (fun p => d.fetchVt p == low)).getD 0

/-- The next queue after `last` in ascending order, round the end. -/
def nextAfter (last : Nat) (qs : List Nat) : Nat :=
  (((qs.filter (fun q => decide (last < q))).min?).orElse (fun _ => qs.min?)).getD 0

/-- The class of a queue: every queue is in class 0 under round robin; under weighted round robin 0 urgent, 1 high, 2
medium, 3 low (CC.AMS = 1). -/
def Ctrl.classOf (c : Ctrl) (q : Nat) : Nat :=
  if c.ams = 1 then ((c.sq? q).map (fun x => x.prio)).getD 3 else 0

/-- The weight of a class, 0's based in feature 01h. -/
def Ctrl.classWeight (c : Ctrl) (k : Nat) : Nat :=
  1 + (if k = 1 then c.feat.hpw else if k = 2 then c.feat.mpw else c.feat.lpw)

/-- The class the next turn goes to: urgent first, then the highest class with credits, all reloaded when none has any; with
the credits then left. -/
def Ctrl.pickClass (c : Ctrl) (qs : List Nat) : Nat × List (Nat × Nat) :=
  let has (k : Nat) : Bool := qs.any (fun q => c.classOf q == k)
  if has 0 then (0, c.credits)
  else
    let cs := [1, 2, 3].filter has
    match cs.find? (fun k => decide (0 < AMap.get 0 k c.credits)) with
    | some k => (k, c.credits)
    | none => (cs.headD 3, [1, 2, 3].map (fun k => (k, c.classWeight k)))

/-- The queue the plot's grant takes from (R64): one that R24 has made urgent, else the admin queue, else the I/O queue whose turn goes
on, else the next of the class. The second part says whether a new turn begins. -/
def Ctrl.pickQueue (c : Ctrl) (qs : List Nat) : Nat × Bool × List (Nat × Nat) :=
  match c.qArb.urgent.find? (fun q => qs.contains q) with
  | some q => (q, true, c.credits)
  | none =>
    if qs.contains 0 then (0, false, c.credits)
    else if 0 < c.burstLeft ∧ qs.contains c.lastQ = true then (c.lastQ, false, c.credits)
    else
      let k := c.pickClass qs
      (nextAfter (AMap.get 0 k.1 c.lastQs) (qs.filter (fun q => c.classOf q == k.1)), true, k.2)

/-- The commands of one turn (Arbitration Burst: 2^AB, 111b for no limit). -/
def burstOf (ab : Nat) : Nat := if ab = 7 then 65536 else 2 ^ ab

/-- Account for a grant to queue `q`: the ages of the queues that waited (R24), and for an I/O queue its turn and credits. -/
def Ctrl.granted (c : Ctrl) (qs : List Nat) (q : Nat) (fresh : Bool) (credits : List (Nat × Nat)) : Ctrl :=
  let k := c.classOf q
  let left := if fresh then burstOf c.feat.ab - 1 else c.burstLeft - 1
  if q = 0 then { c with qArb := c.qArb.round qs 0 }
  else
  { c with lastQ := q, burstLeft := left, lastQs := AMap.set 0 k q c.lastQs,
           credits := if c.ams = 1 ∧ k ≠ 0 then AMap.set 0 k (AMap.get 0 k credits - 1) credits else credits,
           qArb := c.qArb.round qs q }

/-- Take the entry at the head of a queue (R14, R29, R92): its latch is armed. -/
def Dev.fetchFrom (d : Dev) (p q cid : Nat) : Dev :=
  let c := d.ctrl p
  let io := q != 0
  let l : Latch := { id := ⟨p, q, cid⟩, plotGen := d.plotGen p, qGen := d.qGen p q, at_ := d.now,
                     tmax := d.f F.TOP_TMAX_SECONDS, io := io }
  let adv (x : Sq) : Sq := if x.qid == q then { x with head := (x.head + 1) % x.size } else x
  let d1 := d.setCtrl p { c with sqs := c.sqs.map adv }
  { d1 with host := { d1.host with latches := d1.host.latches ++ [l] } }.bumpStat p 0 1

/-! ### Data pointers (R76, R77) -/

/-- Why a data pointer is refused (R76, R77), with whether C4h counts it; `need` bytes are to be moved, `read` to the host. -/
def ptrFail (p : DataPtr) (need : Nat) (read : Bool) : Option (Sc × Bool) :=
  if 2 ^ 21 < need then some (.invalidField, false)
  else match p with
  | .prp f l => if f % 4 ≠ 0 ∨ l.any (fun o => o != 0) then some (.prpOffsetInvalid, true) else none
  | .sgl ds =>
    let len (x : SglDesc) : Nat := match x with
      | .data n => n
      | .bitBucket n => n
      | _ => 0
    let bucket (x : SglDesc) : Bool := match x with
      | .bitBucket _ => true
      | _ => false
    let total := (ds.map len).sum
    let ends := match ds.getLast? with
      | some x => if bucket x then len x else 0
      | none => 0
    if 512 < ds.length then some (.invalidNumberOfSglDescriptors, false)
    else if ds.contains .other then some (.sglDescriptorTypeInvalid, false)
    else if !read && ds.any bucket then some (.sglDescriptorTypeInvalid, true)
    else if total < need then some (.dataSglLengthInvalid, true)
    else if need < total ∧ (¬read ∨ ends < total - need) then some (.dataSglLengthInvalid, true)
    else none

/-- A command that moves `need` bytes goes on unless its data pointer is refused (R67 step 3); one that moves none has no pointer to
check. -/
def Dev.withPtr (d : Dev) (c : NCmd) (need : Nat) (read : Bool) (go : Dev → Dev) : Dev :=
  if need = 0 then go d
  else match ptrFail c.dp need read with
  | none => go d
  | some (st, cnt) => (if cnt then d.bumpStat c.id.plot 7 1 else d).done c.id st

/-- As `Dev.withPtr` for an admin command, which takes PRPs alone (R76): an SGL is Invalid Field in Command (PRESUMED, assumption 143:
NVMe 2.1's status for a PSDT it does not allow). -/
def Dev.withPrp (d : Dev) (c : NCmd) (need : Nat) (read : Bool) (go : Dev → Dev) : Dev :=
  if need = 0 then go d
  else match c.dp with
  | .sgl _ => d.done c.id .invalidField
  | .prp _ _ => d.withPtr c need read go

/-! ### Admission of admin commands (R33, R65, R67) -/

/-- An admin command that is outstanding is checked, in the order of R67: the plot's right and reserved fields, then the
mode; `mgr` marks a command of plot 0, `safe` one that SAFE accepts, `san` one that SANITIZE admits. -/
def Dev.admin (d : Dev) (c : NCmd) (mgr safe san : Bool) (go : Dev → Dev) : Dev :=
  if ¬d.outstanding c.id then d
  else
    let e := d.hostActivity
    let m := e.f F.TOP_MODE_MODE
    if mgr ∧ c.id.plot ≠ 0 then e.done c.id .invalidOpcode
    else if c.rsvd then e.done c.id .invalidField
    else if m = 1 ∧ ¬safe then e.done c.id .commandSequenceError
    else if m = 3 ∧ ¬san then e.done c.id .sanitizeInProgress
    else go e

/-! ### The fetch round (R91, R64) -/

/-- What becomes at its fetch of an entry that no row of its own names (R65, R66, R79): an opcode that is not supported, Set Features
of an identifier that R79 does not list, Sanitize with the Overwrite action, which SANICAP does not offer. -/
def Dev.fetched (d : Dev) (id : CmdId) (what : Fetched) : Dev :=
  let c : NCmd := { id := id, nsid := 0, rsvd := false, dp := .prp 0 [] }
  match what with
  | .known => d
  | .unknownOpcode => d.done id .invalidOpcode
  | .unlistedFeature => if id.sq = 0 then d.admin c false false true (fun e => e.done id .invalidField) else d.done id .invalidOpcode
  | .overwrite => if id.sq = 0 then d.admin c true false false (fun e => e.done id .invalidField) else d.done id .invalidOpcode

/-- FETCH_ROUND (R91, R64): one round. The entry at the head of the chosen queue has command identifier `cid`, moves
`bytes` of host data (0 for an admin command and Execute Program) and asks for `what`. A cost that the weight does not divide rounds vt
down (DESIGN CHOICE, assumption 144: R91 gives no rounding). -/
def fetchRound (cid bytes : Nat) (what : Fetched) (d : Dev) : Dev :=
  let now := (List.range 512).filter d.eligible
  let d1 := d.fetchWake now
  if now.isEmpty then d1
  else
    let p := d1.host.arb.pick now (d1.fetchChoice now)
    let qs := d1.fetchQueues p
    let c := d1.ctrl p
    let k := c.pickQueue qs
    if d1.outstanding ⟨p, k.1, cid⟩ then d1
    else
      let d2 := d1.setCtrl p (c.granted qs k.1 k.2.1 k.2.2)
      let cost := if k.1 = 0 then 1 else max 1 (ceilDiv bytes 4096)
      let vt := AMap.set 0 p (d2.fetchVt p + cost * 65536 / max 1 (d2.f (F.PLOT_FETCH_WEIGHT p))) d2.host.vt
      let d3 := { d2 with host := { d2.host with vt := vt, arb := d2.host.arb.round now p } }
      (d3.fetchFrom p k.1 cid).fetched ⟨p, k.1, cid⟩ what

def execFetchRound (cid bytes : Nat) (what : Fetched) := run (fetchRound cid bytes what)

/-! ### Doorbells (R61, R30) -/

/-- SQ_TAIL_DOORBELL (R61, R89): a write of `v` to the tail doorbell of submission queue `y`. It wakes the part (R50). -/
def sqTailDoorbell (p y v : Nat) (d : Dev) : Dev :=
  if 512 ≤ p ∨ ¬d.plotEn p ∨ ¬d.fnThere p then d
  else
    match (d.ctrl p).sq? y with
    | none => d.asyncTo p ⟨0, 0, 1⟩
    | some q => if q.size ≤ v then d.asyncTo p ⟨0, 1, 1⟩ else (d.setCtrl p ((d.ctrl p).setSq { q with tail := v })).hostActivity

def execSqTailDoorbell (p y v : Nat) := run (sqTailDoorbell p y v)

/-- Write the completions that a queue holds back while it has a free entry. -/
def Dev.flushHeld (p y : Nat) : Nat → Dev → Dev
  | 0, d => d
  | n + 1, d =>
    match (d.ctrl p).cq? y with
    | none => d
    | some q =>
      match q.held with
      | [] => d
      | e :: rest =>
        if q.full then d
        else
          let q1 : Cq := { q with held := rest }
          Dev.flushHeld p y n ((d.setCtrl p ((d.ctrl p).setCq q1)).writeCqe p q1 e)

/-- Show whether any completion queue of a plot is stalled. -/
def Dev.stallShow (d : Dev) (p : Nat) : Dev :=
  d.setF (F.PLOT_STAT_CQSTALL p) (Bool.nat ((d.ctrl p).cqs.any (fun q => q.stalled)))

/-- A stalled completion queue that has a free entry lets fetching go on (R30). -/
def Dev.unstall (d : Dev) (p y : Nat) : Dev :=
  match (d.ctrl p).cq? y with
  | none => d
  | some q => if q.full then d else (d.setCtrl p ((d.ctrl p).setCq { q with stalled := false })).stallShow p

/-- CQ_HEAD_DOORBELL (R61, R30): a write of `v` to the head doorbell of completion queue `y`. -/
def cqHeadDoorbell (p y v : Nat) (d : Dev) : Dev :=
  if 512 ≤ p ∨ ¬d.plotEn p ∨ ¬d.fnThere p then d
  else
    match (d.ctrl p).cq? y with
    | none => d.asyncTo p ⟨0, 0, 1⟩
    | some q =>
      if q.size ≤ v then d.asyncTo p ⟨0, 1, 1⟩
      else ((Dev.flushHeld p y q.held.length (d.setCtrl p ((d.ctrl p).setCq { q with head := v }))).unstall p y).hostActivity

def execCqHeadDoorbell (p y v : Nat) := run (cqHeadDoorbell p y v)

/-- HOST_CQ_STALL (R30): a completion queue has been full for more than 1 s. -/
def hostCqStall (p y : Nat) (d : Dev) : Dev :=
  match (d.ctrl p).cq? y with
  | none => d
  | some q =>
    if q.full = false ∨ q.stalled = true then d
    else (((d.setCtrl p ((d.ctrl p).setCq { q with stalled := true })).stallShow p).bumpStat p 6 1).raise 0x00D p []

def execHostCqStall (p y : Nat) := run (hostCqStall p y)

/-- INTERRUPT_COALESCING_TIMEOUT (R79): the aggregation time of feature 08h ends for a completion queue, and the pending
interrupt is sent. -/
def interruptCoalescingTimeout (p y : Nat) (d : Dev) : Dev :=
  match (d.ctrl p).cq? y with
  | none => d
  | some q => if q.coalesced = 0 then d else (d.setCtrl p ((d.ctrl p).setCq { q with coalesced := 0 })).msix p q.vec

def execInterruptCoalescingTimeout (p y : Nat) := run (interruptCoalescingTimeout p y)

/-! ### The end of a command (R14, R29) -/

/-- The engine jobs and the program instances of a command end with JS_TIMEOUT; their results are taken by nobody. -/
def Dev.timeoutJobs (d : Dev) (id : CmdId) : Dev :=
  let tags := (d.trel.cmds.filter (fun c => c.id == id)).map (fun c => c.tag)
  let d1 := ((d.core.insts.filter (fun x => x.id == id)).map (fun x => x.tag)).foldl (fun (e : Dev) t =>
    e.endProg t { js := .timeout, cause := 0, bits := 0, core := 0, val := 0, pc := 0, fl := 0 }) d
  (List.range 4).foldl (fun (e : Dev) q => e.endJobs q .timeout (fun x => tags.contains x.tag)) d1

/-- CMD_TMAX_EXPIRED (R29, R106): the watchdog of a command fires before its latch is set. The operations of a
command that has ended before (its identity is then `deadId`'s) release their engine contexts and the Pail handles `held`, and leave the
plot's counts. -/
def cmdTmaxExpired (id : CmdId) (held : List Nat) (d : Dev) : Dev :=
  if d.outstanding id then
    if (d.ctrl id.plot).aers.contains id then d
    else
      let d1 := ((d.complete id .internalErrorTimeout 0 0).bumpStat id.plot 3 1).raise 0x00C id.plot []
      (d1.timeoutJobs id).orphan (fun x => x == id)
  else if 65536 ≤ id.cid then
    (held.foldl (fun (e : Dev) h => e.pailFree h id.plot true) (d.timeoutJobs id)).forgetOps id
  else d

def execCmdTmaxExpired (id : CmdId) (held : List Nat) := run (cmdTmaxExpired id held)

/-- INTERNAL_RESULT (R14): a result that carries the generations its command was fetched under; the first one for the
command in force is posted, any other is discarded and counted. -/
def internalResult (id : CmdId) (pgen qgen : Nat) (st : Sc) (dw0 dw1 : Nat) (d : Dev) : Dev :=
  match d.latch? id with
  | some l =>
    if l.plotGen = pgen ∧ l.qGen = qgen then d.complete id st dw0 dw1
    else d.lateDiscard id.plot
  | none => d.lateDiscard id.plot

def execInternalResult (id : CmdId) (pgen qgen : Nat) (st : Sc) (dw0 dw1 : Nat) := run (internalResult id pgen qgen st dw0 dw1)

/-! ### Queue creation and deletion (R63, R65, R70) -/

/-- The I/O queue pairs a plot's controller may create: its allotment, or what feature 07h granted. -/
def Dev.queueLimit (d : Dev) (p : Nat) (cq : Bool) : Nat :=
  let g := if cq then (d.ctrl p).feat.ncq else (d.ctrl p).feat.nsq
  let m := d.f (F.PLOT_QV_QMAX p)
  if g = 0 then m else min g m

/-- May the controller create one more I/O queue of this kind (R63, R97)? QMAX may have fallen below the queues it has. -/
def Dev.queueRoom (d : Dev) (p : Nat) (cq : Bool) : Bool :=
  let k := d.ctrl p
  decide ((if cq then (k.cqs.filter (fun q => q.qid != 0)).length else (k.sqs.filter (fun q => q.qid != 0)).length) < d.queueLimit p cq)

/-- Show the I/O queue pairs created. -/
def Dev.queueShow (d : Dev) (p : Nat) : Dev :=
  d.setF (F.PLOT_USE_QUSED p) ((d.ctrl p).sqs.filter (fun q => q.qid != 0)).length

/-- CREATE_IO_COMPLETION_QUEUE (R63): `size` entries, vector `vec`. -/
def createIoCompletionQueue (c : NCmd) (qid size vec : Nat) (ien pc : Bool) (d : Dev) : Dev :=
  d.admin c false false true (fun e =>
    let p := c.id.plot
    let k := e.ctrl p
    if ¬pc then e.done c.id .invalidField
    else if qid = 0 ∨ e.queueLimit p true < qid ∨ (k.cq? qid).isSome ∨ ¬e.queueRoom p true then e.done c.id .invalidQueueIdentifier
    else if size < 2 ∨ 65536 < size then e.done c.id .invalidQueueSize
    else if e.f (F.PLOT_QV_VMAX p) ≤ vec then e.done c.id .invalidInterruptVector
    else
      let q : Cq := { qid := qid, size := size, head := 0, tail := 0, phase := true, vec := vec, ien := ien, held := [],
                      stalled := false, coalesced := 0 }
      (e.setCtrl p { k with cqs := k.cqs ++ [q] }).done c.id .success)

def execCreateIoCompletionQueue (c : NCmd) (qid size vec : Nat) (ien pc : Bool) :=
  run (createIoCompletionQueue c qid size vec ien pc)

/-- CREATE_IO_SUBMISSION_QUEUE (R63, R64): `size` entries, completions to `cqid`. -/
def createIoSubmissionQueue (c : NCmd) (qid cqid size prio : Nat) (pc : Bool) (d : Dev) : Dev :=
  d.admin c false false true (fun e =>
    let p := c.id.plot
    let k := e.ctrl p
    if ¬pc then e.done c.id .invalidField
    else if qid = 0 ∨ e.queueLimit p false < qid ∨ (k.sq? qid).isSome ∨ ¬e.queueRoom p false then e.done c.id .invalidQueueIdentifier
    else if size < 2 ∨ 65536 < size then e.done c.id .invalidQueueSize
    else if cqid = 0 then e.done c.id .invalidQueueIdentifier
    else if (k.cq? cqid).isNone then e.done c.id .completionQueueInvalid
    else
      let q : Sq := { qid := qid, size := size, cqid := cqid, prio := prio % 4, head := 0, tail := 0 }
      ((e.setCtrl p { k with sqs := k.sqs ++ [q] }).queueShow p).done c.id .success)

def execCreateIoSubmissionQueue (c : NCmd) (qid cqid size prio : Nat) (pc : Bool) :=
  run (createIoSubmissionQueue c qid cqid size prio pc)

/-- DELETE_IO_COMPLETION_QUEUE (R65). -/
def deleteIoCompletionQueue (c : NCmd) (qid : Nat) (d : Dev) : Dev :=
  d.admin c false false true (fun e =>
    let p := c.id.plot
    let k := e.ctrl p
    if qid = 0 ∨ (k.cq? qid).isNone then e.done c.id .invalidQueueIdentifier
    else if k.sqs.any (fun q => q.cqid == qid) then e.done c.id .invalidQueueDeletion
    else ((e.setCtrl p { k with cqs := k.cqs.filter (fun q => q.qid != qid) }).stallShow p).done c.id .success)

def execDeleteIoCompletionQueue (c : NCmd) (qid : Nat) := run (deleteIoCompletionQueue c qid)

/-- Post Command Aborted for an entry that was never fetched (R70): it has no latch. -/
def Dev.abortUnread (d : Dev) (p qid cid : Nat) : Dev :=
  ((d.stat p 1 1).bumpStat p 4 1).postCqe p (d.cqOf p qid) (d.entry ⟨p, qid, cid⟩ .abortedSqDeletion 0 0)

/-- DELETE_IO_SUBMISSION_QUEUE (R70): the deletion point. `unread` are the command identifiers of the entries not yet
fetched, in queue order. -/
def deleteIoSubmissionQueue (c : NCmd) (qid : Nat) (unread : List Nat) (d : Dev) : Dev :=
  d.admin c false false true (fun e =>
    let p := c.id.plot
    match (e.ctrl p).sq? qid with
    | none => e.done c.id .invalidQueueIdentifier
    | some q =>
      if qid = 0 then e.done c.id .invalidQueueIdentifier
      else if unread.length ≠ q.waiting then e
      else
        let mine := (e.host.latches.filter (fun l => l.id.plot == p && l.id.sq == qid)).map (fun l => l.id)
        let e1 := e.nextQGen p qid
        let e2 := e1.setCtrl p ((e1.ctrl p).setSq { q with head := q.tail })
        let e3 := mine.foldl (fun (x : Dev) i => (x.done i .abortedSqDeletion).bumpStat p 4 1) e2
        let e4 := unread.foldl (fun (x : Dev) i => x.abortUnread p qid i) (e3.orphan (fun i => mine.contains i))
        let e5 := e4.setCtrl p { e4.ctrl p with sqs := (e4.ctrl p).sqs.filter (fun x => x.qid != qid) }
        let e6 := (e5.queueShow p).done c.id .success
        if mine.isEmpty ∧ q.waiting = 0 then e6 else e6.raise 0x1E6 p [])

def execDeleteIoSubmissionQueue (c : NCmd) (qid : Nat) (unread : List Nat) := run (deleteIoSubmissionQueue c qid unread)

/-- ABORT (R65): never aborts anything. -/
def abort (c : NCmd) (d : Dev) : Dev := d.admin c false false true (fun e => e.complete c.id .success 1 0)

def execAbort (c : NCmd) := run (abort c)

/-- ASYNCHRONOUS_EVENT_REQUEST (R65, R84): up to 16 outstanding; a pending event that is not masked completes it at once. -/
def asynchronousEventRequest (c : NCmd) (d : Dev) : Dev :=
  d.admin c false false true (fun e =>
    let p := c.id.plot
    let k := e.ctrl p
    if k.aers.contains c.id then e
    else if 16 ≤ k.aers.length then e.done c.id .aerLimitExceeded
    else
      let e1 := e.setCtrl p { k with aers := k.aers ++ [c.id] }
      match k.asyncPend with
      | [] => e1
      | v :: rest => (e1.setCtrl p { e1.ctrl p with asyncPend := rest }).asyncTo p v)

def execAsynchronousEventRequest (c : NCmd) := run (asynchronousEventRequest c)

/-! ### Controllers (R37, R51, R73, R74, R104) -/

/-- CC_ENABLE (R37, R89): CC.EN goes from 0 to 1 with CSS and AMS as given, the admin queues having `asq` and `acq`
entries. -/
def ccEnable (p css ams asq acq : Nat) (d : Dev) : Dev :=
  let c := d.ctrl p
  if 512 ≤ p ∨ ¬d.fnThere p ∨ c.en then d
  else
    let s : Sq := { qid := 0, size := max 2 (min 4096 asq), cqid := 0, prio := 0, head := 0, tail := 0 }
    let q : Cq := { qid := 0, size := max 2 (min 4096 acq), head := 0, tail := 0, phase := true, vec := 0, ien := true, held := [],
                    stalled := false, coalesced := 0 }
    let d1 := d.setCtrl p { c with en := true, css := css, ams := ams, aqaS := asq, aqaC := acq, sqs := [s], cqs := [q],
                                   fetchStopped := false, shn := 0, shst := 0 }
    ((d1.readyAll).warnTo (d1.critNow p) p).powerCombine

def execCcEnable (p css ams asq acq : Nat) := run (ccEnable p css ams asq acq)

/-- CC_DISABLE (R73, R51): CC.EN goes from 1 to 0. -/
def ccDisable (p : Nat) (d : Dev) : Dev := if (d.ctrl p).en then (d.ctrlReset p).powerCombine else d

def execCcDisable (p : Nat) := run (ccDisable p)

/-- Can die group `g` take data of the write cache (R172)? -/
def Dev.canTake (d : Dev) (g : Nat) : Bool := (d.openStripe? g 0).isSome || (d.openStripe g 0).isSome

/-- Is the write cache destaged, but for data that no die group can take (R145, R172)? Prepared records wait for R201. -/
def Dev.cacheClean (d : Dev) : Bool :=
  d.mram.commits.all (fun c => c.kind == 5) || d.groups.all (fun g => !d.canTake g)

/-- May a clean stop be recorded: the cache destaged, the open batch committed and every dirty segment written? -/
def Dev.stopReady (d : Dev) : Bool :=
  d.cacheClean && d.ftl.openRecs.isEmpty && d.ftl.closed.isEmpty && d.ftl.dirty.isEmpty && d.ftl.copies.isEmpty

/-- Record a clean stop (R145): the map journal is empty after it. -/
def Dev.recordClean (d : Dev) : Dev :=
  ({ d with nv := { d.nv with stop := .clean },
            mram := { d.mram with batches := [], jtail := d.mram.jhead } }).journalShow

/-- Bring a clean stop forward (R145): commands end, then the batch closes, a checkpoint pass runs, the stop is recorded. -/
def Dev.stopStep (d : Dev) : Dev :=
  let d1 := if d.ftl.openRecs.isEmpty then d else d.closeBatch
  let d2 := if ¬d1.cacheClean then d1 else if d1.ftl.pass.isEmpty ∧ d1.ftl.copies.isEmpty then d1.passStart else d1.passStep
  if d2.stopReady then d2.recordClean else d2

/-- Controllers whose shutdown has waited for its commands and for the clean stop finish it (R74). -/
def Dev.shutdownSweep (d : Dev) : Dev :=
  let waiting := (d.host.ctrls.filter (fun c => c.2.shst == 1)).map Prod.fst
  let idle (e : Dev) (p : Nat) : Bool :=
    e.host.latches.all (fun l => l.id.plot != p || (e.ctrl p).aers.contains l.id)
  if (waiting.filter (idle d)).isEmpty then d
  else
    let d1 := d.stopStep
    if d1.nv.stop = .clean then
      (waiting.filter (idle d1)).foldl (fun (e : Dev) p => e.setCtrl p { e.ctrl p with shst := 2 }) d1
    else d1

/-- A write to CC.SHN: nothing more is fetched for the controller (R74). -/
def Dev.shutdownStart (d : Dev) (p shn : Nat) : Dev :=
  let c := d.ctrl p
  d.setCtrl p { c with shn := shn, shst := if c.shst = 2 then 2 else 1, fetchStopped := true }

/-- NORMAL_SHUTDOWN (R74): CC.SHN = 01b. Commands already fetched go on; the shutdown is complete once they have ended and
the clean stop is recorded, at this command or at a later tick. -/
def normalShutdown (p : Nat) (d : Dev) : Dev := if (d.ctrl p).en then (d.shutdownStart p 1).shutdownSweep else d

def execNormalShutdown (p : Nat) := run (normalShutdown p)

/-- ABRUPT_SHUTDOWN (R74): CC.SHN = 10b. Outstanding commands end as under R73. -/
def abruptShutdown (p : Nat) (d : Dev) : Dev :=
  if (d.ctrl p).en then
    let d1 := ((d.shutdownStart p 2).endCommands (fun id => id.plot == p)).nextQGens p
    (d1.setCtrl p { d1.ctrl p with aers := [] }).shutdownSweep
  else d

def execAbruptShutdown (p : Nat) := run (abruptShutdown p)

/-- FUNCTION_LEVEL_RESET (R104): of the function that carries plot `p`. It is a controller reset of plot 0, and a plot reset of any
other, of a plot with EN = 0 too. A physical function loses VF Enable. -/
def functionLevelReset (p : Nat) (d : Dev) : Dev :=
  if 512 ≤ p ∨ ¬d.fnThere p then d
  else
    let e := d.clearFns (fun f => f == p)
    if p = 0 then (e.ctrlReset 0).setVfs 0 0
    else
      let e1 := if e.flag (F.PLOT_CTL_RST p) ∨ 2 ≤ e.f (F.PLOT_STAT_STATE p) then e else (e.setF (F.PLOT_CTL_RST p) 1).askReset p
      if p = 256 ∧ e.flag F.HIF_PORTCFG_DUAL then e1.setVfs 1 0 else e1

def execFunctionLevelReset (p : Nat) := run (functionLevelReset p)

end Sys2Proof.Machine
end

