-- ==== Sys2Proof/Machine/Features.lean ====
section
/-! DEFINITION. Set Features and Get Features (R79), with the throttle levels that features 04h and 10h bear on (R446). -/

namespace Sys2Proof.Machine

/-! ### Throttling (R446) -/

/-- The junction threshold of a throttle level in C. -/
def Dev.levelTemp (d : Dev) (n : Nat) : Int := if n = 1 then 100 else if d.fuses.tempE then 107 else 103

/-- The host thresholds of a level: TMT1 or TMT2 of every enabled controller, where non-zero. -/
def Dev.levelHost (d : Dev) (n : Nat) : List Nat :=
  ((d.host.ctrls.filter (fun c => c.2.en)).map (fun c => if n = 1 then c.2.feat.tmt1 else c.2.feat.tmt2)).filter (fun t => t != 0)

/-- Does a sensor, or a host threshold, ask for this level? -/
def Dev.levelSensor (d : Dev) (n : Nat) : Bool := decide (d.levelTemp n + 273 ≤ d.kelvin)
def Dev.levelByHost (d : Dev) (n : Nat) : Bool := (d.levelHost n).any (fun t => decide ((t : Int) ≤ d.kelvin))

/-- Enter the level that the temperatures ask for, never a lower one than the level in force: THROTTLE_START on leaving level
0, DRAM timing set B. -/
def Dev.throttle (d : Dev) : Dev :=
  let want := if d.levelSensor 2 || d.levelByHost 2 then 2 else if d.levelSensor 1 || d.levelByHost 1 then 1 else 0
  let old := d.f F.PWR_THERM_LEVEL
  let new := max old want
  let host := if want = new ∧ new ≠ 0 then Bool.nat (!d.levelSensor new) else d.f F.PWR_THERM_HOSTCAUSE
  let d1 := (d.setF F.PWR_THERM_LEVEL new).setF F.PWR_THERM_HOSTCAUSE host
  let d2 := if old = 0 ∧ new ≠ 0 then
      d1.raise 0x030 noPlot [new, d1.f F.PWR_THERM_HOTSENS, d1.f F.PWR_THERM_HOTTEMP]
    else d1
  if old = new then d2 else d2.retune

/-- May the level in force be left: is every entry condition at least 5 C below its threshold? -/
def Dev.levelOver (d : Dev) (n : Nat) : Bool :=
  decide (d.kelvin ≤ d.levelTemp n + 268) && (d.levelHost n).all (fun t => decide (d.kelvin + 5 ≤ (t : Int)))

/-! ### Setting features -/

/-- Change a controller's features; with `save` the saved values change too (R79). -/
def Dev.setFeat (d : Dev) (p : Nat) (save : Bool) (g : Features → Features) : Dev :=
  let c := d.ctrl p
  let d1 := d.setCtrl p { c with feat := g c.feat }
  if save then
    { d1 with nv := { d1.nv with saved := AMap.set Features.default p (g (AMap.get Features.default p d1.nv.saved)) d1.nv.saved } }
  else d1

/-- A Set Features command (R79): `saveable` features take SV = 1, a `plot 0` feature refuses other plots; C0h and C1h are
not admitted in SANITIZE. -/
def Dev.setFeature (d : Dev) (c : NCmd) (save saveable mgr san : Bool) (go : Dev → Dev) : Dev :=
  d.admin c false false san (fun e =>
    if mgr ∧ c.id.plot ≠ 0 then e.done c.id .invalidField
    else if save ∧ ¬saveable then e.done c.id .featureNotSaveable
    else go e)

/-- SET_ARBITRATION (R64). -/
def setArbitration (c : NCmd) (save : Bool) (ab lpw mpw hpw : Nat) (d : Dev) : Dev :=
  d.setFeature c save true false true (fun e =>
    (e.setFeat c.id.plot save (fun f => { f with ab := ab % 8, lpw := lpw, mpw := mpw, hpw := hpw })).done c.id .success)

def execSetArbitration (c : NCmd) (save : Bool) (ab lpw mpw hpw : Nat) := run (setArbitration c save ab lpw mpw hpw)

/-- SET_POWER_MANAGEMENT (R51, R79, R97): the controller keeps its request and completes at once; PSALLOW takes effect, and without it
the request does not count. -/
def setPowerManagement (c : NCmd) (save : Bool) (ps : Nat) (d : Dev) : Dev :=
  d.setFeature c save false false true (fun e =>
    if 4 < ps then e.done c.id .invalidField
    else
      let e1 := (e.done c.id .success).psLatch c.id.plot
      (e1.setFeat c.id.plot false (fun f => { f with ps := ps })).powerCombine)

def execSetPowerManagement (c : NCmd) (save : Bool) (ps : Nat) := run (setPowerManagement c save ps)

/-- SET_TEMPERATURE_THRESHOLD (R79, R82): THSEL `sel` 0 over, 1 under; TMPSEL `tsel` names the composite temperature, or
all. -/
def setTemperatureThreshold (c : NCmd) (save : Bool) (t tsel sel : Nat) (d : Dev) : Dev :=
  d.setFeature c save true false true (fun e =>
    if 1 < sel ∨ (tsel ≠ 0 ∧ tsel ≠ 15) then e.done c.id .invalidField
    else
      let e1 := e.setFeat c.id.plot save (fun f => if sel = 0 then { f with tempOver := t } else { f with tempUnder := t })
      (e1.warnTo (e1.critNow c.id.plot) c.id.plot).done c.id .success)

def execSetTemperatureThreshold (c : NCmd) (save : Bool) (t tsel sel : Nat) := run (setTemperatureThreshold c save t tsel sel)

/-- Is a namespace attached to this plot's controller? NSID 1,025 is attached to every controller, 1,026 + n to that of plot
n (R454). -/
def Dev.attached (d : Dev) (nsid p : Nat) : Bool :=
  nsid == 1025 || nsid == 1026 + p || (match d.ns? nsid with
    | some n => n.attached.contains p
    | none => false)

/-- Set TLER of namespaces: feature 05h is of namespace scope. -/
def Dev.setTler (d : Dev) (ns : List Nat) (tler : Nat) : Dev :=
  { d with host := { d.host with tler := ns.foldl (fun m n => AMap.set 0 n tler m) d.host.tler } }

/-- SET_ERROR_RECOVERY (R79): TLER of one namespace, or of every attached one. -/
def setErrorRecovery (c : NCmd) (save : Bool) (tler : Nat) (dulbe : Bool) (d : Dev) : Dev :=
  d.setFeature c save false false true (fun e =>
    let p := c.id.plot
    if dulbe then e.done c.id .invalidField
    else if c.nsid = 0xFFFFFFFF then
      let mine := (e.md.nss.filter (fun n => n.attached.contains p)).map (fun n => n.nsid)
      (e.setTler mine tler).done c.id .success
    else if ¬e.attached c.nsid p ∨ (e.ns? c.nsid).isNone then e.done c.id .invalidNamespaceOrFormat
    else (e.setTler [c.nsid] tler).done c.id .success)

def execSetErrorRecovery (c : NCmd) (save : Bool) (tler : Nat) (dulbe : Bool) := run (setErrorRecovery c save tler dulbe)

/-- SET_NUMBER_OF_QUEUES (R79): `nsq` and `ncq` are 0's based; the completion carries what is granted, 0's based too. -/
def setNumberOfQueues (c : NCmd) (save : Bool) (nsq ncq : Nat) (d : Dev) : Dev :=
  d.setFeature c save false false true (fun e =>
    let p := c.id.plot
    let m := e.f (F.PLOT_QV_QMAX p)
    if (e.ctrl p).sqs.any (fun q => q.qid != 0) || (e.ctrl p).cqs.any (fun q => q.qid != 0) then
      e.done c.id .commandSequenceError
    else if nsq = 65535 ∨ ncq = 65535 then e.done c.id .invalidField
    else
      let s := min (nsq + 1) m
      let q := min (ncq + 1) m
      (e.setFeat p false (fun f => { f with nsq := s, ncq := q })).complete c.id .success ((s - 1) + 65536 * (q - 1)) 0)

def execSetNumberOfQueues (c : NCmd) (save : Bool) (nsq ncq : Nat) := run (setNumberOfQueues c save nsq ncq)

/-- SET_INTERRUPT_COALESCING (R79): `thr` completions, `time` in 100 us units. -/
def setInterruptCoalescing (c : NCmd) (save : Bool) (thr time : Nat) (d : Dev) : Dev :=
  d.setFeature c save false false true (fun e =>
    (e.setFeat c.id.plot false (fun f => { f with coalThr := thr, coalTime := time })).done c.id .success)

def execSetInterruptCoalescing (c : NCmd) (save : Bool) (thr time : Nat) := run (setInterruptCoalescing c save thr time)

/-- SET_INTERRUPT_VECTOR_CONFIG (R79): coalescing disable of one vector. -/
def setInterruptVectorConfig (c : NCmd) (save : Bool) (vec : Nat) (cd : Bool) (d : Dev) : Dev :=
  d.setFeature c save false false true (fun e =>
    if e.f (F.PLOT_QV_VMAX c.id.plot) ≤ vec then e.done c.id .invalidField
    else
      (e.setFeat c.id.plot false (fun f => { f with vecCd := if cd then NSet.add vec f.vecCd else NSet.del vec f.vecCd })).done
        c.id .success)

def execSetInterruptVectorConfig (c : NCmd) (save : Bool) (vec : Nat) (cd : Bool) := run (setInterruptVectorConfig c save vec cd)

/-- SET_WRITE_ATOMICITY (R78, R79): DN. The atomic scope does not change with it. -/
def setWriteAtomicity (c : NCmd) (save : Bool) (dn : Nat) (d : Dev) : Dev :=
  d.setFeature c save false false true (fun e =>
    (e.setFeat c.id.plot false (fun f => { f with dn := dn % 2 })).done c.id .success)

def execSetWriteAtomicity (c : NCmd) (save : Bool) (dn : Nat) := run (setWriteAtomicity c save dn)

/-- SET_ASYNC_EVENT_CONFIG (R79, R82). -/
def setAsyncEventConfig (c : NCmd) (save : Bool) (v : Nat) (d : Dev) : Dev :=
  d.setFeature c save false false true (fun e =>
    (e.setFeat c.id.plot false (fun f => { f with asyncCfg := v % 2 ^ 32 })).done c.id .success)

def execSetAsyncEventConfig (c : NCmd) (save : Bool) (v : Nat) := run (setAsyncEventConfig c save v)

/-- SET_AUTONOMOUS_PST (R79, R50): the table as (state, idle time, target), a target being a non-operational state. -/
def setAutonomousPst (c : NCmd) (save on : Bool) (table : List (Nat × Nat × Nat)) (d : Dev) : Dev :=
  d.setFeature c save true false true (fun e0 => e0.withPrp c 256 false (fun e =>
    if table.any (fun x => decide (4 < x.1) || !(x.2.2 == 0 || x.2.2 == 3 || x.2.2 == 4)) then e.done c.id .invalidField
    else
      (e.setFeat c.id.plot save (fun f => { f with apst := on, apstTable := table })).done c.id .success))

def execSetAutonomousPst (c : NCmd) (save on : Bool) (table : List (Nat × Nat × Nat)) := run (setAutonomousPst c save on table)

/-- SET_TIMESTAMP (R457): the controller's own timestamp; that of plot 0 is the device timestamp. -/
def setTimestamp (c : NCmd) (save : Bool) (t : Nat) (d : Dev) : Dev :=
  d.setFeature c save false false true (fun e0 => e0.withPrp c 8 false (fun e =>
    (e.setFeat c.id.plot false (fun f => { f with tsBase := t % 2 ^ 48, tsAt := e.now })).done c.id .success))

def execSetTimestamp (c : NCmd) (save : Bool) (t : Nat) := run (setTimestamp c save t)

/-- SET_HOST_THERMAL_MGMT (R79, R446): TMT1 below TMT2 where both are non-zero. -/
def setHostThermalMgmt (c : NCmd) (save : Bool) (t1 t2 : Nat) (d : Dev) : Dev :=
  d.setFeature c save true false true (fun e =>
    if t1 ≠ 0 ∧ t2 ≠ 0 ∧ t2 ≤ t1 then e.done c.id .invalidField
    else ((e.setFeat c.id.plot save (fun f => { f with tmt1 := t1, tmt2 := t2 })).throttle).done c.id .success)

def execSetHostThermalMgmt (c : NCmd) (save : Bool) (t1 t2 : Nat) := run (setHostThermalMgmt c save t1 t2)

/-- SET_VOLATILE_WRITE_CACHE (R72): there is no volatile write cache. -/
def setVolatileWriteCache (c : NCmd) (d : Dev) : Dev :=
  d.admin c false false true (fun e => e.done c.id .invalidField)

def execSetVolatileWriteCache (c : NCmd) := run (setVolatileWriteCache c)

/-- A write of T_MAX, as TOP_TMAX takes it: 1 to 60 seconds. -/
def Dev.setTmax (d : Dev) (v : Nat) : Dev := if 1 ≤ v ∧ v ≤ 60 then d.setF F.TOP_TMAX_SECONDS v else d

/-- SET_COMMAND_BOUND (R79): the value has the same effect and limits as a write of TOP_TMAX. -/
def setCommandBound (c : NCmd) (save : Bool) (v : Nat) (d : Dev) : Dev :=
  d.setFeature c save true true false (fun e =>
    let w := v % 64
    let e1 := e.setTmax w
    let e2 := if save ∧ 1 ≤ w ∧ w ≤ 60 then { e1 with nv := { e1.nv with savedTmax := some w } } else e1
    e2.done c.id .success)

def execSetCommandBound (c : NCmd) (save : Bool) (v : Nat) := run (setCommandBound c save v)

/-- Put an early-warning set and its thresholds in force; a condition that is true when its bit becomes enabled warns at once
(R159, R160). -/
def Dev.putEw (d : Dev) (set_ ew crit wear : Nat) : Dev :=
  let was := d.f F.MAPW_EWSET_SET
  let d1 := ((((d.setF F.MAPW_EWSET_SET (was &&& set_)).setF F.MAPW_SPARE_EWPCT ew).setF F.MAPW_SPARE_CRITPCT crit).setF
    F.MAPW_SPARE_WEARPCT wear).spareCheck
  (List.range 18).foldl (fun (e : Dev) b =>
    if bit set_ b && !bit was b && bit (e.f F.MAPW_EWACT_ACT) b then e.ewReport b else e) (d1.setF F.MAPW_EWSET_SET set_)

/-- SET_EARLY_WARNING (R159): a value out of range completes with C7h. -/
def setEarlyWarning (c : NCmd) (save : Bool) (set_ ew crit wear : Nat) (zeros : Bool) (d : Dev) : Dev :=
  d.setFeature c save true true false (fun e0 => e0.withPrp c 16 false (fun e =>
    if 2 ^ 18 ≤ set_ ∨ ew < 1 ∨ 100 < ew ∨ 99 < crit ∨ ew ≤ crit ∨ wear < 1 ∨ 255 < wear ∨ ¬zeros then
      e.complete c.id (.vendor 0xC7) 0 0
    else
      let e1 := e.putEw set_ ew crit wear
      let e2 := if save then { e1 with nv := { e1.nv with savedEw := some (set_, ew, crit, wear) } } else e1
      e2.done c.id .success))

def execSetEarlyWarning (c : NCmd) (save : Bool) (set_ ew crit wear : Nat) (zeros : Bool) :=
  run (setEarlyWarning c save set_ ew crit wear zeros)

/-- SET_VENDOR_EVENT_NOTICES (R84): bit n of feature C2h enables vendor asynchronous event n. -/
def setVendorEventNotices (c : NCmd) (save : Bool) (v : Nat) (d : Dev) : Dev :=
  d.setFeature c save false false false (fun e =>
    (e.setFeat c.id.plot false (fun f => { f with vendorNotices := v % 64 })).done c.id .success)

def execSetVendorEventNotices (c : NCmd) (save : Bool) (v : Nat) := run (setVendorEventNotices c save v)

/-! ### Get Features -/

/-- The value of a feature for a controller as Dword 0, with what its data structure holds as (offset, value): `none` for a
Feature Identifier that R79 does not list. `sel` is SEL, `cdw11` the Dword 11 that selects a threshold or a vector. -/
def Dev.featureOf (d : Dev) (f : Features) (p fid nsid sel cdw11 : Nat) : Option (Nat × List (Nat × Nat)) :=
  if fid = 0x01 then some (f.ab + 256 * f.lpw + 65536 * f.mpw + 2 ^ 24 * f.hpw, [])
  else if fid = 0x02 then some (f.ps, [])
  else if fid = 0x04 then some (if bits cdw11 20 2 = 0 then f.tempOver else f.tempUnder, [])
  else if fid = 0x05 then some (if sel = 0 then AMap.get 0 nsid d.host.tler else 0, [])
  else if fid = 0x07 then
    let m := d.f (F.PLOT_QV_QMAX p)
    let s := if f.nsq = 0 then m else f.nsq
    let q := if f.ncq = 0 then m else f.ncq
    some ((s - 1) + 65536 * (q - 1), [])
  else if fid = 0x08 then some (f.coalThr + 256 * f.coalTime, [])
  else if fid = 0x09 then some (cdw11 % 65536 + 65536 * Bool.nat (f.vecCd.contains (cdw11 % 65536)), [])
  else if fid = 0x0A then some (f.dn, [])
  else if fid = 0x0B then some (f.asyncCfg, [])
  else if fid = 0x0C then some (Bool.nat f.apst, f.apstTable.map (fun x => (8 * x.1, 8 * x.2.2 + 256 * x.2.1)))
  else if fid = 0x0E then some (0, [(0, d.timestamp p)])
  else if fid = 0x10 then some (f.tmt2 + 65536 * f.tmt1, [])
  else if fid = 0xC2 then some (f.vendorNotices, [])
  else none

/-- The value of a device feature, C0h or C1h: in force, the default, or saved. -/
def Dev.deviceFeature (d : Dev) (fid sel : Nat) : Option (Nat × List (Nat × Nat)) :=
  let page (x : Nat × Nat × Nat × Nat) : Nat × List (Nat × Nat) := (0, [(0, x.1), (8, x.2.1), (9, x.2.2.1), (10, x.2.2.2)])
  let deflt : Nat × Nat × Nat × Nat := match d.boot.stream.bind (fun s => s.media) with
    | some m => (m.ewSet, m.ewPct, m.critPct, m.wearPct)
    | none => (0, 10, 2, 90)
  let now : Nat × Nat × Nat × Nat :=
    (d.f F.MAPW_EWSET_SET, d.f F.MAPW_SPARE_EWPCT, d.f F.MAPW_SPARE_CRITPCT, d.f F.MAPW_SPARE_WEARPCT)
  if fid = 0xC0 then some (if sel = 1 then 8 else if sel = 2 then d.nv.savedTmax.getD 8 else d.f F.TOP_TMAX_SECONDS, [])
  else if fid = 0xC1 then some (page (if sel = 1 then deflt else if sel = 2 then d.nv.savedEw.getD deflt else now))
  else none

/-- The bytes of a feature's data structure (C1h: R159; the others as NVMe 2.1 has them). -/
def featureBytes (fid : Nat) : Nat := if fid = 0x0C then 256 else if fid = 0x0E then 8 else if fid = 0xC1 then 16 else 0

/-- Which features save (R79). -/
def featureSaves (fid : Nat) : Bool := [0x01, 0x04, 0x0C, 0x10, 0xC0, 0xC1].contains fid

/-- GET_FEATURES (R79): SEL `sel` 0 current, 1 default, 2 saved, 3 capabilities (bit 0 saveable, bit 1 per namespace, bit 2
changeable); `cdw11` selects the threshold or vector. -/
def getFeatures (c : NCmd) (fid sel cdw11 : Nat) (d : Dev) : Dev :=
  d.admin c false true true (fun e =>
    let p := c.id.plot
    let dev := fid == 0xC0 || fid == 0xC1
    let f := if sel = 1 then Features.default
      else if sel = 2 then
        (if featureSaves fid then AMap.get Features.default p e.nv.saved else Features.default)
      else (e.ctrl p).feat
    let v := if dev then (if p = 0 then e.deviceFeature fid sel else none) else e.featureOf f p fid c.nsid sel cdw11
    match v with
    | none => e.done c.id .invalidField
    | some (dw, page) =>
      if 3 < sel then e.done c.id .invalidField
      else if sel = 3 then e.complete c.id .success (Bool.nat (featureSaves fid) + 2 * Bool.nat (fid == 0x05) + 4) 0
      else if fid = 0x05 ∧ (¬e.attached c.nsid p ∨ (e.ns? c.nsid).isNone) then e.done c.id .invalidNamespaceOrFormat
      else
        e.withPrp c (featureBytes fid) true (fun x =>
          (if page.isEmpty then x else x.send (.feature p fid page)).complete c.id .success dw 0))

def execGetFeatures (c : NCmd) (fid sel cdw11 : Nat) := run (getFeatures c fid sel cdw11)

/-- AUTONOMOUS_POWER_STATE_TRANSITION (R51, R50): the idle time of the controller's autonomous transition from its requested
state passes, and its request becomes the target of that entry. None is made in SAFE. -/
def autonomousPowerStateTransition (p : Nat) (d : Dev) : Dev :=
  let c := d.ctrl p
  match AMap.find c.feat.ps c.feat.apstTable with
  | none => d
  | some (idle, target) =>
    if ¬c.en ∨ ¬c.feat.apst ∨ idle = 0 ∨ target = 0 ∨ ¬d.psAllowed p ∨ d.f F.TOP_MODE_MODE = 1 then d
    else (d.setCtrl p { c with feat := { c.feat with ps := target } }).powerCombine

def execAutonomousPowerStateTransition (p : Nat) := run (autonomousPowerStateTransition p)

end Sys2Proof.Machine
end

