-- ==== Sys2Proof/Machine/Loader.lean ====
section
/-! DEFINITION. The stream loader (chapter 16): the verification of signed objects (R381), the checks of R387 and the
registers that a stream sets (R383 step 6). -/

namespace Sys2Proof.Machine

/-- A refusal of R387: the check code, the TYPE and INST of the section it concerns (TYPE 0 for the header), the failing
item. -/
structure LoadFail where
  code : Nat
  ty : Nat
  inst : Nat
  item : Nat
  deriving DecidableEq, Repr

/-- The first failing check of a list, each given as (passes, refusal). -/
def firstFail (l : List (Bool × LoadFail)) : Option LoadFail := (l.find? (fun x => !x.1)).map Prod.snd

/-- A check over numbered items: the refusal names the first that fails. -/
def eachItem (code ty inst : Nat) (items : List Nat) (ok : Nat → Bool) : Bool × LoadFail :=
  match items.find? (fun i => !ok i) with
  | none => (true, ⟨code, ty, inst, 0⟩)
  | some i => (false, ⟨code, ty, inst, i⟩)

/-! ### Signed objects (R381) -/

/-- Condition 2 to 4 of R381 for the image-key slots that serve the object's kind. -/
def Dev.signedOk (d : Dev) (h : ObjHdr) (firmware : Bool) : Bool :=
  (if firmware then decide (h.keySlot < 2) else decide (h.keySlot = 2 ∨ h.keySlot = 3)) &&
  bit d.fuses.burned h.keySlot && !bit d.fuses.revoked h.keySlot &&
  AMap.find h.keySlot d.fuses.imgKeys == some h.pubHash && h.sigOk && h.hashOk

/-- The TARGET bit of a part code (R1). -/
def targetBit (part : Nat) : Nat := if part = 0x7840 then 0 else if part = 0x7830 then 1 else 2

/-- Condition 5 of R381. -/
def Dev.targetOk (d : Dev) (h : ObjHdr) : Bool := bit h.target (targetBit d.fuses.part) && (h.step == 0xB0 || h.step == 0xFF)

/-- Firmware under R381, with the anti-rollback counter. -/
def Dev.firmwareOk (d : Dev) (h : ObjHdr) : Bool :=
  h.wellFormed && d.signedOk h true && d.targetOk h && decide (d.fuses.svnFw ≤ h.svn ∧ h.svn ≤ 64)

/-! ### The checks of a stream (R387) -/

/-- The quadrants and channels a stream's UNITS declares. -/
def Stream.quads (x : Stream) : List Nat := (List.range 4).filter (fun q => bit ((x.units.map Prod.fst).getD 0) q)
def Stream.chanIn (x : Stream) (c : Nat) : Bool :=
  bit ((x.units.map Prod.fst).getD 0) (c / 8) && bit ((x.units.map Prod.snd).getD 0) c

/-- The sections a stream must hold: one of each required TYPE, and TRELLIS for each quadrant of the mask. -/
def requiredSections : List Nat := [1, 2, 3, 4, 5, 7, 8, 9, 0xA, 0xB, 0xC, 0xD]

def Stream.has (x : Stream) (ty : Nat) : Bool := x.order.any (fun s => s.1 == ty)

/-- Check 0x05. -/
def Stream.sectionsOk (x : Stream) : Option LoadFail :=
  let once (ty : Nat) : Bool := decide ((x.order.filter (fun s => s.1 == ty)).length ≤ 1)
  firstFail
    [(x.order.all (fun s => decide (1 ≤ s.1 ∧ s.1 ≤ 0xF)), ⟨0x05, ((x.order.find? (fun s => !decide (1 ≤ s.1 ∧ s.1 ≤ 0xF))).getD (0, 0)).1, 0xFF, 0⟩),
     eachItem 0x05 0 0 [1, 2, 3, 4, 5, 7, 8, 9, 0xA, 0xB, 0xD, 0xE, 0xF] once,
     (x.order.eraseDups.length == x.order.length, ⟨0x05, 6, 0xFF, 0⟩),
     (requiredSections.all x.has && x.ident.isSome && x.units.isSome && x.media.isSome, ⟨0x05, 0, 0, 0⟩),
     eachItem 0x05 0 0 x.quads (fun q => x.order.contains (0xC, q) && (AMap.find q x.segments).isSome),
     eachItem 0x05 0xC 0 (List.range 4) (fun q => x.quads.contains q || !x.order.contains (0xC, q))]

/-- Check 0x07: the limits of R133, and at least four codewords in a 16 KiB page (R121). -/
def Stream.profilesOk (x : Stream) : Option LoadFail :=
  let fits (c : ChanEnt) : Bool :=
    match x.dieProfs[c.profile]? with
    | none => c.dies.isEmpty
    | some p => c.dies.isEmpty || decide (4 * (p.page / 16384) ≤ (p.page + p.spare) / cwBytes c.parity) && decide ((p.page + p.spare) / cwBytes c.parity ≤ 8)
  firstFail
    [(decide (x.dieProfs.length ≤ 8), ⟨0x07, 4, 0xFF, 0⟩),
     eachItem 0x07 4 0xFF (List.range x.dieProfs.length) (fun i =>
       match x.dieProfs[i]? with
       | none => true
       | some p => decide (p.blocks ≤ 8192 ∧ p.pages ≤ 2048 ∧ p.page * p.pages * p.blocks ≤ 2 ^ 38)),
     eachItem 0x07 5 0xFF (List.range 32) (fun c =>
       match x.chans[c]? with
       | none => true
       | some e => decide (e.parity ≤ 6) && fits e)]

/-- The bytes of a declared die. -/
def DieProf.bytes (p : DieProf) : Nat := p.page * p.pages * p.blocks

/-- The raw capacity of the channels in the mask (R114). -/
def Stream.raw (x : Stream) : Nat :=
  (((List.range 32).filter x.chanIn).map (fun c =>
    match x.chans[c]? with
    | none => 0
    | some e => e.dies.length * ((x.dieProfs[e.profile]?).map DieProf.bytes).getD 0)).sum

/-- Check 0x08. -/
def Stream.chansOk (x : Stream) : Option LoadFail :=
  firstFail
    [eachItem 0x08 5 0xFF (List.range 32) (fun c =>
       match x.chans[c]? with
       | none => true
       | some e => decide (1 ≤ e.rateMax ∧ e.rateMax ≤ 6 ∧ e.iface ≤ 1) && e.dies.all (fun l => decide (l < 64)) &&
           (e.dies.eraseDups.length == e.dies.length) && (e.dies.isEmpty || decide (e.profile < x.dieProfs.length))),
     (decide (x.raw ≤ 512 * 2 ^ 40), ⟨0x08, 5, 0xFF, 0⟩)]

/-- Check 0x09: the die groups of R161. -/
def Stream.groupsOk (x : Stream) : Option LoadFail :=
  let prof (die : Nat) : Option Nat := (x.chans[dieChan die]?).map ChanEnt.profile
  let declared (die : Nat) : Bool := ((x.chans[dieChan die]?).map (fun e => e.dies.contains (dieLocal die))).getD false
  let all := x.groups.flatMap GroupEnt.members
  firstFail
    [(decide (1 ≤ x.groups.length ∧ x.groups.length ≤ 128), ⟨0x09, 7, 0xFF, 0⟩),
     eachItem 0x09 7 0xFF (List.range x.groups.length) (fun g =>
       match x.groups[g]? with
       | none => true
       | some e =>
         decide (e.geom ≤ 2) && (e.members.length == geomN e.geom) &&
         ((e.members.map dieChan).eraseDups.length == e.members.length) &&
         e.members.all (fun m => decide (m < 2048) && declared m && prof m == prof (e.members.headD 0)) &&
         e.members.all (fun m => decide ((all.filter (fun n => n == m)).length ≤ 1)))]

/-- Check 0x0A: the ranges of R136 and R159. -/
def MediaSec.ok (m : MediaSec) : Bool :=
  decide (7 ≤ m.op ∧ m.op ≤ 40 ∧ 1 ≤ m.ewPct ∧ m.ewPct ≤ 100 ∧ m.critPct ≤ 99 ∧ m.critPct < m.ewPct ∧ 1 ≤ m.wearPct ∧
    m.wearPct ≤ 255 ∧ m.ewSet < 2 ^ 18)

/-- The capacity in GiB that a DRAM profile gives a channel (R356): 16 Gb devices as 32 GiB (x4) or 16 GiB (x8) a rank. -/
def DramEnt.gib (e : DramEnt) : Nat :=
  (if e.width = 0 then 32 else 16) * ([2, 3, 4].getD e.density 0) / 2 * (e.ranks + 1)

/-- Check 0x0B. -/
def Stream.dramOk (x : Stream) : Option LoadFail :=
  let first := (x.dram.head?).map Prod.snd
  firstFail
    [eachItem 0x0B 9 0xFF x.quads (fun q =>
       match AMap.find q x.dram with
       | none => false
       | some e => decide (e.width ≤ 1 ∧ e.density ≤ 2 ∧ e.ranks ≤ 1 ∧ e.rateA ≤ 4 ∧ e.rateB ≤ 4 ∧ e.gib ≤ 64) &&
           (match first with
             | none => false
             | some f => decide ((f.width, f.density, f.ranks, f.rateA, f.rateB) = (e.width, e.density, e.ranks, e.rateA, e.rateB))))]

/-- Check 0x0C: R374. -/
def Stream.poolsOk (x : Stream) : Option LoadFail :=
  let store := ((x.pools.filter (fun p => p.en && p.loc == 1)).map (fun p => p.count * (2 ^ p.size + 6))).sum
  firstFail
    [(x.pools.length == 16, ⟨0x0C, 0xA, 0xFF, 0⟩),
     eachItem 0x0C 0xA 0xFF (List.range 16) (fun n =>
       match x.pools[n]? with
       | none => true
       | some p =>
         !p.en ||
         (decide (9 ≤ p.size ∧ p.size ≤ 20 ∧ 1 ≤ p.count ∧ p.count ≤ 0x0FFFFFFF ∧ p.base % 2 ^ p.size = 0 ∧ p.floor ≤ p.count ∧ p.loc ≤ 1) &&
          (!p.fben || (match x.pools[p.fallback]? with
            | none => false
            | some f => f.en && decide (p.size < f.size))))),
     (decide (store ≤ 32 * 2 ^ 20), ⟨0x0C, 0xA, 0xFF, 0⟩)]

/-- Check 0x0D: the response floors. -/
def Stream.floorsOk (x : Stream) : Option LoadFail :=
  firstFail [eachItem 0x0D 0xA 0xFF (List.range 16) (fun n =>
    decide (((x.reqs.filter (fun r => r.response && r.first == n)).map ReqEnt.most).sum ≤ ((x.pools[n]?).map PoolEnt.floor).getD 0))]

/-- The entry of a plot. -/
def Stream.plot? (x : Stream) (n : Nat) : Option PlotEnt := x.plots.find? (fun p => p.plot == n)

/-- The GiB of DRAM that UNITS and DRAM declare, the map region on it, and the SLM pool in 16 MiB units (R69, R95). -/
def Stream.gib (x : Stream) : Nat := (x.quads.map (fun q => ((AMap.find q x.dram).map DramEnt.gib).getD 0)).sum
def Stream.mapRegion (x : Stream) : Nat := min (min 240 (x.gib - 16)) ((x.media.map MediaSec.mapLimit).getD 240)
def Stream.slmPool (x : Stream) : Nat := (x.gib - x.mapRegion - 4) * 64

/-- Check 0x0E: the ranges and totals of R87 over the enabled plots. -/
def Stream.plotsOk (x : Stream) : Option LoadFail :=
  let on := x.plots.filter (fun p => p.en || p.plot == 0)
  let sum (f : PlotEnt → Nat) : Nat := (on.map f).sum
  firstFail
    [(decide (1 ≤ x.maxPlots ∧ x.maxPlots ≤ 512), ⟨0x0E, 0xB, 0xFF, 0⟩),
     ((x.plots.map PlotEnt.plot).eraseDups.length == x.plots.length, ⟨0x0E, 0xB, 0xFF, 0⟩),
     eachItem 0x0E 0xB 0xFF (x.plots.map PlotEnt.plot) (fun n =>
       match x.plot? n with
       | none => true
       | some p =>
         decide (n < x.maxPlots ∧ p.qmax ≤ 256 ∧ 1 ≤ p.vmax ∧ p.vmax ≤ vecMax n ∧ 1 ≤ p.weight ∧ p.weight ≤ 255 ∧ p.oshare ≤ 65536 ∧
           (n = 0 → 64 ≤ p.oshare) ∧ 1 ≤ p.fcWeight ∧ p.fcWeight ≤ 255 ∧ p.fcCap ≤ 24) &&
         p.ewt.all (fun w => decide (w ≤ 255)) && p.ecap.all (fun w => decide (w ≤ 64))),
     ((x.plot? 0).isSome, ⟨0x0E, 0xB, 0xFF, 0⟩),
     (decide (sum PlotEnt.qmax ≤ 8192 ∧ sum PlotEnt.vmax ≤ 32768 ∧ sum PlotEnt.oshare ≤ 65536), ⟨0x0E, 0xB, 0xFF, 0⟩),
     (decide (sum PlotEnt.slm ≤ x.slmPool), ⟨0x0E, 0xB, 0xFF, 0⟩)]

/-! ### Trellis segments (R208, R209) -/

/-- How many instances of each node type a quadrant has (R207). -/
def nodeInsts (ty : Nat) : Nat := [0, 8, 4, 8, 1, 1, 1, 1, 1, 6, 6, 4, 1, 1, 1].getD ty 0

/-- May the chain begin, end with this type (R209)? -/
def isSource (ty : Nat) : Bool := ty == 1 || ty == 2 || ty == 0xA || ty == 0xE

/-- The node types of a template in order. -/
def Template.types (t : Template) : List Nat := (List.range (tplStages t.words)).map (stageTy t.words)

/-- Does the chain leave the quadrant? -/
def Template.crosses (t : Template) : Bool := t.types.contains 0xD

/-- The layout of R208: zero bytes, stages, credits, instances, CRC. -/
def Template.layoutOk (t : Template) : Bool :=
  let w := t.words
  let n := tplStages w
  (w.length == 16) && decide (t.pid < 64 ∧ bits (w.getD 0 0) 0 8 = t.pid ∧ 2 ≤ n ∧ n ≤ 8 ∧ bits (w.getD 0 0) 17 7 = 0 ∧ tplUrgMax w ≤ 3 ∧ w.getD 1 0 = 0) &&
  (List.range 8).all (fun i =>
    if i < n then
      decide (1 ≤ stageTy w i ∧ stageTy w i ≤ 0xE) && (stageInst w i == 0xF || decide (stageInst w i < nodeInsts (stageTy w i))) &&
      (bits (w.getD (2 + i) 0) 12 4 == 0) && (bits (w.getD (2 + i) 0) 22 10 == 0) &&
      (if i + 1 = n then stageCred w i == 0 else decide (1 ≤ stageCred w i ∧ stageCred w i ≤ 32))
    else w.getD (2 + i) 0 == 0) &&
  (List.range 5).all (fun i => w.getD (10 + i) 0 == 0) &&
  (w.getD 15 0 == crc32c ((w.take 15).flatMap (leBytes 4)))

/-- Checks 1 to 4 and 6 of R209 for one template of quadrant `q`'s segment, among the segments of all quadrants. -/
def templateOk (segs : List (Nat × Segment)) (q : Nat) (s : Segment) (t : Template) : Bool :=
  t.layoutOk &&
  (List.range (t.types.length - 1)).all (fun i => bit (s.edges.getD (t.types.getD i 0) 0) (t.types.getD (i + 1) 0)) &&
  isSource (t.types.headD 0) && isSink (t.types.getLastD 0) &&
  (t.types.eraseDups.length == t.types.length) &&
  (!t.crosses || segs.any (fun r => r.1 != q && r.2.templates.any (fun u => u.types.contains 0xE)))

/-- The edge matrix and the order of templates (R456). -/
def Segment.shapeOk (s : Segment) : Bool :=
  (s.edges.length == 16) && decide (s.segver < 65536 ∧ s.templates.length ≤ 64) &&
  (List.range 16).all (fun t => !bit (s.edges.getD t 0) 0 && !bit (s.edges.getD t 0) 15 && ((t != 0 && t != 15) || s.edges.getD t 0 == 0)) &&
  decide ((s.templates.map Template.pid).Pairwise (fun a b => a < b))

/-- The credits that can reach the input of instance `i` of type `ty` (R209 check 5). -/
def Segment.creditIn (s : Segment) (ty i : Nat) : Nat :=
  (s.templates.map (fun t => ((List.range (tplStages t.words)).map (fun j =>
    if j ≠ 0 ∧ stageTy t.words j = ty ∧ (stageInst t.words j = i ∨ stageInst t.words j = 0xF) then stageCred t.words (j - 1) else 0)).sum)).sum

/-- Checks 0x0F and 0x10 over the segments of every quadrant together. -/
def segmentsOk (segs : List (Nat × Segment)) : Option LoadFail :=
  firstFail
    (segs.flatMap (fun r =>
        [(r.2.shapeOk, ⟨0x0F, 0xC, r.1, 0⟩),
         eachItem 0x0F 0xC r.1 (r.2.templates.map Template.pid) (fun p =>
           match r.2.tpl? p with
           | none => true
           | some t => templateOk segs r.1 r.2 t)]) ++
     segs.map (fun r =>
       eachItem 0x10 0xC r.1 (r.2.templates.map Template.pid) (fun p =>
         match r.2.tpl? p with
         | none => true
         | some t => (List.range (tplStages t.words)).all (fun j =>
             j == 0 || (List.range (nodeInsts (stageTy t.words j))).all (fun i =>
               (stageInst t.words j != i && stageInst t.words j != 0xF) || decide (r.2.creditIn (stageTy t.words j) i ≤ 64))))))

/-! ### Routes, the roster, keys -/

/-- The fields of an EVT_ROUTE word (R402): HOST, CORE, PLOT, VEC, CQ, CK, LINE. -/
def routeHost (w : Nat) : Bool := bit w 0
def routeCore (w : Nat) : Bool := bit w 1
def routePlot (w : Nat) : Nat := bits w 2 9
def routeVec (w : Nat) : Nat := bits w 11 12
def routeCq (w : Nat) : Nat := bits w 23 2

/-- May a route name this line: on a field core only lines 4 to 7 (R404; that a route with another is refused like one of check 0x11 is
DEDUCED, assumption 182)? -/
def routeLineOk (w : Nat) : Bool := decide (6 ≤ bits w 25 3 ∨ 4 ≤ bits w 28 3)

/-- The roster's members that are not retired reach one another through direct links (R188, R189). -/
def Roster.reach (r : Roster) : List Nat :=
  let live := (r.members.map Prod.fst).filter (fun m => !bit r.retired m)
  (List.range 8).foldl (fun (a : List Nat) _ =>
    (live.filter (fun m => a.contains m || [1, 2, 4, 7].any (fun k => a.contains (Nat.xor m k))))) (live.take 1)

/-- Checks 0x01 to 0x04: the header, the signature, anti-rollback, the target and the quadrants UNITS names. -/
def Dev.streamHeadFail (d : Dev) (x : Stream) : Option LoadFail :=
  let absent := (List.range 4).any (fun q => bit ((x.units.map Prod.fst).getD 0) q && bit d.fuses.qfused q)
  firstFail
    [(x.hdr.wellFormed, ⟨0x01, 0, 0, 0⟩), (d.signedOk x.hdr false, ⟨0x02, 0, 0, 0⟩),
     (decide (d.fuses.svnStream ≤ x.hdr.svn ∧ x.hdr.svn ≤ 64), ⟨0x03, 0, 0, 0⟩), (d.targetOk x.hdr, ⟨0x04, 0, 0, 0⟩),
     (!absent, ⟨0x04, 2, 0xFF, 0⟩)]

/-- Check 0x06. -/
def Stream.clocksOk (x : Stream) : Option LoadFail :=
  firstFail [(x.clocks.all (fun c => decide (1000 ≤ c ∧ c ≤ 2000 ∧ c % 100 = 0)), ⟨0x06, 3, 0xFF, 0⟩)]

/-- Check 0x0A. -/
def Stream.mediaOk (x : Stream) : Option LoadFail := firstFail [((x.media.map MediaSec.ok).getD false, ⟨0x0A, 8, 0xFF, 0⟩)]

/-- Check 0x11 for one route (R402): a plot beyond MAXPLOTS, a vector beyond its allotment, or an absent core, in a route
that uses it. -/
def Stream.routeOk (x : Stream) (w : Nat) : Bool :=
  (!routeHost w || (decide (routePlot w < x.maxPlots) && decide (routeVec w < ((x.plot? (routePlot w)).map PlotEnt.vmax).getD 0))) &&
  (!routeCore w || (x.quads.contains (routeCq w) && routeLineOk w))

def Stream.routesOk (x : Stream) : Option LoadFail :=
  firstFail [eachItem 0x11 0xD 0xFF (List.range 512) (fun n => x.routeOk (x.routes.getD n 0))]

/-- Check 0x12. -/
def Stream.rosterOk (x : Stream) : Option LoadFail :=
  match x.roster with
  | none => none
  | some r =>
    firstFail [eachItem 0x12 0xE 0xFF ((r.members.map Prod.fst).filter (fun m => !bit r.retired m)) (fun m => r.reach.contains m)]

/-- Check 0x13. -/
def Stream.keysOk (x : Stream) : Option LoadFail :=
  firstFail [eachItem 0x13 0xF 0xFF (List.range x.progKeys.length) (fun i => ((x.progKeys[i]?).map Prod.snd).getD true)]

/-- The first check of R387 that a stream fails, on this part. -/
def Dev.streamFail (d : Dev) (x : Stream) : Option LoadFail :=
  [d.streamHeadFail x, x.sectionsOk, x.clocksOk, x.profilesOk, x.chansOk, x.groupsOk, x.mediaOk, x.dramOk, x.poolsOk,
   x.floorsOk, x.plotsOk, segmentsOk (x.segments.filter (fun s => x.quads.contains s.1)), x.routesOk, x.rosterOk,
   x.keysOk].findSome? id

/-- The position of a section in an object, 0 where the refusal concerns no section that is there. -/
def sectionPos (order : List (Nat × Nat)) (f : LoadFail) : Nat :=
  (order.findIdx? (fun s => s.1 == f.ty && (f.inst == 0xFF || f.ty != 0xC || s.2 == f.inst))).getD 0

/-- Dword 0 of R387. -/
def failDword (order : List (Nat × Nat)) (f : LoadFail) : Nat := f.code + 256 * (sectionPos order f % 256) + 65536 * f.item

/-- Record a loader refusal in BRZ_STAT. -/
def Dev.brzRecord (d : Dev) (order : List (Nat × Nat)) (f : LoadFail) : Dev :=
  (((d.setF F.BRZ_STAT_CODE f.code).setF F.BRZ_STAT_SECTION (sectionPos order f)).setF F.BRZ_STAT_ITEM f.item).setF F.BRZ_STAT_VALID 1

/-! ### Grafts (R388) -/

/-- The segment in force in each quadrant in service. -/
def Dev.segsNow (d : Dev) : List (Nat × Segment) := d.quads.filterMap (fun q => (d.seg? q).map (fun s => (q, s)))

/-- The first check that a graft fails. -/
def Dev.graftFail (d : Dev) (g : Graft) : Option LoadFail :=
  let hdr (c : Nat) : LoadFail := ⟨c, 0, 0, 0⟩
  let segs := match g.seg with
    | none => d.segsNow
    | some s => d.segsNow.map (fun r => if r.1 = g.quad then (r.1, s) else r)
  let segver := ((d.seg? g.quad).map Segment.segver).getD 0
  ((firstFail [(g.hdr.wellFormed, hdr 0x01), (d.signedOk g.hdr false, hdr 0x02), (d.targetOk g.hdr, hdr 0x04),
      (decide (g.order = [(0xC, g.quad)]) && g.seg.isSome, ⟨0x05, 0xC, 0xFF, 0⟩)]).orElse (fun _ =>
    (segmentsOk segs).orElse (fun _ =>
    firstFail [((d.boot.stream.map Stream.id) == some g.streamId && decide (segver < g.hdr.svn) && d.quadOk g.quad, hdr 0x14),
      (!d.flag F.BRZ_GRAFT_PENDING, hdr 0x15)])))

/-! ### A stream takes effect (R383 step 6, R386) -/

/-- Fold over numbered items. -/
def Dev.forN (d : Dev) (l : List Nat) (f : Dev → Nat → Dev) : Dev := l.foldl f d

/-- UNITS (R386): what the mask omits reads as fused, or as a channel out of service. -/
def Dev.applyUnits (d : Dev) (x : Stream) : Dev :=
  let qf := (List.range 4).foldl (fun n q => setBit n q (bit n q || !x.quads.contains q)) (d.f F.TOP_UNITS_QFUSED)
  let ch := (List.range 32).foldl (fun n c => setBit n c (bit n c || !x.chanIn c)) (d.f F.TOP_CHRETIRED_CHOUT)
  (d.setF F.TOP_UNITS_QFUSED qf).setF F.TOP_CHRETIRED_CHOUT ch

/-- CHANNELS and RETRY. -/
def Dev.applyChans (d : Dev) (x : Stream) : Dev :=
  let d1 := d.forN (List.range 32) (fun e c =>
    match x.chans[c]? with
    | none => e
    | some k => ((((e.setF (F.CHAN_CFG_IFACE c) k.iface).setF (F.CHAN_CFG_RATEMAX c) k.rateMax).setF (F.CHAN_CFG_XRATE_EN c)
        (Bool.nat k.xrate)).setF (F.CHAN_CFG_PARITY c) k.parity).setF (F.CHAN_CFG_LOCK c) 1)
  x.retry.foldl (fun (e : Dev) r => e.forN (List.range 64) (fun (e1 : Dev) i =>
    e1.forN (List.range 4) (fun (e2 : Dev) w => e2.setF (F.CHAN_RETRY_ENTRY r.1 i w) (bits (r.2.getD i 0) (32 * w) 32)))) d1

/-- GROUPS: the groups and their members. -/
def Dev.applyGroups (d : Dev) (x : Stream) : Dev :=
  let d1 := (d.setF F.STRP_CFG_GROUPS x.groups.length).setF F.STRP_CFG_JSLOTS
    (match x.roster with
      | some r => if 2 ≤ r.members.length then 480 else 960
      | none => 960)
  d1.forN (List.range x.groups.length) (fun (e : Dev) g =>
    match x.groups[g]? with
    | none => e
    | some k => (e.setF (F.STRP_GRP_GEOM g) k.geom).forN (List.range k.members.length) (fun (e1 : Dev) j =>
        (e1.setF (F.STRP_GMEM_DIE (32 * g + j)) (k.members.getD j 0)).setF (F.STRP_GMEM_USED (32 * g + j)) 1))

/-- MEDIA: the health thresholds, unless feature C1h saved others (R159). -/
def Dev.applyMedia (d : Dev) (x : Stream) : Dev :=
  match x.media with
  | none => d
  | some m =>
    let v := d.nv.savedEw.getD (m.ewSet, m.ewPct, m.critPct, m.wearPct)
    (((d.setF F.MAPW_EWSET_SET v.1).setF F.MAPW_SPARE_EWPCT v.2.1).setF F.MAPW_SPARE_CRITPCT v.2.2.1).setF F.MAPW_SPARE_WEARPCT v.2.2.2

/-- DRAM: MEMC_CFG, the timing sets, the capacity. -/
def Dev.applyDram (d : Dev) (x : Stream) : Dev :=
  x.dram.foldl (fun (e : Dev) r =>
    let q := r.1
    let k := r.2
    let e1 := (((((e.setF (F.MEMC_CFG_WIDTH q) k.width).setF (F.MEMC_CFG_DENSITY q) k.density).setF (F.MEMC_CFG_RANKS q) k.ranks).setF
      (F.MEMC_CFG_RATEA q) k.rateA).setF (F.MEMC_CFG_RATEB q) k.rateB).setF (F.MEMC_CFG_LOCK q) 1
    (e1.setF (F.MEMC_STAT_CAPGIB q) k.gib).forN (List.range 16) (fun (e2 : Dev) i =>
      (e2.setF (F.MEMC_TSET_CYCLES q i) (k.tsetA.getD i 0)).setF (F.MEMC_TSET_CYCLES q (16 + i)) (k.tsetB.getD i 0))) d

/-- POOLS: the pools, whose buffers are all free at BOOT. -/
def Dev.applyPools (d : Dev) (x : Stream) : Dev :=
  d.forN (List.range 16) (fun (e : Dev) n =>
    match x.pools[n]? with
    | none => e
    | some p =>
      let e1 := ((((e.setF (F.PAIL_POOLCFG_EN n) (Bool.nat p.en)).setF (F.PAIL_POOLCFG_LOC n) p.loc).setF (F.PAIL_POOLCFG_SIZE n) p.size).setF
        (F.PAIL_POOLCFG_FALLBACK n) p.fallback).setF (F.PAIL_POOLCFG_FBEN n) (Bool.nat p.fben)
      ((((e1.setF (F.PAIL_POOLBASE_BASE n) p.base).setF (F.PAIL_POOLCNT_COUNT n) p.count).setF (F.PAIL_POOLFLOOR_FLOOR n) p.floor).setF
        (F.PAIL_POOLSTAT_FREE n) p.count).setF (F.PAIL_POOLCFG_LOCK n) 1)

/-- PLOTS: the defaults of the PLOT table (R87). -/
def Dev.applyPlots (d : Dev) (x : Stream) : Dev :=
  let one (e : Dev) (p : PlotEnt) : Dev :=
    let n := p.plot
    let e1 := (((e.setF (F.PLOT_CTL_EN n) (Bool.nat (p.en || n == 0))).setF (F.PLOT_CTL_PSALLOW n) (Bool.nat p.psallow)).psLatch n).setF (F.PLOT_STAT_STATE n)
      (Bool.nat (p.en || n == 0))
    let e2 := (((e1.setF (F.PLOT_QV_QMAX n) p.qmax).setF (F.PLOT_QV_VMAX n) p.vmax).setF (F.PLOT_FETCH_WEIGHT n) p.weight).setF (F.PLOT_FETCH_OSHARE n) p.oshare
    let e3 := (((e2.setF (F.PLOT_SLM_SIZE n) p.slm).setF (F.PLOT_SLM_EFFECT n) p.slm).setF (F.PLOT_FCORE_WEIGHT n) p.fcWeight).setF (F.PLOT_FCORE_CAP n) p.fcCap
    let e4 := (((e3.setF (F.PLOT_EWT_CIPH n) (p.ewt.getD 0 0)).setF (F.PLOT_EWT_DGST n) (p.ewt.getD 1 0)).setF (F.PLOT_EWT_CHURN n) (p.ewt.getD 2 0)).setF
      (F.PLOT_EWT_SIEVE n) (p.ewt.getD 3 0)
    (((e4.setF (F.PLOT_ECAP_CIPH n) (p.ecap.getD 0 0)).setF (F.PLOT_ECAP_DGST n) (p.ecap.getD 1 0)).setF (F.PLOT_ECAP_CHURN n) (p.ecap.getD 2 0)).setF
      (F.PLOT_ECAP_SIEVE n) (p.ecap.getD 3 0)
  (x.plots.foldl one (d.setF F.PLOT_SUMIO_MAXPLOTS (x.maxPlots % 1024)))

/-- EVENTS: the routes. -/
def Dev.setRoute (d : Dev) (n w : Nat) : Dev :=
  let d1 := (((d.setEf (F.EVT_ROUTE_HOST n) (bits w 0 1)).setEf (F.EVT_ROUTE_CORE n) (bits w 1 1)).setEf (F.EVT_ROUTE_PLOT n) (bits w 2 9)).setEf
    (F.EVT_ROUTE_VEC n) (bits w 11 12)
  ((d1.setEf (F.EVT_ROUTE_CQ n) (bits w 23 2)).setEf (F.EVT_ROUTE_CK n) (bits w 25 3)).setEf (F.EVT_ROUTE_LINE n) (bits w 28 3)

/-- ROSTER (R189, R204): membership, the count, the anchor, with an accepted token's anchor before the stream's where its
epoch is higher. A part whose identity or CID the roster does not name has ROSTER_MISMATCH. -/
def Dev.applyRoster (d : Dev) (x : Stream) : Dev :=
  match x.roster with
  | none => d
  | some r =>
    let live := (r.members.map Prod.fst).filter (fun m => !bit r.retired m)
    let anchor := match d.clu.anchor with
      | some a => if r.epoch < a.2 then a.1 else r.anchor
      | none => r.anchor
    let me := d.f F.GWL_ID_MEMBER
    let d1 := (((d.setF F.GWL_ID_CLUSTER 1).setF F.GWL_ID_CCOUNT live.length).setF F.GWL_ID_ANCHOR anchor).setF F.GWL_SETS_RETSET r.retired
    if r.members.any (fun m => m.1 == me && m.2 == d.fuses.dieId) then d1
    else ({ d1 with gwl := { d1.gwl with mismatch := true } }).raise 0x1D4 noPlot []

/-- A stream takes effect: it is in force, every register whose reset value it supplies is written, the configuration is
locked, and every island clock runs at its target. -/
def Dev.applyStream (d : Dev) (x : Stream) : Dev :=
  let d1 := ({ d with boot := { d.boot with stream := some x } }).setF F.BRZ_STREAMID_ID x.id
  let d2 := ((((((d1.applyUnits x).applyChans x).applyGroups x).applyMedia x).applyDram x).applyPools x).applyPlots x
  let d3 := x.segments.foldl (fun (e : Dev) s => if x.quads.contains s.1 then e.setSegment s.1 s.2 else e) d2
  let d4 := d3.forN (List.range 512) (fun (e : Dev) n => e.setRoute n (x.routes.getD n 0))
  (((d4.applyRoster x).setF F.CLK_STAT_TARGETS 1).mapShow).plotSums

end Sys2Proof.Machine
end

