-- ==== Sys2Proof/Machine/Logs.lean ====
section
/-! DEFINITION. The log pages (R83 to R85, R157, R158, R177, R206, R373, R410) as their fields, Get Log Page and Identify
(R65, R80). Layouts that the spec leaves to NVMe 2.1 are PRESUMED from it (assumption 58). -/

namespace Sys2Proof.Machine

/-- A field of a log page: byte offset, width in bytes, value. -/
abbrev LogField := Nat × Nat × Nat

/-- Fields of equal width one after another from a byte offset. -/
def fieldRun (off w : Nat) (vs : List Nat) : List LogField := vs.zipIdx.map (fun x => (off + w * x.2, w, x.1))

/-- Fields of a record moved to a byte offset. -/
def fieldsAt (off : Nat) (fs : List LogField) : List LogField := fs.map (fun f => (off + f.1, f.2.1, f.2.2))

/-- Records of a size in bytes, one after another from a byte offset. -/
def recordRun (off size : Nat) (rs : List (List LogField)) : List LogField := (rs.zipIdx.map (fun r => fieldsAt (off + size * r.2) r.1)).flatten

/-- A signed number in a field of `w` bytes. -/
def signedField (w : Nat) (v : Int) : Nat := (v % (2 ^ (8 * w) : Nat)).toNat

/-! ### SMART / Health Information (R157) -/

/-- Sensor `i` in kelvin, 0 where it is not valid. -/
def Dev.sensorK (d : Dev) (i : Nat) : Nat := if d.flag (F.PWR_TEMP_VALID i) then (sbyte (d.f (F.PWR_TEMP_TEMP i)) + 273).toNat else 0

/-- A counter of the SMART log. -/
def Dev.smartOf (d : Dev) (x k : Nat) : Nat := AMap.get 0 (8 * x + k) d.md.smart

/-- The SMART log of a controller, or with `nsid` of one namespace: its data units and commands. -/
def Dev.smartLog (d : Dev) (p : Nat) (nsid : Option Nat) : List LogField :=
  let x := match nsid with
    | some n => 1024 + n
    | none => p
  [(0, 1, d.critNow p), (1, 2, d.kelvin.toNat), (3, 1, d.availSpare), (4, 1, d.f F.MAPW_SPARE_CRITPCT), (5, 1, d.percentUsed),
   (32, 16, ceilDiv (d.smartOf x 0) 1000), (48, 16, ceilDiv (d.smartOf x 1) 1000), (64, 16, d.smartOf x 2), (80, 16, d.smartOf x 3),
   (96, 16, d.nv.busyMin), (112, 16, d.nv.powerCycles), (128, 16, d.nv.onMin / 60), (144, 16, d.nv.uncleanStops),
   (160, 16, d.smartOf p 4), (176, 16, d.smartOf p 5), (192, 4, d.nv.warnMin), (196, 4, d.nv.critMin)]
  ++ fieldRun 200 2 ((List.range 6).map d.sensorK)
  ++ [(216, 4, d.nv.tmtCount.1), (220, 4, d.nv.tmtCount.2), (224, 4, d.nv.tmtMs.1 / 1000), (228, 4, d.nv.tmtMs.2 / 1000)]

/-! ### The NVMe pages -/

/-- The revision of the firmware in a slot. -/
def Dev.slotRev (d : Dev) (s : Nat) : Nat := ((AMap.find s d.bootFlash.fw).map FwImage.rev).getD 0

/-- The valid directory copy with the higher SEQ (R382). -/
def seqHigher (a b : Nat) : Bool := decide (a % 2 ^ 32 ≠ b % 2 ^ 32 ∧ seqDist a b < 2 ^ 31)

/-- The directory in force: FWACTIVE, FWNEXT, STRACTIVE (R382). -/
def Dev.directory (d : Dev) : Directory :=
  match d.bootFlash.dir0, d.bootFlash.dir1 with
  | some a, some b => if seqHigher b.seq a.seq then b else a
  | some a, none => a
  | none, some b => b
  | none, none => { seq := 0, fwActive := 1, fwNext := 0, strActive := 0 }

/-- Change the directory: the other copy is written with SEQ + 1 (R382). -/
def Dev.setDirectory (d : Dev) (g : Directory → Directory) : Dev :=
  let now := d.directory
  let new := { g now with seq := (now.seq + 1) % 2 ^ 32 }
  let second := match d.bootFlash.dir0, d.bootFlash.dir1 with
    | some a, some b => !seqHigher b.seq a.seq
    | some _, none => true
    | _, _ => false
  if second then { d with bootFlash := { d.bootFlash with dir1 := some new } } else { d with bootFlash := { d.bootFlash with dir0 := some new } }

/-- Firmware Slot Information (R75): the running slot, the slot the next part reset will activate. -/
def Dev.fwSlotLog (d : Dev) : List LogField :=
  [(0, 1, d.boot.fwRunning + 16 * d.directory.fwNext)] ++ fieldRun 8 8 [d.slotRev 1, d.slotRev 2, d.slotRev 3]

/-- The commands R65 and R66 list, by opcode; those of the Computational Programs and Subsystem Local Memory sets have the opcodes of
their specifications, which this one does not repeat (`Config.csOpcode`). -/
def adminOpcodes : List Nat := [0x00, 0x01, 0x02, 0x04, 0x05, 0x06, 0x08, 0x09, 0x0A, 0x0C, 0x0D, 0x10, 0x11, 0x14, 0x15, 0x1C, 0x80, 0x81, 0x82, 0x84, 0xC0, 0xC1]
def mgrOpcodes : List Nat := [0x0D, 0x10, 0x11, 0x14, 0x15, 0x1C, 0x84, 0xC0, 0xC1]
def ioOpcodes : List Nat := [0x00, 0x01, 0x02, 0x04, 0x05, 0x08, 0x09, 0x0C, 0x0D, 0x0E, 0x11, 0x15, 0x19]

/-- Commands Supported and Effects, for the command set `csi` (0 NVM, 3 Subsystem Local Memory, 4 Computational Programs): bit 0 for each
command the controller accepts; the other effect bits are free (`Config.cmdEffects`). Load Program, Program Activation Management and Memory
Range Set Management stand among the admin commands (PRESUMED, assumption 58). -/
def Dev.effectsLog (p csi : Nat) : List LogField :=
  let one (base op : Nat) : LogField := (base + 4 * op, 4, 1 + 2 * (Config.cmdEffects op % 2 ^ 31))
  let cs (k : Nat) : Nat := Config.csOpcode k % 256
  let admin := adminOpcodes.filter (fun op => p == 0 || !mgrOpcodes.contains op)
  (admin ++ if csi = 4 then [cs 1, cs 2, cs 3] else []).map (one 0) ++
    (if csi = 0 then ioOpcodes else if csi = 4 then [cs 0] else [cs 4, cs 5, cs 6, cs 7]).map (one 1024)

/-- Device Self-test: the current operation and the 20 newest results. -/
def Dev.selfTestLog (d : Dev) : List LogField :=
  let now := match d.mode.selfTest with
    | none => [(0, 1, 0), (1, 1, 0)]
    | some t => [(0, 1, if t.extended then 2 else 1), (1, 1, Config.selfTestPct d.now % 100)]
  let rec_ (x : Nat × Nat × Nat × Nat) : List LogField := [(0, 1, x.2.1 + 16 * x.1), (1, 1, x.2.2.1), (4, 8, x.2.2.2)]
  let old := (d.nv.selfLog.take 20).map rec_
  now ++ recordRun 4 28 (old ++ List.replicate (20 - old.length) [(0, 1, 15)])

/-- Reservation Notification: the oldest notification held for the controller. -/
def Dev.resvLogPage (d : Dev) (p : Nat) : List LogField :=
  let l := (d.ctrl p).resvLog
  match l with
  | [] => [(0, 8, d.smartOf p 6), (8, 1, 0), (9, 1, 0)]
  | x :: rest => [(0, 8, d.smartOf p 6 - rest.length), (8, 1, x.1), (9, 1, min 255 rest.length), (12, 4, x.2)]

/-- Sanitize Status: the state of the last sanitize, whether no data has been written since it erased all data (Global Data Erased), and
Dword 10 of its command (SANACT 2 block erase, 4 crypto erase). -/
def Dev.sanitizeLog (d : Dev) : List LogField :=
  let running := d.nv.sanitize.isSome
  [(0, 2, if running then Config.sanitizeProgress d.now % 65535 else 65535),
   (2, 2, (if running then 2 else d.nv.sanLast % 8) + 256 * Bool.nat d.nv.gde), (4, 4, d.nv.sanKind),
   (8, 4, Config.sanitizeTime 0 % 2 ^ 32), (12, 4, Config.sanitizeTime 1 % 2 ^ 32), (16, 4, Config.sanitizeTime 2 % 2 ^ 32)]

/-! ### The Almanac (R158) -/

/-- The good blocks of every die group, and their erase counts. -/
def Dev.goodBlocks (d : Dev) : Nat := (d.groups.map d.good).sum
def Dev.eraseCounts (d : Dev) : List Nat :=
  (d.md.blocks.filter (fun b => b.2.state != .bad && (d.memberOf (b.1 / 8192)).isSome)).map (fun b => b.2.erases)

def Dev.almanacLog (d : Dev) : List LogField :=
  let es := d.eraseCounts
  let good := d.goodBlocks
  let chRate (c : Nat) : Nat := if d.chanOk c then d.f (F.CHAN_STAT_RATE c) else 0xFF
  let media (off : Nat) : Nat := AMap.get 0 off d.md.media
  let scope (x : Nat × Nat × Nat × Nat) : List LogField := [(0, 8, x.1), (8, 1, x.2.1), (9, 1, x.2.2.1), (10, 1, x.2.2.2)]
  let ret (x : Nat × Nat × Nat × Nat) : List LogField := [(0, 8, x.1), (8, 1, x.2.1), (9, 1, x.2.2.1), (10, 2, x.2.2.2)]
  let chans := ((List.range 32).filter d.chanOk).foldl (fun n c => n + 2 ^ c) 0
  [(0, 2, 1), (2, 2, 1024), (4, 4, d.nv.updates), (8, 8, d.nv.updatedAt), (16, 1, d.f F.TOP_MODE_MODE), (17, 1, d.f F.TOP_MODE_ATOMIC),
   (18, 1, (d.quads.map (fun q => 2 ^ q)).sum), (20, 4, chans)]
  ++ fieldRun 24 1 ((List.range 32).map chRate)
  ++ [(56, 1, d.availSpare), (57, 1, d.f F.MAPW_SPARE_EWPCT), (58, 1, d.f F.MAPW_SPARE_CRITPCT), (59, 1, d.percentUsed), (60, 2, d.spareGroup),
      (62, 2, d.nv.failedDies.length), (64, 8, good), (72, 8, media 72), (80, 8, media 80),
      (88, 4, if es.length < good then 0 else (es.min?).getD 0), (92, 4, es.sum / max 1 good), (96, 4, (es.max?).getD 0),
      (100, 4, ((d.boot.stream.bind (fun s => s.media)).map (fun m => m.rated)).getD 0), (104, 4, ((d.groups.map d.freeBlocks).min?).getD 0)]
  ++ fieldRun 112 8 ((List.range 10).map (fun k => media (112 + 8 * k)))
  ++ fieldRun 192 8 ((List.range 6).map (fun k => media (192 + 8 * k)))
  ++ fieldRun 240 8 ((List.range 6).map (fun k => media (240 + 8 * k)))
  ++ fieldRun 288 8 ((List.range 4).map (fun k => media (288 + 8 * k)))
  ++ [(320, 8, d.nv.uncleanStops), (328, 8, d.nv.cleanStops), (336, 4, d.nv.recMs), (340, 4, d.nv.recRec), (344, 4, d.nv.recBlk), (348, 4, d.nv.recPts)]
  ++ fieldRun 352 4 ((List.range 13).map (fun n => AMap.get 0 n d.nv.tempHist))
  ++ [(416, 2, signedField 2 d.nv.tmax), (418, 2, signedField 2 d.nv.tmin), (420, 4, d.nv.throtMin), (448, 8, d.f F.MAPW_EWSET_SET),
      (456, 8, d.f F.MAPW_EWACT_ACT), (464, 8, d.nv.ewCount), (472, 1, d.nv.ewLast), (480, 8, d.nv.ewTime)]
  ++ recordRun 512 16 (d.nv.scopes.map scope) ++ recordRun 640 16 (d.nv.retires.map ret)

/-! ### The other vendor pages -/

/-- The lost-stripe log (R177), as a plot sees it (R178): a tenant sees records that list an IU of a namespace attached to
it, with the items of others zero, and every range record. -/
def Dev.lostLog (d : Dev) (p : Nat) : List LogField :=
  let mine (nsid : Nat) : Bool := p == 0 || ((d.ns? nsid).map (fun n => n.attached.contains p)).getD false
  let shown := d.strp.lost.filter (fun r => p == 0 || r.ty == 2 || r.items.any (fun i => mine i.1))
  let item (x : Nat × Nat × Nat × Nat) : List LogField := if mine x.1 then [(0, 4, x.1), (4, 5, x.2.1), (9, 1, x.2.2.1), (10, 1, x.2.2.2)] else []
  let rec_ (r : LostRec) : List LogField :=
    [(0, 1, r.ty), (1, 1, r.cause), (2, 2, r.group), (4, 4, r.bsnFirst), (8, 4, r.bsnLast), (12, 2, r.page), (14, 1, r.slot), (16, 8, r.time),
     (24, 8, r.stripes), (32, 4, (r.items.filter (fun i => i.2.2.2 == 1)).length), (36, 4, min 32 r.items.length)]
    ++ recordRun 64 12 ((r.items.take 32).map item)
  [(0, 2, 1), (2, 2, shown.length), (4, 4, d.strp.lostTotal), (8, 4, d.strp.lostOverflow), (16, 8, ((shown.head?).map LostRec.time).getD 0)]
  ++ recordRun 64 512 (shown.map rec_)

/-- The STATE byte of the cluster status log (R206). -/
def Dev.clusterState (d : Dev) : Nat :=
  if d.roster?.isNone then 0
  else if d.flag F.TOP_MODE_CFENCE then 3
  else if d.gwl.rejoining then 4
  else if (List.range 8).all (fun i => !bit d.configured i || d.inView i) then 1
  else 2

/-- The cluster status log (R206). -/
def Dev.clusterLog (d : Dev) : List LogField :=
  let link (l : Nat) : List LogField :=
    [(0, 1, d.linkState l), (1, 1, d.f (F.GWL_LSTAT_PEER l))]
    ++ fieldRun 4 4 [d.f (F.GWL_LSTAT_DOWNS l), d.f (F.GWL_LCNT_COUNT (8 * l + 5)), d.f (F.GWL_LCNT_COUNT (8 * l + 2)), d.f (F.GWL_LCNT_COUNT (8 * l + 3)),
        d.f (F.GWL_LCNT_COUNT (8 * l + 4)), (d.link l).naks]
  let lost (x : Nat × Nat × Nat × Nat × Nat) : List LogField := [(0, 4, x.1), (4, 8, x.2.1), (12, 8, x.2.2.1), (20, 1, x.2.2.2.1), (21, 1, x.2.2.2.2)]
  [(0, 2, 1), (2, 2, 4096), (4, 1, d.self), (5, 1, d.f F.GWL_ID_CCOUNT), (6, 1, d.f F.GWL_ID_ANCHOR), (7, 1, d.clusterState),
   (8, 8, d.f F.GWL_VIEW_VIEW), (16, 1, d.view), (17, 1, d.configured), (18, 1, d.f F.GWL_SETS_RETSET), (19, 1, d.f F.GWL_SETS_REJSET),
   (20, 4, d.aepoch), (24, 8, d.clu.dirty.length), (32, 8, d.gwl.resync.length), (40, 8, d.cluNonce % 2 ^ 64)]
  ++ recordRun 64 32 ((List.range 4).map link)
  ++ [(504, 4, d.clu.lostCount), (508, 4, d.clu.overflow)] ++ recordRun 512 32 (d.clu.lost.map lost)

/-- A journal record (R406). -/
def JRec.fields (r : JRec) : List LogField :=
  [(0, 8, r.seq), (8, 8, r.time), (16, 2, r.event), (18, 2, r.plot), (20, 1, r.mode), (21, 1, r.flags), (22, 2, r.suppressed)]
  ++ fieldRun 24 8 (r.args.take 5)

/-- The event journal (R410): for plot 0 the unacknowledged records, or every kept one; for a tenant its own. -/
def Dev.journalLog (d : Dev) (p : Nat) (all : Bool) : List LogField :=
  let rs := if p ≠ 0 then d.evt.journal.filter (fun r => r.plot == p)
    else if all then d.evt.journal
    else d.evt.journal.filter (fun r => decide (d.ef F.EVT_HOST_ACK_SEQ_SEQ < r.seq))
  [(0, 2, 1), (2, 2, 64), (4, 4, rs.length), (8, 8, d.jhead), (16, 8, d.ef F.EVT_HOST_ACK_SEQ_SEQ), (24, 8, ((d.evt.journal.head?).map JRec.seq).getD 0),
   (32, 4, d.ef F.EVT_JSTAT_LOST), (36, 2, d.ef F.EVT_JCFG_HOSTWM)]
  ++ recordRun 64 64 (rs.map JRec.fields)

/-- Host interface statistics of a plot (R85); the duration of the last activation drain is one for every plot. -/
def Dev.statsLog (d : Dev) (p : Nat) : List LogField := fieldRun 0 8 ((List.range 10).map (fun k => AMap.get 0 (if k = 8 then 8 else if k = 9 then 16 * (if d.flag F.HIF_PORTCFG_DUAL ∧ 256 ≤ p then 256 else 0) + 9 else 16 * p + k) d.host.stats))

/-- The correctable-error address tables (R373). -/
def Dev.eccLog (d : Dev) (p : Nat) : List LogField :=
  let ent (e : EccEnt) : List LogField :=
    [(0, 1, 1), (1, 1, e.unit), (2, 1, e.quad), (3, 1, e.inst), (4, 8, e.addr), (12, 4, e.count), (16, 8, e.first), (24, 8, e.last)]
  [(0, 2, 1), (4, 4, 3136)]
  ++ (if p ≠ 0 then []
      else fieldRun 8 1 ((List.range 3).map (fun c => (d.eccTab c).length)) ++ fieldRun 12 4 ((List.range 3).map d.eccOvf)
        ++ ((List.range 3).map (fun c => recordRun (64 + 1024 * c) 32 ((d.eccTab c).map ent))).flatten)

/-! ### Get Log Page -/

/-- The fields of a page, with its size in bytes: `none` for one that R83 does not list. Page 01h is sent as its entries. -/
def Dev.logPage (d : Dev) (p nsid lid lsf lsi csi : Nat) : Option (Nat × List LogField) :=
  if lid = 0x01 then some (4096, [])
  else if lid = 0x02 then some (512, d.smartLog p (if nsid = 0 ∨ nsid = 0xFFFFFFFF then none else some nsid))
  else if lid = 0x03 then some (512, d.fwSlotLog)
  else if lid = 0x04 then some (4096, fieldRun 0 4 ((d.host.changedNs.filter (fun x => x.1 == p)).map Prod.snd))
  else if lid = 0x05 then some (4096, Dev.effectsLog p csi)
  else if lid = 0x06 then some (564, d.selfTestLog)
  else if lid = 0x80 then some (64, d.resvLogPage p)
  else if lid = 0x81 then some (512, d.sanitizeLog)
  else if lid = 0xC0 then some (1024, d.almanacLog)
  else if lid = 0xC1 then some (524352, d.lostLog p)
  else if lid = 0xC2 then some (4096, d.clusterLog)
  else if lid = 0xC3 then some (64 + 64 * 8192, d.journalLog p (bit lsf 0))
  else if lid = 0xC4 then some (512, d.statsLog (if p = 0 then lsi else p))
  else if lid = 0xC5 then some (3136, d.eccLog p)
  else none

/-- The asynchronous events that a page unmasks (R84, and NVMe 2.1 for the others), as (type, information). -/
def unmasks (lid ty info : Nat) : Bool :=
  (lid == 0x01 && ty == 0) || (lid == 0x02 && ty == 1) || (lid == 0x03 && ty == 2 && info == 1) || (lid == 0x04 && ty == 2 && info == 0) ||
  (ty == 7 && vendorLog info == lid)

/-- What a read with RAE = 0 does beside sending the page: it unmasks the events, and takes the notification or the list of
changed namespaces that it has returned. -/
def Dev.logRead (d : Dev) (p lid : Nat) : Dev :=
  let c := d.ctrl p
  let d1 := d.setCtrl p { c with asyncMask := c.asyncMask.filter (fun m => !unmasks lid m.1 m.2),
                                 resvLog := if lid = 0x80 then c.resvLog.drop 1 else c.resvLog }
  if lid = 0x04 then { d1 with host := { d1.host with changedNs := d1.host.changedNs.filter (fun x => x.1 != p) } } else d1

/-- The pages that SANITIZE admits (R65; NVMe 2.1's are PRESUMED). -/
def sanitizeLogs : List Nat := [0x01, 0x02, 0x04, 0x80, 0x81, 0xC0, 0xC1, 0xC2, 0xC3, 0xC4, 0xC5]

/-- GET_LOG_PAGE (R65, R83, R84, R372): `len` bytes from byte `off` of page `lid`; `lsf` and `lsi` are the Log Specific Field
and Identifier, `csi` the command set. -/
def getLogPage (c : NCmd) (lid lsf lsi csi off len : Nat) (rae : Bool) (d : Dev) : Dev :=
  d.admin c false true (sanitizeLogs.contains lid) (fun e =>
    let p := c.id.plot
    match e.logPage p c.nsid lid lsf lsi csi with
    | none => e.done c.id .invalidLogPage
    | some (size, fs) =>
      if off % 4 ≠ 0 ∨ size < off ∨ len % 4 ≠ 0 ∨ 2 ^ 21 < len then e.done c.id .invalidField
      else if lid = 0x02 ∧ c.nsid ≠ 0 ∧ c.nsid ≠ 0xFFFFFFFF ∧ ((e.ns? c.nsid).isNone ∨ (p ≠ 0 ∧ ¬e.attached c.nsid p)) then e.done c.id .invalidNamespaceOrFormat
      else if (lid = 0xC4 ∧ p = 0 ∧ 512 ≤ lsi) ∨ (lid = 0x05 ∧ ¬[0, 3, 4].contains csi) then e.done c.id .invalidField
      else e.withPrp c len true (fun e =>
        let errs := (e.ctrl p).errLog.zipIdx.map (fun x => (e.smartOf p 5 - x.2, x.1.1, x.1.2.1, x.1.2.2))
        let e1 := e.send (if lid = 0x01 then .errors p off len errs else .log p lid off len fs)
        let e2 := if rae then e1 else e1.logRead p lid
        let e3 := if lid = 0xC5 ∧ p = 0 ∧ bit lsf 0 then ({ e2 with ecc := EccSt.init }).ewSet 16 false else e2
        e3.done c.id .success))

def execGetLogPage (c : NCmd) (lid lsf lsi csi off len : Nat) (rae : Bool) := run (getLogPage c lid lsf lsi csi off len rae)

/-! ### Identify (R65, R80, R454) -/

/-- The allocated size of a namespace in bytes (R155). -/
def Dev.allocated (d : Dev) (n : Ns) : Nat :=
  ((d.ftl.map.filter (fun m => m.1 / 2 ^ 40 == n.nsid)).map (fun m =>
    if entryType m.2 = 1 then
      (if n.comp != 0 then d.iuCws n.nsid (m.2 % 2 ^ 38) * 4096 else n.iuBytes)
    else if entryType m.2 = 2 then n.iuBytes else 0)).sum

/-- NUSE (R252). -/
def Dev.nuse (d : Dev) (n : Ns) : Nat := d.allocated n / lbaBytes n.lbaf

/-- The `n` bytes of a number, lowest first, as numbers, and the number that bytes make. -/
def numBytes (n v : Nat) : List Nat := (leBytes n v).map BitVec.toNat
def bytesNum : List Nat → Nat
  | [] => 0
  | b :: t => b + 256 * bytesNum t

/-- An upper-case hexadecimal digit. -/
def hexDigit (v : Nat) : Nat := if v < 10 then 0x30 + v else 0x37 + v

/-- The ASCII bytes of a text. -/
def asciiBytes (s : String) : List Nat := s.toList.map Char.toNat

/-- The serial number of R80: the prefix of IDENT without trailing spaces, 12 digits of DIEID, spaces up to 20 bytes. -/
def Dev.serial (d : Dev) : List Nat :=
  let id := ((d.boot.stream.bind (fun s => s.ident)).getD (0, 0, 0)).2.2
  let prefix_ := ((numBytes 8 id).reverse.dropWhile (fun b => b == 0x20 || b == 0)).reverse
  let digits := (List.range 12).map (fun i => hexDigit (d.fuses.dieId / 16 ^ (11 - i) % 16))
  (prefix_ ++ digits ++ List.replicate 20 0x20).take 20

/-- The model number of R80: the name of IDENT, or the default with the part code where it is blank. -/
def Dev.model (d : Dev) : List Nat :=
  let mn := numBytes 40 ((d.boot.stream.bind (fun s => s.ident)).getD (0, 0, 0)).2.1
  let part := (List.range 4).map (fun i => hexDigit (d.fuses.part / 16 ^ (3 - i) % 16))
  if mn.all (fun b => b == 0x20 || b == 0) then (asciiBytes "Eloasko Knazor KZ-" ++ part ++ List.replicate 40 0x20).take 40 else mn

/-- Identify Controller: the fields of R80, and those that NVMe 2.1 gives for the supported features. A text is its bytes, the first the
lowest. OACS bits 0 to 4 and 7 are the supported admin commands (PRESUMED, assumption 58). -/
def Dev.idCtrl (d : Dev) (p : Nat) : List (IdField × Nat) :=
  let id := (d.boot.stream.bind (fun s => s.ident)).getD (0, 0, 0)
  [(.VID, 0x1EA7), (.SSVID, if id.1 = 0 then 0x1EA7 else id.1), (.SN, bytesNum d.serial), (.MN, bytesNum d.model), (.VER, 0x20100), (.OACS, 0x9F),
   (.SUBNQN, bytesNum (asciiBytes "nqn.2023-05.com.eloasko:knazor:" ++ d.serial)), (.FR, ((d.boot.firmware).map FwImage.rev).getD 0), (.RAB, 5), (.MDTS, 9), (.CNTLID, p),
   (.CMIC, d.f F.TOP_STRAP_PORTMODE + 6), (.RTD3R, 5000000), (.RTD3E, 1000000), (.ACL, 3), (.AERL, 15), (.FRMW, 0x16), (.LPA, 7), (.ELPE, 63),
   (.NPSS, 4), (.WCTEMP, 373), (.CCTEMP, if d.fuses.tempE then 383 else 378), (.MTFA, 20), (.SANICAP, 3), (.SQES, 0x66), (.CQES, 0x44),
   (.NN, 1537), (.MNAN, 1024), (.ONCS, 0x1FF), (.VWC, 6), (.AWUN, 63), (.AWUPF, 63), (.SGLS, 0x00010001), (.OAES, 0x300),
   (.TNVMCAP, d.tnvmcap), (.UNVMCAP, d.tnvmcap - (d.md.nss.map d.nsCap).sum)]

/-- An entry of the LBA format table (R68): metadata size, data size as a power of two, relative performance. -/
def lbafWord (k : Nat) : Nat :=
  lbaMeta k + 2 ^ 16 * (if lbaBytes k = 512 then 9 else 12) + 2 ^ 24 * (if k = 2 then 1 else if k = 3 then 2 else 0)

/-- Identify Namespace (R80). -/
def Dev.idNs (d : Dev) (n : Ns) : List (IdField × Nat) :=
  let iu := n.iuBlocks - 1
  let w := if n.lbaf = 3 then 511 else 63
  [(.NSID, n.nsid), (.NSZE, n.nsze), (.NCAP, n.ncap), (.NUSE, d.nuse n), (.NSFEAT, 0x12), (.NLBAF, 3), (.FLBAS, n.lbaf), (.DLFEAT, 9),
   (.NMIC, Bool.nat (decide (1 < n.attached.length))), (.NPWG, iu), (.NPWA, iu), (.NPDG, iu), (.NPDA, iu), (.NOWS, iu),
   (.MSSRL, 4096), (.MCL, 16384), (.MSRC, 127), (.NAWUN, w), (.NAWUPF, w), (.NABSPF, 0),
   (.LBAF0, lbafWord 0), (.LBAF1, lbafWord 1), (.LBAF2, lbafWord 2), (.LBAF3, lbafWord 3)]

/-- The NSIDs that a plot sees: allocated (manager) or attached, NVM, compute and its memory namespace (R454). -/
def Dev.nsIds (d : Dev) (p : Nat) (allocated : Bool) : List Nat :=
  ((d.md.nss.filter (fun n => allocated || n.attached.contains p)).map (fun n => n.nsid)).mergeSort ++ (if allocated then [] else [1025, 1026 + p])

/-- The reply to Identify: the structures of the I/O command sets 05h and 06h hold no field of R80, and the capacity of a memory namespace
(R454) (DESIGN CHOICE, assumption 58: where the field stands). `none` where the structure is not supported, with the refusal otherwise. -/
def Dev.identifyReply (d : Dev) (p cns nsid cntid csi : Nat) : Option (Sum HostMsg Sc) :=
  let see (n : Ns) : Bool := p == 0 || n.attached.contains p
  let one (att : Bool) (f : Ns → List (IdField × Nat)) : Sum HostMsg Sc :=
    match d.ns? nsid with
    | none => if nsid ≤ 1537 ∧ 1 ≤ nsid then .inl (.ident p cns []) else .inr .invalidNamespaceOrFormat
    | some n =>
      if ¬see n then .inr .invalidNamespaceOrFormat
      else if att ∧ ¬n.attached.contains p then .inl (.ident p cns []) else .inl (.ident p cns (f n))
  let after (l : List Nat) : Sum HostMsg Sc := .inl (.ids p cns ((l.filter (fun n => decide (nsid < n))).take 1024))
  if cns = 0x00 then some (if nsid = 1025 ∨ nsid = 1026 + p then .inl (.ident p cns [(.NSID, nsid)]) else one true d.idNs)
  else if cns = 0x01 then some (.inl (.ident p cns (d.idCtrl p)))
  else if cns = 0x02 then some (after (d.nsIds p false))
  else if cns = 0x03 then some (if nsid = 1025 ∨ nsid = 1026 + p then .inl (.ident p cns [(.NGUID, Config.nguid nsid), (.CSI, if nsid = 1025 then 4 else 3)])
    else one false (fun n => [(.NGUID, Config.nguid n.nsid), (.CSI, 0)]))
  else if cns = 0x05 then
    (if csi = 0 then some (one true (fun _ => []))
    else if csi = 3 then some (if nsid = 1026 + p then .inl (.ident p cns [(.NSZE, d.slmBytes p), (.NCAP, d.slmBytes p)]) else .inr .invalidNamespaceOrFormat)
    else if csi = 4 then some (if nsid = 1025 then .inl (.ident p cns []) else .inr .invalidNamespaceOrFormat)
    else none)
  else if cns = 0x06 then (if [0, 3, 4].contains csi then some (.inl (.ident p cns [])) else none)
  else if cns = 0x08 then some (if nsid = 1025 ∨ nsid = 1026 + p then .inl (.ident p cns [(.NSID, nsid)])
    else one true (fun n => (d.idNs n).filter (fun x => x.1 == .NSID || x.1 == .NMIC)))
  else if cns = 0x10 then some (after (if p = 0 then d.nsIds p true else d.nsIds p false))
  else if cns = 0x11 then some (one false d.idNs)
  else if cns = 0x12 then some (match d.ns? nsid with
    | none => .inl (.ids p cns [])
    | some n => if see n then .inl (.ids p cns ((n.attached.filter (fun a => decide (cntid ≤ a))).mergeSort)) else .inr .invalidNamespaceOrFormat)
  else if cns = 0x13 then some (.inl (.ids p cns ((d.plots.filter (fun a => (p == 0 || a == p) && decide (cntid ≤ a))))))
  else if cns = 0x14 then
    let vf := d.f (F.PLOT_QV_VMAX p)
    some (.inl (.ident p cns [(.CNTLID, p), (.CRT, 3), (.VQFRT, 8192 - d.sumQ), (.VQRFA, d.f (F.PLOT_QV_QMAX p)), (.VQRFAP, d.f (F.PLOT_QV_QMAX p)),
      (.VIFRT, 32768 - d.sumV), (.VIRFA, vf), (.VIRFAP, vf)]))
  else if cns = 0x15 then some (.inl (.ids p cns (d.plots.filter (fun a => p == 0 && a != 0 && decide (cntid ≤ a)))))
  else if cns = 0x1C then some (.inl (.ident p cns [(.COMBINATION, 0x19)]))
  else none

/-- IDENTIFY (R65): structure `cns` for the namespace or controller named. -/
def identify (c : NCmd) (cns cntid csi : Nat) (d : Dev) : Dev :=
  d.admin c false true true (fun e =>
    match e.identifyReply c.id.plot cns c.nsid cntid csi with
    | none => e.done c.id .invalidField
    | some (.inl m) => e.withPrp c 4096 true (fun x => (x.send m).done c.id .success)
    | some (.inr st) => e.done c.id st)

def execIdentify (c : NCmd) (cns cntid csi : Nat) := run (identify c cns cntid csi)

end Sys2Proof.Machine
end

