-- ==== Sys2Proof/Machine/Memc.lean ====
section
/-! DEFINITION. The memory controllers (R355 to R369) and the errors of SRAM and MRAM (R370, R371). -/

namespace Sys2Proof.Machine

/-! ### Addresses (R358) -/

/-- Is the channel of quadrant `q` in use: in service, not failed, not held by a frequency change or an in-field test? -/
def Dev.mcRuns (d : Dev) (q : Nat) : Bool :=
  d.quadOk q && !d.flag (F.MEMC_STAT_FAULT q) && !d.flag (F.MEMC_STAT_FBUSY q) && !d.underTest q

def mcSub (a : Nat) : Nat := bits a 6 1
def mcCol (a : Nat) : Nat := 2 * bits a 7 10
/-- The rank and the row: the bit above the bank group is the rank when there are two. -/
def mcRank (ranks a : Nat) : Nat := if ranks = 1 then bits a 22 1 else 0
def mcRow (ranks a : Nat) : Nat := if ranks = 1 then a / 2 ^ 23 else a / 2 ^ 22
/-- The bank group and bank actually used, group above bank. -/
def mcBankGroup (ranks a : Nat) : Nat := Nat.xor (bits a 17 5) (mcRow ranks a % 32)

/-- The key of the bank that a request needs, and its row. -/
def mcBank (ranks a : Nat) : Nat := 64 * (2 * mcRank ranks a + mcSub a) + mcBankGroup ranks a

def Dev.mcRanks (d : Dev) (q : Nat) : Nat := d.f (F.MEMC_CFG_RANKS q)
def MemcSt.bank (m : MemcSt) (b : Nat) : DBank := AMap.get DBank.init b m.banks
def MemcSt.setBank (m : MemcSt) (b : Nat) (x : DBank) : MemcSt := { m with banks := AMap.set DBank.init b x m.banks }
def MemcSt.sub (m : MemcSt) (i : Nat) : DSub := AMap.get DSub.init i m.subs
def MemcSt.setSub (m : MemcSt) (i : Nat) (x : DSub) : MemcSt := { m with subs := AMap.set DSub.init i x m.subs }

/-- Precharge the banks of a rank, and open the rows that a replay of its commands activates (R364). -/
def MemcSt.replayRows (m : MemcSt) (ranks rank : Nat) (cmds : List DCmd) : MemcSt :=
  let shut (b : Nat × DBank) : Nat × DBank := if b.1 / 128 = rank then (b.1, { b.2 with row := none }) else b
  cmds.foldl (fun (x : MemcSt) c =>
    let b := mcBank ranks c.req.addr
    x.setBank b { x.bank b with row := some (mcRow ranks c.req.addr) }) { m with banks := m.banks.map shut }

/-- Precharge every bank. -/
def MemcSt.closeAll (m : MemcSt) : MemcSt := { m with banks := m.banks.map (fun b => (b.1, { b.2 with row := none })) }

def Dev.mcCount (d : Dev) (q k n : Nat) : Dev := d.bump (F.MEMC_CNT_COUNT q k) (0x170 + k) q n

/-- The journal's and the error table's form of a DRAM address (R373). -/
def mcAddr (ranks a : Nat) : Nat :=
  mcSub a + 2 * mcRank ranks a + 4 * (mcBankGroup ranks a / 4) + 32 * (mcBankGroup ranks a % 4) +
    128 * (mcRow ranks a % 2 ^ 18) + 2 ^ 25 * mcCol a

/-! ### Row disturbance (R362) -/

/-- The activation count of an owner at a bank. -/
def MemcSt.actOf (m : MemcSt) (b owner : Nat) : Nat :=
  ((m.acts.find? (fun x => x.1 == b && x.2.1 == owner)).map (fun x => x.2.2)).getD 0

/-- Count an activation: a new owner at a bank with eight entries replaces the one with the lowest count and takes that
count plus one. -/
def MemcSt.act (m : MemcSt) (b owner : Nat) : MemcSt :=
  let here := m.acts.filter (fun x => x.1 == b)
  if here.any (fun x => x.2.1 == owner) then
    let up (x : Nat × Nat × Nat) : Nat × Nat × Nat := if x.1 == b && x.2.1 == owner then (x.1, x.2.1, x.2.2 + 1) else x
    { m with acts := m.acts.map up }
  else if here.length < 8 then { m with acts := m.acts ++ [(b, owner, 1)] }
  else
    let least := ((here.map (fun x => x.2.2)).min?).getD 0
    match here.find? (fun x => x.2.2 == least) with
    | some v => { m with acts := (m.acts.filter (fun x => x != v)) ++ [(b, owner, least + 1)] }
    | none => m

/-- May this request not be activated for its owner until the window ends? -/
def Dev.mcThrottled (d : Dev) (q : Nat) (r : DReq) : Bool :=
  let m := d.mc q
  let b := mcBank (d.mcRanks q) r.addr
  (m.bank b).row != some (mcRow (d.mcRanks q) r.addr) && decide (d.f (F.MEMC_RHT_ACTMAX q) ≤ m.actOf b r.owner)

/-! ### Error correction (R366 to R369) -/

/-- What the decoder makes of a burst. -/
inductive Burst where
  | clean | corrected | uncorrectable
  deriving DecidableEq, Repr

/-- The device of a symbol: 8 symbols each for x4, 16 for x8 (R366). -/
def symDevice (x8 : Bool) (s : Nat) : Nat := if x8 then s / 16 else s / 8

/-- Classify a burst by the positions of its erroneous symbols, with the subchannel's marked device (R366, R367). -/
def classify (x8 : Bool) (mark : Option Nat) (errs : List Nat) : Burst :=
  match mark with
  | none =>
    if errs.isEmpty then .clean
    else if (errs.map (fun s => s / 8)).eraseDups.length ≤ 1 then .corrected else .uncorrectable
  | some m =>
    let out := errs.filter (fun s => symDevice x8 s != m)
    if errs.isEmpty then .clean
    else if out.length ≤ (if x8 then 0 else 4) then .corrected
    else .uncorrectable

/-- The marked device of a subchannel. -/
def Dev.mcMark (d : Dev) (q sub : Nat) : Option Nat :=
  let v := if sub = 0 then d.f (F.MEMC_MARK_DEV0 q) else d.f (F.MEMC_MARK_DEV1 q)
  if v = 15 then none else some v

/-- A correction is attributed to a device; the MARKN-th in 24 hours marks it, or is refused where the subchannel holds a
mark (R367). -/
def Dev.mcFix (d : Dev) (q sub dev : Nat) : Dev :=
  let m := d.mc q
  let day := m.fixes.filter (fun x => decide (d.now < x.2.2 + 86400000))
  let d1 := d.setMc q { m with fixes := day ++ [(sub, dev, d.now)] }
  let n := (day.filter (fun x => x.1 == sub && x.2.1 == dev)).length + 1
  if n < d.f (F.MEMC_MARK_MARKN q) ∨ d.mcMark q sub = some dev then d1
  else match d.mcMark q sub with
    | some _ => if n = d.f (F.MEMC_MARK_MARKN q) then d1.raise (quadEvent q 6 1) noPlot [sub, dev, 1] else d1
    | none =>
      let x := if sub = 0 then F.MEMC_MARK_DEV0 q else F.MEMC_MARK_DEV1 q
      (({ d1 with marks := AMap.put (2 * q + sub) dev d1.marks }.setF x dev)).raise (quadEvent q 6 1) noPlot [sub, dev, 0]

/-- A burst is read and decoded (R366, R368): counts, tables, marks, poison written back. The answer says whether the flit is
poisoned. -/
def Dev.mcDecode (d : Dev) (q a : Nat) (errs : List Nat) : Bool × Dev :=
  let sub := mcSub a
  let x8 := d.flag (F.MEMC_CFG_WIDTH q)
  let mark := d.mcMark q sub
  let was := (d.mc q).mem.poisoned a
  let dev := symDevice x8 (((errs.find? (fun s => some (symDevice x8 s) != mark)).getD (errs.headD 0)))
  match classify x8 mark errs with
  | .clean => (was, if was then d.mcCount q 4 1 else d)
  | .corrected =>
    let d1 := ((d.mcCount q 2 1).eccCorrect 1 dev q (Bool.nat (mark == some dev)) (mcAddr (d.mcRanks q) a)).mcFix q sub dev
    (was, if was then d1.mcCount q 4 1 else d1)
  | .uncorrectable =>
    let d1 := (((d.mcCount q 3 1).eccUncorrect 1).setMc q { (d.mc q) with mem := (d.mc q).mem.setPoison a true })
    (true, d1.raise (quadEvent q 6 0) noPlot [mcAddr (d.mcRanks q) a])

/-! ### Scheduling (R359, R360) -/

/-- Do two requests address one burst? -/
def sameBurst (a b : Nat) : Bool := a / 64 == b / 64

/-- The 64 bytes of a burst as a little-endian number. -/
def Dev.burst (d : Dev) (q a : Nat) : Nat := leNat ((d.mc q).mem.bytes (a / 64 * 64) 64)

/-- Put the bytes of `mask` of `new` over `old`. -/
def mergeBytes (old new mask : Nat) : Nat :=
  leNat ((List.range 64).map (fun i =>
    BitVec.ofNat 8 ((if mask.testBit i then new else old) / 2 ^ (8 * i))))

/-- Write a burst (R368): 64 clean bytes end a mark; fewer are merged and keep it; poisoned data is stored poisoned. -/
def MemcSt.store (m : MemcSt) (r : DReq) : MemcSt :=
  let a := r.addr / 64 * 64
  let old := leNat (m.mem.bytes a 64)
  let whole := r.mask % 2 ^ 64 == 2 ^ 64 - 1
  let p := r.poison || (!whole && m.mem.poisoned a)
  { m with mem := (m.mem.setBytes a (leBytes 64 (mergeBytes old r.data r.mask))).setPoison a p }

/-- The predictor learns from a bank's next access (R360). -/
def DBank.learn (b : DBank) (row : Nat) : DBank :=
  match b.last with
  | none => b
  | some r => { b with ctr := if r = row then min 3 (b.ctr + 1) else b.ctr - 1, last := none }

/-- What follows the last queued access to an open row: the page policy. -/
def DBank.settle (b : DBank) (mode row : Nat) : DBank :=
  let keep := if mode = 0 then decide (2 ≤ b.ctr) else mode == 1
  { b with last := some row, row := if keep then some row else none }

/-- Issue the column command of a request: activation where its row is not open, Refresh Management, the page policy, the
retry buffer, and the access itself. -/
def Dev.mcIssue (d : Dev) (q sub : Nat) (r : DReq) : Dev :=
  let m := d.mc q
  let ranks := d.mcRanks q
  let b := mcBank ranks r.addr
  let row := mcRow ranks r.addr
  let bk := (m.bank b).learn row
  let hit := bk.row == some row
  let m1 := if hit then m.setBank b bk else (m.setBank b { bk with row := some row, raa := bk.raa + 1 }).act b r.owner
  let s := m1.sub sub
  let s1 := { s with rq := s.rq.filter (fun x => x.id != r.id), wq := s.wq.filter (fun x => x.id != r.id) }
  let m2 := m1.setSub sub s1
  let more := (s1.rq ++ s1.wq).any (fun x => mcBank ranks x.addr == b && mcRow ranks x.addr == row)
  let m3 := if more then m2 else m2.setBank b ((m2.bank b).settle (d.f (F.MEMC_PAGE_MODE q)) row)
  let rfm := d.flag (F.MEMC_REF_RFM q) && decide (0 < m3.rfmAt) && decide (m3.rfmAt ≤ (m3.bank b).raa)
  let m4 := if rfm then m3.setBank b { m3.bank b with raa := (m3.bank b).raa - m3.rfmAt } else m3
  let m5 := { m4 with retry := ((m4.retry ++ [({ sub := sub, req := r } : DCmd)]).drop (m4.retry.length - 63)) }
  let m6 := if r.write then m5.store r
    else
      let over_ := s.wq.filter (fun x => sameBurst x.addr r.addr)
      { m5 with inflight := m5.inflight ++ [({ id := r.id, addr := r.addr, sub := sub, over_ := over_ } : DInflight)] }
  let e := d.setMc q m6
  let e1 := if rfm then e.mcCount q 7 1 else e
  let e2 := e1.mcCount q (if r.write then 1 else 0) 1
  let full := !hit && m6.actOf b r.owner == d.f (F.MEMC_RHT_ACTMAX q) && !m6.reported.contains r.owner
  if full then
    ((e2.setMc q { e2.mc q with reported := NSet.add r.owner (e2.mc q).reported }).raise (quadEvent q 6 2)
      (ownerPlot r.owner) [r.owner, b])
  else e2

/-- One replay of a rank's commands (R364): CA_REPLAY, the count. -/
def Dev.mcReplay (d : Dev) (q : Nat) : Dev :=
  (d.setF (F.MEMC_RETRY_COUNT q) (satAdd 16 (d.f (F.MEMC_RETRY_COUNT q)) 1)).raise (quadEvent q 6 3) noPlot []

/-- A request as it enters a queue. -/
def toReq (r : MemReq) : DReq :=
  { id := r.id, addr := r.addr, write := r.write, owner := r.owner, data := r.data, mask := r.mask, poison := r.poison,
    waited := 0, thr := false }

/-- The oldest of some requests, and the scheduler's choice (R359, R24). -/
def oldest (rs : List DReq) : Option DReq :=
  match (rs.map (fun r => r.id)).min? with
  | some i => rs.find? (fun r => r.id == i)
  | none => none

def Dev.mcChoose (d : Dev) (q : Nat) (cands all : List DReq) (arb : Arb) : Option DReq :=
  let m := d.mc q
  let ranks := d.mcRanks q
  let aged := all.filter (fun r => decide (d.f (F.MEMC_SCHED_AGECAP q) ≤ r.waited))
  let hits := cands.filter (fun r => (m.bank (mcBank ranks r.addr)).row == some (mcRow ranks r.addr))
  let want := match oldest aged with
    | some r => some r
    | none => match oldest hits with
      | some r => some r
      | none => oldest cands
  match want with
  | none => none
  | some r =>
    let g := arb.pick (all.map (fun x => x.id)) r.id
    all.find? (fun x => x.id == g)

/-- MEMC_SCHEDULE (R359): one column-command round of a subchannel, `elapsed` tenths of a microsecond after the last, with
the requests that have arrived in order. A full queue takes no more. `errs` are the erroneous symbols of the burst that a write of fewer
than 64 bytes is merged into, which is read and decoded first (R368). -/
def memcSchedule (q sub : Nat) (arrivals : List MemReq) (elapsed : Nat) (errs : List Nat) (d : Dev) : Dev :=
  let m := d.mc q
  let s := m.sub sub
  let age (r : DReq) : DReq := { r with waited := r.waited + elapsed }
  let mine := (arrivals.filter (fun r => mcSub r.addr == sub)).map toReq
  let rq := ((s.rq.map age) ++ mine.filter (fun r => !r.write)).take 64
  let wq := ((s.wq.map age) ++ mine.filter (fun r => r.write)).take 64
  let dr0 := if d.f (F.MEMC_SCHED_WRHI q) < wq.length then true
    else if wq.length < d.f (F.MEMC_SCHED_WRLO q) then false else s.draining
  if sub < 2 ∧ d.quadOk q then
    let d1 := d.setMc q (m.setSub sub { s with rq := rq, wq := wq, draining := dr0 })
    if ¬d.mcRuns q then d1
    else
      let thr (r : DReq) : Bool := d1.mcThrottled q r
      let fresh := ((rq ++ wq).filter (fun r => thr r && !r.thr)).length
      let mark (r : DReq) : DReq := if thr r then { r with thr := true } else r
      let s1 := { s with rq := rq.map mark, wq := wq.map mark, draining := dr0 }
      let d2 := (d1.setMc q ((d1.mc q).setSub sub s1)).mcCount q 5 fresh
      let all := (s1.rq ++ s1.wq).filter (fun r => !thr r)
      let ws := s1.wq.filter (fun r => !thr r)
      let rs := s1.rq.filter (fun r => !thr r)
      let cands := if (dr0 || s1.rq.isEmpty) && !ws.isEmpty then ws else rs
      match d2.mcChoose q cands all s1.arb with
      | none => d2
      | some r =>
        let d3 := d2.setMc q ((d2.mc q).setSub sub { s1 with arb := s1.arb.round (all.map (fun x => x.id)) r.id })
        let d4 := if r.write ∧ r.mask % 2 ^ 64 ≠ 2 ^ 64 - 1 then ((d3.mcDecode q r.addr errs).2).mcCount q 0 1 else d3
        let a := (d4.mcIssue q sub r).finjItem 4 q 0
        let ranks := d.mcRanks q
        let last (m : MemcSt) : List DCmd := m.retry.drop (m.retry.length - 1)
        if a.1 then (a.2.setMc q ((a.2.mc q).replayRows ranks (mcRank ranks r.addr) (last (a.2.mc q)))).mcReplay q else a.2
  else d

def execMemcSchedule (q sub : Nat) (arrivals : List MemReq) (elapsed : Nat) (errs : List Nat) :=
  run (memcSchedule q sub arrivals elapsed errs)

/-- PAGE_IDLE_CLOSE (R360): a row left open and idle for MEMC_PAGE.IDLE is precharged. -/
def pageIdleClose (q b : Nat) (d : Dev) : Dev :=
  let m := d.mc q
  let ranks := d.mcRanks q
  let s (i : Nat) : List DReq := (m.sub i).rq ++ (m.sub i).wq
  match (m.bank b).row with
  | none => d
  | some row =>
    if (s 0 ++ s 1).any (fun r => mcBank ranks r.addr == b && mcRow ranks r.addr == row) then d
    else d.setMc q (m.setBank b { m.bank b with row := none })

def execPageIdleClose (q b : Nat) := run (pageIdleClose q b)

/-! ### Reads and the scrub (R366, R369) -/

/-- The SLM byte (plot, offset) that a burst holds, if it holds any, is poisoned with it (R20, R366). -/
def Dev.slmMark (d : Dev) (slm : Option (Nat × Nat)) (poison : Bool) : Dev :=
  match slm with
  | some (pl, off) => if poison then d.setSlm pl ((d.slm pl).setPoison off true) else d
  | none => d

/-- DRAM_BURST_READ (R366): the burst of an issued read is decoded, with erroneous symbols at `errs` (0 to 79), and its data
delivered, queued writes to its bytes over it. `slm` names the SLM byte (plot, offset) that the burst holds, if it holds any:
an uncorrectable burst is poisoned there too. -/
def dramBurstRead (q id : Nat) (errs : List Nat) (slm : Option (Nat × Nat)) (d : Dev) : Dev :=
  match (d.mc q).inflight.find? (fun x => x.id == id) with
  | none => d
  | some x =>
    let r := d.mcDecode q x.addr errs
    let m := r.2.mc q
    let data := x.over_.foldl (fun v w => mergeBytes v w.data w.mask) (d.burst q x.addr)
    let covered := x.over_.any (fun w => w.mask % 2 ^ 64 == 2 ^ 64 - 1)
    let p := (r.1 && !covered) || x.over_.any (fun w => w.poison)
    let e := r.2.setMc q { m with inflight := m.inflight.filter (fun y => y.id != id), out := m.out ++ [{ id := id, data := data, poison := p }] }
    e.slmMark slm p

def execDramBurstRead (q id : Nat) (errs : List Nat) (slm : Option (Nat × Nat)) := run (dramBurstRead q id errs slm)

/-- SCRUB_READ (R369): patrol scrub reads the next burst; `slm` as for DRAM_BURST_READ. -/
def scrubRead (q : Nat) (errs : List Nat) (slm : Option (Nat × Nat)) (d : Dev) : Dev :=
  let mode := d.f F.TOP_MODE_MODE
  let cap := d.f (F.MEMC_STAT_CAPGIB q) * 2 ^ 30
  if d.mcRuns q ∧ 6 ≤ mode ∧ mode ≤ 9 ∧ d.f F.PWR_PSTATE_PS < 3 ∧ d.f (F.MEMC_SCRUB_HOURS q) ≠ 0 ∧ cap ≠ 0 then
    let a := (d.mc q).scrubAt
    let d1 := ((d.mcDecode q a errs).2.mcCount q 0 1).slmMark slm (d.mcDecode q a errs).1
    let next := (a + 64) % cap
    (d1.setMc q { d1.mc q with scrubAt := next }).setF (F.MEMC_SCRUB_PCT q) (next * 100 / cap)
  else d

def execScrubRead (q : Nat) (errs : List Nat) (slm : Option (Nat × Nat)) := run (scrubRead q errs slm)

/-! ### Refresh, training and frequency (R357, R361, R363) -/

/-- MR4_POLL (R361): `hot` says that a device reports above 85 °C; two cool polls in a row end the halved interval. -/
def mr4Poll (q : Nat) (hot : Bool) (d : Dev) : Dev :=
  let m := d.mc q
  if ¬d.quadOk q then d
  else if hot then (d.setMc q { m with cool := 0 }).setF (F.MEMC_STAT_HOTREF q) 1
  else
    let d1 := d.setMc q { m with cool := min 2 (m.cool + 1) }
    if 2 ≤ m.cool + 1 then d1.setF (F.MEMC_STAT_HOTREF q) 0 else d1

def execMr4Poll (q : Nat) (hot : Bool) := run (mr4Poll q hot)

/-- `n` refreshes lower the rolling activation count of every bank by the threshold each (PRESUMED, assumption 181). -/
def MemcSt.refreshed (m : MemcSt) (n : Nat) : MemcSt :=
  { m with banks := m.banks.map (fun b => (b.1, { b.2 with raa := b.2.raa - n * m.rfmAt })) }

/-- REFRESH_DUE (R361): a refresh is postponed behind pending accesses, four at most, or issued with those postponed. -/
def refreshDue (q : Nat) (d : Dev) : Dev :=
  let m := d.mc q
  let busy := (List.range 2).any (fun i => !((m.sub i).rq ++ (m.sub i).wq).isEmpty)
  if ¬d.quadOk q then d
  else if busy ∧ m.postponed < 4 then d.setMc q { m with postponed := m.postponed + 1 }
  else
    let n := if busy then 1 else m.postponed + 1
    let m1 := (if d.flag (F.MEMC_REF_SB q) then m else m.closeAll).refreshed n
    let d1 := d.setMc q { m1 with postponed := m.postponed + 1 - n }
    if d.flag (F.MEMC_STAT_HOTREF q) then d1.mcCount q 6 n else d1

def execRefreshDue (q : Nat) := run (refreshDue q)

/-- RHT_WINDOW_END (R362). -/
def rhtWindowEnd (q : Nat) (d : Dev) : Dev := d.setMc q { d.mc q with acts := [], reported := [] }

def execRhtWindowEnd (q : Nat) := run (rhtWindowEnd q)

/-- DQS_OSC_READ (R357): the oscillator of a rank has drifted by `drift` / 64 of a unit interval since its last training;
more than one eighth retrains it. -/
def dqsOscRead (q rank drift : Nat) (d : Dev) : Dev :=
  let m := d.mc q
  if ¬d.mcRuns q ∨ ¬d.flag (F.MEMC_STAT_TRAINED q) ∨ d.mcRanks q < rank then d
  else if 8 < drift then d.setMc q { m with drift := AMap.set 0 rank 0 m.drift, retrains := m.retrains + 1 }
  else d.setMc q { m with drift := AMap.set 0 rank drift m.drift }

def execDqsOscRead (q rank drift : Nat) := run (dqsOscRead q rank drift)

/-- The banks are precharged when a switch starts (R363 step 2). -/
def Dev.fchgClose (d : Dev) (q : Nat) : Dev := if d.flag (F.MEMC_STAT_FBUSY q) then d.setMc q (d.mc q).closeAll else d

/-- MEMC_FCHG_GO (R363). -/
def memcFchgGo (q : Nat) (d : Dev) : Dev := if d.quadOk q then (d.fchgGo q).fchgClose q else d

def execMemcFchgGo (q : Nat) := run (memcFchgGo q)

/-- FREQ_CHANGE_DONE (R363): the other set is in force; a GO that waited starts another switch. -/
def freqChangeDone (q : Nat) (d : Dev) : Dev :=
  if d.quadOk q ∧ d.flag (F.MEMC_STAT_FBUSY q) then
    let d1 := (((d.setF (F.MEMC_STAT_SET q) (1 - d.f (F.MEMC_STAT_SET q))).setF (F.MEMC_STAT_FBUSY q) 0).setF
      (F.MEMC_STAT_SREF q) 0).setF (F.MEMC_FCHG_GO q) 0
    let d2 := d1.setMc q (d1.mc q).closeAll
    if (d2.mc q).goWaits then (d2.setMc q { d2.mc q with goWaits := false }).fchgGo q else d2
  else d

def execFreqChangeDone (q : Nat) := run (freqChangeDone q)

/-! ### Command retry (R364, R365) -/

/-- How many replays fail in a row from the first, and whether the channel fails at the `max`-th. -/
def replayRuns (max : Nat) : Nat → List Bool → Nat × Bool
  | n, [] => (n + 1, false)
  | n, again :: t => if again then (if max ≤ n + 1 then (n + 1, true) else replayRuns max (n + 1) t) else (n + 1, false)

/-- The channel fails (R365): reads of the window are delivered poisoned, MEMC_FAULT, the quadrant is retired. -/
def Dev.mcFail (d : Dev) (q : Nat) (ids : List Nat) : Dev :=
  let m := d.mc q
  let dead := m.inflight.filter (fun x => ids.contains x.id)
  let m1 := { m with inflight := m.inflight.filter (fun x => !ids.contains x.id),
                     out := m.out ++ dead.map (fun x => { id := x.id, data := 0, poison := true }) }
  (((d.setMc q m1).setF (F.MEMC_STAT_FAULT q) 1).raise (quadEvent q 6 4) noPlot []).retireQuadrant q Config.memcRetireCause

/-- CA_PARITY_ALERT (R364, R365): a rank asserts ALERT_n. The last `window` buffered commands to the rank are reissued in
order; `again` says of each replay whether ALERT_n recurs. A read of the window that has been delivered is delivered again,
and its earlier data discarded. -/
def caParityAlert (q rank window : Nat) (again : List Bool) (d : Dev) : Dev :=
  if ¬d.quadOk q then d
  else
    let m := d.mc q
    let cmds := m.retry.filter (fun c => mcRank (d.mcRanks q) c.req.addr == rank)
    let tail := cmds.drop (cmds.length - window)
    let win := tail.filter (fun c => !c.req.write)
    let ids := win.map (fun c => c.req.id)
    let redo := (win.filter (fun c => m.out.any (fun o => o.id == c.req.id))).map (fun c =>
      ({ id := c.req.id, addr := c.req.addr, sub := c.sub,
         over_ := ((m.sub c.sub).wq.filter (fun w => sameBurst w.addr c.req.addr && decide (w.id < c.req.id))) } : DInflight))
    let m1 := { m.replayRows (d.mcRanks q) rank tail with out := m.out.filter (fun o => !ids.contains o.id), inflight := m.inflight ++ redo }
    let r := replayRuns (d.f (F.MEMC_RETRY_MAX q)) 0 again
    let d1 := (List.range r.1).foldl (fun (e : Dev) _ => e.mcReplay q) (d.setMc q m1)
    if r.2 then d1.mcFail q ids else d1

def execCaParityAlert (q rank window : Nat) (again : List Bool) := run (caParityAlert q rank window again)

/-! ### SRAM and MRAM (R370, R371) -/

/-- SRAM_ECC_ERROR (R370): `unit` is the code of R373 (0x1 TCM to 0x9 Halward, 0xA device-level control state), `off` the word
offset, `dirty` says of a cache line that it is dirty. A damaged entry of the Sieve CAM is met by a search (R275). -/
def sramEccError (unit quad inst off : Nat) (uncorrectable dirty : Bool) (d : Dev) : Dev :=
  let cache := unit == 2 || unit == 3 || unit == 4
  let fixed := !uncorrectable || (cache && !dirty)
  if unit = 8 then d
  else if fixed then
    let d1 := d.eccCorrect 0 unit quad inst off
    if unit = 1 ∧ quad < 4 ∧ inst < 8 then d1.coreBump (8 * quad + inst) 7 1 else d1
  else
    let d1 := d.eccUncorrect 0
    let d2 := if unit = 1 ∧ quad < 4 ∧ inst < 8 then
        let c := 8 * quad + inst
        d1.setCpu c { d1.cpu c with tcm := (d1.cpu c).tcm.setPoison (8 * off) true }
      else if unit ≤ 7 then
        let k := (unit, quad, inst, off / 8)
        { d1 with pail := { d1.pail with sramPoison := if d1.pail.sramPoison.contains k then d1.pail.sramPoison else d1.pail.sramPoison ++ [k] } }
      else if 9 ≤ unit then { d1 with sramBad := true }
      else d1
    if cache then d2 else d2.raise 0x025 noPlot [unit, quad, off]

def execSramEccError (unit quad inst off : Nat) (uncorrectable dirty : Bool) :=
  run (sramEccError unit quad inst off uncorrectable dirty)

/-- What an uncorrectable block does to its owner (R371). -/
def Dev.mramBad (d : Dev) (x : MramBlk) : Dev :=
  match x with
  | .slot i =>
    let up (s : Nat × Slot) : Nat × Slot := if s.1 == i then (s.1, { s.2 with poison := true }) else s
    { d with mram := { d.mram with slots := d.mram.slots.map up } }
  | .commit w => { d with mram := { d.mram with badCommits := NSet.add w d.mram.badCommits } }
  | .batch b => { d with mram := { d.mram with badBatches := NSet.add b d.mram.badBatches } }
  | .metadata both =>
    if both then
      let d1 := { d with nv := { d.nv with readable := false } }
      if d.f F.TOP_MODE_MODE = 4 then d1.enterSafe 6 else d1
    else d

/-- MRAM_ECC_ERROR (R371): a 64-byte block at `off` is read and its decoder finds nothing (0), errors that it corrects (1) or
an uncorrectable block (2); an injector can add an error (R418). -/
def mramEccError (off : Nat) (x : MramBlk) (found : Nat) (d : Dev) : Dev :=
  let die := off / 2 ^ 28
  let a := d.finjItem 5 die 0
  let b := a.2.finjItem 6 die 0
  let f := if b.1 then 2 else if a.1 ∧ found = 0 then 1 else found
  if f = 0 then b.2
  else if f = 1 then b.2.eccCorrect 2 die 0xFF 0 (off / 64 * 64)
  else (((b.2.eccUncorrect 2).raise 0x026 noPlot [off]).ewOccur 17).mramBad x

def execMramEccError (off : Nat) (x : MramBlk) (found : Nat) := run (mramEccError off x found)

end Sys2Proof.Machine
end

