-- ==== Sys2Proof/Machine/Bist.lean ====
section
/-! DEFINITION. Tests in service (chapter 2): the in-field quadrant test (R44 to R46) and the extended device self-test (R54). -/

namespace Sys2Proof.Machine

/-- Does a running rebuild write to quadrant `q`: has a block stripe open for its relocations a member die there (R44)? -/
def Dev.rebuildIn (d : Dev) (q : Nat) : Bool :=
  d.strp.rebuilds.any (fun r => r.active && d.strp.stripes.any (fun s =>
    s.group == r.group && s.purpose == 1 && s.isOpen && s.blocks.any (fun jb => d.memberDie s.group jb.1 / 512 == q)))

/-- The extended device self-test ends: the mode returns. -/
def Dev.endSelfTest (d : Dev) (result unit_ : Nat) : Dev :=
  match d.mode.selfTest with
  | none => d
  | some _ => (({ d with mode := { d.mode with selfTest := none } }).selfTestResult 2 result unit_).setCond F.TOP_MODE_CXST false

/-! ### Wipe and fill (R38 to R40) -/

/-- The MRAM data regions are wiped: the write cache, the map journal, the stripe journal, the cluster journal (R39). -/
def Dev.wipeMram (d : Dev) : Dev :=
  { d with
    mram := { MramSt.init with jtail := d.mram.jhead, jhead := d.mram.jhead }
    strp := { d.strp with slots := [] }
    clu := { d.clu with preps := [], own := [], mirror := [], dirty := [] } }

/-- Every namespace is deallocated: nothing is mapped, and nothing on flash is referenced. Stripes that were open take no more
pages. -/
def Dev.deallocateAll (d : Dev) : Dev :=
  let close (b : Nat × Blk) : Nat × Blk := if b.2.state = .open then (b.1, { b.2 with state := .closed }) else b
  { d with
    md := { d.md with dir := [], blocks := d.md.blocks.map close }
    ftl := { FtlSt.init with ckptAt := d.ftl.ckptAt }
    strp := { d.strp with stripes := d.strp.stripes.map (fun s => { s with isOpen := false, closing := false }), rebuilds := [] }
    clu := { d.clu with chunks := [], marked := [] } }

/-- The fill of R38 on the memories of R39: SLM, DRAM, the Pail's rings, the cores' TCM, the images and programs held there, the
Sieves' CAM and tiles, the engine contexts, digest sessions and key slots, the mailbox rings, and the event journal. -/
def Dev.fillMemories (d : Dev) : Dev :=
  let mc (x : Nat × MemcSt) : Nat × MemcSt := (x.1, { x.2 with mem := Mem.init })
  let cpu (x : Nat × CoreSt) : Nat × CoreSt := (x.1, { x.2 with tcm := Mem.init })
  { d with
    trel := { d.trel with slm := [], dram := Mem.init, images := [], sets := [], jobs := [], waits := [], cmds := [], skimCtx := [], sieve := [] }
    crypt := { CryptSt.init with uses := d.crypt.uses }
    plot := { d.plot with mbx := d.plot.mbx.map (fun x => (x.1, { x.2 with up := [], dn := [] })) }
    memc := d.memc.map mc
    core := { d.core with cores := d.core.cores.map cpu, progs := [], insts := [] }
    pail := PailSt.init
    evt := { d.evt with journal := [] } }

/-- The media epoch of an NSID rises by one; at its last value the key is spent instead (R282). -/
def Dev.raiseEpoch (d : Dev) (nsid : Nat) : Dev :=
  let e := AMap.get 0 nsid d.epochs
  if e = 0xFFFFFFFF then { d with spent := NSet.add nsid d.spent }
  else
    let up (n : Ns) : Ns := if n.nsid = nsid then { n with epoch := e + 1 } else n
    { d with epochs := AMap.put nsid (e + 1) d.epochs, md := { d.md with nss := d.md.nss.map up } }

/-- What a Crypto Erase does to the keys (R281, R282): the epoch of every namespace, the media key slots. -/
def Dev.cryptoErase (d : Dev) : Dev :=
  let d1 := (d.md.nss.map (fun n => n.nsid)).foldl (fun (e : Dev) n => e.raiseEpoch n) d
  { d1 with crypt := { d1.crypt with keys := d1.crypt.keys.map (fun x => (x.1, x.2.filter (fun k => k.label.purpose != 1))) } }

/-- The global numbers of the dies present on channels in service that have not failed. -/
def Dev.goodDies (d : Dev) : List Nat := (List.range 2048).filter (fun x => d.chanOk (x / 64) && d.dieState x == 1)

/-- Every good block is erased, the free ones too (R65). -/
def Dev.eraseAll (d : Dev) : Dev :=
  let good : List Nat := d.goodDies.flatMap (fun x => (List.range (d.prof x).blocks).map (fun b => 8192 * x + b))
  let er (m : List (Nat × Blk)) (k : Nat) : List (Nat × Blk) :=
    let b := AMap.get Blk.init k m
    if b.state = .bad then m else AMap.put k { Blk.init with erases := b.erases + 1 } m
  { d with
    flash := { d.flash with cws := [] }
    md := { d.md with blocks := good.foldl er d.md.blocks }
    strp := { d.strp with stripes := [] }
    media := { d.media with reading := [] } }

/-- The wipe and the fill of SANITIZE. -/
def Dev.sanitizeWipe (d : Dev) : Dev := ((((d.wipeMram).deallocateAll).fillMemories).setMode 3).mapShow

/-- SANITIZE begins: a self-test that runs ends with result code 9 (assumption 146), what is outstanding of I/O ends with Sanitize In
Progress, keys and data go, the memories are filled. `kind` is 0 for a Crypto Erase, 1 for a Block Erase; the log shows SANACT 4 or 2. -/
def Dev.beginSanitize (d : Dev) (kind : Nat) : Dev :=
  let d := d.endSelfTest 9 0
  let io := (d.host.latches.filter (fun l => l.io)).map (fun l => l.id)
  let d1 := io.foldl (fun (e : Dev) i => e.done i .sanitizeInProgress) d
  let d2 := (d1.orphan (fun i => io.contains i)).cryptoErase
  let d3 := { d2 with nv := { d2.nv with sanitize := some kind, sanKind := if kind = 0 then 4 else 2 }, mode := { d2.mode with sanitizeWait := none } }
  d3.sanitizeWipe

/-- A sanitize that waited for the quadrant under test begins, in an operating mode (R34). -/
def Dev.sanitizeGo (d : Dev) : Dev :=
  match d.mode.sanitizeWait, d.mode.qtest with
  | some k, none => if d.isOperating then d.beginSanitize k else d
  | _, _ => d

/-- The device metadata is wiped by a life-cycle change: the counters restart at zero, and the bad-block tables are copied
again from their originals; each group's good blocks are those of its first boot (R39, R136). -/
def Dev.wipeMetadata (d : Dev) : Dev :=
  let bad : List (Nat × Blk) := d.flash.factoryBad.map (fun b => (b, { Blk.init with state := .bad }))
  let d1 := { d with
    nv := NvSt.init
    md := { MetaSt.init with blocks := bad, media := AMap.set 0 72 d.flash.factoryBad.length [] }
    eras := [], epochs := [], spent := [], gcm := [], marks := []
    strp := StrpSt.init
    clu := CluNv.init }
  d1.groups.foldl (fun (e : Dev) g => { e with md := { e.md with base := AMap.put g (e.good g) e.md.base } }) d1

/-- SANITIZE_DONE (R34, R39, R40): the wipe and the fill end. A Block Erase has erased every good block; a life-cycle change has
wiped the device metadata. With a failure the part enters SAFE. -/
def sanitizeDone (ok : Bool) (d : Dev) : Dev :=
  if d.f F.TOP_MODE_MODE ≠ 3 then d
  else
    let kind := d.nv.sanitize
    let lc := d.nv.lcPending
    let d1 := { d with nv := { d.nv with sanitize := none, sanLast := if ok then 1 else 3, gde := ok && kind.isSome, lcPending := false } }
    if ¬ok then ({ d1 with nv := { d1.nv with lcPending := lc } }).enterSafe 7
    else
      let d2 := if kind = some 1 then d1.eraseAll else d1
      let d3 := if lc then (((d2.wipeMetadata).setF F.TOP_MODE_CRO 0).setF F.MAPW_STAT_ROCOND 0).setF F.MRAMC_WSEQ_NEXT 1 else d2
      (d3.enterOperating).powerCombine

def execSanitizeDone (ok : Bool) := run (sanitizeDone ok)

/-! ### The in-field quadrant test (R44 to R46) -/

/-- The device self-test's next quadrant. -/
def Dev.selfTestQuad (d : Dev) : Option Nat := d.mode.selfTest.bind (fun t => if t.abort then none else t.quads.head?)

/-- May quadrant `q` be tested now (R44)? -/
def Dev.canTest (d : Dev) (q : Nat) : Bool :=
  d.isOperating && decide (d.f F.PWR_PSTATE_PS ≤ 1) && d.mode.qtest.isNone && d.quadOk q && !d.rebuildIn q && !d.mode.pfStop &&
  d.mode.sanitizeWait.isNone

/-- The test of a quadrant starts. -/
def Dev.startTest (d : Dev) (q : Nat) : Dev :=
  let d1 := { d with mode := { d.mode with qtest := some ⟨q, false⟩, due := NSet.del q d.mode.due } }
  let d2 := if d1.f F.TOP_QBIST_NEXTQ = q then d1.setF F.TOP_QBIST_NOW 0 else d1
  (d2.setF F.TOP_QBIST_BUSY 1).raise 0x003 noPlot []

/-- A sanitize that waits starts; else the test that the device self-test or a deferred test waits for, when R44 allows. -/
def Dev.testSweep (d : Dev) : Dev :=
  let d := d.sanitizeGo
  match (d.selfTestQuad.toList ++ d.mode.due).find? d.canTest with
  | some q => d.startTest q
  | none => d

/-- QBIST_DUE (R44): the interval of a quadrant expires; the test starts or is deferred. -/
def qbistDue (q : Nat) (d : Dev) : Dev :=
  if ¬d.quadOk q ∨ d.f F.TOP_QBIST_INTERVAL = 0 ∨ d.underTest q then d
  else ({ d with mode := { d.mode with due := NSet.add q d.mode.due } }).testSweep

def execQbistDue (q : Nat) := run (qbistDue q)

/-- QBIST_NOW (R44): TOP_QBIST.NOW is written 1. -/
def qbistNow (d : Dev) : Dev :=
  let q := d.f F.TOP_QBIST_NEXTQ
  if ¬d.quadOk q then d
  else ({ d.setF F.TOP_QBIST_NOW 1 with mode := { d.mode with due := NSet.add q d.mode.due } }).testSweep

def execQbistNow := run qbistNow

/-- QBIST_DRAIN_DONE (R44 steps 2 to 4): the programs and erases in progress have finished; the quadrant is isolated with its
DRAM in self-refresh. -/
def qbistDrainDone (d : Dev) : Dev :=
  match d.mode.qtest with
  | none => d
  | some t =>
    let running := d.media.dies.any (fun x => x.1 / 512 == t.quad &&
      (x.2.busy.toList ++ x.2.suspended.toList ++ x.2.ended.toList).any (fun o => o.cls == .program || o.cls == .erase))
    if t.isolated ∨ running then d
    else ({ d with mode := { d.mode with qtest := some { t with isolated := true } } }).setF (F.MEMC_STAT_SREF t.quad) 1

def execQbistDrainDone := run qbistDrainDone

/-- Add to a self-test counter. -/
def Dev.bistCount (d : Dev) (k : Nat) : Dev := d.setF (F.BIST_CNT_COUNT k) (satAdd 64 (d.f (F.BIST_CNT_COUNT k)) 1)

/-- A timing-set switch that waited for the test starts (R363). -/
def Dev.goAfterTest (d : Dev) (q : Nat) : Dev :=
  if (d.mc q).goWaits ∧ ¬d.flag (F.MEMC_STAT_FBUSY q) then
    (((d.setMc q { d.mc q with goWaits := false }).setF (F.MEMC_STAT_FBUSY q) 1).setF (F.MEMC_STAT_SREF q) 1)
  else d

/-- Note a segment that fails. -/
def SelfTest.note (t : SelfTest) (ok : Bool) (seg : Nat) : SelfTest :=
  { t with failed := if ok then t.failed else some (t.failed.getD seg) }

/-- The device self-test's quadrant has been tested: a failure is noted, an abort takes effect, the next quadrant is due. -/
def Dev.selfTestStep (d : Dev) (q : Nat) (ok : Bool) : Dev :=
  match d.mode.selfTest with
  | none => d
  | some t =>
    if ¬t.quads.contains q then (if t.abort then d.endSelfTest 1 0 else d)
    else
      let d1 := { d with mode := { d.mode with selfTest := some ({ t with quads := NSet.del q t.quads }.note ok (q + 1)) } }
      if t.abort then d1.endSelfTest 1 0 else d1

/-- QBIST_PATTERNS_DONE (R44 to R46): in-field BIST ends after `ms` tenths of a millisecond out of service; the quadrant
rejoins, or is retired. A sanitize that waits ranks before the retirement (R35). -/
def qbistPatternsDone (ok : Bool) (ms : Nat) (d : Dev) : Dev :=
  match d.mode.qtest with
  | none => d
  | some t =>
    if ¬t.isolated then d
    else
      let q := t.quad
      let d1 := ({ d with mode := { d.mode with qtest := none } }).setF F.TOP_QBIST_BUSY 0
      let d2 := (((d1.setF F.BIST_LAST_QUAD q).setF F.BIST_LAST_PASS (Bool.nat ok)).setF F.BIST_LAST_VALID 1).setF F.BIST_LAST_MS (min ms 65535)
      let d3 := (d2.bistCount 0).bistCount (if ok then 1 else 2)
      let d4 := if ok then ((d3.setF (F.MEMC_STAT_SREF q) 0).goAfterTest q).raise 0x004 noPlot [] else d3
      let d5 := if d4.f F.TOP_QBIST_NEXTQ = q then d4.setF F.TOP_QBIST_NEXTQ (d4.quadAfter q) else d4
      let d6 := (d5.selfTestStep q ok).sanitizeGo
      (if ok then d6 else d6.retireQuadrant q 1).testSweep

def execQbistPatternsDone (ok : Bool) (ms : Nat) := run (qbistPatternsDone ok ms)

/-- MRAM_SLICE_TEST_DONE (R54): the test of the next 64 MiB slice of the write cache ends. A failing word is handled under R371
by its own MRAM_ECC_ERROR command. -/
def mramSliceTestDone (ok : Bool) (d : Dev) : Dev :=
  match d.mode.selfTest with
  | none => d
  | some t =>
    if ¬t.quads.isEmpty ∨ 10 ≤ t.slice ∨ d.mode.qtest.isSome then d
    else
      let d1 := { d with mode := { d.mode with selfTest := some ({ t with slice := t.slice + 1 }.note ok (16 + t.slice)) } }
      if t.abort then d1.endSelfTest 1 0 else d1

def execMramSliceTestDone (ok : Bool) := run (mramSliceTestDone ok)

/-- EXTENDED_SELF_TEST_DONE (R54): every quadrant and slice has been tested, or the abort has taken effect; the part returns to
the operating mode. -/
def extendedSelfTestDone (d : Dev) : Dev :=
  match d.mode.selfTest with
  | none => d
  | some t =>
    if ¬t.extended ∨ d.mode.qtest.isSome then d
    else if t.abort then d.endSelfTest 1 0
    else if t.quads.isEmpty ∧ t.slice = 10 then
      (match t.failed with
        | some seg => d.endSelfTest 7 seg
        | none => d.endSelfTest 0 0)
    else d

def execExtendedSelfTestDone := run extendedSelfTestDone

end Sys2Proof.Machine
end

