-- ==== Sys2Proof/Machine/Admin.lean ====
section
/-! DEFINITION. The admin commands of the manager (chapters 2, 3, 8 and 16): namespaces, allotments, Format, firmware and
streams, self-tests, sanitize, the anchor, grafts, and Security Receive. -/

namespace Sys2Proof.Machine

/-- An admin command that finds the part in DOZE wakes it, and runs when it is awake (R54); otherwise as `Dev.admin`. -/
def Dev.adminUp (d : Dev) (c : NCmd) (mgr safe san : Bool) (go : Dev → Dev) : Dev :=
  d.admin c mgr safe san (fun e => if e.f F.TOP_MODE_MODE = 0xA then e else go e)

/-! ### Namespaces (R65, R68, R69, R195, R252, R282) -/

/-- A notice to the controllers a namespace is attached to: the list of changed namespaces and, where feature 0Bh enables it,
the asynchronous event. -/
def Dev.nsChanged (d : Dev) (nsid : Nat) (ps : List Nat) : Dev :=
  ps.foldl (fun (e : Dev) p =>
    let l := if e.host.changedNs.contains (p, nsid) then e.host.changedNs else e.host.changedNs ++ [(p, nsid)]
    let e1 := { e with host := { e.host with changedNs := l } }
    if bit (e1.ctrl p).feat.asyncCfg 8 then e1.asyncTo p ⟨2, 0, 0x04⟩ else e1) d

/-- Is a namespace out of reach in TEST (R55)? -/
def Dev.notReady (d : Dev) (n : Ns) : Bool := (d.f F.TOP_MODE_MODE == 0xB && !n.test) || (n.cluster.isSome && d.gwl.mismatch)

/-- The protection types a format can have (R68). -/
def piTypeOk (lbaf pi : Nat) : Bool := pi == 0 || (lbaf == 1 && (pi == 1 || pi == 3))

/-- Are the fields of a new namespace in range (R68, R195, R252)? `geom` is byte 385, `comp` byte 386. -/
def Dev.newNsOk (d : Dev) (nsze ncap lbaf pi iu geom comp : Nat) : Bool :=
  let need := if geom = 1 then 5 else 8
  decide (1 ≤ nsze ∧ 1 ≤ ncap ∧ ncap ≤ nsze ∧ lbaf ≤ 3 ∧ iu ≤ 2 ∧ geom ≤ 3 ∧ comp ≤ 2) && piTypeOk lbaf pi &&
  (comp == 0 || (iu != 0 && lbaf != 1 && lbaf != 2 && geom == 0)) && (comp != 0 || nsze == ncap) &&
  (geom == 0 || (d.isMember && decide (need ≤ d.ccount) && d.f F.TOP_MODE_MODE != 0xB))

/-- The NSIDs a new namespace can be given: free, and with a media key that is not spent (R195, R282). -/
def Dev.freeNsids (d : Dev) (cluster : Bool) : List Nat :=
  ((List.range 1024).map (· + 1)).filter (fun n =>
    (if cluster then decide (769 ≤ n) else !d.isMember || decide (n ≤ 768)) && (d.ns? n).isNone && !d.spent.contains n &&
    AMap.get 0 n d.epochs != 0xFFFFFFFF && !d.gwl.reserved.any (fun x => x.1 == n))

/-- Is every configured member in the view (R195)? -/
def Dev.allInView (d : Dev) : Bool := (List.range 8).all (fun i => !bit d.configured i || d.inView i)

/-- Send a share request or decision to every other configured member (R195). -/
def Dev.tellMembers (d : Dev) (k : CKind) (nsid nsze : Nat) : Dev :=
  ((List.range 8).filter (fun i => bit d.configured i && i != d.self)).foldl (fun (e : Dev) i =>
    e.sendTo { dst := i, kind := k, nsid := nsid, stripe := 0, tseq := 0, lead := e.self, vals := [(0, nsze)] }) d

/-- Create a namespace once its fields are in range. `refused` is a refusal of another member, with its Dword 0. -/
def Dev.createNs (d : Dev) (c : NCmd) (n : Ns) (refused : Option Nat) : Dev :=
  let cluster := n.cluster.isSome
  let ids := d.freeNsids cluster
  if cluster ∧ ¬d.allInView then d.complete c.id (.vendor 0xC0) 0xFF 0
  else if 1024 ≤ d.md.nss.length ∨ ids.isEmpty then d.done c.id .namespaceIdentifierUnavailable
  else if d.mapFree < d.nsMap n then (d.raise 0x1EA noPlot []).complete c.id .namespaceInsufficientCapacity 1 0
  else if ¬d.capFits n then d.complete c.id .namespaceInsufficientCapacity 0 0
  else
    let r := d.draw
    let id := ids.getD (Config.nsidPick r.1 % ids.length) 0
    let d1 := if cluster then r.2.tellMembers .reserve id n.nsze else r.2
    match (if cluster then refused else none) with
    | some dw => d1.complete c.id .namespaceInsufficientCapacity dw 0
    | none =>
      let d2 := if cluster then d1.tellMembers .create id n.nsze else d1
      let d3 := { d2 with md := { d2.md with nss := d2.md.nss ++ [{ n with nsid := id }] } }
      ((d3.raiseEpoch id).mapShow).complete c.id .success id 0

/-- Delete a namespace (R65, R195). -/
def Dev.dropNs (d : Dev) (n : Ns) : Dev :=
  let d1 := if n.cluster.isSome then d.tellMembers .create n.nsid 0 else d
  (d1.deleteNs n.nsid).nsChanged n.nsid n.attached

/-- NAMESPACE_MANAGEMENT (R65, R68, R69, R195, R252): create a namespace, or with `del` delete the one named (every one for
FFFFFFFFh). `iu`, `geom` and `comp` are bytes 384 to 386 of the host buffer. -/
def namespaceManagement (c : NCmd) (del : Bool) (nsze ncap lbaf pi : Nat) (ext shared : Bool) (iu geom comp : Nat) (refused : Option Nat)
    (d : Dev) : Dev :=
  d.adminUp c true false false (fun e =>
    if del then
      let all := c.nsid = 0xFFFFFFFF
      match (e.md.nss.filter (fun n => all || n.nsid == c.nsid)) with
      | [] => if all then e.done c.id .success else e.done c.id .invalidNamespaceOrFormat
      | ns =>
        if ns.any (fun n => n.cluster.isSome) ∧ e.f F.TOP_MODE_MODE = 0xB then e.done c.id .invalidField
        else if ns.any e.notReady then e.done c.id .namespaceNotReady
        else if ns.any (fun n => n.cluster.isSome) ∧ ¬e.allInView then e.complete c.id (.vendor 0xC0) 0xFF 0
        else (ns.foldl (fun (x : Dev) n => x.dropNs n) e).done c.id .success
    else e.withPrp c 4096 false (fun e =>
      if ¬e.newNsOk nsze ncap lbaf pi iu geom comp then e.done c.id .invalidField
      else
      e.createNs c
        { nsid := 0, nsze := nsze, ncap := ncap, lbaf := lbaf, iu := iu, pi := pi, ext := ext, comp := comp, attached := [],
          shared := shared, epoch := 0, test := e.f F.TOP_MODE_MODE == 0xB, resv := Resv.init, cluster := geomOf geom } refused))

def execNamespaceManagement (c : NCmd) (del : Bool) (nsze ncap lbaf pi : Nat) (ext shared : Bool) (iu geom comp : Nat)
    (refused : Option Nat) := run (namespaceManagement c del nsze ncap lbaf pi ext shared iu geom comp refused)

/-- NAMESPACE_ATTACHMENT (R65): attach a namespace to the controllers listed, or with `detach` detach it. -/
def namespaceAttachment (c : NCmd) (detach : Bool) (list : List Nat) (d : Dev) : Dev :=
  d.adminUp c true false false (fun e =>
    match e.ns? c.nsid with
    | none => e.done c.id .invalidNamespaceOrFormat
    | some n =>
      if e.notReady n then e.done c.id .namespaceNotReady
      else e.withPrp c 4096 false (fun e =>
      if list.isEmpty ∨ 2047 < list.length ∨ list.any (fun p => decide (512 ≤ p) || !e.plotEn p) ∨ list.eraseDups.length ≠ list.length then
        e.done c.id .controllerListInvalid
      else if detach then
        if list.any (fun p => !n.attached.contains p) then e.done c.id .namespaceNotAttached
        else
          ((e.setNs { n with attached := n.attached.filter (fun p => !list.contains p) }).nsChanged c.nsid list).done c.id .success
      else if list.any (fun p => n.attached.contains p) then e.done c.id .namespaceAlreadyAttached
      else if ¬n.shared ∧ 1 < n.attached.length + list.length then e.done c.id .namespaceIsPrivate
      else
        ((e.setNs { n with attached := list.foldl (fun l p => NSet.add p l) n.attached }).nsChanged c.nsid list).done c.id .success))

def execNamespaceAttachment (c : NCmd) (detach : Bool) (list : List Nat) := run (namespaceAttachment c detach list)

/-- FORMAT_NVM (R65): a new LBA format for one namespace, by plot 0 or a plot it is attached to. Its size in bytes stays, its
data goes; SES = 2 raises its media epoch (R282). -/
def formatNvm (c : NCmd) (lbaf ses pi : Nat) (ext : Bool) (d : Dev) : Dev :=
  d.adminUp c false false false (fun e =>
    match e.ns? c.nsid with
    | none => e.done c.id .invalidNamespaceOrFormat
    | some n =>
      if c.id.plot ≠ 0 ∧ ¬n.attached.contains c.id.plot then e.done c.id .invalidNamespaceOrFormat
      else if 2 < ses then e.done c.id .invalidField
      else if e.notReady n then e.done c.id .namespaceNotReady
      else if 3 < lbaf ∨ piTypeOk lbaf pi = false ∨ (n.comp ≠ 0 ∧ (lbaf = 1 ∨ lbaf = 2)) then e.done c.id .invalidFormat
      else
        let scale (v : Nat) : Nat := v * lbaBytes n.lbaf / lbaBytes lbaf
        let n1 : Ns := { n with nsze := scale n.nsze, ncap := scale n.ncap, lbaf := lbaf, pi := pi, ext := ext }
        if e.mapFree + e.nsMap n < e.nsMap n1 then e.done c.id .invalidFormat
        else
          let e1 := (e.purgeNs c.nsid).setNs n1
          let e2 := if ses = 2 then (e1.raiseEpoch c.nsid).clearKeys (fun k => k.label.purpose == 1 && k.label.nsid == c.nsid) else e1
          ((e2.mapShow).nsChanged c.nsid n1.attached).done c.id .success)

def execFormatNvm (c : NCmd) (lbaf ses pi : Nat) (ext : Bool) := run (formatNvm c lbaf ses pi ext)

/-! ### Virtualization Management (R65, R90, R97) -/

/-- Change QMAX (`rt` 0) or VMAX (`rt` 1) of a plot as a register write would; a refusal completes with C7h. -/
def Dev.allot (d : Dev) (c : NCmd) (n rt nr : Nat) : Dev :=
  let q := if rt = 0 then nr else d.f (F.PLOT_QV_QMAX n)
  let v := if rt = 1 then nr else d.f (F.PLOT_QV_VMAX n)
  if 512 ≤ q ∨ 8192 ≤ v then (d.plotRefuse n 8 2).complete c.id (.vendor 0xC7) 0 0
  else
    let e := plotShareWrite n 8 (q + 4096 * v) d
    if e.f (F.PLOT_QV_QMAX n) = q ∧ e.f (F.PLOT_QV_VMAX n) = v then e.complete c.id .success nr 0
    else e.complete c.id (.vendor 0xC7) 0 0

/-- Is plot `n`'s controller that of a physical function, and so a primary one? -/
def Dev.primary (d : Dev) (n : Nat) : Bool := n == 0 || (n == 256 && d.flag F.HIF_PORTCFG_DUAL)

/-- VIRTUALIZATION_MANAGEMENT (R65, R97): action `act` 1 allots to a primary controller, 7 and 9 take a secondary one offline and
online, 8 allots to one that is offline. -/
def virtualizationManagement (c : NCmd) (act rt cntid nr : Nat) (d : Dev) : Dev :=
  d.adminUp c true false false (fun e =>
    let k := e.ctrl cntid
    if ¬(act = 1 ∨ act = 7 ∨ act = 8 ∨ act = 9) then e.done c.id .invalidField
    else if 512 ≤ cntid ∨ e.primary cntid = decide (act ≠ 1) then e.done c.id .invalidControllerIdentifier
    else if act = 7 then
      let e1 := e.ctrlReset cntid
      (e1.setCtrl cntid { e1.ctrl cntid with offline := true }).done c.id .success
    else if act = 9 then (e.setCtrl cntid { k with offline := false }).done c.id .success
    else if 1 < rt then e.done c.id .invalidResourceIdentifier
    else if act = 8 ∧ ¬k.offline then e.done c.id .invalidSecondaryControllerState
    else e.allot c cntid rt nr)

def execVirtualizationManagement (c : NCmd) (act rt cntid nr : Nat) := run (virtualizationManagement c act rt cntid nr)

/-! ### Firmware and streams (R65, R75, R382, R384, R385) -/

/-- FIRMWARE_IMAGE_DOWNLOAD (R65): bytes `off .. off + len - 1` of object `o`; a piece replaces the ones it overlaps. -/
def firmwareImageDownload (c : NCmd) (off len : Nat) (o : Object) (d : Dev) : Dev :=
  d.adminUp c true true false (fun e =>
    if off % 4096 ≠ 0 ∨ len % 4096 ≠ 0 ∨ len = 0 then e.done c.id .invalidField
    else e.withPrp c len false (fun e =>
      let keep := e.boot.download.filter (fun p => decide (p.1 + p.2.1 ≤ off) || decide (off + len ≤ p.1))
      ({ e with boot := { e.boot with download := keep ++ [(off, len, o)] } }).done c.id .success))

def execFirmwareImageDownload (c : NCmd) (off len : Nat) (o : Object) := run (firmwareImageDownload c off len o)

/-- The header of an object. -/
def Object.hdr : Object → ObjHdr
  | .firmware i => i.hdr
  | .stream x => x.hdr

/-- The object the downloaded pieces make up: all of one object, without a gap, LENGTH bytes in all (R381 condition 1). -/
def BootSt.whole (b : BootSt) : Option Object :=
  match b.download with
  | [] => none
  | p :: _ =>
    let o := p.2.2
    let step (at_ : Nat) (_ : Nat) : Nat := ((b.download.find? (fun x => x.1 == at_)).map (fun x => at_ + x.2.1)).getD at_
    let end_ := (List.range b.download.length).foldl step 0
    if b.download.all (fun x => x.2.2 == o) ∧ end_ = o.hdr.length ∧ (b.download.map (fun x => x.2.1)).sum = end_ then some o else none

/-- Why a firmware image is not taken (R381, R384): an invalid image, or one below the anti-rollback counter. -/
def Dev.fwRefusal (d : Dev) (i : FwImage) : Option Sc :=
  if ¬(i.hdr.wellFormed && d.signedOk i.hdr true && d.targetOk i.hdr && decide (i.hdr.svn ≤ 64)) then some .invalidFirmwareImage
  else if i.hdr.svn < d.fuses.svnFw then some .firmwareActivationProhibited
  else none

/-- Put an image in a firmware slot. -/
def Dev.storeFw (d : Dev) (s : Nat) (i : FwImage) : Dev :=
  { d with bootFlash := { d.bootFlash with fw := AMap.put s i d.bootFlash.fw }, boot := { d.boot with download := [] } }

/-- The slot a commit acts on: FS, or for FS = 0 one of the part's choice (`Config.slotPick`). -/
def Dev.commitSlot (d : Dev) (fs : Nat) : Nat × Dev :=
  if fs = 0 then (1 + Config.slotPick d.free % 3, d.draw.2) else (fs, d)

/-- Firmware Commit of a stream (R385). -/
def Dev.streamCommit (d : Dev) (c : NCmd) (x : Stream) (fs ca : Nat) : Dev :=
  if fs ≠ 0 ∨ 1 < ca then d.done c.id .invalidField
  else
    let d0 := { d with boot := { d.boot with download := [] } }
    match d.streamFail x with
    | some f => (d0.brzRecord x.order f).complete c.id .invalidFirmwareImage (failDword x.order f) 0
    | none =>
      let other := 1 - min 1 d.directory.strActive
      let bf := d0.bootFlash
      let d1 := { d0 with bootFlash := if other = 0 then { bf with strA := some x } else { bf with strB := some x } }
      (if ca = 1 then d1.setDirectory (fun g => { g with strActive := other }) else d1).done c.id .success

/-- The image a commit of slot `s` acts on: the downloaded one, with actions 0, 1 and 3, or the one in the slot, with 2 and,
where nothing has been downloaded, 3. -/
def Dev.commitImage (d : Dev) (s ca : Nat) : Option FwImage :=
  if ca = 2 ∨ (ca = 3 ∧ d.boot.download.isEmpty) then AMap.find s d.bootFlash.fw
  else match d.boot.whole with
    | some (.firmware i) => some i
    | _ => none

/-- Firmware Commit (R65, R75, R384, R385), whatever the object committed; `go` is what action 3 does once the image is in its
slot. -/
def Dev.fwCommit (d : Dev) (c : NCmd) (fs ca : Nat) (go : Nat → Dev → Dev) : Dev :=
  match (if ca = 2 then none else d.boot.whole) with
  | some (.stream x) => d.streamCommit c x fs ca
  | _ =>
    if 3 < fs ∨ (fs = 0 ∧ ca = 2) then d.done c.id .invalidFirmwareSlot
    else if 3 < ca then d.done c.id .invalidField
    else
      let r := d.commitSlot fs
      match r.2.commitImage r.1 ca with
      | none => r.2.done c.id .invalidFirmwareImage
      | some i =>
        match r.2.fwRefusal i with
        | some st => r.2.done c.id st
        | none =>
          let d1 := r.2.storeFw r.1 i
          if ca = 0 then d1.done c.id .success
          else if ca = 3 then go r.1 d1
          else (d1.setDirectory (fun g => { g with fwNext := r.1 })).done c.id .firmwareActivationRequiresNvmSubsystemReset

/-- The drain of an activation without reset starts: fetching stops on every controller (R75). -/
def Dev.drainStart (d : Dev) (c : NCmd) (s : Nat) : Dev :=
  { d with host := { d.host with drain := some { id := c.id, slot := s, at_ := d.now } } }

/-- FIRMWARE_COMMIT (R75): actions 0 to 2. -/
def firmwareCommit (c : NCmd) (fs ca : Nat) (d : Dev) : Dev :=
  d.adminUp c true true false (fun e => e.fwCommit c fs ca (fun s x => x.drainStart c s))

def execFirmwareCommit (c : NCmd) (fs ca : Nat) := run (firmwareCommit c fs ca)

/-- FW_ACTIVATE_NO_RESET (R75): action 3. -/
def fwActivateNoReset (c : NCmd) (fs : Nat) (d : Dev) : Dev :=
  d.adminUp c true true false (fun e => e.fwCommit c fs 3 (fun s x => x.drainStart c s))

def execFwActivateNoReset (c : NCmd) (fs : Nat) := run (fwActivateNoReset c fs)

/-- STREAM_COMMIT (R385): Firmware Commit of the stream that has been downloaded. -/
def streamCommit (c : NCmd) (fs ca : Nat) (d : Dev) : Dev :=
  d.adminUp c true true false (fun e => e.fwCommit c fs ca (fun s x => x.drainStart c s))

def execStreamCommit (c : NCmd) (fs ca : Nat) := run (streamCommit c fs ca)

/-- Are the commands in flight drained: none but the commit and the event requests? -/
def Dev.drained (d : Dev) (id : CmdId) : Bool :=
  d.host.latches.all (fun l => l.id == id || (d.ctrl l.id.plot).aers.contains l.id)

/-- Show how long a drain took, in microseconds. -/
def Dev.drainShow (d : Dev) (us : Nat) (over_ : Bool) : Dev :=
  let d1 := (d.setF F.HIF_ACTDRAIN_LAST (min us (2 ^ 21 - 1))).setF F.HIF_ACTDRAIN_OVER (Bool.nat over_)
  { d1 with host := { d1.host with drain := none, stats := AMap.set 0 8 us d1.host.stats } }

/-- FW_ACTIVATION_DRAIN_DONE (R75): the drain ends after `us` microseconds, at most 1.5 s; the notice, the activation, the event,
the completion. -/
def fwActivationDrainDone (us : Nat) (d : Dev) : Dev :=
  match d.host.drain with
  | none => d
  | some a =>
    if ¬d.drained a.id ∨ 1500000 < us then d
    else
      let d1 := (d.host.ctrls.map Prod.fst).foldl (fun (e : Dev) p =>
        if bit (e.ctrl p).feat.asyncCfg 9 then e.asyncTo p ⟨2, 1, 0x03⟩ else e) (d.drainShow us false)
      let d2 := { d1 with boot := { d1.boot with firmware := AMap.find a.slot d1.bootFlash.fw, fwRunning := a.slot } }
      let d3 := d2.setDirectory (fun g => { g with fwActive := a.slot, fwNext := 0 })
      let d4 := if d3.boot.svnDone then d3.svnTo 0 (svnOfFw d3.boot.firmware) else d3
      (d4.raise 0x1E8 noPlot []).done a.id .success

def execFwActivationDrainDone (us : Nat) := run (fwActivationDrainDone us)

/-- FW_ACTIVATION_DRAIN_TIMEOUT (R75): the drain passes 1.5 s: nothing is activated, and the image stays committed for the next
part reset. -/
def fwActivationDrainTimeout (us : Nat) (d : Dev) : Dev :=
  match d.host.drain with
  | none => d
  | some a =>
    let d1 := (d.drainShow us true).setDirectory (fun g => { g with fwNext := a.slot })
    (d1.raise 0x1E9 noPlot []).done a.id .firmwareActivationRequiresMaxTimeViolation

def execFwActivationDrainTimeout (us : Nat) := run (fwActivationDrainTimeout us)

/-! ### Self-tests and sanitize (R54, R65) -/

/-- SHORT_SELF_TEST (R65): the ECC checker self-test and a read of the device metadata, passing or not. -/
def shortSelfTest (c : NCmd) (ok : Bool) (d : Dev) : Dev :=
  d.adminUp c true false false (fun e =>
    if e.mode.selfTest.isSome then e.done c.id .deviceSelfTestInProgress
    else (e.selfTestResult 1 (if ok then 0 else 7) 0).done c.id .success)

def execShortSelfTest (c : NCmd) (ok : Bool) := run (shortSelfTest c ok)

/-- EXTENDED_SELF_TEST (R54): in an operating mode only. -/
def extendedSelfTest (c : NCmd) (d : Dev) : Dev :=
  d.adminUp c true false false (fun e =>
    if e.mode.selfTest.isSome then e.done c.id .deviceSelfTestInProgress
    else if ¬e.isOperating then e.done c.id .commandSequenceError
    else
      let t : SelfTest := { extended := true, quads := e.quads, slice := 0, abort := false, failed := none }
      ((({ e with mode := { e.mode with selfTest := some t } }).setCond F.TOP_MODE_CXST true).done c.id .success).testSweep)

def execExtendedSelfTest (c : NCmd) := run (extendedSelfTest c)

/-- SELF_TEST_ABORT (R54): at once while nothing is out of use, else when the quadrant or slice under test is back. -/
def selfTestAbort (c : NCmd) (d : Dev) : Dev :=
  d.adminUp c true false false (fun e =>
    match e.mode.selfTest with
    | none => e.done c.id .success
    | some t =>
      let e1 := ({ e with mode := { e.mode with selfTest := some { t with abort := true } } }).done c.id .success
      if t.quads.isEmpty ∨ (e.mode.qtest.any (fun q => t.quads.contains q.quad)) then e1 else e1.endSelfTest 1 0)

def execSelfTestAbort (c : NCmd) := run (selfTestAbort c)

/-- Sanitize: accepted in an operating mode; elsewhere it completes with Command Sequence Error (DESIGN CHOICE, assumption 146: R34 has no
row for RECOVER and TEST and names no status). A self-test that runs ends with result code 9 (DESIGN CHOICE, assumption 146: R54 does not
say what becomes of it), at once, or when the quadrant or slice under test is back, and the sanitize then starts. -/
def Dev.startSanitize (d : Dev) (c : NCmd) (kind : Nat) : Dev :=
  d.adminUp c true false false (fun e =>
    if ¬e.isOperating then e.done c.id .commandSequenceError
    else
      let e1 := e.done c.id .success
      ({ e1 with mode := { e1.mode with sanitizeWait := some kind } }).sanitizeGo)

/-- CRYPTO_ERASE (R65, R282). -/
def cryptoErase (c : NCmd) (d : Dev) : Dev := d.startSanitize c 0

def execCryptoErase (c : NCmd) := run (cryptoErase c)

/-- BLOCK_ERASE (R65). -/
def blockErase (c : NCmd) (d : Dev) : Dev := d.startSanitize c 1

def execBlockErase (c : NCmd) := run (blockErase c)

/-! ### The anchor and grafts (R204, R388) -/

/-- RESEAT_ANCHOR (R204): CDW10 names the anchor `anchor`, the data buffer holds token `t`. -/
def reseatAnchor (c : NCmd) (anchor : Nat) (t : AnchorTok) (d : Dev) : Dev :=
  d.adminUp c true false false (fun e0 => e0.withPrp c 256 false (fun e =>
    if e.tokenGood t true && t.anchor == anchor then ((e.passToken t).reseat t).done c.id .success
    else e.complete c.id (.vendor 0xC7) 0 0))

def execReseatAnchor (c : NCmd) (anchor : Nat) (t : AnchorTok) := run (reseatAnchor c anchor t)

/-- APPLY_GRAFT (R388, R389): graft `g` of `len` bytes becomes pending. -/
def applyGraft (c : NCmd) (len : Nat) (g : Graft) (d : Dev) : Dev :=
  d.adminUp c true false false (fun e =>
    if len < 1024 ∨ 65536 < len then e.done c.id .invalidField
    else e.withPrp c len false (fun e =>
      match (if g.hdr.length = len then e.graftFail g else some ⟨1, 0, 0, 0⟩), g.seg with
      | some f, _ => (e.brzRecord g.order f).complete c.id (.vendor 0xC7) (failDword g.order f) 0
      | none, none => e.complete c.id (.vendor 0xC7) 5 0
      | none, some s =>
        let e1 := { e with trel := { e.trel with swap := AMap.put g.quad { s with segver := g.hdr.svn } e.trel.swap },
                           boot := { e.boot with graft := some g } }
        let e2 := ((e1.setF F.BRZ_GRAFT_QUAD g.quad).setF F.BRZ_GRAFT_PENDING 1).setF F.BRZ_GRAFT_SEGVER g.hdr.svn
        (e2.raise 0x02A noPlot [g.quad, g.hdr.svn]).done c.id .success))

def execApplyGraft (c : NCmd) (len : Nat) (g : Graft) := run (applyGraft c len g)

/-! ### Security Receive (R65, R397) -/

/-- A response as bytes: the header with CODE bit 15 set and STATUS in byte 8, then the payload. -/
def halwReply (code reqId status : Nat) (payload : List Nat) : List Nat :=
  ((leBytes 2 (code % 32768 + 32768) ++ leBytes 2 payload.length ++ leBytes 4 reqId).map BitVec.toNat) ++ [status] ++
  List.replicate 7 0 ++ payload

/-- SECURITY_RECEIVE (R65, R397): up to `al` bytes of the response the controller holds; SECP 00h lists the protocols. -/
def securityReceive (c : NCmd) (secp spsp al : Nat) (d : Dev) : Dev :=
  d.adminUp c false true false (fun e0 => e0.withPrp c al true (fun e =>
    let p := c.id.plot
    let give (x : Dev) (bs : List Nat) : Dev := (x.send (.bytes p (bs.take al))).done c.id .success
    if secp = 0 ∧ spsp = 0 then give e [0, 0, 0, 0, 0, 0, 0, 2, 0x00, 0xF0]
    else if secp ≠ 0xF0 ∨ spsp ≠ 1 then e.done c.id .invalidField
    else
      match e.boot.msgs.find? (fun m => m.plot == p) with
      | none => give e (halwReply 0 0 6 [])
      | some m =>
        if ¬m.ready then give e (halwReply m.code m.reqId 1 [])
        else
          let bs := halwReply m.code m.reqId m.status m.payload
          let e1 := if bs.length ≤ al then
              { e with boot := { e.boot with msgs := e.boot.msgs.filter (fun x => x.plot != p) } }
            else e
          give e1 bs))

def execSecurityReceive (c : NCmd) (secp spsp al : Nat) := run (securityReceive c secp spsp al)

end Sys2Proof.Machine
end

