-- ==== Sys2Proof/Machine/Io.lean ====
section
/-! DEFINITION. The I/O commands of the NVM command set (chapters 3 and 6): their checks in the order of R67, the write cache
(R137 to R141), reads, copies and reservations. -/

namespace Sys2Proof.Machine

/-! ### Checks (R67, R76, R77, R155) -/

/-- The bytes a command of `nlb` blocks moves: the data, with the metadata where it is part of an extended LBA and PRACT does
not take it out. -/
def Ns.moves (n : Ns) (pract : Bool) (nlb : Nat) : Nat :=
  nlb * (lbaBytes n.lbaf + (if n.ext && !(pract && n.pi != 0) then lbaMeta n.lbaf else 0))

/-- The kinds of access that a reservation judges. -/
inductive Access where
  | read | write | none
  deriving DecidableEq, Repr

/-- Is the reservation of a type that all registrants hold? -/
def Resv.shared (r : Resv) : Bool := r.rtype == 5 || r.rtype == 6

/-- Does plot `p` hold the reservation? Every registrant holds one of a shared type. -/
def Resv.holds (r : Resv) (p : Nat) : Bool :=
  if r.shared then r.regs.any (fun x => x.1 == p) else r.rtype != 0 && r.holder == some p

/-- Does the namespace's reservation keep plot `p` from this access? -/
def Resv.bars (r : Resv) (p : Nat) (a : Access) : Bool :=
  let reg := r.regs.any (fun x => x.1 == p)
  if r.rtype = 0 ∨ r.holds p then false
  else match a with
  | .none => false
  | .read => r.rtype == 2 || ((r.rtype == 4 || r.rtype == 6) && !reg)
  | .write => r.rtype == 1 || r.rtype == 2 || !reg

/-- An outstanding I/O command is checked up to step 2 of R67: reserved fields, the namespace, its state, the fenced and the
read-only condition for one that changes the media (`change`), and the reservation. In DOZE it wakes the part and waits. -/
def Dev.io (d : Dev) (c : NCmd) (change : Bool) (a : Access) (go : Dev → Ns → Dev) : Dev :=
  if ¬d.outstanding c.id then d
  else
    let e := d.hostActivity
    let m := e.f F.TOP_MODE_MODE
    if m = 0xA then e
    else if c.rsvd then e.done c.id .invalidField
    else if m = 1 then e.done c.id .namespaceNotReady
    else if m = 3 then e.done c.id .sanitizeInProgress
    else match e.md.nss.find? (fun n => n.nsid == c.nsid && n.attached.contains c.id.plot) with
    | none => e.done c.id .invalidNamespaceOrFormat
    | some n =>
      if e.notReady n then e.done c.id .namespaceNotReady
      else if change && n.cluster.isSome && e.flag F.TOP_MODE_CFENCE then e.complete c.id (.vendor 0xC0) e.fenceDw 0
      else if change && e.flag F.TOP_MODE_CRO then e.done c.id .namespaceWriteProtected
      else if n.resv.bars c.id.plot a then e.done c.id .reservationConflict
      else go e n

/-- In RECOVER a command waits until commands are admitted and the segments it needs have been applied (R150). -/
def Dev.mustWait (d : Dev) (n : Ns) (ranges : List (Nat × Nat)) : Bool :=
  d.f F.TOP_MODE_MODE == 5 &&
  (!d.flag F.MAPW_STAT_ADMIT || ranges.any (fun r => d.ftl.recover.any (fun s =>
    s / 2 ^ 40 == n.nsid && decide (r.1 / n.iuBlocks / 131072 ≤ s % 2 ^ 40 ∧ s % 2 ^ 40 ≤ (r.1 + r.2 - 1) / n.iuBlocks / 131072))))

/-- Are all blocks within the namespace? -/
def Ns.within (n : Ns) (ranges : List (Nat × Nat)) : Bool := ranges.all (fun r => decide (r.1 + r.2 ≤ n.nsze))

/-- Is IU `iu` covered whole by blocks `slba .. slba + nlb - 1`? The last IU of a namespace ends with the namespace. -/
def Ns.covers (n : Ns) (slba nlb iu : Nat) : Bool :=
  decide (slba ≤ iu * n.iuBlocks ∧ min n.nsze ((iu + 1) * n.iuBlocks) ≤ slba + nlb)

/-- The IUs that blocks lie in. -/
def Ns.iusOf (n : Ns) (slba nlb : Nat) : List Nat :=
  (List.range ((slba + nlb - 1) / n.iuBlocks + 1 - slba / n.iuBlocks)).map (fun i => slba / n.iuBlocks + i)

/-- The stored size of an IU (R155). -/
def Dev.iuStored (d : Dev) (n : Ns) (iu : Nat) : Nat :=
  let e := d.entry? n.nsid iu
  if entryType e = 1 then (if n.comp != 0 then d.iuCws n.nsid (e % 2 ^ 38) * 4096 else n.iuBytes)
  else if entryType e = 2 then n.iuBytes else 0

/-- Would storing these IUs in full carry the allocated size past NCAP (R155)? Never with NCAP = NSZE. -/
def Dev.overCap (d : Dev) (n : Ns) (ius : List Nat) : Bool :=
  n.ncap != n.nsze && !ius.isEmpty &&
  decide (n.ncap * lbaBytes n.lbaf < d.allocated n - (ius.map (d.iuStored n)).sum + ius.length * n.iuBytes)

/-- Refuse a write with Capacity Exceeded (R155). -/
def Dev.fullRefuse (d : Dev) (nsid : Nat) (id : CmdId) : Dev := (d.raise 0x017 noPlot [nsid]).done id .capacityExceeded

/-- A write to a namespace whose media key is spent completes with C5h (R282). -/
def Dev.spentRefuse (d : Dev) (c : NCmd) : Dev := d.complete c.id (.vendor 0xC5) (1 + 256 * c.id.plot) 0

/-! ### The write cache (R137 to R141) -/

/-- The slice of the write cache that the extended self-test has out of use (R54): slices of 16,384 slots, the commit records
in the last. -/
def Dev.sliceOut (d : Dev) : Option Nat :=
  match d.mode.selfTest with
  | some t => if t.extended && t.quads.isEmpty && decide (t.slice < 10) && d.mode.qtest.isNone then some t.slice else none
  | none => none

/-- Is any of `k` slots from `c`, or the commit record, out of use? -/
def Dev.sliceBars (d : Dev) (c k : Nat) : Bool :=
  match d.sliceOut with
  | none => false
  | some s => s == 9 || (decide (0 < k) && decide (c / 16384 ≤ s ∧ s ≤ (c + k - 1) / 16384))

/-- Write a commit record of `kind` for IUs `iu .. iu + cnt - 1` (R137): the next write sequence, the supersession of older
records, the counts. `en` is the entry that the MAP records of a record without data give. -/
def Dev.putRecord (d : Dev) (p : Nat) (n : Ns) (kind iu cnt slot en : Nat) : Dev :=
  let w := d.md.wseq
  let ius := (List.range cnt).map (fun i => iu + i)
  let r : Commit :=
    { wseq := w, nsid := n.nsid, kind := kind, count := cnt, firstIu := iu, firstSlot := slot, plot := p, gen := d.plotGen p, lead := 0,
      tseq := 0, dead := [], sent := [], staged := if kind = 1 then [] else ius.map (fun u => (u, en)), moved := [] }
  let d1 := { d with
    mram := { d.mram with commits := d.mram.commits ++ [r] }
    md := { d.md with wseq := w + 1 }
    nv := { d.nv with gde := d.nv.gde && kind != 1 }
    ftl := { d.ftl with packed := d.ftl.packed.filter (fun x => !(x.1 / 2 ^ 40 == n.nsid && ius.contains (x.1 % 2 ^ 40))) } }
  let d2 := (d1.setF F.MRAMC_WSEQ_NEXT (w + 1)).supersede w n.nsid ius
  let bytes := 64 + (if kind = 1 then 4224 * (cnt * n.iuSlots) else 0)
  (d2.count 0x50 0 noPlot 1).count 0x52 0 noPlot bytes

/-- Commit whole IUs of data from IU `iu` up (KIND 0x1); `none` while no slots or no record is free. -/
def Dev.commitIus (d : Dev) (p : Nat) (n : Ns) (iu : Nat) (ius : List (List (Nat × BlkMark))) : Option Dev :=
  let k := ius.length * n.iuSlots
  match findRun (d.mram.slots.map Prod.fst) k with
  | none => none
  | some s =>
    if 212992 ≤ d.mram.commits.length ∨ d.sliceBars s k then none
    else
      let put := (ius.flatMap n.pack).zipIdx.foldl (fun m x => AMap.put (s + x.2) x.1 m) d.mram.slots
      let d1 := ({ d with mram := { d.mram with slots := put } }).putRecord p n 1 iu ius.length s 0
      let d2 := (List.range ius.length).foldl (fun (e : Dev) i => e.mapSet n.nsid (iu + i) (cacheEntry (s + i * n.iuSlots))) d1
      some (d2.almanacCount 240 (4096 * k))

/-- Commit a map change of whole IUs (KIND 0x2 to 0x4) with its MAP records. -/
def Dev.commitMark (d : Dev) (p : Nat) (n : Ns) (kind iu cnt : Nat) : Option Dev :=
  if 212992 ≤ d.mram.commits.length ∨ d.sliceBars 0 0 then none
  else
    let e := if kind = 2 then 0 else if kind = 3 then zerosEntry else badEntry
    some ((List.range cnt).foldl (fun (x : Dev) i => (x.mapSet n.nsid (iu + i) e).jrec (.mapTo n.nsid (iu + i) e 0)) (d.putRecord p n kind iu cnt 0 e))

/-- Block `i` of a piece, as it will read. -/
def WPiece.block (x : WPiece) (n : Ns) (i : Nat) : Nat × BlkMark :=
  let up (v hmeta : Nat) : Nat := v + (if lbaMeta n.lbaf = 0 then 0 else hmeta * 2 ^ 32768)
  match x.kind with
  | .data bs => match bs[i]? with
    | some b => (up b.1 b.2, .good)
    | none => (0, .good)
  | .copied bs => match bs[i]? with
    | some b => (up b.1 b.2.1, b.2.2)
    | none => (0, .good)
  | .zeroes => (n.emptyBlock true (x.slba + i), .good)
  | .deallocate => (n.emptyBlock false (x.slba + i), .good)
  | .uncorrectable => (0, .marked)

/-- The blocks of an IU with those of a piece merged in (R68). -/
def Dev.merged (d : Dev) (n : Ns) (x : WPiece) (iu : Nat) : List (Nat × BlkMark) :=
  (d.iuBlocksNow n iu).zipIdx.map (fun b =>
    let l := iu * n.iuBlocks + b.2
    if x.slba ≤ l ∧ l < x.slba + x.nlb then x.block n (l - x.slba) else b.1)

/-- The record kind of a piece that stores nothing (R137); 1 for one that stores data. -/
def WriteKind.code : WriteKind → Nat
  | .data _ => 1
  | .copied _ => 1
  | .deallocate => 2
  | .zeroes => 3
  | .uncorrectable => 4

/-- The IUs that a piece stores: all of one with data, and of one that covers an IU in part, since one record commits the piece (R139,
R155); otherwise none. -/
def WPiece.stores (x : WPiece) (n : Ns) : List Nat :=
  let all := n.iusOf x.slba x.nlb
  if x.kind.code = 1 ∨ all.any (fun iu => !n.covers x.slba x.nlb iu) then all else []

/-- Commit one piece by one record (R137, R139): `none` while something it needs is not free. -/
def Dev.commitPiece (d : Dev) (p : Nat) (n : Ns) (x : WPiece) : Option Dev :=
  let all := n.iusOf x.slba x.nlb
  let r :=
    if (x.stores n).isEmpty then d.commitMark p n x.kind.code (all.headD 0) all.length
    else d.commitIus p n (all.headD 0) (all.map (d.merged n x))
  r.map (fun (e : Dev) => (if x.kind.code = 4 then e else e.replaceMarks n.nsid all).freeCommits)

/-- Commit pieces in order; those left when one must wait. -/
def Dev.commitPieces (p : Nat) (n : Ns) : List WPiece → Dev → Dev × List WPiece
  | [], d => (d, [])
  | x :: t, d =>
    match d.commitPiece p n x with
    | none => (d, x :: t)
    | some e => Dev.commitPieces p n t e

/-- The pieces of a command (R139): at most 256 KiB each from its first block, or one IU each in RECOVER, extended SELFTEST and
TEST. -/
def Dev.piecesOf (d : Dev) (n : Ns) (slba nlb : Nat) : List (Nat × Nat) :=
  if d.atomicNow = 1 then
    (n.iusOf slba nlb).map (fun iu =>
      let lo := max slba (iu * n.iuBlocks)
      (lo, min (slba + nlb) ((iu + 1) * n.iuBlocks) - lo))
  else
    let per := 262144 / lbaBytes n.lbaf
    (List.range (ceilDiv nlb per)).map (fun i => (slba + i * per, min per (nlb - i * per)))

/-- Cut a change of the media into pieces. -/
def Dev.cut (d : Dev) (n : Ns) (x : WPiece) : List WPiece :=
  (d.piecesOf n x.slba x.nlb).map (fun r =>
    { slba := r.1, nlb := r.2,
      kind := match x.kind with
        | .data bs => .data ((bs.drop (r.1 - x.slba)).take r.2)
        | .copied bs => .copied ((bs.drop (r.1 - x.slba)).take r.2)
        | k => k })

/-- Hold a write at the place it has among the held ones (R141). -/
def Dev.hold (d : Dev) (w : HeldWrite) (front : Bool) : Dev :=
  ({ d with ftl := { d.ftl with held := if front then w :: d.ftl.held else d.ftl.held ++ [w] } }).raise 0x013 noPlot []

/-- Commit a command's pieces and complete it, or hold what cannot be committed yet; writes held earlier go first. -/
def Dev.commitAll (d : Dev) (id : CmdId) (n : Ns) (ps : List WPiece) (resumed : Bool) : Dev :=
  if ¬resumed ∧ ¬d.ftl.held.isEmpty then d.hold { id := id, nsid := n.nsid, pieces := ps } false
  else
    match Dev.commitPieces id.plot n ps d with
    | (e, []) => e.done id .success
    | (e, t) => e.hold { id := id, nsid := n.nsid, pieces := t } resumed

/-- The SMART counts of a host write (R157). -/
def Dev.countWrite (d : Dev) (p : Nat) (n : Ns) (nlb : Nat) : Dev :=
  let u := nlb * (lbaBytes n.lbaf / 512)
  (((d.smart p 1 u).smart (1024 + n.nsid) 1 u).smart p 3 1).smart (1024 + n.nsid) 3 1

/-- A change of the media by one piece of work, with the checks of R67 step 3 on: LBA range, capacity, then `rest`, the spent
key, execution. Cluster namespaces go through transactions (R198). -/
def Dev.change (d : Dev) (c : NCmd) (n : Ns) (x : WPiece) (rest : (Dev → Dev) → Dev → Dev) : Dev :=
  if d.mustWait n [(x.slba, x.nlb)] then d
  else if ¬n.within [(x.slba, x.nlb)] then d.done c.id .lbaOutOfRange
  else if d.overCap n (x.stores n) then d.fullRefuse c.nsid c.id
  else rest (fun e =>
    if e.spent.contains n.nsid then e.spentRefuse c
    else match n.cluster with
    | some g =>
      e.clusterWrite c.id n g x.slba ((List.range x.nlb).map (fun i =>
        let b := x.block n i
        if b.2 = .good then b.1 else markBlock (lbaBytes n.lbaf)))
    | none => e.commitAll c.id n (e.cut n x) false) d

/-! ### Commands that write (R66) -/

/-- FLUSH (R72): every write that it covers is in MRAM already. -/
def flush (c : NCmd) (d : Dev) : Dev :=
  if c.nsid = 0xFFFFFFFF then
    (if ¬d.outstanding c.id then d
    else
      let e := d.hostActivity
      let m := e.f F.TOP_MODE_MODE
      if m = 0xA then e
      else if c.rsvd then e.done c.id .invalidField
      else if m = 1 then e.done c.id .namespaceNotReady
      else if m = 3 then e.done c.id .sanitizeInProgress
      else e.done c.id .success)
  else d.io c false .write (fun e n => if e.mustWait n [] then e else e.done c.id .success)

def execFlush (c : NCmd) := run (flush c)

/-- The blocks of a host write with their protection information generated or checked (R68): the blocks, or the status of the
first check that fails. -/
def Ns.piIn (n : Ns) (pi : PiCmd) (slba : Nat) (data : List (Nat × Nat)) : Sum (List (Nat × Nat)) Sc :=
  let m := 2 ^ (8 * lbaMeta n.lbaf)
  let cut := data.map (fun b => (b.1 % 2 ^ (8 * lbaBytes n.lbaf), b.2 % m))
  if n.pi = 0 then .inl cut
  else if pi.pract then .inl (cut.zipIdx.map (fun b => (b.1.1, piMake n.pi pi b.2 b.1.1 / 2 ^ 32768)))
  else if ¬piOk n.pi pi slba then .inr .invalidProtectionInformation
  else match (cut.zipIdx.map (fun b => piCheck n.pi pi b.2 (b.1.1 + b.1.2 * 2 ^ 32768))).findSome? id with
  | some st => .inr st
  | none => .inl cut

/-- WRITE (R66, R137): `data` are the host's blocks as (data, metadata). -/
def write (c : NCmd) (slba : Nat) (data : List (Nat × Nat)) (pi : PiCmd) (d : Dev) : Dev :=
  if data.isEmpty then d
  else d.io c true .write (fun e n =>
    match n.piIn pi slba data with
    | .inl bs =>
      e.change c n { slba := slba, nlb := data.length, kind := .data bs } (fun go x =>
        x.withPtr c (n.moves pi.pract data.length) false (fun y => go (y.countWrite c.id.plot n data.length)))
    | .inr st =>
      e.change c n { slba := slba, nlb := data.length, kind := .data data } (fun _ x =>
        x.withPtr c (n.moves pi.pract data.length) false (fun y => y.done c.id st)))

def execWrite (c : NCmd) (slba : Nat) (data : List (Nat × Nat)) (pi : PiCmd) := run (write c slba data pi)

/-- WRITE_TRANSFER_RESUME (R141): the write held longest goes on, within the capacity of its namespace (R155). -/
def writeTransferResume (d : Dev) : Dev :=
  match d.ftl.held with
  | [] => d
  | w :: rest =>
    let d1 := { d with ftl := { d.ftl with held := rest } }
    match d1.ns? w.nsid with
    | none => d1.done w.id .invalidNamespaceOrFormat
    | some n =>
      if d1.flag F.TOP_MODE_CRO then d1.done w.id .namespaceWriteProtected
      else if d1.overCap n (w.pieces.flatMap (fun x => x.stores n)).eraseDups then d1.fullRefuse n.nsid w.id
      else d1.commitAll w.id n w.pieces true

def execWriteTransferResume := run writeTransferResume

/-- WRITE_UNCORRECTABLE (R66). -/
def writeUncorrectable (c : NCmd) (slba nlb : Nat) (d : Dev) : Dev :=
  if nlb = 0 then d
  else d.io c true .write (fun e n => e.change c n { slba := slba, nlb := nlb, kind := .uncorrectable } (fun go x => go x))

def execWriteUncorrectable (c : NCmd) (slba nlb : Nat) := run (writeUncorrectable c slba nlb)

/-- WRITE_ZEROES (R66): with DEAC the blocks are deallocated. -/
def writeZeroes (c : NCmd) (slba nlb : Nat) (deac : Bool) (d : Dev) : Dev :=
  if nlb = 0 then d
  else d.io c true .write (fun e n =>
    e.change c n { slba := slba, nlb := nlb, kind := if deac then .deallocate else .zeroes } (fun go x => go x))

def execWriteZeroes (c : NCmd) (slba nlb : Nat) (deac : Bool) := run (writeZeroes c slba nlb deac)

/-- DATASET_MANAGEMENT (R66, R139): with the deallocate attribute, the ranges are deallocated; the other attributes do nothing. Each range
is 16 bytes of the data buffer (PRESUMED, assumption 143). -/
def datasetManagement (c : NCmd) (ad : Bool) (ranges : List (Nat × Nat)) (d : Dev) : Dev :=
  let rs := ranges.filter (fun r => decide (0 < r.2))
  d.io c ad .write (fun e n =>
    if e.mustWait n rs then e
    else if ¬n.within rs then e.done c.id .lbaOutOfRange
    else
      let ps := rs.map (fun r => ({ slba := r.1, nlb := r.2, kind := .deallocate } : WPiece))
      if ad && e.overCap n ((ps.flatMap (fun x => x.stores n)).eraseDups) then e.fullRefuse c.nsid c.id
      else e.withPtr c (16 * ranges.length) false (fun x =>
        if ¬ad ∨ rs.isEmpty then x.done c.id .success
        else match n.cluster with
        | some g => x.clusterRanges c.id n g (ps.map (fun y => (y.slba, List.replicate y.nlb 0)))
        | none => x.commitAll c.id n (ps.flatMap (x.cut n)) false))

def execDatasetManagement (c : NCmd) (ad : Bool) (ranges : List (Nat × Nat)) := run (datasetManagement c ad ranges)

/-! ### Commands that read (R66) -/

/-- The blocks of a read: at hand in the map or the cache, or still to come from flash. -/
def Dev.readBlocks (d : Dev) (n : Ns) (slba nlb : Nat) : List BlkSrc :=
  (List.range nlb).map (fun i =>
    let l := slba + i
    let iu := l / n.iuBlocks
    let b := l % n.iuBlocks
    let e := d.entry? n.nsid iu
    if entryType e = 1 then
      let loc := e % 2 ^ 38
      if ((d.cw? loc).map (fun c => c.kind == 1)).getD false then .packed n.nsid iu loc b
      else .flash (d.cwAt loc (b / n.slotBlocks)) (b % n.slotBlocks)
    else match (d.iuBlocksNow n iu)[b]? with
    | some (v, m) => if m = .good then .val v else .bad
    | none => .bad)

/-- The codewords that a read needs. -/
def Dev.readLocs (d : Dev) (bs : List BlkSrc) : List Nat :=
  (bs.flatMap (fun b => match b with
    | .flash l _ => [l]
    | .packed n _ l _ => d.iuLocs n l
    | _ => [])).eraseDups

/-- Ask for codewords: one page read for those of a page; those of a failed member go to reconstruction (R171). -/
def Dev.fetchLocs (d : Dev) (id : CmdId) (locs : List Nat) : Dev :=
  let lost (l : Nat) : Bool := match d.memberOf (locDie l) with
    | some (g, j) => d.memberFailed g j
    | none => true
  let rd := (locs.filter lost).map (fun l =>
    ({ loc := l, cmd := some id, step := .reconstruct, entry := 0, tried := 0, ptype := 0, won := false } : ReadCw))
  let ok := locs.filter (fun l => !lost l)
  let d1 := { d with media := { d.media with reading := d.media.reading ++ rd } }
  ((ok.map (fun l => l / 8)).eraseDups).foldl (fun (e : Dev) p =>
    e.enqueue { readOp .hostRead (8 * p) (some id) with slots := (ok.filter (fun l => l / 8 == p)).map locSlot }) d1

/-- Read blocks for a command (R66): what is at hand at once, the rest from flash; a cluster namespace under R197. -/
def Dev.startRead (d : Dev) (c : NCmd) (n : Ns) (slba nlb : Nat) (use : ReadUse) (pi : PiCmd) : Dev :=
  let chk := if n.pi = 0 then none else some pi
  match n.cluster with
  | some g => d.clusterRead c.id n g slba nlb use chk
  | none =>
    let bs := d.readBlocks n slba nlb
    let j : ReadJob := { id := c.id, nsid := n.nsid, use := use, pi := chk, blocks := bs }
    let d1 := d.fetchLocs c.id (d.readLocs bs)
    ({ d1 with ftl := { d1.ftl with reads := d1.ftl.reads ++ [j] } }).finishReads

/-- Do the map entries of a range of blocks, packed at 5 bytes, lie on a channel whose quadrant is under test (R45, R134)? -/
def Dev.mapHeld (d : Dev) (n : Ns) (slba nlb : Nat) : Bool :=
  let u := slba / n.iuBlocks
  n.cluster.isNone && d.chanHeld (5 * u) (5 * ((slba + nlb - 1) / n.iuBlocks + 1 - u))

/-- A command that reads blocks `slba` on, with the checks of R67 from step 3. -/
def Dev.reads (d : Dev) (c : NCmd) (slba nlb : Nat) (use : ReadUse) (pi : PiCmd) (rest : Ns → (Dev → Dev) → Dev → Dev) : Dev :=
  if nlb = 0 then d
  else d.io c false .read (fun e n =>
    if e.mustWait n [(slba, nlb)] then e
    else if ¬n.within [(slba, nlb)] then e.done c.id .lbaOutOfRange
    else rest n (fun x =>
      if n.pi ≠ 0 ∧ piOk n.pi pi slba = false then x.done c.id .invalidProtectionInformation
      else if e.mapHeld n slba nlb then e
      else x.startRead c n slba nlb use pi) e)

/-- READ (R66). -/
def read (c : NCmd) (slba nlb : Nat) (pi : PiCmd) (d : Dev) : Dev :=
  d.reads c slba nlb .toHost pi (fun n go x => x.withPtr c (n.moves pi.pract nlb) true go)

def execRead (c : NCmd) (slba nlb : Nat) (pi : PiCmd) := run (read c slba nlb pi)

/-- COMPARE (R66): `data` are the host's blocks as (data, metadata). -/
def compare (c : NCmd) (slba : Nat) (data : List (Nat × Nat)) (pi : PiCmd) (d : Dev) : Dev :=
  let lbaf := ((d.ns? c.nsid).map (fun n => n.lbaf)).getD 0
  let ref := data.map (fun b => b.1 % 2 ^ (8 * lbaBytes lbaf) + (b.2 % 2 ^ (8 * lbaMeta lbaf)) * 2 ^ 32768)
  d.reads c slba data.length (.compareWith ref) pi (fun n go x => x.withPtr c (n.moves pi.pract data.length) false go)

def execCompare (c : NCmd) (slba : Nat) (data : List (Nat × Nat)) (pi : PiCmd) := run (compare c slba data pi)

/-- VERIFY (R66). -/
def verify (c : NCmd) (slba nlb : Nat) (pi : PiCmd) (d : Dev) : Dev := d.reads c slba nlb .verifyOnly pi (fun _ go x => go x)

def execVerify (c : NCmd) (slba nlb : Nat) (pi : PiCmd) := run (verify c slba nlb pi)

/-! ### Copy (R66) -/

/-- One copied block with its protection information checked and, with PRACT = 1, made anew: (data, metadata, mark), or the
status of a check that fails. -/
def Ns.copyBlock (n : Ns) (pr pw : PiCmd) (i : Nat) (b : Nat × BlkMark) : Sum (Nat × Nat × BlkMark) Sc :=
  let part (v : Nat) : Nat × Nat × BlkMark := (v % 2 ^ (8 * lbaBytes n.lbaf), if lbaMeta n.lbaf = 0 then 0 else v / 2 ^ 32768, b.2)
  if n.pi = 0 ∨ b.2 ≠ .good then .inl (part b.1)
  else match piCheck n.pi pr i b.1 with
  | some st => .inr st
  | none =>
    if pw.pract then .inl (part (piMake n.pi pw i b.1))
    else match piCheck n.pi pw i b.1 with
    | some st => .inr st
    | none => .inl (part b.1)

/-- COPY (R66): `ranges` are (first block, blocks); `pr` and `pw` the protection fields for the reads and the write. Every
source is read before anything is written; a poisoned or marked block is copied with its mark. The checks go in the order of R67: the
format field with the reserved ones, the blocks, the capacity, the data pointer (32 bytes a range: PRESUMED, assumption 143), then the
limits that Identify reports and the protection information of what is read. -/
def copy (c : NCmd) (sdlba fmt : Nat) (ranges : List (Nat × Nat)) (pr pw : PiCmd) (d : Dev) : Dev :=
  let total := (ranges.map Prod.snd).sum
  if total = 0 ∨ ranges.any (fun r => r.2 == 0) then d
  else { c with rsvd := c.rsvd || fmt != 0 } |> fun (c1 : NCmd) => d.io c1 true .write (fun e n =>
    let src := ranges.flatMap (fun r => (List.range r.2).map (fun i =>
      ((e.iuBlocksNow n ((r.1 + i) / n.iuBlocks))[(r.1 + i) % n.iuBlocks]?).getD (0, .poisoned)))
    let out := src.zipIdx.map (fun b => n.copyBlock pr pw b.2 b.1)
    let bad : Bool := decide (128 < ranges.length) || ranges.any (fun r => decide (4096 < r.2)) || decide (16384 < total)
    if n.resv.bars c.id.plot .read then e.done c.id .reservationConflict
    else if e.mustWait n ranges then e
    else if ¬n.within ranges then e.done c.id .lbaOutOfRange
    else e.change c n { slba := sdlba, nlb := total, kind := .copied (out.filterMap Sum.getLeft?) } (fun go x =>
      x.withPtr c (32 * ranges.length) false (fun y =>
        if bad then y.done c.id .copyRangeSizeLimit
        else if ranges.any (fun r => e.mapHeld n r.1 r.2) then e
        else match n.cluster with
        | some g => if y.spent.contains n.nsid then y.spentRefuse c else y.clusterCopy c.id n g sdlba ranges
        | none => match (out.filterMap Sum.getRight?).head? with
          | some st => y.done c.id st
          | none => go y)))

def execCopy (c : NCmd) (sdlba fmt : Nat) (ranges : List (Nat × Nat)) (pr pw : PiCmd) := run (copy c sdlba fmt ranges pr pw)

/-! ### Reservations (R66; the rules are those of NVMe 2.1) -/

/-- A reservation notification for other registrants: 1 registration preempted, 2 reservation released, 3 reservation
preempted. -/
def Dev.resvTell (d : Dev) (nsid kind : Nat) (ps : List Nat) : Dev :=
  ps.foldl (fun (e : Dev) p =>
    let k := e.ctrl p
    (e.setCtrl p { k with resvLog := k.resvLog ++ [(kind, nsid)] }).smart p 6 1) d

/-- Remove registrants; a reservation that loses its holder ends. -/
def Resv.drop (r : Resv) (ps : List Nat) : Resv :=
  let regs := r.regs.filter (fun x => !ps.contains x.1)
  let ends := if r.shared then regs.isEmpty else match r.holder with
    | some h => ps.contains h
    | none => false
  if ends then { r with regs := regs, holder := none, rtype := 0 }
  else { r with regs := regs, holder := if r.shared then none else r.holder }

/-- Change a namespace's reservation and complete. -/
def Dev.setResv (d : Dev) (c : NCmd) (n : Ns) (r : Resv) : Dev := (d.setNs { n with resv := r }).done c.id .success

/-- A reservation command that moves `need` bytes, checked as R67 says: Register and Acquire take 16 bytes, Release 8 (PRESUMED,
assumption 143). -/
def Dev.resv (d : Dev) (c : NCmd) (need : Nat) (read : Bool) (go : Dev → Ns → Dev) : Dev :=
  d.io c false .none (fun e n => e.withPtr c need read (fun x => go x n))

/-- RESERVATION_REGISTER (R66): `rrega` 0 registers, 1 unregisters, 2 replaces; `cptpl` 2 and 3 set PTPL. -/
def reservationRegister (c : NCmd) (rrega : Nat) (iekey : Bool) (cptpl crkey nrkey : Nat) (d : Dev) : Dev :=
  d.resv c 16 false (fun e n =>
    let p := c.id.plot
    let r := n.resv
    let r0 : Resv := { r with gen := (r.gen + 1) % 2 ^ 32, ptpl := if cptpl = 2 then false else if cptpl = 3 then true else r.ptpl }
    let mine := AMap.find p r.regs
    if rrega = 0 then
      match mine with
      | some k => if k = nrkey then e.done c.id .success else e.done c.id .reservationConflict
      | none => e.setResv c n { r0 with regs := AMap.put p nrkey r.regs }
    else if rrega = 1 then
      match mine with
      | none => e.done c.id .reservationConflict
      | some k =>
        if k ≠ crkey ∧ ¬iekey then e.done c.id .reservationConflict
        else
          let r1 := r0.drop [p]
          let told := if r.rtype ≠ 0 ∧ r1.rtype = 0 ∧ 3 ≤ r.rtype then r1.regs.map Prod.fst else []
          (e.resvTell c.nsid 2 told).setResv c n r1
    else if rrega = 2 then
      match mine with
      | none => if iekey then e.setResv c n { r0 with regs := AMap.put p nrkey r.regs } else e.done c.id .reservationConflict
      | some k => if k ≠ crkey ∧ ¬iekey then e.done c.id .reservationConflict else e.setResv c n { r0 with regs := AMap.put p nrkey r.regs }
    else e.done c.id .invalidField)

def execReservationRegister (c : NCmd) (rrega : Nat) (iekey : Bool) (cptpl crkey nrkey : Nat) :=
  run (reservationRegister c rrega iekey cptpl crkey nrkey)

/-- The Reservation Status data structure of NVMe 2.1: generation, type, registrants, PTPLS, then 24 bytes for each registrant. -/
def Resv.status (r : Resv) : List Nat :=
  let one (x : Nat × Nat) : List Byte := leBytes 2 x.1 ++ leBytes 6 (Bool.nat (r.holds x.1)) ++ leBytes 8 0 ++ leBytes 8 x.2
  (leBytes 4 r.gen ++ leBytes 1 r.rtype ++ leBytes 2 r.regs.length ++ leBytes 2 0 ++ leBytes 1 (Bool.nat r.ptpl) ++ leBytes 14 0 ++
    r.regs.flatMap one).map BitVec.toNat

/-- RESERVATION_REPORT (R66): the first `len` bytes of the status. -/
def reservationReport (c : NCmd) (len : Nat) (d : Dev) : Dev :=
  d.resv c len true (fun e n => (e.send (.bytes c.id.plot (n.resv.status.take len))).done c.id .success)

def execReservationReport (c : NCmd) (len : Nat) := run (reservationReport c len)

/-- The commands of preempted registrants that wait for this namespace end (Preempt and Abort). -/
def Dev.resvAbort (d : Dev) (nsid : Nat) (ps : List Nat) : Dev :=
  let hit (id : CmdId) (n : Nat) : Bool := n == nsid && ps.contains id.plot
  let ids := ((d.ftl.reads.filter (fun x => hit x.id x.nsid)).map (fun x => x.id)) ++
    ((d.ftl.held.filter (fun x => hit x.id x.nsid)).map (fun x => x.id)) ++
    ((d.gwl.reads.filter (fun x => hit x.id x.nsid)).map (fun x => x.id)) ++ ((d.gwl.writes.filter (fun x => hit x.id x.nsid)).map (fun x => x.id))
  (ids.foldl (fun (e : Dev) i => e.done i .abortedPreemptedReservation) d).orphan (fun i => ids.contains i)

/-- RESERVATION_ACQUIRE (R66): `racqa` 0 acquires, 1 preempts, 2 preempts and aborts. -/
def reservationAcquire (c : NCmd) (racqa rtype : Nat) (iekey : Bool) (crkey prkey : Nat) (d : Dev) : Dev :=
  d.resv c 16 false (fun e n =>
    let p := c.id.plot
    let r := n.resv
    if iekey ∨ 2 < racqa ∨ rtype < 1 ∨ 6 < rtype then e.done c.id .invalidField
    else if AMap.find p r.regs ≠ some crkey then e.done c.id .reservationConflict
    else if racqa = 0 then
      if r.rtype = 0 then e.setResv c n { r with holder := some p, rtype := rtype }
      else if r.holds p ∧ r.rtype = rtype then e.done c.id .success
      else e.done c.id .reservationConflict
    else
      let hkey := match r.holder with
        | some h => AMap.find h r.regs
        | none => none
      let takes := r.rtype != 0 && ((r.shared && prkey == 0) || (!r.shared && hkey == some prkey))
      if prkey = 0 ∧ ¬takes then e.done c.id .invalidField
      else
        let victims := (r.regs.filter (fun x => x.1 != p && (x.2 == prkey || (takes && r.shared)))).map Prod.fst
        if victims.isEmpty ∧ ¬takes then e.done c.id .reservationConflict
        else
          let r1 := r.drop victims
          let r2 : Resv := { r1 with gen := (r.gen + 1) % 2 ^ 32 }
          let r3 : Resv := if takes then { r2 with holder := some p, rtype := rtype } else r2
          let others := (r3.regs.filter (fun x => x.1 != p)).map Prod.fst
          let e1 := e.resvTell c.nsid 1 victims
          let e2 := if takes ∧ r.rtype ≠ rtype then e1.resvTell c.nsid 2 others else e1
          (if racqa = 2 then e2.resvAbort c.nsid victims else e2).setResv c n r3)

def execReservationAcquire (c : NCmd) (racqa rtype : Nat) (iekey : Bool) (crkey prkey : Nat) :=
  run (reservationAcquire c racqa rtype iekey crkey prkey)

/-- RESERVATION_RELEASE (R66): `rrela` 0 releases, 1 clears. -/
def reservationRelease (c : NCmd) (rrela rtype : Nat) (iekey : Bool) (crkey : Nat) (d : Dev) : Dev :=
  d.resv c 8 false (fun e n =>
    let p := c.id.plot
    let r := n.resv
    let others := (r.regs.filter (fun x => x.1 != p)).map Prod.fst
    if iekey ∨ 1 < rrela then e.done c.id .invalidField
    else if AMap.find p r.regs ≠ some crkey then e.done c.id .reservationConflict
    else if rrela = 1 then
      (e.resvTell c.nsid 3 others).setResv c n { r with regs := [], holder := none, rtype := 0, gen := (r.gen + 1) % 2 ^ 32 }
    else if ¬r.holds p then e.done c.id .success
    else if r.rtype ≠ rtype then e.done c.id .invalidField
    else (if 3 ≤ r.rtype then e.resvTell c.nsid 2 others else e).setResv c n { r with holder := none, rtype := 0 })

def execReservationRelease (c : NCmd) (rrela rtype : Nat) (iekey : Bool) (crkey : Nat) :=
  run (reservationRelease c rrela rtype iekey crkey)

end Sys2Proof.Machine
end

