-- ==== Sys2Proof/Machine/Programs.lean ====
section
/-! DEFINITION. The commands of the Computational Programs and Subsystem Local Memory command sets (R454): programs and Sieve
images, their activation and execution (R232, R233, R260, R337, R338), memory range sets, and the SLM of a plot. -/

namespace Sys2Proof.Machine

/-! ### Checks -/

/-- The compute namespace, and a plot's memory namespace (R454). -/
def computeNsid : Nat := 1025
def memoryNsid (plot : Nat) : Nat := 1026 + plot

/-- An outstanding command of the two command sets, checked up to its namespace. They are in force with CC.CSS = 110b (R454). In DOZE it wakes the part and waits; in
RECOVER it waits until commands are admitted (R150). -/
def Dev.compute (d : Dev) (c : NCmd) (nsid : Nat) (go : Dev → Dev) : Dev :=
  if ¬d.outstanding c.id then d
  else
    let e := d.hostActivity
    let m := e.f F.TOP_MODE_MODE
    if m = 0xA then e
    else if (e.ctrl c.id.plot).css ≠ 6 then e.done c.id .invalidOpcode
    else if c.rsvd then e.done c.id .invalidField
    else if m = 1 then e.done c.id .namespaceNotReady
    else if m = 3 then e.done c.id .sanitizeInProgress
    else if m = 5 ∧ ¬e.flag F.MAPW_STAT_ADMIT then e
    else if c.nsid ≠ nsid then e.done c.id .invalidNamespaceOrFormat
    else go e

/-- The command names something of an earlier generation (R107). -/
def Dev.staleName (d : Dev) (c : NCmd) : Dev :=
  (d.raise 0x1F9 c.id.plot []).complete c.id (.vendor 0xC8) (d.plotGen c.id.plot) 0

/-- A plot's loaded program at an index. -/
def Dev.prog? (d : Dev) (plot idx : Nat) : Option LoadedProg :=
  d.core.progs.find? (fun p => p.plot == plot && p.index == idx)

def Dev.dropProg (d : Dev) (plot idx : Nat) : Dev :=
  { d with core := { d.core with progs := d.core.progs.filter (fun p => !(p.plot == plot && p.index == idx)) } }

def Dev.setProg (d : Dev) (x : LoadedProg) : Dev :=
  { d with core := { d.core with progs := (d.dropProg x.plot x.index).core.progs ++ [x] } }

def Dev.dropImage (d : Dev) (m : Image) : Dev :=
  let e := d.imgDeactivate m
  { e with trel := { e.trel with images := e.trel.images.filter (fun x => x.key != m.key) } }

/-- Refuse with the failing check in Dword 0. -/
def Dev.checkFails (d : Dev) (c : NCmd) (k : Nat) : Dev := d.complete c.id .invalidField k 0

/-! ### Load Program (R260, R337) -/

/-- What the entry at an index holds: nothing, an entry of the plot's generation, or a stale one. -/
def Dev.indexGen (d : Dev) (plot idx : Nat) : Option Nat :=
  match d.prog? plot idx with
  | some p => some p.gen
  | none => (d.image? plot idx).map Image.gen

/-- An index frees what it holds. -/
def Dev.freeIndex (d : Dev) (plot idx : Nat) : Dev :=
  let e := d.dropProg plot idx
  match e.image? plot idx with
  | some m => e.dropImage m
  | none => e

/-- The first check of R260 that an image fails; `bodyOk` says that the body, which the spec does not describe, agrees with
the header, and `pats` are the patterns it stands for. -/
def Dev.sieveCheck (d : Dev) (plot index : Nat) (b : List Byte) (pats : List Rx) (bodyOk : Bool) : Option Nat :=
  let mine := d.trel.images.filter (fun m => m.plot == plot)
  if b.length < 64 ∨ b.take 4 ≠ [0x53#8, 0x56#8, 0x49#8, 0x4D#8] ∨ field b 4 2 ≠ 1 ∨ ¬zeroAt b 6 2 ∨ ¬zeroAt b 24 36 then some 2
  else if field b 20 4 ≠ b.length ∨ field b 60 4 ≠ crc32c (b.take 60 ++ b.drop 64) then some 3
  else if field b 8 4 < 1 ∨ 16384 < field b 8 4 ∨ 1024 < field b 12 4 ∨ field b 16 4 % 64 ≠ 0 ∨ 16 * 2 ^ 20 < b.length ∨
      pats.length ≠ field b 8 4 ∨ ¬bodyOk then some 4
  else if 256 ≤ d.trel.images.length ∨ 2 ^ 30 < (d.trel.images.map (fun m => m.image.length)).sum + b.length ∨ 8 ≤ mine.length ∨
      (d.indexGen plot index).isSome ∨ ¬(0x10 ≤ index ∧ index ≤ 0xFF) then some 5
  else none

/-- A piece of a program image arrives: the bytes from `off` of one of `size` bytes. The image so far, or `none` where the piece does
not follow on (PRESUMED, assumption 145: the pieces of an image come in order, and one at offset 0 starts anew). -/
def Dev.loadPiece (d : Dev) (p index ptype size off : Nat) (bytes : List Byte) : Option (List Byte × Dev) :=
  let gen := d.plotGen p
  let old := d.host.loading.find? (fun x => x.plot == p && x.gen == gen && x.index == index && x.ptype == ptype && x.size == size)
  let base := if off = 0 then [] else (old.map Loading.image).getD []
  let rest := d.host.loading.filter (fun x => !(x.plot == p && x.index == index))
  let img := base ++ bytes
  if base.length ≠ off ∨ bytes.isEmpty = true ∨ size < img.length then none
  else
    let keep := if img.length = size then rest else rest ++ [{ plot := p, gen := gen, index := index, ptype := ptype, size := size, image := img }]
    some (img, { d with host := { d.host with loading := keep } })

/-- A whole image is verified and stored. -/
def Dev.loadWhole (d : Dev) (c : NCmd) (index ptype : Nat) (image : List Byte) (pats : List Rx) (bodyOk sigOk : Bool) : Dev :=
  let p := c.id.plot
  let gen := d.plotGen p
  let e := if ((d.indexGen p index).map (fun g => g != gen)).getD false then d.freeIndex p index else d
  if ptype = 0xE0 then
    match e.imgCheck p index image sigOk with
    | some k => e.checkFails c k
    | none => (e.setProg { index := index, plot := p, gen := gen, image := image, active := false }).done c.id .success
  else
    match e.sieveCheck p index image pats bodyOk with
    | some k => e.checkFails c k
    | none =>
      let m : Image :=
        { index := index, plot := p, gen := gen, pats := pats, dtiles := field image 12 4, nbytes := field image 16 4,
          image := image, active := false }
      { e with trel := { e.trel with images := e.trel.images ++ [m] } }.done c.id .success

/-- LOAD_PROGRAM (R454, R260, R337): `unload` frees the index; else the bytes `image` from offset `off` of a program of `size` bytes,
where `ptype` E0h is a program image and E1h a Sieve image; with the last piece the whole is verified and stored. `pats`, `bodyOk` and
`sigOk` are facts of the whole image. An index that holds an entry of an earlier generation is free for loading (DESIGN CHOICE,
assumption 59). -/
def loadProgram (c : NCmd) (index : Nat) (unload : Bool) (ptype size off : Nat) (image : List Byte) (pats : List Rx)
    (bodyOk sigOk : Bool) (d : Dev) : Dev :=
  d.compute c computeNsid (fun e =>
    let p := c.id.plot
    if unload then
      match e.indexGen p index with
      | none => e.done c.id .invalidProgramIndex
      | some g => if g ≠ e.plotGen p then e.staleName c else (e.freeIndex p index).done c.id .success
    else e.withPtr c image.length false (fun x =>
      if ¬(ptype = 0xE0 ∨ ptype = 0xE1) then x.done c.id .invalidField
      else match x.loadPiece p index ptype size off image with
        | none => x.done c.id .invalidField
        | some (img, y) => if img.length = size then y.loadWhole c index ptype img pats bodyOk sigOk else y.done c.id .success))

def execLoadProgram (c : NCmd) (index : Nat) (unload : Bool) (ptype size off : Nat) (image : List Byte) (pats : List Rx)
    (bodyOk sigOk : Bool) := run (loadProgram c index unload ptype size off image pats bodyOk sigOk)

/-- PROGRAM_ACTIVATION_MANAGEMENT (R260, R337, R94, R354). -/
def programActivationManagement (c : NCmd) (index : Nat) (activate : Bool) (d : Dev) : Dev :=
  d.compute c computeNsid (fun e =>
    let p := c.id.plot
    match e.prog? p index, e.image? p index with
    | some x, _ =>
      if x.gen ≠ e.plotGen p then e.staleName c
      else if activate ∧ e.f (F.PLOT_FCORE_CAP p) = 0 then e.checkFails c 1
      else if ¬activate ∧ e.core.insts.any (fun i => i.plot == p && i.index == index && i.ended.isNone) then
        e.done c.id .commandSequenceError
      else (e.setProg { x with active := activate }).done c.id .success
    | none, some m =>
      if m.gen ≠ e.plotGen p then e.staleName c
      else if m.active = activate then e.done c.id .success
      else if ¬activate then (e.imgDeactivate m).done c.id .success
      else if e.imgRoom then (e.imgActivate m).done c.id .success
      else e.checkFails c 1
    | none, none => e.done c.id .invalidProgramIndex)

def execProgramActivationManagement (c : NCmd) (index : Nat) (activate : Bool) := run (programActivationManagement c index activate)

/-! ### Memory range sets (R454) -/

/-- Do the ranges cover bytes `lo` to `hi - 1`, one after the other? -/
def rangesCover (rs : List (Nat × Nat)) (hi : Nat) : Nat → Nat → Bool
  | 0, lo => decide (hi ≤ lo)
  | k + 1, lo =>
    decide (hi ≤ lo) || match rs.find? (fun r => decide (r.1 ≤ lo ∧ lo < r.1 + r.2)) with
      | some r => rangesCover rs hi k (r.1 + r.2)
      | none => false

/-- Lies a range of SLM, as (offset, bytes), within a set? -/
def RangeSet.holds (x : RangeSet) (r : Nat × Nat) : Bool := rangesCover x.ranges (r.1 + r.2) (x.ranges.length + 1) r.1

/-- The identifiers 1 to 65,534 that no range set of the plot has. -/
def Dev.freeSetIds (d : Dev) (p : Nat) : List Nat :=
  ((List.range 65534).map (fun i => i + 1)).filter (fun i => !d.trel.sets.any (fun s => s.plot == p && s.id == i))

/-- MEMORY_RANGE_SET_MANAGEMENT (R454): `create` defines a set of ranges (NSID, offset, bytes) and answers its identifier; else
the set `id` is deleted. A range takes 32 bytes of the data buffer (PRESUMED, assumption 143). -/
def memoryRangeSetManagement (c : NCmd) (create : Bool) (id : Nat) (ranges : List (Nat × Nat × Nat)) (d : Dev) : Dev :=
  d.compute c computeNsid (fun e =>
    let p := c.id.plot
    if create then e.withPtr c (32 * ranges.length) false (fun e =>
      if ranges.isEmpty ∨ ranges.any (fun r => r.1 != memoryNsid p || decide (e.slmBytes p < r.2.1 + r.2.2) || r.2.2 == 0) then
        e.done c.id .invalidField
      else
        let free := e.freeSetIds p
        let r := e.draw
        let n := free.getD (Config.setPick r.1 % max 1 free.length) 0
        let x : RangeSet := { id := n, plot := p, gen := e.plotGen p, ranges := ranges.map (fun t => (t.2.1, t.2.2)) }
        if free.isEmpty then e.done c.id .invalidMemoryRangeSet
        else
          let e1 : Dev := { r.2 with trel := { r.2.trel with sets := r.2.trel.sets ++ [x] } }
          e1.complete c.id .success n 0)
    else match e.trel.sets.find? (fun s => s.plot == p && s.id == id) with
      | none => e.done c.id .invalidMemoryRangeSet
      | some s =>
        if s.gen ≠ e.plotGen p then e.staleName c
        else
          let e1 : Dev := { e with trel := { e.trel with sets := e.trel.sets.filter (fun x => !(x.plot == p && x.id == id)) } }
          e1.done c.id .success)

def execMemoryRangeSetManagement (c : NCmd) (create : Bool) (id : Nat) (ranges : List (Nat × Nat × Nat)) :=
  run (memoryRangeSetManagement c create id ranges)

/-! ### Execute Program (R232, R233, R338, R339) -/

/-- The SLM ranges a fixed program's parameter block names. -/
def paramRanges (b : List Byte) : List (Nat × Nat) :=
  [(field b 24 8, field b 32 8)] ++ (if field b 4 4 = 0 then [(field b 8 8, field b 16 8)] else [])

/-- The SLM ranges a launch block names. -/
def Launch.ranges (l : Launch) : List (Nat × Nat) :=
  [(l.recoff, 64), (l.argoff, l.arglen), (l.ringoff, l.rings * 2 ^ l.log2e * 192)] ++
  (if l.isOut then [(l.outoff, l.outcap)] else []) ++ (if l.isIn ∧ l.nsid = 0 then [(l.instart, l.inlen)] else [])

/-- An unused tag of HIF's command table. -/
def Dev.freeTag (d : Dev) : Nat :=
  let used := d.trel.cmds.map ProgCmd.tag ++ d.core.insts.map ProgInst.tag ++
    (List.range 4).flatMap (fun q => (d.jobs q).map (fun j => j.desc.tag) ++ (d.waits q).map (fun w => w.2.tag))
  ((List.range (used.length + 1)).find? (fun t => !used.contains t)).getD 0

/-- Enter a command into HIF's table with `n` jobs to end. -/
def Dev.newCmd (d : Dev) (c : NCmd) (tag n : Nat) (param : List Byte) : Dev :=
  let x : ProgCmd :=
    { tag := tag, id := c.id, param := param, left := n, js := .ok, outBytes := 0, inBytes := 0, aux := 0, engine := 0, label := 0,
      sum := Summary.init, seen := 0, gen := d.plotGen c.id.plot, units := [], low := 0, wrote := [] }
  { d with trel := { d.trel with cmds := d.trel.cmds ++ [x] } }

/-- The template HIF runs a fixed program on in a quadrant: one of the segment's (`Config.progPid`). -/
def Dev.hifPid (d : Dev) (q prog : Nat) : Nat :=
  match d.seg? q with
  | some s => ((s.templates[Config.progPid q prog % max 1 s.templates.length]?).map Template.pid).getD 0
  | none => 0

/-- The descriptor HIF builds from a parameter block (R217, R232). -/
def Dev.hifDesc (d : Dev) (q prog plot tag : Nat) (b : List Byte) : JobDesc :=
  { subseq := 0, pid := d.hifPid q prog, prog := prog, resume := bit (field b 1 1) 0, late := bit (field b 1 1) 1,
    urg := field b 2 1, plot := plot, gen := d.plotGen plot, tag := tag, nsid := field b 4 4, instart := field b 8 8,
    inlen := field b 16 8, outoff := field b 24 8, outcap := field b 32 8, param := 0, paramlen := b.length,
    token := field b 40 8, timeout := field b 48 4, flagsOk := true }

/-- A fixed program starts (R233): SCAN, SCAN_REGEX and INDEX_BUILD in every quadrant in service, INDEX_LOOKUP in the quadrant
of its table, the others in one of the part's choice. -/
def Dev.runFixed (d : Dev) (c : NCmd) (prog : Nat) (b : List Byte) : Dev :=
  let tag := d.freeTag
  let r := d.draw
  let one := d.quads.getD (Config.progQuad r.1 % max 1 d.quads.length) 0
  let all := prog == 1 || prog == 2 || prog == 7
  let qs := if all then d.quads else if prog = 8 ∧ d.quadOk (field b 64 2 / 256) then [field b 64 2 / 256] else [one]
  let e := if all || prog == 8 then d else r.2
  if d.quads.isEmpty then d.done c.id .internalError
  else qs.foldl (fun (x : Dev) q => x.hifPost q (x.hifDesc q prog c.id.plot tag b)) (e.newCmd c tag qs.length b)

/-- The quadrant that holds the first unit of a launch's input: that of the channel of the first block's IU, or of the DRAM channel of
the first SLM byte (assumption 160). None where the block lies on no flash of this member. -/
def Dev.inputQuad (d : Dev) (l : Launch) : Option Nat :=
  if l.nsid = 0 then d.quads[l.instart / 4096 % max 1 d.quads.length]?
  else match d.ns? l.nsid with
    | none => none
    | some x =>
      let e := d.entry? l.nsid (l.instart / x.iuBlocks)
      if x.cluster.isNone ∧ entryType e = 1 then some (dieChan (locDie (e % 2 ^ 38)) / 8) else none

/-- The quadrant of a launch (R337): QUAD; for FFh the one that holds the input's first unit, 0 without input. Where no quadrant holds
that unit it is the part's choice (assumption 110). -/
def Dev.launchQuad (d : Dev) (l : Launch) : Nat × Dev :=
  if l.quad ≠ 0xFF then (l.quad, d)
  else if ¬l.isIn then (0, d)
  else match d.inputQuad l with
    | some q => (q, d)
    | none => (d.quads.getD (Config.progQuad d.draw.1 % max 1 d.quads.length) 0, d.draw.2)

/-- A downloadable program starts (R338, R339). -/
def Dev.runProg (d : Dev) (c : NCmd) (x : LoadedProg) (b : List Byte) : Dev :=
  let l := launchOf b
  let r := d.launchQuad l
  if ¬d.launchOk c.id.plot r.1 l then d.done c.id .invalidField
  else (r.2.newCmd c r.2.freeTag (Bool.nat l.isIn + Bool.nat l.isOut) b).launch r.2.freeTag c.id x r.1 l

/-- EXECUTE_PROGRAM (R232 to R235, R337 to R339, R454): `param` is the parameter data, `set` the memory range set, 0 for none. A program,
a set or a Sieve image of an earlier generation is stale (R107, R262). -/
def executeProgram (c : NCmd) (index set : Nat) (param : List Byte) (d : Dev) : Dev :=
  d.compute c computeNsid (fun e0 => e0.withPtr c param.length false (fun e =>
    let p := c.id.plot
    let prog := e.prog? p index
    let fixed := decide (1 ≤ index ∧ index ≤ 8)
    let named := e.trel.sets.find? (fun s => s.plot == p && s.id == set)
    let ranges := if fixed then paramRanges param else (launchOf param).ranges
    let within : Bool := match named with
      | some s => set == 0 || ranges.all (fun r => r.2 == 0 || s.holds r)
      | none => true
    if ¬fixed ∧ prog.isNone then e.done c.id .invalidProgramIndex
    else if ¬fixed ∧ (prog.map LoadedProg.gen) ≠ some (e.plotGen p) then e.staleName c
    else if ¬fixed ∧ (prog.map LoadedProg.active) ≠ some true then e.done c.id .programNotActivated
    else if set ≠ 0 ∧ named.isNone then e.done c.id .invalidMemoryRangeSet
    else if set ≠ 0 ∧ (named.map RangeSet.gen) ≠ some (e.plotGen p) then e.staleName c
    else if ¬within then e.done c.id .invalidField
    else if index = 2 ∧ ((e.image? p (field param 1024 4)).map (fun m => m.gen != e.plotGen p)).getD false then e.staleName c
    else match prog with
    | some x => if e.f (F.PLOT_FCORE_CAP p) = 0 then e.done c.id .invalidField else e.runProg c x param
    | none => e.runFixed c index param))

def execExecuteProgram (c : NCmd) (index set : Nat) (param : List Byte) := run (executeProgram c index set param)

/-! ### SLM commands (R454, R95) -/

/-- A command to the plot's memory namespace, which reaches the given ranges of its SLM, as (offset, bytes). Ranges beyond it are an error
(R454); while a channel that holds one of them is under test the command is held (R45). -/
def Dev.memory (d : Dev) (c : NCmd) (rs : Dev → List (Nat × Nat)) (go : Dev → Dev) : Dev :=
  d.compute c (memoryNsid c.id.plot) (fun e =>
    if (rs e).any (fun r => decide (e.slmBytes c.id.plot < r.1 + r.2)) then e.done c.id .memoryRangeError
    else if (rs e).any (fun r => e.chanHeld r.1 r.2) then e
    else go e)

/-- The poisoned 64-byte groups of a range, counted from its first byte, that a move takes along (R20). -/
def Mem.marks (m : Mem) (a n : Nat) : List Nat :=
  (List.range (ceilDiv n 64)).filter (fun i => m.poisonedRange (a + 64 * i) (min 64 (n - 64 * i)))

/-- MEMORY_READ (R454): poisoned bytes end it with Unrecovered Read Error (R20). -/
def memoryRead (c : NCmd) (offset bytes : Nat) (d : Dev) : Dev :=
  d.memory c (fun _ => [(offset, bytes)]) (fun e =>
    e.withPtr c bytes true (fun x =>
      if (x.slm c.id.plot).poisonedRange offset bytes then x.done c.id .unrecoveredReadError
      else (x.send (.bytes c.id.plot (((x.slm c.id.plot).bytes offset bytes).map BitVec.toNat))).done c.id .success))

def execMemoryRead (c : NCmd) (offset bytes : Nat) := run (memoryRead c offset bytes)

/-- MEMORY_WRITE (R454). -/
def memoryWrite (c : NCmd) (offset : Nat) (data : List Byte) (d : Dev) : Dev :=
  let p := c.id.plot
  d.memory c (fun _ => [(offset, data.length)]) (fun e =>
    e.withPtr c data.length false (fun x =>
      (x.setSlm p ((x.slm p).store offset data [])).done c.id .success))

def execMemoryWrite (c : NCmd) (offset : Nat) (data : List Byte) := run (memoryWrite c offset data)

/-- MEMORY_COPY (R454): the source ranges, as (NSID, offset, bytes), one after the other to `dest`; marks move with the data
(R20). A source takes 32 bytes of the data buffer (PRESUMED, assumption 143). -/
def memoryCopy (c : NCmd) (dest : Nat) (sources : List (Nat × Nat × Nat)) (d : Dev) : Dev :=
  let p := c.id.plot
  let total := (sources.map (fun r => r.2.2)).sum
  let foreign := sources.any (fun r => r.1 != memoryNsid p)
  d.memory c (fun _ => if foreign then [] else (dest, total) :: sources.map Prod.snd) (fun e =>
    let m := e.slm p
    let parts := sources.map (fun r => (m.bytes r.2.1 r.2.2, m.marks r.2.1 r.2.2))
    if foreign then e.done c.id .invalidNamespaceOrFormat
    else e.withPtr c (32 * sources.length) false (fun x =>
      if sources.any (fun r => decide (r.2.1 < dest + total ∧ dest < r.2.1 + r.2.2)) then x.done c.id .overlappingRange
      else
        let put (a : Nat × Mem) (y : List Byte × List Nat) : Nat × Mem := (a.1 + y.1.length, a.2.store a.1 y.1 y.2)
        (x.setSlm p (parts.foldl put (dest, m)).2).done c.id .success))

def execMemoryCopy (c : NCmd) (dest : Nat) (sources : List (Nat × Nat × Nat)) := run (memoryCopy c dest sources)

/-- MEMORY_FILL (R454): a range of the plot's SLM takes one byte value. -/
def memoryFill (c : NCmd) (offset bytes value : Nat) (d : Dev) : Dev :=
  let p := c.id.plot
  d.memory c (fun _ => [(offset, bytes)]) (fun e =>
    (e.setSlm p ((e.slm p).store offset (List.replicate bytes (BitVec.ofNat 8 value)) [])).done c.id .success)

def execMemoryFill (c : NCmd) (offset bytes value : Nat) := run (memoryFill c offset bytes value)

end Sys2Proof.Machine
end

