-- ==== Sys2Proof/Machine/Reset.lean ====
section
/-! DEFINITION. Part resets and start-up self-test (chapter 2): what a part reset keeps (R39), the reset inputs, and the steps
up to BOOT (R37 to R43). -/

namespace Sys2Proof.Machine

/-! ### What outlives a part reset (R38, R39) -/

/-- The causes of a part reset, by their bit in TOP_RSTCAUSE. -/
inductive RstCause where
  | por | pin | nssr | sw | pfret | lcs | testin
  deriving DecidableEq, Repr

def RstCause.bit : RstCause → Field
  | .por => F.TOP_RSTCAUSE_POR
  | .pin => F.TOP_RSTCAUSE_PIN
  | .nssr => F.TOP_RSTCAUSE_NSSR
  | .sw => F.TOP_RSTCAUSE_SW
  | .pfret => F.TOP_RSTCAUSE_PFRET
  | .lcs => F.TOP_RSTCAUSE_LCS
  | .testin => F.TOP_RSTCAUSE_TESTIN

def rstBits : List Field :=
  [F.TOP_RSTCAUSE_POR, F.TOP_RSTCAUSE_PIN, F.TOP_RSTCAUSE_NSSR, F.TOP_RSTCAUSE_SW, F.TOP_RSTCAUSE_PFRET, F.TOP_RSTCAUSE_LCS,
   F.TOP_RSTCAUSE_TESTIN]

/-- The register fields whose value a part reset keeps: the straps as last sampled with what shows them, the reset causes, the
patrol's progress and the failed members, which device metadata holds. -/
def keptFields : List Nat :=
  rstBits.map Field.key ++
    [F.TOP_STRAP_CID, F.TOP_STRAP_PORTMODE, F.TOP_STRAP_BOOTSEL, F.HIF_PORTCFG_DUAL, F.GWL_ID_MEMBER, F.HALW_BOOT_BOOTSEL,
     F.STRP_RAKESTAT_PASSPCT, F.STRP_RAKESTAT_PASSES].map Field.key

def keptKey (k : Nat) : Bool :=
  keptFields.contains k ||
    decide ((F.STRP_GMEM_FAILED 0).key ≤ k ∧ k ≤ (F.STRP_GMEM_FAILED 4095).key ∧ (k - (F.STRP_GMEM_FAILED 0).key) % 32 = 0)

/-- The channels that are out of service before a stream is in force: fused, retired, or with their quadrant. -/
def Dev.chOutNow (d : Dev) : Nat :=
  (List.range 32).foldl (fun n c =>
    setBit n c (bit d.fuses.chFused c || bit d.nv.retiredCh c || bit d.fuses.qfused (c / 8) || bit d.nv.retiredQ (c / 8))) 0

/-- The life-cycle state that the fuses give (R392): BLANK is 1. -/
def Fuses.state (f : Fuses) : Nat := f.lcrec.getLastD 1

/-- The Halward registers, as the fuses have them. -/
def Dev.showFuses (d : Dev) : Dev :=
  let f := d.fuses
  let d1 := ((((d.setF F.TOP_ID_PART f.part).setF F.HALW_LCS_STATE f.state).setF F.HALW_LCS_LCCOUNT f.lcrec.length).setF F.HALW_DIEID_DIEID
    f.dieId).setF F.HALW_SVN_FW f.svnFw
  (((d1.setF F.HALW_SVN_STREAM f.svnStream).setF F.HALW_KEYS_BURNED f.burned).setF F.HALW_KEYS_REVOKED f.revoked).setF F.HALW_KEYS_AUTH
    (Bool.nat f.authKey.isSome)

/-- The registers that show device metadata. -/
def Dev.showMeta (d : Dev) : Dev :=
  let d1 := ((d.setF F.TOP_UNITS_QFUSED d.fuses.qfused).setF F.TOP_UNITS_QRETIRED d.nv.retiredQ).setF F.TOP_CHRETIRED_CHOUT d.chOutNow
  let d2 := (List.range 32).foldl (fun (e : Dev) c => e.setF (F.CHAN_STAT_RETIRED c) (Bool.nat (bit d.nv.retiredCh c))) d1
  let d3 := d.nv.failedDies.foldl (fun (e : Dev) x =>
    let fx := F.CHAN_DIEFAIL_FAIL (dieChan x) (dieLocal x / 32)
    (e.setF fx (setBit (e.f fx) (dieLocal x % 32) true)).setF (F.CHAN_STAT_DIESFAIL (dieChan x))
      (e.f (F.CHAN_STAT_DIESFAIL (dieChan x)) + 1)) d2
  let d4 := d.marks.foldl (fun (e : Dev) m =>
    e.setF (if m.1 % 2 = 0 then F.MEMC_MARK_DEV0 (m.1 / 2) else F.MEMC_MARK_DEV1 (m.1 / 2)) m.2) d3
  let d5 := (((d4.setF F.MAPW_STAT_ROCOND (Bool.nat d.nv.roCond)).setF F.MAPW_RECOV_MS d.nv.recMs).setF F.MRAMC_WSEQ_NEXT d.md.wseq).setF
    F.PWR_THERM_TRIPPED (Bool.nat d.nv.tripped) |>.setF F.MRAMC_JHEAD_BSEQ d.mram.jhead
  let d6 := match d.nv.savedTmax with
    | some t => d5.setF F.TOP_TMAX_SECONDS t
    | none => d5
  ((d6.wcShow).journalShow).rebuildShow

/-- The write cache after a stop: what was under way is destaged again (R148). -/
def Commit.stopped (c : Commit) : Commit := { c with sent := [], staged := [] }

/-- A block whose ERASE_START was not committed is no block to erase. -/
def Dev.blocksKept (d : Dev) : List (Nat × Blk) :=
  d.md.blocks.map (fun b =>
    if b.2.state = .erasing ∧ d.uncommitted (.eraseStart (b.1 / 8192) (b.1 % 8192)) then (b.1, { b.2 with state := .closed }) else b)

/-- The stripes and rebuilds after a stop: codewords gathered for a page are gone, and a rebuild walks its map again. After an unclean stop
the rows that are not protected wait for their replay, and the block stripes that were open take no more data (R168). -/
def StrpSt.stopped (x : StrpSt) (clean : Bool) : StrpSt :=
  { x with
    replay := if clean then [] else (x.slots.filter (fun s => s.state != .free)).map (fun s => s.index)
    stripes := x.stripes.map (fun s => { s with fill := [], closing := s.closing || (s.isOpen && !clean) })
    rebuilds := x.rebuilds.map (fun r => { r with members := r.members.map (fun m => (m.1, false)), left := [] }) }

/-- A controller after a part reset holds the features that were saved (R79). -/
def NvSt.ctrls (n : NvSt) : List (Nat × Ctrl) := n.saved.map (fun x => (x.1, { Ctrl.init with feat := { x.2 with tsBase := 0, tsAt := 0 } }))

/-- The part with everything volatile gone: MRAM, flash, the boot flash, the fuses and the pins stay, and the registers show
them. -/
def Dev.cold (d : Dev) : Dev :=
  let e : Dev := { Dev.init with
    pins := d.pins
    free := d.free
    flash := d.flash
    mram := { d.mram with commits := d.mram.commits.map Commit.stopped }
    md := { d.md with blocks := d.blocksKept }
    strp := d.strp.stopped (d.nv.stop == .clean)
    fuses := d.fuses
    bootFlash := d.bootFlash
    nv := d.nv
    eras := d.eras
    epochs := d.epochs
    spent := d.spent
    gcm := d.gcm
    sramBad := d.sramBad
    marks := d.marks
    clu := d.clu
    host := { HostSt.init with ctrls := d.nv.ctrls, out := d.host.out }
    test := { d.test with scanStopped := false, dbgActive := false, uartRx := [] }
    regs := d.regs.filter (fun x => keptKey x.1) }
  (((e.showFuses).showMeta).cjShow).setEf F.EVT_JHEAD_SEQ (e.nv.bootCount * 2 ^ 40) |>.setAck (e.nv.bootCount * 2 ^ 40)

/-- The namespaces created in TEST are deleted at the next part reset (R55). -/
def Dev.dropTestNs (d : Dev) : Dev := ((d.md.nss.filter (fun n => n.test)).map (fun n => n.nsid)).foldl (fun (e : Dev) n => e.deleteNs n) d

/-- A part reset (R33 to R39, R405): the boot count rises, Halward draws a nonce, the cause is noted; POR clears every other
cause. A pending graft is discarded (R389); debug rights stay only for the reset that enters TEST (R396). While PWRFAIL_N is low
with RESET_N high the part waits (R434). -/
def Dev.partReset (d : Dev) (c : RstCause) : Dev :=
  let graft := d.flag F.BRZ_GRAFT_PENDING
  let rights := if c = .testin then d.f F.HALW_DEBUG_RIGHTS else 0
  let d1 := d.dropTestNs
  let tripped := d1.mode.hold == .trip || (d1.nv.tripped && d1.f F.TOP_MODE_MODE == 0)
  let d2 := { d1 with nv := { d1.nv with bootCount := d1.nv.bootCount + 1, tripped := tripped } }
  let d3 := d2.cold
  let r := d3.draw
  let d4 := { r.2 with boot := { r.2.boot with nonce := r.1 } }
  let d5 := if c = .por then rstBits.foldl (fun (e : Dev) x => e.setF x 0) d4 else d4
  let d6 := (d5.setF c.bit 1).setF F.HALW_DEBUG_RIGHTS rights
  let wait := d6.pins.resetN && !d6.pins.pwrfailN
  let d7 := { d6 with mode := { d6.mode with hold := if wait then .pwrfailWait else .none, faultN := !d6.pins.resetN } }
  if graft then d7.raise 0x02B noPlot [] else d7

/-! ### The reset inputs -/

/-- POWER_ON (R34, R432): the supply comes up, RESET_N low. -/
def powerOn (d : Dev) : Dev :=
  if d.pins.supply then d
  else
    let d1 := { d with test := TestSt.init, pins := { d.pins with supply := true, resetN := false }, nv := { d.nv with powerCycles := d.nv.powerCycles + 1 } }
    d1.partReset .por

def execPowerOn := runHard powerOn

/-- Is some valid sensor at this temperature in C or above? -/
def Dev.anySensor (d : Dev) (t : Int) : Bool :=
  (List.range 6).any (fun i => d.flag (F.PWR_TEMP_VALID i) && decide (t ≤ sbyte (d.f (F.PWR_TEMP_TEMP i))))

/-- RESET_N_ASSERT (R440, R447): RESET_N has been low for 1 us. While the part is held after a thermal trip it has effect only
once every sensor reads below 90 C. -/
def resetNAssert (d : Dev) : Dev :=
  if ¬d.pins.supply ∨ ¬d.pins.resetN then d
  else
    let d1 := { d with pins := { d.pins with resetN := false } }
    if d.mode.hold = .trip ∧ d.anySensor 90 then d1 else d1.partReset .pin

def execResetNAssert := runHard resetNAssert

/-- The straps are sampled (R428). -/
def Dev.sampleStraps (d : Dev) : Dev :=
  let d1 := ((d.setF F.TOP_STRAP_CID d.pins.cid).setF F.TOP_STRAP_PORTMODE d.pins.portmode).setF F.TOP_STRAP_BOOTSEL d.pins.bootsel
  ((d1.setF F.HIF_PORTCFG_DUAL d.pins.portmode).setF F.GWL_ID_MEMBER d.pins.cid).setF F.HALW_BOOT_BOOTSEL d.pins.bootsel

/-- With EXTEST, CLAMP or HIGHZ current the TAP returns to IDCODE and the pins to functional control as RESET_N rises (R421). -/
def Dev.tapRelease (d : Dev) : Dev :=
  if d.test.ir = .extest ∨ d.test.ir = .clamp ∨ d.test.ir = .highz then
    { d with test := { d.test with ir := .idcode, pinsDriven := false, pinsReleased := false } }
  else d

/-- RESET_N_RISE (R428, R434): the straps are sampled, FAULT_N is released, start-up begins, or waits for PWRFAIL_N. -/
def resetNRise (d : Dev) : Dev :=
  if ¬d.pins.supply ∨ d.pins.resetN then d
  else
    let d1 := ({ d with pins := { d.pins with resetN := true, upMs := 0 } }).tapRelease
    if d1.mode.hold = .trip then d1
    else
      { d1.sampleStraps with mode := { d1.mode with faultN := false, hold := if d1.pins.pwrfailN then .none else .pwrfailWait } }

def execResetNRise := runHard resetNRise

/-- STRAP_CHANGE (R428): the straps' levels change; nothing is sampled. -/
def strapChange (cid portmode bootsel : Nat) (d : Dev) : Dev :=
  { d with pins := { d.pins with cid := cid % 8, portmode := portmode % 2, bootsel := bootsel % 4 } }

def execStrapChange (cid portmode bootsel : Nat) := runHard (strapChange cid portmode bootsel)

/-- May a part reset be asked for: powered and out of RESET_N, and not held after a failure or a trip (R43, R447)? -/
def Dev.canReset (d : Dev) : Bool := d.pins.supply && d.pins.resetN && d.mode.hold != .bistFail && d.mode.hold != .trip

/-- TOP_RESET (R34): a write of GO with the key. -/
def topReset (key : Nat) (go : Bool) (d : Dev) : Dev := if key = 0xC3A5 ∧ go ∧ d.canReset then d.partReset .sw else d

def execTopReset (key : Nat) (go : Bool) := run (topReset key go)

/-- NVM_SUBSYSTEM_RESET (R458): a write of `v` to NSSR of the function that carries plot `p`; CSTS.NSSRO shows that the reset has
taken place. -/
def nvmSubsystemReset (p v : Nat) (d : Dev) : Dev :=
  if p = 0 ∧ v = 0x4E564D65 ∧ d.canReset then
    let e := d.partReset .nssr
    { e with host := { e.host with nssro := true } }
  else d

def execNvmSubsystemReset (p v : Nat) := run (nvmSubsystemReset p v)

/-! ### Start-up self-test (R41 to R43, R357, R38) -/

/-- Does start-up run: powered, RESET_N high, nothing holds it? -/
def Dev.starting (d : Dev) : Bool := d.pins.supply && d.pins.resetN && d.mode.hold == .none

/-- HALWARD_SCRUB_DONE (R41). -/
def halwardScrubDone (d : Dev) : Dev :=
  if d.starting ∧ d.f F.TOP_MODE_MODE = 0 ∧ ¬d.flag F.HALW_SCRUB_DONE then (d.setF F.HALW_SCRUB_DONE 1).setMode 2 else d

def execHalwardScrubDone := run halwardScrubDone

/-- Is start-up SELFTEST running? -/
def Dev.selfTesting (d : Dev) : Bool := d.starting && d.f F.TOP_MODE_MODE == 2 && !d.flag F.TOP_MODE_CXST

/-- Note the result of a unit's start-up tests (R424): time in tenths of a millisecond, signature. -/
def Dev.bistResult (d : Dev) (u : Nat) (l m e : Bool) (ms misr : Nat) : Dev :=
  let d1 := (((d.setF (F.BIST_RES_RUN u) 1).setF (F.BIST_RES_PASS u) (Bool.nat (!(l || m || e)))).setF (F.BIST_RES_LFAIL u) (Bool.nat l)).setF
    (F.BIST_RES_MFAIL u) (Bool.nat m)
  ((d1.setF (F.BIST_RES_EFAIL u) (Bool.nat e)).setF (F.BIST_RES_MS u) (min ms 65535)).setF (F.BIST_MISR_MISR u) misr

/-- Step over the quadrants that are fused or retired: they read SKIPPED (R42, R424). -/
def Dev.skipQuads : Nat → Dev → Dev
  | 0, d => d
  | n + 1, d =>
    let q := d.mode.nextQ
    if q < 4 ∧ d.quadOk q = false then
      Dev.skipQuads n { d.setF (F.BIST_RES_SKIPPED (q + 1)) 1 with mode := { d.mode with nextQ := q + 1 } }
    else d

/-- DEVICE_BIST_DONE (R43): the ECC checker and device-level tests end with these failures. -/
def deviceBistDone (l m e : Bool) (ms misr : Nat) (d : Dev) : Dev :=
  if d.selfTesting ∧ ¬d.mode.devTested then
    let d1 := d.bistResult 0 l m e ms misr
    let d2 := { d1 with mode := { d1.mode with devTested := true } }
    if l || m || e then
      let d3 := d2.setMode 0
      { d3 with mode := { d3.mode with hold := .bistFail, faultN := true } }
    else Dev.skipQuads 4 d2
  else d

def execDeviceBistDone (l m e : Bool) (ms misr : Nat) := run (deviceBistDone l m e ms misr)

/-- The quadrants that have been tested and failed. -/
def Dev.failedQuads (d : Dev) : List Nat := (List.range 4).filter (fun q => d.quadOk q && !bit d.mode.passed q)

/-- The outcome of the quadrant tests (R43): failed quadrants are retired, and the degraded condition is set. -/
def Dev.quadOutcome (d : Dev) : Dev :=
  if d.mode.nextQ < 4 then d
  else
    let bad := d.failedQuads
    let d1 := bad.foldl (fun (e : Dev) q => e.markRetired q 1) d
    if bad.isEmpty ∧ d1.nv.retiredQ = 0 then d1 else d1.setF F.TOP_MODE_CDEGR 1

/-- QUADRANT_BIST_DONE (R43): the tests of the next quadrant end. -/
def quadrantBistDone (l m e : Bool) (ms misr : Nat) (d : Dev) : Dev :=
  let q := d.mode.nextQ
  if d.selfTesting ∧ d.mode.devTested ∧ q < 4 then
    let d1 := d.bistResult (q + 1) l m e ms misr
    let ok := !(l || m || e)
    let d2 := { d1 with mode := { d1.mode with nextQ := q + 1, passed := setBit d1.mode.passed q ok } }
    (Dev.skipQuads 4 d2).quadOutcome
  else d

def execQuadrantBistDone (l m e : Bool) (ms misr : Nat) := run (quadrantBistDone l m e ms misr)

/-- In-field tests begin with the lowest quadrant in service. -/
def Dev.firstQuad (d : Dev) : Dev := d.setF F.TOP_QBIST_NEXTQ (d.quads.headD 0)

/-- Tests and fills are complete (R34): SAFE with fewer than two quadrants, TEST under its authorisation with the MRAM data
regions wiped (R55), else BOOT. -/
def Dev.startUpEnd (d : Dev) : Dev :=
  if d.mode.sramFilled ∧ d.mode.dramFilled then
    if d.quads.length < 2 then d.enterSafe 1
    else if bit (d.f F.HALW_DEBUG_RIGHTS) 0 then
      let d1 := ((d.wipeMram).setF F.HALW_LCS_TEST 1).setF F.STRP_JSTAT_INUSE 0
      (((d1.wcShow).journalShow).firstQuad).setMode 0xB
    else d.firstQuad.setMode 4
  else d

/-- DRAM_TRAINING_DONE (R357): training ends; the channels of the quadrants `failed` failed at set A on some rank. -/
def dramTrainingDone (failed : List Nat) (d : Dev) : Dev :=
  if d.selfTesting ∧ d.mode.devTested ∧ d.mode.nextQ = 4 ∧ ¬d.mode.dramTrained then
    let bad := failed.filter d.quadOk
    let d1 := bad.foldl (fun (e : Dev) q => e.markRetired q 3) d
    let d2 := if bad.isEmpty then d1 else d1.setF F.TOP_MODE_CDEGR 1
    let d3 := d2.quads.foldl (fun (e : Dev) q => e.setF (F.MEMC_STAT_TRAINED q) 1) d2
    { d3 with mode := { d3.mode with dramTrained := true } }
  else d

def execDramTrainingDone (failed : List Nat) := run (dramTrainingDone failed)

/-- SRAM_FILL_DONE (R38). -/
def sramFillDone (d : Dev) : Dev :=
  if d.selfTesting ∧ d.mode.devTested ∧ d.mode.nextQ = 4 ∧ ¬d.mode.sramFilled then
    ({ d with mode := { d.mode with sramFilled := true } }).startUpEnd
  else d

def execSramFillDone := run sramFillDone

/-- DRAM_FILL_DONE (R38): the fill of the trained channels ends. -/
def dramFillDone (d : Dev) : Dev :=
  if d.selfTesting ∧ d.mode.dramTrained ∧ ¬d.mode.dramFilled then ({ d with mode := { d.mode with dramFilled := true } }).startUpEnd else d

def execDramFillDone := run dramFillDone

end Sys2Proof.Machine
end

