-- ==== Sys2Proof/Machine/Boot.lean ====
section
/-! DEFINITION. BOOT and RECOVER (chapters 2, 6 and 16): verified boot (R383), the first state of a stream's registers, the map
load after a clean stop and the recovery after any other (R149, R150). -/

namespace Sys2Proof.Machine

/-! ### Firmware (R383 steps 1 to 4) -/

/-- Does BOOT run, or TEST, where the same steps run without a change of mode? -/
def Dev.booting (d : Dev) : Bool := d.starting && (d.f F.TOP_MODE_MODE == 4 || d.f F.TOP_MODE_MODE == 0xB)

/-- The cores of the quadrants in service leave reset: steward cores run, field cores are idle (R333, R38). -/
def Dev.releaseCores (d : Dev) : Dev :=
  d.quads.foldl (fun (e : Dev) q =>
    (List.range 8).foldl (fun (x : Dev) k => x.setCoreState (8 * q + k) (if k < 6 then 0 else 2)) e) d

/-- SAFE with its cause, from BOOT; TEST has no such transition (R34). -/
def Dev.bootSafe (d : Dev) (cause : Nat) : Dev := if d.f F.TOP_MODE_MODE = 4 then d.enterSafe cause else d

/-- Is the image of a firmware slot accepted (R381)? -/
def Dev.slotOk (d : Dev) (s : Nat) : Bool := ((AMap.find s d.bootFlash.fw).map (fun i => d.firmwareOk i.hdr)).getD false

/-- FIRMWARE_VERIFY (R383): the chosen slot, else the others in ascending order, else recovery boot. -/
def firmwareVerify (d : Dev) : Dev :=
  if ¬d.booting ∨ d.boot.fwRunning ≠ 0 then d
  else
    let g := d.directory
    let chosen := if 1 ≤ g.fwNext ∧ g.fwNext ≤ 3 then g.fwNext else g.fwActive
    let order := chosen :: [1, 2, 3].filter (fun s => s != chosen)
    let found := if 2 ≤ d.f F.HALW_BOOT_BOOTSEL then none else order.find? d.slotOk
    match found with
    | none => d.releaseCores.bootSafe 3
    | some s =>
      let d1 := { d with boot := { d.boot with firmware := AMap.find s d.bootFlash.fw, fwRunning := s } }
      let d2 := (d1.setF F.HALW_BOOT_FWSLOT s).setF F.HALW_BOOT_FWFALLBACK (Bool.nat (s != chosen))
      (if s = chosen then d2 else d2.raise 0x02C noPlot [chosen, s]).releaseCores

def execFirmwareVerify := run firmwareVerify

/-! ### The stream (R383 steps 5 to 8) -/

/-- The stream of a slot: 0 A, 1 B. -/
def Dev.streamIn (d : Dev) (s : Nat) : Option Stream := if s = 0 then d.bootFlash.strA else d.bootFlash.strB

/-- Why a slot's stream is refused: an empty slot fails check 0x01, and BLANK and SCRAPPED parts take none (R394). -/
def Dev.slotFail (d : Dev) (s : Nat) : Option LoadFail :=
  match d.streamIn s with
  | none => some ⟨0x01, 0, 0, 0⟩
  | some x => if d.fuses.state = 1 ∨ d.fuses.state = 7 then some ((d.streamFail x).getD ⟨0x02, 0, 0, 0⟩) else d.streamFail x

/-- Record that a slot's stream is refused. -/
def Dev.noteSlot (d : Dev) (s : Nat) (f : LoadFail) : Dev := d.brzRecord ((d.streamIn s).map Stream.order |>.getD []) f

/-- The first boot after delivery or a life-cycle change: the bad-block tables are copied from their originals, and each group's
good blocks are its base (R39, R136). -/
def Dev.firstBoot (d : Dev) : Dev :=
  if ¬d.md.base.isEmpty then d
  else
    let d1 := d.flash.factoryBad.foldl (fun (e : Dev) b => e.setBlk (b / 8192) (b % 8192) { e.blk (b / 8192) (b % 8192) with state := .bad }) d
    let d2 := { d1 with md := { d1.md with media := AMap.set 0 72 d1.flash.factoryBad.length d1.md.media } }
    d2.groups.foldl (fun (e : Dev) g => { e with md := { e.md with base := AMap.put g (e.good g) e.md.base } }) d2

/-- The members that are lost: known ones keep their mark, new ones become missing members and their groups are queued for
rebuild (R171, R175). -/
def Dev.bootMembers (d : Dev) : Dev :=
  let slots := d.groups.flatMap (fun g => (d.members g).map (fun j => g * 32 + j))
  let d1 := slots.foldl (fun (e : Dev) x =>
    if e.dieLost (e.f (F.STRP_GMEM_DIE x)) then e else e.setF (F.STRP_GMEM_FAILED x) 0) d
  let lost := ((slots.filter (fun x => !d1.flag (F.STRP_GMEM_FAILED x))).map (fun x => d1.f (F.STRP_GMEM_DIE x))).filter d1.dieLost
  let d2 := if lost.isEmpty then d1 else d1.loseMembers lost
  ((d2.groups.foldl (fun (e : Dev) g => e.groupShow g) d2).rebuildShow).jshow

/-- The conditions that device metadata carries over a reset: read-only, degraded (R33). -/
def Dev.bootConds (d : Dev) : Dev :=
  let degr := d.nv.retiredQ != 0 || !d.strp.rebuilds.isEmpty
  let d1 := d.setF F.TOP_MODE_CRO (Bool.nat d.nv.roCond)
  if degr then d1.setF F.TOP_MODE_CDEGR 1 else d1

/-- The map region fits the DRAM in service (R27). -/
def Dev.mapFits (d : Dev) : Bool := decide (d.mapUsed ≤ d.mapRegion * 2 ^ 30)

/-- Count how the last run stopped; the boot of a new part, and the one after a life-cycle change, follow no stop. -/
def Dev.countStop (d : Dev) : Dev :=
  if d.nv.bootCount = 0 then d
  else match d.nv.stop with
    | .clean => { d with nv := { d.nv with cleanStops := satAdd 32 d.nv.cleanStops 1 } }
    | .unclean => ({ d with nv := { d.nv with uncleanStops := satAdd 32 d.nv.uncleanStops 1 } }).ewOccur 12

/-- What follows the stream (R383 steps 7 and 8): SAFE where metadata cannot be read or the map does not fit, SANITIZE for a
wipe that waits, RECOVER after an unclean stop; after a clean one the map load goes on. -/
def Dev.afterStream (d : Dev) : Dev :=
  if ¬d.nv.readable then d.bootSafe 6
  else if ¬d.mapFits then d.bootSafe 2
  else if d.f F.TOP_MODE_MODE = 4 ∧ (d.nv.lcPending ∨ d.nv.sanitize.isSome) then d.sanitizeWipe
  else
    let run_ := d.boot.fwRunning
    let d1 := d.setDirectory (fun g => { g with fwActive := run_, fwNext := 0 })
    if d1.f F.TOP_MODE_MODE = 4 ∧ d1.nv.stop = .unclean then ((d1.countStop).setF F.MAPW_STAT_RECOVERING 1).setMode 5 else d1

/-- STREAM_VERIFY (R383): the stream of STRACTIVE, else of the other slot, takes effect; with both refused the part enters SAFE
and runs the recovery program. -/
def streamVerify (d : Dev) : Dev :=
  if ¬d.booting ∨ d.boot.fwRunning = 0 ∨ d.boot.stream.isSome then d
  else
    let a := min 1 d.directory.strActive
    let b := 1 - a
    let take (e : Dev) (s : Nat) : Dev :=
      match e.streamIn s with
      | none => e
      | some x =>
        let e1 := ((e.setF F.HALW_BOOT_STRSLOT s).setF F.HALW_BOOT_STRFALLBACK (Bool.nat (s != a))).applyStream x
        let e2 := (((e1.firstBoot).bootMembers).bootConds).spareCheck
        ((((e2.slmCut true).mapShow).wcShow).journalShow).afterStream
    match d.slotFail a with
    | none => take d a
    | some f =>
      let d1 := d.noteSlot a f
      match d1.slotFail b with
      | none => take (d1.raise 0x029 noPlot []) b
      | some f2 =>
        let d2 := (d1.noteSlot b f2).raise 0x028 noPlot [f2.code]
        let d3 := { d2 with boot := { d2.boot with firmware := none, fwRunning := 0 } }
        (d3.setF F.HALW_BOOT_FWSLOT 0).bootSafe 4

def execStreamVerify := run streamVerify

/-! ### The map (R149) -/

/-- The map entries of a segment's copy in flash. -/
def segMap (seg : Nat) (c : SegCopy) : List (Nat × Nat) := c.entries.map (fun e => (iuKey (seg / 2 ^ 40) e.1, e.2))

/-- Put entries into the map; they are as on flash. -/
def Dev.loadEntries (d : Dev) (es : List (Nat × Nat)) : Dev :=
  { d with ftl := { d.ftl with map := es.foldl (fun m e => AMap.set 0 e.1 e.2 m) d.ftl.map } }

/-- The blocks that waited for Compost are drained again: the Compost queue lives in DRAM (R148). -/
def Dev.requeueDoomed (d : Dev) : Dev :=
  (d.md.blocks.filter (fun b => (b.2.queued != 0 || b.2.doom != 0) && b.2.state == .closed)).foldl (fun (e : Dev) b =>
    e.queueCompost (b.1 / 8192) (b.1 % 8192) (if b.2.queued = 0 then 2 else b.2.queued)) d

/-- MAP_LOAD_DONE (R149): after a clean stop every segment is loaded from its directory copy. -/
def mapLoadDone (d : Dev) : Dev :=
  if d.booting ∧ d.boot.stream.isSome ∧ d.nv.stop = .clean ∧ ¬d.mode.mapLoaded then
    let d1 := (d.md.dir.filter (fun s => s.1 / 2 ^ 40 != 0)).foldl (fun (e : Dev) s => e.loadEntries (segMap s.1 s.2)) d
    let d2 : Dev := { (d1.countStop).requeueDoomed with mode := { d1.mode with mapLoaded := true } }
    if d2.f F.TOP_MODE_MODE = 4 then (d2.enterOperating).powerCombine
    else { d2 with nv := { d2.nv with stop := .unclean } }
  else d

def execMapLoadDone := run mapLoadDone

/-! ### Recovery (R149, R150) -/

/-- Records and batches that MRAM no longer holds whole count as not written: a batch with every later one (R142, R371); the
slots of a record that is gone are freed (R148). -/
def Dev.dropTorn (d : Dev) : Dev :=
  let bad (c : Commit) : Bool := d.mram.badCommits.contains c.wseq
  let per (c : Commit) : Nat := ((d.ns? c.nsid).map Ns.iuSlots).getD 1
  let gone := (d.mram.commits.filter (fun c => bad c && (c.kind == 1 || c.kind == 6))).flatMap (fun c =>
    (List.range (c.count * per c)).map (fun i => c.firstSlot + i))
  let good := d.mram.batches.takeWhile (fun b => !d.mram.badBatches.contains b.bseq)
  { d with mram := { d.mram with
      commits := (d.mram.commits.filter (fun c => !bad c)).map (fun c => { c with sent := [], staged := [], moved := [] })
      jhead := ((good.map (fun b => b.bseq)).max?).getD d.mram.jtail
      slots := d.mram.slots.filter (fun s => !gone.contains s.1)
      batches := good, badCommits := [], badBatches := [] } }

/-- Blocks left open, or with ERASE_START and no ERASE_DONE. -/
def Dev.openBlocks (d : Dev) : List Nat := (d.md.blocks.filter (fun b => b.2.state == .open || b.2.state == .erasing)).map Prod.fst

/-- The tag scan: the IUs with a whole copy in one of these blocks, as (IU key, location). -/
def Dev.tagScan (d : Dev) : List (Nat × Nat) :=
  let bs := d.openBlocks
  (d.flash.cws.filter (fun x => x.2.cwidx == 0 && decide (x.2.kind ≤ 1) && (d.ns? x.2.nsid).isSome &&
    bs.contains (8192 * locDie x.1 + locBlock x.1) && (d.copyIn (locDie x.1) (locBlock x.1) x.2).isSome)).map
      (fun x => (iuKey x.2.nsid x.2.iu, x.1))

def keySeg (k : Nat) : Nat := segKey (k / 2 ^ 40) (k % 2 ^ 40)

/-- The segment of a MAP record. -/
def MapRec.seg? : MapRec → Option Nat
  | .mapTo n u _ _ => some (segKey n u)
  | _ => none

/-- The segments to recover: those with a copy, a journal record, a live cache record or a candidate. -/
def Dev.recoverSegs (d : Dev) (cands : List (Nat × Nat)) : List Nat :=
  let j := d.mram.batches.flatMap (fun b => b.recs.filterMap MapRec.seg?)
  let c := (d.mram.commits.filter (fun c => c.kind != 5 && c.kind != 7)).flatMap (fun c => c.ius.map (fun u => segKey c.nsid u))
  let all := d.md.dir.map Prod.fst ++ j ++ c ++ cands.map (fun x => keySeg x.1)
  (all.foldl (fun l s => NSet.add s l) []).filter (fun s => (d.ns? (s / 2 ^ 40)).isSome)

/-- RECOVERY_TAG_SCAN_DONE (R150): the tag scan of the open blocks ends and commands are admitted. -/
def recoveryTagScanDone (d : Dev) : Dev :=
  if d.f F.TOP_MODE_MODE = 5 ∧ ¬d.flag F.MAPW_STAT_ADMIT then
    let d1 := d.dropTorn
    let cands := d1.tagScan
    let n := (d1.mram.batches.map (fun b => b.recs.length)).sum
    let d2 := { d1 with
      ftl := { d1.ftl with candidates := cands, recover := d1.recoverSegs cands }
      nv := { d1.nv with recRec := n, recBlk := d1.openBlocks.length, recPts := 0 } }
    ((d2.wcShow).journalShow).setF F.MAPW_STAT_ADMIT 1
  else d

def execRecoveryTagScanDone := run recoveryTagScanDone

/-- Apply the journal records of a segment that its copy does not include, in BSEQ order. -/
def Dev.applyJournal (d : Dev) (seg bseq : Nat) : Dev :=
  (d.mram.batches.filter (fun b => decide (bseq < b.bseq))).foldl (fun (e : Dev) b =>
    b.recs.foldl (fun (x : Dev) r => match r with
      | .mapTo n u en _ => if segKey n u = seg then x.mapSet n u en else x
      | _ => x) e) d

/-- Apply a candidate: the same write sequence and a higher relocation count than what the map points to wins, and the source's
block is queued for Compost again. -/
def Dev.applyCand (d : Dev) (k loc : Nat) : Dev :=
  let n := k / 2 ^ 40
  let u := k % 2 ^ 40
  let e := d.entry? n u
  match d.cw? loc, d.cw? (e % 2 ^ 38) with
  | some c, some old =>
    if entryType e = 1 ∧ old.wseq = c.wseq ∧ old.reloc < c.reloc then
      let d1 := (d.mapSet n u (flashEntry loc)).queueCompost (locDie (e % 2 ^ 38)) (locBlock (e % 2 ^ 38)) 2
      { d1 with nv := { d1.nv with recPts := d1.nv.recPts + 1 } }
    else d
  | _, _ => d

/-- What a live cache record makes of an IU's entry. -/
def Commit.entry (c : Commit) (per u : Nat) : Nat :=
  if c.kind = 1 ∨ c.kind = 6 then cacheEntry (c.firstSlot + (u - c.firstIu) * per)
  else if c.kind = 2 then 0 else if c.kind = 3 then zerosEntry else badEntry

/-- Point the IUs of the live cache records of a segment to the cache, in write-sequence order; a deallocation, zeros or marks
are applied and journalled again, so that their record can be freed (R140, R148). -/
def Dev.applyLive (d : Dev) (seg : Nat) : Dev :=
  (d.mram.commits.filter (fun c => c.kind != 5 && c.kind != 7)).foldl (fun (e : Dev) c =>
    let per := ((e.ns? c.nsid).map Ns.iuSlots).getD 1
    (c.ius.filter (fun u => segKey c.nsid u == seg && !c.dead.contains u)).foldl (fun (x : Dev) u =>
      let en := c.entry per u
      let y := x.mapSet c.nsid u en
      if entryType en = 2 then y else (y.stageAt c.wseq u en).jrec (.mapTo c.nsid u en c.wseq)) e) d

/-- SEGMENT_RECOVERED (R149): one segment is loaded, its journal records and candidates are applied, and its live cache records
are pointed to. -/
def segmentRecovered (seg : Nat) (d : Dev) : Dev :=
  if d.f F.TOP_MODE_MODE = 5 ∧ d.flag F.MAPW_STAT_ADMIT ∧ d.ftl.recover.contains seg then
    let c := AMap.get ⟨0, [], none⟩ seg d.md.dir
    let d1 := (d.loadEntries (segMap seg c)).applyJournal seg c.bseq
    let d2 := (d1.ftl.candidates.filter (fun x => keySeg x.1 == seg)).foldl (fun (e : Dev) x => e.applyCand x.1 x.2) d1
    let d3 := d2.applyLive seg
    { d3 with ftl := { d3.ftl with recover := d3.ftl.recover.filter (fun s => s != seg) } }
  else d

def execSegmentRecovered (seg : Nat) := run (segmentRecovered seg)

/-- RECOVER_DONE (R149): after the last segment the interrupted erases are repeated and, after `ms` milliseconds of recovery, the
part enters the operating mode; `readable` says that every segment copy could be read. -/
def recoverDone (ms : Nat) (readable : Bool) (d : Dev) : Dev :=
  if d.f F.TOP_MODE_MODE = 5 ∧ d.flag F.MAPW_STAT_ADMIT ∧ d.ftl.recover.isEmpty then
    let er := (d.md.blocks.filter (fun b => b.2.state == .erasing)).map Prod.fst
    let d1 := er.foldl (fun (e : Dev) b => e.blockErased (b / 8192) (b % 8192)) d
    if ¬readable then d1.enterSafe 5
    else
      let d2 := { d1 with nv := { d1.nv with recMs := ms }, mode := { d1.mode with mapLoaded := true } }
      let d3 := (((d2.requeueDoomed).setF F.MAPW_RECOV_MS ms).raise 0x011 noPlot [ms]).enterOperating
      (((d3.setF F.MAPW_STAT_RECOVERING 0).setF F.MAPW_STAT_ADMIT 0).ewSet 13 (decide (10000 < ms))).powerCombine
  else d

def execRecoverDone (ms : Nat) (readable : Bool) := run (recoverDone ms readable)

end Sys2Proof.Machine
end

