-- ==== Sys2Proof/Machine/Modes.lean ====
section
/-! DEFINITION. Power and temperature (chapters 2, 3 and 18): the power-failure stop (R47, R48), the thermal trip (R447), loss of
the supply (R148), the PCIe ports (R36, R57, R58), the power states (R49 to R51), the sensors and throttling (R445, R446). -/

namespace Sys2Proof.Machine

/-! ### Power failure (R47, R48, R434) -/

def isProgram (o : DieOp) : Bool := o.cls == .program

/-- A die finishes the program it has in progress, and one it has suspended (R47). -/
def Dev.finishDie (d : Dev) (die : Nat) : Dev :=
  let x := d.die die
  let ps := (x.ended.toList ++ x.busy.toList ++ x.suspended.toList).filter isProgram
  ps.foldl (fun (e : Dev) o => nandProgramDone die (e.setDie die { e.die die with ended := some o }))
    (d.setDie die { x with busy := none, suspended := none, ended := none })

/-- Commit the batches that are closed. -/
def Dev.commitBatches : Nat → Dev → Dev
  | 0, d => d
  | n + 1, d => Dev.commitBatches n (journalBatchCommit d)

/-- The stop of R47: programs in progress finish, the open batch is committed, the stop is recorded, the NAND interfaces are no
longer driven. A clean stop recorded earlier stands while the journal holds nothing (R145). -/
def Dev.stopNow (d : Dev) : Dev :=
  let d1 := (d.media.dies.map Prod.fst).foldl (fun (e : Dev) die => e.finishDie die) d
  let d2 := if d1.ftl.openRecs.isEmpty then d1 else d1.closeBatch
  let d3 := Dev.commitBatches d2.ftl.closed.length d2
  let kept : Bool := d3.nv.stop == .clean && d3.mram.batches.isEmpty
  { d3 with nv := { d3.nv with stop := if kept then .clean else .unclean }, media := { d3.media with driven := false } }

/-- PWRFAIL_FALL (R47, R434): PWRFAIL_N has been low for 1 us. Outside RESET the stop begins; in RESET the part waits, unless a
failure or a trip holds it. -/
def pwrfailFall (d : Dev) : Dev :=
  if ¬d.pins.supply ∨ ¬d.pins.pwrfailN then d
  else
    let d1 := { d with pins := { d.pins with pwrfailN := false } }
    if d1.f F.TOP_MODE_MODE ≠ 0 then
      if d1.mode.pfStop then d1 else ({ d1.raise 0x005 noPlot [] with mode := { d1.mode with pfStop := true } })
    else if d1.pins.resetN ∧ d1.mode.hold = .none then
      { d1 with mode := { d1.mode with hold := .pwrfailWait } }.setF F.HALW_SCRUB_DONE 0
    else d1

def execPwrfailFall := run pwrfailFall

/-- PWRFAIL_STOP_DONE (R47, R48): the stop has finished. Where PWRFAIL_N has risen since, a part reset follows. -/
def pwrfailStopDone (d : Dev) : Dev :=
  if ¬d.mode.pfStop ∨ d.mode.hold ≠ .none then d
  else
    let d1 := d.stopNow
    let d2 := { d1 with mode := { d1.mode with hold := .pwrfail } }
    if d2.mode.pfReturned then d2.partReset .pfret else d2

def execPwrfailStopDone := run pwrfailStopDone

/-- PWRFAIL_RISE (R48): PWRFAIL_N is high again: a part reset once the stop has finished. -/
def pwrfailRise (d : Dev) : Dev :=
  if ¬d.pins.supply ∨ d.pins.pwrfailN then d
  else
    let d1 := { d with pins := { d.pins with pwrfailN := true } }
    if d1.mode.hold = .pwrfail then d1.partReset .pfret
    else if d1.mode.pfStop then { d1 with mode := { d1.mode with pfReturned := true } }
    else d1

def execPwrfailRise := run pwrfailRise

/-- PWRFAIL_HIGH_WAIT_END (R434): PWRFAIL_N has been high for 1 ms: start-up goes on as from a rising edge of RESET_N. -/
def pwrfailHighWaitEnd (d : Dev) : Dev :=
  if d.mode.hold = .pwrfailWait ∧ d.pins.pwrfailN ∧ d.pins.resetN then
    { d.sampleStraps with mode := { d.mode with hold := .none, faultN := false } }
  else d

def execPwrfailHighWaitEnd := run pwrfailHighWaitEnd

/-- POWER_LOSS (R148): the supply is lost: a program that a die had finished is on flash, everything volatile is gone. -/
def powerLoss (d : Dev) : Dev :=
  if ¬d.pins.supply then d
  else
    let d1 := d.media.dies.foldl (fun (e : Dev) x =>
      match x.2.ended with
      | some o => if isProgram o then e.writePage o else e
      | none => e) d
    let d2 := d1.cold
    { d2 with pins := { d2.pins with supply := false, resetN := false, link0 := false, link1 := false } }

def execPowerLoss := runHard powerLoss

/-! ### The thermal trip (R447) -/

/-- The trip temperature in C. -/
def Dev.tripTemp (d : Dev) : Int := if d.fuses.tempE then 120 else 115

/-- The register fields of TOP and PWR, which a trip leaves as they are. -/
def tripKey (k : Nat) : Bool := decide (k < 0x10000 * 8 ∨ (0x20000 * 8 ≤ k ∧ k < 0x30000 * 8))

/-- Every block returns to its reset state but PWR, TOP and the TAP; the part is held in RESET with FAULT_N asserted. -/
def Dev.tripHold (d : Dev) : Dev :=
  let d1 := { d with nv := { d.nv with tripped := true } }
  let c := d1.cold
  let old := d.f F.TOP_MODE_MODE
  let d2 := { c with
    regs := (c.regs.filter (fun (x : Nat × Nat) => !tripKey x.1)).foldl (fun m (x : Nat × Nat) => AMap.put x.1 x.2 m) (d1.regs.filter (fun (x : Nat × Nat) => tripKey x.1))
    mode := { ModeSt.init with hold := .trip, faultN := true, ms := d1.mode.ms, hourly := d1.mode.hourly, hot := d1.mode.hot }
    test := d1.test }
  (((d2.setF F.TOP_MODE_PREV old).setF F.TOP_MODE_MODE 0).setF F.TOP_MODE_ATOMIC 0).setF F.PWR_THERM_TRIPPED 1

/-- THERMAL_TRIP (R447): a sensor reads the trip temperature or more: the stop runs, unless it has, and the part is held. -/
def thermalTrip (d : Dev) : Dev :=
  if ¬d.pins.supply ∨ ¬d.pins.resetN ∨ d.mode.hold = .trip ∨ d.anySensor d.tripTemp = false then d
  else if d.f F.TOP_MODE_MODE = 0 ∨ d.mode.hold = .pwrfail then d.tripHold
  else d.stopNow.tripHold

def execThermalTrip := runHard thermalTrip

/-! ### PCIe ports (R36, R56 to R58) -/

/-- The port that carries a plot (R59). -/
def Dev.portOf (d : Dev) (p : Nat) : Nat := if d.flag F.HIF_PORTCFG_DUAL ∧ 256 ≤ p then 1 else 0

/-- Does the part have this port? -/
def Dev.hasPort (d : Dev) (port : Nat) : Bool := port == 0 || (port == 1 && d.flag F.HIF_PORTCFG_DUAL)

def Dev.perst (d : Dev) (port : Nat) : Bool := if port = 0 then d.pins.perst0 else d.pins.perst1
def Dev.setPerst (d : Dev) (port : Nat) (v : Bool) : Dev :=
  { d with pins := if port = 0 then { d.pins with perst0 := v } else { d.pins with perst1 := v } }

def Dev.portUp (d : Dev) (port : Nat) : Bool := if port = 0 then d.pins.link0 else d.pins.link1
def Dev.setPort (d : Dev) (port : Nat) (v : Bool) : Dev :=
  { d with pins := if port = 0 then { d.pins with link0 := v } else { d.pins with link1 := v } }

/-- The link of a port goes down, and the controllers of its functions are reset as by a controller reset (R36, R58). -/
def Dev.portReset (d : Dev) (port : Nat) : Dev :=
  let was := d.portUp port
  let d1 := (((d.setPort port false).setF (F.HIF_PORTSTAT_RATE port) 0).setF (F.HIF_PORTSTAT_WIDTH port) 0).setF (F.HIF_PORTSTAT_FLIT port) 0
  let d2 := d1.setF (F.HIF_PORTSTAT_DEGR port) 0
  let d3 := if was then d2.raise (0x1E0 + port) noPlot [0] else d2
  let d4 := ((d3.host.ctrls.map Prod.fst).filter (fun p => d3.portOf p == port)).foldl (fun (e : Dev) p =>
    if (e.ctrl p).en then e.ctrlReset p else e.clearCtrl p) d3
  let d5 := d4.clearFns (fun p => d4.portOf p == port)
  if port = 0 then d5.dropSplits 0 else d5

/-- PERST_ASSERT (R36): PERST_N of a port is low. -/
def perstAssert (port : Nat) (d : Dev) : Dev :=
  if 2 ≤ port ∨ d.perst port then d
  else
    let d1 := d.setPerst port true
    if d1.hasPort port then d1.portReset port else d1

def execPerstAssert (port : Nat) := run (perstAssert port)

/-- PERST_DEASSERT (R440): PERST_N of a port rises; training starts. -/
def perstDeassert (port : Nat) (d : Dev) : Dev := if 2 ≤ port then d else d.setPerst port false

def execPerstDeassert (port : Nat) := run (perstDeassert port)

/-- PCIE_LINK_UP (R57): training of a port completes at a rate (code 4, 5 or 6) and width; `partner64` says that the partner
advertises 64 GT/s. -/
def pcieLinkUp (port rate width : Nat) (partner64 : Bool) (d : Dev) : Dev :=
  let full := if d.flag F.HIF_PORTCFG_DUAL then 8 else 16
  if ¬d.pins.supply ∨ ¬d.pins.resetN ∨ ¬d.hasPort port ∨ d.perst port ∨ d.portUp port ∨ rate < 4 ∨ 6 < rate ∨ full < width ∨
      ¬[1, 2, 4, 8, 16].contains width then d
  else
    let degr := decide (width < full) || (decide (rate < 6) && partner64)
    let d1 := (((d.setPort port true).setF (F.HIF_PORTSTAT_RATE port) rate).setF (F.HIF_PORTSTAT_WIDTH port) width).setF (F.HIF_PORTSTAT_FLIT port)
      (Bool.nat (rate == 6))
    let d2 := (d1.setF (F.HIF_PORTSTAT_DEGR port) (Bool.nat degr)).raise (0x1E0 + port) noPlot [1]
    if degr then d2.raise 0x1E2 noPlot [] else d2

def execPcieLinkUp (port rate width : Nat) (partner64 : Bool) := run (pcieLinkUp port rate width partner64)

/-- PCIE_LINK_DOWN (R58): as PERST_N for that port. -/
def pcieLinkDown (port : Nat) (d : Dev) : Dev := if d.hasPort port ∧ d.portUp port then d.portReset port else d

def execPcieLinkDown (port : Nat) := run (pcieLinkDown port)

/-- PMU source 0x048: a retraining of a port. With PFEN = 1 it counts for each plot that the port serves (R414). -/
def Dev.countRetrain (d : Dev) (port : Nat) : Dev :=
  (List.range 48).foldl (fun (e : Dev) i =>
    let p := e.ef (F.PMU_SEL_PLOT i)
    if e.pmuCounts i 0x48 0 (if e.portOf p = port then p else noPlot) then e.pmuBump i 1 else e) d

/-- PCIE_LINK_RECOVERY (R85): a link that is up retrains through the Recovery state. -/
def pcieLinkRecovery (port : Nat) (d : Dev) : Dev :=
  if d.hasPort port ∧ d.portUp port then
    (d.setF (F.HIF_PORTSTAT_RETRAIN port) (satAdd 16 (d.f (F.HIF_PORTSTAT_RETRAIN port)) 1)).stat (256 * port) 9 1 |>.countRetrain port
  else d

def execPcieLinkRecovery (port : Nat) := run (pcieLinkRecovery port)

/-! ### Power states (R49 to R51) -/

/-- Is nothing outstanding but Asynchronous Event Requests (R50)? -/
def Dev.quiet (d : Dev) : Bool := d.host.latches.all (fun l => (d.ctrl l.id.plot).aers.contains l.id)

/-- Has every NAND program, erase and Compost step in progress finished? -/
def Dev.mediaIdle (d : Dev) : Bool :=
  let writes (o : DieOp) : Bool := o.cls == .program || o.cls == .erase || o.cls == .internalRead
  d.media.dies.all (fun x => (x.2.busy.toList ++ x.2.suspended.toList ++ x.2.ended.toList).all (fun o => !writes o)) &&
  d.ftl.relocBuf.isEmpty && d.media.reading.isEmpty

/-- May PS3 and PS4 be entered: in an operating mode with no extended self-test running, or in TEST (R50)? That a self-test keeps the
part out of them also while MODE shows FENCED or READONLY is DEDUCED from R33, by which the part obeys every condition (assumption 152). -/
def Dev.psMode (d : Dev) : Bool := (d.isOperating && !d.flag F.TOP_MODE_CXST) || d.f F.TOP_MODE_MODE == 0xB

/-- DRAM of every quadrant in service in or out of self-refresh. -/
def Dev.selfRefresh (d : Dev) (v : Bool) : Dev := d.quads.foldl (fun (e : Dev) q => e.setF (F.MEMC_STAT_SREF q) (Bool.nat v)) d

/-- POWER_STATE_ENTRY_DONE (R50): the wait and the entry latency end; PS4 is DOZE. -/
def powerStateEntryDone (d : Dev) : Dev :=
  let w := d.psWant
  if d.flag F.PWR_PSTATE_ENTERING ∧ 3 ≤ w ∧ d.psMode ∧ d.quiet ∧ d.mediaIdle ∧ ¬d.mode.pfStop ∧ d.mode.qtest.isNone then
    let d1 := (d.setF F.PWR_PSTATE_ENTERING 0).setPs w
    let d2 : Dev := { d1 with mode := { d1.mode with wakePending := false } }
    if w = 4 then
      let d3 : Dev := { d2 with mode := { d2.mode with dozeFrom := d2.f F.TOP_MODE_MODE } }
      (d3.selfRefresh true).setMode 0xA
    else d2
  else d

def execPowerStateEntryDone := run powerStateEntryDone

/-- POWER_STATE_WAKE_DONE (R50): the exit latency ends: the operational state it left, or the one now asked for; DOZE ends. -/
def powerStateWakeDone (d : Dev) : Dev :=
  if d.mode.wakePending ∧ 3 ≤ d.f F.PWR_PSTATE_PS then
    let d1 : Dev := { d with mode := { d.mode with wakePending := false, wakeAt := d.now } }
    let doze := d1.f F.TOP_MODE_MODE = 0xA
    let d2 := if doze then d1.selfRefresh false else d1
    let d3 := if doze then (if d2.mode.dozeFrom = 0xB then d2.setMode 0xB else d2.setMode d2.operating) else d2
    d3.setPs (if d3.psWant < 3 then d3.psWant else d3.f F.PWR_PSTATE_LASTOP)
  else d

def execPowerStateWakeDone := run powerStateWakeDone

/-- AUTONOMOUS_PS_IDLE (R50): every command has completed and for 1 ms no doorbell write or admin command has come: the combined
state is entered again. -/
def autonomousPsIdle (d : Dev) : Dev :=
  if 3 ≤ d.psWant ∧ d.f F.PWR_PSTATE_PS < 3 ∧ d.quiet ∧ d.mode.wakeAt + 1 ≤ d.now ∧ d.psMode then d.setF F.PWR_PSTATE_ENTERING 1 else d

def execAutonomousPsIdle := run autonomousPsIdle

/-! ### Sensors, throttling, core voltage (R445, R446, R431) -/

/-- The temperature crossings of one threshold of a controller (R446): `which` 0 over, 1 under, 2 TMT1, 3 TMT2. -/
def Dev.crossing (d : Dev) (p which t : Nat) (old new : Int) : Dev :=
  let th : Int := t
  if t = 0 then d
  else if old < th ∧ th ≤ new then d.raise 0x032 p [which, 1, new.toNat]
  else if th ≤ old ∧ new < th then d.raise 0x032 p [which, 0, new.toNat]
  else d

/-- Every threshold of every enabled controller. -/
def Dev.crossings (d : Dev) (old new : Int) : Dev :=
  (d.host.ctrls.filter (fun c => c.2.en)).foldl (fun (e : Dev) c =>
    let f := c.2.feat
    (((e.crossing c.1 0 f.tempOver old new).crossing c.1 1 f.tempUnder old new).crossing c.1 2 f.tmt1 old new).crossing c.1 3 f.tmt2 old new) d

/-- Count what the host thresholds of feature 10h have done (SMART log): entries and milliseconds of each level held by them. -/
def Dev.tmtNote (d : Dev) (oldLevel oldHost : Nat) : Dev :=
  let n := d.f F.PWR_THERM_LEVEL
  let by_ := d.flag F.PWR_THERM_HOSTCAUSE
  let fresh := n != oldLevel || oldHost == 0
  let one (k : Nat) (v : Nat) (go : Bool) : Nat := if by_ && n == k && go then v + 1 else v
  { d with nv := { d.nv with
      tmtCount := (one 1 d.nv.tmtCount.1 fresh, one 2 d.nv.tmtCount.2 fresh)
      tmtMs := (one 1 d.nv.tmtMs.1 true, one 2 d.nv.tmtMs.2 true) } }

/-- Is the unit of sensor `i` there: a quadrant that is not fused, or the device's own two? -/
def Dev.sensed (d : Dev) (i : Nat) : Bool := decide (4 ≤ i) || !bit (d.f F.TOP_UNITS_QFUSED) i

/-- The reading of sensor `i`, in the range of its register. -/
def sensorTemp (temps : List Int) (i : Nat) : Int := max (-128) (min 127 (temps.getD i 0))

/-- The readings are shown, with the hottest of the sensors that are there, and enter the highest and lowest temperature of the log. -/
def Dev.takeTemps (d : Dev) (temps : List Int) : Dev :=
  let d1 := (List.range 6).foldl (fun (e : Dev) i =>
    (e.setF (F.PWR_TEMP_TEMP i) (if d.sensed i then (sensorTemp temps i % 256).toNat else 0)).setF (F.PWR_TEMP_VALID i) (Bool.nat (d.sensed i))) d
  let on := (List.range 6).filter d.sensed
  let hot := on.foldl (fun (m : Int) i => max m (sensorTemp temps i)) (-128)
  let low := on.foldl (fun (m : Int) i => min m (sensorTemp temps i)) 127
  let sens := (on.find? (fun i => decide (sensorTemp temps i = hot))).getD 0
  let d2 := (d1.setF F.PWR_THERM_HOTSENS sens).setF F.PWR_THERM_HOTTEMP (hot % 256).toNat
  { d2 with nv := { d2.nv with tmax := max d2.nv.tmax hot, tmin := min d2.nv.tmin low } }

/-- SENSOR_READ (R445, R446): the six junction sensors read these temperatures in C. A fused quadrant's sensor reads 0 and does
not count. -/
def sensorRead (temps : List Int) (d : Dev) : Dev :=
  if ¬d.pins.supply ∨ temps.length ≠ 6 then d
  else
    let known := (List.range 6).any (fun i => d.flag (F.PWR_TEMP_VALID i))
    let old := d.kelvin
    let d3 := d.takeTemps temps
    if d3.f F.TOP_MODE_MODE = 0 then d3
    else
      let d4 := if known then d3.crossings old d3.kelvin else d3
      let l := d4.f F.PWR_THERM_LEVEL
      let h := d4.f F.PWR_THERM_HOSTCAUSE
      ((d4.throttle).tmtNote l h).refreshWarn

def execSensorRead (temps : List Int) := run (sensorRead temps)

/-- THROTTLE_EXIT (R446): every entry condition of the level has stayed 5 C below its threshold for 1 s; the level is left, for
level 1 while its own conditions still hold it. -/
def throttleExit (d : Dev) : Dev :=
  let n := d.f F.PWR_THERM_LEVEL
  if n = 0 ∨ ¬d.levelOver n then d
  else
    let new := if n = 2 ∧ ¬d.levelOver 1 then 1 else 0
    let d1 := (d.setF F.PWR_THERM_LEVEL new).setF F.PWR_THERM_HOSTCAUSE (Bool.nat (new == 1 && d.levelByHost 1 && !d.levelSensor 1))
    (if new = 0 then d1.raise 0x031 noPlot [] else d1).retune

def execThrottleExit := run throttleExit

/-- CORE_VSEL_STEP (R431): the voltage code moves one step, within 0x00 to 0x10. -/
def coreVselStep (up : Bool) (d : Dev) : Dev :=
  let c := d.f F.PWR_VCORE_CODE
  if ¬d.pins.supply ∨ ¬d.pins.resetN then d
  else if up then (if c < 16 then d.setF F.PWR_VCORE_CODE (c + 1) else d)
  else (if 0 < c then d.setF F.PWR_VCORE_CODE (c - 1) else d)

def execCoreVselStep (up : Bool) := run (coreVselStep up)

end Sys2Proof.Machine
end

