-- ==== Sys2Proof/Machine/Halward.lean ====
section
/-! DEFINITION. Halward's messages over Security Send (chapter 16, R392 to R398), life-cycle changes, debug authorisation, and
the NVMe-MI responder (R86). -/

namespace Sys2Proof.Machine

/-! ### Messages (R397) -/

/-- The Config bytes of an opaque value, cut to 8 bits. -/
def freeBytes (n : Nat) (f : Nat → Nat) : List Nat := (List.range n).map (fun i => f i % 256)

/-- A controller's request is replaced by this response, which is ready once Halward has served it. -/
def Dev.answer (d : Dev) (p code reqId status : Nat) (payload : List Nat) : Dev :=
  let m : HalwMsg := { plot := p, code := code, reqId := reqId, ready := false, status := status, payload := payload }
  { d with boot := { d.boot with msgs := d.boot.msgs.filter (fun x => x.plot != p) ++ [m] } }

/-- Halward serves one request at a time, in the order they came: the oldest becomes ready. -/
def Dev.halwServe (d : Dev) : Dev :=
  match d.boot.msgs.find? (fun m => !m.ready) with
  | none => d
  | some m =>
    { d with boot := { d.boot with msgs := d.boot.msgs.map (fun x => if x.plot = m.plot then { x with ready := true } else x) } }

/-- May a message be answered in the life-cycle state (R394)? BLANK 1, PROVISIONED 2, FIELD 3, RMA 4, SCRAPPED 7. -/
def stateAnswers (st code : Nat) : Bool :=
  if st = 1 then [0x0001, 0x0010, 0x0011].contains code
  else if st = 7 then [0x0001, 0x0002].contains code
  else if st = 2 then true
  else !(([0x0013, 0x0014] : List Nat).contains code)

/-- A Security Send of a message (R65, R397), a 16-byte header and `len` bytes of payload: `wellFormed` says that its length and its
reserved bytes are as they must be; the plot and the state are checked; `go` gives the status, the response payload and what the message
does. The Security Send itself completes. -/
def Dev.message (d : Dev) (c : NCmd) (code reqId len : Nat) (wellFormed mgr : Bool) (go : Dev → Nat × List Nat × Dev) : Dev :=
  d.adminUp c false true false (fun e0 => e0.withPrp c (16 + len) false (fun e =>
    let p := c.id.plot
    let st := e.fuses.state
    let r : Nat × List Nat × Dev :=
      if ¬wellFormed then (2, [], e)
      else if mgr ∧ p ≠ 0 ∨ stateAnswers st code = false ∧ ¬(code = 3 ∧ st = 7) then (3, [], e)
      else go e
    (r.2.2.answer p code reqId r.1 r.2.1).done c.id .success))

/-- GET_VERSION (R397). -/
def getVersion (c : NCmd) (reqId len : Nat) (zeros : Bool) (d : Dev) : Dev :=
  d.message c 0x0001 reqId len (decide (len = 0) && zeros) false (fun e => (0, [1, 0, e.fuses.state, e.fuses.lcrec.length], e))

def execGetVersion (c : NCmd) (reqId len : Nat) (zeros : Bool) := run (getVersion c reqId len zeros)

/-- GET_IDENTITY (R397): DIEID, the identity public key, the certificate area. -/
def getIdentity (c : NCmd) (reqId len : Nat) (zeros : Bool) (d : Dev) : Dev :=
  d.message c 0x0002 reqId len (decide (len = 0) && zeros) false (fun e =>
    (0, numBytes 8 e.fuses.dieId ++ freeBytes 97 Config.identityKey ++ e.bootFlash.cert, e))

def execGetIdentity (c : NCmd) (reqId len : Nat) (zeros : Bool) := run (getIdentity c reqId len zeros)

/-- A measurement record (R398): its index, value bytes 2 to 15 and digest. -/
def measRecord (i : Nat) (value : List Nat) (digest : List Nat) : List Nat :=
  [i, 0] ++ (value ++ List.replicate 14 0).take 14 ++ (digest ++ List.replicate 48 0).take 48

/-- The measurement of the requesting plot's programs (R398 index 9): in ascending index, the index and the hash of each active
image. -/
def Dev.programDigest (d : Dev) (p : Nat) : List Nat :=
  let item (i : Nat) : List Byte :=
    match d.core.progs.find? (fun x => x.plot == p && x.index == i && x.active),
          d.trel.images.find? (fun x => x.plot == p && x.index == i && x.active) with
    | some x, _ => leBytes 2 i ++ Sha.digest Sha.sha384 x.image
    | none, some m => leBytes 2 i ++ Sha.digest Sha.sha384 m.image
    | none, none => []
  (Sha.digest Sha.sha384 ((List.range 256).flatMap item)).map BitVec.toNat

/-- The body of a TRELLIS section (R456). -/
def Segment.body (s : Segment) : List Byte :=
  leBytes 2 s.segver ++ leBytes 1 s.templates.length ++ leBytes 13 0 ++ s.edges.flatMap (leBytes 2) ++
    s.templates.flatMap (fun t => t.words.flatMap (leBytes 4))

/-- One record of an attestation report; a segment's digest is over the body of its section (DEDUCED, assumption 94). -/
def Dev.measure (d : Dev) (p i : Nat) : List Nat :=
  let segver (q : Nat) : Nat := ((d.seg? q).map Segment.segver).getD 0
  if i = 0 then measRecord 0 [] (numBytes 48 Config.romDigest)
  else if i = 1 then
    measRecord 1 [svnOfFw d.boot.firmware, d.boot.fwRunning] (numBytes 48 ((d.boot.firmware.map (fun x => x.hdr.digest)).getD 0))
  else if i = 2 then
    measRecord 2 ([svnOfStream d.boot.stream] ++ numBytes 8 (d.f F.BRZ_STREAMID_ID)) (numBytes 48 ((d.boot.stream.map (fun x => x.hdr.digest)).getD 0))
  else if i ≤ 6 then measRecord i (numBytes 2 (segver (i - 3)))
      (((d.seg? (i - 3)).map (fun s => (Sha.digest Sha.sha384 s.body).map BitVec.toNat)).getD [])
  else if i = 7 then
    measRecord 7 [d.fuses.state, d.fuses.lcrec.length, d.fuses.qfused, d.fuses.svnFw, d.fuses.svnStream] []
  else if i = 8 then measRecord 8 [d.f F.HALW_DEBUG_RIGHTS, d.f F.TOP_MODE_MODE] []
  else measRecord 9 (numBytes 4 (AMap.get 0 p d.eras) ++ [d.plotGen p]) (d.programDigest p)

/-- The report of R398; its signature is a free value. -/
def Dev.report (d : Dev) (p challenge mask : Nat) : List Nat × Dev :=
  let ix := (List.range 10).filter (bit mask)
  let r := d.draw
  let head := [0x4B, 0x5A, 0x41, 0x52, 1, 0] ++ numBytes 2 p ++ numBytes 2 mask ++ [ix.length] ++ List.replicate 21 0 ++ numBytes 32 challenge
  (head ++ ix.flatMap (d.measure p) ++ freeBytes 96 (Config.signature r.1), r.2)

/-- ATTEST (R397, R398): a 32-byte challenge and a measurement mask. -/
def attest (c : NCmd) (reqId len challenge mask : Nat) (zeros : Bool) (d : Dev) : Dev :=
  d.message c 0x0003 reqId len (decide (len = 34 ∧ mask < 1024) && zeros) false (fun e =>
    let m := e.f F.TOP_MODE_MODE
    if m = 1 ∨ m = 0xB ∨ e.fuses.state = 7 then (5, [], e)
    else
      let r := e.report c.id.plot challenge mask
      (0, r.1, r.2))

def execAttest (c : NCmd) (reqId len challenge mask : Nat) (zeros : Bool) := run (attest c reqId len challenge mask zeros)

/-- GET_NONCE (R395, R397). -/
def getNonce (c : NCmd) (reqId len : Nat) (zeros : Bool) (d : Dev) : Dev :=
  d.message c 0x0010 reqId len (decide (len = 0) && zeros) true (fun e => (0, numBytes 8 (Config.nonce e.boot.nonce), e))

def execGetNonce (c : NCmd) (reqId len : Nat) (zeros : Bool) := run (getNonce c reqId len zeros)

/-! ### Tokens (R392 to R396) -/

/-- Is the token of this type good (R395)? -/
def Dev.tokenOk (d : Dev) (t : Token) (ty : Nat) : Bool :=
  t.type == ty && t.zeros && t.dieId == d.fuses.dieId && t.nonce == Config.nonce d.boot.nonce % 2 ^ 64 &&
  d.fuses.authKey == some t.authHash && t.sigOk

/-- A new nonce after a token, accepted or refused. -/
def Dev.renonce (d : Dev) : Dev :=
  let r := d.draw
  { r.2 with boot := { r.2.boot with nonce := r.1 } }

/-- May the part go from one life-cycle state to another (R392)? -/
def Dev.lcAllowed (d : Dev) (tgt : Nat) : Bool :=
  let from_ := d.fuses.state
  (if d.fuses.lcrec.length < 15 then
    (from_ == 1 && tgt == 2) || (from_ == 2 && tgt == 3 && !d.bootFlash.cert.isEmpty) || (from_ == 3 && tgt == 4) || (from_ == 4 && tgt == 3)
   else false) || (from_ != 7 && tgt == 7 && decide (d.fuses.lcrec.length < 16))

/-- LCS_CHANGE (R393): a TYPE 1 token asks for a transition. Accepted, it waits for the clean stop and the burn. -/
def lcsChange (c : NCmd) (reqId len : Nat) (zeros : Bool) (t : Token) (d : Dev) : Dev :=
  d.message c 0x0011 reqId len (decide (len = 320) && zeros) true (fun e =>
    if e.tokenOk t 1 ∧ e.lcAllowed t.arg ∧ t.rights < 16 then
      let e1 := (e.renonce).raise 0x02E noPlot [e.fuses.state, t.arg]
      (0, [], { e1 with boot := { e1.boot with lcChange := some (t.arg, t.rights) } })
    else (4, [], e.renonce))

def execLcsChange (c : NCmd) (reqId len : Nat) (zeros : Bool) (t : Token) := run (lcsChange c reqId len zeros t)

/-- In an operating mode a clean stop comes first (R145, R393); in DOZE the part has to wake for it. -/
def Dev.cleanBefore (d : Dev) : Dev := if d.isOperating then d.stopStep else d
def Dev.stopped (d : Dev) : Bool := d.nv.stop == .clean || !(d.isOperating || d.f F.TOP_MODE_MODE == 0xA)

/-- LIFE_CYCLE_BURN (R393): after the clean stop Halward burns the transition and the revocations, and resets the part. The wipe is
pending from now on. While the stop is not complete this brings it forward. -/
def lifeCycleBurn (d : Dev) : Dev :=
  match d.boot.lcChange with
  | none => d
  | some t =>
    let d1 := d.cleanBefore
    if ¬d1.stopped then d1
    else
      let f := d1.fuses
      let d2 := { d1 with
        fuses := { f with lcrec := f.lcrec ++ [t.1], revoked := f.revoked ||| t.2, dus := f.dus || f.state == 1 }
        nv := { d1.nv with lcPending := true } }
      d2.partReset .lcs

def execLifeCycleBurn := run lifeCycleBurn

/-- Does the state honour every right the token names (R396)? Right 2 in TEST and in RMA. -/
def Dev.rightsOk (d : Dev) (r : Nat) : Bool :=
  let st := d.fuses.state
  decide (r < 16) && (!bit r 0 || decide (2 ≤ st ∧ st ≤ 4)) && (!bit r 1 || st == 3 || st == 4) &&
  (!bit r 2 || st == 4 || d.flag F.HALW_LCS_TEST) && (!bit r 3 || decide (2 ≤ st ∧ st ≤ 4))

/-- Can the write cache be emptied: does it hold nothing that no die group can take (R55, R172)? -/
def Dev.cacheTakes (d : Dev) : Bool := d.mram.commits.isEmpty || d.groups.any d.canTake

/-- May TEST be entered from this mode: an operating one, or with the last stop clean and the write cache empty (R55)? -/
def Dev.testReach (d : Dev) : Bool := if d.isOperating then d.cacheTakes else d.nv.stop == .clean && d.mram.commits.isEmpty

/-- DEBUG_AUTH (R396): a TYPE 2 token grants debug rights. With bit 0 the part stops cleanly and then resets into TEST. -/
def debugAuth (c : NCmd) (reqId len : Nat) (zeros : Bool) (t : Token) (d : Dev) : Dev :=
  d.message c 0x0012 reqId len (decide (len = 320) && zeros) true (fun e =>
    if e.tokenOk t 2 ∧ t.arg = 0 ∧ e.rightsOk t.rights then
      if bit t.rights 0 ∧ e.testReach = false then (5, [], e.renonce)
      else
        let e1 := (e.renonce).setF F.HALW_DEBUG_RIGHTS (e.f F.HALW_DEBUG_RIGHTS ||| t.rights)
        let e2 := e1.raise 0x02F noPlot [t.rights]
        (0, [], { e2 with boot := { e2.boot with testEntry := e2.boot.testEntry || bit t.rights 0 } })
    else (4, [], e.renonce))

def execDebugAuth (c : NCmd) (reqId len : Nat) (zeros : Bool) (t : Token) := run (debugAuth c reqId len zeros t)

/-- The entry to TEST that waits: the clean stop goes on, and once the write cache is empty Halward resets the part (R55). -/
def Dev.testSteps (d : Dev) : Dev :=
  if ¬d.boot.testEntry then d
  else
    let d1 := d.cleanBefore
    if d1.nv.stop = .clean ∧ d1.mram.commits.isEmpty then d1.partReset .testin else d1

/-! ### Installing certificates and keys (R397) -/

/-- INSTALL_CERT: the identity certificate chain; `leafOk` says that the leaf's subject public key is the identity key. -/
def installCert (c : NCmd) (reqId : Nat) (zeros : Bool) (chain : List Nat) (leafOk : Bool) (d : Dev) : Dev :=
  d.message c 0x0013 reqId chain.length (decide (chain.length ≤ 61440 ∧ chain ≠ []) && zeros) true (fun e =>
    if leafOk then (0, [], { e with bootFlash := { e.bootFlash with cert := chain.map (fun b => b % 256) } }) else (2, [], e))

def execInstallCert (c : NCmd) (reqId : Nat) (zeros : Bool) (chain : List Nat) (leafOk : Bool) :=
  run (installCert c reqId zeros chain leafOk)

/-- INSTALL_STREAMKEY: burns a blank stream key slot with the SHA-384 of the public key, an uncompressed point (R381, R390). -/
def installStreamkey (c : NCmd) (reqId : Nat) (zeros : Bool) (slot : Nat) (key : List Byte) (d : Dev) : Dev :=
  d.message c 0x0014 reqId (1 + key.length) (decide ((slot = 2 ∨ slot = 3) ∧ key.length = 97 ∧ key.head? = some 4#8) && zeros) true (fun e =>
    if bit e.fuses.burned slot then (3, [], e)
    else
      let b := setBit e.fuses.burned slot true
      let e1 := { e with fuses := { e.fuses with burned := b, imgKeys := AMap.put slot (leNat (Sha.digest Sha.sha384 key)) e.fuses.imgKeys } }
      (0, [], e1.setF F.HALW_KEYS_BURNED b))

def execInstallStreamkey (c : NCmd) (reqId : Nat) (zeros : Bool) (slot : Nat) (key : List Byte) :=
  run (installStreamkey c reqId zeros slot key)

/-! ### NVMe-MI over SMBus (R86, R437) -/

/-- The PEC of a block read from address 0x6A: over the address for writing, the command code, the address for reading and the
data. -/
def pec (code : Nat) (data : List Nat) : Nat :=
  crc8 ([0xD4, code, 0xD5] ++ data)

/-- The responder answers from 2 ms after RESET_N rises (R86). -/
def Dev.miUp (d : Dev) : Bool := d.pins.supply && d.pins.resetN && decide (2 ≤ d.pins.upMs)

/-- A block read of `data`, or with a bus error or a PEC failure SMBUS_ERROR. -/
def Dev.miAnswer (d : Dev) (code : Nat) (busOk : Bool) (data : List Nat) : Dev :=
  if ¬busOk then ({ d with host := { d.host with smbusReply := [] } }).raise 0x1EB noPlot []
  else if d.miUp then { d with host := { d.host with smbusReply := data ++ [pec code data] } }
  else { d with host := { d.host with smbusReply := [] } }

/-- Is any sensor read yet? -/
def Dev.hotKnown (d : Dev) : Bool := (List.range 6).any (fun i => d.flag (F.PWR_TEMP_VALID i))

/-- MI_STATUS (R86): command code 0: length, status flags, inverted SMART warnings, composite temperature, life used, two reserved
bytes (the layout of NVMe-MI). -/
def miStatus (busOk : Bool) (d : Dev) : Dev :=
  let ready := d.serving
  let flags := 3 + 4 * Bool.nat d.pins.link1 + 8 * Bool.nat d.pins.link0 + 16 + 32 * Bool.nat (!d.mode.faultN) + 64 * Bool.nat (!ready) + 128
  let temp := if d.hotKnown then d.f F.PWR_THERM_HOTTEMP else 0xFF
  let warn := if ready then 255 - d.critNow 0 else 0xFF
  let used := if d.boot.stream.isSome then d.percentUsed else 0xFF
  d.miAnswer 0 busOk [6, flags, warn, temp, used, Config.miByte 5 % 256, Config.miByte 6 % 256]

def execMiStatus (busOk : Bool) := run (miStatus busOk)

/-- MI_VENDOR_ID_SERIAL (R86): command code 8: length, vendor ID, serial number. -/
def miVendorIdSerial (busOk : Bool) (d : Dev) : Dev :=
  let sn := if d.boot.stream.isSome then d.serial else List.replicate 20 0xFF
  d.miAnswer 8 busOk ([22, 0x1E, 0xA7] ++ sn)

def execMiVendorIdSerial (busOk : Bool) := run (miVendorIdSerial busOk)

/-- MI_ELOASKO_BLOCK (R86): command code 90. -/
def miEloaskoBlock (busOk : Bool) (d : Dev) : Dev :=
  let lcs := d.f F.HALW_LCS_STATE + 16 * d.f F.HALW_LCS_LCCOUNT % 256
  let spare := if d.boot.stream.isSome then d.availSpare else 0xFF
  let quads := (List.range 4).foldl (fun n q => setBit n q (d.quadOk q)) 0
  d.miAnswer 90 busOk [7, d.f F.TOP_MODE_MODE + 16 * d.f F.PWR_PSTATE_PS, d.f F.GWL_ID_MEMBER + 8 * d.f F.TOP_MODE_CFENCE, lcs, quads, spare,
    if d.hotKnown then d.f F.PWR_THERM_HOTTEMP else 0xFF]

def execMiEloaskoBlock (busOk : Bool) := run (miEloaskoBlock busOk)

/-- SMBUS_SCL_TIMEOUT (R437): the part releases the bus: a reply under way is given up. -/
def smbusSclTimeout (d : Dev) : Dev := { d with host := { d.host with smbusReply := [] } }

def execSmbusSclTimeout := run smbusSclTimeout

end Sys2Proof.Machine
end

