-- ==== Sys2Proof/Machine/Events.lean ====
section
/-! DEFINITION. Writes to the event, counter and injection blocks (chapter 17): the host acknowledgement, the software event,
routes, the PMU's controls and counters, injectors. The journal, the routes and the counting itself are in
`Sys2Proof.Machine.Ops`. -/

namespace Sys2Proof.Machine

/-- EVT_HOST_ACK_SEQ (R408, R409): accepted between the present value and EVT_JHEAD; the watermark is armed again once the number
of unacknowledged records is below it. -/
def evtHostAckSeq (value : Nat) (d : Dev) : Dev :=
  if d.ef F.EVT_HOST_ACK_SEQ_SEQ < value ∧ value ≤ d.jhead then
    let d1 := d.setAck value
    if d1.ef F.EVT_JSTAT_UNACK < d1.ef F.EVT_JCFG_HOSTWM then { d1 with evt := { d1.evt with wmSent := false } } else d1
  else d

def execEvtHostAckSeq (value : Nat) := run (evtHostAckSeq value)

/-- EVT_SWTRIG (R399). -/
def evtSwtrig (value : Nat) (d : Dev) : Dev := d.raise 0x00E noPlot [value % 2 ^ 32]

def execEvtSwtrig (value : Nat) := run (evtSwtrig value)

/-- Would check 0x11 accept a route on the part as it stands (R402): a plot below MAXPLOTS, a vector inside its allotment, a core
that is present, in a route that uses them? -/
def Dev.routeOk (d : Dev) (w : Nat) : Bool :=
  (!routeHost w || (decide (routePlot w < d.f F.PLOT_SUMIO_MAXPLOTS) && decide (routeVec w < d.f (F.PLOT_QV_VMAX (routePlot w))))) &&
  (!routeCore w || (d.quadOk (routeCq w) && routeLineOk w))

/-- EVT_ROUTE (R402): a refused write has no effect. -/
def evtRoute (n value : Nat) (d : Dev) : Dev := if n < 512 ∧ d.routeOk value then d.setRoute n value else d

def execEvtRoute (n value : Nat) := run (evtRoute n value)

/-- PMU_RUN (R412). -/
def pmuRun (on : Bool) (d : Dev) : Dev := d.setEf F.PMU_CTL_RUN (Bool.nat on)

def execPmuRun (on : Bool) := run (pmuRun on)

/-- PMU_FREEZE (R415). -/
def pmuFreeze (on : Bool) (d : Dev) : Dev := d.setEf F.PMU_CTL_FREEZE (Bool.nat on)

def execPmuFreeze (on : Bool) := run (pmuFreeze on)

/-- PMU_CLEAR (R415): every counter and every wrap flag to zero; CLEAR clears itself. -/
def pmuClear (d : Dev) : Dev :=
  let d1 := (List.range 48).foldl (fun (e : Dev) i => e.setEf (F.PMU_CNT_COUNT i) 0) d
  (d1.setEf (F.PMU_OVF_OVF 0) 0).setEf (F.PMU_OVF_OVF 1) 0

def execPmuClear := run pmuClear

/-- Is counter `i` there: not that of a fused or retired quadrant (R412)? -/
def Dev.pmuHas (d : Dev) (i : Nat) : Bool := decide (i < 16) || (decide (i < 48) && d.quadOk ((i - 16) / 8))

/-- Does counter `i` count at all now (R412)? -/
def Dev.pmuOn (d : Dev) (i : Nat) : Bool :=
  d.ef F.PMU_CTL_RUN == 1 && d.ef F.PMU_CTL_FREEZE == 0 && d.ef (F.PMU_SEL_EN i) == 1

/-- PMU_CNT_WRITE (R415): the counter holds `value` plus `inc`, what it counts in the cycle of the write. -/
def pmuCntWrite (i value inc : Nat) (d : Dev) : Dev :=
  if d.pmuHas i then
    let d1 := d.setEf (F.PMU_CNT_COUNT i) (value % 2 ^ 48)
    if d1.pmuOn i then d1.pmuBump i inc else d1
  else d

def execPmuCntWrite (i value inc : Nat) := run (pmuCntWrite i value inc)

/-- PMU_OVERFLOW (R415): in one cycle counter `i` counts `n` occurrences that carry it past 2^48 − 1. -/
def pmuOverflow (i n : Nat) (d : Dev) : Dev :=
  if d.pmuHas i && d.pmuOn i && decide (2 ^ 48 ≤ d.ef (F.PMU_CNT_COUNT i) + n) then d.pmuBump i n else d

def execPmuOverflow (i n : Nat) := run (pmuOverflow i n)

/-- The fields of an injector but EN, from a 64-bit value (R418). -/
def Dev.finjFields (d : Dev) (i v : Nat) : Dev :=
  let d1 := (((d.setF (F.FINJ_INJ_ONESHOT i) (bits v 1 1)).setF (F.FINJ_INJ_KIND i) (bits v 2 4)).setF
    (F.FINJ_INJ_INST i) (bits v 8 5)).setF (F.FINJ_INJ_DIE i) (bits v 16 6)
  ((d1.setF (F.FINJ_INJ_ANYDIE i) (bits v 22 1)).setF (F.FINJ_INJ_BITS i) (bits v 24 7)).setF (F.FINJ_INJ_RATE i) (bits v 32 16)

/-- FINJ_ENABLE (R416, R419): a 64-bit write to FINJ_INJ[i]. While EN = 1 only EN can change. EN = 1 takes effect where the mode and
the debug right permit it, sets FINJ_CTL.REFUSED where they do not, and has no effect with a KIND of 7 to 15. The LFSR is seeded
when EN is set. -/
def finjEnable (i value : Nat) (d : Dev) : Dev :=
  if 16 ≤ i then d
  else if d.flag (F.FINJ_INJ_EN i) then
    if bit value 0 then d else (d.setF (F.FINJ_INJ_EN i) 0).finjShow
  else if ¬bit value 0 then d.finjFields i value
  else if ¬d.finjOk then d.setF F.FINJ_CTL_REFUSED 1
  else if 7 ≤ bits value 2 4 then d
  else
    let first := !d.flag F.FINJ_CTL_ANY
    let d1 := ((d.finjFields i value).setF (F.FINJ_INJ_EN i) 1).finjShow
    let d2 : Dev := { d1 with finj := d1.finj.set i ⟨Nat.xor (d1.f F.FINJ_SEED_SEED) i⟩ }
    if first then d2.raise 0x009 noPlot [] else d2

def execFinjEnable (i value : Nat) := run (finjEnable i value)

end Sys2Proof.Machine
end

