-- ==== Sys2Proof/Machine/Window.lean ====
section
/-! DEFINITION. What a function of the part shows the host besides its queues (R57, R60 to R62, R80, R89, R98, R449, R458): its configuration
space and its BAR0 with the controller registers, the doorbells, the MSI-X table and pending bits, and the mailbox windows. Addresses here
are 2^32 plus an offset in BAR0, and 2^32 + 2^26 plus an offset in configuration space, of the requester's own function. Where in
configuration space the capabilities lie, and the fields in them that the spec does not name, follow PCI Express (assumption 140). -/

namespace Sys2Proof.Machine

/-- The plot whose function a requester's BAR0 and configuration accesses reach; a core has none. -/
def fnOf : Requester → Option Nat
  | .manager => some 0
  | .tenant p => some p
  | _ => none

/-- Is this plot's function a physical one? -/
def Dev.isPf (d : Dev) (p : Nat) : Bool := p == 0 || (p == 256 && d.flag F.HIF_PORTCFG_DUAL)

/-! ### Configuration space (R57, R80, R449) -/

/-- The vectors of a function's MSI-X table (R60). -/
def Dev.msixSize (d : Dev) (p : Nat) : Nat := if d.isPf p then 4096 else 64

/-- The virtual functions a physical function can have (R57). -/
def Dev.totalVfs (d : Dev) : Nat := if d.flag F.HIF_PORTCFG_DUAL then 255 else 511

/-- The physical function's number on its port: 0, or 1 for plot 256. -/
def pfNum (p : Nat) : Nat := if p = 256 then 1 else 0

/-- A word of configuration space, by its offset: the bits that are fixed and the bits that a write sets (R80, R449). Every other BAR, the
expansion ROM BAR, and every word that no capability uses, read zero. -/
def Dev.cfgShape (d : Dev) (p off : Nat) : Nat × Nat :=
  let pf := d.isPf p
  match off with
  | 0x00 => ((if pf then d.f F.TOP_ID_PART else 0x78F0) * 65536 + 0x1EA7, 0)
  | 0x04 => (0x00100000, if pf then 0x0406 else 0x0004)
  | 0x08 => (0x01080200, 0)
  | 0x10 => if pf then (4, 0xFC000000) else (0, 0)
  | 0x14 => if pf then (0, 0xFFFFFFFF) else (0, 0)
  | 0x18 => if p = 0 then (4, 0xFE000000) else (0, 0)
  | 0x1C => if p = 0 then (0, 0xFFFFFFFF) else (0, 0)
  | 0x2C => (let v := ((d.boot.stream.bind (fun s => s.ident)).getD (0, 0, 0)).1; (if v = 0 then 0x1EA7 else v), 0)
  | 0x34 => (0x40, 0)
  | 0x40 => (0x00028010, 0)
  | 0x44 => (0x10008022, 0)
  | 0x48 => (0, 0x000071FF)
  | 0x64 => (0x00030000, 0)
  | 0x68 => (0, 0x00001000)
  | 0x80 => ((d.msixSize p - 1) * 65536 + 0x11, 0xC0000000)
  | 0x84 => (0x00800000, 0)
  | 0x88 => (0x00900000, 0)
  | 0x100 => (if pf then 0x15020001 else 0x00020001, 0)
  | 0x150 => if pf then (0x19010010, 0) else (0, 0)
  | 0x158 => if pf then (0, 0x00000019) else (0, 0)
  | 0x15C => if pf then (d.totalVfs * 65537, 0) else (0, 0)
  | 0x160 => if pf then (0, 0x0000FFFF) else (0, 0)
  | 0x164 => if pf then (0x00010001, 0) else (0, 0)
  | 0x168 => if pf then (0x78F00000, 0) else (0, 0)
  | 0x174 => if pf then (4, 0xFC000000) else (0, 0)
  | 0x178 => if pf then (0, 0xFFFFFFFF) else (0, 0)
  | 0x190 => if pf then (0x0001001E, 0) else (0, 0)
  | 0x194 => if pf then (0x0000001F, 0) else (0, 0)
  | 0x198 => if pf then (0, 0x0000000F) else (0, 0)
  | _ => (0, 0)

/-- A read of a word of configuration space. -/
def Dev.cfgRead (d : Dev) (p off : Nat) : Nat := (d.cfgShape p off).1 ||| d.cfgWord p off (cfgInit off)

/-- NumVFs of a physical function as VF Enable makes it count (R89). -/
def Dev.vfsAsked (d : Dev) (p : Nat) : Nat :=
  if bit (d.cfgWord p 0x158 0) 0 then min d.totalVfs (d.cfgWord p 0x160 0) else 0

/-- A vector's pending message is sent once nothing masks it (R60). -/
def Dev.msixRetry (d : Dev) (p : Nat) : Dev :=
  ((d.host.msixPend.filter (fun v => v / 4096 == p && !d.msixHeld p (v % 4096))).foldl (fun (e : Dev) v =>
    ({ e with host := { e.host with msixPend := NSet.del v e.host.msixPend } }).send (.msix p (v % 4096))) d)

/-- A write of a word of configuration space: the writable bits take their values; Initiate Function Level Reset resets the function
(R104), a change of VF Enable or NumVFs changes which virtual functions there are (R89), and an unmasked vector sends what is pending. -/
def Dev.cfgWrite (d : Dev) (p off v : Nat) : Dev :=
  let w := v &&& (d.cfgShape p off).2
  let d1 := { d with host := { d.host with cfg := AMap.set (cfgInit off) (1024 * p + off / 4) w d.host.cfg } }
  if off = 0x48 ∧ bit v 15 then functionLevelReset p d1
  else if (off = 0x158 ∨ off = 0x160) ∧ d.isPf p then vfEnableClear (pfNum p) (d1.vfsAsked p) d1
  else if off = msixCap then d1.msixRetry p
  else d1

/-! ### Controller registers (R60, R80, R458) -/

/-- CAP: MQES, CQR, weighted round robin with urgent, TO, NSSRS on physical function 0 alone, the NVM and the I/O command sets, MPSMAX,
both CRMS modes. -/
def Dev.capReg (p : Nat) : Nat :=
  0xFFFF + 2 ^ 16 + 2 ^ 17 + 0x14 * 2 ^ 24 + Bool.nat (p == 0) * 2 ^ 36 + 0x41 * 2 ^ 37 + 4 * 2 ^ 52 + 3 * 2 ^ 59

/-- CC as it reads. -/
def Ctrl.cc (c : Ctrl) : Nat :=
  Bool.nat c.en + c.css % 8 * 2 ^ 4 + c.ams % 8 * 2 ^ 11 + c.shn % 4 * 2 ^ 14 + c.ccRest

/-- The bits of CC that `Ctrl.ccRest` keeps: MPS, IOSQES, IOCQES and CRIME. -/
def ccRestMask : Nat := 0x01FF0780

/-- CSTS as it reads: RDY, SHST, and NSSRO on physical function 0. -/
def Dev.csts (d : Dev) (p : Nat) : Nat :=
  let c := d.ctrl p
  Bool.nat c.rdy + c.shst % 4 * 2 ^ 2 + Bool.nat (p == 0 && d.host.nssro) * 2 ^ 4

/-- A 32-bit read of the controller registers. -/
def Dev.nvmeRead (d : Dev) (p off : Nat) : Nat :=
  let c := d.ctrl p
  match off with
  | 0x00 => Dev.capReg p % 2 ^ 32
  | 0x04 => Dev.capReg p / 2 ^ 32
  | 0x08 => 0x00020100
  | 0x14 => c.cc
  | 0x1C => d.csts p
  | 0x24 => c.aqaS + 65536 * c.aqaC
  | 0x28 => c.asq % 2 ^ 32
  | 0x2C => c.asq / 2 ^ 32
  | 0x30 => c.acq % 2 ^ 32
  | 0x34 => c.acq / 2 ^ 32
  | 0x68 => 20 + 65536 * 20
  | _ => 0

/-- A half of a 64-bit value replaced. -/
def setHalf (x : Nat) (high : Bool) (v : Nat) : Nat :=
  if high then x % 2 ^ 32 + v % 2 ^ 32 * 2 ^ 32 else x / 2 ^ 32 * 2 ^ 32 + v % 2 ^ 32

/-- A write of CC (R37, R71, R73): EN enables the controller with the queues that AQA gives or resets it, SHN starts a shutdown. -/
def Dev.ccWrite (d : Dev) (p v : Nat) : Dev :=
  let c := d.ctrl p
  let keep (e : Dev) : Dev := e.setCtrl p { e.ctrl p with ccRest := v &&& ccRestMask }
  if bit v 0 ∧ ¬c.en then keep (ccEnable p (bits v 4 3) (bits v 11 3) (c.aqaS + 1) (c.aqaC + 1) d)
  else if ¬bit v 0 ∧ c.en then ccDisable p (keep d)
  else
    let d1 := keep d
    if bits v 14 2 = 1 then normalShutdown p d1 else if bits v 14 2 = 2 then abruptShutdown p d1 else d1

/-- A 32-bit write of the controller registers. -/
def Dev.nvmeWrite (d : Dev) (p off v : Nat) : Dev :=
  let c := d.ctrl p
  match off with
  | 0x14 => d.ccWrite p v
  | 0x1C => if p = 0 ∧ bit v 4 then { d with host := { d.host with nssro := false } } else d
  | 0x20 => nvmSubsystemReset p v d
  | 0x24 => if c.en then d else d.setCtrl p { c with aqaS := bits v 0 12, aqaC := bits v 16 12 }
  | 0x28 => if c.en then d else d.setCtrl p { c with asq := setHalf c.asq false (v / 4096 * 4096) }
  | 0x2C => if c.en then d else d.setCtrl p { c with asq := setHalf c.asq true v }
  | 0x30 => if c.en then d else d.setCtrl p { c with acq := setHalf c.acq false (v / 4096 * 4096) }
  | 0x34 => if c.en then d else d.setCtrl p { c with acq := setHalf c.acq true v }
  | _ => d

/-! ### Mailboxes (R98 to R102) -/

/-- MB_STAT as it reads: GEN, STATE and the flags. -/
def Dev.mbStat (d : Dev) (n : Nat) : Nat :=
  let m := d.mbx n
  d.plotGen n % 256 + d.f (F.PLOT_STAT_STATE n) * 2 ^ 8 + Bool.nat m.trst * 2 ^ 16 + Bool.nat m.mrst * 2 ^ 17 + Bool.nat m.trej * 2 ^ 18 +
    Bool.nat m.mrej * 2 ^ 19

/-- A word of the mailbox window of plot `n`; a window of a plot that is not enabled reads zero (R89). -/
def Dev.mbRead (d : Dev) (n o : Nat) : Nat :=
  let m := d.mbx n
  if n = 0 ∨ 512 ≤ n ∨ ¬d.plotEn n then 0
  else if 0x1000 ≤ o ∧ o < 0x2000 then AMap.get 0 ((o - 0x1000) / 4) m.up
  else if 0x2000 ≤ o ∧ o < 0x3000 then AMap.get 0 ((o - 0x2000) / 4) m.dn
  else match o with
  | 0x00 => m.upSeq
  | 0x04 => m.upAck
  | 0x08 => m.dnSeq
  | 0x0C => m.dnAck
  | 0x10 => m.incT
  | 0x14 => m.incM
  | 0x18 => m.vec % 4096 + Bool.nat m.vecEn * 2 ^ 31
  | 0x1C => d.mbStat n
  | _ => 0

/-- A word of the manager's summary window: MBS_PEND shows the plots with up messages not acknowledged, MBS_RST the restarts. -/
def Dev.mbSummary (d : Dev) (o : Nat) : Nat :=
  let word (k : Nat) (p : Nat → Bool) : Nat := ((List.range 32).map (fun j => Bool.nat (p (32 * k + j)) * 2 ^ j)).sum
  if o < 0x40 then word (o / 4) (fun n => n != 0 && d.plotEn n && (d.mbx n).upSeq != (d.mbx n).upAck)
  else if o < 0x80 then word ((o - 0x40) / 4) d.plot.rst.contains
  else 0

/-- A write of a mailbox window by the tenant or by the manager (R98). A VEC at or above VMAX has no effect, the EN bit beside it has its
own (DEDUCED: the value of VEC has no effect, assumption 171). -/
def Dev.mbWrite (d : Dev) (n : Nat) (tenant : Bool) (o v : Nat) : Dev :=
  let m := d.mbx n
  let x := v % 2 ^ 32
  if ¬d.mbOpen n tenant then d
  else if 0x1000 ≤ o ∧ o < 0x2000 then (if tenant then mbSlotWrite n true ((o - 0x1000) / 4) x d else d)
  else if 0x2000 ≤ o ∧ o < 0x3000 then (if tenant then d else mbSlotWrite n false ((o - 0x2000) / 4) x d)
  else match o, tenant with
  | 0x00, true => mbSeqWrite n true x d
  | 0x04, false => mbAckWrite n true x d
  | 0x08, false => mbSeqWrite n false x d
  | 0x0C, true => mbAckWrite n false x d
  | 0x10, true => mbIncWrite n true x d
  | 0x14, false => mbIncWrite n false x d
  | 0x18, true =>
    let m1 : Mbx := if bits x 0 12 < d.f (F.PLOT_QV_VMAX n) then { m with vec := bits x 0 12 } else m
    d.setMbx n { m1 with vecEn := bit x 31 }
  | 0x1C, false => d.setMbx n { m with trst := m.trst && !bit x 16, mrej := m.mrej && !bit x 19 }
  | 0x1C, true => d.setMbx n { m with mrst := m.mrst && !bit x 17, trej := m.trej && !bit x 18 }
  | _, _ => d

/-- A write of the manager's summary window: MBS_RST is cleared by ones. -/
def Dev.mbSummaryWrite (d : Dev) (o v : Nat) : Dev :=
  if 0x40 ≤ o ∧ o < 0x80 then
    { d with plot := { d.plot with rst := d.plot.rst.filter (fun p => !(p / 32 == (o - 0x40) / 4 && bit v (p % 32))) } }
  else d

/-! ### BAR0 (R60, R61) -/

/-- A word of the pending-bit array. -/
def Dev.pbaWord (d : Dev) (p k : Nat) : Nat :=
  ((List.range 32).map (fun j => Bool.nat (d.host.msixPend.contains (4096 * p + 32 * k + j)) * 2 ^ j)).sum

/-- A 32-bit read of BAR0 of the function of plot `p`; an offset that holds no register reads zero (R61). -/
def Dev.barRead (d : Dev) (p off : Nat) : Nat :=
  if off < 0x1000 then d.nvmeRead p off
  else if 0x800000 ≤ off ∧ off < 0x800000 + 16 * d.msixSize p then
    d.msixWord p ((off - 0x800000) / 16) ((off - 0x800000) / 4 % 4)
  else if 0x900000 ≤ off ∧ off < 0x900000 + d.msixSize p / 8 then d.pbaWord p ((off - 0x900000) / 4)
  else if off < 0x1000000 then 0
  else if p = 0 then
    let n := (off - 0x1000000) / 0x4000
    if n = 0 then d.mbSummary (off % 0x4000) else d.mbRead n (off % 0x4000)
  else if off < 0x1004000 then d.mbRead p (off % 0x4000)
  else 0

/-- A 32-bit write of BAR0. An offset that holds no register takes none (R61). -/
def Dev.barWrite (d : Dev) (p off v : Nat) : Dev :=
  if off < 0x1000 then d.nvmeWrite p off (v % 2 ^ 32)
  else if off < 0x1000 + 8 * 257 then
    let y := (off - 0x1000) / 8
    if off % 8 = 0 then sqTailDoorbell p y (v % 65536) d else cqHeadDoorbell p y (v % 65536) d
  else if 0x800000 ≤ off ∧ off < 0x800000 + 16 * d.msixSize p then
    let k := (off - 0x800000) / 4
    let x := if k % 4 = 3 then bits v 0 1 else v % 2 ^ 32
    ({ d with host := { d.host with
      msixTab := AMap.set (if k % 4 = 3 then 1 else 0) (4 * 4096 * p + k) x d.host.msixTab } }).msixRetry p
  else if off < 0x1000000 then d
  else if p = 0 then
    let n := (off - 0x1000000) / 0x4000
    if n = 0 then d.mbSummaryWrite (off % 0x4000) v else d.mbWrite n false (off % 0x4000) v
  else if off < 0x1004000 then d.mbWrite p true (off % 0x4000) v
  else d

/-! ### Accesses of the host's windows -/

/-- The first address that stands for BAR0, and for configuration space. -/
def barBase : Nat := 2 ^ 32
def cfgBase : Nat := 2 ^ 32 + 2 ^ 26

/-- A 32-bit read at a window address. A function that is not there answers with all ones (R89). -/
def Dev.windowRead (d : Dev) (by_ : Requester) (a : Nat) : Nat :=
  match fnOf by_ with
  | none => 0
  | some p =>
    if 512 ≤ p ∨ ¬d.fnThere p then 2 ^ 32 - 1
    else if cfgBase ≤ a then (if a < cfgBase + 4096 then d.cfgRead p (a - cfgBase) else 0)
    else d.barRead p (a - barBase)

/-- A 32-bit write at a window address; one to a function that is not there goes nowhere (R89). -/
def Dev.windowWrite (d : Dev) (by_ : Requester) (a v : Nat) : Dev :=
  match fnOf by_ with
  | none => d
  | some p =>
    if 512 ≤ p ∨ ¬d.fnThere p then d
    else if cfgBase ≤ a then (if a < cfgBase + 4096 then d.cfgWrite p (a - cfgBase) v else d)
    else d.barWrite p (a - barBase) v

/-- An access of `n` words that is aligned to its size, the low word first; any other reads zero, or goes nowhere (R61). -/
def Dev.windowReadN (d : Dev) (by_ : Requester) (a size : Nat) : Nat :=
  if size = 4 ∧ a % 4 = 0 then d.windowRead by_ a
  else if size = 8 ∧ a % 8 = 0 then d.windowRead by_ a + 2 ^ 32 * d.windowRead by_ (a + 4)
  else 0

def Dev.windowWriteN (d : Dev) (by_ : Requester) (a size v : Nat) : Dev :=
  if size = 4 ∧ a % 4 = 0 then d.windowWrite by_ a v
  else if size = 8 ∧ a % 8 = 0 then (d.windowWrite by_ a (v % 2 ^ 32)).windowWrite by_ (a + 4) (v / 2 ^ 32)
  else d

end Sys2Proof.Machine
end

