-- ==== Sys2Proof/Machine/Csr.lean ====
section
/-! DEFINITION. Control-space accesses (R5 to R11, R17, R26, R448 to R451): which register an offset names, who may reach it, what
a read returns, what a write does register by register, the halves of split accesses, and refused accesses (R411). A register
with a row of its own is written through that row's operation. -/

namespace Sys2Proof.Machine

/-! ### Requesters and registers -/

/-- Who makes an access: the requester's number (for R11's latches) and its owner ID (R450). -/
structure Who where
  num : Nat
  owner : Nat
  deriving DecidableEq, Repr

/-- A requester of control space (R450). A core here runs at S; a tenant reaches nothing. -/
def whoOf : Requester → Who
  | .manager => ⟨0, 0⟩
  | .security => ⟨33, 0x218⟩
  | .core c => ⟨c + 1, 0x3FF⟩
  | .tenant p => ⟨64 + p, p⟩

/-- Is it steward code, the security core? -/
def Who.steward (w : Who) : Bool := w.owner == 0x3FF
def Who.security (w : Who) : Bool := w.num == 33

/-- The first offset after the device blocks, and QBASE's stride (R448). -/
def quadBase : Nat := 0x1000000

/-- The quadrant of a quadrant register, and the offset in it. -/
def Reg.quad (r : Reg) : Option Nat := if r.addr < quadBase then none else some ((r.addr - quadBase) / 0x400000)
def Reg.inQuad (r : Reg) : Nat := (r.addr - quadBase) % 0x400000

/-- Is the register there (R26): not in a fused or retired quadrant, nor of a retired channel but for CHAN_STAT of a channel that
was retired in a quadrant still in service? -/
def Dev.regThere (d : Dev) (r : Reg) : Bool :=
  match r.quad with
  | none => true
  | some q =>
    d.quadOk q && (decide (0x20000 ≤ r.inQuad) ||
      (let ch := 8 * q + r.inQuad / 0x4000
       d.chanOk ch || (r.inQuad % 0x4000 == 4 && bit d.nv.retiredCh ch)))

/-- Does an offset lie in the block that starts at `lo` and spans `n`? -/
def inBlock (r : Reg) (lo n : Nat) : Bool := decide (lo ≤ r.addr) && decide (r.addr < lo + n)

/-- May this requester make the access (R88, R267, R335, R408, R412, R416, R450)? PLOT, PMU, SIEVE, MEMC and CORE are reached by
steward code and plot 0 alone; FINJ, the acknowledgement and the routes are written by them alone. -/
def regAllowed (w : Who) (r : Reg) (write : Bool) : Bool :=
  if w.security then
    !(inBlock r 0xA0000 0x20000 || inBlock r 0x40000 0x10000 ||
      (decide (quadBase ≤ r.addr) &&
        ((decide (0x100000 ≤ r.inQuad) && decide (r.inQuad < 0x140000)) || decide (0x1C0000 ≤ r.inQuad)))) &&
    !(write && (inBlock r 0x50000 0x10000 || r.addr == Reg.EVT_HOST_ACK_SEQ.addr || inBlock r 0x31000 0x800))
  else decide (w.num ≤ 33)

/-! ### Reading -/

/-- Is it a register of EVT or PMU, which keep their fields apart? -/
def Reg.isEvt (r : Reg) : Bool := inBlock r 0x30000 0x20000

/-- A field as it reads: a WO field reads zero (R6), and the counters of a quadrant out of service read zero (R412). -/
def Dev.fieldRead (d : Dev) (r : Reg) (f : Field) : Nat :=
  if f.ty = .WO then 0
  else match r with
    | .CORE_PC c => (d.cpu c).pc.toNat
    | .PMU_CNT i => if d.pmuHas i then d.ef f else 0
    | .PLOT_USE n => if f.key = (F.PLOT_USE_INFLIGHT n).key then d.inflightOf n else d.f f
    | .PLOT_STALE n => if f.key = (F.PLOT_STALE_COUNT n).key then min 65535 (d.staleOps n).length else d.f f
    | _ => if r.isEvt then d.ef f else d.f f

/-- A register's value: its fields in place, reserved bits zero (R7). -/
def Dev.regRead (d : Dev) (r : Reg) : Nat := (r.fields.map (fun f => d.fieldRead r f * 2 ^ f.lo)).sum

/-! ### Writing -/

/-- Set a field of any register. -/
def Dev.putField (d : Dev) (r : Reg) (f : Field) (v : Nat) : Dev := if r.isEvt then d.setEf f v else d.setF f v

/-- The part of a written value that a field takes. -/
def Field.of (f : Field) (v : Nat) : Nat := bits v f.lo f.width

/-- How a field takes a value: `free` any, `strict` the stated range alone (another value has no effect), `open_` the stated range,
with the result of another value left open by the spec. -/
inductive Take where
  | free
  | strict (lo hi : Nat)
  | open_ (lo hi : Nat)
  deriving DecidableEq, Repr

/-- The ranges the register tables state for the fields of registers that have no row of their own, by register and lowest bit. -/
def takeOf (r : Reg) (lo : Nat) : Take :=
  match r, lo with
  | .TOP_TMAX, 0 => .strict 1 60
  | .CHAN_CFG _, 1 => .open_ 1 6
  | .CHAN_CFG _, 8 => .open_ 0 6
  | .CHAN_TNOM _ _, 0 => .strict 1 1048575
  | .CHAN_DTO _, 0 => .strict 1 15
  | .CHAN_DTO _, 8 => .strict 1 15
  | .CHAN_DTO _, 16 => .open_ 1 255
  | .MAPW_CKPT, 0 => .open_ 1 60
  | .MAPW_CKPT, 8 => .strict 1 63
  | .MAPW_CKPT, 16 => .strict 1 32
  | .MAPW_RELOC, _ => .open_ 1 65535
  | .STRP_RBCFG, 0 => .strict 1 255
  | .STRP_RBCFG, 8 => .strict 1 15
  | .GWL_CFG, 0 => .strict 1 255
  | .GWL_CFG, 8 => .strict 1 15
  | .GWL_CFG, 16 => .open_ 1 255
  | .GWL_RESYNC, 0 => .strict 1 255
  | .CHURN_CFG _, 0 => .strict 1 15
  | .CHURN_CFG _, 8 => .strict 10 23
  | .SIEVE_CFG _, _ => .strict 1 65535
  | .DGST_CFG _, 0 => .strict 1 4095
  | .MEMC_CFG _, 1 => .open_ 0 2
  | .MEMC_CFG _, 4 => .open_ 0 4
  | .MEMC_CFG _, 7 => .open_ 0 4
  | .MEMC_SCHED _, 0 => .strict 1 255
  | .MEMC_PAGE _, 0 => .strict 0 2
  | .MEMC_PAGE _, 8 => .open_ 1 255
  | .MEMC_RHT _, _ => .strict 1 65535
  | .MEMC_RETRY _, 0 => .strict 1 15
  | .MEMC_MARK _, 0 => .strict 1 255
  | .PAIL_POOLCFG _, 2 => .open_ 9 20
  | .PAIL_POOLCNT _, 0 => .open_ 1 0x0FFFFFFF
  | .EVT_JCFG, 0 => .strict 1 8192
  | .FINJ_SEED, 0 => .strict 1 0xFFFFFFFF
  | _, _ => .free

/-- The lock bit of the RWL fields (R9): CHAN_CFG.LOCK, MEMC_CFG.LOCK, PAIL_POOLCFG.LOCK for the pool's registers. -/
def Dev.regLocked (d : Dev) (r : Reg) : Bool :=
  match r with
  | .CHAN_CFG ch => d.flag (F.CHAN_CFG_LOCK ch)
  | .MEMC_CFG q => d.flag (F.MEMC_CFG_LOCK q)
  | .PAIL_POOLCFG n => d.flag (F.PAIL_POOLCFG_LOCK n)
  | .PAIL_POOLBASE n => d.flag (F.PAIL_POOLCFG_LOCK n)
  | .PAIL_POOLCNT n => d.flag (F.PAIL_POOLCFG_LOCK n)
  | .PAIL_POOLFLOOR n => d.flag (F.PAIL_POOLCFG_LOCK n)
  | _ => false

/-- Set a writable field by its stated range; a value whose result the spec does not state leaves the field at a free value. -/
def Dev.takeField (d : Dev) (r : Reg) (f : Field) (v : Nat) : Dev :=
  match takeOf r f.lo with
  | .free => d.putField r f v
  | .strict lo hi => if lo ≤ v ∧ v ≤ hi then d.putField r f v else d
  | .open_ lo hi => d.putField r f (if lo ≤ v ∧ v ≤ hi then v else Config.unstated f.key v)

/-- One field of a write by its access type (R6, R9). -/
def Dev.writeField (d : Dev) (r : Reg) (v : Nat) (f : Field) : Dev :=
  let x := f.of v
  match f.ty with
  | .RW => d.takeField r f x
  | .RWL => if d.regLocked r then d else d.takeField r f x
  | .W1C =>
    let old := if r.isEvt then d.ef f else d.f f
    d.putField r f (old - Nat.land old x)
  | .W1S =>
    let old := if r.isEvt then d.ef f else d.f f
    d.putField r f (Nat.lor old x)
  | _ => d

/-- A write field by field. A register's RWL fields are judged by the lock as it stood before the write. -/
def Dev.writeFields (d : Dev) (r : Reg) (v : Nat) : Dev :=
  (r.fields.filter (fun f => f.ty != .W1S)).foldl (fun (e : Dev) f => e.writeField r v f) d |>
    fun (e : Dev) => (r.fields.filter (fun f => f.ty == .W1S)).foldl (fun (x : Dev) f => x.writeField r v f) e

/-- A write to PLOT_CTL: EN, PSALLOW, RST (R89, R104, R109). -/
def Dev.writePlotCtl (d : Dev) (n v : Nat) : Dev :=
  let d1 := if bit v 0 then plotEnable n d else plotDisable n d
  let d2 := plotShareWrite n 0 v d1
  if bit v 1 then plotRst n d2 else d2

/-- A write to TOP_QBIST: INTERVAL, and NOW (R44). -/
def Dev.writeQbist (d : Dev) (v : Nat) : Dev :=
  let d1 := d.setF F.TOP_QBIST_INTERVAL (bits v 0 16)
  if bit v 21 then qbistNow d1 else d1

/-- A write to SIEVE_UCMD starts the operation it names (R269); 5 to 7 have no effect. -/
def Dev.writeUcmd (d : Dev) (q v : Nat) : Dev :=
  let op := bits v 0 3
  let t := bits v 4 8
  if 5 ≤ op then d
  else
    let d1 := (((d.setF (F.SIEVE_UCMD_OP q) op).setF (F.SIEVE_UCMD_REPLACE q) (bits v 3 1)).setF (F.SIEVE_UCMD_TABLE q) t).setF
      (F.SIEVE_UCMD_INDEX q) (bits v 16 16)
    match op with
    | 0 => camWrite q t (bits v 16 16) d1
    | 1 => insertAt q t (bits v 16 16) d1
    | 2 => insertKey q t (bit v 3) d1
    | 3 => camDelete q t (bits v 16 16) d1
    | _ => clearTable q t d1

/-- A write to DGST_SCTL (R293 to R295): outside OPEN and FINISHING, a write with OPEN = 1 opens the session with its ALG and URG,
whoever makes it, and the recorded plot may change them; while the session runs, the recorded plot may abort or finish it. -/
def Dev.writeSctl (d : Dev) (q s plot v : Nat) : Dev :=
  let st := d.sesState q s
  let own := d.sesOwner q s plot
  if st = 1 ∨ st = 2 then
    let d1 := if bit v 8 then dgstFin0 q s plot d else d
    if bit v 7 then dgstAbort q s plot d1 else d1
  else if bit v 6 || own then
    let d1 := (if bits v 0 3 ≤ 5 then d.setF (F.DGST_SCTL_ALG q s) (bits v 0 3) else d).setF (F.DGST_SCTL_URG q s) (bits v 4 2)
    if bit v 6 then dgstOpen q s plot d1 else d1
  else d

/-- A write to PAIL_POOLWM takes effect only with LOW < MID < HIGH. -/
def Dev.writePoolWm (d : Dev) (n v : Nat) : Dev :=
  let l := bits v 0 7
  let m := bits v 8 7
  let h := bits v 16 7
  if 1 ≤ l ∧ l < m ∧ m < h then
    ((d.setF (F.PAIL_POOLWM_LOW n) l).setF (F.PAIL_POOLWM_MID n) m).setF (F.PAIL_POOLWM_HIGH n) h
  else d

/-- A field whose upper or lower limit is another field of the same write: the limit is the value that field has after it. -/
def Dev.writePair (d : Dev) (r : Reg) (v : Nat) : Dev :=
  match r with
  | .MAPW_COMPOST =>
    let d1 := d.putField r F.MAPW_COMPOST_START (if bits v 0 8 = 0 then Config.unstated F.MAPW_COMPOST_START.key 0 else bits v 0 8)
    if 1 ≤ bits v 8 8 ∧ bits v 8 8 < d1.f F.MAPW_COMPOST_START then d1.setF F.MAPW_COMPOST_URGENT (bits v 8 8) else d1
  | .GWL_HB =>
    let d1 := if bits v 0 4 = 0 then d else d.setF F.GWL_HB_PERIOD (bits v 0 4)
    let d2 := if 4 * d1.f F.GWL_HB_PERIOD ≤ bits v 8 10 ∧ bits v 8 10 ≤ 1000 then d1.setF F.GWL_HB_MISS (bits v 8 10) else d1
    d2.setF F.GWL_HB_SETTLE (if bits v 24 8 = 0 then Config.unstated F.GWL_HB_SETTLE.key 0 else bits v 24 8)
  | .MEMC_SCHED q =>
    let d1 := d.takeField r (F.MEMC_SCHED_AGECAP q) ((F.MEMC_SCHED_AGECAP q).of v)
    let hi := (F.MEMC_SCHED_WRHI q).of v
    let d2 := d1.setF (F.MEMC_SCHED_WRHI q) (if 2 ≤ hi then hi else Config.unstated (F.MEMC_SCHED_WRHI q).key hi)
    let lo := (F.MEMC_SCHED_WRLO q).of v
    if 1 ≤ lo ∧ lo < d2.f (F.MEMC_SCHED_WRHI q) then d2.setF (F.MEMC_SCHED_WRLO q) lo else d2
  | _ => d.writeFields r v

/-- What a write to a register does: `v` is the register's whole new value; `whole` says that all of it was written (a lone high
half of a 64-bit register keeps the low half, R11); `poisoned` that the data carried a mark. -/
def Dev.regWrite (d : Dev) (w : Who) (r : Reg) (v : Nat) (whole poisoned : Bool) : Dev :=
  match r with
  | .TOP_RESET => topReset (bits v 16 16) (bit v 0) d
  | .TOP_QBIST => d.writeQbist v
  | .PLOT_CTL n => d.writePlotCtl n v
  | .PLOT_QV n => plotShareWrite n 0x08 v d
  | .PLOT_FETCH n => plotShareWrite n 0x0C v d
  | .PLOT_SLM n => plotShareWrite n 0x10 v d
  | .PLOT_FCORE n => plotShareWrite n 0x14 v d
  | .PLOT_EWT n => plotShareWrite n 0x18 v d
  | .PLOT_ECAP n => plotShareWrite n 0x1C v d
  | .MAPW_COMPOST => d.writePair r v
  | .GWL_HB => d.writePair r v
  | .MEMC_SCHED _ => d.writePair r v
  | .STRP_RBCFG => (d.writeFields r v).rebuildNext
  | .TREL_RBASE q x =>
    if d.flag (F.TREL_RCTL_EN q x) then d
    else d.setF (F.TREL_RBASE_BASE q x) (if v % 4096 = 0 then v else Config.unstated (F.TREL_RBASE_BASE q x).key v)
  | .TREL_RCTL q x => Sys2Proof.Machine.ringEnable q x v d
  | .TREL_RSUB q x => trelRsub q x v d
  | .TREL_RACK q x => trelRack q x v d
  | .SIEVE_UCMD q => d.writeUcmd q v
  | .SIEVE_TBL q t => sieveTblWrite q t v d
  | .DGST_SCTL q s => d.writeSctl q s w.owner v
  | .DGST_DATA q s => dgstData q s w.owner v poisoned d
  | .DGST_LAST q s i => dgstLast q s (i + 1) w.owner v poisoned d
  | .DGST_EXP q s i =>
    if whole then dgstExpWrite q s i w.owner v false d
    else if d.sesOwner q s w.owner then d.setF (F.DGST_EXP_DIGEST q s i) v else d
  | .CORE_RGN _ _ => if w.num = 0 then d else d.writeFields r v
  | .CORE_RLIM _ _ => if w.num = 0 then d else d.writeFields r v
  | .MEMC_FCHG q => if bit v 0 then memcFchgGo q d else d
  | .MEMC_TSET q x => if x / 16 = d.f (F.MEMC_STAT_SET q) then d else d.writeFields r v
  | .PAIL_POOLWM n => d.writePoolWm n v
  | .EVT_JCFG => (d.writeFields r v).watermark
  | .EVT_HOST_ACK_SEQ => evtHostAckSeq v d
  | .EVT_SWTRIG => evtSwtrig v d
  | .EVT_ROUTE n => evtRoute n v d
  | .PMU_CTL =>
    let d1 := pmuFreeze (bit v 1) (pmuRun (bit v 0) d)
    if bit v 2 then pmuClear d1 else d1
  | .PMU_CNT i => pmuCntWrite i v 0 d
  | .FINJ_INJ i => finjEnable i v d
  | _ => d.writeFields r v

/-! ### Accesses -/

/-- All ones of an access of `n` bytes. -/
def allOnes (n : Nat) : Nat := 2 ^ (8 * n) - 1

/-- A refused access (R10, R411): EVT records its offset in EVT_BADADDR and its requester in EVT_BADINFO unless a record is held, and raises
CSR_FAULT with the offset and the requester's owner ID; no register changes. -/
def Dev.csrFault (d : Dev) (w : Who) (addr size : Nat) (write : Bool) : Dev :=
  let d1 := if d.ef F.EVT_BADINFO_VALID = 1 then d
    else
      let e := (d.setEf F.EVT_BADADDR_OFFSET addr).setEf F.EVT_BADINFO_OWNER w.owner
      ((e.setEf F.EVT_BADINFO_WRITE (Bool.nat write)).setEf F.EVT_BADINFO_WIDE (Bool.nat (size == 8))).setEf F.EVT_BADINFO_VALID 1
  d1.raise 0x007 noPlot [addr, w.owner]

/-- What an access reaches. -/
inductive Target where
  | whole (r : Reg)
  | low (r : Reg)
  | high (r : Reg)
  | bad
  deriving DecidableEq, Repr

/-- Which register, or half, an access of `size` bytes names, if this requester may make it (R10, R11, R26, R451). -/
def Dev.target (d : Dev) (w : Who) (addr size : Nat) (write : Bool) : Target :=
  let ok (r : Reg) : Bool := d.regThere r && regAllowed w r write
  if addr % size ≠ 0 ∨ (size ≠ 4 ∧ size ≠ 8) then .bad
  else match Reg.ofOffset addr with
    | some r =>
      if ¬ok r then .bad
      else if size = 8 then (if r.wide then .whole r else .bad)
      else if r.wide then .low r else .whole r
    | none =>
      if size = 8 then .bad
      else match Reg.ofHigh addr with
        | some r => if ok r then .high r else .bad
        | none => .bad

/-- The latched high half of a requester's split read, if it is of this register. -/
def Dev.latched (d : Dev) (w : Who) (a : Nat) : Option Nat :=
  (d.host.readLatch.find? (fun x => x.1 == w.num && x.2.1 == a)).map (fun x => x.2.2)

def Dev.dropLatched (d : Dev) (w : Who) : Dev :=
  { d with host := { d.host with readLatch := d.host.readLatch.filter (fun x => x.1 != w.num) } }

def Dev.dropHeld (d : Dev) (w : Who) : Dev :=
  { d with host := { d.host with writeHold := d.host.writeHold.filter (fun x => x.1 != w.num) } }

/-- A control-space read: its value and what it does (R10, R11). -/
def Dev.csrRead (d : Dev) (w : Who) (addr size : Nat) : Nat × Dev :=
  match d.target w addr size false with
  | .bad => (allOnes size, d.csrFault w addr size false)
  | .whole r => (d.regRead r, d)
  | .low r =>
    let v := d.regRead r
    let d1 := d.dropLatched w
    (v % 2 ^ 32, { d1 with host := { d1.host with readLatch := (w.num, r.addr, v / 2 ^ 32) :: d1.host.readLatch } })
  | .high r =>
    match d.latched w r.addr with
    | some v => (v, d.dropLatched w)
    | none => (d.regRead r / 2 ^ 32, d)

/-- A control-space write (R10, R11). -/
def Dev.csrWrite (d : Dev) (w : Who) (addr size v : Nat) (poisoned : Bool) : Dev :=
  match d.target w addr size true with
  | .bad => d.csrFault w addr size true
  | .whole r => d.regWrite w r v true poisoned
  | .low r =>
    let d1 := d.dropHeld w
    { d1 with host := { d1.host with writeHold := (w.num, r.addr, v % 2 ^ 32) :: d1.host.writeHold } }
  | .high r =>
    match d.host.writeHold.find? (fun x => x.1 == w.num && x.2.1 == r.addr) with
    | some x => (d.dropHeld w).regWrite w r (x.2.2 + 2 ^ 32 * (v % 2 ^ 32)) true poisoned
    | none => d.regWrite w r (d.regRead r % 2 ^ 32 + 2 ^ 32 * (v % 2 ^ 32)) false poisoned

/-! ### The rows -/

/-- Keep what a read returned. -/
def Dev.reply (x : Nat × Dev) : Dev := { x.2 with host := { x.2.host with csrReply := some x.1 } }

/-- A read of `size` bytes by a requester: of control space below 2^32, which a tenant does not reach (R62), above it of the windows of the
requester's function. -/
def Dev.readAt (d : Dev) (by_ : Requester) (addr size : Nat) : Dev :=
  if barBase ≤ addr then Dev.reply (d.windowReadN by_ addr size, d)
  else match by_ with
    | .tenant _ => d
    | _ => Dev.reply (d.csrRead (whoOf by_) addr size)

/-- A write of `size` bytes. -/
def Dev.writeAt (d : Dev) (by_ : Requester) (addr size v : Nat) : Dev :=
  if barBase ≤ addr then d.windowWriteN by_ addr size v
  else match by_ with
    | .tenant _ => d
    | _ => d.csrWrite (whoOf by_) addr size v false

/-- CSR_WRITE (R17): a write of 32 bits, or of 64 (`wide`), takes effect in issue order. -/
def csrWrite (by_ : Requester) (addr value : Nat) (wide : Bool) (d : Dev) : Dev := d.writeAt by_ addr (if wide then 8 else 4) value

def execCsrWrite (by_ : Requester) (addr value : Nat) (wide : Bool) := run (csrWrite by_ addr value wide)

/-- CSR_BAD_ACCESS (R10): an access of `size` bytes. A read returns what it names, all ones where that is no register; a write that no
register takes is recorded, and one that a register takes is the row's of that write. -/
def csrBadAccess (by_ : Requester) (addr size : Nat) (write : Bool) (d : Dev) : Dev :=
  if ¬write then d.readAt by_ addr size
  else match by_ with
    | .tenant _ => d
    | _ => if addr < barBase ∧ d.target (whoOf by_) addr size true = .bad then d.csrFault (whoOf by_) addr size true else d

def execCsrBadAccess (by_ : Requester) (addr size : Nat) (write : Bool) := run (csrBadAccess by_ addr size write)

/-- CSR_SPLIT_READ_LOW (R11): a 32-bit read, which at a 64-bit register's offset latches the high half. -/
def csrSplitReadLow (by_ : Requester) (addr : Nat) (d : Dev) : Dev := d.readAt by_ addr 4

def execCsrSplitReadLow (by_ : Requester) (addr : Nat) := run (csrSplitReadLow by_ addr)

/-- CSR_SPLIT_READ_HIGH (R11): a 32-bit read, which 4 above a 64-bit register's offset returns the latched high half. -/
def csrSplitReadHigh (by_ : Requester) (addr : Nat) (d : Dev) : Dev := d.readAt by_ addr 4

def execCsrSplitReadHigh (by_ : Requester) (addr : Nat) := run (csrSplitReadHigh by_ addr)

/-- CSR_SPLIT_WRITE_LOW (R11): a 32-bit write, held at a 64-bit register's offset. -/
def csrSplitWriteLow (by_ : Requester) (addr value : Nat) (d : Dev) : Dev := d.writeAt by_ addr 4 value

def execCsrSplitWriteLow (by_ : Requester) (addr value : Nat) := run (csrSplitWriteLow by_ addr value)

/-- CSR_SPLIT_WRITE_HIGH (R11): a 32-bit write, which 4 above a 64-bit register's offset completes the held one. -/
def csrSplitWriteHigh (by_ : Requester) (addr value : Nat) (d : Dev) : Dev := d.writeAt by_ addr 4 value

def execCsrSplitWriteHigh (by_ : Requester) (addr value : Nat) := run (csrSplitWriteHigh by_ addr value)

end Sys2Proof.Machine
end

