-- ==== Sys2Proof/Machine/Flags.lean ====
section
/-! DEFINITION. The flags of a VZ64 core (R299, R305, R310 to R312, R318 to R321): the fl register's bits, the conditions, and every
flag computation of chapter 13, each with the result it goes with. -/

namespace Sys2Proof.Machine

/-- The bits of fl. -/
def fN (fl : W64) : Bool := fl.getLsbD 0
def fZ (fl : W64) : Bool := fl.getLsbD 1
def fC (fl : W64) : Bool := fl.getLsbD 2
def fV (fl : W64) : Bool := fl.getLsbD 3
def fH (fl : W64) : Bool := fl.getLsbD 4
def fDT (fl : W64) : Bool := fl.getLsbD 16

/-- Set or clear bit `i` of fl. -/
def flBit (fl : W64) (i : Nat) (b : Bool) : W64 :=
  if b then fl ||| BitVec.ofNat 64 (2 ^ i) else fl &&& ~~~(BitVec.ofNat 64 (2 ^ i))

def setN (fl : W64) (b : Bool) : W64 := flBit fl 0 b
def setZ (fl : W64) (b : Bool) : W64 := flBit fl 1 b
def setC (fl : W64) (b : Bool) : W64 := flBit fl 2 b
def setV (fl : W64) (b : Bool) : W64 := flBit fl 3 b
def setH (fl : W64) (b : Bool) : W64 := flBit fl 4 b
def setDZ (fl : W64) : W64 := flBit fl 8 true

/-- The writable bits of fl: N, Z, C, V, H, DZ, DT. -/
def flMask : W64 := 0x1011F#64

/-- A condition code, or a guard (R305); 0xF is reserved and never tested. -/
def condHolds (k : Nat) (fl : W64) : Bool :=
  match k with
  | 0x0 => true
  | 0x1 => fZ fl
  | 0x2 => !fZ fl
  | 0x3 => fN fl != fV fl
  | 0x4 => fN fl == fV fl
  | 0x5 => fZ fl || fN fl != fV fl
  | 0x6 => !fZ fl && fN fl == fV fl
  | 0x7 => !fC fl
  | 0x8 => fC fl
  | 0x9 => !fC fl || fZ fl
  | 0xA => fC fl && !fZ fl
  | 0xB => fN fl
  | 0xC => !fN fl
  | 0xD => fV fl
  | 0xE => !fV fl
  | _ => false

/-- A result and the fl it leaves when flags are written. -/
structure Res where
  val : W64
  fl : W64
  deriving DecidableEq, Repr

/-- N and Z of a result (R310). -/
def flNZ (fl r : W64) : W64 := setZ (setN fl (r.getLsbD 63)) (r == 0#64)

/-- A logical result: N and Z. -/
def resNZ (fl r : W64) : Res := ⟨r, flNZ fl r⟩

/-- The sum `a + b + cin` with C, H and a given V. -/
def sumRes (fl a b : W64) (cin : Bool) (v : W64 → Bool) : Res :=
  let c := if cin then 1 else 0
  let r := a + b + BitVec.ofNat 64 c
  let carry := decide (2 ^ 64 ≤ a.toNat + b.toNat + c)
  let half := decide (16 ≤ a.toNat % 16 + b.toNat % 16 + c)
  ⟨r, setH (setV (setC (flNZ fl r) carry) (v r)) half⟩

/-- Addition (R310): ADD, ADC, ADDIS. -/
def addRes (fl a b : W64) (cin : Bool) : Res :=
  sumRes fl a b cin (fun r => a.getLsbD 63 == b.getLsbD 63 && r.getLsbD 63 != a.getLsbD 63)

/-- Subtraction (R310): SUB, SBC, NEG, SUBIS and the comparisons: `a + NOT b + cin`. -/
def subRes (fl a b : W64) (cin : Bool) : Res :=
  sumRes fl a (~~~b) cin (fun r => a.getLsbD 63 != b.getLsbD 63 && r.getLsbD 63 != a.getLsbD 63)

/-- N, Z and a new C. -/
def resNZC (fl r : W64) (c : Bool) : Res := ⟨r, setC (flNZ fl r) c⟩

/-- SHL (R311). -/
def shlRes (fl a : W64) (s : Nat) : Res :=
  if s = 0 then resNZ fl a
  else if s < 64 then resNZC fl (a <<< s) (a.getLsbD (64 - s))
  else if s = 64 then resNZC fl 0#64 (a.getLsbD 63)
  else resNZC fl 0#64 false

/-- SHR (R311). -/
def shrRes (fl a : W64) (s : Nat) : Res :=
  if s = 0 then resNZ fl a
  else if s < 64 then resNZC fl (a >>> s) (a.getLsbD (s - 1))
  else if s = 64 then resNZC fl 0#64 (a.getLsbD 63)
  else resNZC fl 0#64 false

/-- SAR (R311). -/
def sarRes (fl a : W64) (s : Nat) : Res :=
  if s = 0 then resNZ fl a
  else if s < 64 then resNZC fl (a.sshiftRight s) (a.getLsbD (s - 1))
  else resNZC fl (a.sshiftRight 63) (a.getLsbD 63)

/-- ROR and ROL (R311): C is bit 63 or bit 0 of the result, unchanged when the amount is a multiple of 64. -/
def rorRes (fl a : W64) (s : Nat) : Res :=
  let r := a.rotateRight (s % 64)
  if s % 64 = 0 then resNZ fl a else resNZC fl r (r.getLsbD 63)

def rolRes (fl a : W64) (s : Nat) : Res :=
  let r := a.rotateLeft (s % 64)
  if s % 64 = 0 then resNZ fl a else resNZC fl r (r.getLsbD 0)

/-- MUL: the low half, C for an unsigned and V for a signed overflow. -/
def mulRes (fl a b : W64) : Res :=
  let r := a * b
  let p := a.toInt * b.toInt
  ⟨r, setV (setC (flNZ fl r) (decide (2 ^ 64 ≤ a.toNat * b.toNat))) (decide (p < -2 ^ 63 ∨ 2 ^ 63 ≤ p))⟩

/-- MULHU and MULHS: the high half, C and V zero. -/
def mulhRes (fl r : W64) : Res := ⟨r, setV (setC (flNZ fl r) false) false⟩

def mulhuVal (a b : W64) : W64 := BitVec.ofNat 64 (a.toNat * b.toNat / 2 ^ 64)
def mulhsVal (a b : W64) : W64 := BitVec.ofInt 64 (a.toInt * b.toInt / 2 ^ 64)

/-- Quotient, remainder and V of a division by a divisor that is not zero (R312). -/
def divide (signed : Bool) (a b : W64) : W64 × W64 × Bool :=
  if signed then
    if a = 0x8000000000000000#64 ∧ b = BitVec.allOnes 64 then (a, 0#64, true)
    else (BitVec.ofInt 64 (a.toInt.tdiv b.toInt), BitVec.ofInt 64 (a.toInt.tmod b.toInt), false)
  else (BitVec.ofNat 64 (a.toNat / b.toNat), BitVec.ofNat 64 (a.toNat % b.toNat), false)

/-- A division: its result, the fl that V and DZ give whatever S is, and the fl of S = 1 (R312). By zero the quotient is 0 and the
remainder the dividend. -/
def divRes (signed rem : Bool) (fl a b : W64) : Res × W64 :=
  let z := b == 0#64
  let q := if z then (0#64, a, false) else divide signed a b
  let r := if rem then q.2.1 else q.1
  let f1 := setV (if z then setDZ fl else fl) q.2.2
  (⟨r, setC (flNZ f1 r) false⟩, f1)

/-! ### Decimal (R318 to R321) -/

/-- Digit `i` of a packed decimal. -/
def digit (a : W64) (i : Nat) : Nat := a.toNat / 16 ^ i % 16

/-- Are all sixteen digits valid? -/
def decOk (a : W64) : Bool := (List.range 16).all (fun i => decide (digit a i ≤ 9))

/-- The flags of a decimal result. -/
def decFl (fl r : W64) (c h : Bool) : W64 := setH (setV (setC (setZ (setN fl false) (r == 0#64)) c) false) h

/-- Decimal addition of the digits from `i` up, `k` of them, with a carry in: the digits' value and the carry out. -/
def decSum (a b : W64) : Nat → Nat → Bool → Nat × Bool
  | 0, _, c => (0, c)
  | k + 1, i, c =>
    let t := digit a i + digit b i + (if c then 1 else 0)
    let r := decSum a b k (i + 1) (decide (10 ≤ t))
    ((if 10 ≤ t then t - 10 else t) + 16 * r.1, r.2)

/-- Decimal subtraction, likewise with a borrow. -/
def decDiff (a b : W64) : Nat → Nat → Bool → Nat × Bool
  | 0, _, w => (0, w)
  | k + 1, i, w =>
    let s := digit b i + (if w then 1 else 0)
    let r := decDiff a b k (i + 1) (decide (digit a i < s))
    ((if digit a i < s then digit a i + 10 - s else digit a i - s) + 16 * r.1, r.2)

/-- DADD and DADC with valid operands; H is the carry out of digit 0. -/
def daddRes (fl a b : W64) (cin : Bool) : Res :=
  let s := decSum a b 16 0 cin
  let r := BitVec.ofNat 64 s.1
  ⟨r, decFl fl r s.2 (decSum a b 1 0 cin).2⟩

/-- DSUB and DSBC with valid operands; C and H are the absence of a borrow. -/
def dsubRes (fl a b : W64) (win : Bool) : Res :=
  let s := decDiff a b 16 0 win
  let r := BitVec.ofNat 64 s.1
  ⟨r, decFl fl r (!s.2) (!(decDiff a b 1 0 win).2)⟩

/-- The BCD digits of a number, lowest first. -/
def toBcd : Nat → Nat → Nat
  | 0, _ => 0
  | k + 1, n => n % 10 + 16 * toBcd k (n / 10)

/-- The value of `k` digits from `i` up. -/
def ofBcd (a : W64) : Nat → Nat → Nat
  | 0, _ => 0
  | k + 1, i => digit a i + 10 * ofBcd a k (i + 1)

/-- CVBD. -/
def cvbdRes (fl a : W64) : Res :=
  let r := BitVec.ofNat 64 (toBcd 16 (a.toNat % 10 ^ 16))
  ⟨r, decFl fl r (decide (10 ^ 16 ≤ a.toNat)) false⟩

/-- CVDB with a valid operand. -/
def cvdbRes (fl a : W64) : Res :=
  let r := BitVec.ofNat 64 (ofBcd a 16 0)
  ⟨r, decFl fl r false false⟩

/-- The result of an invalid operand without a trap (R319). -/
def decInvalid (fl : W64) : Res :=
  ⟨BitVec.allOnes 64, setH (setC (setZ (setN (setV fl true) false) false) false) false⟩

/-- The adjusted byte put back, and its flags. -/
def adjRes (fl a : W64) (b : Nat) (c : Bool) : Res :=
  let r := BitVec.ofNat 64 (a.toNat / 256 * 256 + b)
  ⟨r, setH (setV (setC (setZ (setN fl (decide (128 ≤ b))) (decide (b = 0))) c) false) false⟩

/-- DAA (R321). -/
def daaRes (fl a : W64) : Res :=
  let b := a.toNat % 256
  let lowAdj := if 9 < b % 16 ∨ fH fl = true then 0x06 else 0
  let high := decide (0x99 < b) || fC fl
  adjRes fl a ((b + lowAdj + (if high then 0x60 else 0)) % 256) high

/-- DAS (R321). -/
def dasRes (fl a : W64) : Res :=
  let b := a.toNat % 256
  let lowAdj := if 9 < b % 16 ∨ fH fl = false then 0x06 else 0
  let high := decide (0x99 < b) || !fC fl
  adjRes fl a ((b + 512 - lowAdj - (if high then 0x60 else 0)) % 256) (!high)

end Sys2Proof.Machine
end

