-- ==== Sys2Proof/Machine/Operands.lean ====
section
/-! DEFINITION. The operand forms of a VZ64 core (R299 to R302, R308, R311): instruction words by format, immediates, register reads
under the load delay, special registers. -/

namespace Sys2Proof.Machine

/-! ### Words (R302) -/

def wordR (g op rd ra rb : Nat) (sf : Bool) (fn : Nat) : Nat :=
  g * 2 ^ 28 + op * 2 ^ 22 + rd * 2 ^ 17 + ra * 2 ^ 12 + rb * 2 ^ 7 + Bool.nat sf * 2 ^ 6 + fn
def wordI (g op rd ra imm : Nat) : Nat := g * 2 ^ 28 + op * 2 ^ 22 + rd * 2 ^ 17 + ra * 2 ^ 12 + imm
def wordW (g op rd : Nat) (x : Bool) (imm : Nat) : Nat := g * 2 ^ 28 + op * 2 ^ 22 + rd * 2 ^ 17 + Bool.nat x * 2 ^ 16 + imm
def wordA (g op rd imm : Nat) : Nat := g * 2 ^ 28 + op * 2 ^ 22 + rd * 2 ^ 17 + imm
def wordB (g op cond disp : Nat) : Nat := g * 2 ^ 28 + op * 2 ^ 22 + cond * 2 ^ 18 + disp
def wordJ (g op disp : Nat) : Nat := g * 2 ^ 28 + op * 2 ^ 22 + disp
def wordX (g op imm : Nat) : Nat := g * 2 ^ 28 + op * 2 ^ 22 + imm
def wordP (g op mode : Nat) : Nat := g * 2 ^ 28 + op * 2 ^ 22 + mode

/-! ### Immediates -/

/-- Sign-extend a field of `w` bits. -/
def sext (w v : Nat) : W64 := (BitVec.ofNat w v).signExtend 64

/-- Zero-extend a field of `w` bits. -/
def zext (w v : Nat) : W64 := (BitVec.ofNat w v).zeroExtend 64

/-! ### Registers -/

/-- A register named in an explicit field: in a load delay slot the load's rd reads what it held before the load (R308). -/
def CoreSt.xreg (s : CoreSt) (i : Nat) : W64 :=
  match s.delay with
  | some (r, old) => if r = i ∧ i ≠ 0 then old else s.reg i
  | none => s.reg i

/-- The shift amount of rb (R311). -/
def shiftOf (b : W64) : Nat := b.toNat % 256

/-- The special registers of R299: the S registers, and all that exist. -/
def srIsS (sr : Nat) : Bool := (decide (8 ≤ sr) && decide (sr ≤ 13)) || sr == 15
def srExists (sr : Nat) : Bool := decide (sr ≤ 4) || srIsS sr

/-- coreid (R299). -/
def coreId (c : Nat) : W64 :=
  if c = 32 then 0x40#64 else BitVec.ofNat 64 (c / 8 + 4 * (c % 8) + 32 * Bool.nat (stewardCore c))

/-- A special register's value; cyc, the clock cycles since the part reset, is a free value (assumption 61). -/
def CoreSt.sr (s : CoreSt) (c sr cyc : Nat) : W64 :=
  match sr with
  | 0 => s.fl
  | 1 => s.rc
  | 2 => s.ctl
  | 3 => BitVec.ofNat 64 cyc
  | 4 => coreId c
  | 8 => s.pstat
  | 9 => s.tpc
  | 10 => s.tfl
  | 11 => s.tcause
  | 12 => s.tval
  | 13 => s.tbase
  | _ => s.scratch

/-- Write a special register within its writable bits; cyc and coreid are RO (R300). -/
def CoreSt.setSr (s : CoreSt) (sr : Nat) (v : W64) : CoreSt :=
  match sr with
  | 0 => { s with fl := v &&& flMask }
  | 1 => { s with rc := v }
  | 2 => { s with ctl := v &&& 1#64 }
  | 8 => { s with pstat := (v &&& 0x1E#64) ||| (s.pstat &&& 1#64) }
  | 9 => { s with tpc := v }
  | 10 => { s with tfl := v &&& flMask }
  | 11 => { s with tcause := v &&& 0xFFF#64 }
  | 12 => { s with tval := v }
  | 13 => { s with tbase := v &&& ~~~0xFFF#64 }
  | 15 => { s with scratch := v }
  | _ => s

end Sys2Proof.Machine
end

