-- ==== Sys2Proof/Machine/Vz.lean ====
section
/-! DEFINITION. How a VZ64 core executes an instruction (chapter 13 and R331 to R349): the instruction boundary with its interrupts,
the fetch checks, the order of R328, the address map with its memories and register windows, the load delay. A command names the
core and the instruction's fields; the core's pc and region table decide whether the fetch is permitted. -/

namespace Sys2Proof.Machine

/-! ### Instruction boundaries -/

/-- Can core `c` execute instructions at all: in service, out of reset, not retired? Core 32 is the security core. -/
def Dev.coreRuns (d : Dev) (c : Nat) : Bool :=
  d.f F.TOP_MODE_MODE != 0 && (c == 32 || (decide (c < 32) && d.quadOk (c / 8) && !d.isolated (c / 8) && decide (d.coreState c ≤ 3)))

/-- The pending event lines of a core that are enabled as interrupts (R404). -/
def Dev.linesDue (d : Dev) (c : Nat) : List Nat :=
  if c < 32 then (List.range 8).filter (fun i => bit (d.ef (F.EVT_CPEND_PEND c)) i && bit (d.ef (F.EVT_CPEND_EN c)) i) else []

/-- Is an event line pending, enabled or not? -/
def Dev.linePending (d : Dev) (c : Nat) : Bool := decide (c < 32) && d.ef (F.EVT_CPEND_PEND c) != 0

/-- Does the core take an interrupt at this boundary: enabled, not between a load and its slot (R308, R328), not under the debugger
(R422)? -/
def Dev.irqDue (d : Dev) (c : Nat) : Bool := (d.cpu c).ie && !(d.cpu c).stepping && (d.cpu c).delay.isNone && !(d.linesDue c).isEmpty

/-- Take a pending interrupt (R328, R329), between the steps of a REP pair or not. Which of several lines is a free value
(assumption 62). -/
def Dev.takeIrq (d : Dev) (c : Nat) (pair : Bool) : Dev :=
  match d.linesDue c with
  | [] => d
  | [l] => d.trap c 0x10 0 l (d.cpu c).pc.toNat pair false
  | ls =>
    let r := d.draw
    r.2.trap c 0x10 0 (ls.getD (Config.linePick r.1 % ls.length) 0) (d.cpu c).pc.toNat pair false

/-- A pending line ends WFE, whatever its enable is (R404). -/
def Dev.endWfe (d : Dev) (c : Nat) : Dev :=
  let d1 := d.setCpu c { d.cpu c with waiting := false }
  if (d1.cpu c).prv then d1.setCoreState c (d1.stateAtS c) else d1.setCoreState c 1

/-- Is a quantum end due here: one has waited, and the core runs its program at P, not between a load and its slot (R308, R346)? -/
def CoreSt.preemptDue (s : CoreSt) : Bool := s.preempt && !s.prv && !s.stepping && s.delay.isNone

/-- At an instruction boundary: a core that cannot run, is halted, or waits in WFE with no line pending does nothing; a quantum end or an
interrupt that is due is taken in place of the instruction; otherwise `k` follows. -/
def Dev.boundary (d : Dev) (c : Nat) (k : Dev → Dev) : Dev :=
  if ¬d.coreRuns c ∨ ((d.cpu c).halted ∧ ¬(d.cpu c).stepping) then d
  else
    let d1 := if (d.cpu c).waiting ∧ d.linePending c then d.endWfe c else d
    if (d1.cpu c).waiting then d1 else if (d1.cpu c).preemptDue then d1.quantumEnd c else if d1.irqDue c then d1.takeIrq c (d1.cpu c).inRep else k d1

/-- Trap at the current instruction. -/
def Dev.vzTrap (d : Dev) (c cause acc val : Nat) : Dev :=
  d.trap c cause acc val (d.cpu c).pc.toNat false (d.cpu c).delay.isSome

/-- An instruction of `n` words completes: pc moves past it, the load delay ends, it counts as retired. -/
def Dev.retire (d : Dev) (c n : Nat) (s : CoreSt) : Dev :=
  let d1 := (d.setCpu c { s with pc := s.pc + BitVec.ofNat 64 (4 * n), delay := none, inRep := false }).coreBump c 0 n
  match d1.atP c with
  | some x => d1.setInst { x with retired := x.retired + n }
  | none => d1

/-! ### The address map (R331 to R333) -/

/-- What an address of a core's map names: its TCM, a plot's SLM, device DRAM, the stream ports, the port registers, the digest
session window, control space; `gone` for a memory that is not there (R349), `hole` for an address in no range. -/
inductive Place where
  | tcm (a : Nat)
  | slm (p o : Nat)
  | dram (o : Nat)
  | pin (o : Nat)
  | pout (o : Nat)
  | port (o : Nat)
  | dgst (o : Nat)
  | csr (o : Nat)
  | gone
  | hole
  deriving DecidableEq, Repr

/-- Bytes of device DRAM in service. -/
def Dev.dramBytes (d : Dev) : Nat := (d.quads.map (fun q => d.f (F.MEMC_STAT_CAPGIB q))).sum * 2 ^ 30

/-- The plot of the program on a core. -/
def Dev.plotOn (d : Dev) (c : Nat) : Option Nat := (d.progOn c).map ProgInst.plot

/-- Where an address lies. Steward and security cores have 512 KiB of TCM and no port windows (R331; their map is PRESUMED, 63). -/
def Dev.mapAt (d : Dev) (c a : Nat) : Place :=
  if a < (if fieldCore c then 0x40000 else 0x80000) then .tcm a
  else if 0xF0000000 ≤ a ∧ a < 0xF2000000 then .csr (a - 0xF0000000)
  else if 0x20000000000 ≤ a then (if a - 0x20000000000 < d.dramBytes then .dram (a - 0x20000000000) else .gone)
  else if ¬fieldCore c then .hole
  else if 0x8000000 ≤ a ∧ a < 0x8008000 then .pin (a - 0x8000000)
  else if 0x8010000 ≤ a ∧ a < 0x8012000 then .pout (a - 0x8010000)
  else if 0x801F000 ≤ a ∧ a < 0x8020000 then .port (a - 0x801F000)
  else if 0x8020000 ≤ a ∧ a < 0x8020800 then .dgst (a - 0x8020000)
  else if 0x100000000 ≤ a ∧ a < 0x10100000000 then
    match d.plotOn c with
    | some p => if a - 0x100000000 < d.slmBytes p then .slm p (a - 0x100000000) else .gone
    | none => .gone
  else .hole

/-- Is it memory, and no window of registers? -/
def Place.isMem : Place → Bool
  | .tcm _ => true
  | .slm _ _ => true
  | .dram _ => true
  | _ => false

/-- The memory behind a place, and the offset in it. -/
def Dev.memOf (d : Dev) (c : Nat) : Place → Mem × Nat
  | .tcm a => ((d.cpu c).tcm, a)
  | .slm p o => (d.slm p, o)
  | .dram o => (d.trel.dram, o)
  | _ => (Mem.init, 0)

/-- Put a memory back. -/
def Dev.putMem (d : Dev) (c : Nat) (p : Place) (m : Mem) : Dev :=
  match p with
  | .tcm _ => d.setCpu c { d.cpu c with tcm := m }
  | .slm n _ => d.setSlm n m
  | .dram _ => { d with trel := { d.trel with dram := m } }
  | _ => d

/-! ### Register windows (R333, R340 to R342) -/

/-- The 16-byte sideband of a curd in CPORT_IN (R210). -/
def sideband (k : CurdIn) (job : Nat) : Nat :=
  k.vlen + 2 ^ 9 * Bool.nat k.first + 2 ^ 10 * Bool.nat k.last + 2 ^ 11 * (k.poison % 16) + 2 ^ 15 * Bool.nat k.untrusted +
  2 ^ 16 * k.rstart + 2 ^ 25 * k.rcount + 2 ^ 36 * k.offset + 2 ^ 84 * job + 2 ^ 100 * k.src + 2 ^ 108 * (k.cseq % 65536)

/-- Byte `o` of the CPORT_IN window (R340): zero in a slot with no delivered, unfreed curd; what lies past the sideband is not stated
(assumption 64). -/
def ProgInst.pinByte (x : ProgInst) (o : Nat) : Nat :=
  match x.inCurds.find? (fun k => k.1 % 64 == o / 0x200) with
  | none => 0
  | some k =>
    let i := o % 0x200
    if i < 0x100 then k.2.data / 256 ^ i % 256
    else if i < 0x110 then sideband k.2 (x.inSlot.getD 0) / 256 ^ (i - 0x100) % 256
    else Config.unstated (8 * o) 0 % 256

/-- Is that byte a poisoned payload byte? -/
def ProgInst.pinPoison (x : ProgInst) (o : Nat) : Bool :=
  match x.inCurds.find? (fun k => k.1 % 64 == o / 0x200) with
  | none => false
  | some k => decide (o % 0x200 < 0x100) && bit k.2.poison (o % 0x200 / 64)

/-- The port or ring register at a word offset (R342). -/
def Dev.portWord (d : Dev) (x : ProgInst) (o : Nat) : Nat :=
  if o = 0x000 then x.pinHead
  else if o = 0x004 then x.pinTail
  else if o = 0x008 then x.poutTail
  else if o = 0x00C then x.poutHead
  else if o = 0x010 then
    Bool.nat x.inLast + 2 * Bool.nat x.outLast + 4 * Bool.nat x.untr + 8 * Bool.nat (!x.launch.isIn) + 16 * Bool.nat (!x.launch.isOut)
  else if 0x100 ≤ o then
    match x.rings[(o - 0x100) / 0x10]? with
    | none => 0
    | some r =>
      if o % 0x10 = 0 then d.f (F.TREL_RSUB_SUB x.quad r)
      else if o % 0x10 = 4 then d.f (F.TREL_RACK_ACK x.quad r)
      else if o % 0x10 = 8 then d.f (F.TREL_RCMP_CMPSEQ x.quad r)
      else 0
  else 0

/-- A store of a word to a port or ring register; `none` where it traps PORT (R340 to R342). -/
def Dev.portStore (d : Dev) (x : ProgInst) (o v : Nat) : Option Dev :=
  if o = 0x004 then d.pinTail x v
  else if o = 0x008 then d.poutTail x v
  else if 0x100 ≤ o then
    match x.rings[(o - 0x100) / 0x10]? with
    | none => some d
    | some r =>
      if o % 0x10 = 0 then some (trelRsub x.quad r v d)
      else if o % 0x10 = 4 then some (trelRack x.quad r v d)
      else some d
  else some d

/-- Who a core is to control space and to the digest window: a program's plot there (R333). -/
def coreWho (c : Nat) : Who := ⟨c + 1, if c = 32 then 0x218 else 0x3FF⟩
def Dev.dgstWho (d : Dev) (c : Nat) : Who := ⟨c + 1, (d.plotOn c).getD 0x3FF⟩

/-- The control-space offset of an offset in the digest session window of a core (R333). -/
def dgstAddr (c o : Nat) : Nat := quadBase + 0x400000 * (c / 8) + 0x180000 + 0x100 + o

/-- Does a session's result read poisoned (R294)? -/
def Dev.dgstPoison (d : Dev) (c o : Nat) : Bool :=
  decide (0x60 ≤ o % 0x100) && decide (o % 0x100 < 0xA0) && (d.ses (c / 8) (o / 0x100)).poisoned

/-- What a load finds: the value, whether a byte of it is poisoned, and the state after it. -/
structure Found where
  val : Nat
  poison : Bool
  dev : Dev
  deriving DecidableEq, Repr

/-- Read `n` bytes at an aligned address. A port register read in part or in pairs reads the bytes of its words. -/
def Dev.peek (d : Dev) (c a n : Nat) : Found :=
  let p := d.mapAt c a
  match p with
  | .csr o =>
    let r := d.csrRead (coreWho c) o n
    ⟨r.1, false, r.2⟩
  | .dgst o =>
    if 0xF0 ≤ o % 0x100 then ⟨0, false, d⟩
    else
      let r := d.csrRead (d.dgstWho c) (dgstAddr c o) n
      ⟨r.1, d.dgstPoison c o, r.2⟩
  | .pin o =>
    match d.progOn c with
    | none => ⟨0, false, d⟩
    | some x => ⟨((List.range n).map (fun i => x.pinByte (o + i) * 256 ^ i)).sum, x.pinPoison o, d⟩
  | .pout o =>
    match d.progOn c with
    | none => ⟨0, false, d⟩
    | some x => ⟨leNat (x.out.bytes o n), x.out.poisonedRange o n, d⟩
  | .port o =>
    match d.progOn c with
    | none => ⟨0, false, d⟩
    | some x =>
      let w := d.portWord x (o / 4 * 4) + 2 ^ 32 * d.portWord x (o / 4 * 4 + 4)
      ⟨w / 256 ^ (o % 4) % 256 ^ n, false, d⟩
  | .tcm _ => ⟨leNat ((d.memOf c p).1.bytes (d.memOf c p).2 n), (d.memOf c p).1.poisonedRange (d.memOf c p).2 n, d⟩
  | .slm _ _ => ⟨leNat ((d.memOf c p).1.bytes (d.memOf c p).2 n), (d.memOf c p).1.poisonedRange (d.memOf c p).2 n, d⟩
  | .dram _ => ⟨leNat ((d.memOf c p).1.bytes (d.memOf c p).2 n), (d.memOf c p).1.poisonedRange (d.memOf c p).2 n, d⟩
  | .gone => ⟨0, false, d⟩
  | .hole => ⟨0, false, d⟩

/-- Write `n` bytes at an aligned address, with the poison a move carries; `none` where a port register refuses the store. A store
of less than a word to a port register changes those bytes of it, and one of two words stores both in ascending order. -/
def Dev.poke (d : Dev) (c a n v : Nat) (poison : Bool) : Option Dev :=
  let p := d.mapAt c a
  let marks : List Nat := if poison then [0] else []
  match p with
  | .csr o => some (d.csrWrite (coreWho c) o n v poison)
  | .dgst o => if 0xF0 ≤ o % 0x100 then some d else some (d.csrWrite (d.dgstWho c) (dgstAddr c o) n v poison)
  | .pin _ => some d
  | .pout o =>
    match d.progOn c with
    | none => some d
    | some x => some (d.setInst { x with out := x.out.store o (leBytes n v) marks })
  | .port o =>
    match d.progOn c with
    | none => some d
    | some x =>
      if n = 8 then
        match d.portStore x o (v % 2 ^ 32) with
        | none => none
        | some e =>
          match e.progOn c with
          | none => some e
          | some y => e.portStore y (o + 4) (v / 2 ^ 32)
      else
        let old := d.portWord x (o / 4 * 4)
        let k := 256 ^ (o % 4)
        d.portStore x (o / 4 * 4) (old - old / k % 256 ^ n * k + v % 256 ^ n * k)
  | .gone => some d
  | .hole => some d
  | .tcm _ => some (d.putMem c p ((d.memOf c p).1.store (d.memOf c p).2 (leBytes n v) marks))
  | .slm _ _ => some (d.putMem c p ((d.memOf c p).1.store (d.memOf c p).2 (leBytes n v) marks))
  | .dram _ => some (d.putMem c p ((d.memOf c p).1.store (d.memOf c p).2 (leBytes n v) marks))

/-! ### Checks of an access (R313, R328, R334, R349) -/

/-- The trap of an access of `n` bytes before its data is looked at, as (cause, tval): ALIGN, REGION, BUS. CAS works on memory alone
(R314). -/
def Dev.accTrap (d : Dev) (c a n : Nat) (k : Acc) : Option (Nat × Nat) :=
  let p := d.mapAt c a
  if a % n ≠ 0 then some (4, a)
  else if ¬d.rgnOk c a n (d.cpu c).prv k ∨ p = .hole ∨ (k = .atomic ∧ p ≠ .gone ∧ ¬p.isMem) then some (5, a)
  else if p = .gone then some (0xD, a)
  else none

/-- The trap of an instruction fetch at `a`: ALIGN, REGION, BUS, POISON. -/
def Dev.fetchTrap (d : Dev) (c a : Nat) : Option (Nat × Nat) :=
  let p := d.mapAt c a
  if a % 4 ≠ 0 then some (4, a)
  else if ¬d.rgnOk c a 4 (d.cpu c).prv .fetch ∨ p = .hole then some (5, a)
  else if ¬p.isMem then some (0xD, a)
  else if (d.memOf c p).1.poisonedRange (d.memOf c p).2 4 then some (6, a)
  else none

/-! ### The order of R328 -/

/-- An instruction at core `c`: fetch faults, a reserved word, the privilege check, the guard, then what it does. `resv` says that a
field of the word is reserved beside a guard of 0xF, `needS` that it runs at S alone. -/
def Dev.vz (d : Dev) (c g word : Nat) (resv needS : Bool) (body : CoreSt → Dev → Dev) : Dev :=
  d.boundary c (fun e =>
    match e.fetchTrap c (e.cpu c).pc.toNat with
    | some t => e.vzTrap c t.1 0 t.2
    | none =>
      if resv || g == 0xF then e.vzTrap c 1 0 word
      else if needS && !(e.cpu c).prv then e.vzTrap c 3 0 word
      else if !condHolds g (e.cpu c).fl then e.retire c 1 (e.cpu c)
      else body (e.cpu c) e)

/-! ### Forms -/

/-- A register ALU instruction with two operands: the result to rd, flags when S = 1 (R310). -/
def Dev.aluR (d : Dev) (fn c g rd ra rb : Nat) (sf : Bool) (op : W64 → W64 → W64 → Res) : Dev :=
  d.vz c g (wordR g 0x00 rd ra rb sf fn) false false (fun s e =>
    let r := op s.fl (s.xreg ra) (s.xreg rb)
    e.retire c 1 { s.setReg rd r.val with fl := if sf then r.fl else s.fl })

/-- One with a single operand; its rb field is zero. -/
def Dev.aluU (d : Dev) (fn c g rd ra : Nat) (sf : Bool) (op : W64 → W64 → Res) : Dev :=
  d.aluR fn c g rd ra 0 sf (fun fl a _ => op fl a)

/-- A division (R312): V and DZ whatever S is; by zero with ctl.DZT = 1 it traps with DZ set and rd unchanged. -/
def Dev.aluDiv (d : Dev) (fn c g rd ra rb : Nat) (sf signed rem : Bool) : Dev :=
  d.vz c g (wordR g 0x00 rd ra rb sf fn) false false (fun s e =>
    let r := divRes signed rem s.fl (s.xreg ra) (s.xreg rb)
    if s.xreg rb = 0#64 ∧ s.ctl.getLsbD 0 = true then (e.setCpu c { s with fl := setDZ s.fl }).vzTrap c 7 0 0
    else e.retire c 1 { s.setReg rd r.1.val with fl := if sf then r.1.fl else r.2 })

/-- A decimal instruction (R318, R319): an invalid digit traps DECIMAL with fl.DT = 1, and otherwise gives all ones. -/
def Dev.decR (d : Dev) (fn c g rd ra rb : Nat) (checkA checkB : Bool) (op : W64 → W64 → W64 → Res) : Dev :=
  let word := wordR g 0x01 rd ra rb false fn
  d.vz c g word false false (fun s e =>
    let a := s.xreg ra
    let b := s.xreg rb
    if (checkA && !decOk a) || (checkB && !decOk b) then
      if fDT s.fl then e.vzTrap c 8 0 word
      else
        let r := decInvalid s.fl
        e.retire c 1 { s.setReg rd r.val with fl := r.fl }
    else
      let r := op s.fl a b
      e.retire c 1 { s.setReg rd r.val with fl := r.fl })

/-- An immediate instruction: `imm` is the 12-bit field. -/
def Dev.aluI (d : Dev) (op c g rd ra imm : Nat) (resv sf : Bool) (f : W64 → W64 → Res) : Dev :=
  d.vz c g (wordI g op rd ra imm) resv false (fun s e =>
    let r := f s.fl (s.xreg ra)
    e.retire c 1 { s.setReg rd r.val with fl := if sf then r.fl else s.fl })

/-- The address of a load or store (R313). -/
def CoreSt.ea (s : CoreSt) (ra imm : Nat) : Nat := (s.xreg ra + sext 12 imm).toNat

/-- A load of `n` bytes (R313, R315): the loaded value is in rd at once, and the next instruction's explicit fields read the old one
(R308). -/
def Dev.load (d : Dev) (op c g rd ra imm n : Nat) (ext : Nat → W64) : Dev :=
  d.vz c g (wordI g op rd ra imm) false false (fun s e =>
    let a := s.ea ra imm
    match e.accTrap c a n .load with
    | some t => e.vzTrap c t.1 1 t.2
    | none =>
      let r := e.peek c a n
      if r.poison then e.vzTrap c 6 1 a
      else
        let s1 := r.dev.cpu c
        let d2 := r.dev.retire c 1 (s1.setReg rd (ext r.val))
        d2.setCpu c { d2.cpu c with delay := some (rd, s.reg rd) })

/-- A store of the low `n` bytes of the register in the rd field (R313). A port register that refuses it traps PORT. -/
def Dev.storeI (d : Dev) (op c g rd ra imm n : Nat) : Dev :=
  d.vz c g (wordI g op rd ra imm) false false (fun s e =>
    let a := s.ea ra imm
    match e.accTrap c a n .store with
    | some t => e.vzTrap c t.1 2 t.2
    | none =>
      match e.poke c a n ((s.xreg rd).toNat % 256 ^ n) false with
      | none => e.vzTrap c 0xC 2 a
      | some e1 => if e1.coreRuns c then e1.retire c 1 (e1.cpu c) else e1)

end Sys2Proof.Machine
end

