-- ==== Sys2Proof/Machine/VzAlu.lean ====
section
/-! DEFINITION. Register, division, decimal and immediate instructions of a VZ64 core (R310 to R312, R318 to R321). `c` is the core, `g`
the guard, `sf` the S bit, `imm` the immediate field. -/

namespace Sys2Proof.Machine

/-- Leading and trailing zero bits, 64 for zero. -/
def leadZeros (a : W64) : Nat := ((List.range 64).takeWhile (fun i => !a.getLsbD (63 - i))).length
def trailZeros (a : W64) : Nat := ((List.range 64).takeWhile (fun i => !a.getLsbD i)).length

/-- The 8 bytes in reverse order. -/
def byteSwap (a : W64) : W64 := BitVec.ofNat 64 (leNat (leBytes 8 a.toNat).reverse)

/-- ADD (R310): rd := ra + rb. -/
def vzAdd (c g rd ra rb : Nat) (sf : Bool) (d : Dev) : Dev :=
  d.aluR 0x00 c g rd ra rb sf (fun fl a b => addRes fl a b false)

def execAdd (c g rd ra rb : Nat) (sf : Bool) := run (vzAdd c g rd ra rb sf)

/-- ADC (R310): rd := ra + rb + C. -/
def vzAdc (c g rd ra rb : Nat) (sf : Bool) (d : Dev) : Dev :=
  d.aluR 0x01 c g rd ra rb sf (fun fl a b => addRes fl a b (fC fl))

def execAdc (c g rd ra rb : Nat) (sf : Bool) := run (vzAdc c g rd ra rb sf)

/-- SUB (R310): rd := ra − rb. -/
def vzSub (c g rd ra rb : Nat) (sf : Bool) (d : Dev) : Dev :=
  d.aluR 0x02 c g rd ra rb sf (fun fl a b => subRes fl a b true)

def execSub (c g rd ra rb : Nat) (sf : Bool) := run (vzSub c g rd ra rb sf)

/-- SBC (R310): rd := ra + NOT rb + C. -/
def vzSbc (c g rd ra rb : Nat) (sf : Bool) (d : Dev) : Dev :=
  d.aluR 0x03 c g rd ra rb sf (fun fl a b => subRes fl a b (fC fl))

def execSbc (c g rd ra rb : Nat) (sf : Bool) := run (vzSbc c g rd ra rb sf)

/-- AND (R310): bitwise and. -/
def vzAnd (c g rd ra rb : Nat) (sf : Bool) (d : Dev) : Dev :=
  d.aluR 0x05 c g rd ra rb sf (fun fl a b => resNZ fl (a &&& b))

def execAnd (c g rd ra rb : Nat) (sf : Bool) := run (vzAnd c g rd ra rb sf)

/-- OR (R310): bitwise or. -/
def vzOr (c g rd ra rb : Nat) (sf : Bool) (d : Dev) : Dev :=
  d.aluR 0x06 c g rd ra rb sf (fun fl a b => resNZ fl (a ||| b))

def execOr (c g rd ra rb : Nat) (sf : Bool) := run (vzOr c g rd ra rb sf)

/-- XOR (R310): bitwise exclusive or. -/
def vzXor (c g rd ra rb : Nat) (sf : Bool) (d : Dev) : Dev :=
  d.aluR 0x07 c g rd ra rb sf (fun fl a b => resNZ fl (a ^^^ b))

def execXor (c g rd ra rb : Nat) (sf : Bool) := run (vzXor c g rd ra rb sf)

/-- ANDN (R310): ra AND NOT rb. -/
def vzAndn (c g rd ra rb : Nat) (sf : Bool) (d : Dev) : Dev :=
  d.aluR 0x08 c g rd ra rb sf (fun fl a b => resNZ fl (a &&& ~~~b))

def execAndn (c g rd ra rb : Nat) (sf : Bool) := run (vzAndn c g rd ra rb sf)

/-- ORN (R310): ra OR NOT rb. -/
def vzOrn (c g rd ra rb : Nat) (sf : Bool) (d : Dev) : Dev :=
  d.aluR 0x09 c g rd ra rb sf (fun fl a b => resNZ fl (a ||| ~~~b))

def execOrn (c g rd ra rb : Nat) (sf : Bool) := run (vzOrn c g rd ra rb sf)

/-- SHL (R311): shift left by rb[7:0]. -/
def vzShl (c g rd ra rb : Nat) (sf : Bool) (d : Dev) : Dev :=
  d.aluR 0x0C c g rd ra rb sf (fun fl a b => shlRes fl a (shiftOf b))

def execShl (c g rd ra rb : Nat) (sf : Bool) := run (vzShl c g rd ra rb sf)

/-- SHR (R311): logical shift right by rb[7:0]. -/
def vzShr (c g rd ra rb : Nat) (sf : Bool) (d : Dev) : Dev :=
  d.aluR 0x0D c g rd ra rb sf (fun fl a b => shrRes fl a (shiftOf b))

def execShr (c g rd ra rb : Nat) (sf : Bool) := run (vzShr c g rd ra rb sf)

/-- SAR (R311): arithmetic shift right by rb[7:0]. -/
def vzSar (c g rd ra rb : Nat) (sf : Bool) (d : Dev) : Dev :=
  d.aluR 0x0E c g rd ra rb sf (fun fl a b => sarRes fl a (shiftOf b))

def execSar (c g rd ra rb : Nat) (sf : Bool) := run (vzSar c g rd ra rb sf)

/-- ROR (R311): rotate right by rb mod 64. -/
def vzRor (c g rd ra rb : Nat) (sf : Bool) (d : Dev) : Dev :=
  d.aluR 0x0F c g rd ra rb sf (fun fl a b => rorRes fl a (shiftOf b))

def execRor (c g rd ra rb : Nat) (sf : Bool) := run (vzRor c g rd ra rb sf)

/-- ROL (R311): rotate left by rb mod 64. -/
def vzRol (c g rd ra rb : Nat) (sf : Bool) (d : Dev) : Dev :=
  d.aluR 0x10 c g rd ra rb sf (fun fl a b => rolRes fl a (shiftOf b))

def execRol (c g rd ra rb : Nat) (sf : Bool) := run (vzRol c g rd ra rb sf)

/-- MUL (R310): low 64 bits of the product. -/
def vzMul (c g rd ra rb : Nat) (sf : Bool) (d : Dev) : Dev :=
  d.aluR 0x14 c g rd ra rb sf (fun fl a b => mulRes fl a b)

def execMul (c g rd ra rb : Nat) (sf : Bool) := run (vzMul c g rd ra rb sf)

/-- MULHU (R310): high 64 bits of the unsigned product. -/
def vzMulhu (c g rd ra rb : Nat) (sf : Bool) (d : Dev) : Dev :=
  d.aluR 0x15 c g rd ra rb sf (fun fl a b => mulhRes fl (mulhuVal a b))

def execMulhu (c g rd ra rb : Nat) (sf : Bool) := run (vzMulhu c g rd ra rb sf)

/-- MULHS (R310): high 64 bits of the signed product. -/
def vzMulhs (c g rd ra rb : Nat) (sf : Bool) (d : Dev) : Dev :=
  d.aluR 0x16 c g rd ra rb sf (fun fl a b => mulhRes fl (mulhsVal a b))

def execMulhs (c g rd ra rb : Nat) (sf : Bool) := run (vzMulhs c g rd ra rb sf)

/-- NEG (R310): rd := 0 − ra. -/
def vzNeg (c g rd ra : Nat) (sf : Bool) (d : Dev) : Dev :=
  d.aluU 0x04 c g rd ra sf (fun fl a => subRes fl 0#64 a true)

def execNeg (c g rd ra : Nat) (sf : Bool) := run (vzNeg c g rd ra sf)

/-- SXTB (R310): sign-extend a byte. -/
def vzSxtb (c g rd ra : Nat) (sf : Bool) (d : Dev) : Dev :=
  d.aluU 0x1C c g rd ra sf (fun fl a => resNZ fl (sext 8 a.toNat))

def execSxtb (c g rd ra : Nat) (sf : Bool) := run (vzSxtb c g rd ra sf)

/-- SXTH (R310): sign-extend a halfword. -/
def vzSxth (c g rd ra : Nat) (sf : Bool) (d : Dev) : Dev :=
  d.aluU 0x1D c g rd ra sf (fun fl a => resNZ fl (sext 16 a.toNat))

def execSxth (c g rd ra : Nat) (sf : Bool) := run (vzSxth c g rd ra sf)

/-- SXTW (R310): sign-extend a word. -/
def vzSxtw (c g rd ra : Nat) (sf : Bool) (d : Dev) : Dev :=
  d.aluU 0x1E c g rd ra sf (fun fl a => resNZ fl (sext 32 a.toNat))

def execSxtw (c g rd ra : Nat) (sf : Bool) := run (vzSxtw c g rd ra sf)

/-- ZXTW (R310): zero-extend a word. -/
def vzZxtw (c g rd ra : Nat) (sf : Bool) (d : Dev) : Dev :=
  d.aluU 0x1F c g rd ra sf (fun fl a => resNZ fl (zext 32 a.toNat))

def execZxtw (c g rd ra : Nat) (sf : Bool) := run (vzZxtw c g rd ra sf)

/-- CLZ (R310): leading zero bits. -/
def vzClz (c g rd ra : Nat) (sf : Bool) (d : Dev) : Dev :=
  d.aluU 0x20 c g rd ra sf (fun fl a => resNZ fl (BitVec.ofNat 64 (leadZeros a)))

def execClz (c g rd ra : Nat) (sf : Bool) := run (vzClz c g rd ra sf)

/-- CTZ (R310): trailing zero bits. -/
def vzCtz (c g rd ra : Nat) (sf : Bool) (d : Dev) : Dev :=
  d.aluU 0x21 c g rd ra sf (fun fl a => resNZ fl (BitVec.ofNat 64 (trailZeros a)))

def execCtz (c g rd ra : Nat) (sf : Bool) := run (vzCtz c g rd ra sf)

/-- POPC (R310): one bits. -/
def vzPopc (c g rd ra : Nat) (sf : Bool) (d : Dev) : Dev :=
  d.aluU 0x22 c g rd ra sf (fun fl a => resNZ fl (BitVec.ofNat 64 (popCount 64 a.toNat)))

def execPopc (c g rd ra : Nat) (sf : Bool) := run (vzPopc c g rd ra sf)

/-- BSWAP (R310): reverse the 8 bytes. -/
def vzBswap (c g rd ra : Nat) (sf : Bool) (d : Dev) : Dev :=
  d.aluU 0x23 c g rd ra sf (fun fl a => resNZ fl (byteSwap a))

def execBswap (c g rd ra : Nat) (sf : Bool) := run (vzBswap c g rd ra sf)

/-- DIVU (R312): unsigned quotient. -/
def vzDivu (c g rd ra rb : Nat) (sf : Bool) (d : Dev) : Dev :=
  d.aluDiv 0x18 c g rd ra rb sf false false

def execDivu (c g rd ra rb : Nat) (sf : Bool) := run (vzDivu c g rd ra rb sf)

/-- DIVS (R312): signed quotient. -/
def vzDivs (c g rd ra rb : Nat) (sf : Bool) (d : Dev) : Dev :=
  d.aluDiv 0x19 c g rd ra rb sf true false

def execDivs (c g rd ra rb : Nat) (sf : Bool) := run (vzDivs c g rd ra rb sf)

/-- REMU (R312): unsigned remainder. -/
def vzRemu (c g rd ra rb : Nat) (sf : Bool) (d : Dev) : Dev :=
  d.aluDiv 0x1A c g rd ra rb sf false true

def execRemu (c g rd ra rb : Nat) (sf : Bool) := run (vzRemu c g rd ra rb sf)

/-- REMS (R312): signed remainder. -/
def vzRems (c g rd ra rb : Nat) (sf : Bool) (d : Dev) : Dev :=
  d.aluDiv 0x1B c g rd ra rb sf true true

def execRems (c g rd ra rb : Nat) (sf : Bool) := run (vzRems c g rd ra rb sf)

/-- DADD (R320): decimal addition. -/
def vzDadd (c g rd ra rb : Nat) (d : Dev) : Dev :=
  d.decR 0 c g rd ra rb true true (fun fl a b => daddRes fl a b false)

def execDadd (c g rd ra rb : Nat) := run (vzDadd c g rd ra rb)

/-- DADC (R320): decimal addition with carry. -/
def vzDadc (c g rd ra rb : Nat) (d : Dev) : Dev :=
  d.decR 1 c g rd ra rb true true (fun fl a b => daddRes fl a b (fC fl))

def execDadc (c g rd ra rb : Nat) := run (vzDadc c g rd ra rb)

/-- DSUB (R320): decimal subtraction. -/
def vzDsub (c g rd ra rb : Nat) (d : Dev) : Dev :=
  d.decR 2 c g rd ra rb true true (fun fl a b => dsubRes fl a b false)

def execDsub (c g rd ra rb : Nat) := run (vzDsub c g rd ra rb)

/-- DSBC (R320): decimal subtraction with borrow. -/
def vzDsbc (c g rd ra rb : Nat) (d : Dev) : Dev :=
  d.decR 3 c g rd ra rb true true (fun fl a b => dsubRes fl a b (!fC fl))

def execDsbc (c g rd ra rb : Nat) := run (vzDsbc c g rd ra rb)

/-- DAA (R320): decimal adjust after an addition (R321). -/
def vzDaa (c g rd ra : Nat) (d : Dev) : Dev :=
  d.decR 4 c g rd ra 0 false false (fun fl a _ => daaRes fl a)

def execDaa (c g rd ra : Nat) := run (vzDaa c g rd ra)

/-- DAS (R320): decimal adjust after a subtraction (R321). -/
def vzDas (c g rd ra : Nat) (d : Dev) : Dev :=
  d.decR 5 c g rd ra 0 false false (fun fl a _ => dasRes fl a)

def execDas (c g rd ra : Nat) := run (vzDas c g rd ra)

/-- CVBD (R320): binary to BCD. -/
def vzCvbd (c g rd ra : Nat) (d : Dev) : Dev :=
  d.decR 6 c g rd ra 0 false false (fun fl a _ => cvbdRes fl a)

def execCvbd (c g rd ra : Nat) := run (vzCvbd c g rd ra)

/-- CVDB (R320): BCD to binary. `unused` is the rb field of the word, which the row does not use; a trap's tval holds it. -/
def vzCvdb (c g rd ra unused : Nat) (d : Dev) : Dev :=
  d.decR 7 c g rd ra (unused % 32) true false (fun fl a _ => cvdbRes fl a)

def execCvdb (c g rd ra unused : Nat) := run (vzCvdb c g rd ra unused)

/-- ADDI (R310): add. -/
def vzAddi (c g rd ra imm : Nat) (d : Dev) : Dev :=
  d.aluI 0x02 c g rd ra imm false false (fun fl a => addRes fl a (sext 12 imm) false)

def execAddi (c g rd ra imm : Nat) := run (vzAddi c g rd ra imm)

/-- ADDIS (R310): add, setting flags. -/
def vzAddis (c g rd ra imm : Nat) (d : Dev) : Dev :=
  d.aluI 0x03 c g rd ra imm false true (fun fl a => addRes fl a (sext 12 imm) false)

def execAddis (c g rd ra imm : Nat) := run (vzAddis c g rd ra imm)

/-- SUBIS (R310): subtract, setting flags. -/
def vzSubis (c g rd ra imm : Nat) (d : Dev) : Dev :=
  d.aluI 0x04 c g rd ra imm false true (fun fl a => subRes fl a (sext 12 imm) true)

def execSubis (c g rd ra imm : Nat) := run (vzSubis c g rd ra imm)

/-- ANDI (R310): and. -/
def vzAndi (c g rd ra imm : Nat) (d : Dev) : Dev :=
  d.aluI 0x05 c g rd ra imm false false (fun fl a => resNZ fl (a &&& sext 12 imm))

def execAndi (c g rd ra imm : Nat) := run (vzAndi c g rd ra imm)

/-- ORI (R310): or. -/
def vzOri (c g rd ra imm : Nat) (d : Dev) : Dev :=
  d.aluI 0x06 c g rd ra imm false false (fun fl a => resNZ fl (a ||| sext 12 imm))

def execOri (c g rd ra imm : Nat) := run (vzOri c g rd ra imm)

/-- XORI (R310): exclusive or. -/
def vzXori (c g rd ra imm : Nat) (d : Dev) : Dev :=
  d.aluI 0x07 c g rd ra imm false false (fun fl a => resNZ fl (a ^^^ sext 12 imm))

def execXori (c g rd ra imm : Nat) := run (vzXori c g rd ra imm)

/-- ANDIS (R310): and, setting N and Z. -/
def vzAndis (c g rd ra imm : Nat) (d : Dev) : Dev :=
  d.aluI 0x08 c g rd ra imm false true (fun fl a => resNZ fl (a &&& sext 12 imm))

def execAndis (c g rd ra imm : Nat) := run (vzAndis c g rd ra imm)

/-- SHLI (R311): shift left. -/
def vzShli (c g rd ra imm : Nat) (d : Dev) : Dev :=
  d.aluI 0x09 c g rd ra imm (decide (256 ≤ imm)) false (fun fl a => shlRes fl a imm)

def execShli (c g rd ra imm : Nat) := run (vzShli c g rd ra imm)

/-- SHRI (R311): logical shift right. -/
def vzShri (c g rd ra imm : Nat) (d : Dev) : Dev :=
  d.aluI 0x0A c g rd ra imm (decide (256 ≤ imm)) false (fun fl a => shrRes fl a imm)

def execShri (c g rd ra imm : Nat) := run (vzShri c g rd ra imm)

/-- SARI (R311): arithmetic shift right. -/
def vzSari (c g rd ra imm : Nat) (d : Dev) : Dev :=
  d.aluI 0x0B c g rd ra imm (decide (256 ≤ imm)) false (fun fl a => sarRes fl a imm)

def execSari (c g rd ra imm : Nat) := run (vzSari c g rd ra imm)

/-- RORI (R311): rotate right. -/
def vzRori (c g rd ra imm : Nat) (d : Dev) : Dev :=
  d.aluI 0x0C c g rd ra imm (decide (256 ≤ imm)) false (fun fl a => rorRes fl a imm)

def execRori (c g rd ra imm : Nat) := run (vzRori c g rd ra imm)

/-- SETI (R302): rd := the 16-bit immediate, sign-extended with X = 1. -/
def vzSeti (c g rd : Nat) (x : Bool) (imm : Nat) (d : Dev) : Dev :=
  d.vz c g (wordW g 0x0E rd x imm) false false (fun s e =>
    e.retire c 1 (s.setReg rd (if x then sext 16 imm else zext 16 imm)))

def execSeti (c g rd : Nat) (x : Bool) (imm : Nat) := run (vzSeti c g rd x imm)

/-- SHIN (R302): rd := rd shifted left by 16, or the immediate; X = 1 is reserved. -/
def vzShin (c g rd : Nat) (x : Bool) (imm : Nat) (d : Dev) : Dev :=
  d.vz c g (wordW g 0x10 rd x imm) x false (fun s e =>
    e.retire c 1 (s.setReg rd ((s.xreg rd <<< 16) ||| zext 16 imm)))

def execShin (c g rd : Nat) (x : Bool) (imm : Nat) := run (vzShin c g rd x imm)

/-- ADDPC (R302): rd := pc plus the 17-bit immediate. -/
def vzAddpc (c g rd imm : Nat) (d : Dev) : Dev :=
  d.vz c g (wordA g 0x12 rd imm) false false (fun s e =>
    e.retire c 1 (s.setReg rd (s.pc + sext 17 imm)))

def execAddpc (c g rd imm : Nat) := run (vzAddpc c g rd imm)

end Sys2Proof.Machine
end

