-- ==== Sys2Proof/Machine/VzBlock.lean ====
section
/-! DEFINITION. Block instructions and REP (R323 to R326). -/

namespace Sys2Proof.Machine

/-- What a block step does with memory (R323): move, fill, compare, scan, of 1 or 8 bytes. -/
inductive BlockKind where
  | move | fill | compare | scan
  deriving DecidableEq, Repr

/-- The step of a FN of the block group: its kind and size. -/
def blockOf (fn : Nat) : BlockKind × Nat :=
  (match fn / 2 with
   | 0 => .move
   | 1 => .fill
   | 2 => .compare
   | _ => .scan, if fn % 2 = 0 then 1 else 8)

/-- A step's outcome: the state after it, or a trap as (cause, ACC, tval). -/
inductive StepOut where
  | next (d : Dev)
  | trap (cause acc val : Nat)
  deriving DecidableEq, Repr

/-- The first trap of a step's accesses in the order of R328: ALIGN of either, then REGION or BUS of either, the source first. -/
def Dev.blockTrap (d : Dev) (c n : Nat) (uses : List (Nat × Acc)) : Option (Nat × Nat × Nat) :=
  let found := uses.filterMap (fun u => (d.accTrap c u.1 n u.2).map (fun t => (t.1, accCode u.2, t.2)))
  match found.find? (fun t => t.1 == 4) with
  | some t => some t
  | none => found.head?

/-- One step of a block instruction (R323, R326): implicit operands read current values; a compare or scan of a poisoned byte traps,
a move carries the mark. pc does not move here. -/
def Dev.blockStep (d : Dev) (c fn : Nat) : StepOut :=
  let s := d.cpu c
  let k := (blockOf fn).1
  let n := (blockOf fn).2
  let a1 := (s.reg 1).toNat
  let a2 := (s.reg 2).toNat
  let v3 := (s.reg 3).toNat % 256 ^ n
  let inc := BitVec.ofNat 64 n
  let up1 (x : CoreSt) : CoreSt := x.setReg 1 (x.reg 1 + inc)
  let up2 (x : CoreSt) : CoreSt := x.setReg 2 (x.reg 2 + inc)
  match k with
  | .move =>
    match d.blockTrap c n [(a1, .load), (a2, .store)] with
    | some t => .trap t.1 t.2.1 t.2.2
    | none =>
      let r := d.peek c a1 n
      match r.dev.poke c a2 n r.val r.poison with
      | none => .trap 0xC 2 a2
      | some e => .next (e.setCpu c (up2 (up1 (e.cpu c))))
  | .fill =>
    match d.blockTrap c n [(a2, .store)] with
    | some t => .trap t.1 t.2.1 t.2.2
    | none =>
      match d.poke c a2 n v3 false with
      | none => .trap 0xC 2 a2
      | some e => .next (e.setCpu c (up2 (e.cpu c)))
  | .compare =>
    match d.blockTrap c n [(a1, .load), (a2, .load)] with
    | some t => .trap t.1 t.2.1 t.2.2
    | none =>
      let r1 := d.peek c a1 n
      let r2 := r1.dev.peek c a2 n
      if r1.poison then .trap 6 1 a1
      else if r2.poison then .trap 6 1 a2
      else
        let x := r2.dev.cpu c
        let f := (subRes x.fl (BitVec.ofNat 64 r1.val) (BitVec.ofNat 64 r2.val) true).fl
        .next (r2.dev.setCpu c { up2 (up1 x) with fl := f })
  | .scan =>
    match d.blockTrap c n [(a2, .load)] with
    | some t => .trap t.1 t.2.1 t.2.2
    | none =>
      let r := d.peek c a2 n
      if r.poison then .trap 6 1 a2
      else
        let x := r.dev.cpu c
        let f := (subRes x.fl (BitVec.ofNat 64 v3) (BitVec.ofNat 64 r.val) true).fl
        .next (r.dev.setCpu c { up2 x with fl := f })

/-- A block instruction without REP: one step, rc unchanged (R323). -/
def Dev.block (d : Dev) (fn c g : Nat) : Dev :=
  d.vz c g (wordR g 0x3D 0 0 0 false fn) false false (fun _ e =>
    match e.blockStep c fn with
    | .trap t a v => e.vzTrap c t a v
    | .next e1 => if e1.coreRuns c then e1.retire c 1 (e1.cpu c) else e1)

/-- MOVB (R323). -/
def vzMovb (c g : Nat) (d : Dev) : Dev := d.block 0x00 c g
def execMovb (c g : Nat) := run (vzMovb c g)

/-- MOVD (R323). -/
def vzMovd (c g : Nat) (d : Dev) : Dev := d.block 0x01 c g
def execMovd (c g : Nat) := run (vzMovd c g)

/-- FILB (R323). -/
def vzFilb (c g : Nat) (d : Dev) : Dev := d.block 0x02 c g
def execFilb (c g : Nat) := run (vzFilb c g)

/-- FILD (R323). -/
def vzFild (c g : Nat) (d : Dev) : Dev := d.block 0x03 c g
def execFild (c g : Nat) := run (vzFild c g)

/-- CMPB (R323). -/
def vzCmpb (c g : Nat) (d : Dev) : Dev := d.block 0x04 c g
def execCmpb (c g : Nat) := run (vzCmpb c g)

/-- CMPD (R323). -/
def vzCmpd (c g : Nat) (d : Dev) : Dev := d.block 0x05 c g
def execCmpd (c g : Nat) := run (vzCmpd c g)

/-- SCNB (R323). -/
def vzScnb (c g : Nat) (d : Dev) : Dev := d.block 0x06 c g
def execScnb (c g : Nat) := run (vzScnb c g)

/-- SCND (R323). -/
def vzScnd (c g : Nat) (d : Dev) : Dev := d.block 0x07 c g
def execScnd (c g : Nat) := run (vzScnd c g)

/-! ### REP (R324 to R326) -/

/-- Is the word a block instruction with guard AL (R324)? Its guard, rd, ra, rb and S are zero. -/
def isBlockAL (w : Nat) : Bool := decide (w / 8 = 0x3D * 2 ^ 19)

/-- Does REP with this mode accept the following word (R324)? REPE and REPNE take compares and scans alone. -/
def repAccepts (mode next : Nat) : Bool := isBlockAL next && (mode == 0 || decide (4 ≤ next % 8))

/-- A trap at a REP pair. -/
def Dev.repTrap (d : Dev) (c cause acc val : Nat) : Dev :=
  d.trap c cause acc val (d.cpu c).pc.toNat true (d.cpu c).delay.isSome

/-- The loop of R325, at most `k` steps: the pair ends when rc is 0 or the mode's condition holds; a pending enabled interrupt, and
the end of the steps allowed here, leave pc at the REP. -/
def Dev.repLoop (c mode fn : Nat) : Nat → Dev → Dev
  | 0, d =>
    if ¬d.coreRuns c then d
    else if (d.cpu c).rc = 0#64 then d.retire c 2 (d.cpu c)
    else d.setCpu c { d.cpu c with inRep := true }
  | k + 1, d =>
    if ¬d.coreRuns c then d
    else if (d.cpu c).rc = 0#64 then d.retire c 2 (d.cpu c)
    else if d.irqDue c then d.takeIrq c true
    else match d.blockStep c fn with
      | .trap t a v => d.repTrap c t a v
      | .next e =>
        let s := e.cpu c
        let e1 := e.setCpu c { s with rc := s.rc - 1#64, delay := none }
        if (mode = 1 ∧ fZ s.fl = false) ∨ (mode = 2 ∧ fZ s.fl = true) then e1.retire c 2 (e1.cpu c)
        else Dev.repLoop c mode fn k e1

/-- REP (R324, R325): `next` is the following word; `upto` steps run in this command, fewer where the pair ends sooner. When steps
remain, pc stays at the REP and running the pair again continues it. MODE 3 is reserved. -/
def vzRep (c g mode next upto : Nat) (d : Dev) : Dev :=
  d.boundary c (fun e =>
    let pc := (e.cpu c).pc.toNat
    match e.fetchTrap c pc with
    | some t => e.vzTrap c t.1 0 t.2
    | none =>
      if g = 0xF ∨ mode = 3 then e.vzTrap c 1 0 (wordP g 0x3C mode)
      else match e.fetchTrap c ((pc + 4) % 2 ^ 64) with
        | some t => e.repTrap c t.1 0 ((pc + 4) % 2 ^ 64)
        | none =>
          if ¬repAccepts mode next then e.repTrap c 2 0 next
          else if !condHolds g (e.cpu c).fl then e.retire c 2 (e.cpu c)
          else Dev.repLoop c mode (next % 8) upto e)

def execRep (c g mode next upto : Nat) := run (vzRep c g mode next upto)

end Sys2Proof.Machine
end

