-- ==== Sys2Proof/Machine/VzFlow.lean ====
section
/-! DEFINITION. Branches and system instructions of a VZ64 core, and the interrupt (R300, R305, R309, R316, R317, R327 to R330, R347). -/

namespace Sys2Proof.Machine

/-- An instruction that jumps completes: pc is the target, the load delay ends. -/
def Dev.jump (d : Dev) (c : Nat) (s : CoreSt) (target : W64) : Dev :=
  let d1 := d.retire c 1 s
  d1.setCpu c { d1.cpu c with pc := target }

/-- A displacement of `w` bits in words, from the branch (R316). -/
def branchTo (pc : W64) (w disp : Nat) : W64 := pc + 4#64 * sext w disp

/-- BCC (R316): a conditional branch; cond 0xF is reserved. -/
def vzBcc (c g cond disp : Nat) (d : Dev) : Dev :=
  d.vz c g (wordB g 0x30 cond disp) (cond == 0xF) false (fun s e =>
    if condHolds cond s.fl then e.jump c s (branchTo s.pc 18 disp) else e.retire c 1 s)

def execBcc (c g cond disp : Nat) := run (vzBcc c g cond disp)

/-- B (R316). -/
def vzB (c g disp : Nat) (d : Dev) : Dev :=
  d.vz c g (wordJ g 0x31 disp) false false (fun s e => e.jump c s (branchTo s.pc 22 disp))

def execB (c g disp : Nat) := run (vzB c g disp)

/-- BL (R316): g31 takes the address of the next instruction. -/
def vzBl (c g disp : Nat) (d : Dev) : Dev :=
  d.vz c g (wordJ g 0x32 disp) false false (fun s e => e.jump c (s.setReg 31 (s.pc + 4#64)) (branchTo s.pc 22 disp))

def execBl (c g disp : Nat) := run (vzBl c g disp)

/-- A branch to a register: a target that is not a multiple of 4 traps ALIGN at the branch (R316). -/
def Dev.branchReg (d : Dev) (fn c g ra : Nat) (link : Bool) : Dev :=
  d.vz c g (wordR g 0x33 0 ra 0 false fn) false false (fun s e =>
    let t := s.xreg ra
    if t.toNat % 4 ≠ 0 then e.vzTrap c 4 0 t.toNat
    else e.jump c (if link then s.setReg 31 (s.pc + 4#64) else s) t)

/-- BR (R316). -/
def vzBr (c g ra : Nat) (d : Dev) : Dev := d.branchReg 0x00 c g ra false

def execBr (c g ra : Nat) := run (vzBr c g ra)

/-- BLR (R316). -/
def vzBlr (c g ra : Nat) (d : Dev) : Dev := d.branchReg 0x01 c g ra true

def execBlr (c g ra : Nat) := run (vzBlr c g ra)

/-- MFSR (R300): an sr outside the table traps RESERVED_OP, an S register at P traps PRIV. `unused` is bits [11:6] of the word, which
this format does not use and no rule requires to be zero; a trap's tval holds them. -/
def vzMfsr (c g rd sr unused : Nat) (d : Dev) : Dev :=
  d.vz c g (wordR g 0x38 rd sr 0 false 0x00 + 2 ^ 6 * (unused % 2 ^ 6)) (!srExists sr) (srIsS sr) (fun s e =>
    let r := e.draw
    if sr = 3 then r.2.retire c 1 (s.setReg rd (s.sr c sr (Config.cycles r.1)))
    else e.retire c 1 (s.setReg rd (s.sr c sr 0)))

def execMfsr (c g rd sr unused : Nat) := run (vzMfsr c g rd sr unused)

/-- MTSR (R300, R317): the sr is named in the rd field; `unused` is bits [11:6] of the word. -/
def vzMtsr (c g sr ra unused : Nat) (d : Dev) : Dev :=
  d.vz c g (wordR g 0x38 sr ra 0 false 0x01 + 2 ^ 6 * (unused % 2 ^ 6)) (!srExists sr) (srIsS sr) (fun s e => e.retire c 1 (s.setSr sr (s.xreg ra)))

def execMtsr (c g sr ra unused : Nat) := run (vzMtsr c g sr ra unused)

/-- RTE (R330): at S only. `unused` is bits [21:6] of the word. -/
def vzRte (c g unused : Nat) (d : Dev) : Dev :=
  d.vz c g (wordR g 0x38 0 0 0 false 0x02 + 2 ^ 6 * (unused % 2 ^ 16)) false true (fun s e => (e.retire c 1 s).rte c)

def execRte (c g unused : Nat) := run (vzRte c g unused)

/-- FENCE (R309): every earlier access is complete before a later one; accesses here complete at once. -/
def vzFence (c g : Nat) (d : Dev) : Dev :=
  d.vz c g (wordR g 0x38 0 0 0 false 0x03) false false (fun s e => e.retire c 1 s)

def execFence (c g : Nat) := run (vzFence c g)

/-- WFE (R347): with a line pending it returns at once. At P the program gives up the core until a curd, a port advance or a
completion entry makes it runnable; elsewhere the core waits. -/
def vzWfe (c g : Nat) (d : Dev) : Dev :=
  d.vz c g (wordR g 0x38 0 0 0 false 0x04) false false (fun s e =>
    let e1 := e.retire c 1 s
    if e1.linePending c then e1
    else match e1.atP c with
      | some x =>
        let e2 := e1.offCore c x true
        match e2.inst? x.tag with
        | some y => (e2.setInst { y with waiting := true }).grantCore c
        | none => e2
      | none => (e1.setCpu c { e1.cpu c with waiting := true }).setCoreState c 3)

def execWfe (c g : Nat) := run (vzWfe c g)

/-- SVC (R327, R351): at P on a field core 0 ends the program, 1 ends the quantum and 2 resumes from a delegated trap; any other
immediate, and every SVC at S, traps with tpc the next instruction. -/
def vzSvc (c g imm : Nat) (d : Dev) : Dev :=
  d.vz c g (wordX g 0x39 imm) false false (fun s e =>
    let trap : Dev := e.trap c 9 0 imm (s.pc + 4#64).toNat false s.delay.isSome
    match e.atP c with
    | none => trap
    | some x =>
      if imm = 0 then e.svcExit c x
      else if imm = 1 then e.svcYield c
      else if imm = 2 then e.svcResume c x
      else trap)

def execSvc (c g imm : Nat) := run (vzSvc c g imm)

/-- BRK (R327). -/
def vzBrk (c g imm : Nat) (d : Dev) : Dev :=
  d.vz c g (wordX g 0x3A imm) false false (fun _ e => e.vzTrap c 0xA 0 imm)

def execBrk (c g imm : Nat) := run (vzBrk c g imm)

/-- INTERRUPT (R328, R404): at an instruction boundary a core takes a pending enabled line; one that waits in WFE wakes. With none
due nothing happens. -/
def vzInterrupt (c : Nat) (d : Dev) : Dev := d.boundary c (fun e => e)

def execInterrupt (c : Nat) := run (vzInterrupt c)

end Sys2Proof.Machine
end

