-- ==== Sys2Proof/Machine/VzMem.lean ====
section
/-! DEFINITION. Loads, stores and CAS of a VZ64 core (R308, R313 to R315). -/

namespace Sys2Proof.Machine

/-- LB (R313): load 1 byte, sign-extended. -/
def vzLb (c g rd ra imm : Nat) (d : Dev) : Dev := d.load 0x14 c g rd ra imm 1 (sext 8)

def execLb (c g rd ra imm : Nat) := run (vzLb c g rd ra imm)

/-- LBU (R313): load 1 byte, zero-extended. -/
def vzLbu (c g rd ra imm : Nat) (d : Dev) : Dev := d.load 0x15 c g rd ra imm 1 (zext 8)

def execLbu (c g rd ra imm : Nat) := run (vzLbu c g rd ra imm)

/-- LH (R313): load 2 bytes, sign-extended. -/
def vzLh (c g rd ra imm : Nat) (d : Dev) : Dev := d.load 0x16 c g rd ra imm 2 (sext 16)

def execLh (c g rd ra imm : Nat) := run (vzLh c g rd ra imm)

/-- LHU (R313): load 2 bytes, zero-extended. -/
def vzLhu (c g rd ra imm : Nat) (d : Dev) : Dev := d.load 0x17 c g rd ra imm 2 (zext 16)

def execLhu (c g rd ra imm : Nat) := run (vzLhu c g rd ra imm)

/-- LW (R313): load 4 bytes, sign-extended. -/
def vzLw (c g rd ra imm : Nat) (d : Dev) : Dev := d.load 0x18 c g rd ra imm 4 (sext 32)

def execLw (c g rd ra imm : Nat) := run (vzLw c g rd ra imm)

/-- LWU (R313): load 4 bytes, zero-extended. -/
def vzLwu (c g rd ra imm : Nat) (d : Dev) : Dev := d.load 0x19 c g rd ra imm 4 (zext 32)

def execLwu (c g rd ra imm : Nat) := run (vzLwu c g rd ra imm)

/-- LD (R313): load 8 bytes, zero-extended. -/
def vzLd (c g rd ra imm : Nat) (d : Dev) : Dev := d.load 0x1A c g rd ra imm 8 (zext 64)

def execLd (c g rd ra imm : Nat) := run (vzLd c g rd ra imm)

/-- SB (R313): store the low 1 byte of the register in the rd field. -/
def vzSb (c g rd ra imm : Nat) (d : Dev) : Dev := d.storeI 0x1C c g rd ra imm 1

def execSb (c g rd ra imm : Nat) := run (vzSb c g rd ra imm)

/-- SH (R313): store the low 2 bytes of the register in the rd field. -/
def vzSh (c g rd ra imm : Nat) (d : Dev) : Dev := d.storeI 0x1D c g rd ra imm 2

def execSh (c g rd ra imm : Nat) := run (vzSh c g rd ra imm)

/-- SW (R313): store the low 4 bytes of the register in the rd field. -/
def vzSw (c g rd ra imm : Nat) (d : Dev) : Dev := d.storeI 0x1E c g rd ra imm 4

def execSw (c g rd ra imm : Nat) := run (vzSw c g rd ra imm)

/-- SD (R313): store the low 8 bytes of the register in the rd field. -/
def vzSd (c g rd ra imm : Nat) (d : Dev) : Dev := d.storeI 0x1F c g rd ra imm 8

def execSd (c g rd ra imm : Nat) := run (vzSd c g rd ra imm)

/-- CAS (R314, R315): compare the doubleword at [ra] with rd and store rb where they are equal; rd takes the old value with a load's
delay, Z says whether it stored. -/
def vzCas (c g rd ra rb : Nat) (d : Dev) : Dev :=
  d.vz c g (wordR g 0x20 rd ra rb false 0) false false (fun s e =>
    let a := (s.xreg ra).toNat
    match e.accTrap c a 8 .atomic with
    | some t => e.vzTrap c t.1 3 t.2
    | none =>
      let r := e.peek c a 8
      if r.poison then e.vzTrap c 6 3 a
      else
        let old := BitVec.ofNat 64 r.val
        let same := old == s.xreg rd
        let e1 := if same then (e.poke c a 8 (s.xreg rb).toNat false).getD e else e
        let s1 := e1.cpu c
        let e2 := e1.retire c 1 { s1.setReg rd old with fl := setZ s.fl same }
        e2.setCpu c { e2.cpu c with delay := some (rd, s.reg rd) })

def execCas (c g rd ra rb : Nat) := run (vzCas c g rd ra rb)

end Sys2Proof.Machine
end

