-- ==== Sys2Proof/Machine/VzWord.lean ====
section
/-! DEFINITION. Instruction words (R302 to R304): what executing a word does, read from its fields; `none` for a reserved word. The
debugger's step uses it, and RESERVED_WORD to tell a reserved word from any other. -/

namespace Sys2Proof.Machine

/-- The fields of a word. -/
def wG (w : Nat) : Nat := w / 2 ^ 28 % 16
def wOp (w : Nat) : Nat := w / 2 ^ 22 % 64
def wRd (w : Nat) : Nat := w / 2 ^ 17 % 32
def wRa (w : Nat) : Nat := w / 2 ^ 12 % 32
def wRb (w : Nat) : Nat := w / 2 ^ 7 % 32
def wS (w : Nat) : Bool := w.testBit 6
def wFn (w : Nat) : Nat := w % 64

/-- The register ALU group by FN (OP 0x00). A row that uses no rb requires rb = 0. -/
def aluWord (c w : Nat) : Option (Dev → Dev) :=
  let g := wG w
  let rd := wRd w
  let ra := wRa w
  let rb := wRb w
  let sf := wS w
  match wFn w with
  | 0x00 => some (vzAdd c g rd ra rb sf)
  | 0x01 => some (vzAdc c g rd ra rb sf)
  | 0x02 => some (vzSub c g rd ra rb sf)
  | 0x03 => some (vzSbc c g rd ra rb sf)
  | 0x04 => if rb = 0 then some (vzNeg c g rd ra sf) else none
  | 0x05 => some (vzAnd c g rd ra rb sf)
  | 0x06 => some (vzOr c g rd ra rb sf)
  | 0x07 => some (vzXor c g rd ra rb sf)
  | 0x08 => some (vzAndn c g rd ra rb sf)
  | 0x09 => some (vzOrn c g rd ra rb sf)
  | 0x0C => some (vzShl c g rd ra rb sf)
  | 0x0D => some (vzShr c g rd ra rb sf)
  | 0x0E => some (vzSar c g rd ra rb sf)
  | 0x0F => some (vzRor c g rd ra rb sf)
  | 0x10 => some (vzRol c g rd ra rb sf)
  | 0x14 => some (vzMul c g rd ra rb sf)
  | 0x15 => some (vzMulhu c g rd ra rb sf)
  | 0x16 => some (vzMulhs c g rd ra rb sf)
  | 0x18 => some (vzDivu c g rd ra rb sf)
  | 0x19 => some (vzDivs c g rd ra rb sf)
  | 0x1A => some (vzRemu c g rd ra rb sf)
  | 0x1B => some (vzRems c g rd ra rb sf)
  | 0x1C => if rb = 0 then some (vzSxtb c g rd ra sf) else none
  | 0x1D => if rb = 0 then some (vzSxth c g rd ra sf) else none
  | 0x1E => if rb = 0 then some (vzSxtw c g rd ra sf) else none
  | 0x1F => if rb = 0 then some (vzZxtw c g rd ra sf) else none
  | 0x20 => if rb = 0 then some (vzClz c g rd ra sf) else none
  | 0x21 => if rb = 0 then some (vzCtz c g rd ra sf) else none
  | 0x22 => if rb = 0 then some (vzPopc c g rd ra sf) else none
  | 0x23 => if rb = 0 then some (vzBswap c g rd ra sf) else none
  | _ => none

/-- The decimal group by FN (OP 0x01). S is zero. -/
def decWord (c w : Nat) : Option (Dev → Dev) :=
  let g := wG w
  let rd := wRd w
  let ra := wRa w
  let rb := wRb w
  if wS w then none
  else match wFn w with
    | 0x00 => some (vzDadd c g rd ra rb)
    | 0x01 => some (vzDadc c g rd ra rb)
    | 0x02 => some (vzDsub c g rd ra rb)
    | 0x03 => some (vzDsbc c g rd ra rb)
    | 0x04 => some (vzDaa c g rd ra)
    | 0x05 => some (vzDas c g rd ra)
    | 0x06 => some (vzCvbd c g rd ra)
    | 0x07 => some (vzCvdb c g rd ra rb)
    | _ => none

/-- The system group by FN (OP 0x38). No rule requires the fields an instruction does not use to be zero. -/
def sysWord (c w : Nat) : Option (Dev → Dev) :=
  let g := wG w
  let unused := w / 2 ^ 6 % 2 ^ 6
  match wFn w with
  | 0x00 => if srExists (wRa w) then some (vzMfsr c g (wRd w) (wRa w) unused) else none
  | 0x01 => if srExists (wRd w) then some (vzMtsr c g (wRd w) (wRa w) unused) else none
  | 0x02 => some (vzRte c g (w / 2 ^ 6 % 2 ^ 16))
  | 0x03 => some (vzFence c g)
  | 0x04 => some (vzWfe c g)
  | _ => none

/-- The block group by FN (OP 0x3D): rd, ra, rb and S are zero. -/
def blockWord (c w : Nat) : Option (Dev → Dev) :=
  let g := wG w
  if w % 2 ^ 22 / 2 ^ 6 ≠ 0 then none
  else match wFn w with
    | 0x00 => some (vzMovb c g)
    | 0x01 => some (vzMovd c g)
    | 0x02 => some (vzFilb c g)
    | 0x03 => some (vzFild c g)
    | 0x04 => some (vzCmpb c g)
    | 0x05 => some (vzCmpd c g)
    | 0x06 => some (vzScnb c g)
    | 0x07 => some (vzScnd c g)
    | _ => none

/-- A word on core `c` (R303). `next` is the word after it and `upto` the steps a REP pair may take. -/
def wordMeaning (c w next upto : Nat) : Option (Dev → Dev) :=
  let g := wG w
  let rd := wRd w
  let ra := wRa w
  let imm := w % 2 ^ 12
  if g = 0xF then none
  else match wOp w with
    | 0x00 => aluWord c w
    | 0x01 => decWord c w
    | 0x02 => some (vzAddi c g rd ra imm)
    | 0x03 => some (vzAddis c g rd ra imm)
    | 0x04 => some (vzSubis c g rd ra imm)
    | 0x05 => some (vzAndi c g rd ra imm)
    | 0x06 => some (vzOri c g rd ra imm)
    | 0x07 => some (vzXori c g rd ra imm)
    | 0x08 => some (vzAndis c g rd ra imm)
    | 0x09 => if imm < 256 then some (vzShli c g rd ra imm) else none
    | 0x0A => if imm < 256 then some (vzShri c g rd ra imm) else none
    | 0x0B => if imm < 256 then some (vzSari c g rd ra imm) else none
    | 0x0C => if imm < 256 then some (vzRori c g rd ra imm) else none
    | 0x0E => some (vzSeti c g rd (w.testBit 16) (w % 2 ^ 16))
    | 0x10 => if w.testBit 16 then none else some (vzShin c g rd false (w % 2 ^ 16))
    | 0x12 => some (vzAddpc c g rd (w % 2 ^ 17))
    | 0x14 => some (vzLb c g rd ra imm)
    | 0x15 => some (vzLbu c g rd ra imm)
    | 0x16 => some (vzLh c g rd ra imm)
    | 0x17 => some (vzLhu c g rd ra imm)
    | 0x18 => some (vzLw c g rd ra imm)
    | 0x19 => some (vzLwu c g rd ra imm)
    | 0x1A => some (vzLd c g rd ra imm)
    | 0x1C => some (vzSb c g rd ra imm)
    | 0x1D => some (vzSh c g rd ra imm)
    | 0x1E => some (vzSw c g rd ra imm)
    | 0x1F => some (vzSd c g rd ra imm)
    | 0x20 => if w % 2 ^ 7 = 0 then some (vzCas c g rd ra (wRb w)) else none
    | 0x30 => if w / 2 ^ 18 % 16 = 0xF then none else some (vzBcc c g (w / 2 ^ 18 % 16) (w % 2 ^ 18))
    | 0x31 => some (vzB c g (w % 2 ^ 22))
    | 0x32 => some (vzBl c g (w % 2 ^ 22))
    | 0x33 => if wFn w = 0 then some (vzBr c g ra) else if wFn w = 1 then some (vzBlr c g ra) else none
    | 0x38 => sysWord c w
    | 0x39 => if w / 2 ^ 16 % 64 = 0 then some (vzSvc c g (w % 2 ^ 16)) else none
    | 0x3A => if w / 2 ^ 16 % 64 = 0 then some (vzBrk c g (w % 2 ^ 16)) else none
    | 0x3C => if w % 2 ^ 22 < 3 then some (vzRep c g (w % 4) next upto) else none
    | 0x3D => blockWord c w
    | _ => none

/-- Is the word reserved (R304)? -/
def wordReserved (w : Nat) : Bool := (wordMeaning 0 (w % 2 ^ 32) 0 0).isNone

/-- RESERVED_WORD (R304): a reserved word traps RESERVED_OP with tval holding it, whatever its guard. A word that is not reserved is
another row's. -/
def vzReserved (c word : Nat) (d : Dev) : Dev :=
  if wordReserved word then d.vz c 0 (word % 2 ^ 32) true false (fun _ e => e) else d

def execReservedWord (c word : Nat) := run (vzReserved c word)

end Sys2Proof.Machine
end

