-- ==== Sys2Proof/Machine/Debug.lean ====
section
/-! DEFINITION. Test access and the console (R420 to R423): the TAP's instructions, the core debug port, UART input. -/

namespace Sys2Proof.Machine

/-- Make an instruction current: the pins return to functional control, a debug session ends unless it goes on. -/
def Dev.tapSelect (d : Dev) (ir : TapIr) : Dev :=
  { d with test := { d.test with ir := ir, pinsDriven := false, pinsReleased := false, dbgActive := d.test.dbgActive && ir == .dbg } }

/-- What the selected data register shifts out. -/
def Dev.tapOut (d : Dev) (v n : Nat) : Dev := { d with test := { d.test with shiftOut := v, shiftBits := n } }

/-- BYPASS, and every instruction whose condition does not hold (R420). -/
def Dev.tapBypass (d : Dev) : Dev := (d.tapSelect .bypass).tapOut 0 1

/-- A TAP instruction: with power; `ok` is its condition. -/
def Dev.tap (d : Dev) (ok : Bool) (go : Dev → Dev) : Dev := if ¬d.pins.supply then d else if ok then go d else d.tapBypass

/-- The IDCODE of the part (R420): version B0, the part number, the manufacturer. -/
def Dev.idcode (d : Dev) : Nat := 1 * 2 ^ 28 + d.fuses.part * 2 ^ 12 + 0x4E5 * 2 + 1

/-- TAP_RESET (R420): to IDCODE. -/
def tapReset (d : Dev) : Dev := d.tap true (fun e => (e.tapSelect .idcode).tapOut e.idcode 32)

def execTapReset := runHard tapReset

/-- The boundary register's cells. -/
def boundaryCells : Nat := 1312

/-- EXTEST (R420): while RESET_N is low the cells drive the pins with `drive` and capture `pins`. -/
def extest (drive pins : Nat) (d : Dev) : Dev :=
  d.tap (!d.pins.resetN) (fun e =>
    let e1 := e.tapSelect .extest
    ({ e1 with test := { e1.test with boundary := drive % 2 ^ boundaryCells, captured := pins % 2 ^ boundaryCells,
                                      pinsDriven := true } }).tapOut (pins % 2 ^ boundaryCells) boundaryCells)

def execExtest (drive pins : Nat) := runHard (extest drive pins)

/-- SAMPLE_PRELOAD (R420): captures the pins and preloads the cells; the pins are not disturbed. -/
def samplePreload (preload pins : Nat) (d : Dev) : Dev :=
  d.tap true (fun e =>
    let e1 := e.tapSelect .sample
    ({ e1 with test := { e1.test with boundary := preload % 2 ^ boundaryCells, captured := pins % 2 ^ boundaryCells } }).tapOut
      (pins % 2 ^ boundaryCells) boundaryCells)

def execSamplePreload (preload pins : Nat) := runHard (samplePreload preload pins)

/-- IDCODE (R420). -/
def idcode (d : Dev) : Dev := d.tap true (fun e => (e.tapSelect .idcode).tapOut e.idcode 32)

def execIdcode := runHard idcode

/-- CLAMP (R420): drives the preloaded values and selects the bypass register. -/
def clamp (d : Dev) : Dev :=
  d.tap (!d.pins.resetN) (fun e =>
    let e1 := e.tapSelect .clamp
    ({ e1 with test := { e1.test with pinsDriven := true } }).tapOut 0 1)

def execClamp := runHard clamp

/-- HIGHZ (R420): releases every output. -/
def highz (d : Dev) : Dev :=
  d.tap (!d.pins.resetN) (fun e =>
    let e1 := e.tapSelect .highz
    ({ e1 with test := { e1.test with pinsReleased := true } }).tapOut 0 1)

def execHighz := runHard highz

/-- BISTSTAT (R420): BIST_RES[0] to BIST_RES[4], bit 0 first, whatever holds the part. -/
def biststat (d : Dev) : Dev :=
  d.tap true (fun e =>
    (e.tapSelect .biststat).tapOut ((List.range 5).map (fun u => e.regRead (.BIST_RES u) * 2 ^ (32 * u))).sum 160)

def execBiststat := runHard biststat

/-- SCAN (R420): in TEST with the scrub done, the part stops until a part reset. -/
def scan (d : Dev) : Dev :=
  d.tap (d.flag F.HALW_SCRUB_DONE && d.f F.TOP_MODE_MODE == 0xB) (fun e =>
    let e1 := e.tapSelect .scan
    { e1 with test := { e1.test with scanStopped := true } })

def execScan := runHard scan

/-- Is debug right `i` in force (R396)? -/
def Dev.right (d : Dev) (i : Nat) : Bool := bit (d.f F.HALW_DEBUG_RIGHTS) i

/-- DBG (R420, R422): under debug right 2 the debug port opens, with DEBUG_SESSION when it becomes active. -/
def dbg (d : Dev) : Dev :=
  d.tap (d.right 2) (fun e =>
    let e1 := e.tapSelect .dbg
    if e1.test.dbgActive then e1 else ({ e1 with test := { e1.test with dbgActive := true } }).raise 0x00B noPlot [])

def execDbg := run dbg

/-- BYPASS (R420), and every instruction code the table does not list. -/
def bypass (d : Dev) : Dev := d.tap true Dev.tapBypass

def execBypass := runHard bypass

/-! ### The core debug port (R422) -/

/-- Does the port reach core `c`: DBG active under its right, a field or steward core that is in service and out of reset? The
security core is never reachable. -/
def Dev.dbgOn (d : Dev) (c : Nat) : Bool := d.test.dbgActive && d.right 2 && decide (c < 32) && d.coreRuns c

/-- DBG_HALT (R422). -/
def dbgHalt (c : Nat) (d : Dev) : Dev := if d.dbgOn c then d.setCpu c { d.cpu c with halted := true } else d

def execDbgHalt (c : Nat) := run (dbgHalt c)

/-- The word at an address of a core's memory. -/
def Dev.wordAt (d : Dev) (c a : Nat) : Nat :=
  let m := d.memOf c (d.mapAt c a)
  leNat (m.1.bytes m.2 4)

/-- DBG_STEP (R422): a halted core executes the instruction at its pc, taking no interrupt; a REP pair takes at most `upto` steps. -/
def dbgStep (c upto : Nat) (d : Dev) : Dev :=
  if d.dbgOn c ∧ (d.cpu c).halted = true then
    let pc := (d.cpu c).pc.toNat
    let w := d.wordAt c pc
    let d1 := d.setCpu c { d.cpu c with stepping := true, waiting := false }
    let d2 := match wordMeaning c w (d.wordAt c ((pc + 4) % 2 ^ 64)) upto with
      | some f => f d1
      | none => vzReserved c w d1
    d2.setCpu c { d2.cpu c with stepping := false }
  else d

def execDbgStep (c upto : Nat) := run (dbgStep c upto)

/-- DBG_RESUME (R422). -/
def dbgResume (c : Nat) (d : Dev) : Dev :=
  if d.dbgOn c ∧ (d.cpu c).halted = true then d.setCpu c { d.cpu c with halted := false } else d

def execDbgResume (c : Nat) := run (dbgResume c)

/-- What the debugger reads. -/
def Dev.dbgShow (d : Dev) (v : Nat) : Dev := { d with test := { d.test with dbgReply := v } }

/-- DBG_ACCESS (R422): a halted core's registers, and memory as that core at S under its region table; an access that the table or
the map does not permit, or whose data is poisoned, has no effect. -/
def dbgAccess (c : Nat) (x : DbgItem) (write : Bool) (value : Nat) (d : Dev) : Dev :=
  if d.dbgOn c ∧ (d.cpu c).halted = true then
    let s := d.cpu c
    match x with
    | .g i => if write then d.setCpu c (s.setReg i (BitVec.ofNat 64 value)) else d.dbgShow (s.reg i).toNat
    | .sr i =>
      if ¬srExists i then d
      else if write then d.setCpu c (s.setSr i (BitVec.ofNat 64 value))
      else if i = 3 then
        let r := d.draw
        r.2.dbgShow (s.sr c i (Config.cycles r.1)).toNat
      else d.dbgShow (s.sr c i 0).toNat
    | .mem a n =>
      let atS := d.setCpu c { s with pstat := s.pstat ||| 1#64 }
      if n ≠ 1 ∧ n ≠ 2 ∧ n ≠ 4 ∧ n ≠ 8 then d
      else if (atS.accTrap c a n (if write then .store else .load)).isSome then d
      else if write then (d.poke c a n (value % 256 ^ n) false).getD d
      else
        let r := d.peek c a n
        if r.poison then d else r.dev.dbgShow r.val
  else d

def execDbgAccess (c : Nat) (x : DbgItem) (write : Bool) (value : Nat) := run (dbgAccess c x write value)

/-! ### The console (R423) -/

/-- UART_RX_BYTE (R423): passed to firmware under debug right 3, otherwise discarded. -/
def uartRxByte (b : Nat) (d : Dev) : Dev :=
  if d.right 3 then { d with test := { d.test with uartRx := d.test.uartRx ++ [b % 256] } }
  else { d with test := { d.test with uartDiscarded := d.test.uartDiscarded + 1 } }

def execUartRxByte (b : Nat) := run (uartRxByte b)

end Sys2Proof.Machine
end

