-- ==== Sys2Proof/Machine/Dispatch.lean ====
section
/-! DEFINITION. The dispatch: one arm per command, each one direct call of its meaning. -/

namespace Sys2Proof.Machine

def exec (i : Instr) (s : State) : Host.Outcome State Fault Refusal :=
  match i with
  | .csrWrite by_ addr value wide => Sys2Proof.Machine.execCsrWrite by_ addr value wide s
  | .csrBadAccess by_ addr size write => Sys2Proof.Machine.execCsrBadAccess by_ addr size write s
  | .csrSplitReadLow by_ addr => Sys2Proof.Machine.execCsrSplitReadLow by_ addr s
  | .csrSplitReadHigh by_ addr => Sys2Proof.Machine.execCsrSplitReadHigh by_ addr s
  | .csrSplitWriteLow by_ addr value => Sys2Proof.Machine.execCsrSplitWriteLow by_ addr value s
  | .csrSplitWriteHigh by_ addr value => Sys2Proof.Machine.execCsrSplitWriteHigh by_ addr value s
  | .powerOn => Sys2Proof.Machine.execPowerOn s
  | .resetNAssert => Sys2Proof.Machine.execResetNAssert s
  | .resetNRise => Sys2Proof.Machine.execResetNRise s
  | .topReset key go => Sys2Proof.Machine.execTopReset key go s
  | .nvmSubsystemReset p v => Sys2Proof.Machine.execNvmSubsystemReset p v s
  | .halwardScrubDone => Sys2Proof.Machine.execHalwardScrubDone s
  | .deviceBistDone l m e ms misr => Sys2Proof.Machine.execDeviceBistDone l m e ms misr s
  | .quadrantBistDone l m e ms misr => Sys2Proof.Machine.execQuadrantBistDone l m e ms misr s
  | .dramTrainingDone failed => Sys2Proof.Machine.execDramTrainingDone failed s
  | .sramFillDone => Sys2Proof.Machine.execSramFillDone s
  | .dramFillDone => Sys2Proof.Machine.execDramFillDone s
  | .firmwareVerify => Sys2Proof.Machine.execFirmwareVerify s
  | .streamVerify => Sys2Proof.Machine.execStreamVerify s
  | .mapLoadDone => Sys2Proof.Machine.execMapLoadDone s
  | .recoveryTagScanDone => Sys2Proof.Machine.execRecoveryTagScanDone s
  | .segmentRecovered seg => Sys2Proof.Machine.execSegmentRecovered seg s
  | .recoverDone ms readable => Sys2Proof.Machine.execRecoverDone ms readable s
  | .pwrfailFall => Sys2Proof.Machine.execPwrfailFall s
  | .pwrfailStopDone => Sys2Proof.Machine.execPwrfailStopDone s
  | .pwrfailRise => Sys2Proof.Machine.execPwrfailRise s
  | .pwrfailHighWaitEnd => Sys2Proof.Machine.execPwrfailHighWaitEnd s
  | .thermalTrip => Sys2Proof.Machine.execThermalTrip s
  | .perstAssert port => Sys2Proof.Machine.execPerstAssert port s
  | .perstDeassert port => Sys2Proof.Machine.execPerstDeassert port s
  | .pcieLinkUp port rate width partner64 => Sys2Proof.Machine.execPcieLinkUp port rate width partner64 s
  | .pcieLinkDown port => Sys2Proof.Machine.execPcieLinkDown port s
  | .pcieLinkRecovery port => Sys2Proof.Machine.execPcieLinkRecovery port s
  | .qbistDue q => Sys2Proof.Machine.execQbistDue q s
  | .qbistNow => Sys2Proof.Machine.execQbistNow s
  | .qbistDrainDone => Sys2Proof.Machine.execQbistDrainDone s
  | .qbistPatternsDone ok ms => Sys2Proof.Machine.execQbistPatternsDone ok ms s
  | .powerStateEntryDone => Sys2Proof.Machine.execPowerStateEntryDone s
  | .powerStateWakeDone => Sys2Proof.Machine.execPowerStateWakeDone s
  | .autonomousPsIdle => Sys2Proof.Machine.execAutonomousPsIdle s
  | .sanitizeDone ok => Sys2Proof.Machine.execSanitizeDone ok s
  | .mramSliceTestDone ok => Sys2Proof.Machine.execMramSliceTestDone ok s
  | .extendedSelfTestDone => Sys2Proof.Machine.execExtendedSelfTestDone s
  | .fetchRound cid bytes what => Sys2Proof.Machine.execFetchRound cid bytes what s
  | .sqTailDoorbell p y v => Sys2Proof.Machine.execSqTailDoorbell p y v s
  | .cqHeadDoorbell p y v => Sys2Proof.Machine.execCqHeadDoorbell p y v s
  | .hostCqStall p y => Sys2Proof.Machine.execHostCqStall p y s
  | .cmdTmaxExpired id held => Sys2Proof.Machine.execCmdTmaxExpired id held s
  | .internalResult id pgen qgen st dw0 dw1 => Sys2Proof.Machine.execInternalResult id pgen qgen st dw0 dw1 s
  | .deleteIoSubmissionQueue c qid unread => Sys2Proof.Machine.execDeleteIoSubmissionQueue c qid unread s
  | .createIoSubmissionQueue c qid cqid size prio pc => Sys2Proof.Machine.execCreateIoSubmissionQueue c qid cqid size prio pc s
  | .deleteIoCompletionQueue c qid => Sys2Proof.Machine.execDeleteIoCompletionQueue c qid s
  | .createIoCompletionQueue c qid size vec ien pc => Sys2Proof.Machine.execCreateIoCompletionQueue c qid size vec ien pc s
  | .getLogPage c lid lsf lsi csi off len rae => Sys2Proof.Machine.execGetLogPage c lid lsf lsi csi off len rae s
  | .identify c cns cntid csi => Sys2Proof.Machine.execIdentify c cns cntid csi s
  | .abort c => Sys2Proof.Machine.execAbort c s
  | .getFeatures c fid sel cdw11 => Sys2Proof.Machine.execGetFeatures c fid sel cdw11 s
  | .setArbitration c save ab lpw mpw hpw => Sys2Proof.Machine.execSetArbitration c save ab lpw mpw hpw s
  | .setPowerManagement c save ps => Sys2Proof.Machine.execSetPowerManagement c save ps s
  | .setTemperatureThreshold c save t tsel sel => Sys2Proof.Machine.execSetTemperatureThreshold c save t tsel sel s
  | .setErrorRecovery c save tler dulbe => Sys2Proof.Machine.execSetErrorRecovery c save tler dulbe s
  | .setNumberOfQueues c save nsq ncq => Sys2Proof.Machine.execSetNumberOfQueues c save nsq ncq s
  | .setInterruptCoalescing c save thr time => Sys2Proof.Machine.execSetInterruptCoalescing c save thr time s
  | .setInterruptVectorConfig c save vec cd => Sys2Proof.Machine.execSetInterruptVectorConfig c save vec cd s
  | .setWriteAtomicity c save dn => Sys2Proof.Machine.execSetWriteAtomicity c save dn s
  | .setAsyncEventConfig c save v => Sys2Proof.Machine.execSetAsyncEventConfig c save v s
  | .setAutonomousPst c save on table => Sys2Proof.Machine.execSetAutonomousPst c save on table s
  | .setTimestamp c save t => Sys2Proof.Machine.execSetTimestamp c save t s
  | .setHostThermalMgmt c save t1 t2 => Sys2Proof.Machine.execSetHostThermalMgmt c save t1 t2 s
  | .setVolatileWriteCache c => Sys2Proof.Machine.execSetVolatileWriteCache c s
  | .setCommandBound c save v => Sys2Proof.Machine.execSetCommandBound c save v s
  | .setEarlyWarning c save set_ ew crit wear zeros => Sys2Proof.Machine.execSetEarlyWarning c save set_ ew crit wear zeros s
  | .setVendorEventNotices c save v => Sys2Proof.Machine.execSetVendorEventNotices c save v s
  | .asynchronousEventRequest c => Sys2Proof.Machine.execAsynchronousEventRequest c s
  | .namespaceManagement c del nsze ncap lbaf pi ext shared iu geom comp refused => Sys2Proof.Machine.execNamespaceManagement c del nsze ncap lbaf pi ext shared iu geom comp refused s
  | .namespaceAttachment c detach list => Sys2Proof.Machine.execNamespaceAttachment c detach list s
  | .virtualizationManagement c act rt cntid nr => Sys2Proof.Machine.execVirtualizationManagement c act rt cntid nr s
  | .formatNvm c lbaf ses pi ext => Sys2Proof.Machine.execFormatNvm c lbaf ses pi ext s
  | .firmwareImageDownload c off len o => Sys2Proof.Machine.execFirmwareImageDownload c off len o s
  | .firmwareCommit c fs ca => Sys2Proof.Machine.execFirmwareCommit c fs ca s
  | .fwActivateNoReset c fs => Sys2Proof.Machine.execFwActivateNoReset c fs s
  | .fwActivationDrainDone us => Sys2Proof.Machine.execFwActivationDrainDone us s
  | .fwActivationDrainTimeout us => Sys2Proof.Machine.execFwActivationDrainTimeout us s
  | .streamCommit c fs ca => Sys2Proof.Machine.execStreamCommit c fs ca s
  | .shortSelfTest c ok => Sys2Proof.Machine.execShortSelfTest c ok s
  | .extendedSelfTest c => Sys2Proof.Machine.execExtendedSelfTest c s
  | .selfTestAbort c => Sys2Proof.Machine.execSelfTestAbort c s
  | .cryptoErase c => Sys2Proof.Machine.execCryptoErase c s
  | .blockErase c => Sys2Proof.Machine.execBlockErase c s
  | .reseatAnchor c anchor t => Sys2Proof.Machine.execReseatAnchor c anchor t s
  | .applyGraft c len g => Sys2Proof.Machine.execApplyGraft c len g s
  | .securityReceive c secp spsp al => Sys2Proof.Machine.execSecurityReceive c secp spsp al s
  | .flush c => Sys2Proof.Machine.execFlush c s
  | .write c slba data pi => Sys2Proof.Machine.execWrite c slba data pi s
  | .writeTransferResume => Sys2Proof.Machine.execWriteTransferResume s
  | .read c slba nlb pi => Sys2Proof.Machine.execRead c slba nlb pi s
  | .writeUncorrectable c slba nlb => Sys2Proof.Machine.execWriteUncorrectable c slba nlb s
  | .compare c slba data pi => Sys2Proof.Machine.execCompare c slba data pi s
  | .writeZeroes c slba nlb deac => Sys2Proof.Machine.execWriteZeroes c slba nlb deac s
  | .datasetManagement c ad ranges => Sys2Proof.Machine.execDatasetManagement c ad ranges s
  | .verify c slba nlb pi => Sys2Proof.Machine.execVerify c slba nlb pi s
  | .reservationRegister c rrega iekey cptpl crkey nrkey => Sys2Proof.Machine.execReservationRegister c rrega iekey cptpl crkey nrkey s
  | .reservationReport c len => Sys2Proof.Machine.execReservationReport c len s
  | .reservationAcquire c racqa rtype iekey crkey prkey => Sys2Proof.Machine.execReservationAcquire c racqa rtype iekey crkey prkey s
  | .reservationRelease c rrela rtype iekey crkey => Sys2Proof.Machine.execReservationRelease c rrela rtype iekey crkey s
  | .copy c sdlba fmt ranges pr pw => Sys2Proof.Machine.execCopy c sdlba fmt ranges pr pw s
  | .executeProgram c index set param => Sys2Proof.Machine.execExecuteProgram c index set param s
  | .loadProgram c index unload ptype size off image pats bodyOk sigOk => Sys2Proof.Machine.execLoadProgram c index unload ptype size off image pats bodyOk sigOk s
  | .programActivationManagement c index activate => Sys2Proof.Machine.execProgramActivationManagement c index activate s
  | .memoryRangeSetManagement c create id ranges => Sys2Proof.Machine.execMemoryRangeSetManagement c create id ranges s
  | .memoryRead c offset bytes => Sys2Proof.Machine.execMemoryRead c offset bytes s
  | .memoryWrite c offset data => Sys2Proof.Machine.execMemoryWrite c offset data s
  | .memoryCopy c dest sources => Sys2Proof.Machine.execMemoryCopy c dest sources s
  | .memoryFill c offset bytes value => Sys2Proof.Machine.execMemoryFill c offset bytes value s
  | .ccEnable p css ams asq acq => Sys2Proof.Machine.execCcEnable p css ams asq acq s
  | .ccDisable p => Sys2Proof.Machine.execCcDisable p s
  | .normalShutdown p => Sys2Proof.Machine.execNormalShutdown p s
  | .abruptShutdown p => Sys2Proof.Machine.execAbruptShutdown p s
  | .functionLevelReset p => Sys2Proof.Machine.execFunctionLevelReset p s
  | .miStatus busOk => Sys2Proof.Machine.execMiStatus busOk s
  | .miVendorIdSerial busOk => Sys2Proof.Machine.execMiVendorIdSerial busOk s
  | .miEloaskoBlock busOk => Sys2Proof.Machine.execMiEloaskoBlock busOk s
  | .smbusSclTimeout => Sys2Proof.Machine.execSmbusSclTimeout s
  | .plotEnable n => Sys2Proof.Machine.execPlotEnable n s
  | .plotDisable n => Sys2Proof.Machine.execPlotDisable n s
  | .vfEnableClear pf n => Sys2Proof.Machine.execVfEnableClear pf n s
  | .plotRst n => Sys2Proof.Machine.execPlotRst n s
  | .plotResetPoint n held => Sys2Proof.Machine.execPlotResetPoint n held s
  | .plotSlmFillDone n => Sys2Proof.Machine.execPlotSlmFillDone n s
  | .plotShareWrite n off v => Sys2Proof.Machine.execPlotShareWrite n off v s
  | .slmGrowFillDone n => Sys2Proof.Machine.execSlmGrowFillDone n s
  | .mbSeqWrite n up v => Sys2Proof.Machine.execMbSeqWrite n up v s
  | .mbAckWrite n up v => Sys2Proof.Machine.execMbAckWrite n up v s
  | .mbIncWrite n tenant v => Sys2Proof.Machine.execMbIncWrite n tenant v s
  | .mbSlotWrite n up w v => Sys2Proof.Machine.execMbSlotWrite n up w v s
  | .dieDiscovery die answers crcOk tRead tProg tErase rate jedec page susp => Sys2Proof.Machine.execDieDiscovery die answers crcOk tRead tProg tErase rate jedec page susp s
  | .channelTraining ch passes temps => Sys2Proof.Machine.execChannelTraining ch passes temps s
  | .dieOpIssue die => Sys2Proof.Machine.execDieOpIssue die s
  | .dieStatusPoll die elapsed => Sys2Proof.Machine.execDieStatusPoll die elapsed s
  | .dieTimeout die => Sys2Proof.Machine.execDieTimeout die s
  | .dieResetTimeout die => Sys2Proof.Machine.execDieResetTimeout die s
  | .programSuspend die => Sys2Proof.Machine.execProgramSuspend die s
  | .codewordDecode loc ptype v => Sys2Proof.Machine.execCodewordDecode loc ptype v s
  | .readRetryReread die block page ok expired elapsed => Sys2Proof.Machine.execReadRetryReread die block page ok expired elapsed s
  | .softDecode loc v expired elapsed => Sys2Proof.Machine.execSoftDecode loc v expired elapsed s
  | .reconstruction loc unread late sound expired => Sys2Proof.Machine.execReconstruction loc unread late sound expired s
  | .targetRetrain target temp ok => Sys2Proof.Machine.execTargetRetrain target temp ok s
  | .journalBatchClose => Sys2Proof.Machine.execJournalBatchClose s
  | .journalBatchCommit => Sys2Proof.Machine.execJournalBatchCommit s
  | .checkpointPassStart => Sys2Proof.Machine.execCheckpointPassStart s
  | .segmentCopyDone seg => Sys2Proof.Machine.execSegmentCopyDone seg s
  | .destage nsid iu g pad => Sys2Proof.Machine.execDestage nsid iu g pad s
  | .nandProgramDone die => Sys2Proof.Machine.execNandProgramDone die s
  | .progFail die => Sys2Proof.Machine.execProgFail die s
  | .eraseDone die => Sys2Proof.Machine.execEraseDone die s
  | .eraseFail die => Sys2Proof.Machine.execEraseFail die s
  | .compostVictim g => Sys2Proof.Machine.execCompostVictim g s
  | .relocationCopyDone nsid iu => Sys2Proof.Machine.execRelocationCopyDone nsid iu s
  | .readDisturbLimit die block => Sys2Proof.Machine.execReadDisturbLimit die block s
  | .retentionLimit die block => Sys2Proof.Machine.execRetentionLimit die block s
  | .stripeReplay torn => Sys2Proof.Machine.execStripeReplay torn s
  | .mapWalkDone g => Sys2Proof.Machine.execMapWalkDone g s
  | .rebuildStripe g bsn lost => Sys2Proof.Machine.execRebuildStripe g bsn lost s
  | .rakeStripeCheck g bsn page slot x last => Sys2Proof.Machine.execRakeStripeCheck g bsn page slot x last s
  | .gwlLinkUp l x4 reversed => Sys2Proof.Machine.execGwlLinkUp l x4 reversed s
  | .gwlTrainRetry l => Sys2Proof.Machine.execGwlTrainRetry l s
  | .gwlDataFrame l f => Sys2Proof.Machine.execGwlDataFrame l f s
  | .gwlIdleFrame l f => Sys2Proof.Machine.execGwlIdleFrame l f s
  | .gwlNak l f => Sys2Proof.Machine.execGwlNak l f s
  | .gwlTrainFrame l peer plink cluster rhash => Sys2Proof.Machine.execGwlTrainFrame l peer plink cluster rhash s
  | .gwlHeartbeat l f => Sys2Proof.Machine.execGwlHeartbeat l f s
  | .gwlReplayTimeout l => Sys2Proof.Machine.execGwlReplayTimeout l s
  | .gwlAckHoldTimeout l => Sys2Proof.Machine.execGwlAckHoldTimeout l s
  | .gwlLinkTimeout l => Sys2Proof.Machine.execGwlLinkTimeout l s
  | .heartbeatPeriod => Sys2Proof.Machine.execHeartbeatPeriod s
  | .memberLost j => Sys2Proof.Machine.execMemberLost j s
  | .viewChange fresh => Sys2Proof.Machine.execViewChange fresh s
  | .chunkForward src nsid r j tag rebuild => Sys2Proof.Machine.execChunkForward src nsid r j tag rebuild s
  | .chunkResult src nsid r j tag v => Sys2Proof.Machine.execChunkResult src nsid r j tag v s
  | .clusterShareReserve src nsid nsze geom lbaf iu pi ext create => Sys2Proof.Machine.execClusterShareReserve src nsid nsze geom lbaf iu pi ext create s
  | .stripeLock lead tseq nsid r recv peer parts => Sys2Proof.Machine.execStripeLock lead tseq nsid r recv peer parts s
  | .prepare src lead tseq nsid r j parts delta => Sys2Proof.Machine.execPrepare src lead tseq nsid r j parts delta s
  | .prepared lead tseq j delta ok => Sys2Proof.Machine.execPrepared lead tseq j delta ok s
  | .mirrorEntry e => Sys2Proof.Machine.execMirrorEntry e s
  | .mirrorAck lead tseq st => Sys2Proof.Machine.execMirrorAck lead tseq st s
  | .clusterCommit src lead tseq => Sys2Proof.Machine.execClusterCommit src lead tseq s
  | .clusterAbort lead tseq => Sys2Proof.Machine.execClusterAbort lead tseq s
  | .transactionDone lead tseq => Sys2Proof.Machine.execTransactionDone lead tseq s
  | .clusterJournalResolve failed lost => Sys2Proof.Machine.execClusterJournalResolve failed lost s
  | .decisionQuery src lead tseq lost => Sys2Proof.Machine.execDecisionQuery src lead tseq lost s
  | .resyncStripe owner nsid r recv last => Sys2Proof.Machine.execResyncStripe owner nsid r recv last s
  | .anchorToken t => Sys2Proof.Machine.execAnchorToken t s
  | .trelRsub q r seq => Sys2Proof.Machine.execTrelRsub q r seq s
  | .trelRack q r seq => Sys2Proof.Machine.execTrelRack q r seq s
  | .ringEnable q r value => Sys2Proof.Machine.execRingEnable q r value s
  | .jobStart q r u => Sys2Proof.Machine.execJobStart q r u s
  | .curdArrival q slot stage curd finds => Sys2Proof.Machine.execCurdArrival q slot stage curd finds s
  | .creditReturn q slot stage => Sys2Proof.Machine.execCreditReturn q slot stage s
  | .jobEnd q slot => Sys2Proof.Machine.execJobEnd q slot s
  | .jobTimeout q slot => Sys2Proof.Machine.execJobTimeout q slot s
  | .skimUnit q un slot unitOff data poison untrusted unmapped channel src => Sys2Proof.Machine.execSkimUnit q un slot unitOff data poison untrusted unmapped channel src s
  | .skimRebind q u lent => Sys2Proof.Machine.execSkimRebind q u lent s
  | .segmentSwapped q => Sys2Proof.Machine.execSegmentSwapped q s
  | .churnJobSwitch q pipe n ended => Sys2Proof.Machine.execChurnJobSwitch q pipe n ended s
  | .iuCompress q nsid iu => Sys2Proof.Machine.execIuCompress q nsid iu s
  | .iuDecompress nsid iu => Sys2Proof.Machine.execIuDecompress nsid iu s
  | .sieveJobSwitch q n ended => Sys2Proof.Machine.execSieveJobSwitch q n ended s
  | .camSearch q t key poisoned job bad => Sys2Proof.Machine.execCamSearch q t key poisoned job bad s
  | .camWrite q t index => Sys2Proof.Machine.execCamWrite q t index s
  | .insertAt q t index => Sys2Proof.Machine.execInsertAt q t index s
  | .insertKey q t replace => Sys2Proof.Machine.execInsertKey q t replace s
  | .camDelete q t index => Sys2Proof.Machine.execCamDelete q t index s
  | .clearTable q t => Sys2Proof.Machine.execClearTable q t s
  | .updateDone q => Sys2Proof.Machine.execUpdateDone q s
  | .sieveTblWrite q t value => Sys2Proof.Machine.execSieveTblWrite q t value s
  | .keyDerivation q lane slot purpose => Sys2Proof.Machine.execKeyDerivation q lane slot purpose s
  | .gcmLease q idx => Sys2Proof.Machine.execGcmLease q idx s
  | .gcmTagCheck q slot => Sys2Proof.Machine.execGcmTagCheck q slot s
  | .engineSwitch q digest n ended => Sys2Proof.Machine.execEngineSwitch q digest n ended s
  | .dgstOpen q ses plot => Sys2Proof.Machine.execDgstOpen q ses plot s
  | .dgstData q ses plot word poisoned => Sys2Proof.Machine.execDgstData q ses plot word poisoned s
  | .dgstLast q ses n plot word poisoned => Sys2Proof.Machine.execDgstLast q ses n plot word poisoned s
  | .dgstFin0 q ses plot => Sys2Proof.Machine.execDgstFin0 q ses plot s
  | .dgstAbort q ses plot => Sys2Proof.Machine.execDgstAbort q ses plot s
  | .dgstDigestDone q ses fault => Sys2Proof.Machine.execDgstDigestDone q ses fault s
  | .dgstIdleTimeout q ses => Sys2Proof.Machine.execDgstIdleTimeout q ses s
  | .dgstExpWrite q ses j plot value fault => Sys2Proof.Machine.execDgstExpWrite q ses j plot value fault s
  | .add c g rd ra rb sf => Sys2Proof.Machine.execAdd c g rd ra rb sf s
  | .adc c g rd ra rb sf => Sys2Proof.Machine.execAdc c g rd ra rb sf s
  | .sub c g rd ra rb sf => Sys2Proof.Machine.execSub c g rd ra rb sf s
  | .sbc c g rd ra rb sf => Sys2Proof.Machine.execSbc c g rd ra rb sf s
  | .neg c g rd ra sf => Sys2Proof.Machine.execNeg c g rd ra sf s
  | .and c g rd ra rb sf => Sys2Proof.Machine.execAnd c g rd ra rb sf s
  | .or c g rd ra rb sf => Sys2Proof.Machine.execOr c g rd ra rb sf s
  | .xor c g rd ra rb sf => Sys2Proof.Machine.execXor c g rd ra rb sf s
  | .andn c g rd ra rb sf => Sys2Proof.Machine.execAndn c g rd ra rb sf s
  | .orn c g rd ra rb sf => Sys2Proof.Machine.execOrn c g rd ra rb sf s
  | .shl c g rd ra rb sf => Sys2Proof.Machine.execShl c g rd ra rb sf s
  | .shr c g rd ra rb sf => Sys2Proof.Machine.execShr c g rd ra rb sf s
  | .sar c g rd ra rb sf => Sys2Proof.Machine.execSar c g rd ra rb sf s
  | .ror c g rd ra rb sf => Sys2Proof.Machine.execRor c g rd ra rb sf s
  | .rol c g rd ra rb sf => Sys2Proof.Machine.execRol c g rd ra rb sf s
  | .mul c g rd ra rb sf => Sys2Proof.Machine.execMul c g rd ra rb sf s
  | .mulhu c g rd ra rb sf => Sys2Proof.Machine.execMulhu c g rd ra rb sf s
  | .mulhs c g rd ra rb sf => Sys2Proof.Machine.execMulhs c g rd ra rb sf s
  | .divu c g rd ra rb sf => Sys2Proof.Machine.execDivu c g rd ra rb sf s
  | .divs c g rd ra rb sf => Sys2Proof.Machine.execDivs c g rd ra rb sf s
  | .remu c g rd ra rb sf => Sys2Proof.Machine.execRemu c g rd ra rb sf s
  | .rems c g rd ra rb sf => Sys2Proof.Machine.execRems c g rd ra rb sf s
  | .sxtb c g rd ra sf => Sys2Proof.Machine.execSxtb c g rd ra sf s
  | .sxth c g rd ra sf => Sys2Proof.Machine.execSxth c g rd ra sf s
  | .sxtw c g rd ra sf => Sys2Proof.Machine.execSxtw c g rd ra sf s
  | .zxtw c g rd ra sf => Sys2Proof.Machine.execZxtw c g rd ra sf s
  | .clz c g rd ra sf => Sys2Proof.Machine.execClz c g rd ra sf s
  | .ctz c g rd ra sf => Sys2Proof.Machine.execCtz c g rd ra sf s
  | .popc c g rd ra sf => Sys2Proof.Machine.execPopc c g rd ra sf s
  | .bswap c g rd ra sf => Sys2Proof.Machine.execBswap c g rd ra sf s
  | .dadd c g rd ra rb => Sys2Proof.Machine.execDadd c g rd ra rb s
  | .dadc c g rd ra rb => Sys2Proof.Machine.execDadc c g rd ra rb s
  | .dsub c g rd ra rb => Sys2Proof.Machine.execDsub c g rd ra rb s
  | .dsbc c g rd ra rb => Sys2Proof.Machine.execDsbc c g rd ra rb s
  | .daa c g rd ra => Sys2Proof.Machine.execDaa c g rd ra s
  | .das c g rd ra => Sys2Proof.Machine.execDas c g rd ra s
  | .cvbd c g rd ra => Sys2Proof.Machine.execCvbd c g rd ra s
  | .cvdb c g rd ra unused => Sys2Proof.Machine.execCvdb c g rd ra unused s
  | .addi c g rd ra imm => Sys2Proof.Machine.execAddi c g rd ra imm s
  | .addis c g rd ra imm => Sys2Proof.Machine.execAddis c g rd ra imm s
  | .subis c g rd ra imm => Sys2Proof.Machine.execSubis c g rd ra imm s
  | .andi c g rd ra imm => Sys2Proof.Machine.execAndi c g rd ra imm s
  | .ori c g rd ra imm => Sys2Proof.Machine.execOri c g rd ra imm s
  | .xori c g rd ra imm => Sys2Proof.Machine.execXori c g rd ra imm s
  | .andis c g rd ra imm => Sys2Proof.Machine.execAndis c g rd ra imm s
  | .shli c g rd ra imm => Sys2Proof.Machine.execShli c g rd ra imm s
  | .shri c g rd ra imm => Sys2Proof.Machine.execShri c g rd ra imm s
  | .sari c g rd ra imm => Sys2Proof.Machine.execSari c g rd ra imm s
  | .rori c g rd ra imm => Sys2Proof.Machine.execRori c g rd ra imm s
  | .seti c g rd x imm => Sys2Proof.Machine.execSeti c g rd x imm s
  | .shin c g rd x imm => Sys2Proof.Machine.execShin c g rd x imm s
  | .addpc c g rd imm => Sys2Proof.Machine.execAddpc c g rd imm s
  | .lb c g rd ra imm => Sys2Proof.Machine.execLb c g rd ra imm s
  | .lbu c g rd ra imm => Sys2Proof.Machine.execLbu c g rd ra imm s
  | .lh c g rd ra imm => Sys2Proof.Machine.execLh c g rd ra imm s
  | .lhu c g rd ra imm => Sys2Proof.Machine.execLhu c g rd ra imm s
  | .lw c g rd ra imm => Sys2Proof.Machine.execLw c g rd ra imm s
  | .lwu c g rd ra imm => Sys2Proof.Machine.execLwu c g rd ra imm s
  | .ld c g rd ra imm => Sys2Proof.Machine.execLd c g rd ra imm s
  | .sb c g rd ra imm => Sys2Proof.Machine.execSb c g rd ra imm s
  | .sh c g rd ra imm => Sys2Proof.Machine.execSh c g rd ra imm s
  | .sw c g rd ra imm => Sys2Proof.Machine.execSw c g rd ra imm s
  | .sd c g rd ra imm => Sys2Proof.Machine.execSd c g rd ra imm s
  | .cas c g rd ra rb => Sys2Proof.Machine.execCas c g rd ra rb s
  | .bcc c g cond disp => Sys2Proof.Machine.execBcc c g cond disp s
  | .b c g disp => Sys2Proof.Machine.execB c g disp s
  | .bl c g disp => Sys2Proof.Machine.execBl c g disp s
  | .br c g ra => Sys2Proof.Machine.execBr c g ra s
  | .blr c g ra => Sys2Proof.Machine.execBlr c g ra s
  | .mfsr c g rd sr unused => Sys2Proof.Machine.execMfsr c g rd sr unused s
  | .mtsr c g sr ra unused => Sys2Proof.Machine.execMtsr c g sr ra unused s
  | .rte c g unused => Sys2Proof.Machine.execRte c g unused s
  | .fence c g => Sys2Proof.Machine.execFence c g s
  | .wfe c g => Sys2Proof.Machine.execWfe c g s
  | .svc c g imm => Sys2Proof.Machine.execSvc c g imm s
  | .brk c g imm => Sys2Proof.Machine.execBrk c g imm s
  | .rep c g mode next upto => Sys2Proof.Machine.execRep c g mode next upto s
  | .movb c g => Sys2Proof.Machine.execMovb c g s
  | .movd c g => Sys2Proof.Machine.execMovd c g s
  | .filb c g => Sys2Proof.Machine.execFilb c g s
  | .fild c g => Sys2Proof.Machine.execFild c g s
  | .cmpb c g => Sys2Proof.Machine.execCmpb c g s
  | .cmpd c g => Sys2Proof.Machine.execCmpd c g s
  | .scnb c g => Sys2Proof.Machine.execScnb c g s
  | .scnd c g => Sys2Proof.Machine.execScnd c g s
  | .interrupt c => Sys2Proof.Machine.execInterrupt c s
  | .programDispatch c => Sys2Proof.Machine.execProgramDispatch c s
  | .quantumEnd c => Sys2Proof.Machine.execQuantumEnd c s
  | .programExit c => Sys2Proof.Machine.execProgramExit c s
  | .yield c => Sys2Proof.Machine.execYield c s
  | .resume c => Sys2Proof.Machine.execResume c s
  | .pinTail c t => Sys2Proof.Machine.execPinTail c t s
  | .poutTail c t => Sys2Proof.Machine.execPoutTail c t s
  | .programTimeout tag => Sys2Proof.Machine.execProgramTimeout tag s
  | .memcSchedule q sub arrivals elapsed errs => Sys2Proof.Machine.execMemcSchedule q sub arrivals elapsed errs s
  | .dramBurstRead q id errs slm => Sys2Proof.Machine.execDramBurstRead q id errs slm s
  | .mr4Poll q hot => Sys2Proof.Machine.execMr4Poll q hot s
  | .refreshDue q => Sys2Proof.Machine.execRefreshDue q s
  | .rhtWindowEnd q => Sys2Proof.Machine.execRhtWindowEnd q s
  | .dqsOscRead q rank drift => Sys2Proof.Machine.execDqsOscRead q rank drift s
  | .memcFchgGo q => Sys2Proof.Machine.execMemcFchgGo q s
  | .freqChangeDone q => Sys2Proof.Machine.execFreqChangeDone q s
  | .caParityAlert q rank window again => Sys2Proof.Machine.execCaParityAlert q rank window again s
  | .scrubRead q errs slm => Sys2Proof.Machine.execScrubRead q errs slm s
  | .sramEccError unit quad inst off uncorrectable dirty => Sys2Proof.Machine.execSramEccError unit quad inst off uncorrectable dirty s
  | .mramEccError off x found => Sys2Proof.Machine.execMramEccError off x found s
  | .pailAlloc arrivals => Sys2Proof.Machine.execPailAlloc arrivals s
  | .pailFree h owner steward => Sys2Proof.Machine.execPailFree h owner steward s
  | .pailCacheRefill n => Sys2Proof.Machine.execPailCacheRefill n s
  | .getVersion c reqId len zeros => Sys2Proof.Machine.execGetVersion c reqId len zeros s
  | .getIdentity c reqId len zeros => Sys2Proof.Machine.execGetIdentity c reqId len zeros s
  | .attest c reqId len challenge mask zeros => Sys2Proof.Machine.execAttest c reqId len challenge mask zeros s
  | .getNonce c reqId len zeros => Sys2Proof.Machine.execGetNonce c reqId len zeros s
  | .lcsChange c reqId len zeros t => Sys2Proof.Machine.execLcsChange c reqId len zeros t s
  | .lifeCycleBurn => Sys2Proof.Machine.execLifeCycleBurn s
  | .debugAuth c reqId len zeros t => Sys2Proof.Machine.execDebugAuth c reqId len zeros t s
  | .installCert c reqId zeros chain leafOk => Sys2Proof.Machine.execInstallCert c reqId zeros chain leafOk s
  | .installStreamkey c reqId zeros slot key => Sys2Proof.Machine.execInstallStreamkey c reqId zeros slot key s
  | .evtHostAckSeq value => Sys2Proof.Machine.execEvtHostAckSeq value s
  | .evtSwtrig value => Sys2Proof.Machine.execEvtSwtrig value s
  | .evtRoute n value => Sys2Proof.Machine.execEvtRoute n value s
  | .pmuRun on => Sys2Proof.Machine.execPmuRun on s
  | .pmuFreeze on => Sys2Proof.Machine.execPmuFreeze on s
  | .pmuClear => Sys2Proof.Machine.execPmuClear s
  | .pmuCntWrite j value inc => Sys2Proof.Machine.execPmuCntWrite j value inc s
  | .pmuOverflow j n => Sys2Proof.Machine.execPmuOverflow j n s
  | .finjEnable j value => Sys2Proof.Machine.execFinjEnable j value s
  | .tapReset => Sys2Proof.Machine.execTapReset s
  | .extest drive pins => Sys2Proof.Machine.execExtest drive pins s
  | .samplePreload preload pins => Sys2Proof.Machine.execSamplePreload preload pins s
  | .idcode => Sys2Proof.Machine.execIdcode s
  | .clamp => Sys2Proof.Machine.execClamp s
  | .highz => Sys2Proof.Machine.execHighz s
  | .biststat => Sys2Proof.Machine.execBiststat s
  | .scan => Sys2Proof.Machine.execScan s
  | .dbg => Sys2Proof.Machine.execDbg s
  | .bypass => Sys2Proof.Machine.execBypass s
  | .dbgHalt c => Sys2Proof.Machine.execDbgHalt c s
  | .dbgStep c upto => Sys2Proof.Machine.execDbgStep c upto s
  | .dbgResume c => Sys2Proof.Machine.execDbgResume c s
  | .dbgAccess c x write value => Sys2Proof.Machine.execDbgAccess c x write value s
  | .uartRxByte b => Sys2Proof.Machine.execUartRxByte b s
  | .sensorRead temps => Sys2Proof.Machine.execSensorRead temps s
  | .throttleExit => Sys2Proof.Machine.execThrottleExit s
  | .coreVselStep up => Sys2Proof.Machine.execCoreVselStep up s
  | .powerLoss => Sys2Proof.Machine.execPowerLoss s
  | .strapChange cid portmode bootsel => Sys2Proof.Machine.execStrapChange cid portmode bootsel s
  | .autonomousPowerStateTransition p => Sys2Proof.Machine.execAutonomousPowerStateTransition p s
  | .interruptCoalescingTimeout p y => Sys2Proof.Machine.execInterruptCoalescingTimeout p y s
  | .pageIdleClose q b => Sys2Proof.Machine.execPageIdleClose q b s
  | .gwlFrameHunt l found => Sys2Proof.Machine.execGwlFrameHunt l found s
  | .reservedWord c word => Sys2Proof.Machine.execReservedWord c word s

end Sys2Proof.Machine
end

