-- ==== Sys2Proof/Machine/Tick.lean ====
section
/-! DEFINITION. What one idle step does: a millisecond passes (DESIGN CHOICE, assumption 2). The commands themselves
take no time, since the spec gives the order of events and no durations for most of them. -/

namespace Sys2Proof.Machine

/-- The retention seconds one second adds at the hottest valid junction temperature: doubled for every full 10 C above
40 C (R153). -/
def Dev.ageRate (d : Dev) : Nat := 2 ^ ((d.kelvin - 313).toNat / 10)

/-- One second of retention age for every block that holds data (R153). -/
def Dev.ageBlocks (d : Dev) : Dev :=
  let up (p : Nat × Blk) : Nat × Blk :=
    if p.2.state = .open ∨ p.2.state = .closed then (p.1, { p.2 with age := p.2.age + d.ageRate }) else p
  { d with md := { d.md with blocks := d.md.blocks.map up } }

/-- CCTEMP in kelvin: 378 for -C, 383 for -E (R80). -/
def Dev.cctemp (d : Dev) : Int := if d.fuses.tempE then 383 else 378

/-- The bin of TEMPHIST (R158) of a temperature in C. -/
def tempBin (t : Int) : Nat := if t < 0 then 0 else min 12 (1 + (t / 10).toNat)

/-- A minute ends: the temperature history, the minutes above WCTEMP and CCTEMP and those throttled (R157, R158), and the
early-warning conditions over the last hour and the last day (R159: 6, 7 and 15). -/
def Dev.minute (d : Dev) : Dev :=
  let k := d.kelvin
  let hotNow := d.f F.PWR_THERM_LEVEL != 0
  let bin := tempBin (k - 273)
  let d1 := { d with
    nv := { d.nv with
      tempHist := AMap.set 0 bin (satAdd 32 (AMap.get 0 bin d.nv.tempHist) 1) d.nv.tempHist
      warnMin := if 373 < k then d.nv.warnMin + 1 else d.nv.warnMin
      critMin := if d.cctemp < k then d.nv.critMin + 1 else d.nv.critMin
      onMin := d.nv.onMin + 1
      busyMin := if d.host.latches.any (fun l => l.io) then d.nv.busyMin + 1 else d.nv.busyMin
      throtMin := if hotNow then satAdd 32 d.nv.throtMin 1 else d.nv.throtMin }
    mode := { d.mode with hot := (hotNow :: d.mode.hot).take 1440 } }
  let now := (AMap.get 0 112 d.md.media, AMap.get 0 128 d.md.media, d.media.softs)
  let old := d1.mode.hourly.getD 59 (d1.mode.hourly.getLast?.getD now)
  let d2 := { d1 with mode := { d1.mode with hourly := (now :: d1.mode.hourly).take 60 } }
  let read := now.1 - old.1
  ((d2.ewSet 6 (decide (read < 10000 * (now.2.1 - old.2.1)))).ewSet 7
    (decide (read < 100000 * (now.2.2 - old.2.2)))).ewSet 15 (decide (60 < (d2.mode.hot.filter (fun b => b)).length))

/-- Cycles a core island runs in a millisecond: the stream's CLOCKS target of its quadrant, 2.0 GHz where no stream is in force. -/
def Dev.coreKhz (d : Dev) (q : Nat) : Nat := 1000 * ((d.boot.stream.map Stream.clocks).getD []).getD q 2000

/-- The core islands' cycles of a millisecond: PMU source 0x1B8, and each core's cycles at P, at S and in WFE (CORE_CNT 1 to 3). -/
def Dev.coreCycles (d : Dev) : Dev :=
  let island (e : Dev) (q : Nat) : Dev := e.count 0x1B8 q noPlot (e.coreKhz q)
  let core (e : Dev) (c : Nat) : Dev :=
    let st := e.f (F.CORE_STAT_STATE c)
    if e.quadOk (c / 8) ∧ 1 ≤ st ∧ st ≤ 3 then e.coreBump c st (e.coreKhz (c / 8)) else e
  (List.range 32).foldl core (d.quads.foldl island d)

/-- A millisecond passes: the part's clock advances, the PMU's cycle and microsecond sources count (R413: 2.0 GHz), and
each whole second ages the blocks, and shutdowns that wait go on (R74). Nothing else happens by time alone: every timeout and period is a command. -/
def Dev.tick (d : Dev) : Dev :=
  if d.test.scanStopped then d
  else
    let d1 := { d with mode := { d.mode with ms := d.mode.ms + 1 }, pins := { d.pins with upMs := d.pins.upMs + Bool.nat (d.pins.resetN && d.pins.supply) } }
    let d2 := if d1.mode.ms % 1000 = 0 ∧ d1.pins.supply then d1.ageBlocks.retainCheck else d1
    let d3 := if d2.mode.ms % 60000 = 0 ∧ d2.f F.TOP_MODE_MODE ≠ 0 then d2.minute.almanacTouch else d2
    if d3.f F.TOP_MODE_MODE = 0 then d3
    else (((((d3.count 0x000 0 noPlot 2000000).count 0x001 0 noPlot 1000).coreCycles).shutdownSweep.testSweep.halwServe).testSteps).overflows

end Sys2Proof.Machine
end

