-- ==== Sys2Proof/Safety.lean ====
section
/-! DEFINITION. What a safe step is, and the words the statements are written in. -/

namespace Sys2Proof.Machine

/-- A step answers a next state: it neither faults nor is refused. -/
def State.Goes (s : State) : Prop := ∃ t, step s = .next t

/-- The part's clocks run: logic scan has not stopped them (R420). -/
abbrev State.live (s : State) : Prop := s.dev.test.scanStopped = false

/-- The command completes in `s`: its own effect leaves the part as some `e` with `P e`, and all that follows are the PMU_OVERFLOW
events of counters that the effect has wrapped (R415); with none wrapped the next state is `e` itself. -/
def Effects (i : Instr) (s : State) (P : Dev → Prop) : Prop :=
  ∃ e : Dev, exec i s = .next { s with dev := e.overflows } ∧ P e

/-- An outstanding admin command passes the checks of R67 up to the command's own: the plot's right (`mgr` marks a command of plot
0), the reserved fields, the mode (`safe` for one that SAFE accepts, `san` for one that SANITIZE admits). -/
def Dev.admits (d : Dev) (c : NCmd) (mgr safe san : Bool) : Bool :=
  d.outstanding c.id && !(mgr && c.id.plot != 0) && !c.rsvd && !(d.hostActivity.f F.TOP_MODE_MODE == 1 && !safe) &&
    !(d.hostActivity.f F.TOP_MODE_MODE == 3 && !san)

/-- As `Dev.admits`, and the part is not in DOZE (R54). -/
def Dev.admitsUp (d : Dev) (c : NCmd) (mgr safe san : Bool) : Bool :=
  d.admits c mgr safe san && d.hostActivity.f F.TOP_MODE_MODE != 0xA

/-- An outstanding Set Features passes the checks of R67 and R79 up to the feature's own. -/
def Dev.admitsFeature (d : Dev) (c : NCmd) (save saveable mgr san : Bool) : Bool :=
  d.admits c false false san && !(mgr && c.id.plot != 0) && !(save && !saveable)

/-- An outstanding I/O command to namespace `n`, attached to its plot, passes step 2 of R67: its reserved fields, the mode, the
namespace's state, the fence and the read-only condition for one that changes the media, and the reservation. -/
def Dev.admitsIo (d : Dev) (c : NCmd) (change : Bool) (a : Access) (n : Ns) : Bool :=
  let e := d.hostActivity
  d.outstanding c.id && !c.rsvd && decide (e.f F.TOP_MODE_MODE ≠ 1 ∧ e.f F.TOP_MODE_MODE ≠ 3 ∧ e.f F.TOP_MODE_MODE ≠ 0xA) &&
    decide (e.md.nss.find? (fun x => x.nsid == c.nsid && x.attached.contains c.id.plot) = some n) && !e.notReady n &&
    !(change && n.cluster.isSome && e.flag F.TOP_MODE_CFENCE) && !(change && e.flag F.TOP_MODE_CRO) && !n.resv.bars c.id.plot a

/-- An outstanding command of the computational command sets to namespace `nsid` passes the checks up to its own: its controller runs
with CC.CSS = 110b (R454) beside those of R67. -/
def Dev.admitsCompute (d : Dev) (c : NCmd) (nsid : Nat) : Bool :=
  let e := d.hostActivity
  d.outstanding c.id && !c.rsvd && decide (e.f F.TOP_MODE_MODE ≠ 1 ∧ e.f F.TOP_MODE_MODE ≠ 3 ∧ e.f F.TOP_MODE_MODE ≠ 0xA) &&
    !(e.f F.TOP_MODE_MODE == 5 && !e.flag F.MAPW_STAT_ADMIT) && c.nsid == nsid && (e.ctrl c.id.plot).css == 6

/-- A command's data pointer describes data of `need` bytes rightly, or it moves no data (R76, R77). -/
def dataFits (c : NCmd) (need : Nat) (read : Bool) : Bool := need == 0 || (ptrFail c.dp need read).isNone

/-- The data pointer of an admin command describes data of `need` bytes rightly with PRPs, or the command moves no data (R76). -/
def prpFits (c : NCmd) (need : Nat) (read : Bool) : Bool :=
  need == 0 || ((match c.dp with
    | .sgl _ => false
    | .prp _ _ => true) && (ptrFail c.dp need read).isNone)

/-- Core `c` executes the instruction it meets at its pc: it runs, is not halted, no quantum has ended, it does not wait, takes no interrupt first, the fetch
is permitted, and the guard `g` holds (R305, R328). -/
def Dev.executes (d : Dev) (c g : Nat) : Bool :=
  d.coreRuns c && !(d.cpu c).halted && !(d.cpu c).preemptDue && !(d.cpu c).waiting && !d.irqDue c &&
    (d.fetchTrap c (d.cpu c).pc.toNat).isNone && condHolds g (d.cpu c).fl

/-- Core `c` retires one instruction with `v` in rd and `fl` in its flags: nothing else of the part changes but pc, the load delay
and the counters of retired instructions. -/
def Dev.writes (d : Dev) (c rd : Nat) (v fl : W64) : Dev := d.retire c 1 { (d.cpu c).setReg rd v with fl := fl }

/-- Core `c` retires a load: `v` is in rd, and the next instruction's explicit fields read `old` there (R308). -/
def Dev.loads (d : Dev) (c rd : Nat) (v old : W64) : Dev :=
  let e := d.retire c 1 ((d.cpu c).setReg rd v)
  e.setCpu c { e.cpu c with delay := some (rd, old) }

/-- As `Dev.loads`, with `fl` in the flags as well: the end of CAS. -/
def Dev.swaps (d : Dev) (c rd : Nat) (v old fl : W64) : Dev :=
  let e := d.retire c 1 { (d.cpu c).setReg rd v with fl := fl }
  e.setCpu c { e.cpu c with delay := some (rd, old) }

/-- The value an explicit register field of the instruction reads on core `c`. -/
def Dev.x (d : Dev) (c i : Nat) : W64 := (d.cpu c).xreg i

/-- The flags of core `c`. -/
def Dev.flags (d : Dev) (c : Nat) : W64 := (d.cpu c).fl

/-- Does a write of this register do what a row or a rule of its own says (R10, R17)? To any other it does what the access types of its
fields say. -/
def ownWrite : Reg → Bool
  | .TOP_RESET | .TOP_QBIST | .PLOT_CTL _ | .PLOT_QV _ | .PLOT_FETCH _ | .PLOT_SLM _ | .PLOT_FCORE _ | .PLOT_EWT _ | .PLOT_ECAP _ => true
  | .MAPW_COMPOST | .GWL_HB | .MEMC_SCHED _ | .STRP_RBCFG | .TREL_RBASE _ _ | .TREL_RCTL _ _ | .TREL_RSUB _ _ | .TREL_RACK _ _ => true
  | .SIEVE_UCMD _ | .SIEVE_TBL _ _ | .DGST_SCTL _ _ | .DGST_DATA _ _ | .DGST_LAST _ _ _ | .DGST_EXP _ _ _ => true
  | .CORE_RGN _ _ | .CORE_RLIM _ _ | .MEMC_FCHG _ | .MEMC_TSET _ _ | .PAIL_POOLWM _ => true
  | .EVT_JCFG | .EVT_HOST_ACK_SEQ | .EVT_SWTRIG | .EVT_ROUTE _ | .PMU_CTL | .PMU_CNT _ | .FINJ_INJ _ => true
  | _ => false

/-- The part without control space, the event system and the host interface. Two states with the same still part differ in those
three alone. -/
def Dev.still (d : Dev) : Dev := { d with regs := [], evt := EvtSt.init, host := HostSt.init }

/-- The leases that a sequence of requests (plot, user label, epoch) obtains from the GCM counter table (R284), each as plot,
label, epoch, first value, one past the last. -/
def gcmLeases (t : List GcmEnt) : List (Nat × Nat × Nat) → List (Nat × Nat × Nat × Nat × Nat)
  | [] => []
  | r :: rest =>
    match gcmRequest t r.1 r.2.1 r.2.2 with
    | (t1, .ok x) => (r.1, r.2.1, r.2.2, x.1, x.2) :: gcmLeases t1 rest
    | (t1, .error _) => gcmLeases t1 rest

/-- An arbiter after a sequence of rounds, each with the requesters that wait and the one that weights, shares or priorities would
choose (R24). -/
def Arb.after (a : Arb) : List (List Nat × Nat) → Arb
  | [] => a
  | x :: rest => Arb.after (a.round x.1 (a.pick x.1 x.2)) rest

/-- The requesters that a sequence of rounds grants, in order. -/
def Arb.grants (a : Arb) : List (List Nat × Nat) → List Nat
  | [] => []
  | x :: rest => a.pick x.1 x.2 :: Arb.grants (a.round x.1 (a.pick x.1 x.2)) rest

end Sys2Proof.Machine
end

