-- ==== Sys2Proof/WellFormed.lean ====
section
/-! DEFINITION. Well-formed commands: every operand that names a part of the machine, or is a field of a fixed width, lies in its
range. The meanings do not rest on it: they give every command an outcome. -/

namespace Sys2Proof

/-- A command's identity: 512 plots, 16-bit queue and command identifiers (R14, R55, R65). -/
def CmdId.wf (x : CmdId) : Bool := decide (x.plot < 512) && decide (x.sq < 65536) && decide (x.cid < 65536)

/-- The identity of a command, or of one that has ended, under which what is left of it goes on: its 16-bit identifier, and above it the
plot generation and 1 (assumption 45). -/
def CmdId.ended (x : CmdId) : Bool := decide (x.plot < 512) && decide (x.sq < 65536) && decide (x.cid < 65536 * 257)

/-- An SGL descriptor has a length of 32 bits. -/
def SglDesc.wf : SglDesc → Bool
  | .data len => decide (len < 2 ^ 32)
  | .bitBucket len => decide (len < 2 ^ 32)
  | .segment => true
  | .lastSegment => true
  | .other => true

/-- A data pointer: the offsets of PRP entries in their pages of 4 KiB, or SGL descriptors (R76). -/
def DataPtr.wf : DataPtr → Bool
  | .prp first list => decide (first < 4096) && list.all (fun x => decide (x < 4096))
  | .sgl descs => descs.all SglDesc.wf

/-- An NVMe command: its identity, a 32-bit NSID, its data pointer. -/
def NCmd.wf (c : NCmd) : Bool := c.id.wf && decide (c.nsid < 2 ^ 32) && c.dp.wf

/-- A requester: one of the 32 cores, or the function of one of the 512 plots. -/
def Requester.wf : Requester → Bool
  | .manager => true
  | .security => true
  | .core c => decide (c < 32)
  | .tenant p => decide (p < 512)

/-- Protection information fields: PRCHK of 3 bits, 32-bit reference tags, 16-bit application tag and mask. -/
def PiCmd.wf (x : PiCmd) : Bool :=
  decide (x.prchk < 8) && decide (x.ref < 2 ^ 32) && decide (x.app < 2 ^ 16) && decide (x.mask < 2 ^ 16)

/-- A frame: every field within the bits of R183. -/
def GwlFrame.wf (x : GwlFrame) : Bool :=
  decide (x.ty < 8) && decide (x.len < 8) && decide (x.vc < 4) && decide (x.seq < 65536) && decide (x.ack < 65536) && decide (x.cred < 64) &&
  decide (x.credVc < 4) && decide (x.hchk < 256) && decide (x.poison < 256) && decide (x.crc < 2 ^ 32) && decide (x.dst < 8) &&
  decide (x.msg < 2 ^ (512 * x.len))

/-- A curd: at most 256 payload bytes, 4 poison bits, a 48-bit offset, a 16-bit sequence number (R210). -/
def CurdIn.wf (x : CurdIn) : Bool :=
  decide (x.vlen ≤ 256) && decide (x.poison < 16) && decide (x.offset < 2 ^ 48) && decide (x.cseq < 65536) &&
  decide (x.data < 2 ^ 2048)

/-- A memory request: 64 bytes and their mask, a 10-bit owner ID. -/
def MemReq.wf (x : MemReq) : Bool := decide (x.data < 2 ^ 512) && decide (x.mask < 2 ^ 64) && decide (x.owner < 1024)

/-- A debugger item: a general register, a special register, or 1 to 8 bytes of memory. -/
def DbgItem.wf : DbgItem → Bool
  | .g i => decide (i < 32)
  | .sr i => decide (i < 32)
  | .mem a n => decide (a < 2 ^ 64) && (n == 1 || n == 2 || n == 4 || n == 8)

/-- The operands of a command are in range. -/
def Instr.wf : Instr → Bool
  | .csrWrite by_ addr value _ => by_.wf && decide (addr < 2 ^ 33) && decide (value < 2 ^ 64)
  | .csrBadAccess by_ addr _ _ => by_.wf && decide (addr < 2 ^ 33)
  | .csrSplitReadLow by_ addr => by_.wf && decide (addr < 2 ^ 33)
  | .csrSplitReadHigh by_ addr => by_.wf && decide (addr < 2 ^ 33)
  | .csrSplitWriteLow by_ addr value => by_.wf && decide (addr < 2 ^ 33) && decide (value < 2 ^ 64)
  | .csrSplitWriteHigh by_ addr value => by_.wf && decide (addr < 2 ^ 33) && decide (value < 2 ^ 64)
  | .powerOn => true
  | .resetNAssert => true
  | .resetNRise => true
  | .topReset key _ => decide (key < 2 ^ 16)
  | .nvmSubsystemReset p _ => decide (p < 512)
  | .halwardScrubDone => true
  | .deviceBistDone _ _ _ _ _ => true
  | .quadrantBistDone _ _ _ _ _ => true
  | .dramTrainingDone _ => true
  | .sramFillDone => true
  | .dramFillDone => true
  | .firmwareVerify => true
  | .streamVerify => true
  | .mapLoadDone => true
  | .recoveryTagScanDone => true
  | .segmentRecovered _ => true
  | .recoverDone _ _ => true
  | .pwrfailFall => true
  | .pwrfailStopDone => true
  | .pwrfailRise => true
  | .pwrfailHighWaitEnd => true
  | .thermalTrip => true
  | .perstAssert port => decide (port < 2)
  | .perstDeassert port => decide (port < 2)
  | .pcieLinkUp port _ _ _ => decide (port < 2)
  | .pcieLinkDown port => decide (port < 2)
  | .pcieLinkRecovery port => decide (port < 2)
  | .qbistDue q => decide (q < 4)
  | .qbistNow => true
  | .qbistDrainDone => true
  | .qbistPatternsDone _ _ => true
  | .powerStateEntryDone => true
  | .powerStateWakeDone => true
  | .autonomousPsIdle => true
  | .sanitizeDone _ => true
  | .mramSliceTestDone _ => true
  | .extendedSelfTestDone => true
  | .fetchRound _ _ _ => true
  | .sqTailDoorbell p y _ => decide (p < 512) && decide (y < 65536)
  | .cqHeadDoorbell p y _ => decide (p < 512) && decide (y < 65536)
  | .hostCqStall p y => decide (p < 512) && decide (y < 65536)
  | .cmdTmaxExpired id _ => id.ended
  | .internalResult id _ _ _ _ _ => id.ended
  | .deleteIoSubmissionQueue c _ _ => c.wf
  | .createIoSubmissionQueue c _ _ _ _ _ => c.wf
  | .deleteIoCompletionQueue c _ => c.wf
  | .createIoCompletionQueue c _ _ _ _ _ => c.wf
  | .getLogPage c lid _ _ _ _ _ _ => c.wf && decide (lid < 256)
  | .identify c cns _ _ => c.wf && decide (cns < 256)
  | .abort c => c.wf
  | .getFeatures c fid _ cdw11 => c.wf && decide (fid < 256) && decide (cdw11 < 2 ^ 32)
  | .setArbitration c _ _ _ _ _ => c.wf
  | .setPowerManagement c _ _ => c.wf
  | .setTemperatureThreshold c _ _ _ _ => c.wf
  | .setErrorRecovery c _ _ _ => c.wf
  | .setNumberOfQueues c _ _ _ => c.wf
  | .setInterruptCoalescing c _ _ _ => c.wf
  | .setInterruptVectorConfig c _ _ _ => c.wf
  | .setWriteAtomicity c _ _ => c.wf
  | .setAsyncEventConfig c _ _ => c.wf
  | .setAutonomousPst c _ _ _ => c.wf
  | .setTimestamp c _ _ => c.wf
  | .setHostThermalMgmt c _ _ _ => c.wf
  | .setVolatileWriteCache c => c.wf
  | .setCommandBound c _ _ => c.wf
  | .setEarlyWarning c _ _ _ _ _ _ => c.wf
  | .setVendorEventNotices c _ _ => c.wf
  | .asynchronousEventRequest c => c.wf
  | .namespaceManagement c _ _ _ _ _ _ _ _ _ _ _ => c.wf
  | .namespaceAttachment c _ _ => c.wf
  | .virtualizationManagement c _ _ _ _ => c.wf
  | .formatNvm c _ _ _ _ => c.wf
  | .firmwareImageDownload c _ _ _ => c.wf
  | .firmwareCommit c _ _ => c.wf
  | .fwActivateNoReset c _ => c.wf
  | .fwActivationDrainDone _ => true
  | .fwActivationDrainTimeout _ => true
  | .streamCommit c _ _ => c.wf
  | .shortSelfTest c _ => c.wf
  | .extendedSelfTest c => c.wf
  | .selfTestAbort c => c.wf
  | .cryptoErase c => c.wf
  | .blockErase c => c.wf
  | .reseatAnchor c _ _ => c.wf
  | .applyGraft c _ _ => c.wf
  | .securityReceive c _ _ _ => c.wf
  | .flush c => c.wf
  | .write c slba _ pi => c.wf && decide (slba < 2 ^ 64) && pi.wf
  | .writeTransferResume => true
  | .read c slba _ pi => c.wf && decide (slba < 2 ^ 64) && pi.wf
  | .writeUncorrectable c slba _ => c.wf && decide (slba < 2 ^ 64)
  | .compare c slba _ pi => c.wf && decide (slba < 2 ^ 64) && pi.wf
  | .writeZeroes c slba _ _ => c.wf && decide (slba < 2 ^ 64)
  | .datasetManagement c _ _ => c.wf
  | .verify c slba _ pi => c.wf && decide (slba < 2 ^ 64) && pi.wf
  | .reservationRegister c _ _ _ _ _ => c.wf
  | .reservationReport c _ => c.wf
  | .reservationAcquire c _ _ _ _ _ => c.wf
  | .reservationRelease c _ _ _ _ => c.wf
  | .copy c sdlba _ _ pr pw => c.wf && decide (sdlba < 2 ^ 64) && pr.wf && pw.wf
  | .executeProgram c _ _ _ => c.wf
  | .loadProgram c _ _ _ _ _ _ _ _ _ => c.wf
  | .programActivationManagement c _ _ => c.wf
  | .memoryRangeSetManagement c _ _ _ => c.wf
  | .memoryRead c _ _ => c.wf
  | .memoryWrite c _ _ => c.wf
  | .memoryCopy c _ _ => c.wf
  | .memoryFill c _ _ _ => c.wf
  | .ccEnable p _ _ _ _ => decide (p < 512)
  | .ccDisable p => decide (p < 512)
  | .normalShutdown p => decide (p < 512)
  | .abruptShutdown p => decide (p < 512)
  | .functionLevelReset p => decide (p < 512)
  | .miStatus _ => true
  | .miVendorIdSerial _ => true
  | .miEloaskoBlock _ => true
  | .smbusSclTimeout => true
  | .plotEnable n => decide (n < 512)
  | .plotDisable n => decide (n < 512)
  | .vfEnableClear _ n => decide (n < 512)
  | .plotRst n => decide (n < 512)
  | .plotResetPoint n _ => decide (n < 512)
  | .plotSlmFillDone n => decide (n < 512)
  | .plotShareWrite n _ _ => decide (n < 512)
  | .slmGrowFillDone n => decide (n < 512)
  | .mbSeqWrite n _ _ => decide (n < 512)
  | .mbAckWrite n _ _ => decide (n < 512)
  | .mbIncWrite n _ _ => decide (n < 512)
  | .mbSlotWrite n _ _ _ => decide (n < 512)
  | .dieDiscovery die _ _ _ _ _ _ _ _ _ => decide (die < 2048)
  | .channelTraining ch _ _ => decide (ch < 32)
  | .dieOpIssue die => decide (die < 2048)
  | .dieStatusPoll die _ => decide (die < 2048)
  | .dieTimeout die => decide (die < 2048)
  | .dieResetTimeout die => decide (die < 2048)
  | .programSuspend die => decide (die < 2048)
  | .codewordDecode _ _ _ => true
  | .readRetryReread die _ _ _ _ _ => decide (die < 2048)
  | .softDecode _ _ _ _ => true
  | .reconstruction _ _ _ _ _ => true
  | .targetRetrain _ _ _ => true
  | .journalBatchClose => true
  | .journalBatchCommit => true
  | .checkpointPassStart => true
  | .segmentCopyDone _ => true
  | .destage nsid _ _ _ => decide (nsid < 2 ^ 32)
  | .nandProgramDone die => decide (die < 2048)
  | .progFail die => decide (die < 2048)
  | .eraseDone die => decide (die < 2048)
  | .eraseFail die => decide (die < 2048)
  | .compostVictim _ => true
  | .relocationCopyDone nsid _ => decide (nsid < 2 ^ 32)
  | .readDisturbLimit die _ => decide (die < 2048)
  | .retentionLimit die _ => decide (die < 2048)
  | .stripeReplay _ => true
  | .mapWalkDone _ => true
  | .rebuildStripe _ _ _ => true
  | .rakeStripeCheck _ _ _ _ _ _ => true
  | .gwlLinkUp l _ _ => decide (l < 4)
  | .gwlTrainRetry l => decide (l < 4)
  | .gwlDataFrame l f => decide (l < 4) && f.wf
  | .gwlIdleFrame l f => decide (l < 4) && f.wf
  | .gwlNak l f => decide (l < 4) && f.wf
  | .gwlTrainFrame l _ _ _ _ => decide (l < 4)
  | .gwlHeartbeat l f => decide (l < 4) && f.wf
  | .gwlReplayTimeout l => decide (l < 4)
  | .gwlAckHoldTimeout l => decide (l < 4)
  | .gwlLinkTimeout l => decide (l < 4)
  | .heartbeatPeriod => true
  | .memberLost i => decide (i < 8)
  | .viewChange fresh => decide (fresh < 256)
  | .chunkForward src nsid _ _ _ _ => decide (src < 8) && decide (nsid < 2 ^ 32)
  | .chunkResult src nsid _ _ _ _ => decide (src < 8) && decide (nsid < 2 ^ 32)
  | .clusterShareReserve src nsid _ _ _ _ _ _ _ => decide (src < 8) && decide (nsid < 2 ^ 32)
  | .stripeLock _ _ nsid _ _ _ _ => decide (nsid < 2 ^ 32)
  | .prepare src _ _ nsid _ _ _ _ => decide (src < 8) && decide (nsid < 2 ^ 32)
  | .prepared _ _ _ _ _ => true
  | .mirrorEntry _ => true
  | .mirrorAck _ _ _ => true
  | .clusterCommit src _ _ => decide (src < 8)
  | .clusterAbort _ _ => true
  | .transactionDone _ _ => true
  | .clusterJournalResolve _ _ => true
  | .decisionQuery src _ _ _ => decide (src < 8)
  | .resyncStripe _ nsid _ _ _ => decide (nsid < 2 ^ 32)
  | .anchorToken _ => true
  | .trelRsub q _ seq => decide (q < 4) && decide (seq < 2 ^ 32)
  | .trelRack q _ seq => decide (q < 4) && decide (seq < 2 ^ 32)
  | .ringEnable q _ value => decide (q < 4) && decide (value < 2 ^ 32)
  | .jobStart q _ _ => decide (q < 4)
  | .curdArrival q _ _ curd _ => decide (q < 4) && curd.wf
  | .creditReturn q _ _ => decide (q < 4)
  | .jobEnd q _ => decide (q < 4)
  | .jobTimeout q _ => decide (q < 4)
  | .skimUnit q _ _ _ _ _ _ _ _ _ => decide (q < 4)
  | .skimRebind q _ _ => decide (q < 4)
  | .segmentSwapped q => decide (q < 4)
  | .churnJobSwitch q _ _ _ => decide (q < 4)
  | .iuCompress q nsid _ => decide (q < 4) && decide (nsid < 2 ^ 32)
  | .iuDecompress nsid _ => decide (nsid < 2 ^ 32)
  | .sieveJobSwitch q _ _ => decide (q < 4)
  | .camSearch q _ _ _ _ _ => decide (q < 4)
  | .camWrite q _ _ => decide (q < 4)
  | .insertAt q _ _ => decide (q < 4)
  | .insertKey q _ _ => decide (q < 4)
  | .camDelete q _ _ => decide (q < 4)
  | .clearTable q _ => decide (q < 4)
  | .updateDone q => decide (q < 4)
  | .sieveTblWrite q _ value => decide (q < 4) && decide (value < 2 ^ 32)
  | .keyDerivation q _ _ _ => decide (q < 4)
  | .gcmLease q _ => decide (q < 4)
  | .gcmTagCheck q _ => decide (q < 4)
  | .engineSwitch q _ _ _ => decide (q < 4)
  | .dgstOpen q ses plot => decide (q < 4) && decide (ses < 8) && decide (plot < 512)
  | .dgstData q ses plot word _ => decide (q < 4) && decide (ses < 8) && decide (plot < 512) && decide (word < 2 ^ 64)
  | .dgstLast q ses _ plot word _ => decide (q < 4) && decide (ses < 8) && decide (plot < 512) && decide (word < 2 ^ 64)
  | .dgstFin0 q ses plot => decide (q < 4) && decide (ses < 8) && decide (plot < 512)
  | .dgstAbort q ses plot => decide (q < 4) && decide (ses < 8) && decide (plot < 512)
  | .dgstDigestDone q ses _ => decide (q < 4) && decide (ses < 8)
  | .dgstIdleTimeout q ses => decide (q < 4) && decide (ses < 8)
  | .dgstExpWrite q ses _ plot _ _ => decide (q < 4) && decide (ses < 8) && decide (plot < 512)
  | .add c g rd ra rb _ => decide (c < 33) && decide (g < 16) && decide (rd < 32) && decide (ra < 32) && decide (rb < 32)
  | .adc c g rd ra rb _ => decide (c < 33) && decide (g < 16) && decide (rd < 32) && decide (ra < 32) && decide (rb < 32)
  | .sub c g rd ra rb _ => decide (c < 33) && decide (g < 16) && decide (rd < 32) && decide (ra < 32) && decide (rb < 32)
  | .sbc c g rd ra rb _ => decide (c < 33) && decide (g < 16) && decide (rd < 32) && decide (ra < 32) && decide (rb < 32)
  | .neg c g rd ra _ => decide (c < 33) && decide (g < 16) && decide (rd < 32) && decide (ra < 32)
  | .and c g rd ra rb _ => decide (c < 33) && decide (g < 16) && decide (rd < 32) && decide (ra < 32) && decide (rb < 32)
  | .or c g rd ra rb _ => decide (c < 33) && decide (g < 16) && decide (rd < 32) && decide (ra < 32) && decide (rb < 32)
  | .xor c g rd ra rb _ => decide (c < 33) && decide (g < 16) && decide (rd < 32) && decide (ra < 32) && decide (rb < 32)
  | .andn c g rd ra rb _ => decide (c < 33) && decide (g < 16) && decide (rd < 32) && decide (ra < 32) && decide (rb < 32)
  | .orn c g rd ra rb _ => decide (c < 33) && decide (g < 16) && decide (rd < 32) && decide (ra < 32) && decide (rb < 32)
  | .shl c g rd ra rb _ => decide (c < 33) && decide (g < 16) && decide (rd < 32) && decide (ra < 32) && decide (rb < 32)
  | .shr c g rd ra rb _ => decide (c < 33) && decide (g < 16) && decide (rd < 32) && decide (ra < 32) && decide (rb < 32)
  | .sar c g rd ra rb _ => decide (c < 33) && decide (g < 16) && decide (rd < 32) && decide (ra < 32) && decide (rb < 32)
  | .ror c g rd ra rb _ => decide (c < 33) && decide (g < 16) && decide (rd < 32) && decide (ra < 32) && decide (rb < 32)
  | .rol c g rd ra rb _ => decide (c < 33) && decide (g < 16) && decide (rd < 32) && decide (ra < 32) && decide (rb < 32)
  | .mul c g rd ra rb _ => decide (c < 33) && decide (g < 16) && decide (rd < 32) && decide (ra < 32) && decide (rb < 32)
  | .mulhu c g rd ra rb _ => decide (c < 33) && decide (g < 16) && decide (rd < 32) && decide (ra < 32) && decide (rb < 32)
  | .mulhs c g rd ra rb _ => decide (c < 33) && decide (g < 16) && decide (rd < 32) && decide (ra < 32) && decide (rb < 32)
  | .divu c g rd ra rb _ => decide (c < 33) && decide (g < 16) && decide (rd < 32) && decide (ra < 32) && decide (rb < 32)
  | .divs c g rd ra rb _ => decide (c < 33) && decide (g < 16) && decide (rd < 32) && decide (ra < 32) && decide (rb < 32)
  | .remu c g rd ra rb _ => decide (c < 33) && decide (g < 16) && decide (rd < 32) && decide (ra < 32) && decide (rb < 32)
  | .rems c g rd ra rb _ => decide (c < 33) && decide (g < 16) && decide (rd < 32) && decide (ra < 32) && decide (rb < 32)
  | .sxtb c g rd ra _ => decide (c < 33) && decide (g < 16) && decide (rd < 32) && decide (ra < 32)
  | .sxth c g rd ra _ => decide (c < 33) && decide (g < 16) && decide (rd < 32) && decide (ra < 32)
  | .sxtw c g rd ra _ => decide (c < 33) && decide (g < 16) && decide (rd < 32) && decide (ra < 32)
  | .zxtw c g rd ra _ => decide (c < 33) && decide (g < 16) && decide (rd < 32) && decide (ra < 32)
  | .clz c g rd ra _ => decide (c < 33) && decide (g < 16) && decide (rd < 32) && decide (ra < 32)
  | .ctz c g rd ra _ => decide (c < 33) && decide (g < 16) && decide (rd < 32) && decide (ra < 32)
  | .popc c g rd ra _ => decide (c < 33) && decide (g < 16) && decide (rd < 32) && decide (ra < 32)
  | .bswap c g rd ra _ => decide (c < 33) && decide (g < 16) && decide (rd < 32) && decide (ra < 32)
  | .dadd c g rd ra rb => decide (c < 33) && decide (g < 16) && decide (rd < 32) && decide (ra < 32) && decide (rb < 32)
  | .dadc c g rd ra rb => decide (c < 33) && decide (g < 16) && decide (rd < 32) && decide (ra < 32) && decide (rb < 32)
  | .dsub c g rd ra rb => decide (c < 33) && decide (g < 16) && decide (rd < 32) && decide (ra < 32) && decide (rb < 32)
  | .dsbc c g rd ra rb => decide (c < 33) && decide (g < 16) && decide (rd < 32) && decide (ra < 32) && decide (rb < 32)
  | .daa c g rd ra => decide (c < 33) && decide (g < 16) && decide (rd < 32) && decide (ra < 32)
  | .das c g rd ra => decide (c < 33) && decide (g < 16) && decide (rd < 32) && decide (ra < 32)
  | .cvbd c g rd ra => decide (c < 33) && decide (g < 16) && decide (rd < 32) && decide (ra < 32)
  | .cvdb c g rd ra unused => decide (c < 33) && decide (g < 16) && decide (rd < 32) && decide (ra < 32) && decide (unused < 32)
  | .addi c g rd ra imm => decide (c < 33) && decide (g < 16) && decide (rd < 32) && decide (ra < 32) && decide (imm < 2 ^ 12)
  | .addis c g rd ra imm => decide (c < 33) && decide (g < 16) && decide (rd < 32) && decide (ra < 32) && decide (imm < 2 ^ 12)
  | .subis c g rd ra imm => decide (c < 33) && decide (g < 16) && decide (rd < 32) && decide (ra < 32) && decide (imm < 2 ^ 12)
  | .andi c g rd ra imm => decide (c < 33) && decide (g < 16) && decide (rd < 32) && decide (ra < 32) && decide (imm < 2 ^ 12)
  | .ori c g rd ra imm => decide (c < 33) && decide (g < 16) && decide (rd < 32) && decide (ra < 32) && decide (imm < 2 ^ 12)
  | .xori c g rd ra imm => decide (c < 33) && decide (g < 16) && decide (rd < 32) && decide (ra < 32) && decide (imm < 2 ^ 12)
  | .andis c g rd ra imm => decide (c < 33) && decide (g < 16) && decide (rd < 32) && decide (ra < 32) && decide (imm < 2 ^ 12)
  | .shli c g rd ra imm => decide (c < 33) && decide (g < 16) && decide (rd < 32) && decide (ra < 32) && decide (imm < 2 ^ 12)
  | .shri c g rd ra imm => decide (c < 33) && decide (g < 16) && decide (rd < 32) && decide (ra < 32) && decide (imm < 2 ^ 12)
  | .sari c g rd ra imm => decide (c < 33) && decide (g < 16) && decide (rd < 32) && decide (ra < 32) && decide (imm < 2 ^ 12)
  | .rori c g rd ra imm => decide (c < 33) && decide (g < 16) && decide (rd < 32) && decide (ra < 32) && decide (imm < 2 ^ 12)
  | .seti c g rd _ imm => decide (c < 33) && decide (g < 16) && decide (rd < 32) && decide (imm < 2 ^ 16)
  | .shin c g rd _ imm => decide (c < 33) && decide (g < 16) && decide (rd < 32) && decide (imm < 2 ^ 16)
  | .addpc c g rd imm => decide (c < 33) && decide (g < 16) && decide (rd < 32) && decide (imm < 2 ^ 17)
  | .lb c g rd ra imm => decide (c < 33) && decide (g < 16) && decide (rd < 32) && decide (ra < 32) && decide (imm < 2 ^ 12)
  | .lbu c g rd ra imm => decide (c < 33) && decide (g < 16) && decide (rd < 32) && decide (ra < 32) && decide (imm < 2 ^ 12)
  | .lh c g rd ra imm => decide (c < 33) && decide (g < 16) && decide (rd < 32) && decide (ra < 32) && decide (imm < 2 ^ 12)
  | .lhu c g rd ra imm => decide (c < 33) && decide (g < 16) && decide (rd < 32) && decide (ra < 32) && decide (imm < 2 ^ 12)
  | .lw c g rd ra imm => decide (c < 33) && decide (g < 16) && decide (rd < 32) && decide (ra < 32) && decide (imm < 2 ^ 12)
  | .lwu c g rd ra imm => decide (c < 33) && decide (g < 16) && decide (rd < 32) && decide (ra < 32) && decide (imm < 2 ^ 12)
  | .ld c g rd ra imm => decide (c < 33) && decide (g < 16) && decide (rd < 32) && decide (ra < 32) && decide (imm < 2 ^ 12)
  | .sb c g rd ra imm => decide (c < 33) && decide (g < 16) && decide (rd < 32) && decide (ra < 32) && decide (imm < 2 ^ 12)
  | .sh c g rd ra imm => decide (c < 33) && decide (g < 16) && decide (rd < 32) && decide (ra < 32) && decide (imm < 2 ^ 12)
  | .sw c g rd ra imm => decide (c < 33) && decide (g < 16) && decide (rd < 32) && decide (ra < 32) && decide (imm < 2 ^ 12)
  | .sd c g rd ra imm => decide (c < 33) && decide (g < 16) && decide (rd < 32) && decide (ra < 32) && decide (imm < 2 ^ 12)
  | .cas c g rd ra rb => decide (c < 33) && decide (g < 16) && decide (rd < 32) && decide (ra < 32) && decide (rb < 32)
  | .bcc c g cond disp => decide (c < 33) && decide (g < 16) && decide (cond < 16) && decide (disp < 2 ^ 18)
  | .b c g disp => decide (c < 33) && decide (g < 16) && decide (disp < 2 ^ 22)
  | .bl c g disp => decide (c < 33) && decide (g < 16) && decide (disp < 2 ^ 22)
  | .br c g ra => decide (c < 33) && decide (g < 16) && decide (ra < 32)
  | .blr c g ra => decide (c < 33) && decide (g < 16) && decide (ra < 32)
  | .mfsr c g rd sr unused => decide (c < 33) && decide (g < 16) && decide (rd < 32) && decide (sr < 32) && decide (unused < 64)
  | .mtsr c g sr ra unused => decide (c < 33) && decide (g < 16) && decide (sr < 32) && decide (ra < 32) && decide (unused < 64)
  | .rte c g unused => decide (c < 33) && decide (g < 16) && decide (unused < 2 ^ 16)
  | .fence c g => decide (c < 33) && decide (g < 16)
  | .wfe c g => decide (c < 33) && decide (g < 16)
  | .svc c g imm => decide (c < 33) && decide (g < 16) && decide (imm < 2 ^ 16)
  | .brk c g imm => decide (c < 33) && decide (g < 16) && decide (imm < 2 ^ 16)
  | .rep c g mode next _ => decide (c < 33) && decide (g < 16) && decide (mode < 4) && decide (next < 2 ^ 32)
  | .movb c g => decide (c < 33) && decide (g < 16)
  | .movd c g => decide (c < 33) && decide (g < 16)
  | .filb c g => decide (c < 33) && decide (g < 16)
  | .fild c g => decide (c < 33) && decide (g < 16)
  | .cmpb c g => decide (c < 33) && decide (g < 16)
  | .cmpd c g => decide (c < 33) && decide (g < 16)
  | .scnb c g => decide (c < 33) && decide (g < 16)
  | .scnd c g => decide (c < 33) && decide (g < 16)
  | .interrupt c => decide (c < 33)
  | .programDispatch c => decide (c < 33)
  | .quantumEnd c => decide (c < 33)
  | .programExit c => decide (c < 33)
  | .yield c => decide (c < 33)
  | .resume c => decide (c < 33)
  | .pinTail c _ => decide (c < 33)
  | .poutTail c _ => decide (c < 33)
  | .programTimeout _ => true
  | .memcSchedule q x arrivals _ _ => decide (q < 4) && decide (x < 2) && arrivals.all MemReq.wf
  | .dramBurstRead q _ _ _ => decide (q < 4)
  | .mr4Poll q _ => decide (q < 4)
  | .refreshDue q => decide (q < 4)
  | .rhtWindowEnd q => decide (q < 4)
  | .dqsOscRead q _ _ => decide (q < 4)
  | .memcFchgGo q => decide (q < 4)
  | .freqChangeDone q => decide (q < 4)
  | .caParityAlert q _ _ _ => decide (q < 4)
  | .scrubRead q _ _ => decide (q < 4)
  | .sramEccError _ _ _ _ _ _ => true
  | .mramEccError _ _ _ => true
  | .pailAlloc _ => true
  | .pailFree _ _ _ => true
  | .pailCacheRefill _ => true
  | .getVersion c _ _ _ => c.wf
  | .getIdentity c _ _ _ => c.wf
  | .attest c _ _ _ _ _ => c.wf
  | .getNonce c _ _ _ => c.wf
  | .lcsChange c _ _ _ _ => c.wf
  | .lifeCycleBurn => true
  | .debugAuth c _ _ _ _ => c.wf
  | .installCert c _ _ _ _ => c.wf
  | .installStreamkey c _ _ _ _ => c.wf
  | .evtHostAckSeq value => decide (value < 2 ^ 32)
  | .evtSwtrig value => decide (value < 2 ^ 32)
  | .evtRoute n value => decide (n < 512) && decide (value < 2 ^ 32)
  | .pmuRun _ => true
  | .pmuFreeze _ => true
  | .pmuClear => true
  | .pmuCntWrite i value _ => decide (i < 48) && decide (value < 2 ^ 64)
  | .pmuOverflow i _ => decide (i < 48)
  | .finjEnable i value => decide (i < 16) && decide (value < 2 ^ 32)
  | .tapReset => true
  | .extest _ _ => true
  | .samplePreload _ _ => true
  | .idcode => true
  | .clamp => true
  | .highz => true
  | .biststat => true
  | .scan => true
  | .dbg => true
  | .bypass => true
  | .dbgHalt c => decide (c < 33)
  | .dbgStep c _ => decide (c < 33)
  | .dbgResume c => decide (c < 33)
  | .dbgAccess c x _ _ => decide (c < 33) && x.wf
  | .uartRxByte x => decide (x < 256)
  | .sensorRead _ => true
  | .throttleExit => true
  | .coreVselStep _ => true
  | .powerLoss => true
  | .strapChange _ _ _ => true
  | .autonomousPowerStateTransition p => decide (p < 512)
  | .interruptCoalescingTimeout p y => decide (p < 512) && decide (y < 65536)
  | .pageIdleClose q _ => decide (q < 4)
  | .gwlFrameHunt l _ => decide (l < 4)
  | .reservedWord c word => decide (c < 33) && decide (word < 2 ^ 32)

end Sys2Proof
end

