-- ==== Sys2Proof/Certificates/Slice0/Obligations.lean ====
section
/-! DEFINITION. The statements. Each docstring says which rule of spec/ the statement formalises. `Effects i s P` says that command
`i` completes in `s` with an effect that leaves the part in a state with `P`. -/

open Sys2Proof Sys2Proof.Machine

/-- On a core that executes it, each of ADD, ADC, SUB, SBC, AND, OR, XOR, ANDN, ORN, MUL, MULHU and MULHS completes: rd takes the value of its row, the flags take the row's flags when S = 1 and stay otherwise, pc moves past the word, and nothing else of the part changes but the retired-instruction counters (the next state is given whole). -/
def Obligations.RegisterAluWritesResult : Prop :=
    (∀ (s : State) (c g rd ra rb : Nat) (sf : Bool), s.live →
      s.dev.executes c g →
      Effects (.add c g rd ra rb sf) s (fun e =>
        e = s.dev.writes c rd ((s.dev.x c ra) + (s.dev.x c rb)) (if sf then (addRes (s.dev.flags c) (s.dev.x c ra) (s.dev.x c rb) false).fl else (s.dev.flags c)))) ∧
    (∀ (s : State) (c g rd ra rb : Nat) (sf : Bool), s.live →
      s.dev.executes c g →
      Effects (.adc c g rd ra rb sf) s (fun e =>
        e = s.dev.writes c rd ((s.dev.x c ra) + (s.dev.x c rb) + (if fC (s.dev.flags c) then 1#64 else 0#64)) (if sf then (addRes (s.dev.flags c) (s.dev.x c ra) (s.dev.x c rb) (fC (s.dev.flags c))).fl else (s.dev.flags c)))) ∧
    (∀ (s : State) (c g rd ra rb : Nat) (sf : Bool), s.live →
      s.dev.executes c g →
      Effects (.sub c g rd ra rb sf) s (fun e =>
        e = s.dev.writes c rd ((s.dev.x c ra) - (s.dev.x c rb)) (if sf then (subRes (s.dev.flags c) (s.dev.x c ra) (s.dev.x c rb) true).fl else (s.dev.flags c)))) ∧
    (∀ (s : State) (c g rd ra rb : Nat) (sf : Bool), s.live →
      s.dev.executes c g →
      Effects (.sbc c g rd ra rb sf) s (fun e =>
        e = s.dev.writes c rd ((s.dev.x c ra) + ~~~(s.dev.x c rb) + (if fC (s.dev.flags c) then 1#64 else 0#64)) (if sf then (subRes (s.dev.flags c) (s.dev.x c ra) (s.dev.x c rb) (fC (s.dev.flags c))).fl else (s.dev.flags c)))) ∧
    (∀ (s : State) (c g rd ra rb : Nat) (sf : Bool), s.live →
      s.dev.executes c g →
      Effects (.and c g rd ra rb sf) s (fun e =>
        e = s.dev.writes c rd ((s.dev.x c ra) &&& (s.dev.x c rb)) (if sf then (flNZ (s.dev.flags c) ((s.dev.x c ra) &&& (s.dev.x c rb))) else (s.dev.flags c)))) ∧
    (∀ (s : State) (c g rd ra rb : Nat) (sf : Bool), s.live →
      s.dev.executes c g →
      Effects (.or c g rd ra rb sf) s (fun e =>
        e = s.dev.writes c rd ((s.dev.x c ra) ||| (s.dev.x c rb)) (if sf then (flNZ (s.dev.flags c) ((s.dev.x c ra) ||| (s.dev.x c rb))) else (s.dev.flags c)))) ∧
    (∀ (s : State) (c g rd ra rb : Nat) (sf : Bool), s.live →
      s.dev.executes c g →
      Effects (.xor c g rd ra rb sf) s (fun e =>
        e = s.dev.writes c rd ((s.dev.x c ra) ^^^ (s.dev.x c rb)) (if sf then (flNZ (s.dev.flags c) ((s.dev.x c ra) ^^^ (s.dev.x c rb))) else (s.dev.flags c)))) ∧
    (∀ (s : State) (c g rd ra rb : Nat) (sf : Bool), s.live →
      s.dev.executes c g →
      Effects (.andn c g rd ra rb sf) s (fun e =>
        e = s.dev.writes c rd ((s.dev.x c ra) &&& ~~~(s.dev.x c rb)) (if sf then (flNZ (s.dev.flags c) ((s.dev.x c ra) &&& ~~~(s.dev.x c rb))) else (s.dev.flags c)))) ∧
    (∀ (s : State) (c g rd ra rb : Nat) (sf : Bool), s.live →
      s.dev.executes c g →
      Effects (.orn c g rd ra rb sf) s (fun e =>
        e = s.dev.writes c rd ((s.dev.x c ra) ||| ~~~(s.dev.x c rb)) (if sf then (flNZ (s.dev.flags c) ((s.dev.x c ra) ||| ~~~(s.dev.x c rb))) else (s.dev.flags c)))) ∧
    (∀ (s : State) (c g rd ra rb : Nat) (sf : Bool), s.live →
      s.dev.executes c g →
      Effects (.mul c g rd ra rb sf) s (fun e =>
        e = s.dev.writes c rd ((s.dev.x c ra) * (s.dev.x c rb)) (if sf then (mulRes (s.dev.flags c) (s.dev.x c ra) (s.dev.x c rb)).fl else (s.dev.flags c)))) ∧
    (∀ (s : State) (c g rd ra rb : Nat) (sf : Bool), s.live →
      s.dev.executes c g →
      Effects (.mulhu c g rd ra rb sf) s (fun e =>
        e = s.dev.writes c rd (BitVec.ofNat 64 ((s.dev.x c ra).toNat * (s.dev.x c rb).toNat / 2 ^ 64)) (if sf then (setV (setC (flNZ (s.dev.flags c) (mulhuVal (s.dev.x c ra) (s.dev.x c rb))) false) false) else (s.dev.flags c)))) ∧
    (∀ (s : State) (c g rd ra rb : Nat) (sf : Bool), s.live →
      s.dev.executes c g →
      Effects (.mulhs c g rd ra rb sf) s (fun e =>
        e = s.dev.writes c rd (BitVec.ofInt 64 ((s.dev.x c ra).toInt * (s.dev.x c rb).toInt / 2 ^ 64)) (if sf then (setV (setC (flNZ (s.dev.flags c) (mulhsVal (s.dev.x c ra) (s.dev.x c rb))) false) false) else (s.dev.flags c))))

/-- On a core that executes it, each of SHL, SHR, SAR, ROR, ROL (by bits 7 to 0 of rb), NEG, SXTB, SXTH, SXTW, ZXTW, CLZ, CTZ, POPC and BSWAP completes: rd takes the result, the flags take the row's flags when S = 1 and stay otherwise, and nothing else of the part changes but pc, the load delay and the retired counters. -/
def Obligations.ShiftAndUnaryWriteResult : Prop :=
    (∀ (s : State) (c g rd ra rb : Nat) (sf : Bool), s.live →
      s.dev.executes c g →
      Effects (.shl c g rd ra rb sf) s (fun e =>
        e = s.dev.writes c rd (shlRes (s.dev.flags c) (s.dev.x c ra) ((s.dev.x c rb).toNat % 256)).val (if sf then (shlRes (s.dev.flags c) (s.dev.x c ra) ((s.dev.x c rb).toNat % 256)).fl else (s.dev.flags c)))) ∧
    (∀ (s : State) (c g rd ra rb : Nat) (sf : Bool), s.live →
      s.dev.executes c g →
      Effects (.shr c g rd ra rb sf) s (fun e =>
        e = s.dev.writes c rd (shrRes (s.dev.flags c) (s.dev.x c ra) ((s.dev.x c rb).toNat % 256)).val (if sf then (shrRes (s.dev.flags c) (s.dev.x c ra) ((s.dev.x c rb).toNat % 256)).fl else (s.dev.flags c)))) ∧
    (∀ (s : State) (c g rd ra rb : Nat) (sf : Bool), s.live →
      s.dev.executes c g →
      Effects (.sar c g rd ra rb sf) s (fun e =>
        e = s.dev.writes c rd (sarRes (s.dev.flags c) (s.dev.x c ra) ((s.dev.x c rb).toNat % 256)).val (if sf then (sarRes (s.dev.flags c) (s.dev.x c ra) ((s.dev.x c rb).toNat % 256)).fl else (s.dev.flags c)))) ∧
    (∀ (s : State) (c g rd ra rb : Nat) (sf : Bool), s.live →
      s.dev.executes c g →
      Effects (.ror c g rd ra rb sf) s (fun e =>
        e = s.dev.writes c rd (rorRes (s.dev.flags c) (s.dev.x c ra) ((s.dev.x c rb).toNat % 256)).val (if sf then (rorRes (s.dev.flags c) (s.dev.x c ra) ((s.dev.x c rb).toNat % 256)).fl else (s.dev.flags c)))) ∧
    (∀ (s : State) (c g rd ra rb : Nat) (sf : Bool), s.live →
      s.dev.executes c g →
      Effects (.rol c g rd ra rb sf) s (fun e =>
        e = s.dev.writes c rd (rolRes (s.dev.flags c) (s.dev.x c ra) ((s.dev.x c rb).toNat % 256)).val (if sf then (rolRes (s.dev.flags c) (s.dev.x c ra) ((s.dev.x c rb).toNat % 256)).fl else (s.dev.flags c)))) ∧
    (∀ (s : State) (c g rd ra : Nat) (sf : Bool), s.live →
      s.dev.executes c g →
      Effects (.neg c g rd ra sf) s (fun e =>
        e = s.dev.writes c rd (0#64 - (s.dev.x c ra)) (if sf then (subRes (s.dev.flags c) 0#64 (s.dev.x c ra) true).fl else (s.dev.flags c)))) ∧
    (∀ (s : State) (c g rd ra : Nat) (sf : Bool), s.live →
      s.dev.executes c g →
      Effects (.sxtb c g rd ra sf) s (fun e =>
        e = s.dev.writes c rd (((s.dev.x c ra).setWidth 8).signExtend 64) (if sf then (flNZ (s.dev.flags c) (((s.dev.x c ra).setWidth 8).signExtend 64)) else (s.dev.flags c)))) ∧
    (∀ (s : State) (c g rd ra : Nat) (sf : Bool), s.live →
      s.dev.executes c g →
      Effects (.sxth c g rd ra sf) s (fun e =>
        e = s.dev.writes c rd (((s.dev.x c ra).setWidth 16).signExtend 64) (if sf then (flNZ (s.dev.flags c) (((s.dev.x c ra).setWidth 16).signExtend 64)) else (s.dev.flags c)))) ∧
    (∀ (s : State) (c g rd ra : Nat) (sf : Bool), s.live →
      s.dev.executes c g →
      Effects (.sxtw c g rd ra sf) s (fun e =>
        e = s.dev.writes c rd (((s.dev.x c ra).setWidth 32).signExtend 64) (if sf then (flNZ (s.dev.flags c) (((s.dev.x c ra).setWidth 32).signExtend 64)) else (s.dev.flags c)))) ∧
    (∀ (s : State) (c g rd ra : Nat) (sf : Bool), s.live →
      s.dev.executes c g →
      Effects (.zxtw c g rd ra sf) s (fun e =>
        e = s.dev.writes c rd (((s.dev.x c ra).setWidth 32).setWidth 64) (if sf then (flNZ (s.dev.flags c) (((s.dev.x c ra).setWidth 32).setWidth 64)) else (s.dev.flags c)))) ∧
    (∀ (s : State) (c g rd ra : Nat) (sf : Bool), s.live →
      s.dev.executes c g →
      Effects (.clz c g rd ra sf) s (fun e =>
        e = s.dev.writes c rd (BitVec.ofNat 64 (leadZeros (s.dev.x c ra))) (if sf then (flNZ (s.dev.flags c) (BitVec.ofNat 64 (leadZeros (s.dev.x c ra)))) else (s.dev.flags c)))) ∧
    (∀ (s : State) (c g rd ra : Nat) (sf : Bool), s.live →
      s.dev.executes c g →
      Effects (.ctz c g rd ra sf) s (fun e =>
        e = s.dev.writes c rd (BitVec.ofNat 64 (trailZeros (s.dev.x c ra))) (if sf then (flNZ (s.dev.flags c) (BitVec.ofNat 64 (trailZeros (s.dev.x c ra)))) else (s.dev.flags c)))) ∧
    (∀ (s : State) (c g rd ra : Nat) (sf : Bool), s.live →
      s.dev.executes c g →
      Effects (.popc c g rd ra sf) s (fun e =>
        e = s.dev.writes c rd (BitVec.ofNat 64 (popCount 64 (s.dev.x c ra).toNat)) (if sf then (flNZ (s.dev.flags c) (BitVec.ofNat 64 (popCount 64 (s.dev.x c ra).toNat))) else (s.dev.flags c)))) ∧
    (∀ (s : State) (c g rd ra : Nat) (sf : Bool), s.live →
      s.dev.executes c g →
      Effects (.bswap c g rd ra sf) s (fun e =>
        e = s.dev.writes c rd (byteSwap (s.dev.x c ra)) (if sf then (flNZ (s.dev.flags c) (byteSwap (s.dev.x c ra))) else (s.dev.flags c))))

/-- For every operand, every fl and every amount s from 0 to 255: SHL and SHR give the shifted value, 0 from 64 up; SAR fills with the sign; ROR and ROL rotate by s mod 64. C is unchanged for an amount of 0 (for rotates, a multiple of 64), else it is the last bit shifted out, and 0 for SHL and SHR above 64; N and Z follow the result; V and H stay. -/
def Obligations.ShiftResult : Prop :=
    ∀ (fl a : W64) (n : Nat), n < 256 →
      (shlRes fl a n).val = a <<< n ∧ (shrRes fl a n).val = a >>> n ∧ (sarRes fl a n).val = a.sshiftRight n ∧
      (rorRes fl a n).val = a.rotateRight (n % 64) ∧ (rolRes fl a n).val = a.rotateLeft (n % 64) ∧
      (∀ r ∈ [shlRes fl a n, shrRes fl a n, sarRes fl a n, rorRes fl a n, rolRes fl a n],
        fN r.fl = r.val.getLsbD 63 ∧ fZ r.fl = (r.val == 0#64) ∧ fV r.fl = fV fl ∧ fH r.fl = fH fl) ∧
      fC (shlRes fl a n).fl = (if n = 0 then fC fl else if n < 64 then a.getLsbD (64 - n) else if n = 64 then a.getLsbD 63 else false) ∧
      fC (shrRes fl a n).fl = (if n = 0 then fC fl else if n ≤ 64 then a.getLsbD (n - 1) else false) ∧
      fC (sarRes fl a n).fl = (if n = 0 then fC fl else if n ≤ 64 then a.getLsbD (n - 1) else a.getLsbD 63) ∧
      fC (rorRes fl a n).fl = (if n % 64 = 0 then fC fl else (rorRes fl a n).val.getLsbD 63) ∧
      fC (rolRes fl a n).fl = (if n % 64 = 0 then fC fl else (rolRes fl a n).val.getLsbD 0)

/-- For all operands, carry in and fl: the sum is a + b + cin modulo 2^64, C is its carry out of bit 63, H that out of bit 3, V says that a and b agree in sign and the result does not, N and Z follow the result, DZ and DT stay; subtraction is the same sum of a and NOT b, with V for operands that differ in sign. -/
def Obligations.AdditionFlags : Prop :=
    ∀ (fl a b : W64) (cin : Bool),
      (addRes fl a b cin).val = a + b + (BitVec.ofBool cin).zeroExtend 64 ∧
      (subRes fl a b cin).val = a + ~~~b + (BitVec.ofBool cin).zeroExtend 64 ∧
      (∀ r ∈ [addRes fl a b cin, subRes fl a b cin], fN r.fl = r.val.getLsbD 63 ∧ fZ r.fl = (r.val == 0#64) ∧
        r.fl.getLsbD 8 = fl.getLsbD 8 ∧ fDT r.fl = fDT fl) ∧
      fC (addRes fl a b cin).fl = decide (2 ^ 64 ≤ a.toNat + b.toNat + cin.toNat) ∧
      fH (addRes fl a b cin).fl = decide (16 ≤ a.toNat % 16 + b.toNat % 16 + cin.toNat) ∧
      fV (addRes fl a b cin).fl = (a.msb == b.msb && (addRes fl a b cin).val.msb != a.msb) ∧
      fC (subRes fl a b cin).fl = decide (2 ^ 64 ≤ a.toNat + (~~~b).toNat + cin.toNat) ∧
      fH (subRes fl a b cin).fl = decide (16 ≤ a.toNat % 16 + (~~~b).toNat % 16 + cin.toNat) ∧
      fV (subRes fl a b cin).fl = (a.msb != b.msb && (subRes fl a b cin).val.msb != a.msb)

/-- On a core that executes it, DIVU, DIVS, REMU and REMS complete where the divisor is not zero or ctl.DZT is 0: rd takes the quotient or remainder of R312, V and DZ are written whatever S is, N, Z and C only with S = 1, and nothing else changes but pc, the load delay and the retired counters. With a zero divisor and ctl.DZT = 1 they set DZ and take the trap DIV_ZERO at the instruction with rd unchanged. -/
def Obligations.DivisionCompletes : Prop :=
    (∀ (s : State) (c g rd ra rb : Nat) (sf : Bool), s.live →
      s.dev.executes c g →
      ((s.dev.x c rb) = 0#64 → (s.dev.cpu c).ctl.getLsbD 0 = false) →
      Effects (.divu c g rd ra rb sf) s (fun e =>
        e = s.dev.writes c rd (divRes false false (s.dev.flags c) (s.dev.x c ra) (s.dev.x c rb)).1.val (if sf then (divRes false false (s.dev.flags c) (s.dev.x c ra) (s.dev.x c rb)).1.fl else (divRes false false (s.dev.flags c) (s.dev.x c ra) (s.dev.x c rb)).2))) ∧
    (∀ (s : State) (c g rd ra rb : Nat) (sf : Bool), s.live →
      s.dev.executes c g →
      ((s.dev.x c rb) = 0#64 → (s.dev.cpu c).ctl.getLsbD 0 = false) →
      Effects (.divs c g rd ra rb sf) s (fun e =>
        e = s.dev.writes c rd (divRes true false (s.dev.flags c) (s.dev.x c ra) (s.dev.x c rb)).1.val (if sf then (divRes true false (s.dev.flags c) (s.dev.x c ra) (s.dev.x c rb)).1.fl else (divRes true false (s.dev.flags c) (s.dev.x c ra) (s.dev.x c rb)).2))) ∧
    (∀ (s : State) (c g rd ra rb : Nat) (sf : Bool), s.live →
      s.dev.executes c g →
      ((s.dev.x c rb) = 0#64 → (s.dev.cpu c).ctl.getLsbD 0 = false) →
      Effects (.remu c g rd ra rb sf) s (fun e =>
        e = s.dev.writes c rd (divRes false true (s.dev.flags c) (s.dev.x c ra) (s.dev.x c rb)).1.val (if sf then (divRes false true (s.dev.flags c) (s.dev.x c ra) (s.dev.x c rb)).1.fl else (divRes false true (s.dev.flags c) (s.dev.x c ra) (s.dev.x c rb)).2))) ∧
    (∀ (s : State) (c g rd ra rb : Nat) (sf : Bool), s.live →
      s.dev.executes c g →
      ((s.dev.x c rb) = 0#64 → (s.dev.cpu c).ctl.getLsbD 0 = false) →
      Effects (.rems c g rd ra rb sf) s (fun e =>
        e = s.dev.writes c rd (divRes true true (s.dev.flags c) (s.dev.x c ra) (s.dev.x c rb)).1.val (if sf then (divRes true true (s.dev.flags c) (s.dev.x c ra) (s.dev.x c rb)).1.fl else (divRes true true (s.dev.flags c) (s.dev.x c ra) (s.dev.x c rb)).2))) ∧
    (∀ (s : State) (c g rd ra rb : Nat) (sf : Bool), s.live →
      s.dev.executes c g →
      (s.dev.x c rb) = 0#64 →
      (s.dev.cpu c).ctl.getLsbD 0 = true →
      Effects (.divu c g rd ra rb sf) s (fun e =>
        e = (s.dev.setCpu c { s.dev.cpu c with fl := setDZ (s.dev.flags c) }).vzTrap c 7 0 0)) ∧
    (∀ (s : State) (c g rd ra rb : Nat) (sf : Bool), s.live →
      s.dev.executes c g →
      (s.dev.x c rb) = 0#64 →
      (s.dev.cpu c).ctl.getLsbD 0 = true →
      Effects (.divs c g rd ra rb sf) s (fun e =>
        e = (s.dev.setCpu c { s.dev.cpu c with fl := setDZ (s.dev.flags c) }).vzTrap c 7 0 0)) ∧
    (∀ (s : State) (c g rd ra rb : Nat) (sf : Bool), s.live →
      s.dev.executes c g →
      (s.dev.x c rb) = 0#64 →
      (s.dev.cpu c).ctl.getLsbD 0 = true →
      Effects (.remu c g rd ra rb sf) s (fun e =>
        e = (s.dev.setCpu c { s.dev.cpu c with fl := setDZ (s.dev.flags c) }).vzTrap c 7 0 0)) ∧
    (∀ (s : State) (c g rd ra rb : Nat) (sf : Bool), s.live →
      s.dev.executes c g →
      (s.dev.x c rb) = 0#64 →
      (s.dev.cpu c).ctl.getLsbD 0 = true →
      Effects (.rems c g rd ra rb sf) s (fun e =>
        e = (s.dev.setCpu c { s.dev.cpu c with fl := setDZ (s.dev.flags c) }).vzTrap c 7 0 0))

/-- For all operands and fl: by zero the quotient is 0, the remainder the dividend, V is 0 and DZ is set; the most negative number divided by -1 gives itself and remainder 0 with V = 1; otherwise the signed quotient truncates toward zero, the signed remainder takes the sign of the dividend, the unsigned ones are those of the naturals, V is 0 and DZ stays; with S = 1, N is bit 63 of the result, Z says it is zero, C is 0. -/
def Obligations.DivisionResult : Prop :=
    ∀ (signed rem : Bool) (fl a b : W64),
      (b = 0#64 → (divRes signed rem fl a b).1.val = (if rem then a else 0#64) ∧ fV (divRes signed rem fl a b).2 = false ∧
        (divRes signed rem fl a b).2.getLsbD 8 = true) ∧
      (b ≠ 0#64 → signed = true → a = 0x8000000000000000#64 → b = BitVec.allOnes 64 →
        (divRes signed rem fl a b).1.val = (if rem then 0#64 else a) ∧ fV (divRes signed rem fl a b).2 = true ∧
        (divRes signed rem fl a b).2.getLsbD 8 = fl.getLsbD 8) ∧
      (b ≠ 0#64 → signed = true → ¬(a = 0x8000000000000000#64 ∧ b = BitVec.allOnes 64) →
        (divRes signed rem fl a b).1.val.toInt = (if rem then a.toInt.tmod b.toInt else a.toInt.tdiv b.toInt) ∧
        fV (divRes signed rem fl a b).2 = false ∧ (divRes signed rem fl a b).2.getLsbD 8 = fl.getLsbD 8) ∧
      (b ≠ 0#64 → signed = false →
        (divRes signed rem fl a b).1.val.toNat = (if rem then a.toNat % b.toNat else a.toNat / b.toNat) ∧
        fV (divRes signed rem fl a b).2 = false ∧ (divRes signed rem fl a b).2.getLsbD 8 = fl.getLsbD 8) ∧
      fN (divRes signed rem fl a b).1.fl = (divRes signed rem fl a b).1.val.getLsbD 63 ∧
      fZ (divRes signed rem fl a b).1.fl = ((divRes signed rem fl a b).1.val == 0#64) ∧
      fC (divRes signed rem fl a b).1.fl = false

/-- On a core that executes it, DADD, DADC, DSUB, DSBC and CVDB with valid digits, and DAA, DAS and CVBD with any operand, complete: rd and all five flags take the values of R320 and R321, and nothing else changes but pc, the load delay and the retired counters. With an invalid digit and fl.DT = 0, the first four and CVDB write all ones with V = 1 and N, Z, C and H zero. -/
def Obligations.DecimalCompletes : Prop :=
    (∀ (s : State) (c g rd ra rb : Nat), s.live →
      s.dev.executes c g →
      decOk (s.dev.x c ra) = true →
      decOk (s.dev.x c rb) = true →
      Effects (.dadd c g rd ra rb) s (fun e =>
        e = s.dev.writes c rd (daddRes (s.dev.flags c) (s.dev.x c ra) (s.dev.x c rb) false).val (daddRes (s.dev.flags c) (s.dev.x c ra) (s.dev.x c rb) false).fl)) ∧
    (∀ (s : State) (c g rd ra rb : Nat), s.live →
      s.dev.executes c g →
      decOk (s.dev.x c ra) = true →
      decOk (s.dev.x c rb) = true →
      Effects (.dadc c g rd ra rb) s (fun e =>
        e = s.dev.writes c rd (daddRes (s.dev.flags c) (s.dev.x c ra) (s.dev.x c rb) (fC (s.dev.flags c))).val (daddRes (s.dev.flags c) (s.dev.x c ra) (s.dev.x c rb) (fC (s.dev.flags c))).fl)) ∧
    (∀ (s : State) (c g rd ra rb : Nat), s.live →
      s.dev.executes c g →
      decOk (s.dev.x c ra) = true →
      decOk (s.dev.x c rb) = true →
      Effects (.dsub c g rd ra rb) s (fun e =>
        e = s.dev.writes c rd (dsubRes (s.dev.flags c) (s.dev.x c ra) (s.dev.x c rb) false).val (dsubRes (s.dev.flags c) (s.dev.x c ra) (s.dev.x c rb) false).fl)) ∧
    (∀ (s : State) (c g rd ra rb : Nat), s.live →
      s.dev.executes c g →
      decOk (s.dev.x c ra) = true →
      decOk (s.dev.x c rb) = true →
      Effects (.dsbc c g rd ra rb) s (fun e =>
        e = s.dev.writes c rd (dsubRes (s.dev.flags c) (s.dev.x c ra) (s.dev.x c rb) (!fC (s.dev.flags c))).val (dsubRes (s.dev.flags c) (s.dev.x c ra) (s.dev.x c rb) (!fC (s.dev.flags c))).fl)) ∧
    (∀ (s : State) (c g rd ra : Nat), s.live →
      s.dev.executes c g →
      Effects (.daa c g rd ra) s (fun e =>
        e = s.dev.writes c rd (daaRes (s.dev.flags c) (s.dev.x c ra)).val (daaRes (s.dev.flags c) (s.dev.x c ra)).fl)) ∧
    (∀ (s : State) (c g rd ra : Nat), s.live →
      s.dev.executes c g →
      Effects (.das c g rd ra) s (fun e =>
        e = s.dev.writes c rd (dasRes (s.dev.flags c) (s.dev.x c ra)).val (dasRes (s.dev.flags c) (s.dev.x c ra)).fl)) ∧
    (∀ (s : State) (c g rd ra : Nat), s.live →
      s.dev.executes c g →
      Effects (.cvbd c g rd ra) s (fun e =>
        e = s.dev.writes c rd (cvbdRes (s.dev.flags c) (s.dev.x c ra)).val (cvbdRes (s.dev.flags c) (s.dev.x c ra)).fl)) ∧
    (∀ (s : State) (c g rd ra unused : Nat), s.live →
      s.dev.executes c g →
      decOk (s.dev.x c ra) = true →
      Effects (.cvdb c g rd ra unused) s (fun e =>
        e = s.dev.writes c rd (cvdbRes (s.dev.flags c) (s.dev.x c ra)).val (cvdbRes (s.dev.flags c) (s.dev.x c ra)).fl)) ∧
    (∀ (s : State) (c g rd ra rb : Nat), s.live →
      s.dev.executes c g →
      (decOk (s.dev.x c ra) = false ∨ decOk (s.dev.x c rb) = false) →
      fDT (s.dev.flags c) = false →
      Effects (.dadd c g rd ra rb) s (fun e =>
        e = s.dev.writes c rd (BitVec.allOnes 64) (decInvalid (s.dev.flags c)).fl)) ∧
    (∀ (s : State) (c g rd ra rb : Nat), s.live →
      s.dev.executes c g →
      (decOk (s.dev.x c ra) = false ∨ decOk (s.dev.x c rb) = false) →
      fDT (s.dev.flags c) = false →
      Effects (.dadc c g rd ra rb) s (fun e =>
        e = s.dev.writes c rd (BitVec.allOnes 64) (decInvalid (s.dev.flags c)).fl)) ∧
    (∀ (s : State) (c g rd ra rb : Nat), s.live →
      s.dev.executes c g →
      (decOk (s.dev.x c ra) = false ∨ decOk (s.dev.x c rb) = false) →
      fDT (s.dev.flags c) = false →
      Effects (.dsub c g rd ra rb) s (fun e =>
        e = s.dev.writes c rd (BitVec.allOnes 64) (decInvalid (s.dev.flags c)).fl)) ∧
    (∀ (s : State) (c g rd ra rb : Nat), s.live →
      s.dev.executes c g →
      (decOk (s.dev.x c ra) = false ∨ decOk (s.dev.x c rb) = false) →
      fDT (s.dev.flags c) = false →
      Effects (.dsbc c g rd ra rb) s (fun e =>
        e = s.dev.writes c rd (BitVec.allOnes 64) (decInvalid (s.dev.flags c)).fl)) ∧
    (∀ (s : State) (c g rd ra unused : Nat), s.live →
      s.dev.executes c g →
      decOk (s.dev.x c ra) = false →
      fDT (s.dev.flags c) = false →
      Effects (.cvdb c g rd ra unused) s (fun e =>
        e = s.dev.writes c rd (BitVec.allOnes 64) (decInvalid (s.dev.flags c)).fl))

/-- DADD of 0x999 and 1 gives 0x1000 with C = 0 and H = 1; of sixteen nines and 1 gives 0 with C = 1 and Z = 1; DSUB of 3 and 5 gives 0x9999999999999998 with C = 0; 0x47 SUB 0x19 gives 0x2E with C = 1 and H = 0, which DAS turns into 0x28. -/
def Obligations.DecimalWorkedExamples : Prop :=
    ((daddRes 0#64 0x999#64 1#64 false).val = 0x1000#64 ∧ fC (daddRes 0#64 0x999#64 1#64 false).fl = false ∧
      fH (daddRes 0#64 0x999#64 1#64 false).fl = true) ∧
    ((daddRes 0#64 0x9999999999999999#64 1#64 false).val = 0#64 ∧ fC (daddRes 0#64 0x9999999999999999#64 1#64 false).fl = true ∧
      fZ (daddRes 0#64 0x9999999999999999#64 1#64 false).fl = true) ∧
    ((dsubRes 0#64 3#64 5#64 false).val = 0x9999999999999998#64 ∧ fC (dsubRes 0#64 3#64 5#64 false).fl = false) ∧
    ((subRes 0#64 0x47#64 0x19#64 true).val = 0x2E#64 ∧ fC (subRes 0#64 0x47#64 0x19#64 true).fl = true ∧
      fH (subRes 0#64 0x47#64 0x19#64 true).fl = false ∧
      (dasRes (subRes 0#64 0x47#64 0x19#64 true).fl 0x2E#64).val = 0x28#64)

/-- On a core that executes it, each immediate instruction, SETI, SHIN with X = 0 and ADDPC completes: rd takes the row's value of the sign-extended 12-bit immediate (a shift amount below 256 for the shifts), ADDIS, SUBIS and ANDIS write their flags and the others leave fl, and nothing else changes but pc, the load delay and the retired counters. -/
def Obligations.ImmediateWritesResult : Prop :=
    (∀ (s : State) (c g rd ra imm : Nat), s.live →
      s.dev.executes c g →
      Effects (.addi c g rd ra imm) s (fun e =>
        e = s.dev.writes c rd ((s.dev.x c ra) + ((BitVec.ofNat 12 imm).signExtend 64)) (s.dev.flags c))) ∧
    (∀ (s : State) (c g rd ra imm : Nat), s.live →
      s.dev.executes c g →
      Effects (.addis c g rd ra imm) s (fun e =>
        e = s.dev.writes c rd ((s.dev.x c ra) + ((BitVec.ofNat 12 imm).signExtend 64)) (addRes (s.dev.flags c) (s.dev.x c ra) ((BitVec.ofNat 12 imm).signExtend 64) false).fl)) ∧
    (∀ (s : State) (c g rd ra imm : Nat), s.live →
      s.dev.executes c g →
      Effects (.subis c g rd ra imm) s (fun e =>
        e = s.dev.writes c rd ((s.dev.x c ra) - ((BitVec.ofNat 12 imm).signExtend 64)) (subRes (s.dev.flags c) (s.dev.x c ra) ((BitVec.ofNat 12 imm).signExtend 64) true).fl)) ∧
    (∀ (s : State) (c g rd ra imm : Nat), s.live →
      s.dev.executes c g →
      Effects (.andi c g rd ra imm) s (fun e =>
        e = s.dev.writes c rd ((s.dev.x c ra) &&& ((BitVec.ofNat 12 imm).signExtend 64)) (s.dev.flags c))) ∧
    (∀ (s : State) (c g rd ra imm : Nat), s.live →
      s.dev.executes c g →
      Effects (.ori c g rd ra imm) s (fun e =>
        e = s.dev.writes c rd ((s.dev.x c ra) ||| ((BitVec.ofNat 12 imm).signExtend 64)) (s.dev.flags c))) ∧
    (∀ (s : State) (c g rd ra imm : Nat), s.live →
      s.dev.executes c g →
      Effects (.xori c g rd ra imm) s (fun e =>
        e = s.dev.writes c rd ((s.dev.x c ra) ^^^ ((BitVec.ofNat 12 imm).signExtend 64)) (s.dev.flags c))) ∧
    (∀ (s : State) (c g rd ra imm : Nat), s.live →
      s.dev.executes c g →
      Effects (.andis c g rd ra imm) s (fun e =>
        e = s.dev.writes c rd ((s.dev.x c ra) &&& ((BitVec.ofNat 12 imm).signExtend 64)) (flNZ (s.dev.flags c) ((s.dev.x c ra) &&& ((BitVec.ofNat 12 imm).signExtend 64))))) ∧
    (∀ (s : State) (c g rd ra imm : Nat), s.live →
      s.dev.executes c g →
      imm < 256 →
      Effects (.shli c g rd ra imm) s (fun e =>
        e = s.dev.writes c rd (shlRes (s.dev.flags c) (s.dev.x c ra) imm).val (s.dev.flags c))) ∧
    (∀ (s : State) (c g rd ra imm : Nat), s.live →
      s.dev.executes c g →
      imm < 256 →
      Effects (.shri c g rd ra imm) s (fun e =>
        e = s.dev.writes c rd (shrRes (s.dev.flags c) (s.dev.x c ra) imm).val (s.dev.flags c))) ∧
    (∀ (s : State) (c g rd ra imm : Nat), s.live →
      s.dev.executes c g →
      imm < 256 →
      Effects (.sari c g rd ra imm) s (fun e =>
        e = s.dev.writes c rd (sarRes (s.dev.flags c) (s.dev.x c ra) imm).val (s.dev.flags c))) ∧
    (∀ (s : State) (c g rd ra imm : Nat), s.live →
      s.dev.executes c g →
      imm < 256 →
      Effects (.rori c g rd ra imm) s (fun e =>
        e = s.dev.writes c rd (rorRes (s.dev.flags c) (s.dev.x c ra) imm).val (s.dev.flags c))) ∧
    (∀ (s : State) (c g rd : Nat) (x : Bool) (imm : Nat), s.live →
      s.dev.executes c g →
      Effects (.seti c g rd x imm) s (fun e =>
        e = s.dev.writes c rd (if x then (BitVec.ofNat 16 imm).signExtend 64 else (BitVec.ofNat 16 imm).zeroExtend 64) (s.dev.flags c))) ∧
    (∀ (s : State) (c g rd imm : Nat), s.live →
      s.dev.executes c g →
      Effects (.shin c g rd false imm) s (fun e =>
        e = s.dev.writes c rd ((s.dev.x c rd <<< 16) ||| (BitVec.ofNat 16 imm).zeroExtend 64) (s.dev.flags c))) ∧
    (∀ (s : State) (c g rd imm : Nat), s.live →
      s.dev.executes c g →
      Effects (.addpc c g rd imm) s (fun e =>
        e = s.dev.writes c rd ((s.dev.cpu c).pc + (BitVec.ofNat 17 imm).signExtend 64) (s.dev.flags c)))

/-- On a core that executes it, each of LB, LBU, LH, LHU, LW, LWU and LD whose access is aligned, permitted and reaches something (accTrap answers none) and whose bytes carry no poison completes: the value read at ra plus the sign-extended immediate, sign- or zero-extended as its row says, goes to rd; the next instruction's explicit fields still read the old value; pc moves on. The read itself changes nothing of a memory (LoadStoreAgree); a read of control space has the effect the register has. -/
def Obligations.LoadCompletes : Prop :=
    (∀ (s : State) (c g rd ra imm : Nat), s.live →
      s.dev.executes c g →
      s.dev.accTrap c ((s.dev.x c ra + (BitVec.ofNat 12 imm).signExtend 64).toNat) 1 .load = none →
      (s.dev.peek c ((s.dev.x c ra + (BitVec.ofNat 12 imm).signExtend 64).toNat) 1).poison = false →
      Effects (.lb c g rd ra imm) s (fun e =>
        e = (s.dev.peek c ((s.dev.x c ra + (BitVec.ofNat 12 imm).signExtend 64).toNat) 1).dev.loads c rd ((fun v => (BitVec.ofNat 8 v).signExtend 64) (s.dev.peek c ((s.dev.x c ra + (BitVec.ofNat 12 imm).signExtend 64).toNat) 1).val) ((s.dev.cpu c).reg rd))) ∧
    (∀ (s : State) (c g rd ra imm : Nat), s.live →
      s.dev.executes c g →
      s.dev.accTrap c ((s.dev.x c ra + (BitVec.ofNat 12 imm).signExtend 64).toNat) 1 .load = none →
      (s.dev.peek c ((s.dev.x c ra + (BitVec.ofNat 12 imm).signExtend 64).toNat) 1).poison = false →
      Effects (.lbu c g rd ra imm) s (fun e =>
        e = (s.dev.peek c ((s.dev.x c ra + (BitVec.ofNat 12 imm).signExtend 64).toNat) 1).dev.loads c rd ((fun v => (BitVec.ofNat 8 v).zeroExtend 64) (s.dev.peek c ((s.dev.x c ra + (BitVec.ofNat 12 imm).signExtend 64).toNat) 1).val) ((s.dev.cpu c).reg rd))) ∧
    (∀ (s : State) (c g rd ra imm : Nat), s.live →
      s.dev.executes c g →
      s.dev.accTrap c ((s.dev.x c ra + (BitVec.ofNat 12 imm).signExtend 64).toNat) 2 .load = none →
      (s.dev.peek c ((s.dev.x c ra + (BitVec.ofNat 12 imm).signExtend 64).toNat) 2).poison = false →
      Effects (.lh c g rd ra imm) s (fun e =>
        e = (s.dev.peek c ((s.dev.x c ra + (BitVec.ofNat 12 imm).signExtend 64).toNat) 2).dev.loads c rd ((fun v => (BitVec.ofNat 16 v).signExtend 64) (s.dev.peek c ((s.dev.x c ra + (BitVec.ofNat 12 imm).signExtend 64).toNat) 2).val) ((s.dev.cpu c).reg rd))) ∧
    (∀ (s : State) (c g rd ra imm : Nat), s.live →
      s.dev.executes c g →
      s.dev.accTrap c ((s.dev.x c ra + (BitVec.ofNat 12 imm).signExtend 64).toNat) 2 .load = none →
      (s.dev.peek c ((s.dev.x c ra + (BitVec.ofNat 12 imm).signExtend 64).toNat) 2).poison = false →
      Effects (.lhu c g rd ra imm) s (fun e =>
        e = (s.dev.peek c ((s.dev.x c ra + (BitVec.ofNat 12 imm).signExtend 64).toNat) 2).dev.loads c rd ((fun v => (BitVec.ofNat 16 v).zeroExtend 64) (s.dev.peek c ((s.dev.x c ra + (BitVec.ofNat 12 imm).signExtend 64).toNat) 2).val) ((s.dev.cpu c).reg rd))) ∧
    (∀ (s : State) (c g rd ra imm : Nat), s.live →
      s.dev.executes c g →
      s.dev.accTrap c ((s.dev.x c ra + (BitVec.ofNat 12 imm).signExtend 64).toNat) 4 .load = none →
      (s.dev.peek c ((s.dev.x c ra + (BitVec.ofNat 12 imm).signExtend 64).toNat) 4).poison = false →
      Effects (.lw c g rd ra imm) s (fun e =>
        e = (s.dev.peek c ((s.dev.x c ra + (BitVec.ofNat 12 imm).signExtend 64).toNat) 4).dev.loads c rd ((fun v => (BitVec.ofNat 32 v).signExtend 64) (s.dev.peek c ((s.dev.x c ra + (BitVec.ofNat 12 imm).signExtend 64).toNat) 4).val) ((s.dev.cpu c).reg rd))) ∧
    (∀ (s : State) (c g rd ra imm : Nat), s.live →
      s.dev.executes c g →
      s.dev.accTrap c ((s.dev.x c ra + (BitVec.ofNat 12 imm).signExtend 64).toNat) 4 .load = none →
      (s.dev.peek c ((s.dev.x c ra + (BitVec.ofNat 12 imm).signExtend 64).toNat) 4).poison = false →
      Effects (.lwu c g rd ra imm) s (fun e =>
        e = (s.dev.peek c ((s.dev.x c ra + (BitVec.ofNat 12 imm).signExtend 64).toNat) 4).dev.loads c rd ((fun v => (BitVec.ofNat 32 v).zeroExtend 64) (s.dev.peek c ((s.dev.x c ra + (BitVec.ofNat 12 imm).signExtend 64).toNat) 4).val) ((s.dev.cpu c).reg rd))) ∧
    (∀ (s : State) (c g rd ra imm : Nat), s.live →
      s.dev.executes c g →
      s.dev.accTrap c ((s.dev.x c ra + (BitVec.ofNat 12 imm).signExtend 64).toNat) 8 .load = none →
      (s.dev.peek c ((s.dev.x c ra + (BitVec.ofNat 12 imm).signExtend 64).toNat) 8).poison = false →
      Effects (.ld c g rd ra imm) s (fun e =>
        e = (s.dev.peek c ((s.dev.x c ra + (BitVec.ofNat 12 imm).signExtend 64).toNat) 8).dev.loads c rd ((fun v => (BitVec.ofNat 64 v).zeroExtend 64) (s.dev.peek c ((s.dev.x c ra + (BitVec.ofNat 12 imm).signExtend 64).toNat) 8).val) ((s.dev.cpu c).reg rd)))

/-- On a core that executes it, each of SB, SH, SW and SD whose access is aligned, permitted and reaches something, and whose store is taken (poke answers a state, which only a port register may refuse), completes: the low 1, 2, 4 or 8 bytes of the register named in the rd field are stored there, pc moves on, and nothing else changes but the retired counters. -/
def Obligations.StoreCompletes : Prop :=
    (∀ (s : State) (c g rd ra imm : Nat) (e1 : Dev), s.live →
      s.dev.executes c g →
      s.dev.accTrap c ((s.dev.x c ra + (BitVec.ofNat 12 imm).signExtend 64).toNat) 1 .store = none →
      s.dev.poke c ((s.dev.x c ra + (BitVec.ofNat 12 imm).signExtend 64).toNat) 1 ((s.dev.x c rd).toNat % 256 ^ 1) false = some e1 →
      e1.coreRuns c = true →
      Effects (.sb c g rd ra imm) s (fun e =>
        e = e1.retire c 1 (e1.cpu c))) ∧
    (∀ (s : State) (c g rd ra imm : Nat) (e1 : Dev), s.live →
      s.dev.executes c g →
      s.dev.accTrap c ((s.dev.x c ra + (BitVec.ofNat 12 imm).signExtend 64).toNat) 2 .store = none →
      s.dev.poke c ((s.dev.x c ra + (BitVec.ofNat 12 imm).signExtend 64).toNat) 2 ((s.dev.x c rd).toNat % 256 ^ 2) false = some e1 →
      e1.coreRuns c = true →
      Effects (.sh c g rd ra imm) s (fun e =>
        e = e1.retire c 1 (e1.cpu c))) ∧
    (∀ (s : State) (c g rd ra imm : Nat) (e1 : Dev), s.live →
      s.dev.executes c g →
      s.dev.accTrap c ((s.dev.x c ra + (BitVec.ofNat 12 imm).signExtend 64).toNat) 4 .store = none →
      s.dev.poke c ((s.dev.x c ra + (BitVec.ofNat 12 imm).signExtend 64).toNat) 4 ((s.dev.x c rd).toNat % 256 ^ 4) false = some e1 →
      e1.coreRuns c = true →
      Effects (.sw c g rd ra imm) s (fun e =>
        e = e1.retire c 1 (e1.cpu c))) ∧
    (∀ (s : State) (c g rd ra imm : Nat) (e1 : Dev), s.live →
      s.dev.executes c g →
      s.dev.accTrap c ((s.dev.x c ra + (BitVec.ofNat 12 imm).signExtend 64).toNat) 8 .store = none →
      s.dev.poke c ((s.dev.x c ra + (BitVec.ofNat 12 imm).signExtend 64).toNat) 8 ((s.dev.x c rd).toNat % 256 ^ 8) false = some e1 →
      e1.coreRuns c = true →
      Effects (.sd c g rd ra imm) s (fun e =>
        e = e1.retire c 1 (e1.cpu c)))

/-- For every core, every address whose place is a memory (TCM, SLM, DRAM) and 1, 2, 4 or 8 bytes aligned there: a read changes nothing; a store is always taken; after a store of v without poison the bytes from the address read back as v, little-endian; every byte of that memory outside the stored ones, and every other field of the part than the memory's own record, is as before. -/
def Obligations.LoadStoreAgree : Prop :=
    (∀ (d : Dev) (c a n : Nat), (d.mapAt c a).isMem = true → (d.peek c a n).dev = d ∧
        (d.peek c a n).val = leNat ((d.memOf c (d.mapAt c a)).1.bytes (d.memOf c (d.mapAt c a)).2 n)) ∧
    (∀ (d : Dev) (c a n v : Nat), (d.mapAt c a).isMem = true → ∃ e, d.poke c a n v false = some e ∧
        leNat ((e.memOf c (d.mapAt c a)).1.bytes (d.memOf c (d.mapAt c a)).2 n) = v % 256 ^ n ∧
        (∀ b, b < (d.memOf c (d.mapAt c a)).2 ∨ (d.memOf c (d.mapAt c a)).2 + n ≤ b →
          (e.memOf c (d.mapAt c a)).1.byte b = (d.memOf c (d.mapAt c a)).1.byte b) ∧
        e.regs = d.regs ∧ e.host = d.host ∧ e.evt = d.evt ∧ e.flash = d.flash ∧ e.mram = d.mram ∧
        (∀ p, (∀ o, d.mapAt c a ≠ .slm p o) → e.slm p = d.slm p) ∧
        ((∀ o, d.mapAt c a ≠ .dram o) → e.trel.dram = d.trel.dram) ∧
        (∀ k, ((∀ o, d.mapAt c a ≠ .tcm o) ∨ k ≠ c) → e.cpu k = d.cpu k))

/-- On a core that executes it, CAS on a doubleword of memory that is aligned and permitted and carries no poison completes. Where the doubleword equals rd, rb is stored there, and otherwise nothing is stored; Z of fl says which and no other flag changes; rd takes the old value with a load's delay; pc moves on. -/
def Obligations.CasCompletes : Prop :=
    (∀ (s : State) (c g rd ra rb : Nat) (e1 : Dev), s.live →
      s.dev.executes c g →
      s.dev.accTrap c ((s.dev.x c ra).toNat) 8 .atomic = none →
      (s.dev.peek c ((s.dev.x c ra).toNat) 8).poison = false →
      s.dev.x c rd = (BitVec.ofNat 64 (s.dev.peek c ((s.dev.x c ra).toNat) 8).val) →
      s.dev.poke c ((s.dev.x c ra).toNat) 8 (s.dev.x c rb).toNat false = some e1 →
      Effects (.cas c g rd ra rb) s (fun e =>
        e = e1.swaps c rd (BitVec.ofNat 64 (s.dev.peek c ((s.dev.x c ra).toNat) 8).val) ((s.dev.cpu c).reg rd) (setZ (s.dev.flags c) true))) ∧
    (∀ (s : State) (c g rd ra rb : Nat), s.live →
      s.dev.executes c g →
      s.dev.accTrap c ((s.dev.x c ra).toNat) 8 .atomic = none →
      (s.dev.peek c ((s.dev.x c ra).toNat) 8).poison = false →
      s.dev.x c rd ≠ (BitVec.ofNat 64 (s.dev.peek c ((s.dev.x c ra).toNat) 8).val) →
      Effects (.cas c g rd ra rb) s (fun e =>
        e = s.dev.swaps c rd (BitVec.ofNat 64 (s.dev.peek c ((s.dev.x c ra).toNat) 8).val) ((s.dev.cpu c).reg rd) (setZ (s.dev.flags c) false)))

/-- On a core that executes it: BCC jumps by its displacement in words when its condition holds and otherwise moves on; B and BL jump, BL with the next address in g31; BR and BLR jump to an aligned register target; FENCE moves on; MFSR and MTSR move a special register that exists and, if it is one of S, at S (cyc reads a free value of Config); SVC at S and BRK take their traps, SVC with tpc the next instruction; WFE with no line pending leaves the core waiting; a due interrupt is taken in place of an instruction; a reserved word takes RESERVED_OP with tval holding it, whatever its guard. -/
def Obligations.FlowAndSystemComplete : Prop :=
    (∀ (s : State) (c g cond disp : Nat), s.live →
      s.dev.executes c g →
      cond < 15 →
      Effects (.bcc c g cond disp) s (fun e =>
        e = if condHolds cond (s.dev.flags c) then s.dev.jump c (s.dev.cpu c) ((s.dev.cpu c).pc + 4#64 * (BitVec.ofNat 18 disp).signExtend 64) else s.dev.retire c 1 (s.dev.cpu c))) ∧
    (∀ (s : State) (c g disp : Nat), s.live →
      s.dev.executes c g →
      Effects (.b c g disp) s (fun e =>
        e = s.dev.jump c (s.dev.cpu c) ((s.dev.cpu c).pc + 4#64 * (BitVec.ofNat 22 disp).signExtend 64))) ∧
    (∀ (s : State) (c g disp : Nat), s.live →
      s.dev.executes c g →
      Effects (.bl c g disp) s (fun e =>
        e = s.dev.jump c ((s.dev.cpu c).setReg 31 ((s.dev.cpu c).pc + 4#64)) ((s.dev.cpu c).pc + 4#64 * (BitVec.ofNat 22 disp).signExtend 64))) ∧
    (∀ (s : State) (c g ra : Nat), s.live →
      s.dev.executes c g →
      (s.dev.x c ra).toNat % 4 = 0 →
      Effects (.br c g ra) s (fun e =>
        e = s.dev.jump c (s.dev.cpu c) (s.dev.x c ra))) ∧
    (∀ (s : State) (c g ra : Nat), s.live →
      s.dev.executes c g →
      (s.dev.x c ra).toNat % 4 = 0 →
      Effects (.blr c g ra) s (fun e =>
        e = s.dev.jump c ((s.dev.cpu c).setReg 31 ((s.dev.cpu c).pc + 4#64)) (s.dev.x c ra))) ∧
    (∀ (s : State) (c g : Nat), s.live →
      s.dev.executes c g →
      Effects (.fence c g) s (fun e =>
        e = s.dev.retire c 1 (s.dev.cpu c))) ∧
    (∀ (s : State) (c g rd sr unused : Nat), s.live →
      s.dev.executes c g →
      srExists sr = true →
      (srIsS sr = true → (s.dev.cpu c).prv = true) →
      sr ≠ 3 →
      Effects (.mfsr c g rd sr unused) s (fun e =>
        e = s.dev.writes c rd ((s.dev.cpu c).sr c sr 0) (s.dev.flags c))) ∧
    (∀ (s : State) (c g rd unused : Nat), s.live →
      s.dev.executes c g →
      Effects (.mfsr c g rd 3 unused) s (fun e =>
        e = s.dev.draw.2.writes c rd (BitVec.ofNat 64 (Config.cycles s.dev.free)) (s.dev.flags c))) ∧
    (∀ (s : State) (c g sr ra unused : Nat), s.live →
      s.dev.executes c g →
      srExists sr = true →
      (srIsS sr = true → (s.dev.cpu c).prv = true) →
      Effects (.mtsr c g sr ra unused) s (fun e =>
        e = s.dev.retire c 1 ((s.dev.cpu c).setSr sr (s.dev.x c ra)))) ∧
    (∀ (s : State) (c g imm : Nat), s.live →
      s.dev.executes c g →
      s.dev.atP c = none →
      Effects (.svc c g imm) s (fun e =>
        e = s.dev.trap c 9 0 imm ((s.dev.cpu c).pc + 4#64).toNat false (s.dev.cpu c).delay.isSome)) ∧
    (∀ (s : State) (c g imm : Nat), s.live →
      s.dev.executes c g →
      Effects (.brk c g imm) s (fun e =>
        e = s.dev.vzTrap c 0xA 0 imm)) ∧
    (∀ (s : State) (c g : Nat), s.live →
      s.dev.executes c g →
      (s.dev.retire c 1 (s.dev.cpu c)).linePending c = false →
      (s.dev.retire c 1 (s.dev.cpu c)).atP c = none →
      Effects (.wfe c g) s (fun e =>
        e = ((s.dev.retire c 1 (s.dev.cpu c)).setCpu c { (s.dev.retire c 1 (s.dev.cpu c)).cpu c with waiting := true }).setCoreState c 3)) ∧
    (∀ (s : State) (c : Nat), s.live →
      s.dev.coreRuns c = true →
      (s.dev.cpu c).halted = false →
      (s.dev.cpu c).waiting = false →
      (s.dev.cpu c).preemptDue = false →
      s.dev.irqDue c = true →
      Effects (.interrupt c) s (fun e =>
        e = s.dev.takeIrq c (s.dev.cpu c).inRep)) ∧
    (∀ (s : State) (c word : Nat), s.live →
      s.dev.executes c 0 →
      wordReserved word = true →
      Effects (.reservedWord c word) s (fun e =>
        e = s.dev.vzTrap c 1 0 (word % 2 ^ 32)))

/-- On a core at S that executes it, RTE completes with pc = tpc, fl = tfl, PRV = PPRV, IE = PIE and NEST = 0, as they stood before it, the other fields of pstat kept. -/
def Obligations.RteRestores : Prop :=
    (∀ (s : State) (c g unused : Nat), s.live →
      s.dev.executes c g →
      (s.dev.cpu c).prv = true →
      Effects (.rte c g unused) s (fun e =>
        (e.cpu c).pc = (s.dev.cpu c).tpc ∧ (e.cpu c).fl = (s.dev.cpu c).tfl ∧
        (e.cpu c).prv = (s.dev.cpu c).pstat.getLsbD 1 ∧ (e.cpu c).ie = (s.dev.cpu c).pstat.getLsbD 3 ∧ (e.cpu c).nest = false ∧
        (e.cpu c).pstat.getLsbD 1 = (s.dev.cpu c).pstat.getLsbD 1 ∧ (e.cpu c).pstat.getLsbD 3 = (s.dev.cpu c).pstat.getLsbD 3 ∧
        (e.cpu c).g = (s.dev.cpu c).g ∧ (e.cpu c).tpc = (s.dev.cpu c).tpc ∧ (e.cpu c).tfl = (s.dev.cpu c).tfl))

/-- For every core that is at S, or for an interrupt, and not a double trap: trap entry sets tpc, tfl and tval, puts cause, ACC, REPPAIR and DSLOT in tcause, moves PRV and IE to PPRV and PIE, sets PRV = S, IE = 0 and NEST = 1, goes to tbase + cause x 0x80, ends the load delay, and leaves the general registers, rc, ctl and scratch. (At P a trap of a tenant program goes on to the monitor's part of R349 to R351.) -/
def Obligations.TrapEntry : Prop :=
    (∀ (d : Dev) (c cause acc val at_ : Nat) (rep ds : Bool), (d.cpu c).prv = true ∨ cause = 0x10 →
      ((d.cpu c).nest = false ∨ cause = 0x10) → cause < 256 → acc < 4 →
      let t := (d.trap c cause acc val at_ rep ds).cpu c
      let s := d.cpu c
      t.tpc = BitVec.ofNat 64 at_ ∧ t.tfl = s.fl ∧ t.fl = s.fl ∧ t.tval = BitVec.ofNat 64 val ∧
      t.tcause.toNat = cause + 256 * acc + (if rep then 1024 else 0) + (if ds then 2048 else 0) ∧
      t.prv = true ∧ t.ie = false ∧ t.nest = true ∧ t.pstat.getLsbD 1 = s.prv ∧ t.pstat.getLsbD 3 = s.ie ∧
      t.pc = s.tbase + BitVec.ofNat 64 (cause * 0x80) ∧ t.delay = none ∧ t.waiting = false ∧
      t.g = s.g ∧ t.rc = s.rc ∧ t.ctl = s.ctl ∧ t.scratch = s.scratch ∧ t.tbase = s.tbase ∧ t.tcm = s.tcm)

/-- For every fl: codes 0x0 to 0xE hold exactly when the table of R305 says so (AL always, EQ Z, NE not Z, LT N differs from V, GE, LE, GT, LO, HS, LS, HI, MI, PL, VS, VC). On every core that would execute an instruction, a word with guard 0xF, and BCC with condition 0xF, traps RESERVED_OP. -/
def Obligations.GuardsAndConditions : Prop :=
    (∀ fl : W64, condHolds 0 fl = true ∧ condHolds 1 fl = fZ fl ∧ condHolds 2 fl = !fZ fl ∧ condHolds 3 fl = (fN fl != fV fl) ∧
      condHolds 4 fl = (fN fl == fV fl) ∧ condHolds 5 fl = (fZ fl || (fN fl != fV fl)) ∧ condHolds 6 fl = (!fZ fl && (fN fl == fV fl)) ∧
      condHolds 7 fl = !fC fl ∧ condHolds 8 fl = fC fl ∧ condHolds 9 fl = (!fC fl || fZ fl) ∧ condHolds 0xA fl = (fC fl && !fZ fl) ∧
      condHolds 0xB fl = fN fl ∧ condHolds 0xC fl = !fN fl ∧ condHolds 0xD fl = fV fl ∧ condHolds 0xE fl = !fV fl) ∧
    (∀ (s : State) (c word : Nat), s.live →
      s.dev.executes c 0 →
      word / 2 ^ 28 % 16 = 15 →
      Effects (.reservedWord c word) s (fun e =>
        e = s.dev.vzTrap c 1 0 (word % 2 ^ 32))) ∧
    (∀ (s : State) (c g disp : Nat), s.live →
      s.dev.executes c g →
      Effects (.bcc c g 15 disp) s (fun e =>
        e = s.dev.vzTrap c 1 0 (wordB g 0x30 15 disp)))

/-- On a core that executes it, each block instruction whose step finds no trap completes with that one step (BlockSteps says what it does), rc as before, and pc past the word. REP with a block instruction it accepts runs the loop of R325; with any other following word it traps ILLEGAL_REPEAT at the REP, with tval holding that word. -/
def Obligations.BlockAndRepComplete : Prop :=
    (∀ (s : State) (c g : Nat) (e1 : Dev), s.live →
      s.dev.executes c g →
      s.dev.blockStep c 0 = .next e1 →
      e1.coreRuns c = true →
      Effects (.movb c g) s (fun e =>
        e = e1.retire c 1 (e1.cpu c))) ∧
    (∀ (s : State) (c g : Nat) (e1 : Dev), s.live →
      s.dev.executes c g →
      s.dev.blockStep c 1 = .next e1 →
      e1.coreRuns c = true →
      Effects (.movd c g) s (fun e =>
        e = e1.retire c 1 (e1.cpu c))) ∧
    (∀ (s : State) (c g : Nat) (e1 : Dev), s.live →
      s.dev.executes c g →
      s.dev.blockStep c 2 = .next e1 →
      e1.coreRuns c = true →
      Effects (.filb c g) s (fun e =>
        e = e1.retire c 1 (e1.cpu c))) ∧
    (∀ (s : State) (c g : Nat) (e1 : Dev), s.live →
      s.dev.executes c g →
      s.dev.blockStep c 3 = .next e1 →
      e1.coreRuns c = true →
      Effects (.fild c g) s (fun e =>
        e = e1.retire c 1 (e1.cpu c))) ∧
    (∀ (s : State) (c g : Nat) (e1 : Dev), s.live →
      s.dev.executes c g →
      s.dev.blockStep c 4 = .next e1 →
      e1.coreRuns c = true →
      Effects (.cmpb c g) s (fun e =>
        e = e1.retire c 1 (e1.cpu c))) ∧
    (∀ (s : State) (c g : Nat) (e1 : Dev), s.live →
      s.dev.executes c g →
      s.dev.blockStep c 5 = .next e1 →
      e1.coreRuns c = true →
      Effects (.cmpd c g) s (fun e =>
        e = e1.retire c 1 (e1.cpu c))) ∧
    (∀ (s : State) (c g : Nat) (e1 : Dev), s.live →
      s.dev.executes c g →
      s.dev.blockStep c 6 = .next e1 →
      e1.coreRuns c = true →
      Effects (.scnb c g) s (fun e =>
        e = e1.retire c 1 (e1.cpu c))) ∧
    (∀ (s : State) (c g : Nat) (e1 : Dev), s.live →
      s.dev.executes c g →
      s.dev.blockStep c 7 = .next e1 →
      e1.coreRuns c = true →
      Effects (.scnd c g) s (fun e =>
        e = e1.retire c 1 (e1.cpu c))) ∧
    (∀ (s : State) (c mode next upto : Nat), s.live →
      s.dev.executes c 0 →
      mode < 3 →
      s.dev.fetchTrap c (((s.dev.cpu c).pc.toNat + 4) % 2 ^ 64) = none →
      repAccepts mode next = true →
      Effects (.rep c 0 mode next upto) s (fun e =>
        e = Dev.repLoop c mode (next % 8) upto s.dev)) ∧
    (∀ (s : State) (c g mode next upto : Nat), s.live →
      s.dev.executes c g →
      mode < 3 →
      s.dev.fetchTrap c (((s.dev.cpu c).pc.toNat + 4) % 2 ^ 64) = none →
      repAccepts mode next = false →
      Effects (.rep c g mode next upto) s (fun e =>
        e = s.dev.repTrap c 2 0 next))

/-- For every core at S in a state where the accesses of the step are permitted and clean: a move copies the unit at g1 to g2 and advances both; a fill stores the low byte or all of g3 at g2 and advances g2; a compare writes the flags of unit[g1] minus unit[g2] and advances both; a scan writes those of g3 (its low byte for SCNB) minus unit[g2] and advances g2; rc, pc, g3 and the other registers stay. -/
def Obligations.BlockSteps : Prop :=
    (∀ (d : Dev) (c fn : Nat), fn < 8 → d.blockTrap c (if fn % 2 = 0 then 1 else 8)
        (if fn < 2 then [((d.cpu c).reg 1 |>.toNat, .load), ((d.cpu c).reg 2 |>.toNat, .store)]
         else if fn < 4 then [((d.cpu c).reg 2 |>.toNat, .store)]
         else if fn < 6 then [((d.cpu c).reg 1 |>.toNat, .load), ((d.cpu c).reg 2 |>.toNat, .load)]
         else [((d.cpu c).reg 2 |>.toNat, .load)]) = none →
      (d.mapAt c ((d.cpu c).reg 1).toNat).isMem = true → (d.mapAt c ((d.cpu c).reg 2).toNat).isMem = true →
      (d.peek c ((d.cpu c).reg 1).toNat (if fn % 2 = 0 then 1 else 8)).poison = false →
      (d.peek c ((d.cpu c).reg 2).toNat (if fn % 2 = 0 then 1 else 8)).poison = false →
      ∃ e, d.blockStep c fn = .next e ∧ (e.cpu c).rc = (d.cpu c).rc ∧ (e.cpu c).pc = (d.cpu c).pc ∧
        (e.cpu c).reg 3 = (d.cpu c).reg 3 ∧
        (e.cpu c).reg 2 = (d.cpu c).reg 2 + (if fn % 2 = 0 then 1#64 else 8#64) ∧
        (e.cpu c).reg 1 = (d.cpu c).reg 1 + (if fn / 2 % 2 = 0 then (if fn % 2 = 0 then 1#64 else 8#64) else 0#64) ∧
        (fn < 4 → (e.cpu c).fl = (d.cpu c).fl) ∧
        (4 ≤ fn → (e.cpu c).fl = (subRes (d.cpu c).fl
          (if fn < 6 then BitVec.ofNat 64 (d.peek c ((d.cpu c).reg 1).toNat (if fn % 2 = 0 then 1 else 8)).val
            else BitVec.ofNat 64 (((d.cpu c).reg 3).toNat % 256 ^ (if fn % 2 = 0 then 1 else 8)))
          (BitVec.ofNat 64 (d.peek c ((d.cpu c).reg 2).toNat (if fn % 2 = 0 then 1 else 8)).val) true).fl))

/-- For every core and every operand in the range its field admits: the word that R302 and R303 give an instruction (format fields put together) is read back by the word decoder as that instruction's meaning with exactly those operands; for the register ALU, decimal, immediate, wide, address, memory, branch, system and block groups. -/
def Obligations.VzWordsDecode : Prop :=
    (∀ (c g rd ra rb : Nat) (sf : Bool) (next upto : Nat), g < 15 → rd < 32 → ra < 32 → rb < 32 →
      wordMeaning c (wordR g 0x00 rd ra rb sf 0x00) next upto = some (vzAdd c g rd ra rb sf) ∧
      wordMeaning c (wordR g 0x00 rd ra rb sf 0x01) next upto = some (vzAdc c g rd ra rb sf) ∧
      wordMeaning c (wordR g 0x00 rd ra rb sf 0x02) next upto = some (vzSub c g rd ra rb sf) ∧
      wordMeaning c (wordR g 0x00 rd ra rb sf 0x03) next upto = some (vzSbc c g rd ra rb sf) ∧
      wordMeaning c (wordR g 0x00 rd ra rb sf 0x05) next upto = some (vzAnd c g rd ra rb sf) ∧
      wordMeaning c (wordR g 0x00 rd ra rb sf 0x06) next upto = some (vzOr c g rd ra rb sf) ∧
      wordMeaning c (wordR g 0x00 rd ra rb sf 0x07) next upto = some (vzXor c g rd ra rb sf) ∧
      wordMeaning c (wordR g 0x00 rd ra rb sf 0x08) next upto = some (vzAndn c g rd ra rb sf) ∧
      wordMeaning c (wordR g 0x00 rd ra rb sf 0x09) next upto = some (vzOrn c g rd ra rb sf) ∧
      wordMeaning c (wordR g 0x00 rd ra rb sf 0x0C) next upto = some (vzShl c g rd ra rb sf) ∧
      wordMeaning c (wordR g 0x00 rd ra rb sf 0x0D) next upto = some (vzShr c g rd ra rb sf) ∧
      wordMeaning c (wordR g 0x00 rd ra rb sf 0x0E) next upto = some (vzSar c g rd ra rb sf) ∧
      wordMeaning c (wordR g 0x00 rd ra rb sf 0x0F) next upto = some (vzRor c g rd ra rb sf) ∧
      wordMeaning c (wordR g 0x00 rd ra rb sf 0x10) next upto = some (vzRol c g rd ra rb sf) ∧
      wordMeaning c (wordR g 0x00 rd ra rb sf 0x14) next upto = some (vzMul c g rd ra rb sf) ∧
      wordMeaning c (wordR g 0x00 rd ra rb sf 0x15) next upto = some (vzMulhu c g rd ra rb sf) ∧
      wordMeaning c (wordR g 0x00 rd ra rb sf 0x16) next upto = some (vzMulhs c g rd ra rb sf) ∧
      wordMeaning c (wordR g 0x00 rd ra rb sf 0x18) next upto = some (vzDivu c g rd ra rb sf) ∧
      wordMeaning c (wordR g 0x00 rd ra rb sf 0x19) next upto = some (vzDivs c g rd ra rb sf) ∧
      wordMeaning c (wordR g 0x00 rd ra rb sf 0x1A) next upto = some (vzRemu c g rd ra rb sf) ∧
      wordMeaning c (wordR g 0x00 rd ra rb sf 0x1B) next upto = some (vzRems c g rd ra rb sf)) ∧
    (∀ (c g rd ra : Nat) (sf : Bool) (next upto : Nat), g < 15 → rd < 32 → ra < 32 →
      wordMeaning c (wordR g 0x00 rd ra 0 sf 0x04) next upto = some (vzNeg c g rd ra sf) ∧
      wordMeaning c (wordR g 0x00 rd ra 0 sf 0x1C) next upto = some (vzSxtb c g rd ra sf) ∧
      wordMeaning c (wordR g 0x00 rd ra 0 sf 0x1D) next upto = some (vzSxth c g rd ra sf) ∧
      wordMeaning c (wordR g 0x00 rd ra 0 sf 0x1E) next upto = some (vzSxtw c g rd ra sf) ∧
      wordMeaning c (wordR g 0x00 rd ra 0 sf 0x1F) next upto = some (vzZxtw c g rd ra sf) ∧
      wordMeaning c (wordR g 0x00 rd ra 0 sf 0x20) next upto = some (vzClz c g rd ra sf) ∧
      wordMeaning c (wordR g 0x00 rd ra 0 sf 0x21) next upto = some (vzCtz c g rd ra sf) ∧
      wordMeaning c (wordR g 0x00 rd ra 0 sf 0x22) next upto = some (vzPopc c g rd ra sf) ∧
      wordMeaning c (wordR g 0x00 rd ra 0 sf 0x23) next upto = some (vzBswap c g rd ra sf)) ∧
    (∀ (c g rd ra rb next upto : Nat), g < 15 → rd < 32 → ra < 32 → rb < 32 →
      wordMeaning c (wordR g 0x01 rd ra rb false 0) next upto = some (vzDadd c g rd ra rb) ∧
      wordMeaning c (wordR g 0x01 rd ra rb false 1) next upto = some (vzDadc c g rd ra rb) ∧
      wordMeaning c (wordR g 0x01 rd ra rb false 2) next upto = some (vzDsub c g rd ra rb) ∧
      wordMeaning c (wordR g 0x01 rd ra rb false 3) next upto = some (vzDsbc c g rd ra rb) ∧
      wordMeaning c (wordR g 0x01 rd ra rb false 4) next upto = some (vzDaa c g rd ra) ∧
      wordMeaning c (wordR g 0x01 rd ra rb false 5) next upto = some (vzDas c g rd ra) ∧
      wordMeaning c (wordR g 0x01 rd ra rb false 6) next upto = some (vzCvbd c g rd ra) ∧
      wordMeaning c (wordR g 0x01 rd ra rb false 7) next upto = some (vzCvdb c g rd ra rb) ∧
      wordMeaning c (wordR g 0x20 rd ra rb false 0) next upto = some (vzCas c g rd ra rb)) ∧
    (∀ (c g rd ra imm next upto : Nat), g < 15 → rd < 32 → ra < 32 → imm < 2 ^ 12 →
      wordMeaning c (wordI g 0x02 rd ra imm) next upto = some (vzAddi c g rd ra imm) ∧
      wordMeaning c (wordI g 0x03 rd ra imm) next upto = some (vzAddis c g rd ra imm) ∧
      wordMeaning c (wordI g 0x04 rd ra imm) next upto = some (vzSubis c g rd ra imm) ∧
      wordMeaning c (wordI g 0x05 rd ra imm) next upto = some (vzAndi c g rd ra imm) ∧
      wordMeaning c (wordI g 0x06 rd ra imm) next upto = some (vzOri c g rd ra imm) ∧
      wordMeaning c (wordI g 0x07 rd ra imm) next upto = some (vzXori c g rd ra imm) ∧
      wordMeaning c (wordI g 0x08 rd ra imm) next upto = some (vzAndis c g rd ra imm) ∧
      wordMeaning c (wordI g 0x14 rd ra imm) next upto = some (vzLb c g rd ra imm) ∧
      wordMeaning c (wordI g 0x15 rd ra imm) next upto = some (vzLbu c g rd ra imm) ∧
      wordMeaning c (wordI g 0x16 rd ra imm) next upto = some (vzLh c g rd ra imm) ∧
      wordMeaning c (wordI g 0x17 rd ra imm) next upto = some (vzLhu c g rd ra imm) ∧
      wordMeaning c (wordI g 0x18 rd ra imm) next upto = some (vzLw c g rd ra imm) ∧
      wordMeaning c (wordI g 0x19 rd ra imm) next upto = some (vzLwu c g rd ra imm) ∧
      wordMeaning c (wordI g 0x1A rd ra imm) next upto = some (vzLd c g rd ra imm) ∧
      wordMeaning c (wordI g 0x1C rd ra imm) next upto = some (vzSb c g rd ra imm) ∧
      wordMeaning c (wordI g 0x1D rd ra imm) next upto = some (vzSh c g rd ra imm) ∧
      wordMeaning c (wordI g 0x1E rd ra imm) next upto = some (vzSw c g rd ra imm) ∧
      wordMeaning c (wordI g 0x1F rd ra imm) next upto = some (vzSd c g rd ra imm)) ∧
    (∀ (c g rd ra imm next upto : Nat), g < 15 → rd < 32 → ra < 32 → imm < 2 ^ 8 →
      wordMeaning c (wordI g 0x09 rd ra imm) next upto = some (vzShli c g rd ra imm) ∧
      wordMeaning c (wordI g 0x0A rd ra imm) next upto = some (vzShri c g rd ra imm) ∧
      wordMeaning c (wordI g 0x0B rd ra imm) next upto = some (vzSari c g rd ra imm) ∧
      wordMeaning c (wordI g 0x0C rd ra imm) next upto = some (vzRori c g rd ra imm)) ∧
    (∀ (c g rd : Nat) (x : Bool) (imm next upto : Nat), g < 15 → rd < 32 → imm < 2 ^ 16 →
      wordMeaning c (wordW g 0x0E rd x imm) next upto = some (vzSeti c g rd x imm) ∧
      wordMeaning c (wordW g 0x10 rd false imm) next upto = some (vzShin c g rd false imm)) ∧
    (∀ (c g rd imm next upto : Nat), g < 15 → rd < 32 → imm < 2 ^ 17 →
      wordMeaning c (wordA g 0x12 rd imm) next upto = some (vzAddpc c g rd imm)) ∧
    (∀ (c g cond disp next upto : Nat), g < 15 → cond < 15 → disp < 2 ^ 18 →
      wordMeaning c (wordB g 0x30 cond disp) next upto = some (vzBcc c g cond disp)) ∧
    (∀ (c g disp next upto : Nat), g < 15 → disp < 2 ^ 22 →
      wordMeaning c (wordJ g 0x31 disp) next upto = some (vzB c g disp) ∧ wordMeaning c (wordJ g 0x32 disp) next upto = some (vzBl c g disp)) ∧
    (∀ (c g ra next upto : Nat), g < 15 → ra < 32 →
      wordMeaning c (wordR g 0x33 0 ra 0 false 0) next upto = some (vzBr c g ra) ∧ wordMeaning c (wordR g 0x33 0 ra 0 false 1) next upto = some (vzBlr c g ra)) ∧
    (∀ (c g rd sr next upto : Nat), g < 15 → rd < 32 → srExists sr = true →
      wordMeaning c (wordR g 0x38 rd sr 0 false 0) next upto = some (vzMfsr c g rd sr 0) ∧
      wordMeaning c (wordR g 0x38 sr rd 0 false 1) next upto = some (vzMtsr c g sr rd 0)) ∧
    (∀ (c g next upto : Nat), g < 15 →
      wordMeaning c (wordR g 0x38 0 0 0 false 2) next upto = some (vzRte c g 0) ∧ wordMeaning c (wordR g 0x38 0 0 0 false 3) next upto = some (vzFence c g) ∧
      wordMeaning c (wordR g 0x38 0 0 0 false 4) next upto = some (vzWfe c g) ∧
      wordMeaning c (wordR g 0x3D 0 0 0 false 0) next upto = some (vzMovb c g) ∧
      wordMeaning c (wordR g 0x3D 0 0 0 false 1) next upto = some (vzMovd c g) ∧
      wordMeaning c (wordR g 0x3D 0 0 0 false 2) next upto = some (vzFilb c g) ∧
      wordMeaning c (wordR g 0x3D 0 0 0 false 3) next upto = some (vzFild c g) ∧
      wordMeaning c (wordR g 0x3D 0 0 0 false 4) next upto = some (vzCmpb c g) ∧
      wordMeaning c (wordR g 0x3D 0 0 0 false 5) next upto = some (vzCmpd c g) ∧
      wordMeaning c (wordR g 0x3D 0 0 0 false 6) next upto = some (vzScnb c g) ∧
      wordMeaning c (wordR g 0x3D 0 0 0 false 7) next upto = some (vzScnd c g)) ∧
    (∀ (c g imm next upto : Nat), g < 15 → imm < 2 ^ 16 →
      wordMeaning c (wordX g 0x39 imm) next upto = some (vzSvc c g imm) ∧ wordMeaning c (wordX g 0x3A imm) next upto = some (vzBrk c g imm)) ∧
    (∀ (c g mode next upto : Nat), g < 15 → mode < 3 →
      wordMeaning c (wordP g 0x3C mode) next upto = some (vzRep c g mode next upto))

/-- With the supply up: TAP reset and IDCODE shift out the identity, BYPASS selects the bypass register, BISTSTAT shifts out the five BIST_RES registers, SAMPLE/PRELOAD and, with RESET_N low, EXTEST, CLAMP and HIGHZ act on the boundary register and pins; SCAN in TEST after the scrub stops the clocks; DBG with debug right 2 opens the debug port and raises DEBUG_SESSION (0x00B) where it was not open. Where its condition does not hold, EXTEST, CLAMP, HIGHZ, SCAN or DBG selects the bypass register. -/
def Obligations.TapCompletes : Prop :=
    (∀ (s : State), s.dev.pins.supply = true →
      Effects (.tapReset) s (fun e =>
        e = (s.dev.tapSelect .idcode).tapOut s.dev.idcode 32)) ∧
    (∀ (s : State), s.dev.pins.supply = true →
      Effects (.idcode) s (fun e =>
        e = (s.dev.tapSelect .idcode).tapOut s.dev.idcode 32)) ∧
    (∀ (s : State), s.dev.pins.supply = true →
      Effects (.bypass) s (fun e =>
        e = s.dev.tapBypass)) ∧
    (∀ (s : State), s.dev.pins.supply = true →
      Effects (.biststat) s (fun e =>
        e = (s.dev.tapSelect .biststat).tapOut ((List.range 5).map (fun u => s.dev.regRead (.BIST_RES u) * 2 ^ (32 * u))).sum 160)) ∧
    (∀ (s : State) (drive pins : Nat), s.dev.pins.supply = true →
      s.dev.pins.resetN = false →
      Effects (.extest drive pins) s (fun e =>
        e = ({ s.dev.tapSelect .extest with test := { (s.dev.tapSelect .extest).test with boundary := drive % 2 ^ boundaryCells, captured := pins % 2 ^ boundaryCells, pinsDriven := true } }).tapOut (pins % 2 ^ boundaryCells) boundaryCells)) ∧
    (∀ (s : State) (preload pins : Nat), s.dev.pins.supply = true →
      Effects (.samplePreload preload pins) s (fun e =>
        e = ({ s.dev.tapSelect .sample with test := { (s.dev.tapSelect .sample).test with boundary := preload % 2 ^ boundaryCells, captured := pins % 2 ^ boundaryCells } }).tapOut (pins % 2 ^ boundaryCells) boundaryCells)) ∧
    (∀ (s : State), s.dev.pins.supply = true →
      s.dev.pins.resetN = false →
      Effects (.clamp) s (fun e =>
        e = ({ s.dev.tapSelect .clamp with test := { (s.dev.tapSelect .clamp).test with pinsDriven := true } }).tapOut 0 1)) ∧
    (∀ (s : State), s.dev.pins.supply = true →
      s.dev.pins.resetN = false →
      Effects (.highz) s (fun e =>
        e = ({ s.dev.tapSelect .highz with test := { (s.dev.tapSelect .highz).test with pinsReleased := true } }).tapOut 0 1)) ∧
    (∀ (s : State), s.dev.pins.supply = true →
      s.dev.flag F.HALW_SCRUB_DONE = true →
      s.dev.f F.TOP_MODE_MODE = 0xB →
      Effects (.scan) s (fun e =>
        e = { s.dev.tapSelect .scan with test := { (s.dev.tapSelect .scan).test with scanStopped := true } })) ∧
    (∀ (s : State), s.live →
      s.dev.pins.supply = true →
      s.dev.right 2 = true →
      (s.dev.tapSelect .dbg).test.dbgActive = false →
      Effects (.dbg) s (fun e =>
        e = ({ s.dev.tapSelect .dbg with test := { (s.dev.tapSelect .dbg).test with dbgActive := true } }).raise 0x00B noPlot [])) ∧
    (∀ (s : State), s.live →
      s.dev.pins.supply = true →
      s.dev.right 2 = true →
      (s.dev.tapSelect .dbg).test.dbgActive = true →
      Effects (.dbg) s (fun e =>
        e = s.dev.tapSelect .dbg)) ∧
    (∀ (s : State), s.live →
      s.dev.pins.supply = true →
      s.dev.right 2 = false →
      Effects (.dbg) s (fun e =>
        e = s.dev.tapBypass)) ∧
    (∀ (s : State) (drive pins : Nat), s.dev.pins.supply = true →
      s.dev.pins.resetN = true →
      Effects (.extest drive pins) s (fun e =>
        e = s.dev.tapBypass)) ∧
    (∀ (s : State), s.dev.pins.supply = true →
      s.dev.pins.resetN = true →
      Effects (.clamp) s (fun e =>
        e = s.dev.tapBypass)) ∧
    (∀ (s : State), s.dev.pins.supply = true →
      s.dev.pins.resetN = true →
      Effects (.highz) s (fun e =>
        e = s.dev.tapBypass)) ∧
    (∀ (s : State), s.dev.pins.supply = true →
      (s.dev.flag F.HALW_SCRUB_DONE = false ∨ s.dev.f F.TOP_MODE_MODE ≠ 0xB) →
      Effects (.scan) s (fun e =>
        e = s.dev.tapBypass))

/-- In debug mode on a core that may be debugged: DBG_HALT halts it; on a halted core DBG_RESUME lets it go on, DBG_STEP runs the one instruction at its pc, or takes the trap of a reserved word; DBG_ACCESS reads or writes a general register or a special register that exists, and reads or writes memory that its region table at S permits, where no poisoned data is read. With debug right 3 a byte received by the UART is kept, otherwise it is discarded. -/
def Obligations.DebugCompletes : Prop :=
    (∀ (s : State) (c : Nat), s.live →
      s.dev.dbgOn c = true →
      Effects (.dbgHalt c) s (fun e =>
        e = s.dev.setCpu c { s.dev.cpu c with halted := true })) ∧
    (∀ (s : State) (c : Nat), s.live →
      s.dev.dbgOn c = true →
      (s.dev.cpu c).halted = true →
      Effects (.dbgResume c) s (fun e =>
        e = s.dev.setCpu c { s.dev.cpu c with halted := false })) ∧
    (∀ (s : State) (c upto : Nat) (m : Dev → Dev), s.live →
      s.dev.dbgOn c = true →
      (s.dev.cpu c).halted = true →
      wordMeaning c (s.dev.wordAt c (s.dev.cpu c).pc.toNat) (s.dev.wordAt c (((s.dev.cpu c).pc.toNat + 4) % 2 ^ 64)) upto = some m →
      Effects (.dbgStep c upto) s (fun e =>
        e = (m (s.dev.setCpu c { s.dev.cpu c with stepping := true, waiting := false })).setCpu c { (m (s.dev.setCpu c { s.dev.cpu c with stepping := true, waiting := false })).cpu c with stepping := false })) ∧
    (∀ (s : State) (c upto : Nat), s.live →
      s.dev.dbgOn c = true →
      (s.dev.cpu c).halted = true →
      wordMeaning c (s.dev.wordAt c (s.dev.cpu c).pc.toNat) (s.dev.wordAt c (((s.dev.cpu c).pc.toNat + 4) % 2 ^ 64)) upto = none →
      Effects (.dbgStep c upto) s (fun e =>
        e = (vzReserved c (s.dev.wordAt c (s.dev.cpu c).pc.toNat) (s.dev.setCpu c { s.dev.cpu c with stepping := true, waiting := false })).setCpu c { (vzReserved c (s.dev.wordAt c (s.dev.cpu c).pc.toNat) (s.dev.setCpu c { s.dev.cpu c with stepping := true, waiting := false })).cpu c with stepping := false })) ∧
    (∀ (s : State) (c i value : Nat), s.live →
      s.dev.dbgOn c = true →
      (s.dev.cpu c).halted = true →
      Effects (.dbgAccess c (.g i) true value) s (fun e =>
        e = s.dev.setCpu c ((s.dev.cpu c).setReg i (BitVec.ofNat 64 value)))) ∧
    (∀ (s : State) (c i value : Nat), s.live →
      s.dev.dbgOn c = true →
      (s.dev.cpu c).halted = true →
      Effects (.dbgAccess c (.g i) false value) s (fun e =>
        e = s.dev.dbgShow ((s.dev.cpu c).reg i).toNat)) ∧
    (∀ (s : State) (c i value : Nat), s.live →
      s.dev.dbgOn c = true →
      (s.dev.cpu c).halted = true →
      srExists i = true →
      Effects (.dbgAccess c (.sr i) true value) s (fun e =>
        e = s.dev.setCpu c ((s.dev.cpu c).setSr i (BitVec.ofNat 64 value)))) ∧
    (∀ (s : State) (c i value : Nat), s.live →
      s.dev.dbgOn c = true →
      (s.dev.cpu c).halted = true →
      srExists i = true →
      i ≠ 3 →
      Effects (.dbgAccess c (.sr i) false value) s (fun e =>
        e = s.dev.dbgShow ((s.dev.cpu c).sr c i 0).toNat)) ∧
    (∀ (s : State) (c value : Nat), s.live →
      s.dev.dbgOn c = true →
      (s.dev.cpu c).halted = true →
      Effects (.dbgAccess c (.sr 3) false value) s (fun e =>
        e = s.dev.draw.2.dbgShow ((s.dev.cpu c).sr c 3 (Config.cycles s.dev.draw.1)).toNat)) ∧
    (∀ (s : State) (c a n value : Nat), s.live →
      s.dev.dbgOn c = true →
      (s.dev.cpu c).halted = true →
      (n = 1 ∨ n = 2 ∨ n = 4 ∨ n = 8) →
      (s.dev.setCpu c { s.dev.cpu c with pstat := (s.dev.cpu c).pstat ||| 1#64 }).accTrap c a n .load = none →
      (s.dev.peek c a n).poison = false →
      Effects (.dbgAccess c (.mem a n) false value) s (fun e =>
        e = (s.dev.peek c a n).dev.dbgShow (s.dev.peek c a n).val)) ∧
    (∀ (s : State) (c a n value : Nat), s.live →
      s.dev.dbgOn c = true →
      (s.dev.cpu c).halted = true →
      (n = 1 ∨ n = 2 ∨ n = 4 ∨ n = 8) →
      (s.dev.setCpu c { s.dev.cpu c with pstat := (s.dev.cpu c).pstat ||| 1#64 }).accTrap c a n .store = none →
      (s.dev.poke c a n (value % 256 ^ n) false).isSome = true →
      Effects (.dbgAccess c (.mem a n) true value) s (fun e =>
        some e = s.dev.poke c a n (value % 256 ^ n) false)) ∧
    (∀ (s : State) (b : Nat), s.live →
      s.dev.right 3 = false →
      Effects (.uartRxByte b) s (fun e =>
        e = { s.dev with test := { s.dev.test with uartDiscarded := s.dev.test.uartDiscarded + 1 } })) ∧
    (∀ (s : State) (b : Nat), s.live →
      s.dev.right 3 = true →
      Effects (.uartRxByte b) s (fun e =>
        e = { s.dev with test := { s.dev.test with uartRx := s.dev.test.uartRx ++ [b % 256] } }))

/-- EVT_HOST_ACK_SEQ takes a value beyond the last one and up to the head, shows the records left unacknowledged and arms the watermark again once they are fewer than HOSTWM, and ignores any other; SWTRIG raises 0x00E with the value; a route that could be loaded is stored and any other ignored; PMU_CTL.RUN, FREEZE and CLEAR set their fields and counters, and a write of a counter that is there takes its low 48 bits and what the counter counts in that cycle; a running counter carried past 2^48 wraps, sets its bit of PMU_OVF and with OVFEV notes its overflow event; an injector with EN = 0 takes its fields, and with EN = 1 written, the rights and a KIND of 0 to 6 is enabled and seeded, with FINJ_ACTIVE (0x009) when it is the first; without the rights REFUSED is set; while EN = 1 only EN changes. -/
def Obligations.EventsAndCountersComplete : Prop :=
    (∀ (s : State) (value : Nat), s.live →
      s.dev.ef F.EVT_HOST_ACK_SEQ_SEQ < value →
      value ≤ s.dev.jhead →
      ¬((s.dev.setAck value).ef F.EVT_JSTAT_UNACK < (s.dev.setAck value).ef F.EVT_JCFG_HOSTWM) →
      Effects (.evtHostAckSeq value) s (fun e =>
        e = s.dev.setAck value)) ∧
    (∀ (s : State) (value : Nat), s.live →
      s.dev.ef F.EVT_HOST_ACK_SEQ_SEQ < value →
      value ≤ s.dev.jhead →
      (s.dev.setAck value).ef F.EVT_JSTAT_UNACK < (s.dev.setAck value).ef F.EVT_JCFG_HOSTWM →
      Effects (.evtHostAckSeq value) s (fun e =>
        e = { s.dev.setAck value with evt := { (s.dev.setAck value).evt with wmSent := false } })) ∧
    (∀ (s : State) (value : Nat), s.live →
      (value ≤ s.dev.ef F.EVT_HOST_ACK_SEQ_SEQ ∨ s.dev.jhead < value) →
      Effects (.evtHostAckSeq value) s (fun e =>
        e = s.dev)) ∧
    (∀ (s : State) (value : Nat), s.live →
      Effects (.evtSwtrig value) s (fun e =>
        e = s.dev.raise 0x00E noPlot [value % 2 ^ 32])) ∧
    (∀ (s : State) (n value : Nat), s.live →
      n < 512 →
      s.dev.routeOk value = true →
      Effects (.evtRoute n value) s (fun e =>
        e = s.dev.setRoute n value)) ∧
    (∀ (s : State) (n value : Nat), s.live →
      (512 ≤ n ∨ s.dev.routeOk value = false) →
      Effects (.evtRoute n value) s (fun e =>
        e = s.dev)) ∧
    (∀ (s : State) (on : Bool), s.live →
      Effects (.pmuRun on) s (fun e =>
        e = s.dev.setEf F.PMU_CTL_RUN (Bool.nat on))) ∧
    (∀ (s : State) (on : Bool), s.live →
      Effects (.pmuFreeze on) s (fun e =>
        e = s.dev.setEf F.PMU_CTL_FREEZE (Bool.nat on))) ∧
    (∀ (s : State), s.live →
      Effects (.pmuClear) s (fun e =>
        e = (((List.range 48).foldl (fun (e : Dev) i => e.setEf (F.PMU_CNT_COUNT i) 0) s.dev).setEf (F.PMU_OVF_OVF 0) 0).setEf (F.PMU_OVF_OVF 1) 0)) ∧
    (∀ (s : State) (i value inc : Nat), s.live →
      s.dev.pmuHas i = true →
      (s.dev.setEf (F.PMU_CNT_COUNT i) (value % 2 ^ 48)).pmuOn i = false →
      Effects (.pmuCntWrite i value inc) s (fun e =>
        e = s.dev.setEf (F.PMU_CNT_COUNT i) (value % 2 ^ 48))) ∧
    (∀ (s : State) (i value inc : Nat), s.live →
      s.dev.pmuHas i = true →
      (s.dev.setEf (F.PMU_CNT_COUNT i) (value % 2 ^ 48)).pmuOn i = true →
      Effects (.pmuCntWrite i value inc) s (fun e =>
        e = (s.dev.setEf (F.PMU_CNT_COUNT i) (value % 2 ^ 48)).pmuBump i inc)) ∧
    (∀ (s : State) (i value inc : Nat), s.live →
      s.dev.pmuHas i = false →
      Effects (.pmuCntWrite i value inc) s (fun e =>
        e = s.dev)) ∧
    (∀ (s : State) (i n : Nat), s.live →
      s.dev.pmuHas i = true →
      s.dev.pmuOn i = true →
      2 ^ 48 ≤ s.dev.ef (F.PMU_CNT_COUNT i) + n →
      ((s.dev.setEf (F.PMU_CNT_COUNT i) ((s.dev.ef (F.PMU_CNT_COUNT i) + n) % 2 ^ 48)).setEf (F.PMU_OVF_OVF (i / 32)) (setBit ((s.dev.setEf (F.PMU_CNT_COUNT i) ((s.dev.ef (F.PMU_CNT_COUNT i) + n) % 2 ^ 48)).ef (F.PMU_OVF_OVF (i / 32))) (i % 32) true)).ef (F.PMU_SEL_OVFEV i) ≠ 1 →
      Effects (.pmuOverflow i n) s (fun e =>
        e = (s.dev.setEf (F.PMU_CNT_COUNT i) ((s.dev.ef (F.PMU_CNT_COUNT i) + n) % 2 ^ 48)).setEf (F.PMU_OVF_OVF (i / 32)) (setBit ((s.dev.setEf (F.PMU_CNT_COUNT i) ((s.dev.ef (F.PMU_CNT_COUNT i) + n) % 2 ^ 48)).ef (F.PMU_OVF_OVF (i / 32))) (i % 32) true))) ∧
    (∀ (s : State) (i n : Nat), s.live →
      s.dev.pmuHas i = true →
      s.dev.pmuOn i = true →
      2 ^ 48 ≤ s.dev.ef (F.PMU_CNT_COUNT i) + n →
      Effects (.pmuOverflow i n) s (fun e =>
        e = s.dev.pmuBump i n)) ∧
    (∀ (s : State) (i value : Nat), s.live →
      i < 16 →
      s.dev.flag (F.FINJ_INJ_EN i) = true →
      bit value 0 = false →
      Effects (.finjEnable i value) s (fun e =>
        e = (s.dev.setF (F.FINJ_INJ_EN i) 0).finjShow)) ∧
    (∀ (s : State) (i value : Nat), s.live →
      i < 16 →
      s.dev.flag (F.FINJ_INJ_EN i) = false →
      bit value 0 = true →
      s.dev.finjOk = true →
      ¬(7 ≤ bits value 2 4) →
      s.dev.flag F.FINJ_CTL_ANY = true →
      Effects (.finjEnable i value) s (fun e =>
        e = { ((s.dev.finjFields i value).setF (F.FINJ_INJ_EN i) 1).finjShow with finj := (((s.dev.finjFields i value).setF (F.FINJ_INJ_EN i) 1).finjShow).finj.set i ⟨Nat.xor ((((s.dev.finjFields i value).setF (F.FINJ_INJ_EN i) 1).finjShow).f F.FINJ_SEED_SEED) i⟩ })) ∧
    (∀ (s : State) (i value : Nat), s.live →
      i < 16 →
      s.dev.flag (F.FINJ_INJ_EN i) = false →
      bit value 0 = true →
      s.dev.finjOk = false →
      Effects (.finjEnable i value) s (fun e =>
        e = s.dev.setF F.FINJ_CTL_REFUSED 1)) ∧
    (∀ (s : State) (i value : Nat), s.live →
      i < 16 →
      s.dev.flag (F.FINJ_INJ_EN i) = false →
      bit value 0 = true →
      s.dev.finjOk = true →
      ¬(7 ≤ bits value 2 4) →
      s.dev.flag F.FINJ_CTL_ANY = false →
      Effects (.finjEnable i value) s (fun e =>
        e = ({ ((s.dev.finjFields i value).setF (F.FINJ_INJ_EN i) 1).finjShow with finj := (((s.dev.finjFields i value).setF (F.FINJ_INJ_EN i) 1).finjShow).finj.set i ⟨Nat.xor ((((s.dev.finjFields i value).setF (F.FINJ_INJ_EN i) 1).finjShow).f F.FINJ_SEED_SEED) i⟩ }).raise 0x009 noPlot [])) ∧
    (∀ (s : State) (i value : Nat), s.live →
      i < 16 →
      s.dev.flag (F.FINJ_INJ_EN i) = false →
      bit value 0 = false →
      Effects (.finjEnable i value) s (fun e =>
        e = s.dev.finjFields i value)) ∧
    (∀ (s : State) (i value : Nat), s.live →
      i < 16 →
      s.dev.flag (F.FINJ_INJ_EN i) = true →
      bit value 0 = true →
      Effects (.finjEnable i value) s (fun e =>
        e = s.dev)) ∧
    (∀ (s : State) (i value : Nat), s.live →
      i < 16 →
      s.dev.flag (F.FINJ_INJ_EN i) = false →
      bit value 0 = true →
      s.dev.finjOk = true →
      7 ≤ bits value 2 4 →
      Effects (.finjEnable i value) s (fun e =>
        e = s.dev))

/-- For the manager, a core and the security core, by the register or half that offset, size and right select: a write of a whole register writes its fields by their access types, or does what that register's own rule says; a read answers its value; a read of a 64-bit register's low half latches the high half for the requester, in place of any it had, and the read of the high half answers the latched value and releases it, or else the register's; a write of the low half is held, in place of any, and the write of the high half writes both, or with none held the high half alone. An access of the wrong size or alignment, or to no register, changes none: its offset and requester are recorded unless a record is held, CSR_FAULT (0x007) is raised, and a read answers all ones. A write at or above 2^32 goes to the windows of the requester's function (the model's addressing, assumption 140). -/
def Obligations.ControlSpaceCompletes : Prop :=
    (∀ (s : State) (by_ : Requester) (addr value : Nat) (wide : Bool) (r : Reg), s.live →
      (∀ n, by_ ≠ .tenant n) →
      addr < 2 ^ 32 →
      s.dev.target (whoOf by_) addr (if wide then 8 else 4) true = .whole r →
      ownWrite r = false →
      Effects (.csrWrite by_ addr value wide) s (fun e =>
        e = s.dev.writeFields r value)) ∧
    (∀ (s : State) (by_ : Requester) (addr value : Nat) (wide : Bool) (r : Reg), s.live →
      (∀ n, by_ ≠ .tenant n) →
      addr < 2 ^ 32 →
      s.dev.target (whoOf by_) addr (if wide then 8 else 4) true = .whole r →
      Effects (.csrWrite by_ addr value wide) s (fun e =>
        e = s.dev.regWrite (whoOf by_) r value true false)) ∧
    (∀ (s : State) (by_ : Requester) (addr value : Nat) (wide : Bool), s.live →
      2 ^ 32 ≤ addr →
      Effects (.csrWrite by_ addr value wide) s (fun e =>
        e = s.dev.windowWriteN by_ addr (if wide then 8 else 4) value)) ∧
    (∀ (s : State) (by_ : Requester) (addr size : Nat), s.live →
      (∀ n, by_ ≠ .tenant n) →
      addr < 2 ^ 32 →
      s.dev.target (whoOf by_) addr size true = .bad →
      s.dev.ef F.EVT_BADINFO_VALID ≠ 1 →
      Effects (.csrBadAccess by_ addr size true) s (fun e =>
        e = (((((s.dev.setEf F.EVT_BADADDR_OFFSET addr).setEf F.EVT_BADINFO_OWNER (whoOf by_).owner).setEf F.EVT_BADINFO_WRITE 1).setEf F.EVT_BADINFO_WIDE (Bool.nat (size == 8))).setEf F.EVT_BADINFO_VALID 1).raise 0x007 noPlot [addr, (whoOf by_).owner])) ∧
    (∀ (s : State) (by_ : Requester) (addr size : Nat), s.live →
      (∀ n, by_ ≠ .tenant n) →
      addr < 2 ^ 32 →
      s.dev.target (whoOf by_) addr size true = .bad →
      s.dev.ef F.EVT_BADINFO_VALID = 1 →
      Effects (.csrBadAccess by_ addr size true) s (fun e =>
        e = s.dev.raise 0x007 noPlot [addr, (whoOf by_).owner])) ∧
    (∀ (s : State) (by_ : Requester) (addr size : Nat), s.live →
      (∀ n, by_ ≠ .tenant n) →
      addr < 2 ^ 32 →
      s.dev.target (whoOf by_) addr size false = .bad →
      s.dev.ef F.EVT_BADINFO_VALID ≠ 1 →
      Effects (.csrBadAccess by_ addr size false) s (fun e =>
        e = Dev.reply (2 ^ (8 * size) - 1, (((((s.dev.setEf F.EVT_BADADDR_OFFSET addr).setEf F.EVT_BADINFO_OWNER (whoOf by_).owner).setEf F.EVT_BADINFO_WRITE 0).setEf F.EVT_BADINFO_WIDE (Bool.nat (size == 8))).setEf F.EVT_BADINFO_VALID 1).raise 0x007 noPlot [addr, (whoOf by_).owner]))) ∧
    (∀ (s : State) (by_ : Requester) (addr size : Nat), s.live →
      (∀ n, by_ ≠ .tenant n) →
      addr < 2 ^ 32 →
      s.dev.target (whoOf by_) addr size false = .bad →
      s.dev.ef F.EVT_BADINFO_VALID = 1 →
      Effects (.csrBadAccess by_ addr size false) s (fun e =>
        e = Dev.reply (2 ^ (8 * size) - 1, s.dev.raise 0x007 noPlot [addr, (whoOf by_).owner]))) ∧
    (∀ (s : State) (by_ : Requester) (addr size : Nat) (r : Reg), s.live →
      (∀ n, by_ ≠ .tenant n) →
      addr < 2 ^ 32 →
      s.dev.target (whoOf by_) addr size false = .whole r →
      Effects (.csrBadAccess by_ addr size false) s (fun e =>
        e = Dev.reply (s.dev.regRead r, s.dev))) ∧
    (∀ (s : State) (by_ : Requester) (addr : Nat) (r : Reg), s.live →
      (∀ n, by_ ≠ .tenant n) →
      addr < 2 ^ 32 →
      s.dev.target (whoOf by_) addr 4 false = .low r →
      Effects (.csrSplitReadLow by_ addr) s (fun e =>
        e = Dev.reply (s.dev.regRead r % 2 ^ 32, { s.dev.dropLatched (whoOf by_) with host := { (s.dev.dropLatched (whoOf by_)).host with readLatch := ((whoOf by_).num, r.addr, s.dev.regRead r / 2 ^ 32) :: (s.dev.dropLatched (whoOf by_)).host.readLatch } }))) ∧
    (∀ (s : State) (by_ : Requester) (addr : Nat) (r : Reg) (v : Nat), s.live →
      (∀ n, by_ ≠ .tenant n) →
      addr < 2 ^ 32 →
      s.dev.target (whoOf by_) addr 4 false = .high r →
      s.dev.latched (whoOf by_) r.addr = some v →
      Effects (.csrSplitReadHigh by_ addr) s (fun e =>
        e = Dev.reply (v, s.dev.dropLatched (whoOf by_)))) ∧
    (∀ (s : State) (by_ : Requester) (addr : Nat) (r : Reg), s.live →
      (∀ n, by_ ≠ .tenant n) →
      addr < 2 ^ 32 →
      s.dev.target (whoOf by_) addr 4 false = .high r →
      s.dev.latched (whoOf by_) r.addr = none →
      Effects (.csrSplitReadHigh by_ addr) s (fun e =>
        e = Dev.reply (s.dev.regRead r / 2 ^ 32, s.dev))) ∧
    (∀ (s : State) (by_ : Requester) (addr value : Nat) (r : Reg), s.live →
      (∀ n, by_ ≠ .tenant n) →
      addr < 2 ^ 32 →
      s.dev.target (whoOf by_) addr 4 true = .low r →
      Effects (.csrSplitWriteLow by_ addr value) s (fun e =>
        e = { s.dev.dropHeld (whoOf by_) with host := { (s.dev.dropHeld (whoOf by_)).host with writeHold := ((whoOf by_).num, r.addr, value % 2 ^ 32) :: (s.dev.dropHeld (whoOf by_)).host.writeHold } })) ∧
    (∀ (s : State) (by_ : Requester) (addr value : Nat) (r : Reg) (x : Nat × Nat × Nat), s.live →
      (∀ n, by_ ≠ .tenant n) →
      addr < 2 ^ 32 →
      s.dev.target (whoOf by_) addr 4 true = .high r →
      (s.dev.host.writeHold.find? (fun y => y.1 == (whoOf by_).num && y.2.1 == r.addr) = some x) →
      Effects (.csrSplitWriteHigh by_ addr value) s (fun e =>
        e = (s.dev.dropHeld (whoOf by_)).regWrite (whoOf by_) r (x.2.2 + 2 ^ 32 * (value % 2 ^ 32)) true false)) ∧
    (∀ (s : State) (by_ : Requester) (addr value : Nat) (r : Reg), s.live →
      (∀ n, by_ ≠ .tenant n) →
      addr < 2 ^ 32 →
      s.dev.target (whoOf by_) addr 4 true = .high r →
      (s.dev.host.writeHold.find? (fun y => y.1 == (whoOf by_).num && y.2.1 == r.addr) = none) →
      Effects (.csrSplitWriteHigh by_ addr value) s (fun e =>
        e = s.dev.regWrite (whoOf by_) r (s.dev.regRead r % 2 ^ 32 + 2 ^ 32 * (value % 2 ^ 32)) false false))

/-- POWER_ON on an unpowered part is a part reset with cause POR and one more power cycle. RESET_N falling is one with cause PIN, but for a part held after a thermal trip with a sensor at 90 C or more. Its rise, unless a trip holds the part, releases FAULT_N, samples the straps and lets start-up run, or wait for PWRFAIL_N. TOP_RESET with its key and GO, and NSSR with its value on plot 0, which NSSRO then shows, are part resets of their causes where a reset can be asked for, and have no effect otherwise. Straps may change at any time. Power loss writes the pages whose programs had ended and clears the volatile state. A sensor at the trip temperature runs the stop, unless it has run or the part is in RESET, and holds the part in RESET. -/
def Obligations.ResetsComplete : Prop :=
    (∀ (s : State), s.dev.pins.supply = false →
      Effects (.powerOn) s (fun e =>
        e = ({ s.dev with test := TestSt.init, pins := { s.dev.pins with supply := true, resetN := false }, nv := { s.dev.nv with powerCycles := s.dev.nv.powerCycles + 1 } }).partReset .por)) ∧
    (∀ (s : State), s.dev.pins.supply = true →
      s.dev.pins.resetN = true →
      ¬(s.dev.mode.hold = .trip ∧ s.dev.anySensor 90 = true) →
      Effects (.resetNAssert) s (fun e =>
        e = ({ s.dev with pins := { s.dev.pins with resetN := false } }).partReset .pin)) ∧
    (∀ (s : State), s.dev.pins.supply = true →
      s.dev.pins.resetN = true →
      s.dev.mode.hold = .trip →
      s.dev.anySensor 90 = true →
      Effects (.resetNAssert) s (fun e =>
        e = { s.dev with pins := { s.dev.pins with resetN := false } })) ∧
    (∀ (s : State), s.dev.pins.supply = true →
      s.dev.pins.resetN = false →
      ({ s.dev with pins := { s.dev.pins with resetN := true, upMs := 0 } }).tapRelease.mode.hold ≠ .trip →
      Effects (.resetNRise) s (fun e =>
        e = { ({ s.dev with pins := { s.dev.pins with resetN := true, upMs := 0 } }).tapRelease.sampleStraps with mode := { ({ s.dev with pins := { s.dev.pins with resetN := true, upMs := 0 } }).tapRelease.mode with faultN := false, hold := if ({ s.dev with pins := { s.dev.pins with resetN := true, upMs := 0 } }).tapRelease.pins.pwrfailN then .none else .pwrfailWait } })) ∧
    (∀ (s : State), s.dev.pins.supply = true →
      s.dev.pins.resetN = false →
      ({ s.dev with pins := { s.dev.pins with resetN := true, upMs := 0 } }).tapRelease.mode.hold = .trip →
      Effects (.resetNRise) s (fun e =>
        e = ({ s.dev with pins := { s.dev.pins with resetN := true, upMs := 0 } }).tapRelease)) ∧
    (∀ (s : State) (key : Nat) (go : Bool), s.live →
      key = 0xC3A5 →
      go = true →
      s.dev.canReset = true →
      Effects (.topReset key go) s (fun e =>
        e = s.dev.partReset .sw)) ∧
    (∀ (s : State) (key : Nat) (go : Bool), s.live →
      (key ≠ 0xC3A5 ∨ go = false ∨ s.dev.canReset = false) →
      Effects (.topReset key go) s (fun e =>
        e = s.dev)) ∧
    (∀ (s : State) (p v : Nat), s.live →
      p = 0 →
      v = 0x4E564D65 →
      s.dev.canReset = true →
      Effects (.nvmSubsystemReset p v) s (fun e =>
        e = { s.dev.partReset .nssr with host := { (s.dev.partReset .nssr).host with nssro := true } })) ∧
    (∀ (s : State) (p v : Nat), s.live →
      (p ≠ 0 ∨ v ≠ 0x4E564D65 ∨ s.dev.canReset = false) →
      Effects (.nvmSubsystemReset p v) s (fun e =>
        e = s.dev)) ∧
    (∀ (s : State) (cid portmode bootsel : Nat), Effects (.strapChange cid portmode bootsel) s (fun e =>
        e = { s.dev with pins := { s.dev.pins with cid := cid % 8, portmode := portmode % 2, bootsel := bootsel % 4 } })) ∧
    (∀ (s : State), s.dev.pins.supply = true →
      Effects (.powerLoss) s (fun e =>
        e = { (s.dev.media.dies.foldl (fun (e : Dev) x => match x.2.ended with
          | some o => if isProgram o then e.writePage o else e
          | none => e) s.dev).cold with pins := { (s.dev.media.dies.foldl (fun (e : Dev) x => match x.2.ended with
          | some o => if isProgram o then e.writePage o else e
          | none => e) s.dev).cold.pins with supply := false, resetN := false, link0 := false, link1 := false } })) ∧
    (∀ (s : State), s.dev.pins.supply = true →
      s.dev.pins.resetN = true →
      s.dev.mode.hold ≠ .trip →
      s.dev.anySensor s.dev.tripTemp = true →
      (s.dev.f F.TOP_MODE_MODE = 0 ∨ s.dev.mode.hold = .pwrfail) →
      Effects (.thermalTrip) s (fun e =>
        e = s.dev.tripHold)) ∧
    (∀ (s : State), s.dev.pins.supply = true →
      s.dev.pins.resetN = true →
      s.dev.mode.hold ≠ .trip →
      s.dev.anySensor s.dev.tripTemp = true →
      s.dev.f F.TOP_MODE_MODE ≠ 0 →
      s.dev.mode.hold ≠ .pwrfail →
      Effects (.thermalTrip) s (fun e =>
        e = s.dev.stopNow.tripHold))

/-- While start-up runs: the scrub ends with SELFTEST entered; the device tests note their results, and a failure holds the part in RESET with FAULT_N; each quadrant's tests note theirs and go on to the next quadrant in service; DRAM training retires a quadrant whose channel failed, sets the degraded condition for it, and marks the quadrants in service trained; each fill is noted and start-up ends when all is done. -/
def Obligations.StartUpCompletes : Prop :=
    (∀ (s : State), s.live →
      s.dev.starting = true →
      s.dev.f F.TOP_MODE_MODE = 0 →
      s.dev.flag F.HALW_SCRUB_DONE = false →
      Effects (.halwardScrubDone) s (fun e =>
        e = (s.dev.setF F.HALW_SCRUB_DONE 1).setMode 2)) ∧
    (∀ (s : State) (ms misr : Nat), s.live →
      s.dev.selfTesting = true →
      s.dev.mode.devTested = false →
      Effects (.deviceBistDone false false false ms misr) s (fun e =>
        e = Dev.skipQuads 4 { s.dev.bistResult 0 false false false ms misr with mode := { (s.dev.bistResult 0 false false false ms misr).mode with devTested := true } })) ∧
    (∀ (s : State) (l m k : Bool) (ms misr : Nat), s.live →
      s.dev.selfTesting = true →
      s.dev.mode.devTested = false →
      (l || m || k) = true →
      Effects (.deviceBistDone l m k ms misr) s (fun e =>
        ∃ x : Dev, x = { s.dev.bistResult 0 l m k ms misr with mode := { (s.dev.bistResult 0 l m k ms misr).mode with devTested := true } }.setMode 0 ∧
        e = { x with mode := { x.mode with hold := .bistFail, faultN := true } })) ∧
    (∀ (s : State) (l m k : Bool) (ms misr : Nat), s.live →
      s.dev.selfTesting = true →
      s.dev.mode.devTested = true →
      s.dev.mode.nextQ < 4 →
      Effects (.quadrantBistDone l m k ms misr) s (fun e =>
        e = (Dev.skipQuads 4 { s.dev.bistResult (s.dev.mode.nextQ + 1) l m k ms misr with mode := { (s.dev.bistResult (s.dev.mode.nextQ + 1) l m k ms misr).mode with nextQ := s.dev.mode.nextQ + 1, passed := setBit (s.dev.bistResult (s.dev.mode.nextQ + 1) l m k ms misr).mode.passed s.dev.mode.nextQ (!(l || m || k)) } }).quadOutcome)) ∧
    (∀ (s : State) (failed : List Nat), s.live →
      s.dev.selfTesting = true →
      s.dev.mode.devTested = true →
      s.dev.mode.nextQ = 4 →
      s.dev.mode.dramTrained = false →
      (failed.filter s.dev.quadOk) = [] →
      Effects (.dramTrainingDone failed) s (fun e =>
        e = { s.dev.quads.foldl (fun (e : Dev) q => e.setF (F.MEMC_STAT_TRAINED q) 1) s.dev with mode := { (s.dev.quads.foldl (fun (e : Dev) q => e.setF (F.MEMC_STAT_TRAINED q) 1) s.dev).mode with dramTrained := true } })) ∧
    (∀ (s : State) (failed : List Nat), s.live →
      s.dev.selfTesting = true →
      s.dev.mode.devTested = true →
      s.dev.mode.nextQ = 4 →
      s.dev.mode.dramTrained = false →
      (failed.filter s.dev.quadOk) ≠ [] →
      Effects (.dramTrainingDone failed) s (fun e =>
        ∃ x : Dev, x = ((failed.filter s.dev.quadOk).foldl (fun (e : Dev) q => e.markRetired q 3) s.dev).setF F.TOP_MODE_CDEGR 1 ∧
        ∃ y : Dev, y = x.quads.foldl (fun (e : Dev) q => e.setF (F.MEMC_STAT_TRAINED q) 1) x ∧ e = { y with mode := { y.mode with dramTrained := true } })) ∧
    (∀ (s : State), s.live →
      s.dev.selfTesting = true →
      s.dev.mode.devTested = true →
      s.dev.mode.nextQ = 4 →
      s.dev.mode.sramFilled = false →
      Effects (.sramFillDone) s (fun e =>
        e = ({ s.dev with mode := { s.dev.mode with sramFilled := true } }).startUpEnd)) ∧
    (∀ (s : State), s.live →
      s.dev.selfTesting = true →
      s.dev.mode.dramTrained = true →
      s.dev.mode.dramFilled = false →
      Effects (.dramFillDone) s (fun e =>
        e = ({ s.dev with mode := { s.dev.mode with dramFilled := true } }).startUpEnd))

/-- In BOOT: the chosen firmware slot, or else the first other that verifies, with 0x02C, is run and the cores leave reset; with none, or the recovery boot strapped, the part enters SAFE 3. The active stream that loads takes effect, or else that of the other slot, with 0x029; where both are refused, with 0x028 and the check code, the part enters SAFE 4. After a clean stop the loaded map leads to the operating mode, or in TEST stays there. In RECOVER: the tag scan drops torn records and admits commands, each segment is applied once, and the end repeats interrupted erases and enters the operating mode with 0x011, or SAFE 5 where a segment could not be read. A life-cycle change that waits stops the part cleanly, and once it is stopped is burned and resets the part. -/
def Obligations.BootAndRecoveryComplete : Prop :=
    (∀ (s : State) (s0 : Nat), s.live →
      s.dev.booting = true →
      s.dev.boot.fwRunning = 0 →
      s.dev.f F.HALW_BOOT_BOOTSEL < 2 →
      (((if 1 ≤ s.dev.directory.fwNext ∧ s.dev.directory.fwNext ≤ 3 then s.dev.directory.fwNext else s.dev.directory.fwActive) :: [1, 2, 3].filter (fun k => k != (if 1 ≤ s.dev.directory.fwNext ∧ s.dev.directory.fwNext ≤ 3 then s.dev.directory.fwNext else s.dev.directory.fwActive))).find? s.dev.slotOk = some s0) →
      s0 = (if 1 ≤ s.dev.directory.fwNext ∧ s.dev.directory.fwNext ≤ 3 then s.dev.directory.fwNext else s.dev.directory.fwActive) →
      Effects (.firmwareVerify) s (fun e =>
        e = ((({ s.dev with boot := { s.dev.boot with firmware := AMap.find s0 s.dev.bootFlash.fw, fwRunning := s0 } }).setF F.HALW_BOOT_FWSLOT s0).setF F.HALW_BOOT_FWFALLBACK (Bool.nat (s0 != (if 1 ≤ s.dev.directory.fwNext ∧ s.dev.directory.fwNext ≤ 3 then s.dev.directory.fwNext else s.dev.directory.fwActive)))).releaseCores)) ∧
    (∀ (s : State) (s0 : Nat), s.live →
      s.dev.booting = true →
      s.dev.boot.fwRunning = 0 →
      s.dev.f F.HALW_BOOT_BOOTSEL < 2 →
      (((if 1 ≤ s.dev.directory.fwNext ∧ s.dev.directory.fwNext ≤ 3 then s.dev.directory.fwNext else s.dev.directory.fwActive) :: [1, 2, 3].filter (fun k => k != (if 1 ≤ s.dev.directory.fwNext ∧ s.dev.directory.fwNext ≤ 3 then s.dev.directory.fwNext else s.dev.directory.fwActive))).find? s.dev.slotOk = some s0) →
      s0 ≠ (if 1 ≤ s.dev.directory.fwNext ∧ s.dev.directory.fwNext ≤ 3 then s.dev.directory.fwNext else s.dev.directory.fwActive) →
      Effects (.firmwareVerify) s (fun e =>
        e = (((({ s.dev with boot := { s.dev.boot with firmware := AMap.find s0 s.dev.bootFlash.fw, fwRunning := s0 } }).setF F.HALW_BOOT_FWSLOT s0).setF F.HALW_BOOT_FWFALLBACK (Bool.nat (s0 != (if 1 ≤ s.dev.directory.fwNext ∧ s.dev.directory.fwNext ≤ 3 then s.dev.directory.fwNext else s.dev.directory.fwActive)))).raise 0x02C noPlot [(if 1 ≤ s.dev.directory.fwNext ∧ s.dev.directory.fwNext ≤ 3 then s.dev.directory.fwNext else s.dev.directory.fwActive), s0]).releaseCores)) ∧
    (∀ (s : State), s.live →
      s.dev.booting = true →
      s.dev.boot.fwRunning = 0 →
      (2 ≤ s.dev.f F.HALW_BOOT_BOOTSEL ∨ ((if 1 ≤ s.dev.directory.fwNext ∧ s.dev.directory.fwNext ≤ 3 then s.dev.directory.fwNext else s.dev.directory.fwActive) :: [1, 2, 3].filter (fun k => k != (if 1 ≤ s.dev.directory.fwNext ∧ s.dev.directory.fwNext ≤ 3 then s.dev.directory.fwNext else s.dev.directory.fwActive))).find? s.dev.slotOk = none) →
      Effects (.firmwareVerify) s (fun e =>
        e = s.dev.releaseCores.bootSafe 3)) ∧
    (∀ (s : State) (x : Stream), s.live →
      s.dev.booting = true →
      s.dev.boot.fwRunning ≠ 0 →
      s.dev.boot.stream = none →
      s.dev.slotFail (min 1 s.dev.directory.strActive) = none →
      s.dev.streamIn (min 1 s.dev.directory.strActive) = some x →
      Effects (.streamVerify) s (fun e =>
        e = (((((((((((s.dev.setF F.HALW_BOOT_STRSLOT (min 1 s.dev.directory.strActive)).setF F.HALW_BOOT_STRFALLBACK 0).applyStream x).firstBoot).bootMembers).bootConds).spareCheck).slmCut true).mapShow).wcShow).journalShow).afterStream)) ∧
    (∀ (s : State) (f : LoadFail) (x : Stream), s.live →
      s.dev.booting = true →
      s.dev.boot.fwRunning ≠ 0 →
      s.dev.boot.stream = none →
      s.dev.slotFail (min 1 s.dev.directory.strActive) = some f →
      (s.dev.noteSlot (min 1 s.dev.directory.strActive) f).slotFail (1 - (min 1 s.dev.directory.strActive)) = none →
      ((s.dev.noteSlot (min 1 s.dev.directory.strActive) f).raise 0x029 noPlot []).streamIn (1 - (min 1 s.dev.directory.strActive)) = some x →
      Effects (.streamVerify) s (fun e =>
        ∃ y : Dev, y = (s.dev.noteSlot (min 1 s.dev.directory.strActive) f).raise 0x029 noPlot [] ∧
        e = (((((((((((y.setF F.HALW_BOOT_STRSLOT (1 - (min 1 s.dev.directory.strActive))).setF F.HALW_BOOT_STRFALLBACK 1).applyStream x).firstBoot).bootMembers).bootConds).spareCheck).slmCut true).mapShow).wcShow).journalShow).afterStream)) ∧
    (∀ (s : State) (f f2 : LoadFail), s.live →
      s.dev.booting = true →
      s.dev.boot.fwRunning ≠ 0 →
      s.dev.boot.stream = none →
      s.dev.slotFail (min 1 s.dev.directory.strActive) = some f →
      (s.dev.noteSlot (min 1 s.dev.directory.strActive) f).slotFail (1 - (min 1 s.dev.directory.strActive)) = some f2 →
      Effects (.streamVerify) s (fun e =>
        ∃ x : Dev, x = ((s.dev.noteSlot (min 1 s.dev.directory.strActive) f).noteSlot (1 - (min 1 s.dev.directory.strActive)) f2).raise 0x028 noPlot [f2.code] ∧
        e = ({ x with boot := { x.boot with firmware := none, fwRunning := 0 } }.setF F.HALW_BOOT_FWSLOT 0).bootSafe 4)) ∧
    (∀ (s : State), s.live →
      s.dev.booting = true →
      s.dev.boot.stream.isSome = true →
      s.dev.nv.stop = .clean →
      s.dev.mode.mapLoaded = false →
      (({ ((s.dev.md.dir.filter (fun s => s.1 / 2 ^ 40 != 0)).foldl (fun (e : Dev) s => e.loadEntries (segMap s.1 s.2)) s.dev).countStop.requeueDoomed with mode := { ((s.dev.md.dir.filter (fun s => s.1 / 2 ^ 40 != 0)).foldl (fun (e : Dev) s => e.loadEntries (segMap s.1 s.2)) s.dev).mode with mapLoaded := true } } : Dev).f F.TOP_MODE_MODE = 4) →
      Effects (.mapLoadDone) s (fun e =>
        e = ({ ((s.dev.md.dir.filter (fun s => s.1 / 2 ^ 40 != 0)).foldl (fun (e : Dev) s => e.loadEntries (segMap s.1 s.2)) s.dev).countStop.requeueDoomed with mode := { ((s.dev.md.dir.filter (fun s => s.1 / 2 ^ 40 != 0)).foldl (fun (e : Dev) s => e.loadEntries (segMap s.1 s.2)) s.dev).mode with mapLoaded := true } } : Dev).enterOperating.powerCombine)) ∧
    (∀ (s : State), s.live →
      s.dev.booting = true →
      s.dev.boot.stream.isSome = true →
      s.dev.nv.stop = .clean →
      s.dev.mode.mapLoaded = false →
      (({ ((s.dev.md.dir.filter (fun s => s.1 / 2 ^ 40 != 0)).foldl (fun (e : Dev) s => e.loadEntries (segMap s.1 s.2)) s.dev).countStop.requeueDoomed with mode := { ((s.dev.md.dir.filter (fun s => s.1 / 2 ^ 40 != 0)).foldl (fun (e : Dev) s => e.loadEntries (segMap s.1 s.2)) s.dev).mode with mapLoaded := true } } : Dev).f F.TOP_MODE_MODE ≠ 4) →
      Effects (.mapLoadDone) s (fun e =>
        ∃ x : Dev, x = { ((s.dev.md.dir.filter (fun s => s.1 / 2 ^ 40 != 0)).foldl (fun (e : Dev) s => e.loadEntries (segMap s.1 s.2)) s.dev).countStop.requeueDoomed with mode := { ((s.dev.md.dir.filter (fun s => s.1 / 2 ^ 40 != 0)).foldl (fun (e : Dev) s => e.loadEntries (segMap s.1 s.2)) s.dev).mode with mapLoaded := true } } ∧ e = { x with nv := { x.nv with stop := .unclean } })) ∧
    (∀ (s : State), s.live →
      s.dev.f F.TOP_MODE_MODE = 5 →
      s.dev.flag F.MAPW_STAT_ADMIT = false →
      Effects (.recoveryTagScanDone) s (fun e =>
        ∃ x : Dev, x = { s.dev.dropTorn with ftl := { s.dev.dropTorn.ftl with candidates := s.dev.dropTorn.tagScan, recover := s.dev.dropTorn.recoverSegs s.dev.dropTorn.tagScan }, nv := { s.dev.dropTorn.nv with recRec := (s.dev.dropTorn.mram.batches.map (fun b => b.recs.length)).sum, recBlk := s.dev.dropTorn.openBlocks.length, recPts := 0 } } ∧
        e = ((x.wcShow).journalShow).setF F.MAPW_STAT_ADMIT 1)) ∧
    (∀ (s : State) (seg : Nat), s.live →
      s.dev.f F.TOP_MODE_MODE = 5 →
      s.dev.flag F.MAPW_STAT_ADMIT = true →
      s.dev.ftl.recover.contains seg = true →
      Effects (.segmentRecovered seg) s (fun e =>
        ∃ y : Dev, y = (s.dev.loadEntries (segMap seg (AMap.get ⟨0, [], none⟩ seg s.dev.md.dir))).applyJournal seg (AMap.get ⟨0, [], none⟩ seg s.dev.md.dir).bseq ∧
        ∃ x : Dev, x = ((y.ftl.candidates.filter (fun x => keySeg x.1 == seg)).foldl (fun (e : Dev) x => e.applyCand x.1 x.2) y).applyLive seg ∧
        e = { x with ftl := { x.ftl with recover := x.ftl.recover.filter (fun s => s != seg) } })) ∧
    (∀ (s : State) (ms : Nat), s.live →
      s.dev.f F.TOP_MODE_MODE = 5 →
      s.dev.flag F.MAPW_STAT_ADMIT = true →
      s.dev.ftl.recover.isEmpty = true →
      Effects (.recoverDone ms true) s (fun e =>
        ∃ y : Dev, y = ((s.dev.md.blocks.filter (fun b => b.2.state == .erasing)).map Prod.fst).foldl (fun (e : Dev) b => e.blockErased (b / 8192) (b % 8192)) s.dev ∧
        ∃ x : Dev, x = ((({ y with nv := { y.nv with recMs := ms }, mode := { y.mode with mapLoaded := true } } : Dev).requeueDoomed.setF F.MAPW_RECOV_MS ms).raise 0x011 noPlot [ms]).enterOperating ∧
        e = (((x.setF F.MAPW_STAT_RECOVERING 0).setF F.MAPW_STAT_ADMIT 0).ewSet 13 (decide (10000 < ms))).powerCombine)) ∧
    (∀ (s : State) (ms : Nat), s.live →
      s.dev.f F.TOP_MODE_MODE = 5 →
      s.dev.flag F.MAPW_STAT_ADMIT = true →
      s.dev.ftl.recover.isEmpty = true →
      Effects (.recoverDone ms false) s (fun e =>
        e = (((s.dev.md.blocks.filter (fun b => b.2.state == .erasing)).map Prod.fst).foldl (fun (e : Dev) b => e.blockErased (b / 8192) (b % 8192)) s.dev).enterSafe 5)) ∧
    (∀ (s : State) (t : Nat × Nat), s.live →
      s.dev.boot.lcChange = some t →
      s.dev.cleanBefore.stopped = true →
      Effects (.lifeCycleBurn) s (fun e =>
        ∃ x : Dev, x = s.dev.cleanBefore ∧
        e = ({ x with fuses := { x.fuses with lcrec := x.fuses.lcrec ++ [t.1], revoked := x.fuses.revoked ||| t.2, dus := x.fuses.dus || x.fuses.state == 1 }, nv := { x.nv with lcPending := true } }).partReset .lcs)) ∧
    (∀ (s : State) (t : Nat × Nat), s.live →
      s.dev.boot.lcChange = some t →
      s.dev.cleanBefore.stopped = false →
      Effects (.lifeCycleBurn) s (fun e =>
        e = s.dev.cleanBefore))

/-- PWRFAIL_N falling outside RESET begins the stop with 0x005, unless it runs; in RESET, with nothing holding the part, it makes start-up wait and begin again. When the stop ends the part is held, and a rise of PWRFAIL_N is a part reset with cause PFRET, at once or after the stop; the wait ends with the straps sampled. PERST_N resets a port the part has, and its rise lets it train; a link that comes up at a legal rate and width records them, raises its event, and shows the degraded flag and 0x1E2 exactly where it came up below its full width, or below 64 GT/s with a partner that offers it; a link that goes down resets its port; a recovery is counted. -/
def Obligations.StopAndLinksComplete : Prop :=
    (∀ (s : State), s.live →
      s.dev.pins.supply = true →
      s.dev.pins.pwrfailN = true →
      s.dev.f F.TOP_MODE_MODE ≠ 0 →
      s.dev.mode.pfStop = false →
      Effects (.pwrfailFall) s (fun e =>
        e = { ({ s.dev with pins := { s.dev.pins with pwrfailN := false } }).raise 0x005 noPlot [] with mode := { s.dev.mode with pfStop := true } })) ∧
    (∀ (s : State), s.live →
      s.dev.pins.supply = true →
      s.dev.pins.pwrfailN = true →
      s.dev.f F.TOP_MODE_MODE ≠ 0 →
      s.dev.mode.pfStop = true →
      Effects (.pwrfailFall) s (fun e =>
        e = ({ s.dev with pins := { s.dev.pins with pwrfailN := false } }))) ∧
    (∀ (s : State), s.live →
      s.dev.pins.supply = true →
      s.dev.pins.pwrfailN = true →
      s.dev.f F.TOP_MODE_MODE = 0 →
      s.dev.pins.resetN = true →
      s.dev.mode.hold = .none →
      Effects (.pwrfailFall) s (fun e =>
        e = { ({ s.dev with pins := { s.dev.pins with pwrfailN := false } }) with mode := { s.dev.mode with hold := .pwrfailWait } }.setF F.HALW_SCRUB_DONE 0)) ∧
    (∀ (s : State), s.live →
      s.dev.pins.supply = true →
      s.dev.pins.pwrfailN = true →
      s.dev.f F.TOP_MODE_MODE = 0 →
      ¬(s.dev.pins.resetN = true ∧ s.dev.mode.hold = .none) →
      Effects (.pwrfailFall) s (fun e =>
        e = ({ s.dev with pins := { s.dev.pins with pwrfailN := false } }))) ∧
    (∀ (s : State), s.live →
      s.dev.mode.pfStop = true →
      s.dev.mode.hold = .none →
      s.dev.stopNow.mode.pfReturned = false →
      Effects (.pwrfailStopDone) s (fun e =>
        e = { s.dev.stopNow with mode := { s.dev.stopNow.mode with hold := .pwrfail } })) ∧
    (∀ (s : State), s.live →
      s.dev.mode.pfStop = true →
      s.dev.mode.hold = .none →
      s.dev.stopNow.mode.pfReturned = true →
      Effects (.pwrfailStopDone) s (fun e =>
        e = { s.dev.stopNow with mode := { s.dev.stopNow.mode with hold := .pwrfail } }.partReset .pfret)) ∧
    (∀ (s : State), s.live →
      s.dev.pins.supply = true →
      s.dev.pins.pwrfailN = false →
      s.dev.mode.hold = .pwrfail →
      Effects (.pwrfailRise) s (fun e =>
        e = ({ s.dev with pins := { s.dev.pins with pwrfailN := true } }).partReset .pfret)) ∧
    (∀ (s : State), s.live →
      s.dev.pins.supply = true →
      s.dev.pins.pwrfailN = false →
      s.dev.mode.hold ≠ .pwrfail →
      s.dev.mode.pfStop = true →
      Effects (.pwrfailRise) s (fun e =>
        e = { s.dev with pins := { s.dev.pins with pwrfailN := true }, mode := { s.dev.mode with pfReturned := true } })) ∧
    (∀ (s : State), s.live →
      s.dev.pins.supply = true →
      s.dev.pins.pwrfailN = false →
      s.dev.mode.hold ≠ .pwrfail →
      s.dev.mode.pfStop = false →
      Effects (.pwrfailRise) s (fun e =>
        e = { s.dev with pins := { s.dev.pins with pwrfailN := true } })) ∧
    (∀ (s : State), s.live →
      s.dev.mode.hold = .pwrfailWait →
      s.dev.pins.pwrfailN = true →
      s.dev.pins.resetN = true →
      Effects (.pwrfailHighWaitEnd) s (fun e =>
        e = { s.dev.sampleStraps with mode := { s.dev.mode with hold := .none, faultN := false } })) ∧
    (∀ (s : State) (port : Nat), s.live →
      port < 2 →
      s.dev.perst port = false →
      (s.dev.setPerst port true).hasPort port = true →
      Effects (.perstAssert port) s (fun e =>
        e = (s.dev.setPerst port true).portReset port)) ∧
    (∀ (s : State) (port : Nat), s.live →
      port < 2 →
      s.dev.perst port = false →
      (s.dev.setPerst port true).hasPort port = false →
      Effects (.perstAssert port) s (fun e =>
        e = s.dev.setPerst port true)) ∧
    (∀ (s : State) (port : Nat), s.live →
      ¬(2 ≤ port) →
      Effects (.perstDeassert port) s (fun e =>
        e = s.dev.setPerst port false)) ∧
    (∀ (s : State) (port rate width : Nat) (partner64 : Bool), s.live →
      s.dev.pins.supply = true →
      s.dev.pins.resetN = true →
      s.dev.hasPort port = true →
      s.dev.perst port = false →
      s.dev.portUp port = false →
      ¬(rate < 4) →
      ¬(6 < rate) →
      [1, 2, 4, 8, 16].contains width = true →
      (width = if s.dev.flag F.HIF_PORTCFG_DUAL then 8 else 16) →
      (rate = 6 ∨ partner64 = false) →
      Effects (.pcieLinkUp port rate width partner64) s (fun e =>
        e = ((((((s.dev.setPort port true).setF (F.HIF_PORTSTAT_RATE port) rate).setF (F.HIF_PORTSTAT_WIDTH port) width).setF (F.HIF_PORTSTAT_FLIT port) (Bool.nat (rate == 6))).setF (F.HIF_PORTSTAT_DEGR port) 0).raise (0x1E0 + port) noPlot [1]))) ∧
    (∀ (s : State) (port rate width : Nat) (partner64 : Bool), s.live →
      s.dev.pins.supply = true →
      s.dev.pins.resetN = true →
      s.dev.hasPort port = true →
      s.dev.perst port = false →
      s.dev.portUp port = false →
      ¬(rate < 4) →
      ¬(6 < rate) →
      [1, 2, 4, 8, 16].contains width = true →
      ¬((if s.dev.flag F.HIF_PORTCFG_DUAL then 8 else 16) < width) →
      (width < (if s.dev.flag F.HIF_PORTCFG_DUAL then 8 else 16) ∨ (rate < 6 ∧ partner64 = true)) →
      Effects (.pcieLinkUp port rate width partner64) s (fun e =>
        e = ((((((s.dev.setPort port true).setF (F.HIF_PORTSTAT_RATE port) rate).setF (F.HIF_PORTSTAT_WIDTH port) width).setF (F.HIF_PORTSTAT_FLIT port) (Bool.nat (rate == 6))).setF (F.HIF_PORTSTAT_DEGR port) 1).raise (0x1E0 + port) noPlot [1]).raise 0x1E2 noPlot [])) ∧
    (∀ (s : State) (port : Nat), s.live →
      s.dev.hasPort port = true →
      s.dev.portUp port = true →
      Effects (.pcieLinkDown port) s (fun e =>
        e = s.dev.portReset port)) ∧
    (∀ (s : State) (port : Nat), s.live →
      s.dev.hasPort port = true →
      s.dev.portUp port = true →
      Effects (.pcieLinkRecovery port) s (fun e =>
        e = ((s.dev.setF (F.HIF_PORTSTAT_RETRAIN port) (satAdd 16 (s.dev.f (F.HIF_PORTSTAT_RETRAIN port)) 1)).stat (256 * port) 9 1).countRetrain port))

/-- With entry asked for, nothing outstanding and the media idle, PS3 is entered, or PS4 with self-refresh and DOZE; a wake ends in the wanted operational state, from DOZE out of self-refresh and in the mode it came from; an idle part asks for entry; a controller's own idle transition changes its request; sensor readings are stored for each sensor whose unit is there, and outside RESET cross the host's thresholds and throttle; a throttle level is left for level 0 with 0x031, or level 2 for level 1 while its conditions hold that; a VCORE step moves its code by one within 0 to 16. -/
def Obligations.PowerAndThermalComplete : Prop :=
    (∀ (s : State), s.live →
      s.dev.flag F.PWR_PSTATE_ENTERING = true →
      s.dev.psMode = true →
      s.dev.quiet = true →
      s.dev.mediaIdle = true →
      s.dev.mode.pfStop = false →
      s.dev.mode.qtest = none →
      s.dev.psWant = 3 →
      Effects (.powerStateEntryDone) s (fun e =>
        ∃ x : Dev, x = (s.dev.setF F.PWR_PSTATE_ENTERING 0).setPs 3 ∧ e = { x with mode := { x.mode with wakePending := false } })) ∧
    (∀ (s : State), s.live →
      s.dev.flag F.PWR_PSTATE_ENTERING = true →
      s.dev.psMode = true →
      s.dev.quiet = true →
      s.dev.mediaIdle = true →
      s.dev.mode.pfStop = false →
      s.dev.mode.qtest = none →
      s.dev.psWant = 4 →
      Effects (.powerStateEntryDone) s (fun e =>
        ∃ x : Dev, x = (s.dev.setF F.PWR_PSTATE_ENTERING 0).setPs 4 ∧
        e = (({ x with mode := { x.mode with wakePending := false, dozeFrom := x.f F.TOP_MODE_MODE } }).selfRefresh true).setMode 0xA)) ∧
    (∀ (s : State), s.live →
      s.dev.mode.wakePending = true →
      3 ≤ s.dev.f F.PWR_PSTATE_PS →
      s.dev.f F.TOP_MODE_MODE ≠ 0xA →
      Effects (.powerStateWakeDone) s (fun e =>
        ∃ x : Dev, x = { s.dev with mode := { s.dev.mode with wakePending := false, wakeAt := s.dev.now } } ∧
        e = x.setPs (if x.psWant < 3 then x.psWant else x.f F.PWR_PSTATE_LASTOP))) ∧
    (∀ (s : State), s.live →
      3 ≤ s.dev.psWant →
      s.dev.f F.PWR_PSTATE_PS < 3 →
      s.dev.quiet = true →
      s.dev.mode.wakeAt + 1 ≤ s.dev.now →
      s.dev.psMode = true →
      Effects (.autonomousPsIdle) s (fun e =>
        e = s.dev.setF F.PWR_PSTATE_ENTERING 1)) ∧
    (∀ (s : State) (p : Nat) (idle target : Nat), s.live →
      AMap.find (s.dev.ctrl p).feat.ps (s.dev.ctrl p).feat.apstTable = some (idle, target) →
      (s.dev.ctrl p).en = true →
      (s.dev.ctrl p).feat.apst = true →
      idle ≠ 0 →
      target ≠ 0 →
      s.dev.psAllowed p = true →
      s.dev.f F.TOP_MODE_MODE ≠ 1 →
      Effects (.autonomousPowerStateTransition p) s (fun e =>
        e = (s.dev.setCtrl p { s.dev.ctrl p with feat := { (s.dev.ctrl p).feat with ps := target } }).powerCombine)) ∧
    (∀ (s : State), s.live →
      s.dev.mode.wakePending = true →
      3 ≤ s.dev.f F.PWR_PSTATE_PS →
      ({ s.dev with mode := { s.dev.mode with wakePending := false, wakeAt := s.dev.now } } : Dev).f F.TOP_MODE_MODE = 0xA →
      Effects (.powerStateWakeDone) s (fun e =>
        ∃ y x : Dev, y = ({ s.dev with mode := { s.dev.mode with wakePending := false, wakeAt := s.dev.now } } : Dev).selfRefresh false ∧
        x = (if y.mode.dozeFrom = 0xB then y.setMode 0xB else y.setMode y.operating) ∧
        e = x.setPs (if x.psWant < 3 then x.psWant else x.f F.PWR_PSTATE_LASTOP))) ∧
    (∀ (s : State) (temps : List Int), s.live →
      s.dev.pins.supply = true →
      temps.length = 6 →
      (s.dev.takeTemps temps).f F.TOP_MODE_MODE = 0 →
      Effects (.sensorRead temps) s (fun e =>
        e = s.dev.takeTemps temps)) ∧
    (∀ (s : State) (temps : List Int), s.live →
      s.dev.pins.supply = true →
      temps.length = 6 →
      (s.dev.takeTemps temps).f F.TOP_MODE_MODE ≠ 0 →
      Effects (.sensorRead temps) s (fun e =>
        ∃ x : Dev, x = (if (List.range 6).any (fun i => s.dev.flag (F.PWR_TEMP_VALID i)) then (s.dev.takeTemps temps).crossings s.dev.kelvin (s.dev.takeTemps temps).kelvin else s.dev.takeTemps temps) ∧
        e = (x.throttle.tmtNote (x.f F.PWR_THERM_LEVEL) (x.f F.PWR_THERM_HOSTCAUSE)).refreshWarn)) ∧
    (∀ (d : Dev) (temps : List Int), ∀ i < 6, (d.takeTemps temps).f (F.PWR_TEMP_VALID i) = Bool.nat (d.sensed i) ∧
      (d.takeTemps temps).f (F.PWR_TEMP_TEMP i) = (if d.sensed i then (max (-128) (min 127 (temps.getD i 0)) % 256).toNat else 0)) ∧
    (∀ (s : State), s.live →
      s.dev.f F.PWR_THERM_LEVEL ≠ 0 →
      s.dev.levelOver (s.dev.f F.PWR_THERM_LEVEL) = true →
      (s.dev.f F.PWR_THERM_LEVEL ≠ 2 ∨ s.dev.levelOver 1 = true) →
      Effects (.throttleExit) s (fun e =>
        e = (((s.dev.setF F.PWR_THERM_LEVEL 0).setF F.PWR_THERM_HOSTCAUSE 0).raise 0x031 noPlot []).retune)) ∧
    (∀ (s : State), s.live →
      s.dev.f F.PWR_THERM_LEVEL = 2 →
      s.dev.levelOver 2 = true →
      s.dev.levelOver 1 = false →
      Effects (.throttleExit) s (fun e =>
        e = ((s.dev.setF F.PWR_THERM_LEVEL 1).setF F.PWR_THERM_HOSTCAUSE (Bool.nat (s.dev.levelByHost 1 && !s.dev.levelSensor 1))).retune)) ∧
    (∀ (s : State) (up : Bool), s.live →
      s.dev.pins.supply = true →
      s.dev.pins.resetN = true →
      up = true →
      s.dev.f F.PWR_VCORE_CODE < 16 →
      Effects (.coreVselStep up) s (fun e =>
        e = s.dev.setF F.PWR_VCORE_CODE (s.dev.f F.PWR_VCORE_CODE + 1))) ∧
    (∀ (s : State) (up : Bool), s.live →
      s.dev.pins.supply = true →
      s.dev.pins.resetN = true →
      up = false →
      0 < s.dev.f F.PWR_VCORE_CODE →
      Effects (.coreVselStep up) s (fun e =>
        e = s.dev.setF F.PWR_VCORE_CODE (s.dev.f F.PWR_VCORE_CODE - 1)))

/-- A test that falls due on a quadrant in service, or is asked for, waits for its quadrant and starts where it may; drained of programs and erases, the quadrant is isolated; its end records the result, counts it, and puts the quadrant back in service with 0x004, or, after the self-test's step and a sanitize that waits, retires it. The slices of the extended self-test are noted one by one, an abort ends it with result 1, and its end gives result 0, or 7 with the failed segment. Sanitize ends in the operating mode, after a block erase with everything erased, after a life-cycle change with the metadata wiped, and a failure ends in SAFE 7. -/
def Obligations.TestsAndSanitizeComplete : Prop :=
    (∀ (s : State) (q : Nat), s.live →
      s.dev.quadOk q = true →
      s.dev.f F.TOP_QBIST_INTERVAL ≠ 0 →
      s.dev.underTest q = false →
      Effects (.qbistDue q) s (fun e =>
        e = ({ s.dev with mode := { s.dev.mode with due := NSet.add q s.dev.mode.due } }).testSweep)) ∧
    (∀ (s : State), s.live →
      s.dev.quadOk (s.dev.f F.TOP_QBIST_NEXTQ) = true →
      Effects (.qbistNow) s (fun e =>
        e = ({ s.dev.setF F.TOP_QBIST_NOW 1 with mode := { s.dev.mode with due := NSet.add (s.dev.f F.TOP_QBIST_NEXTQ) s.dev.mode.due } }).testSweep)) ∧
    (∀ (s : State) (t : QTest), s.live →
      s.dev.mode.qtest = some t →
      t.isolated = false →
      (s.dev.media.dies.any (fun x => x.1 / 512 == t.quad && (x.2.busy.toList ++ x.2.suspended.toList ++ x.2.ended.toList).any (fun o => o.cls == .program || o.cls == .erase)) = false) →
      Effects (.qbistDrainDone) s (fun e =>
        e = ({ s.dev with mode := { s.dev.mode with qtest := some { t with isolated := true } } }).setF (F.MEMC_STAT_SREF t.quad) 1)) ∧
    (∀ (s : State) (ms : Nat) (t : QTest), s.live →
      s.dev.mode.qtest = some t →
      t.isolated = true →
      Effects (.qbistPatternsDone true ms) s (fun e =>
        ∃ x : Dev, x = ((((((((((({ s.dev with mode := { s.dev.mode with qtest := none } }).setF F.TOP_QBIST_BUSY 0).setF F.BIST_LAST_QUAD t.quad).setF F.BIST_LAST_PASS 1).setF F.BIST_LAST_VALID 1).setF
          F.BIST_LAST_MS (min ms 65535)).bistCount 0).bistCount 1)).setF (F.MEMC_STAT_SREF t.quad) 0).goAfterTest t.quad).raise 0x004 noPlot [] ∧
        e = (((if x.f F.TOP_QBIST_NEXTQ = t.quad then x.setF F.TOP_QBIST_NEXTQ (x.quadAfter t.quad) else x).selfTestStep t.quad true).sanitizeGo).testSweep)) ∧
    (∀ (s : State) (ms : Nat) (t : QTest), s.live →
      s.dev.mode.qtest = some t →
      t.isolated = true →
      Effects (.qbistPatternsDone false ms) s (fun e =>
        ∃ x : Dev, x = (((((((({ s.dev with mode := { s.dev.mode with qtest := none } }).setF F.TOP_QBIST_BUSY 0).setF F.BIST_LAST_QUAD t.quad).setF F.BIST_LAST_PASS 0).setF F.BIST_LAST_VALID 1).setF
          F.BIST_LAST_MS (min ms 65535)).bistCount 0).bistCount 2) ∧
        e = ((((if x.f F.TOP_QBIST_NEXTQ = t.quad then x.setF F.TOP_QBIST_NEXTQ (x.quadAfter t.quad) else x).selfTestStep t.quad false).sanitizeGo).retireQuadrant t.quad 1).testSweep)) ∧
    (∀ (s : State) (ok : Bool) (t : SelfTest), s.live →
      s.dev.mode.selfTest = some t →
      t.quads = [] →
      t.slice < 10 →
      s.dev.mode.qtest = none →
      t.abort = false →
      Effects (.mramSliceTestDone ok) s (fun e =>
        e = { s.dev with mode := { s.dev.mode with selfTest := some ({ t with slice := t.slice + 1 }.note ok (16 + t.slice)) } })) ∧
    (∀ (s : State) (ok : Bool) (t : SelfTest), s.live →
      s.dev.mode.selfTest = some t →
      t.quads = [] →
      t.slice < 10 →
      s.dev.mode.qtest = none →
      t.abort = true →
      Effects (.mramSliceTestDone ok) s (fun e =>
        e = ({ s.dev with mode := { s.dev.mode with selfTest := some ({ t with slice := t.slice + 1 }.note ok (16 + t.slice)) } } : Dev).endSelfTest 1 0)) ∧
    (∀ (s : State) (t : SelfTest), s.live →
      s.dev.mode.selfTest = some t →
      t.extended = true →
      s.dev.mode.qtest = none →
      t.abort = false →
      t.quads = [] →
      t.slice = 10 →
      t.failed = none →
      Effects (.extendedSelfTestDone) s (fun e =>
        e = s.dev.endSelfTest 0 0)) ∧
    (∀ (s : State) (t : SelfTest) (seg : Nat), s.live →
      s.dev.mode.selfTest = some t →
      t.extended = true →
      s.dev.mode.qtest = none →
      t.abort = false →
      t.quads = [] →
      t.slice = 10 →
      t.failed = some seg →
      Effects (.extendedSelfTestDone) s (fun e =>
        e = s.dev.endSelfTest 7 seg)) ∧
    (∀ (s : State) (t : SelfTest), s.live →
      s.dev.mode.selfTest = some t →
      t.extended = true →
      s.dev.mode.qtest = none →
      t.abort = true →
      Effects (.extendedSelfTestDone) s (fun e =>
        e = s.dev.endSelfTest 1 0)) ∧
    (∀ (s : State), s.live →
      s.dev.f F.TOP_MODE_MODE = 3 →
      Effects (.sanitizeDone true) s (fun e =>
        ∃ y x : Dev, y = (if s.dev.nv.sanitize = some 1 then ({ s.dev with nv := { s.dev.nv with sanitize := none, sanLast := 1, gde := s.dev.nv.sanitize.isSome, lcPending := false } }).eraseAll else ({ s.dev with nv := { s.dev.nv with sanitize := none, sanLast := 1, gde := s.dev.nv.sanitize.isSome, lcPending := false } })) ∧
        x = (if s.dev.nv.lcPending then ((y.wipeMetadata.setF F.TOP_MODE_CRO 0).setF F.MAPW_STAT_ROCOND 0).setF F.MRAMC_WSEQ_NEXT 1 else y) ∧ e = x.enterOperating.powerCombine)) ∧
    (∀ (s : State), s.live →
      s.dev.f F.TOP_MODE_MODE = 3 →
      Effects (.sanitizeDone false) s (fun e =>
        e = ({ s.dev with nv := { s.dev.nv with sanitize := none, sanLast := 3, gde := false } }).enterSafe 7))

/-- A controller of a function that is there is enabled with its admin queues, disabled, shut down or reset as R73 and R74 say. A doorbell value below the queue size moves tail or head; one that is not, or for no queue, changes nothing and reports its event. A full completion queue stalls with 0x00D; an aggregation time that ends sends the interrupt. A fetch round, while some plot is eligible, grants a plot and its queue, charges the plot, and takes the entry unless its command identifier is in use. A command whose T_MAX expires completes with Internal Error and its jobs end; an internal result of the right generations completes its command, any other is discarded and counted. Queue creation and deletion, with the outstanding and unread commands aborted and 0x1E6, Abort, Asynchronous Event Request, Get Log Page and Identify that pass the checks of R67, R76 and R77 complete with their effect. -/
def Obligations.HostQueuesComplete : Prop :=
    (∀ (s : State) (p css ams asq acq : Nat), s.live →
      p < 512 →
      s.dev.fnThere p = true →
      (s.dev.ctrl p).en = false →
      Effects (.ccEnable p css ams asq acq) s (fun e =>
        ∃ x : Dev, x = s.dev.setCtrl p { s.dev.ctrl p with en := true, css := css, ams := ams, aqaS := asq, aqaC := acq, fetchStopped := false, shn := 0, shst := 0, sqs := [{ qid := 0, size := max 2 (min 4096 asq), cqid := 0, prio := 0, head := 0, tail := 0 }], cqs := [{ qid := 0, size := max 2 (min 4096 acq), head := 0, tail := 0, phase := true, vec := 0, ien := true, held := [], stalled := false, coalesced := 0 }] } ∧
        e = (x.readyAll.warnTo (x.critNow p) p).powerCombine)) ∧
    (∀ (s : State) (p : Nat), s.live →
      (s.dev.ctrl p).en = true →
      Effects (.ccDisable p) s (fun e =>
        e = (s.dev.ctrlReset p).powerCombine)) ∧
    (∀ (s : State) (p : Nat), s.live →
      (s.dev.ctrl p).en = true →
      Effects (.normalShutdown p) s (fun e =>
        e = (s.dev.shutdownStart p 1).shutdownSweep)) ∧
    (∀ (s : State) (p : Nat), s.live →
      (s.dev.ctrl p).en = true →
      Effects (.abruptShutdown p) s (fun e =>
        ∃ x : Dev, x = ((s.dev.shutdownStart p 2).endCommands (fun id => id.plot == p)).nextQGens p ∧ e = (x.setCtrl p { x.ctrl p with aers := [] }).shutdownSweep)) ∧
    (∀ (s : State) (p : Nat), s.live →
      p = 0 →
      s.dev.fnThere p = true →
      Effects (.functionLevelReset p) s (fun e =>
        e = ((s.dev.clearFns (fun f => f == p)).ctrlReset 0).setVfs 0 0)) ∧
    (∀ (s : State) (p : Nat), s.live →
      p < 512 →
      s.dev.fnThere p = true →
      p ≠ 0 →
      Effects (.functionLevelReset p) s (fun e =>
        ∃ x y : Dev, x = (s.dev.clearFns (fun f => f == p)) ∧
        y = (if x.flag (F.PLOT_CTL_RST p) ∨ 2 ≤ x.f (F.PLOT_STAT_STATE p) then x else (x.setF (F.PLOT_CTL_RST p) 1).askReset p) ∧
        e = (if p = 256 ∧ x.flag F.HIF_PORTCFG_DUAL = true then y.setVfs 1 0 else y))) ∧
    (∀ (s : State) (p y v : Nat) (q : Sq), s.live →
      p < 512 →
      s.dev.plotEn p = true →
      s.dev.fnThere p = true →
      (s.dev.ctrl p).sq? y = some q →
      v < q.size →
      Effects (.sqTailDoorbell p y v) s (fun e =>
        e = (s.dev.setCtrl p ((s.dev.ctrl p).setSq { q with tail := v })).hostActivity)) ∧
    (∀ (s : State) (p y v : Nat) (q : Sq), s.live →
      p < 512 →
      s.dev.plotEn p = true →
      s.dev.fnThere p = true →
      (s.dev.ctrl p).sq? y = some q →
      q.size ≤ v →
      Effects (.sqTailDoorbell p y v) s (fun e =>
        e = s.dev.asyncTo p ⟨0, 1, 1⟩)) ∧
    (∀ (s : State) (p y v : Nat), s.live →
      p < 512 →
      s.dev.plotEn p = true →
      s.dev.fnThere p = true →
      (s.dev.ctrl p).sq? y = none →
      Effects (.sqTailDoorbell p y v) s (fun e =>
        e = s.dev.asyncTo p ⟨0, 0, 1⟩)) ∧
    (∀ (s : State) (p y v : Nat) (q : Cq), s.live →
      p < 512 →
      s.dev.plotEn p = true →
      s.dev.fnThere p = true →
      (s.dev.ctrl p).cq? y = some q →
      v < q.size →
      Effects (.cqHeadDoorbell p y v) s (fun e =>
        e = ((Dev.flushHeld p y q.held.length (s.dev.setCtrl p ((s.dev.ctrl p).setCq { q with head := v }))).unstall p y).hostActivity)) ∧
    (∀ (s : State) (p y v : Nat) (q : Cq), s.live →
      p < 512 →
      s.dev.plotEn p = true →
      s.dev.fnThere p = true →
      (s.dev.ctrl p).cq? y = some q →
      q.size ≤ v →
      Effects (.cqHeadDoorbell p y v) s (fun e =>
        e = s.dev.asyncTo p ⟨0, 1, 1⟩)) ∧
    (∀ (s : State) (p y v : Nat), s.live →
      p < 512 →
      s.dev.plotEn p = true →
      s.dev.fnThere p = true →
      (s.dev.ctrl p).cq? y = none →
      Effects (.cqHeadDoorbell p y v) s (fun e =>
        e = s.dev.asyncTo p ⟨0, 0, 1⟩)) ∧
    (∀ (s : State) (p y : Nat) (q : Cq), s.live →
      (s.dev.ctrl p).cq? y = some q →
      q.full = true →
      q.stalled = false →
      Effects (.hostCqStall p y) s (fun e =>
        e = (((s.dev.setCtrl p ((s.dev.ctrl p).setCq { q with stalled := true })).stallShow p).bumpStat p 6 1).raise 0x00D p [])) ∧
    (∀ (s : State) (p y : Nat) (q : Cq), s.live →
      (s.dev.ctrl p).cq? y = some q →
      q.coalesced ≠ 0 →
      Effects (.interruptCoalescingTimeout p y) s (fun e =>
        e = (s.dev.setCtrl p ((s.dev.ctrl p).setCq { q with coalesced := 0 })).msix p q.vec)) ∧
    (∀ (s : State) (cid bytes : Nat) (what : Fetched) (p : Nat) (k : Nat × Bool × List (Nat × Nat)), s.live →
      ((List.range 512).filter s.dev.eligible) ≠ [] →
      p = ((s.dev.fetchWake ((List.range 512).filter s.dev.eligible)).host.arb.pick ((List.range 512).filter s.dev.eligible) ((s.dev.fetchWake ((List.range 512).filter s.dev.eligible)).fetchChoice ((List.range 512).filter s.dev.eligible))) →
      k = ((s.dev.fetchWake ((List.range 512).filter s.dev.eligible)).ctrl p).pickQueue ((s.dev.fetchWake ((List.range 512).filter s.dev.eligible)).fetchQueues p) →
      (s.dev.fetchWake ((List.range 512).filter s.dev.eligible)).outstanding ⟨p, k.1, cid⟩ = false →
      Effects (.fetchRound cid bytes what) s (fun e =>
        ∃ x y : Dev, x = (s.dev.fetchWake ((List.range 512).filter s.dev.eligible)).setCtrl p (((s.dev.fetchWake ((List.range 512).filter s.dev.eligible)).ctrl p).granted ((s.dev.fetchWake ((List.range 512).filter s.dev.eligible)).fetchQueues p) k.1 k.2.1 k.2.2) ∧
        y = { x with host := { x.host with vt := AMap.set 0 p (x.fetchVt p + (if k.1 = 0 then 1 else max 1 (ceilDiv bytes 4096)) * 65536 / max 1 (x.f (F.PLOT_FETCH_WEIGHT p))) x.host.vt, arb := x.host.arb.round ((List.range 512).filter s.dev.eligible) p } } ∧
        e = (y.fetchFrom p k.1 cid).fetched ⟨p, k.1, cid⟩ what)) ∧
    (∀ (s : State) (id : CmdId) (held : List Nat), s.live →
      s.dev.outstanding id = true →
      (s.dev.ctrl id.plot).aers.contains id = false →
      Effects (.cmdTmaxExpired id held) s (fun e =>
        e = ((((s.dev.complete id .internalErrorTimeout 0 0).bumpStat id.plot 3 1).raise 0x00C id.plot []).timeoutJobs id).orphan (fun x => x == id))) ∧
    (∀ (s : State) (id : CmdId) (held : List Nat), s.live →
      s.dev.outstanding id = false →
      65536 ≤ id.cid →
      Effects (.cmdTmaxExpired id held) s (fun e =>
        e = (held.foldl (fun (e : Dev) h => e.pailFree h id.plot true) (s.dev.timeoutJobs id)).forgetOps id)) ∧
    (∀ (s : State) (id : CmdId) (pgen qgen : Nat) (st : Sc) (dw0 dw1 : Nat) (l : Latch), s.live →
      s.dev.latch? id = some l →
      l.plotGen = pgen →
      l.qGen = qgen →
      Effects (.internalResult id pgen qgen st dw0 dw1) s (fun e =>
        e = s.dev.complete id st dw0 dw1)) ∧
    (∀ (s : State) (id : CmdId) (pgen qgen : Nat) (st : Sc) (dw0 dw1 : Nat) (l : Latch), s.live →
      s.dev.latch? id = some l →
      (l.plotGen ≠ pgen ∨ l.qGen ≠ qgen) →
      Effects (.internalResult id pgen qgen st dw0 dw1) s (fun e =>
        e = s.dev.lateDiscard id.plot)) ∧
    (∀ (s : State) (id : CmdId) (pgen qgen : Nat) (st : Sc) (dw0 dw1 : Nat), s.live →
      s.dev.latch? id = none →
      Effects (.internalResult id pgen qgen st dw0 dw1) s (fun e =>
        e = s.dev.lateDiscard id.plot)) ∧
    (∀ (s : State) (c : NCmd) (qid cqid size prio : Nat) (pc : Bool), s.live →
      s.dev.admits c false false true = true →
      pc = true →
      qid ≠ 0 →
      ¬(s.dev.hostActivity.queueLimit c.id.plot false < qid) →
      (s.dev.hostActivity.ctrl c.id.plot).sq? qid = none →
      s.dev.hostActivity.queueRoom c.id.plot false = true →
      (¬(size < 2 ∨ 65536 < size)) →
      cqid ≠ 0 →
      (s.dev.hostActivity.ctrl c.id.plot).cq? cqid ≠ none →
      Effects (.createIoSubmissionQueue c qid cqid size prio pc) s (fun e =>
        e = ((s.dev.hostActivity.setCtrl c.id.plot { s.dev.hostActivity.ctrl c.id.plot with sqs := (s.dev.hostActivity.ctrl c.id.plot).sqs ++ [{ qid := qid, size := size, cqid := cqid, prio := prio % 4, head := 0, tail := 0 }] }).queueShow c.id.plot).done c.id .success)) ∧
    (∀ (s : State) (c : NCmd) (qid size vec : Nat) (ien pc : Bool), s.live →
      s.dev.admits c false false true = true →
      pc = true →
      qid ≠ 0 →
      ¬(s.dev.hostActivity.queueLimit c.id.plot true < qid) →
      (s.dev.hostActivity.ctrl c.id.plot).cq? qid = none →
      s.dev.hostActivity.queueRoom c.id.plot true = true →
      (¬(size < 2 ∨ 65536 < size)) →
      ¬(s.dev.hostActivity.f (F.PLOT_QV_VMAX c.id.plot) ≤ vec) →
      Effects (.createIoCompletionQueue c qid size vec ien pc) s (fun e =>
        e = (s.dev.hostActivity.setCtrl c.id.plot { s.dev.hostActivity.ctrl c.id.plot with cqs := (s.dev.hostActivity.ctrl c.id.plot).cqs ++ [{ qid := qid, size := size, head := 0, tail := 0, phase := true, vec := vec, ien := ien, held := [], stalled := false, coalesced := 0 }] }).done c.id .success)) ∧
    (∀ (s : State) (c : NCmd) (qid : Nat), s.live →
      s.dev.admits c false false true = true →
      qid ≠ 0 →
      (s.dev.hostActivity.ctrl c.id.plot).cq? qid ≠ none →
      ((s.dev.hostActivity.ctrl c.id.plot).sqs.any (fun q => q.cqid == qid) = false) →
      Effects (.deleteIoCompletionQueue c qid) s (fun e =>
        e = ((s.dev.hostActivity.setCtrl c.id.plot { s.dev.hostActivity.ctrl c.id.plot with cqs := (s.dev.hostActivity.ctrl c.id.plot).cqs.filter (fun q => q.qid != qid) }).stallShow c.id.plot).done c.id .success)) ∧
    (∀ (s : State) (c : NCmd) (qid : Nat) (unread : List Nat) (q : Sq), s.live →
      s.dev.admits c false false true = true →
      qid ≠ 0 →
      (s.dev.hostActivity.ctrl c.id.plot).sq? qid = some q →
      unread.length = q.waiting →
      Effects (.deleteIoSubmissionQueue c qid unread) s (fun e =>
        ∃ x y z : Dev, x = s.dev.hostActivity.nextQGen c.id.plot qid ∧
        y = ((s.dev.hostActivity.host.latches.filter (fun l => l.id.plot == c.id.plot && l.id.sq == qid)).map (fun l => l.id)).foldl (fun (x : Dev) i => (x.done i .abortedSqDeletion).bumpStat c.id.plot 4 1) (x.setCtrl c.id.plot ((x.ctrl c.id.plot).setSq { q with head := q.tail })) ∧
        z = unread.foldl (fun (x : Dev) i => x.abortUnread c.id.plot qid i) (y.orphan (fun i => ((s.dev.hostActivity.host.latches.filter (fun l => l.id.plot == c.id.plot && l.id.sq == qid)).map (fun l => l.id)).contains i)) ∧
        e = (if ((s.dev.hostActivity.host.latches.filter (fun l => l.id.plot == c.id.plot && l.id.sq == qid)).map (fun l => l.id)).isEmpty = true ∧ q.waiting = 0 then ((z.setCtrl c.id.plot { z.ctrl c.id.plot with sqs := (z.ctrl c.id.plot).sqs.filter (fun x => x.qid != qid) }).queueShow c.id.plot).done c.id .success
          else (((z.setCtrl c.id.plot { z.ctrl c.id.plot with sqs := (z.ctrl c.id.plot).sqs.filter (fun x => x.qid != qid) }).queueShow c.id.plot).done c.id .success).raise 0x1E6 c.id.plot []))) ∧
    (∀ (s : State) (c : NCmd), s.live →
      s.dev.admits c false false true = true →
      Effects (.abort c) s (fun e =>
        e = s.dev.hostActivity.complete c.id .success 1 0)) ∧
    (∀ (s : State) (c : NCmd), s.live →
      s.dev.admits c false false true = true →
      (s.dev.hostActivity.ctrl c.id.plot).aers.contains c.id = false →
      ¬(16 ≤ (s.dev.hostActivity.ctrl c.id.plot).aers.length) →
      (s.dev.hostActivity.ctrl c.id.plot).asyncPend = [] →
      Effects (.asynchronousEventRequest c) s (fun e =>
        e = s.dev.hostActivity.setCtrl c.id.plot { s.dev.hostActivity.ctrl c.id.plot with aers := (s.dev.hostActivity.ctrl c.id.plot).aers ++ [c.id] })) ∧
    (∀ (s : State) (c : NCmd) (v : AsyncEv) (rest : List AsyncEv), s.live →
      s.dev.admits c false false true = true →
      (s.dev.hostActivity.ctrl c.id.plot).aers.contains c.id = false →
      ¬(16 ≤ (s.dev.hostActivity.ctrl c.id.plot).aers.length) →
      (s.dev.hostActivity.ctrl c.id.plot).asyncPend = v :: rest →
      Effects (.asynchronousEventRequest c) s (fun e =>
        ∃ x : Dev, x = s.dev.hostActivity.setCtrl c.id.plot { s.dev.hostActivity.ctrl c.id.plot with aers := (s.dev.hostActivity.ctrl c.id.plot).aers ++ [c.id] } ∧ e = (x.setCtrl c.id.plot { x.ctrl c.id.plot with asyncPend := rest }).asyncTo c.id.plot v)) ∧
    (∀ (s : State) (c : NCmd) (lid lsf lsi csi off len : Nat) (rae : Bool) (size : Nat) (fs : List LogField), s.live →
      s.dev.admits c false true (sanitizeLogs.contains lid) = true →
      s.dev.hostActivity.logPage c.id.plot c.nsid lid lsf lsi csi = some (size, fs) →
      off % 4 = 0 →
      ¬(size < off) →
      len % 4 = 0 →
      ¬(2 ^ 21 < len) →
      (¬(lid = 0x02 ∧ c.nsid ≠ 0 ∧ c.nsid ≠ 0xFFFFFFFF ∧ ((s.dev.hostActivity.ns? c.nsid).isNone = true ∨ (c.id.plot ≠ 0 ∧ ¬s.dev.hostActivity.attached c.nsid c.id.plot = true)))) →
      (¬((lid = 0xC4 ∧ c.id.plot = 0 ∧ 512 ≤ lsi) ∨ (lid = 0x05 ∧ ¬[0, 3, 4].contains csi = true))) →
      prpFits c len true = true →
      Effects (.getLogPage c lid lsf lsi csi off len rae) s (fun e =>
        ∃ x y : Dev, x = s.dev.hostActivity.send (if lid = 0x01 then .errors c.id.plot off len ((s.dev.hostActivity.ctrl c.id.plot).errLog.zipIdx.map (fun x => (s.dev.hostActivity.smartOf c.id.plot 5 - x.2, x.1.1, x.1.2.1, x.1.2.2))) else .log c.id.plot lid off len fs) ∧
        y = (if rae then x else x.logRead c.id.plot lid) ∧
        e = (if lid = 0xC5 ∧ c.id.plot = 0 ∧ bit lsf 0 = true then ({ y with ecc := EccSt.init }).ewSet 16 false else y).done c.id .success)) ∧
    (∀ (s : State) (c : NCmd) (cns cntid csi : Nat) (m : HostMsg), s.live →
      s.dev.admits c false true true = true →
      s.dev.hostActivity.identifyReply c.id.plot cns c.nsid cntid csi = some (.inl m) →
      prpFits c 4096 true = true →
      Effects (.identify c cns cntid csi) s (fun e =>
        e = (s.dev.hostActivity.send m).done c.id .success))

/-- For each feature of R79: Set Features that is admitted (outstanding, of a plot that may, in a mode that takes it, saved only where the feature saves, its data pointer right) with a value in range changes exactly that feature of its controller, of its namespace (every attached one for FFFFFFFFh) or of the device, and the saved value with SV, and completes with success, Number of Queues with what it grants in Dword 0; a Command Bound out of range changes nothing, an Early Warning out of range completes with C7h; the volatile write cache takes no Set. Get Features shows the current, default or saved value, and with SEL 3 the capabilities. -/
def Obligations.FeaturesComplete : Prop :=
    (∀ (s : State) (c : NCmd) (fid sel cdw11 : Nat) (f : Features) (dw : Nat) (page : List (Nat × Nat)), s.live →
      s.dev.admits c false true true = true →
      fid ≠ 0xC0 →
      fid ≠ 0xC1 →
      ¬(2 < sel) →
      (f = (if sel = 1 then Features.default else if sel = 2 then (if featureSaves fid then AMap.get Features.default c.id.plot s.dev.hostActivity.nv.saved else Features.default) else (s.dev.hostActivity.ctrl c.id.plot).feat)) →
      s.dev.hostActivity.featureOf f c.id.plot fid c.nsid sel cdw11 = some (dw, page) →
      (¬(fid = 0x05 ∧ (¬s.dev.hostActivity.attached c.nsid c.id.plot = true ∨ (s.dev.hostActivity.ns? c.nsid).isNone = true))) →
      prpFits c (featureBytes fid) true = true →
      Effects (.getFeatures c fid sel cdw11) s (fun e =>
        e = (if page.isEmpty then s.dev.hostActivity else s.dev.hostActivity.send (.feature c.id.plot fid page)).complete c.id .success dw 0)) ∧
    (∀ (s : State) (c : NCmd) (fid sel cdw11 : Nat) (dw : Nat) (page : List (Nat × Nat)), s.live →
      s.dev.admits c false true true = true →
      c.id.plot = 0 →
      (fid = 0xC0 ∨ fid = 0xC1) →
      ¬(2 < sel) →
      s.dev.hostActivity.deviceFeature fid sel = some (dw, page) →
      prpFits c (featureBytes fid) true = true →
      Effects (.getFeatures c fid sel cdw11) s (fun e =>
        e = (if page.isEmpty then s.dev.hostActivity else s.dev.hostActivity.send (.feature 0 fid page)).complete c.id .success dw 0)) ∧
    (∀ (s : State) (c : NCmd) (fid cdw11 : Nat), s.live →
      s.dev.admits c false true true = true →
      fid ≠ 0xC0 →
      fid ≠ 0xC1 →
      (s.dev.hostActivity.featureOf (s.dev.hostActivity.ctrl c.id.plot).feat c.id.plot fid c.nsid 3 cdw11).isSome = true →
      Effects (.getFeatures c fid 3 cdw11) s (fun e =>
        e = s.dev.hostActivity.complete c.id .success (Bool.nat (featureSaves fid) + 2 * Bool.nat (fid == 0x05) + 4) 0)) ∧
    (∀ (s : State) (c : NCmd) (save : Bool) (ab lpw mpw hpw : Nat), s.live →
      s.dev.admitsFeature c save true false true = true →
      Effects (.setArbitration c save ab lpw mpw hpw) s (fun e =>
        e = (s.dev.hostActivity.setFeat c.id.plot save (fun f => { f with ab := ab % 8, lpw := lpw, mpw := mpw, hpw := hpw })).done c.id .success)) ∧
    (∀ (s : State) (c : NCmd) (save : Bool) (ps : Nat), s.live →
      s.dev.admitsFeature c save false false true = true →
      ¬(4 < ps) →
      Effects (.setPowerManagement c save ps) s (fun e =>
        e = (((s.dev.hostActivity.done c.id .success).psLatch c.id.plot).setFeat c.id.plot false (fun f => { f with ps := ps })).powerCombine)) ∧
    (∀ (s : State) (c : NCmd) (save : Bool) (t tsel sel : Nat), s.live →
      s.dev.admitsFeature c save true false true = true →
      sel ≤ 1 →
      (tsel = 0 ∨ tsel = 15) →
      Effects (.setTemperatureThreshold c save t tsel sel) s (fun e =>
        ∃ x : Dev, x = s.dev.hostActivity.setFeat c.id.plot save (fun f => if sel = 0 then { f with tempOver := t } else { f with tempUnder := t }) ∧
        e = (x.warnTo (x.critNow c.id.plot) c.id.plot).done c.id .success)) ∧
    (∀ (s : State) (c : NCmd) (save : Bool) (tler : Nat) (dulbe : Bool), s.live →
      s.dev.admitsFeature c save false false true = true →
      dulbe = false →
      c.nsid ≠ 0xFFFFFFFF →
      s.dev.hostActivity.attached c.nsid c.id.plot = true →
      (s.dev.hostActivity.ns? c.nsid).isNone = false →
      Effects (.setErrorRecovery c save tler dulbe) s (fun e =>
        e = (s.dev.hostActivity.setTler [c.nsid] tler).done c.id .success)) ∧
    (∀ (s : State) (c : NCmd) (save : Bool) (tler : Nat) (dulbe : Bool), s.live →
      s.dev.admitsFeature c save false false true = true →
      dulbe = false →
      c.nsid = 0xFFFFFFFF →
      Effects (.setErrorRecovery c save tler dulbe) s (fun e =>
        e = (s.dev.hostActivity.setTler ((s.dev.hostActivity.md.nss.filter (fun n => n.attached.contains c.id.plot)).map (fun n => n.nsid)) tler).done c.id .success)) ∧
    (∀ (s : State) (c : NCmd) (save : Bool) (nsq ncq : Nat), s.live →
      s.dev.admitsFeature c save false false true = true →
      ((s.dev.hostActivity.ctrl c.id.plot).sqs.any (fun q => q.qid != 0) = false) →
      ((s.dev.hostActivity.ctrl c.id.plot).cqs.any (fun q => q.qid != 0) = false) →
      (¬(nsq = 65535 ∨ ncq = 65535)) →
      Effects (.setNumberOfQueues c save nsq ncq) s (fun e =>
        ∃ m a b : Nat, m = s.dev.hostActivity.f (F.PLOT_QV_QMAX c.id.plot) ∧ a = min (nsq + 1) m ∧ b = min (ncq + 1) m ∧
        e = (s.dev.hostActivity.setFeat c.id.plot false (fun f => { f with nsq := a, ncq := b })).complete c.id .success ((a - 1) + 65536 * (b - 1)) 0)) ∧
    (∀ (s : State) (c : NCmd) (save : Bool) (thr time : Nat), s.live →
      s.dev.admitsFeature c save false false true = true →
      Effects (.setInterruptCoalescing c save thr time) s (fun e =>
        e = (s.dev.hostActivity.setFeat c.id.plot false (fun f => { f with coalThr := thr, coalTime := time })).done c.id .success)) ∧
    (∀ (s : State) (c : NCmd) (save : Bool) (vec : Nat) (cd : Bool), s.live →
      s.dev.admitsFeature c save false false true = true →
      ¬(s.dev.hostActivity.f (F.PLOT_QV_VMAX c.id.plot) ≤ vec) →
      Effects (.setInterruptVectorConfig c save vec cd) s (fun e =>
        e = (s.dev.hostActivity.setFeat c.id.plot false (fun f => { f with vecCd := if cd then NSet.add vec f.vecCd else NSet.del vec f.vecCd })).done c.id .success)) ∧
    (∀ (s : State) (c : NCmd) (save : Bool) (dn : Nat), s.live →
      s.dev.admitsFeature c save false false true = true →
      Effects (.setWriteAtomicity c save dn) s (fun e =>
        e = (s.dev.hostActivity.setFeat c.id.plot false (fun f => { f with dn := dn % 2 })).done c.id .success)) ∧
    (∀ (s : State) (c : NCmd) (save : Bool) (v : Nat), s.live →
      s.dev.admitsFeature c save false false true = true →
      Effects (.setAsyncEventConfig c save v) s (fun e =>
        e = (s.dev.hostActivity.setFeat c.id.plot false (fun f => { f with asyncCfg := v % 2 ^ 32 })).done c.id .success)) ∧
    (∀ (s : State) (c : NCmd) (save on : Bool) (table : List (Nat × Nat × Nat)), s.live →
      s.dev.admitsFeature c save true false true = true →
      prpFits c 256 false = true →
      (table.any (fun x => decide (4 < x.1) || !(x.2.2 == 0 || x.2.2 == 3 || x.2.2 == 4)) = false) →
      Effects (.setAutonomousPst c save on table) s (fun e =>
        e = (s.dev.hostActivity.setFeat c.id.plot save (fun f => { f with apst := on, apstTable := table })).done c.id .success)) ∧
    (∀ (s : State) (c : NCmd) (save : Bool) (t : Nat), s.live →
      s.dev.admitsFeature c save false false true = true →
      prpFits c 8 false = true →
      Effects (.setTimestamp c save t) s (fun e =>
        e = (s.dev.hostActivity.setFeat c.id.plot false (fun f => { f with tsBase := t % 2 ^ 48, tsAt := s.dev.hostActivity.now })).done c.id .success)) ∧
    (∀ (s : State) (c : NCmd) (save : Bool) (t1 t2 : Nat), s.live →
      s.dev.admitsFeature c save true false true = true →
      ¬(t1 ≠ 0 ∧ t2 ≠ 0 ∧ t2 ≤ t1) →
      Effects (.setHostThermalMgmt c save t1 t2) s (fun e =>
        e = ((s.dev.hostActivity.setFeat c.id.plot save (fun f => { f with tmt1 := t1, tmt2 := t2 })).throttle).done c.id .success)) ∧
    (∀ (s : State) (c : NCmd), s.live →
      s.dev.admits c false false true = true →
      Effects (.setVolatileWriteCache c) s (fun e =>
        e = s.dev.hostActivity.done c.id .invalidField)) ∧
    (∀ (s : State) (c : NCmd) (save : Bool) (v : Nat), s.live →
      s.dev.admitsFeature c save true true false = true →
      1 ≤ v % 64 →
      v % 64 ≤ 60 →
      Effects (.setCommandBound c save v) s (fun e =>
        ∃ x : Dev, x = s.dev.hostActivity.setF F.TOP_TMAX_SECONDS (v % 64) ∧ e = (if save = true then { x with nv := { x.nv with savedTmax := some (v % 64) } } else x).done c.id .success)) ∧
    (∀ (s : State) (c : NCmd) (save : Bool) (v : Nat), s.live →
      s.dev.admitsFeature c save true true false = true →
      ¬(1 ≤ v % 64 ∧ v % 64 ≤ 60) →
      Effects (.setCommandBound c save v) s (fun e =>
        e = s.dev.hostActivity.done c.id .success)) ∧
    (∀ (s : State) (c : NCmd) (save : Bool) (set_ ew crit wear : Nat) (zeros : Bool), s.live →
      s.dev.admitsFeature c save true true false = true →
      prpFits c 16 false = true →
      ¬(2 ^ 18 ≤ set_) →
      1 ≤ ew →
      ew ≤ 100 →
      crit < ew →
      1 ≤ wear →
      wear ≤ 255 →
      zeros = true →
      Effects (.setEarlyWarning c save set_ ew crit wear zeros) s (fun e =>
        ∃ x : Dev, x = s.dev.hostActivity.putEw set_ ew crit wear ∧ e = (if save = true then { x with nv := { x.nv with savedEw := some (set_, ew, crit, wear) } } else x).done c.id .success)) ∧
    (∀ (s : State) (c : NCmd) (save : Bool) (set_ ew crit wear : Nat) (zeros : Bool), s.live →
      s.dev.admitsFeature c save true true false = true →
      prpFits c 16 false = true →
      (2 ^ 18 ≤ set_ ∨ ew < 1 ∨ 100 < ew ∨ ew ≤ crit ∨ wear < 1 ∨ 255 < wear ∨ zeros = false) →
      Effects (.setEarlyWarning c save set_ ew crit wear zeros) s (fun e =>
        e = s.dev.hostActivity.complete c.id (.vendor 0xC7) 0 0)) ∧
    (∀ (s : State) (c : NCmd) (save : Bool) (v : Nat), s.live →
      s.dev.admitsFeature c save false false false = true →
      Effects (.setVendorEventNotices c save v) s (fun e =>
        e = (s.dev.hostActivity.setFeat c.id.plot false (fun f => { f with vendorNotices := v % 64 })).done c.id .success))

/-- Each admitted command of these families with operands in range completes with its effect: a namespace is created (a cluster one once its members hold shares, unless one refuses), deleted (all for FFFFFFFFh), attached, detached, reformatted; a secondary controller goes offline or online, an allotment is tried; sanitize of either kind is accepted; self-tests run, start or are aborted; an image piece is kept; a commit puts an image in its slot, to run at the next reset with action 1 or 2, or starts the drain; a stream goes to the other slot; the drain of an activation ends with the new image running and 0x1E8, or at its bound with 0x1E9; a graft that passes its checks waits for its swap; a good anchor token reseats; Security Receive hands out the protocols, a ready response (kept if it is cut), or says that none is there or ready. -/
def Obligations.AdminCommandsComplete : Prop :=
    (∀ (s : State) (c : NCmd) (nsze ncap lbaf pi : Nat) (ext shared : Bool) (iu geom comp : Nat) (refused : Option Nat) (ns : List Ns), s.live →
      s.dev.admitsUp c true false false = true →
      (ns = (s.dev.hostActivity.md.nss.filter (fun n => decide (c.nsid = 0xFFFFFFFF) || n.nsid == c.nsid))) →
      ns ≠ [] →
      ns.any s.dev.hostActivity.notReady = false →
      (ns.any (fun n => n.cluster.isSome) = false ∨ (s.dev.hostActivity.f F.TOP_MODE_MODE ≠ 0xB ∧ s.dev.hostActivity.allInView = true)) →
      Effects (.namespaceManagement c true nsze ncap lbaf pi ext shared iu geom comp refused) s (fun e =>
        e = (ns.foldl (fun (x : Dev) n => x.dropNs n) s.dev.hostActivity).done c.id .success)) ∧
    (∀ (s : State) (c : NCmd) (nsze ncap lbaf pi : Nat) (ext shared : Bool) (iu geom comp : Nat) (refused : Option Nat) (n : Ns), s.live →
      s.dev.admitsUp c true false false = true →
      prpFits c 4096 false = true →
      s.dev.hostActivity.newNsOk nsze ncap lbaf pi iu geom comp = true →
      n = { nsid := 0, nsze := nsze, ncap := ncap, lbaf := lbaf, iu := iu, pi := pi, ext := ext, comp := comp, attached := [], shared := shared, epoch := 0, test := s.dev.hostActivity.f F.TOP_MODE_MODE == 0xB, resv := Resv.init, cluster := geomOf geom } →
      n.cluster = none →
      (¬(1024 ≤ s.dev.hostActivity.md.nss.length ∨ (s.dev.hostActivity.freeNsids false).isEmpty = true)) →
      ¬(s.dev.hostActivity.mapFree < s.dev.hostActivity.nsMap n) →
      s.dev.hostActivity.capFits n = true →
      Effects (.namespaceManagement c false nsze ncap lbaf pi ext shared iu geom comp refused) s (fun e =>
        ∃ (id : Nat) (x : Dev), id = (s.dev.hostActivity.freeNsids false).getD (Config.nsidPick s.dev.hostActivity.draw.1 % (s.dev.hostActivity.freeNsids false).length) 0 ∧ x = { s.dev.hostActivity.draw.2 with md := { s.dev.hostActivity.draw.2.md with nss := s.dev.hostActivity.draw.2.md.nss ++ [{ n with nsid := id }] } } ∧
        e = ((x.raiseEpoch id).mapShow).complete c.id .success id 0)) ∧
    (∀ (s : State) (c : NCmd) (nsze ncap lbaf pi : Nat) (ext shared : Bool) (iu geom comp : Nat) (refused : Option Nat) (n : Ns), s.live →
      s.dev.admitsUp c true false false = true →
      prpFits c 4096 false = true →
      s.dev.hostActivity.newNsOk nsze ncap lbaf pi iu geom comp = true →
      n = { nsid := 0, nsze := nsze, ncap := ncap, lbaf := lbaf, iu := iu, pi := pi, ext := ext, comp := comp, attached := [], shared := shared, epoch := 0, test := s.dev.hostActivity.f F.TOP_MODE_MODE == 0xB, resv := Resv.init, cluster := geomOf geom } →
      n.cluster.isSome = true →
      s.dev.hostActivity.allInView = true →
      (¬(1024 ≤ s.dev.hostActivity.md.nss.length ∨ (s.dev.hostActivity.freeNsids true).isEmpty = true)) →
      ¬(s.dev.hostActivity.mapFree < s.dev.hostActivity.nsMap n) →
      s.dev.hostActivity.capFits n = true →
      Effects (.namespaceManagement c false nsze ncap lbaf pi ext shared iu geom comp refused) s (fun e =>
        ∃ (id : Nat) (x y : Dev), id = (s.dev.hostActivity.freeNsids true).getD (Config.nsidPick s.dev.hostActivity.draw.1 % (s.dev.hostActivity.freeNsids true).length) 0 ∧ x = s.dev.hostActivity.draw.2.tellMembers .reserve id n.nsze ∧ y = x.tellMembers .create id n.nsze ∧
        e = (match refused with
          | some dw => x.complete c.id .namespaceInsufficientCapacity dw 0
          | none => ((({ y with md := { y.md with nss := y.md.nss ++ [{ n with nsid := id }] } } : Dev).raiseEpoch id).mapShow).complete c.id .success id 0))) ∧
    (∀ (s : State) (c : NCmd) (detach : Bool) (list : List Nat) (n : Ns), s.live →
      s.dev.admitsUp c true false false = true →
      s.dev.hostActivity.ns? c.nsid = some n →
      s.dev.hostActivity.notReady n = false →
      prpFits c 4096 false = true →
      detach = true →
      (¬(list.isEmpty = true ∨ 2047 < list.length ∨ list.any (fun p => decide (512 ≤ p) || !s.dev.hostActivity.plotEn p) = true ∨ list.eraseDups.length ≠ list.length)) →
      (list.any (fun p => !n.attached.contains p) = false) →
      Effects (.namespaceAttachment c detach list) s (fun e =>
        e = ((s.dev.hostActivity.setNs { n with attached := n.attached.filter (fun p => !list.contains p) }).nsChanged c.nsid list).done c.id .success)) ∧
    (∀ (s : State) (c : NCmd) (detach : Bool) (list : List Nat) (n : Ns), s.live →
      s.dev.admitsUp c true false false = true →
      s.dev.hostActivity.ns? c.nsid = some n →
      s.dev.hostActivity.notReady n = false →
      prpFits c 4096 false = true →
      detach = false →
      (¬(list.isEmpty = true ∨ 2047 < list.length ∨ list.any (fun p => decide (512 ≤ p) || !s.dev.hostActivity.plotEn p) = true ∨ list.eraseDups.length ≠ list.length)) →
      (list.any (fun p => n.attached.contains p) = false) →
      ¬(¬n.shared = true ∧ 1 < n.attached.length + list.length) →
      Effects (.namespaceAttachment c detach list) s (fun e =>
        e = ((s.dev.hostActivity.setNs { n with attached := list.foldl (fun l p => NSet.add p l) n.attached }).nsChanged c.nsid list).done c.id .success)) ∧
    (∀ (s : State) (c : NCmd) (rt cntid nr : Nat), s.live →
      s.dev.admitsUp c true false false = true →
      cntid < 512 →
      s.dev.hostActivity.primary cntid = false →
      Effects (.virtualizationManagement c 9 rt cntid nr) s (fun e =>
        e = (s.dev.hostActivity.setCtrl cntid { s.dev.hostActivity.ctrl cntid with offline := false }).done c.id .success)) ∧
    (∀ (s : State) (c : NCmd) (rt cntid nr : Nat), s.live →
      s.dev.admitsUp c true false false = true →
      cntid < 512 →
      s.dev.hostActivity.primary cntid = false →
      Effects (.virtualizationManagement c 7 rt cntid nr) s (fun e =>
        ∃ x : Dev, x = s.dev.hostActivity.ctrlReset cntid ∧ e = (x.setCtrl cntid { x.ctrl cntid with offline := true }).done c.id .success)) ∧
    (∀ (s : State) (c : NCmd) (act rt cntid nr : Nat), s.live →
      s.dev.admitsUp c true false false = true →
      (act = 1 ∨ act = 8) →
      cntid < 512 →
      s.dev.hostActivity.primary cntid = decide (act = 1) →
      rt ≤ 1 →
      (act = 8 → (s.dev.hostActivity.ctrl cntid).offline = true) →
      Effects (.virtualizationManagement c act rt cntid nr) s (fun e =>
        e = s.dev.hostActivity.allot c cntid rt nr)) ∧
    (∀ (s : State) (c : NCmd) (lbaf ses pi : Nat) (ext : Bool) (n : Ns), s.live →
      s.dev.admitsUp c false false false = true →
      s.dev.hostActivity.ns? c.nsid = some n →
      ¬(c.id.plot ≠ 0 ∧ ¬n.attached.contains c.id.plot = true) →
      ¬(2 < ses) →
      s.dev.hostActivity.notReady n = false →
      (¬(3 < lbaf ∨ piTypeOk lbaf pi = false ∨ (n.comp ≠ 0 ∧ (lbaf = 1 ∨ lbaf = 2)))) →
      ¬(s.dev.hostActivity.mapFree + s.dev.hostActivity.nsMap n < s.dev.hostActivity.nsMap { n with nsze := n.nsze * lbaBytes n.lbaf / lbaBytes lbaf, ncap := n.ncap * lbaBytes n.lbaf / lbaBytes lbaf, lbaf := lbaf, pi := pi, ext := ext }) →
      Effects (.formatNvm c lbaf ses pi ext) s (fun e =>
        ∃ x y : Dev, x = (s.dev.hostActivity.purgeNs c.nsid).setNs { n with nsze := n.nsze * lbaBytes n.lbaf / lbaBytes lbaf, ncap := n.ncap * lbaBytes n.lbaf / lbaBytes lbaf, lbaf := lbaf, pi := pi, ext := ext } ∧
        y = (if ses = 2 then (x.raiseEpoch c.nsid).clearKeys (fun k => k.label.purpose == 1 && k.label.nsid == c.nsid) else x) ∧
        e = ((y.mapShow).nsChanged c.nsid n.attached).done c.id .success)) ∧
    (∀ (s : State) (c : NCmd), s.live →
      s.dev.admitsUp c true false false = true →
      s.dev.hostActivity.isOperating = true →
      Effects (.cryptoErase c) s (fun e =>
        ∃ x : Dev, x = s.dev.hostActivity.done c.id .success ∧ e = ({ x with mode := { x.mode with sanitizeWait := some 0 } }).sanitizeGo)) ∧
    (∀ (s : State) (c : NCmd), s.live →
      s.dev.admitsUp c true false false = true →
      s.dev.hostActivity.isOperating = true →
      Effects (.blockErase c) s (fun e =>
        ∃ x : Dev, x = s.dev.hostActivity.done c.id .success ∧ e = ({ x with mode := { x.mode with sanitizeWait := some 1 } }).sanitizeGo)) ∧
    (∀ (s : State) (c : NCmd) (ok : Bool), s.live →
      s.dev.admitsUp c true false false = true →
      s.dev.hostActivity.mode.selfTest = none →
      Effects (.shortSelfTest c ok) s (fun e =>
        e = (s.dev.hostActivity.selfTestResult 1 (if ok then 0 else 7) 0).done c.id .success)) ∧
    (∀ (s : State) (c : NCmd), s.live →
      s.dev.admitsUp c true false false = true →
      s.dev.hostActivity.mode.selfTest = none →
      s.dev.hostActivity.isOperating = true →
      Effects (.extendedSelfTest c) s (fun e =>
        e = ((({ s.dev.hostActivity with mode := { s.dev.hostActivity.mode with selfTest := some { extended := true, quads := s.dev.hostActivity.quads, slice := 0, abort := false, failed := none } } }).setCond F.TOP_MODE_CXST true).done c.id .success).testSweep)) ∧
    (∀ (s : State) (c : NCmd) (t : SelfTest), s.live →
      s.dev.admitsUp c true false false = true →
      s.dev.hostActivity.mode.selfTest = some t →
      Effects (.selfTestAbort c) s (fun e =>
        ∃ x : Dev, x = ({ s.dev.hostActivity with mode := { s.dev.hostActivity.mode with selfTest := some { t with abort := true } } } : Dev).done c.id .success ∧
        e = (if t.quads.isEmpty = true ∨ s.dev.hostActivity.mode.qtest.any (fun q => t.quads.contains q.quad) = true then x else x.endSelfTest 1 0))) ∧
    (∀ (s : State) (c : NCmd), s.live →
      s.dev.admitsUp c true false false = true →
      s.dev.hostActivity.mode.selfTest = none →
      Effects (.selfTestAbort c) s (fun e =>
        e = s.dev.hostActivity.done c.id .success)) ∧
    (∀ (s : State) (c : NCmd) (anchor : Nat) (t : AnchorTok), s.live →
      s.dev.admitsUp c true false false = true →
      prpFits c 256 false = true →
      s.dev.hostActivity.tokenGood t true = true →
      t.anchor = anchor →
      Effects (.reseatAnchor c anchor t) s (fun e =>
        e = ((s.dev.hostActivity.passToken t).reseat t).done c.id .success)) ∧
    (∀ (s : State) (c : NCmd) (len : Nat) (g : Machine.Graft) (x : Segment), s.live →
      s.dev.admitsUp c true false false = true →
      (¬(len < 1024 ∨ 65536 < len)) →
      prpFits c len false = true →
      g.hdr.length = len →
      s.dev.hostActivity.graftFail g = none →
      g.seg = some x →
      Effects (.applyGraft c len g) s (fun e =>
        ∃ y : Dev, y = { s.dev.hostActivity with trel := { s.dev.hostActivity.trel with swap := AMap.put g.quad { x with segver := g.hdr.svn } s.dev.hostActivity.trel.swap }, boot := { s.dev.hostActivity.boot with graft := some g } } ∧
        e = ((((y.setF F.BRZ_GRAFT_QUAD g.quad).setF F.BRZ_GRAFT_PENDING 1).setF F.BRZ_GRAFT_SEGVER g.hdr.svn).raise 0x02A noPlot [g.quad, g.hdr.svn]).done c.id .success)) ∧
    (∀ (s : State) (c : NCmd) (off len : Nat) (o : Machine.Object), s.live →
      s.dev.admitsUp c true true false = true →
      off % 4096 = 0 →
      len % 4096 = 0 →
      len ≠ 0 →
      prpFits c len false = true →
      Effects (.firmwareImageDownload c off len o) s (fun e =>
        e = ({ s.dev.hostActivity with boot := { s.dev.hostActivity.boot with download := s.dev.hostActivity.boot.download.filter (fun (p : Nat × Nat × Object) => decide (p.1 + p.2.1 ≤ off) || decide (off + len ≤ p.1)) ++ [(off, len, o)] } }).done c.id .success)) ∧
    (∀ (s : State) (c : NCmd) (fs ca : Nat) (k : Nat) (x : Dev) (i : FwImage), s.live →
      s.dev.admitsUp c true true false = true →
      ca ≤ 2 →
      ((match s.dev.hostActivity.boot.whole with
          | some (.stream _) => false
          | _ => true) = true ∨ ca = 2) →
      (¬(3 < fs ∨ (fs = 0 ∧ ca = 2))) →
      s.dev.hostActivity.commitSlot fs = (k, x) →
      x.commitImage k ca = some i →
      x.fwRefusal i = none →
      Effects (.firmwareCommit c fs ca) s (fun e =>
        e = (if ca = 0 then (x.storeFw k i).done c.id .success
          else ((x.storeFw k i).setDirectory (fun g => { g with fwNext := k })).done c.id .firmwareActivationRequiresNvmSubsystemReset))) ∧
    (∀ (s : State) (c : NCmd) (fs : Nat) (k : Nat) (x : Dev) (i : FwImage), s.live →
      s.dev.admitsUp c true true false = true →
      (match s.dev.hostActivity.boot.whole with
          | some (.stream _) => false
          | _ => true) = true →
      fs ≤ 3 →
      s.dev.hostActivity.commitSlot fs = (k, x) →
      x.commitImage k 3 = some i →
      x.fwRefusal i = none →
      Effects (.fwActivateNoReset c fs) s (fun e =>
        e = (x.storeFw k i).drainStart c k)) ∧
    (∀ (s : State) (c : NCmd) (ca : Nat) (x : Stream), s.live →
      s.dev.admitsUp c true true false = true →
      ca ≤ 1 →
      s.dev.hostActivity.boot.whole = some (.stream x) →
      s.dev.hostActivity.streamFail x = none →
      Effects (.streamCommit c 0 ca) s (fun e =>
        ∃ y : Dev, y = ({ s.dev.hostActivity with boot := { s.dev.hostActivity.boot with download := [] }, bootFlash := if s.dev.hostActivity.directory.strActive = 0 then { s.dev.hostActivity.bootFlash with strB := some x } else { s.dev.hostActivity.bootFlash with strA := some x } } : Dev) ∧
        e = (if ca = 1 then y.setDirectory (fun g => { g with strActive := 1 - min 1 s.dev.hostActivity.directory.strActive }) else y).done c.id .success)) ∧
    (∀ (s : State) (us : Nat) (a : ActDrain), s.live →
      s.dev.host.drain = some a →
      (¬(¬s.dev.drained a.id = true ∨ 1500000 < us)) →
      Effects (.fwActivationDrainDone us) s (fun e =>
        ∃ x y z : Dev, x = (s.dev.host.ctrls.map Prod.fst).foldl (fun (e : Dev) p => if bit (e.ctrl p).feat.asyncCfg 9 = true then e.asyncTo p ⟨2, 1, 0x03⟩ else e) (s.dev.drainShow us false) ∧
        y = (({ x with boot := { x.boot with firmware := AMap.find a.slot x.bootFlash.fw, fwRunning := a.slot } } : Dev).setDirectory (fun g => { g with fwActive := a.slot, fwNext := 0 })) ∧
        z = (if y.boot.svnDone = true then y.svnTo 0 (svnOfFw y.boot.firmware) else y) ∧
        e = (z.raise 0x1E8 noPlot []).done a.id .success)) ∧
    (∀ (s : State) (us : Nat) (a : ActDrain), s.live →
      s.dev.host.drain = some a →
      Effects (.fwActivationDrainTimeout us) s (fun e =>
        e = (((s.dev.drainShow us true).setDirectory (fun g => { g with fwNext := a.slot })).raise 0x1E9 noPlot []).done a.id .firmwareActivationRequiresMaxTimeViolation)) ∧
    (∀ (s : State) (c : NCmd) (secp spsp al : Nat), s.live →
      s.dev.admitsUp c false true false = true →
      prpFits c al true = true →
      secp = 0 →
      spsp = 0 →
      Effects (.securityReceive c secp spsp al) s (fun e =>
        e = (s.dev.hostActivity.send (.bytes c.id.plot ([0, 0, 0, 0, 0, 0, 0, 2, 0x00, 0xF0].take al))).done c.id .success)) ∧
    (∀ (s : State) (c : NCmd) (secp spsp al : Nat), s.live →
      s.dev.admitsUp c false true false = true →
      prpFits c al true = true →
      secp = 0xF0 →
      spsp = 1 →
      (s.dev.hostActivity.boot.msgs.find? (fun x => x.plot == c.id.plot) = none) →
      Effects (.securityReceive c secp spsp al) s (fun e =>
        e = (s.dev.hostActivity.send (.bytes c.id.plot ((halwReply 0 0 6 []).take al))).done c.id .success)) ∧
    (∀ (s : State) (c : NCmd) (secp spsp al : Nat) (m : HalwMsg), s.live →
      s.dev.admitsUp c false true false = true →
      prpFits c al true = true →
      secp = 0xF0 →
      spsp = 1 →
      (s.dev.hostActivity.boot.msgs.find? (fun x => x.plot == c.id.plot) = some m) →
      m.ready = false →
      Effects (.securityReceive c secp spsp al) s (fun e =>
        e = (s.dev.hostActivity.send (.bytes c.id.plot ((halwReply m.code m.reqId 1 []).take al))).done c.id .success)) ∧
    (∀ (s : State) (c : NCmd) (secp spsp al : Nat) (m : HalwMsg), s.live →
      s.dev.admitsUp c false true false = true →
      prpFits c al true = true →
      secp = 0xF0 →
      spsp = 1 →
      (s.dev.hostActivity.boot.msgs.find? (fun x => x.plot == c.id.plot) = some m) →
      m.ready = true →
      Effects (.securityReceive c secp spsp al) s (fun e =>
        ∃ x : Dev, x = (if (halwReply m.code m.reqId m.status m.payload).length ≤ al then { s.dev.hostActivity with boot := { s.dev.hostActivity.boot with msgs := s.dev.hostActivity.boot.msgs.filter (fun y => y.plot != c.id.plot) } } else s.dev.hostActivity) ∧
        e = (x.send (.bytes c.id.plot ((halwReply m.code m.reqId m.status m.payload).take al))).done c.id .success))

/-- An admitted I/O command within its namespace, with a good data pointer and capacity, whose map segments are loaded (R33): Flush completes at once; Write (its blocks as R68 makes them), Write Uncorrectable, Write Zeroes, the deallocate of Dataset Management and Copy of a namespace of this part commit their pieces to the write cache and complete with success, or are held while earlier writes or their own wait for room; of a cluster namespace they go through transactions; a Write whose protection information fails completes with that status, a Copy past its limits with Copy range size limit; a held write goes on when it may; Read, Compare and Verify start their read of exactly their blocks, their protection fields being right and their map entries on channels that serve. -/
def Obligations.IoCommandsComplete : Prop :=
    (∀ (s : State) (c : NCmd), s.live →
      c.nsid = 0xFFFFFFFF →
      s.dev.outstanding c.id = true →
      c.rsvd = false →
      s.dev.hostActivity.f F.TOP_MODE_MODE ≠ 0xA →
      s.dev.hostActivity.f F.TOP_MODE_MODE ≠ 1 →
      s.dev.hostActivity.f F.TOP_MODE_MODE ≠ 3 →
      Effects (.flush c) s (fun e =>
        e = s.dev.hostActivity.done c.id .success)) ∧
    (∀ (s : State) (c : NCmd) (n : Ns), s.live →
      c.nsid ≠ 0xFFFFFFFF →
      s.dev.admitsIo c false .write n = true →
      s.dev.hostActivity.mustWait n [] = false →
      Effects (.flush c) s (fun e =>
        e = s.dev.hostActivity.done c.id .success)) ∧
    (∀ (s : State) (c : NCmd) (slba : Nat) (data : List (Nat × Nat)) (pi : PiCmd) (bs : List (Nat × Nat)) (n : Ns) (y : Dev), s.live →
      data ≠ [] →
      s.dev.admitsIo c true .write n = true →
      s.dev.hostActivity.mustWait n [(slba, data.length)] = false →
      n.within [(slba, data.length)] = true →
      n.piIn pi slba data = .inl bs →
      dataFits c (n.moves pi.pract data.length) false = true →
      s.dev.hostActivity.overCap n (({ slba := slba, nlb := data.length, kind := .data bs } : WPiece).stores n) = false →
      (s.dev.hostActivity.countWrite c.id.plot n data.length).spent.contains n.nsid = false →
      n.cluster = none →
      (s.dev.hostActivity.countWrite c.id.plot n data.length).ftl.held = [] →
      Dev.commitPieces c.id.plot n ((s.dev.hostActivity.countWrite c.id.plot n data.length).cut n ({ slba := slba, nlb := data.length, kind := .data bs } : WPiece)) (s.dev.hostActivity.countWrite c.id.plot n data.length) = (y, []) →
      Effects (.write c slba data pi) s (fun e =>
        e = y.done c.id .success)) ∧
    (∀ (s : State) (c : NCmd) (slba : Nat) (data : List (Nat × Nat)) (pi : PiCmd) (bs : List (Nat × Nat)) (n : Ns), s.live →
      data ≠ [] →
      s.dev.admitsIo c true .write n = true →
      s.dev.hostActivity.mustWait n [(slba, data.length)] = false →
      n.within [(slba, data.length)] = true →
      n.piIn pi slba data = .inl bs →
      dataFits c (n.moves pi.pract data.length) false = true →
      s.dev.hostActivity.overCap n (({ slba := slba, nlb := data.length, kind := .data bs } : WPiece).stores n) = false →
      (s.dev.hostActivity.countWrite c.id.plot n data.length).spent.contains n.nsid = false →
      Effects (.write c slba data pi) s (fun e =>
        e = (match n.cluster with
          | some g => (s.dev.hostActivity.countWrite c.id.plot n data.length).clusterWrite c.id n g slba ((List.range data.length).map (fun i => if (({ slba := slba, nlb := data.length, kind := .data bs } : WPiece).block n i).2 = .good then (({ slba := slba, nlb := data.length, kind := .data bs } : WPiece).block n i).1 else markBlock (lbaBytes n.lbaf)))
          | none => (s.dev.hostActivity.countWrite c.id.plot n data.length).commitAll c.id n ((s.dev.hostActivity.countWrite c.id.plot n data.length).cut n ({ slba := slba, nlb := data.length, kind := .data bs } : WPiece)) false))) ∧
    (∀ (s : State) (c : NCmd) (slba : Nat) (data : List (Nat × Nat)) (pi : PiCmd) (st : Sc) (n : Ns), s.live →
      data ≠ [] →
      s.dev.admitsIo c true .write n = true →
      s.dev.hostActivity.mustWait n [(slba, data.length)] = false →
      n.within [(slba, data.length)] = true →
      n.piIn pi slba data = .inr st →
      dataFits c (n.moves pi.pract data.length) false = true →
      s.dev.hostActivity.overCap n (({ slba := slba, nlb := data.length, kind := .data data } : WPiece).stores n) = false →
      Effects (.write c slba data pi) s (fun e =>
        e = s.dev.hostActivity.done c.id st)) ∧
    (∀ (s : State) (c : NCmd) (slba nlb : Nat)  (n : Ns) (y : Dev), s.live →
      nlb ≠ 0 →
      s.dev.admitsIo c true .write n = true →
      s.dev.hostActivity.mustWait n [(slba, nlb)] = false →
      n.within [(slba, nlb)] = true →
      s.dev.hostActivity.overCap n (({ slba := slba, nlb := nlb, kind := .uncorrectable } : WPiece).stores n) = false →
      s.dev.hostActivity.spent.contains n.nsid = false →
      n.cluster = none →
      s.dev.hostActivity.ftl.held = [] →
      Dev.commitPieces c.id.plot n (s.dev.hostActivity.cut n ({ slba := slba, nlb := nlb, kind := .uncorrectable } : WPiece)) s.dev.hostActivity = (y, []) →
      Effects (.writeUncorrectable c slba nlb) s (fun e =>
        e = y.done c.id .success)) ∧
    (∀ (s : State) (c : NCmd) (slba nlb : Nat)  (n : Ns), s.live →
      nlb ≠ 0 →
      s.dev.admitsIo c true .write n = true →
      s.dev.hostActivity.mustWait n [(slba, nlb)] = false →
      n.within [(slba, nlb)] = true →
      s.dev.hostActivity.overCap n (({ slba := slba, nlb := nlb, kind := .uncorrectable } : WPiece).stores n) = false →
      s.dev.hostActivity.spent.contains n.nsid = false →
      Effects (.writeUncorrectable c slba nlb) s (fun e =>
        e = (match n.cluster with
          | some g => s.dev.hostActivity.clusterWrite c.id n g slba ((List.range nlb).map (fun i => if (({ slba := slba, nlb := nlb, kind := .uncorrectable } : WPiece).block n i).2 = .good then (({ slba := slba, nlb := nlb, kind := .uncorrectable } : WPiece).block n i).1 else markBlock (lbaBytes n.lbaf)))
          | none => s.dev.hostActivity.commitAll c.id n (s.dev.hostActivity.cut n ({ slba := slba, nlb := nlb, kind := .uncorrectable } : WPiece)) false))) ∧
    (∀ (s : State) (c : NCmd) (slba nlb : Nat) (deac : Bool)  (n : Ns) (y : Dev), s.live →
      nlb ≠ 0 →
      s.dev.admitsIo c true .write n = true →
      s.dev.hostActivity.mustWait n [(slba, nlb)] = false →
      n.within [(slba, nlb)] = true →
      s.dev.hostActivity.overCap n (({ slba := slba, nlb := nlb, kind := (if deac then .deallocate else .zeroes) } : WPiece).stores n) = false →
      s.dev.hostActivity.spent.contains n.nsid = false →
      n.cluster = none →
      s.dev.hostActivity.ftl.held = [] →
      Dev.commitPieces c.id.plot n (s.dev.hostActivity.cut n ({ slba := slba, nlb := nlb, kind := (if deac then .deallocate else .zeroes) } : WPiece)) s.dev.hostActivity = (y, []) →
      Effects (.writeZeroes c slba nlb deac) s (fun e =>
        e = y.done c.id .success)) ∧
    (∀ (s : State) (c : NCmd) (slba nlb : Nat) (deac : Bool)  (n : Ns), s.live →
      nlb ≠ 0 →
      s.dev.admitsIo c true .write n = true →
      s.dev.hostActivity.mustWait n [(slba, nlb)] = false →
      n.within [(slba, nlb)] = true →
      s.dev.hostActivity.overCap n (({ slba := slba, nlb := nlb, kind := (if deac then .deallocate else .zeroes) } : WPiece).stores n) = false →
      s.dev.hostActivity.spent.contains n.nsid = false →
      Effects (.writeZeroes c slba nlb deac) s (fun e =>
        e = (match n.cluster with
          | some g => s.dev.hostActivity.clusterWrite c.id n g slba ((List.range nlb).map (fun i => if (({ slba := slba, nlb := nlb, kind := (if deac then .deallocate else .zeroes) } : WPiece).block n i).2 = .good then (({ slba := slba, nlb := nlb, kind := (if deac then .deallocate else .zeroes) } : WPiece).block n i).1 else markBlock (lbaBytes n.lbaf)))
          | none => s.dev.hostActivity.commitAll c.id n (s.dev.hostActivity.cut n ({ slba := slba, nlb := nlb, kind := (if deac then .deallocate else .zeroes) } : WPiece)) false))) ∧
    (∀ (d : Dev) (id : CmdId) (n : Ns) (ps : List WPiece) (resumed : Bool) (y : Dev) (t : List WPiece),
      Dev.commitPieces id.plot n ps d = (y, t) → resumed = true ∨ d.ftl.held = [] →
      d.commitAll id n ps resumed = if t = [] then y.done id .success else y.hold { id := id, nsid := n.nsid, pieces := t } resumed) ∧
    (∀ (d : Dev) (id : CmdId) (n : Ns) (ps : List WPiece), d.ftl.held ≠ [] → d.commitAll id n ps false = d.hold { id := id, nsid := n.nsid, pieces := ps } false) ∧
    (∀ (s : State) (w : HeldWrite) (rest : List HeldWrite) (n : Ns), s.live →
      s.dev.ftl.held = w :: rest →
      ({ s.dev with ftl := { s.dev.ftl with held := rest } } : Dev).ns? w.nsid = some n →
      ({ s.dev with ftl := { s.dev.ftl with held := rest } } : Dev).flag F.TOP_MODE_CRO = false →
      (({ s.dev with ftl := { s.dev.ftl with held := rest } } : Dev).overCap n ((w.pieces.flatMap (fun x => x.stores n)).eraseDups) = false) →
      Effects (.writeTransferResume) s (fun e =>
        e = ({ s.dev with ftl := { s.dev.ftl with held := rest } } : Dev).commitAll w.id n w.pieces true)) ∧
    (∀ (s : State) (c : NCmd) (slba nlb : Nat) (pi : PiCmd) (n : Ns), s.live →
      nlb ≠ 0 →
      s.dev.admitsIo c false .read n = true →
      s.dev.hostActivity.mustWait n [(slba, nlb)] = false →
      n.within [(slba, nlb)] = true →
      dataFits c (n.moves pi.pract nlb) true = true →
      (n.pi = 0 ∨ piOk n.pi pi slba = true) →
      s.dev.hostActivity.mapHeld n slba nlb = false →
      Effects (.read c slba nlb pi) s (fun e =>
        e = s.dev.hostActivity.startRead c n slba nlb .toHost pi)) ∧
    (∀ (s : State) (c : NCmd) (slba nlb : Nat) (pi : PiCmd) (n : Ns), s.live →
      nlb ≠ 0 →
      s.dev.admitsIo c false .read n = true →
      s.dev.hostActivity.mustWait n [(slba, nlb)] = false →
      n.within [(slba, nlb)] = true →
      (n.pi = 0 ∨ piOk n.pi pi slba = true) →
      s.dev.hostActivity.mapHeld n slba nlb = false →
      Effects (.verify c slba nlb pi) s (fun e =>
        e = s.dev.hostActivity.startRead c n slba nlb .verifyOnly pi)) ∧
    (∀ (s : State) (c : NCmd) (slba : Nat) (data : List (Nat × Nat)) (pi : PiCmd) (n : Ns), s.live →
      data ≠ [] →
      s.dev.admitsIo c false .read n = true →
      s.dev.hostActivity.mustWait n [(slba, data.length)] = false →
      n.within [(slba, data.length)] = true →
      dataFits c (n.moves pi.pract data.length) false = true →
      (n.pi = 0 ∨ piOk n.pi pi slba = true) →
      s.dev.hostActivity.mapHeld n slba data.length = false →
      Effects (.compare c slba data pi) s (fun e =>
        e = s.dev.hostActivity.startRead c n slba data.length (.compareWith (data.map (fun b => b.1 % 2 ^ (8 * lbaBytes (((s.dev.ns? c.nsid).map (fun n => n.lbaf)).getD 0)) + (b.2 % 2 ^ (8 * lbaMeta (((s.dev.ns? c.nsid).map (fun n => n.lbaf)).getD 0))) * 2 ^ 32768))) pi)) ∧
    (∀ (s : State) (c : NCmd) (ad : Bool) (ranges : List (Nat × Nat)) (n : Ns), s.live →
      s.dev.admitsIo c ad .write n = true →
      (s.dev.hostActivity.mustWait n (ranges.filter (fun r => decide (0 < r.2))) = false) →
      (n.within (ranges.filter (fun r => decide (0 < r.2))) = true) →
      ((ad && s.dev.hostActivity.overCap n ((((ranges.filter (fun r => decide (0 < r.2))).map (fun r => ({ slba := r.1, nlb := r.2, kind := .deallocate } : WPiece))).flatMap (fun x => x.stores n)).eraseDups)) = false) →
      dataFits c (16 * ranges.length) false = true →
      (¬ad = true ∨ (ranges.filter (fun r => decide (0 < r.2))).isEmpty = true) →
      Effects (.datasetManagement c ad ranges) s (fun e =>
        e = s.dev.hostActivity.done c.id .success)) ∧
    (∀ (s : State) (c : NCmd) (ranges : List (Nat × Nat)) (n : Ns) (y : Dev), s.live →
      s.dev.admitsIo c true .write n = true →
      (s.dev.hostActivity.mustWait n (ranges.filter (fun r => decide (0 < r.2))) = false) →
      (n.within (ranges.filter (fun r => decide (0 < r.2))) = true) →
      ((true && s.dev.hostActivity.overCap n ((((ranges.filter (fun r => decide (0 < r.2))).map (fun r => ({ slba := r.1, nlb := r.2, kind := .deallocate } : WPiece))).flatMap (fun x => x.stores n)).eraseDups)) = false) →
      dataFits c (16 * ranges.length) false = true →
      ((ranges.filter (fun r => decide (0 < r.2))) ≠ []) →
      n.cluster = none →
      s.dev.hostActivity.ftl.held = [] →
      (Dev.commitPieces c.id.plot n (((ranges.filter (fun r => decide (0 < r.2))).map (fun r => ({ slba := r.1, nlb := r.2, kind := .deallocate } : WPiece))).flatMap (s.dev.hostActivity.cut n)) s.dev.hostActivity = (y, [])) →
      Effects (.datasetManagement c true ranges) s (fun e =>
        e = y.done c.id .success)) ∧
    (∀ (s : State) (c : NCmd) (ranges : List (Nat × Nat)) (n : Ns), s.live →
      s.dev.admitsIo c true .write n = true →
      (s.dev.hostActivity.mustWait n (ranges.filter (fun r => decide (0 < r.2))) = false) →
      (n.within (ranges.filter (fun r => decide (0 < r.2))) = true) →
      ((true && s.dev.hostActivity.overCap n ((((ranges.filter (fun r => decide (0 < r.2))).map (fun r => ({ slba := r.1, nlb := r.2, kind := .deallocate } : WPiece))).flatMap (fun x => x.stores n)).eraseDups)) = false) →
      dataFits c (16 * ranges.length) false = true →
      ((ranges.filter (fun r => decide (0 < r.2))) ≠ []) →
      Effects (.datasetManagement c true ranges) s (fun e =>
        e = (match n.cluster with
          | some g => s.dev.hostActivity.clusterRanges c.id n g (((ranges.filter (fun r => decide (0 < r.2))).map (fun r => ({ slba := r.1, nlb := r.2, kind := .deallocate } : WPiece))).map (fun y => (y.slba, List.replicate y.nlb 0)))
          | none => s.dev.hostActivity.commitAll c.id n (((ranges.filter (fun r => decide (0 < r.2))).map (fun r => ({ slba := r.1, nlb := r.2, kind := .deallocate } : WPiece))).flatMap (s.dev.hostActivity.cut n)) false))) ∧
    (∀ (s : State) (c : NCmd) (slba : Nat) (ranges : List (Nat × Nat)) (pr pw : PiCmd) (n : Ns) (bs : List (Nat × Nat × BlkMark)) (y : Dev), s.live →
      (ranges.map Prod.snd).sum ≠ 0 →
      (ranges.any (fun r => r.2 == 0) = false) →
      s.dev.admitsIo c true .write n = true →
      n.resv.bars c.id.plot .read = false →
      s.dev.hostActivity.mustWait n ranges = false →
      n.within ranges = true →
      (((ranges.flatMap (fun r => (List.range r.2).map (fun i => ((s.dev.hostActivity.iuBlocksNow n ((r.1 + i) / n.iuBlocks))[(r.1 + i) % n.iuBlocks]?).getD (0, .poisoned)))).zipIdx.map (fun b => n.copyBlock pr pw b.2 b.1)).filterMap Sum.getLeft? = bs) →
      s.dev.hostActivity.mustWait n [(slba, (ranges.map Prod.snd).sum)] = false →
      n.within [(slba, (ranges.map Prod.snd).sum)] = true →
      s.dev.hostActivity.overCap n (({ slba := slba, nlb := (ranges.map Prod.snd).sum, kind := .copied bs } : WPiece).stores n) = false →
      dataFits c (32 * ranges.length) false = true →
      ((decide (128 < ranges.length) || ranges.any (fun r => decide (4096 < r.2)) || decide (16384 < (ranges.map Prod.snd).sum)) = false) →
      (ranges.any (fun r => s.dev.hostActivity.mapHeld n r.1 r.2) = false) →
      s.dev.hostActivity.spent.contains n.nsid = false →
      n.cluster = none →
      (((ranges.flatMap (fun r => (List.range r.2).map (fun i => ((s.dev.hostActivity.iuBlocksNow n ((r.1 + i) / n.iuBlocks))[(r.1 + i) % n.iuBlocks]?).getD (0, .poisoned)))).zipIdx.map (fun b => n.copyBlock pr pw b.2 b.1)).filterMap Sum.getRight? = []) →
      s.dev.hostActivity.ftl.held = [] →
      Dev.commitPieces c.id.plot n (s.dev.hostActivity.cut n ({ slba := slba, nlb := (ranges.map Prod.snd).sum, kind := .copied bs } : WPiece)) s.dev.hostActivity = (y, []) →
      Effects (.copy c slba 0 ranges pr pw) s (fun e =>
        e = y.done c.id .success)) ∧
    (∀ (s : State) (c : NCmd) (slba : Nat) (ranges : List (Nat × Nat)) (pr pw : PiCmd) (n : Ns) (bs : List (Nat × Nat × BlkMark)) (g : ClusterGeom), s.live →
      (ranges.map Prod.snd).sum ≠ 0 →
      (ranges.any (fun r => r.2 == 0) = false) →
      s.dev.admitsIo c true .write n = true →
      n.resv.bars c.id.plot .read = false →
      s.dev.hostActivity.mustWait n ranges = false →
      n.within ranges = true →
      (((ranges.flatMap (fun r => (List.range r.2).map (fun i => ((s.dev.hostActivity.iuBlocksNow n ((r.1 + i) / n.iuBlocks))[(r.1 + i) % n.iuBlocks]?).getD (0, .poisoned)))).zipIdx.map (fun b => n.copyBlock pr pw b.2 b.1)).filterMap Sum.getLeft? = bs) →
      s.dev.hostActivity.mustWait n [(slba, (ranges.map Prod.snd).sum)] = false →
      n.within [(slba, (ranges.map Prod.snd).sum)] = true →
      s.dev.hostActivity.overCap n (({ slba := slba, nlb := (ranges.map Prod.snd).sum, kind := .copied bs } : WPiece).stores n) = false →
      dataFits c (32 * ranges.length) false = true →
      ((decide (128 < ranges.length) || ranges.any (fun r => decide (4096 < r.2)) || decide (16384 < (ranges.map Prod.snd).sum)) = false) →
      (ranges.any (fun r => s.dev.hostActivity.mapHeld n r.1 r.2) = false) →
      s.dev.hostActivity.spent.contains n.nsid = false →
      n.cluster = some g →
      Effects (.copy c slba 0 ranges pr pw) s (fun e =>
        e = s.dev.hostActivity.clusterCopy c.id n g slba ranges)) ∧
    (∀ (s : State) (c : NCmd) (slba : Nat) (ranges : List (Nat × Nat)) (pr pw : PiCmd) (n : Ns) (bs : List (Nat × Nat × BlkMark)), s.live →
      (ranges.map Prod.snd).sum ≠ 0 →
      (ranges.any (fun r => r.2 == 0) = false) →
      s.dev.admitsIo c true .write n = true →
      n.resv.bars c.id.plot .read = false →
      s.dev.hostActivity.mustWait n ranges = false →
      n.within ranges = true →
      (((ranges.flatMap (fun r => (List.range r.2).map (fun i => ((s.dev.hostActivity.iuBlocksNow n ((r.1 + i) / n.iuBlocks))[(r.1 + i) % n.iuBlocks]?).getD (0, .poisoned)))).zipIdx.map (fun b => n.copyBlock pr pw b.2 b.1)).filterMap Sum.getLeft? = bs) →
      s.dev.hostActivity.mustWait n [(slba, (ranges.map Prod.snd).sum)] = false →
      n.within [(slba, (ranges.map Prod.snd).sum)] = true →
      s.dev.hostActivity.overCap n (({ slba := slba, nlb := (ranges.map Prod.snd).sum, kind := .copied bs } : WPiece).stores n) = false →
      dataFits c (32 * ranges.length) false = true →
      (128 < ranges.length ∨ ranges.any (fun r => decide (4096 < r.2)) = true ∨ 16384 < (ranges.map Prod.snd).sum) →
      Effects (.copy c slba 0 ranges pr pw) s (fun e =>
        e = s.dev.hostActivity.done c.id .copyRangeSizeLimit))

/-- An admitted reservation command of a controller with the right key and data pointer completes with its change: a new key is registered, a key unregistered or replaced, with the generation moved and PTPL set as asked; the reservation is acquired where none is held, preempted (with the commands of the preempted aborted for that action), released by its holder with the notices, or cleared with every registrant; the report sends the status structure. The rules are those of NVMe 2.1 as assumption 56 has them. -/
def Obligations.ReservationsComplete : Prop :=
    (∀ (s : State) (c : NCmd) (iekey : Bool) (cptpl crkey nrkey : Nat) (n : Ns), s.live →
      s.dev.admitsIo c false .none n = true →
      dataFits c 16 false = true →
      AMap.find c.id.plot n.resv.regs = none →
      Effects (.reservationRegister c 0 iekey cptpl crkey nrkey) s (fun e =>
        e = s.dev.hostActivity.setResv c n { n.resv with gen := (n.resv.gen + 1) % 2 ^ 32, ptpl := (if cptpl = 2 then false else if cptpl = 3 then true else n.resv.ptpl), regs := AMap.put c.id.plot nrkey n.resv.regs })) ∧
    (∀ (s : State) (c : NCmd) (iekey : Bool) (cptpl crkey nrkey : Nat) (n : Ns), s.live →
      s.dev.admitsIo c false .none n = true →
      dataFits c 16 false = true →
      AMap.find c.id.plot n.resv.regs = some nrkey →
      Effects (.reservationRegister c 0 iekey cptpl crkey nrkey) s (fun e =>
        e = s.dev.hostActivity.done c.id .success)) ∧
    (∀ (s : State) (c : NCmd) (iekey : Bool) (cptpl crkey nrkey : Nat) (k : Nat) (n : Ns), s.live →
      s.dev.admitsIo c false .none n = true →
      dataFits c 16 false = true →
      AMap.find c.id.plot n.resv.regs = some k →
      (k = crkey ∨ iekey = true) →
      Effects (.reservationRegister c 1 iekey cptpl crkey nrkey) s (fun e =>
        ∃ r : Resv, r = ({ n.resv with gen := (n.resv.gen + 1) % 2 ^ 32, ptpl := (if cptpl = 2 then false else if cptpl = 3 then true else n.resv.ptpl) } : Resv).drop [c.id.plot] ∧
        e = (s.dev.hostActivity.resvTell c.nsid 2 (if n.resv.rtype ≠ 0 ∧ r.rtype = 0 ∧ 3 ≤ n.resv.rtype then r.regs.map Prod.fst else [])).setResv c n r)) ∧
    (∀ (s : State) (c : NCmd) (iekey : Bool) (cptpl crkey nrkey : Nat) (o : Option Nat) (n : Ns), s.live →
      s.dev.admitsIo c false .none n = true →
      dataFits c 16 false = true →
      o = AMap.find c.id.plot n.resv.regs →
      (iekey = true ∨ o = some crkey) →
      Effects (.reservationRegister c 2 iekey cptpl crkey nrkey) s (fun e =>
        e = s.dev.hostActivity.setResv c n { n.resv with gen := (n.resv.gen + 1) % 2 ^ 32, ptpl := (if cptpl = 2 then false else if cptpl = 3 then true else n.resv.ptpl), regs := AMap.put c.id.plot nrkey n.resv.regs })) ∧
    (∀ (s : State) (c : NCmd) (len : Nat) (n : Ns), s.live →
      s.dev.admitsIo c false .none n = true →
      dataFits c len true = true →
      Effects (.reservationReport c len) s (fun e =>
        e = (s.dev.hostActivity.send (.bytes c.id.plot (n.resv.status.take len))).done c.id .success)) ∧
    (∀ (s : State) (c : NCmd) (rtype crkey prkey : Nat) (n : Ns), s.live →
      s.dev.admitsIo c false .none n = true →
      dataFits c 16 false = true →
      ¬(rtype < 1) →
      ¬(6 < rtype) →
      AMap.find c.id.plot n.resv.regs = some crkey →
      n.resv.rtype = 0 →
      Effects (.reservationAcquire c 0 rtype false crkey prkey) s (fun e =>
        e = s.dev.hostActivity.setResv c n { n.resv with holder := some c.id.plot, rtype := rtype })) ∧
    (∀ (s : State) (c : NCmd) (rtype crkey prkey : Nat) (n : Ns), s.live →
      s.dev.admitsIo c false .none n = true →
      dataFits c 16 false = true →
      ¬(rtype < 1) →
      ¬(6 < rtype) →
      AMap.find c.id.plot n.resv.regs = some crkey →
      n.resv.rtype ≠ 0 →
      Effects (.reservationAcquire c 0 rtype false crkey prkey) s (fun e =>
        e = (if n.resv.holds c.id.plot = true ∧ n.resv.rtype = rtype then s.dev.hostActivity.done c.id .success else s.dev.hostActivity.done c.id .reservationConflict))) ∧
    (∀ (s : State) (c : NCmd) (racqa rtype : Nat) (iekey : Bool) (crkey prkey : Nat) (takes : Bool) (victims : List Nat) (n : Ns), s.live →
      s.dev.admitsIo c false .none n = true →
      dataFits c 16 false = true →
      iekey = false →
      (racqa = 1 ∨ racqa = 2) →
      ¬(rtype < 1) →
      ¬(6 < rtype) →
      AMap.find c.id.plot n.resv.regs = some crkey →
      (takes = (n.resv.rtype != 0 && ((n.resv.shared && prkey == 0) || (!n.resv.shared && (n.resv.holder.bind (fun h => AMap.find h n.resv.regs)) == some prkey)))) →
      ¬(prkey = 0 ∧ ¬takes = true) →
      (victims = (n.resv.regs.filter (fun x => x.1 != c.id.plot && (x.2 == prkey || (takes && n.resv.shared)))).map Prod.fst) →
      ¬(victims.isEmpty = true ∧ ¬takes = true) →
      Effects (.reservationAcquire c racqa rtype iekey crkey prkey) s (fun e =>
        ∃ (r : Resv) (x y : Dev), r = { n.resv.drop victims with gen := (n.resv.gen + 1) % 2 ^ 32, holder := if takes = true then some c.id.plot else (n.resv.drop victims).holder, rtype := if takes = true then rtype else (n.resv.drop victims).rtype } ∧
        x = s.dev.hostActivity.resvTell c.nsid 1 victims ∧
        y = (if takes = true ∧ n.resv.rtype ≠ rtype then x.resvTell c.nsid 2 ((r.regs.filter (fun z => z.1 != c.id.plot)).map Prod.fst) else x) ∧
        e = (if racqa = 2 then y.resvAbort c.nsid victims else y).setResv c n r)) ∧
    (∀ (s : State) (c : NCmd) (rtype crkey : Nat) (n : Ns), s.live →
      s.dev.admitsIo c false .none n = true →
      dataFits c 8 false = true →
      AMap.find c.id.plot n.resv.regs = some crkey →
      n.resv.holds c.id.plot = true →
      n.resv.rtype = rtype →
      Effects (.reservationRelease c 0 rtype false crkey) s (fun e =>
        e = (if 3 ≤ rtype then s.dev.hostActivity.resvTell c.nsid 2 ((n.resv.regs.filter (fun x => x.1 != c.id.plot)).map Prod.fst) else s.dev.hostActivity).setResv c n { n.resv with holder := none, rtype := 0 })) ∧
    (∀ (s : State) (c : NCmd) (rtype crkey : Nat) (n : Ns), s.live →
      s.dev.admitsIo c false .none n = true →
      dataFits c 8 false = true →
      AMap.find c.id.plot n.resv.regs = some crkey →
      n.resv.holds c.id.plot = false →
      Effects (.reservationRelease c 0 rtype false crkey) s (fun e =>
        e = s.dev.hostActivity.done c.id .success)) ∧
    (∀ (s : State) (c : NCmd) (rtype crkey : Nat) (n : Ns), s.live →
      s.dev.admitsIo c false .none n = true →
      dataFits c 8 false = true →
      AMap.find c.id.plot n.resv.regs = some crkey →
      Effects (.reservationRelease c 1 rtype false crkey) s (fun e =>
        e = (s.dev.hostActivity.resvTell c.nsid 3 ((n.resv.regs.filter (fun x => x.1 != c.id.plot)).map Prod.fst)).setResv c n { n.resv with regs := [], holder := none, rtype := 0, gen := (n.resv.gen + 1) % 2 ^ 32 }))

/-- An admitted command of the two sets with operands in range and a right data pointer: Execute Program, its memory range set holding the ranges it names, starts a fixed program or an active loaded one; Load Program keeps a piece, stores a program or Sieve image whose last piece has come and whose checks pass, or frees the index; Program Activation makes it active or inactive; a range set is created under a number that was free, or deleted; Memory Read, Write, Copy and Fill act on exactly their bytes of the plot's subsystem-local memory, on channels that serve, a read of poisoned bytes with Unrecovered Read Error. -/
def Obligations.ComputeCommandsComplete : Prop :=
    (∀ (s : State) (c : NCmd) (index set : Nat) (param : List Byte), s.live →
      s.dev.admitsCompute c computeNsid = true →
      dataFits c param.length false = true →
      ((match s.dev.hostActivity.trel.sets.find? (fun z => z.plot == c.id.plot && z.id == set) with
            | some z => set == 0 || (decide (z.gen = s.dev.hostActivity.plotGen c.id.plot) && (paramRanges param).all (fun r => r.2 == 0 || z.holds r))
            | none => set == 0) = true) →
      1 ≤ index ∧ index ≤ 8 →
      s.dev.hostActivity.prog? c.id.plot index = none →
      (¬(index = 2 ∧ ((s.dev.hostActivity.image? c.id.plot (field param 1024 4)).map (fun m => m.gen != s.dev.hostActivity.plotGen c.id.plot)).getD false = true)) →
      Effects (.executeProgram c index set param) s (fun e =>
        e = s.dev.hostActivity.runFixed c index param)) ∧
    (∀ (s : State) (c : NCmd) (index set : Nat) (param : List Byte) (x : LoadedProg), s.live →
      s.dev.admitsCompute c computeNsid = true →
      dataFits c param.length false = true →
      ((match s.dev.hostActivity.trel.sets.find? (fun z => z.plot == c.id.plot && z.id == set) with
            | some z => set == 0 || (decide (z.gen = s.dev.hostActivity.plotGen c.id.plot) && (launchOf param).ranges.all (fun r => r.2 == 0 || z.holds r))
            | none => set == 0) = true) →
      8 < index →
      s.dev.hostActivity.prog? c.id.plot index = some x →
      x.gen = s.dev.hostActivity.plotGen c.id.plot →
      x.active = true →
      s.dev.hostActivity.f (F.PLOT_FCORE_CAP c.id.plot) ≠ 0 →
      Effects (.executeProgram c index set param) s (fun e =>
        e = s.dev.hostActivity.runProg c x param)) ∧
    (∀ (s : State) (c : NCmd) (index ptype size off : Nat) (image img : List Byte) (pats : List Rx) (bodyOk sigOk : Bool) (y : Dev), s.live →
      s.dev.admitsCompute c computeNsid = true →
      dataFits c image.length false = true →
      (ptype = 0xE0 ∨ ptype = 0xE1) →
      s.dev.hostActivity.loadPiece c.id.plot index ptype size off image = some (img, y) →
      img.length ≠ size →
      Effects (.loadProgram c index false ptype size off image pats bodyOk sigOk) s (fun e =>
        e = y.done c.id .success)) ∧
    (∀ (s : State) (c : NCmd) (index size off : Nat) (image img : List Byte) (pats : List Rx) (bodyOk sigOk : Bool) (y : Dev), s.live →
      s.dev.admitsCompute c computeNsid = true →
      dataFits c image.length false = true →
      True →
      s.dev.hostActivity.loadPiece c.id.plot index 0xE0 size off image = some (img, y) →
      img.length = size →
      y.indexGen c.id.plot index = none →
      y.imgCheck c.id.plot index img sigOk = none →
      Effects (.loadProgram c index false 0xE0 size off image pats bodyOk sigOk) s (fun e =>
        e = (y.setProg { index := index, plot := c.id.plot, gen := y.plotGen c.id.plot, image := img, active := false }).done c.id .success)) ∧
    (∀ (s : State) (c : NCmd) (index size off : Nat) (image img : List Byte) (pats : List Rx) (bodyOk sigOk : Bool) (y : Dev), s.live →
      s.dev.admitsCompute c computeNsid = true →
      dataFits c image.length false = true →
      True →
      s.dev.hostActivity.loadPiece c.id.plot index 0xE1 size off image = some (img, y) →
      img.length = size →
      y.indexGen c.id.plot index = none →
      y.sieveCheck c.id.plot index img pats bodyOk = none →
      Effects (.loadProgram c index false 0xE1 size off image pats bodyOk sigOk) s (fun e =>
        e = ({ y with trel := { y.trel with images := y.trel.images ++ [{ index := index, plot := c.id.plot, gen := y.plotGen c.id.plot, pats := pats, dtiles := field img 12 4, nbytes := field img 16 4, image := img, active := false }] } } : Dev).done c.id .success)) ∧
    (∀ (s : State) (c : NCmd) (index ptype size off : Nat) (image : List Byte) (pats : List Rx) (bodyOk sigOk : Bool), s.live →
      s.dev.admitsCompute c computeNsid = true →
      s.dev.hostActivity.indexGen c.id.plot index = some (s.dev.hostActivity.plotGen c.id.plot) →
      Effects (.loadProgram c index true ptype size off image pats bodyOk sigOk) s (fun e =>
        e = (s.dev.hostActivity.freeIndex c.id.plot index).done c.id .success)) ∧
    (∀ (s : State) (c : NCmd) (index : Nat) (activate : Bool) (x : LoadedProg), s.live →
      s.dev.admitsCompute c computeNsid = true →
      s.dev.hostActivity.prog? c.id.plot index = some x →
      x.gen = s.dev.hostActivity.plotGen c.id.plot →
      ¬(activate = true ∧ s.dev.hostActivity.f (F.PLOT_FCORE_CAP c.id.plot) = 0) →
      (¬(¬activate = true ∧ s.dev.hostActivity.core.insts.any (fun i => i.plot == c.id.plot && i.index == index && i.ended.isNone) = true)) →
      Effects (.programActivationManagement c index activate) s (fun e =>
        e = (s.dev.hostActivity.setProg { x with active := activate }).done c.id .success)) ∧
    (∀ (s : State) (c : NCmd) (index : Nat) (activate : Bool) (m : Image), s.live →
      s.dev.admitsCompute c computeNsid = true →
      s.dev.hostActivity.prog? c.id.plot index = none →
      s.dev.hostActivity.image? c.id.plot index = some m →
      m.gen = s.dev.hostActivity.plotGen c.id.plot →
      (m.active = false → activate = true → s.dev.hostActivity.imgRoom = true) →
      Effects (.programActivationManagement c index activate) s (fun e =>
        e = (if m.active = activate then s.dev.hostActivity.done c.id .success else if activate = true then (s.dev.hostActivity.imgActivate m).done c.id .success else (s.dev.hostActivity.imgDeactivate m).done c.id .success))) ∧
    (∀ (s : State) (c : NCmd) (id : Nat) (ranges : List (Nat × Nat × Nat)) (free : List Nat), s.live →
      s.dev.admitsCompute c computeNsid = true →
      dataFits c (32 * ranges.length) false = true →
      ranges ≠ [] →
      (ranges.any (fun r => r.1 != memoryNsid c.id.plot || decide (s.dev.hostActivity.slmBytes c.id.plot < r.2.1 + r.2.2) || r.2.2 == 0) = false) →
      free = s.dev.hostActivity.freeSetIds c.id.plot →
      free ≠ [] →
      Effects (.memoryRangeSetManagement c true id ranges) s (fun e =>
        ∃ k : Nat, k ∈ free ∧ e = ({ s.dev.hostActivity.draw.2 with trel := { s.dev.hostActivity.draw.2.trel with sets := s.dev.hostActivity.draw.2.trel.sets ++ [{ id := k, plot := c.id.plot, gen := s.dev.hostActivity.plotGen c.id.plot, ranges := ranges.map (fun t => (t.2.1, t.2.2)) }] } } : Dev).complete c.id .success k 0)) ∧
    (∀ (s : State) (c : NCmd) (id : Nat) (ranges : List (Nat × Nat × Nat)) (x : RangeSet), s.live →
      s.dev.admitsCompute c computeNsid = true →
      (s.dev.hostActivity.trel.sets.find? (fun z => z.plot == c.id.plot && z.id == id) = some x) →
      x.gen = s.dev.hostActivity.plotGen c.id.plot →
      Effects (.memoryRangeSetManagement c false id ranges) s (fun e =>
        e = ({ s.dev.hostActivity with trel := { s.dev.hostActivity.trel with sets := s.dev.hostActivity.trel.sets.filter (fun z => !(z.plot == c.id.plot && z.id == id)) } } : Dev).done c.id .success)) ∧
    (∀ (s : State) (c : NCmd) (offset bytes : Nat), s.live →
      s.dev.admitsCompute c (memoryNsid c.id.plot) = true →
      ¬(s.dev.hostActivity.slmBytes c.id.plot < offset + bytes) →
      s.dev.hostActivity.chanHeld offset bytes = false →
      dataFits c bytes true = true →
      Effects (.memoryRead c offset bytes) s (fun e =>
        e = (if (s.dev.hostActivity.slm c.id.plot).poisonedRange offset bytes = true then s.dev.hostActivity.done c.id .unrecoveredReadError else (s.dev.hostActivity.send (.bytes c.id.plot (((s.dev.hostActivity.slm c.id.plot).bytes offset bytes).map BitVec.toNat))).done c.id .success))) ∧
    (∀ (s : State) (c : NCmd) (offset : Nat) (data : List Byte), s.live →
      s.dev.admitsCompute c (memoryNsid c.id.plot) = true →
      ¬(s.dev.hostActivity.slmBytes c.id.plot < offset + data.length) →
      s.dev.hostActivity.chanHeld offset data.length = false →
      dataFits c data.length false = true →
      Effects (.memoryWrite c offset data) s (fun e =>
        e = (s.dev.hostActivity.setSlm c.id.plot ((s.dev.hostActivity.slm c.id.plot).store offset data [])).done c.id .success)) ∧
    (∀ (s : State) (c : NCmd) (offset bytes value : Nat), s.live →
      s.dev.admitsCompute c (memoryNsid c.id.plot) = true →
      ¬(s.dev.hostActivity.slmBytes c.id.plot < offset + bytes) →
      s.dev.hostActivity.chanHeld offset bytes = false →
      Effects (.memoryFill c offset bytes value) s (fun e =>
        e = (s.dev.hostActivity.setSlm c.id.plot ((s.dev.hostActivity.slm c.id.plot).store offset (List.replicate bytes (BitVec.ofNat 8 value)) [])).done c.id .success)) ∧
    (∀ (s : State) (c : NCmd) (dest : Nat) (sources : List (Nat × Nat × Nat)), s.live →
      s.dev.admitsCompute c (memoryNsid c.id.plot) = true →
      (sources.any (fun r => r.1 != memoryNsid c.id.plot) = false) →
      (((dest, (sources.map (fun r => r.2.2)).sum) :: sources.map Prod.snd).any (fun r => decide (s.dev.hostActivity.slmBytes c.id.plot < r.1 + r.2)) = false) →
      (((dest, (sources.map (fun r => r.2.2)).sum) :: sources.map Prod.snd).any (fun r => s.dev.hostActivity.chanHeld r.1 r.2) = false) →
      dataFits c (32 * sources.length) false = true →
      (sources.any (fun r => decide (r.2.1 < dest + (sources.map (fun r => r.2.2)).sum ∧ dest < r.2.1 + r.2.2)) = false) →
      Effects (.memoryCopy c dest sources) s (fun e =>
        e = (s.dev.hostActivity.setSlm c.id.plot ((sources.map (fun r => ((s.dev.hostActivity.slm c.id.plot).bytes r.2.1 r.2.2, (s.dev.hostActivity.slm c.id.plot).marks r.2.1 r.2.2))).foldl (fun (a : Nat × Mem) (y : List Byte × List Nat) => (a.1 + y.1.length, a.2.store a.1 y.1 y.2)) (dest, (s.dev.hostActivity.slm c.id.plot))).2).done c.id .success))

/-- A plot below MAXPLOTS whose totals fit is enabled with a fresh mailbox and its controller is ready if it may be; disabling asks for its removal; PLOT_RST and the reset point bring it to the next generation, and the end of the SLM fill makes it active again, or removes it. A share write in range that carries no total over its limit takes effect with the sums shown; grown SLM counts when filled. Through an open window an accepted SEQ write posts with its event and one that is not accepted is rejected with 0x1F3, an ACK write in range moves the pointer, an INC write resets the other side with its event, and a free slot takes a word. -/
def Obligations.PlotsComplete : Prop :=
    (∀ (s : State) (n : Nat), s.live →
      n ≠ 0 →
      n < 512 →
      s.dev.plotEn n = false →
      ¬(s.dev.f F.PLOT_SUMIO_MAXPLOTS ≤ n) →
      s.dev.removing n = false →
      s.dev.totalsRise (s.dev.setF (F.PLOT_CTL_EN n) 1) = false →
      Effects (.plotEnable n) s (fun e =>
        ∃ x y : Dev, x = s.dev.setF (F.PLOT_CTL_EN n) 1 ∧ y = (if x.f (F.PLOT_STAT_STATE n) = 0 then x.setF (F.PLOT_STAT_STATE n) 1 else x) ∧
        e = (((y.setMbx n Mbx.init).plotSums).readyAll).powerCombine)) ∧
    (∀ (s : State) (n : Nat), s.live →
      n ≠ 0 →
      n < 512 →
      s.dev.plotEn n = true →
      Effects (.plotDisable n) s (fun e =>
        ∃ x : Dev, x = (((s.dev.setF (F.PLOT_CTL_EN n) 0).plotSums).setCtrl n { ((s.dev.setF (F.PLOT_CTL_EN n) 0).plotSums).ctrl n with rdy := false }).powerCombine ∧ e = (if x.f (F.PLOT_STAT_STATE n) = 2 then x.setF (F.PLOT_STAT_STATE n) 3 else x.askReset n))) ∧
    (∀ (s : State) (pf n : Nat), s.live →
      (pf = 0 ∨ (pf = 1 ∧ s.dev.flag F.HIF_PORTCFG_DUAL = true)) →
      Effects (.vfEnableClear pf n) s (fun e =>
        e = s.dev.setVfs pf n)) ∧
    (∀ (s : State) (n : Nat), s.live →
      n ≠ 0 →
      n < 512 →
      s.dev.plotEn n = true →
      s.dev.flag (F.PLOT_CTL_RST n) = false →
      Effects (.plotRst n) s (fun e =>
        e = (s.dev.setF (F.PLOT_CTL_RST n) 1).askReset n)) ∧
    (∀ (s : State) (n : Nat) (held : List Nat), s.live →
      s.dev.f (F.PLOT_STAT_STATE n) < 2 →
      (s.dev.flag (F.PLOT_CTL_RST n) = true ∨ s.dev.removing n = true) →
      s.dev.genHeld n = false →
      n < 512 →
      Effects (.plotResetPoint n held) s (fun e =>
        e = s.dev.resetPoint n held)) ∧
    (∀ (s : State) (n : Nat), s.live →
      n < 512 →
      s.dev.f (F.PLOT_STAT_STATE n) = 2 →
      Effects (.plotSlmFillDone n) s (fun e =>
        e = ((((((s.dev.slmFill n).clearCtrl n).raise 0x1E7 n []).powerCombine.setF (F.PLOT_CTL_RST n) 0).setF (F.PLOT_STAT_CQSTALL n) 0).setF (F.PLOT_STAT_STATE n) (Bool.nat ((((((s.dev.slmFill n).clearCtrl n).raise 0x1E7 n []).powerCombine.setF (F.PLOT_CTL_RST n) 0).setF (F.PLOT_STAT_CQSTALL n) 0).plotEn n))).raise 0x1F5 n [])) ∧
    (∀ (s : State) (n : Nat), s.live →
      n < 512 →
      2 < s.dev.f (F.PLOT_STAT_STATE n) →
      Effects (.plotSlmFillDone n) s (fun e =>
        e = ((((((s.dev.slmFill n).clearCtrl n).raise 0x1E7 n []).powerCombine.setF (F.PLOT_CTL_RST n) 0).setF (F.PLOT_STAT_CQSTALL n) 0).raise 0x1F5 n []).plotRemoved n)) ∧
    (∀ (s : State) (n v : Nat), s.live →
      n < 512 →
      Effects (.plotShareWrite n 0x00 v) s (fun e =>
        e = s.dev.setF (F.PLOT_CTL_PSALLOW n) (bits v 2 1))) ∧
    (∀ (s : State) (n v : Nat), s.live →
      n < 512 →
      (bits v 12 13 = s.dev.f (F.PLOT_QV_VMAX n) ∨ s.dev.plotEn n = false) →
      bits v 0 9 ≤ 256 →
      1 ≤ bits v 12 13 →
      bits v 12 13 ≤ vecMax n →
      s.dev.totalsRise ((s.dev.setF (F.PLOT_QV_QMAX n) (bits v 0 9)).setF (F.PLOT_QV_VMAX n) (bits v 12 13)) = false →
      Effects (.plotShareWrite n 0x08 v) s (fun e =>
        e = ((s.dev.setF (F.PLOT_QV_QMAX n) (bits v 0 9)).setF (F.PLOT_QV_VMAX n) (bits v 12 13)).plotSums)) ∧
    (∀ (s : State) (n v : Nat), s.live →
      n < 512 →
      1 ≤ bits v 0 8 →
      bits v 8 17 ≤ 65536 →
      (n ≠ 0 ∨ 64 ≤ bits v 8 17) →
      s.dev.totalsRise ((s.dev.setF (F.PLOT_FETCH_WEIGHT n) (bits v 0 8)).setF (F.PLOT_FETCH_OSHARE n) (bits v 8 17)) = false →
      Effects (.plotShareWrite n 0x0C v) s (fun e =>
        e = ((s.dev.setF (F.PLOT_FETCH_WEIGHT n) (bits v 0 8)).setF (F.PLOT_FETCH_OSHARE n) (bits v 8 17)).plotSums)) ∧
    (∀ (s : State) (n v : Nat), s.live →
      n < 512 →
      s.dev.totalsRise (s.dev.slmSize n (bits v 0 16)) = false →
      Effects (.plotShareWrite n 0x10 v) s (fun e =>
        e = (s.dev.slmSize n (bits v 0 16)).plotSums)) ∧
    (∀ (s : State) (n v : Nat), s.live →
      n < 512 →
      1 ≤ bits v 0 8 →
      bits v 8 5 ≤ 24 →
      s.dev.totalsRise ((s.dev.setF (F.PLOT_FCORE_WEIGHT n) (bits v 0 8)).setF (F.PLOT_FCORE_CAP n) (bits v 8 5)) = false →
      Effects (.plotShareWrite n 0x14 v) s (fun e =>
        e = ((s.dev.setF (F.PLOT_FCORE_WEIGHT n) (bits v 0 8)).setF (F.PLOT_FCORE_CAP n) (bits v 8 5)).plotSums)) ∧
    (∀ (s : State) (n v : Nat), s.live →
      n < 512 →
      Effects (.plotShareWrite n 0x18 v) s (fun e =>
        e = (((s.dev.setF (F.PLOT_EWT_CIPH n) (bits v 0 8)).setF (F.PLOT_EWT_DGST n) (bits v 8 8)).setF (F.PLOT_EWT_CHURN n) (bits v 16 8)).setF (F.PLOT_EWT_SIEVE n) (bits v 24 8))) ∧
    (∀ (s : State) (n v : Nat), s.live →
      n < 512 →
      bits v 0 7 ≤ 64 →
      bits v 8 7 ≤ 64 →
      bits v 16 7 ≤ 64 →
      bits v 24 7 ≤ 64 →
      s.dev.totalsRise ((((s.dev.setF (F.PLOT_ECAP_CIPH n) (bits v 0 7)).setF (F.PLOT_ECAP_DGST n) (bits v 8 7)).setF (F.PLOT_ECAP_CHURN n) (bits v 16 7)).setF (F.PLOT_ECAP_SIEVE n) (bits v 24 7)) = false →
      Effects (.plotShareWrite n 0x1C v) s (fun e =>
        e = ((((s.dev.setF (F.PLOT_ECAP_CIPH n) (bits v 0 7)).setF (F.PLOT_ECAP_DGST n) (bits v 8 7)).setF (F.PLOT_ECAP_CHURN n) (bits v 16 7)).setF (F.PLOT_ECAP_SIEVE n) (bits v 24 7)).plotSums)) ∧
    (∀ (s : State) (n : Nat) (v : Nat), s.live →
      AMap.find n s.dev.plot.grow = some v →
      Effects (.slmGrowFillDone n) s (fun e =>
        e = (({ s.dev with plot := { s.dev.plot with grow := AMap.del n s.dev.plot.grow } } : Dev).setF (F.PLOT_SLM_EFFECT n) v).plotSums)) ∧
    (∀ (s : State) (n : Nat) (up : Bool) (v : Nat), s.live →
      s.dev.mbOpen n up = true →
      (s.dev.mbx n).seqOk up v = true →
      Effects (.mbSeqWrite n up v) s (fun e =>
        e = (if up = true then (s.dev.setMbx n { s.dev.mbx n with upSeq := v }).raise 0x1F0 n [] else (s.dev.setMbx n { s.dev.mbx n with dnSeq := v }).raiseTenant 0x1F1 n))) ∧
    (∀ (s : State) (n : Nat) (up : Bool) (v : Nat), s.live →
      s.dev.mbOpen n up = true →
      (s.dev.mbx n).seqOk up v = false →
      Effects (.mbSeqWrite n up v) s (fun e =>
        e = (s.dev.setMbx n (if up = true then { s.dev.mbx n with trej := true } else { s.dev.mbx n with mrej := true })).raise 0x1F3 n [])) ∧
    (∀ (s : State) (n : Nat) (up : Bool) (v : Nat), s.live →
      s.dev.mbOpen n (!up) = true →
      1 ≤ seq32 v ((s.dev.mbx n).ack up) →
      seq32 v ((s.dev.mbx n).ack up) ≤ seq32 ((s.dev.mbx n).seq up) ((s.dev.mbx n).ack up) →
      Effects (.mbAckWrite n up v) s (fun e =>
        e = s.dev.setMbx n (if up = true then { s.dev.mbx n with upAck := v } else { s.dev.mbx n with dnAck := v }))) ∧
    (∀ (s : State) (n : Nat) (tenant : Bool) (v : Nat), s.live →
      s.dev.mbOpen n tenant = true →
      v ≠ 0 →
      v ≠ (s.dev.mbx n).inc tenant →
      Effects (.mbIncWrite n tenant v) s (fun e =>
        ∃ x : Dev, x = s.dev.setMbx n (if tenant = true then { s.dev.mbx n with incT := v, trst := true } else { s.dev.mbx n with incM := v, mrst := true }) ∧
        e = (if tenant = true then ({ x with plot := { x.plot with rst := NSet.add n x.plot.rst } } : Dev).raise 0x1F2 n [] else x.raiseTenant 0x1F2 n))) ∧
    (∀ (s : State) (n : Nat) (up : Bool) (w v : Nat), s.live →
      s.dev.mbOpen n up = true →
      w < 1024 →
      (s.dev.mbx n).held up (w / 64) = false →
      Effects (.mbSlotWrite n up w v) s (fun e =>
        e = s.dev.setMbx n (if up = true then { s.dev.mbx n with up := AMap.set 0 w (v % 2 ^ 32) (s.dev.mbx n).up } else { s.dev.mbx n with dn := AMap.set 0 w (v % 2 ^ 32) (s.dev.mbx n).dn })))

/-- At start-up a declared die that answers is present with its times and rate, and one that does not fails its member; training takes the highest candidate rate that passes, or retires the channel. The next operation of a die's queue becomes busy by class and age with its keys in the lane, or a suspended one when no host read is queued; a status poll in time ends the operation; a timeout sends a read to reconstruction, a program's data elsewhere, marks an erased block bad, and is counted; a program or erase with host reads waiting is suspended below SUSPMAX. A codeword that decodes and checks is delivered; one that does not goes on to retry, soft decode and reconstruction, each within its deadline and the command's TLER, and beyond the parity it is uncorrectable. Retraining that is due passes, counts its failure, or lowers the rate and at last retires the channel. -/
def Obligations.ChannelCompletes : Prop :=
    (∀ (s : State) (die tRead tProg tErase rate jedec : Nat) (page : List Byte) (susp : Bool), s.live →
      s.dev.chanOk (dieChan die) = true →
      (s.dev.declaredDies (dieChan die)).contains die = true →
      (s.dev.f F.TOP_MODE_MODE = 3 ∨ s.dev.f F.TOP_MODE_MODE = 4 ∨ s.dev.f F.TOP_MODE_MODE = 5 ∨ s.dev.f F.TOP_MODE_MODE = 0xB) →
      Effects (.dieDiscovery die true true tRead tProg tErase rate jedec page susp) s (fun e =>
        ∃ x y z u : Dev, x = s.dev.setF (F.CHAN_DIEPRES_PRES (dieChan die) (dieLocal die / 32)) (setBit (s.dev.f (F.CHAN_DIEPRES_PRES (dieChan die) (dieLocal die / 32))) (dieLocal die % 32) true) ∧
        y = x.setF (F.CHAN_DIEXR_XR (dieChan die) (dieLocal die / 32)) (setBit (x.f (F.CHAN_DIEXR_XR (dieChan die) (dieLocal die / 32))) (dieLocal die % 32) ((s.dev.prof die).qualifies jedec page)) ∧
        z = (y.setF (F.CHAN_STAT_DIESPRES (dieChan die)) (((List.range 2).map (fun i => popCount 32 (y.f (F.CHAN_DIEPRES_PRES (dieChan die) i)))).sum)).setF (F.CHAN_DIESTAT_STATE (dieChan die) (dieLocal die)) (if s.dev.nv.failedDies.contains die = true then 2 else 1) ∧
        u = ((z.setF (F.CHAN_TNOM_TIME (dieChan die) 0) (max (z.f (F.CHAN_TNOM_TIME (dieChan die) 0)) tRead)).setF (F.CHAN_TNOM_TIME (dieChan die) 1) (max (z.f (F.CHAN_TNOM_TIME (dieChan die) 1)) tProg)).setF (F.CHAN_TNOM_TIME (dieChan die) 2) (max (z.f (F.CHAN_TNOM_TIME (dieChan die) 2)) tErase) ∧
        e = ({ u with media := { u.media with declared := AMap.put die rate u.media.declared, suspOk := if susp = true then NSet.add die u.media.suspOk else NSet.del die u.media.suspOk } } : Dev).chanSpent (dieChan die))) ∧
    (∀ (s : State) (die : Nat) (answers crcOk : Bool) (tRead tProg tErase rate jedec : Nat) (page : List Byte) (susp : Bool), s.live →
      s.dev.chanOk (dieChan die) = true →
      (s.dev.declaredDies (dieChan die)).contains die = true →
      (s.dev.f F.TOP_MODE_MODE = 3 ∨ s.dev.f F.TOP_MODE_MODE = 4 ∨ s.dev.f F.TOP_MODE_MODE = 5 ∨ s.dev.f F.TOP_MODE_MODE = 0xB) →
      (answers && crcOk) = false →
      Effects (.dieDiscovery die answers crcOk tRead tProg tErase rate jedec page susp) s (fun e =>
        e = (if s.dev.nv.failedDies.contains die = true then s.dev.chanSpent (dieChan die) else (s.dev.failMember die 0).chanSpent (dieChan die)))) ∧
    (∀ (s : State) (ch : Nat) (passes : List Nat) (temps : List Int) (k : Nat), s.live →
      s.dev.chanOk ch = true →
      s.dev.flag (F.CHAN_STAT_TRAINED ch) = false →
      (s.dev.chanDies ch).isEmpty = false →
      (((List.range 7).filter (fun c => decide (1 ≤ c ∧ c ≤ s.dev.rateCand ch) && passes.contains c)).max? = some k) →
      Effects (.channelTraining ch passes temps) s (fun e =>
        e = ((List.range 16).foldl (fun (e : Dev) t => if (e.targetDies (16 * ch + t)).isEmpty = true then e else e.setTarget (16 * ch + t) { fails := 0, at_ := e.now, temp := temps.getD t 0 })
          (((s.dev.setF (F.CHAN_STAT_RATE ch) k).setF (F.CHAN_STAT_TRAINED ch) 1).setF (F.CHAN_STAT_XRATE ch) (Bool.nat (k == 6)))))) ∧
    (∀ (s : State) (ch : Nat) (passes : List Nat) (temps : List Int), s.live →
      s.dev.chanOk ch = true →
      s.dev.flag (F.CHAN_STAT_TRAINED ch) = false →
      (s.dev.chanDies ch).isEmpty = false →
      (((List.range 7).filter (fun c => decide (1 ≤ c ∧ c ≤ s.dev.rateCand ch) && passes.contains c)).max? = none) →
      Effects (.channelTraining ch passes temps) s (fun e =>
        e = s.dev.retireChannel ch 3)) ∧
    (∀ (s : State) (die : Nat) (w : Nat) (ws : List Nat) (o : DieOp) (x : Dev), s.live →
      s.dev.dieTakes die = true →
      (s.dev.die die).busy = none →
      (s.dev.die die).ended = none →
      (s.dev.die die).suspended = none →
      (((List.range 5).filter (fun c => (((s.dev.die die).queue.take 32).filter s.dev.issuable).any (fun o => o.cls.num == c))) = w :: ws) →
      ((((s.dev.die die).queue.take 32).filter s.dev.issuable).find? (fun o => o.cls.num == (s.dev.die die).ages.pick (w :: ws) w) = some o) →
      s.dev.laneKeys o = some x →
      Effects (.dieOpIssue die) s (fun e =>
        e = x.setDie die { s.dev.die die with busy := some o, queue := (s.dev.die die).queue.erase o, ages := (s.dev.die die).ages.round (w :: ws) ((s.dev.die die).ages.pick (w :: ws) w) })) ∧
    (∀ (s : State) (die : Nat) (o : DieOp), s.live →
      s.dev.dieRuns die = true →
      (s.dev.die die).busy = none →
      (s.dev.die die).ended = none →
      (s.dev.die die).suspended = some o →
      (s.dev.dieTakes die = false ∨ (((s.dev.die die).queue.take 32).filter s.dev.issuable).filter (fun o => o.cls == .hostRead) = []) →
      ¬(s.dev.mode.pfStop = true ∧ o.cls ≠ .program) →
      Effects (.dieOpIssue die) s (fun e =>
        e = s.dev.setDie die { s.dev.die die with busy := some o, suspended := none })) ∧
    (∀ (s : State) (die : Nat) (o r : DieOp) (rs : List DieOp), s.live →
      s.dev.dieTakes die = true →
      (s.dev.die die).busy = none →
      (s.dev.die die).ended = none →
      (s.dev.die die).suspended = some o →
      ((((s.dev.die die).queue.take 32).filter s.dev.issuable).filter (fun o => o.cls == .hostRead) = r :: rs) →
      Effects (.dieOpIssue die) s (fun e =>
        e = s.dev.setDie die { s.dev.die die with busy := some r, queue := (s.dev.die die).queue.erase r, ages := (s.dev.die die).ages.round ((List.range 5).filter (fun c => (((s.dev.die die).queue.take 32).filter s.dev.issuable).any (fun o => o.cls.num == c))) 0 })) ∧
    (∀ (s : State) (die elapsed : Nat), s.live →
      s.dev.dieState die = 3 →
      s.dev.resetIssued die = true →
      Effects (.dieStatusPoll die elapsed) s (fun e =>
        e = (if elapsed ≤ (s.dev.f (F.CHAN_DTO_MULT (dieChan die))) * 10000 then s.dev.setF (F.CHAN_DIESTAT_STATE (dieChan die) (dieLocal die)) 1 else s.dev.chanCount (dieChan die) 7 1))) ∧
    (∀ (s : State) (die elapsed : Nat) (o : DieOp), s.live →
      s.dev.dieState die ≠ 3 →
      (s.dev.die die).busy = some o →
      Effects (.dieStatusPoll die elapsed) s (fun e =>
        ∃ x : Dev, x = s.dev.setF (F.CHAN_DIESTAT_CONSEC (dieChan die) (dieLocal die)) 0 ∧
        ∃ y : Dev, y = (x.setDie die { s.dev.die die with busy := none }).countPageRead die o.block ∧
          e = (if s.dev.deadline o < elapsed then s.dev.chanCount (dieChan die) 7 1
            else if o.cls = .program ∨ o.cls = .erase then x.setDie die { s.dev.die die with busy := none, ended := some o }
            else { y with media := { y.media with reading := y.media.reading ++ readCws o .decode } }))) ∧
    (∀ (s : State) (die : Nat) (o : DieOp), s.live →
      (s.dev.die die).busy = some o →
      Effects (.dieTimeout die) s (fun e =>
        ∃ x : Dev, x = s.dev.setDie die { s.dev.die die with busy := none } ∧
        e = (if o.cls = .program then x.programLost o else if o.cls = .erase then x.blockBad die o.block 2
          else { x with media := { x.media with reading := x.media.reading ++ readCws o .reconstruct } }).countTimeout die o.cls.num)) ∧
    (∀ (s : State) (die : Nat), s.live →
      s.dev.dieState die = 3 →
      s.dev.resetIssued die = true →
      Effects (.dieResetTimeout die) s (fun e =>
        e = s.dev.countTimeout die 5)) ∧
    (∀ (s : State) (die : Nat) (o : DieOp), s.live →
      (s.dev.die die).busy = some o →
      (s.dev.die die).suspended = none →
      s.dev.flag (F.CHAN_CFG_SUSP_EN (dieChan die)) = true →
      s.dev.media.suspOk.contains die = true →
      s.dev.dieTakes die = true →
      (o.cls = .program ∨ o.cls = .erase) →
      ((s.dev.die die).queue.any (fun r => r.cls == .hostRead) = true) →
      o.suspends < s.dev.f (F.CHAN_DTO_SUSPMAX (dieChan die)) →
      Effects (.programSuspend die) s (fun e =>
        e = s.dev.setDie die { s.dev.die die with busy := none, suspended := some { o with suspends := o.suspends + 1 } })) ∧
    (∀ (s : State) (loc ptype : Nat) (v : Decode) (r : ReadCw), s.live →
      s.dev.reading? loc .decode = some r →
      s.dev.underTest (dieChan (locDie loc) / 8) = false →
      s.dev.cw? loc = none →
      Effects (.codewordDecode loc ptype v) s (fun e =>
        e = ((s.dev.finjItem 3 (dieChan (locDie loc)) (dieLocal (locDie loc))).2).moveReading r { r with step := .reconstruct })) ∧
    (∀ (s : State) (loc ptype : Nat) (v : Decode) (r : ReadCw) (w : Cw) (x : Dev), s.live →
      s.dev.reading? loc .decode = some r →
      s.dev.underTest (dieChan (locDie loc) / 8) = false →
      s.dev.cw? loc = some w →
      s.dev.laneFor (dieChan (locDie loc)) w = some x →
      Effects (.codewordDecode loc ptype v) s (fun e =>
        ∃ y z : Dev, y = ((((x.finjItem 3 (dieChan (locDie loc)) (dieLocal (locDie loc))).2).chanCount (dieChan (locDie loc)) 0 1).almanacCount 112 1).setBlk (locDie loc) (locBlock loc) { s.dev.blk (locDie loc) (locBlock loc) with cwRead := (s.dev.blk (locDie loc) (locBlock loc)).cwRead + 1 } ∧
        z = y.countMismatch (dieChan (locDie loc)) v ∧
        e = (if y.crcOk w v = true then (if v = .corrected then (y.chanCount (dieChan (locDie loc)) 1 1).almanacCount 120 1 else y).deliver r (some w)
          else match z.retryWalk (locDie loc) ptype with
            | [] => z.moveReading r { r with ptype := ptype, step := z.pastRetry loc }
            | i :: _ => (((z.chanCount (dieChan (locDie loc)) 2 1).almanacCount 128 1).noteRetry (locDie loc) (locBlock loc)).moveReading r { r with step := .retry, entry := i, tried := 0, ptype := ptype }))) ∧
    (∀ (s : State) (die block page : Nat) (ok : List Nat) (expired : Bool) (elapsed : Nat) (w : List ReadCw), s.live →
      s.dev.rereadable die = true →
      (w = s.dev.media.reading.filter (fun r => r.step == .retry && locDie r.loc == die && locBlock r.loc == block && locPage r.loc == page)) →
      w ≠ [] →
      s.dev.readDeadline die < elapsed →
      Effects (.readRetryReread die block page ok expired elapsed) s (fun e =>
        e = (w.foldl (fun (e : Dev) r => e.moveReading r { r with step := .reconstruct }) s.dev).countTimeout die 0)) ∧
    (∀ (s : State) (die block page : Nat) (ok : List Nat) (expired : Bool) (elapsed : Nat) (r : ReadCw) (t : List ReadCw), s.live →
      s.dev.rereadable die = true →
      (s.dev.media.reading.filter (fun r => r.step == .retry && locDie r.loc == die && locBlock r.loc == block && locPage r.loc == page) = r :: t) →
      ¬(s.dev.readDeadline die < elapsed) →
      Effects (.readRetryReread die block page ok expired elapsed) s (fun e =>
        ∃ (any won : Bool) (x y : Dev), any = (r :: t).any (fun r => (ok.contains (locSlot r.loc) && (match s.dev.cw? r.loc with
              | some c => s.dev.crcOk c .corrected
              | none => false))) ∧ won = (r :: t).any (fun r => r.won) ∧
        x = (if (any && !won) = true then s.dev.setF (F.CHAN_DIESTAT_LASTRETRY (dieChan die) (dieLocal die)) r.entry else s.dev) ∧
        y = (x.countPageRead die block).setF (F.CHAN_DIESTAT_CONSEC (dieChan die) (dieLocal die)) 0 ∧
        e = (r :: t).foldl (fun (z : Dev) r =>
          if (z.finjItem 3 (dieChan die) (dieLocal die)).2.tlerOver r expired = true then (z.finjItem 3 (dieChan die) (dieLocal die)).2.deliver r none
          else if (ok.contains (locSlot r.loc) && (match s.dev.cw? r.loc with
              | some c => s.dev.crcOk c .corrected
              | none => false)) = true then (z.finjItem 3 (dieChan die) (dieLocal die)).2.deliver r (s.dev.cw? r.loc)
          else match (if r.tried + 1 < (s.dev.retryWalk die r.ptype).length then s.dev.retryNext (dieChan die) r.ptype r.entry else none) with
            | some nx => (z.finjItem 3 (dieChan die) (dieLocal die)).2.moveReading r { r with entry := nx, tried := r.tried + 1, won := won || any }
            | none => (z.finjItem 3 (dieChan die) (dieLocal die)).2.moveReading r { r with step := (z.finjItem 3 (dieChan die) (dieLocal die)).2.pastRetry r.loc }) y)) ∧
    (∀ (s : State) (loc : Nat) (v : Decode) (expired : Bool) (elapsed : Nat) (r : ReadCw), s.live →
      s.dev.reading? loc .soft = some r →
      s.dev.rereadable (locDie loc) = true →
      s.dev.tlerOver r expired = true →
      Effects (.softDecode loc v expired elapsed) s (fun e =>
        e = s.dev.deliver r none)) ∧
    (∀ (s : State) (loc : Nat) (v : Decode) (expired : Bool) (elapsed : Nat) (r : ReadCw), s.live →
      s.dev.reading? loc .soft = some r →
      s.dev.rereadable (locDie loc) = true →
      s.dev.tlerOver r expired = false →
      (s.dev.readDeadline (locDie loc) < elapsed ∨ s.dev.cw? loc = none) →
      Effects (.softDecode loc v expired elapsed) s (fun e =>
        e = (if s.dev.readDeadline (locDie loc) < elapsed then (s.dev.moveReading r { r with step := .reconstruct }).countTimeout (locDie loc) 0 else s.dev.moveReading r { r with step := .reconstruct }))) ∧
    (∀ (s : State) (loc : Nat) (v : Decode) (expired : Bool) (elapsed : Nat) (r : ReadCw) (w : Cw), s.live →
      s.dev.reading? loc .soft = some r →
      s.dev.rereadable (locDie loc) = true →
      s.dev.tlerOver r expired = false →
      ¬(s.dev.readDeadline (locDie loc) < elapsed) →
      s.dev.cw? loc = some w →
      Effects (.softDecode loc v expired elapsed) s (fun e =>
        ∃ x y : Dev, x = ((s.dev.countPageRead (locDie loc) (locBlock loc)).countPageRead (locDie loc) (locBlock loc)).setF (F.CHAN_DIESTAT_CONSEC (dieChan (locDie loc)) (dieLocal (locDie loc))) 0 ∧
        y = ({ x with media := { x.media with softs := x.media.softs + 1 } } : Dev).queueCompost (locDie loc) (locBlock loc) 2 ∧
        e = (if y.crcOk w v = true then ((y.chanCount (dieChan (locDie loc)) 3 1).almanacCount 136 1).deliver r (some w) else (y.countMismatch (dieChan (locDie loc)) v).moveReading r { r with step := .reconstruct }))) ∧
    (∀ (s : State) (loc : Nat) (unread late : List Nat) (sound expired : Bool) (r : ReadCw), s.live →
      s.dev.reading? loc .reconstruct = some r →
      s.dev.tlerOver r expired = false →
      (s.dev.stripe? (s.dev.blk (locDie loc) (locBlock loc)).group (s.dev.blk (locDie loc) (locBlock loc)).bsn = none ∨ s.dev.memberOf (locDie loc) = none) →
      Effects (.reconstruction loc unread late sound expired) s (fun e =>
        e = s.dev.uncorrectable r)) ∧
    (∀ (s : State) (loc : Nat) (unread late : List Nat) (sound expired : Bool) (r : ReadCw) (x : BStripe) (g j : Nat) (dies : List (Nat × Nat × Nat)), s.live →
      s.dev.reading? loc .reconstruct = some r →
      s.dev.tlerOver r expired = false →
      s.dev.stripe? (s.dev.blk (locDie loc) (locBlock loc)).group (s.dev.blk (locDie loc) (locBlock loc)).bsn = some x →
      s.dev.memberOf (locDie loc) = some (g, j) →
      (dies = (x.blocks.filter (fun jb => !s.dev.memberFailed x.group jb.1)).map (fun jb => (jb.1, s.dev.memberDie x.group jb.1, jb.2))) →
      ((dies.any (fun y => s.dev.underTest (dieChan y.2.1 / 8)) || (s.dev.row? x.group x.bsn (locPage loc)).any (fun y => s.dev.strp.replay.contains y.index)) = false) →
      Effects (.reconstruction loc unread late sound expired) s (fun e =>
        ∃ (others : List (Nat × Nat × Nat)) (gone : List Nat) (y z : Dev), others = dies.filter (fun a => a.1 != j) ∧
        y = others.foldl (fun (e : Dev) a => e.countPageRead a.2.1 a.2.2) s.dev ∧
        z = (others.filter (fun a => late.contains a.1)).foldl (fun (e : Dev) a => e.countTimeout a.2.1 0) y ∧
        gone = s.dev.erasures x (locPage loc) (j :: (unread ++ late)) ∧
        e = (if geomM (s.dev.groupGeom (s.dev.blk (locDie loc) (locBlock loc)).group) < gone.length ∨ s.dev.lostAt loc = true then (z.loseStripe x (locPage loc) (locSlot loc) 2).uncorrectable r
          else match ((s.dev.solve x (locPage loc) (locSlot loc) j gone).bind (s.dev.rebuilt loc)).filter (fun _ => sound) with
            | some c => (((z.bump (F.STRP_CNT_COUNT 0) 0x10 0 1).almanacCount 144 1).ewOccur 8).deliver r (some c)
            | none => (z.loseStripe x (locPage loc) (locSlot loc) 2).uncorrectable r))) ∧
    (∀ (s : State) (target : Nat) (temp : Int) (ok : Bool), s.live →
      s.dev.chanOk (target / 16) = true →
      s.dev.flag (F.CHAN_STAT_TRAINED (target / 16)) = true →
      (s.dev.targetDies target).isEmpty = false →
      ((s.dev.targetDies target).any (fun y => !(s.dev.die y).idle) = false) →
      s.dev.underTest (target / 16 / 8) = false →
      s.dev.retrainDue target temp = true →
      Effects (.targetRetrain target temp ok) s (fun e =>
        ∃ x : Dev, x = s.dev.clearFails (target / 16) ∧
        e = (if ok = true then s.dev.setTarget target { fails := 0, at_ := s.dev.now, temp := temp }
          else if (AMap.get NandTarget.init target s.dev.media.targets).fails = 0 then s.dev.setTarget target { AMap.get NandTarget.init target s.dev.media.targets with fails := 1 }
          else if s.dev.f (F.CHAN_STAT_RATE (target / 16)) ≤ 1 then x.retireChannel (target / 16) 3
          else ((x.setF (F.CHAN_STAT_RATE (target / 16)) (s.dev.f (F.CHAN_STAT_RATE (target / 16)) - 1)).setF (F.CHAN_STAT_XRATE (target / 16)) 0).raise (chanEvent (target / 16) 3) noPlot [])))

/-- A batch closes with the open records and takes the next BSEQ; a commit appends the oldest closed batch and settles the commit records it covers; a checkpoint pass starts at the period, the volume, half the journal or the dirty limit and takes the dirty segments; a written copy enters the directory and the journal tail moves; destage places the codewords of an IU, as Compost paces it, and remembers that it did, and pads where asked; a program or erase that ends well writes its page, stages its row and its map records, or frees its block; one that fails is reported, counted, and its block drained or marked bad with its data programmed again; Compost takes the victim of the first reason that has one; a relocated copy takes over the map entry while it still holds the source; the read and retention limits queue the block. -/
def Obligations.FlashLayerCompletes : Prop :=
    (∀ (s : State), s.live →
      s.dev.f F.TOP_MODE_MODE ≠ 0 →
      Effects (.journalBatchClose) s (fun e =>
        e = { s.dev with ftl := { s.dev.ftl with closed := s.dev.ftl.closed ++ [{ bseq := s.dev.nextBseq, time := s.dev.time, recs := s.dev.ftl.openRecs }], openRecs := [] } })) ∧
    (∀ (s : State) (b : Batch) (rest : List Batch), s.live →
      s.dev.ftl.closed = b :: rest →
      Effects (.journalBatchCommit) s (fun e =>
        ∃ x : Dev, x = ({ s.dev with ftl := { s.dev.ftl with closed := rest, ckptVol := s.dev.ftl.ckptVol + b.bytes }, mram := { s.dev.mram with batches := s.dev.mram.batches ++ [b], jhead := b.bseq, jtail := if s.dev.mram.batches.isEmpty = true then b.bseq else s.dev.mram.jtail, commits := s.dev.mram.commits.map (fun (c : Commit) => c.settle b.recs) } } : Dev) ∧
        e = ((((x.setF F.MRAMC_JHEAD_BSEQ b.bseq).count 0x51 0 noPlot 1).count 0x52 0 noPlot b.bytes).freeCommits.journalShow).eraseSweep)) ∧
    (∀ (s : State), s.live →
      s.dev.background = true →
      s.dev.ftl.pass.isEmpty = true →
      s.dev.ftl.copies.isEmpty = true →
      s.dev.ftl.ckptAt + 1000 * s.dev.f F.MAPW_CKPT_PERIOD ≤ s.dev.now →
      Effects (.checkpointPassStart) s (fun e =>
        e = ({ s.dev with ftl := { s.dev.ftl with pass := s.dev.ftl.dirty, ckptAt := s.dev.now, ckptVol := 0 } } : Dev).passStep)) ∧
    (∀ (s : State), s.live →
      s.dev.background = true →
      s.dev.ftl.pass.isEmpty = true →
      s.dev.ftl.copies.isEmpty = true →
      s.dev.f F.MAPW_CKPT_VOLUME * 268435456 ≤ s.dev.ftl.ckptVol →
      Effects (.checkpointPassStart) s (fun e =>
        e = ({ s.dev with ftl := { s.dev.ftl with pass := s.dev.ftl.dirty, ckptAt := s.dev.now, ckptVol := 0 } } : Dev).passStep)) ∧
    (∀ (s : State), s.live →
      s.dev.background = true →
      s.dev.ftl.pass.isEmpty = true →
      s.dev.ftl.copies.isEmpty = true →
      (50 ≤ s.dev.jfill ∨ s.dev.f F.MAPW_CKPT_DIRTYMAX * 2 ^ 30 < s.dev.dirtyBytes) →
      Effects (.checkpointPassStart) s (fun e =>
        e = ({ s.dev with ftl := { s.dev.ftl with pass := s.dev.ftl.dirty, ckptAt := s.dev.now, ckptVol := 0 } } : Dev).passStep)) ∧
    (∀ (s : State) (seg : Nat) (c : SegCopy), s.live →
      AMap.find seg s.dev.ftl.copies = some c →
      s.dev.segWritten seg c = true →
      Effects (.segmentCopyDone seg) s (fun e =>
        ∃ x : Dev, x = { s.dev with md := { s.dev.md with dir := AMap.put seg c s.dev.md.dir }, ftl := { s.dev.ftl with copies := AMap.del seg s.dev.ftl.copies } } ∧
        e = (((x.count 0x5B 0 noPlot 1).trimJournal).eraseSweep).passStep)) ∧
    (∀ (s : State) (seg : Nat), s.live →
      AMap.find seg s.dev.ftl.copies = none →
      s.dev.ftl.pass.contains seg = true →
      Effects (.segmentCopyDone seg) s (fun e =>
        e = s.dev.passStep)) ∧
    (∀ (s : State) (nsid iu g : Nat) (pad : Bool) (n : Ns) (c : Commit) (y : Dev), s.live →
      s.dev.ns? nsid = some n →
      s.dev.liveCommit nsid iu = some c →
      (c.taken iu || !s.dev.groups.contains g || (n.comp != 0 && (AMap.find (iuKey nsid iu) s.dev.ftl.packed).isNone)) = false →
      ((s.dev.paced g (s.dev.iuCodewords n c iu).length).bind (fun e => e.place g 0 (s.dev.iuCodewords n c iu)) = some y) →
      Effects (.destage nsid iu g pad) s (fun e =>
        ∃ x : Dev, x = y.setCommit { c with sent := c.sent ++ [iu] } ∧ e = (if pad = true then (match x.openStripe? g 0 with
          | some w => x.padStripe w
          | none => x) else x))) ∧
    (∀ (s : State) (nsid iu g : Nat), s.live →
      (s.dev.ns? nsid = none ∨ s.dev.liveCommit nsid iu = none) →
      Effects (.destage nsid iu g true) s (fun e =>
        e = (match s.dev.openStripe? g 0 with
          | some w => s.dev.padStripe w
          | none => s.dev))) ∧
    (∀ (s : State) (die : Nat) (o : DieOp), s.live →
      (s.dev.die die).ended = some o →
      o.cls = .program →
      ((s.dev.setDie die { s.dev.die die with ended := none }).writePage o).memberOf die = none →
      Effects (.nandProgramDone die) s (fun e =>
        e = (s.dev.setDie die { s.dev.die die with ended := none }).writePage o)) ∧
    (∀ (s : State) (die : Nat) (o : DieOp) (g j : Nat), s.live →
      (s.dev.die die).ended = some o →
      o.cls = .program →
      ((s.dev.setDie die { s.dev.die die with ended := none }).writePage o).memberOf die = some (g, j) →
      o.parity = true →
      Effects (.nandProgramDone die) s (fun e =>
        e = (((s.dev.setDie die { s.dev.die die with ended := none }).writePage o).almanacCount 272 (4096 * o.cws.length)).parityWritten o j)) ∧
    (∀ (s : State) (die : Nat) (o : DieOp) (g j p : Nat), s.live →
      (s.dev.die die).ended = some o →
      o.cls = .program →
      ((s.dev.setDie die { s.dev.die die with ended := none }).writePage o).memberOf die = some (g, j) →
      o.parity = false →
      (p = ((((s.dev.setDie die { s.dev.die die with ended := none }).writePage o).stripe? g o.bsn).map (fun s => s.purpose)).getD 0) →
      Effects (.nandProgramDone die) s (fun e =>
        ∃ y : Dev, y = ((s.dev.setDie die { s.dev.die die with ended := none }).writePage o).almanacCount (if p = 1 then 256 else if p = 2 then 264 else 248) (4096 * o.cws.length) ∧
        ∃ z : Dev, z = (match y.stripe? g o.bsn, y.row? g o.bsn o.page with
            | some s, some r => (y.setRow { r with done := setBit r.done j true }).stageRow s { r with done := setBit r.done j true }
            | _, _ => y) ∧
          e = (if p = 0 then (o.cws.filter (fun c => decide (c.kind ≤ 1))).foldl (fun (a : Dev) c => a.destaged o c) z else z).closeStripe g o.bsn)) ∧
    (∀ (s : State) (die : Nat) (o : DieOp), s.live →
      (s.dev.die die).ended = some o →
      o.cls = .program →
      Effects (.progFail die) s (fun e =>
        ∃ x y : Dev, x = ((((s.dev.setDie die { s.dev.die die with ended := none }).raise 0x015 noPlot [die, o.block, o.page]).almanacCount 176 1).setBlk die o.block { s.dev.blk die o.block with doom := 1 }).queueCompost die o.block 2 ∧
        y = (match x.stripe? o.group o.bsn with
          | some s => if o.parity = true then x.reportStripe s else x
          | none => x) ∧
        e = (y.programLost o).closeStripe o.group o.bsn)) ∧
    (∀ (s : State) (die : Nat) (o : DieOp), s.live →
      (s.dev.die die).ended = some o →
      o.cls = .erase →
      Effects (.eraseDone die) s (fun e =>
        e = (s.dev.setDie die { s.dev.die die with ended := none }).blockErased die o.block)) ∧
    (∀ (s : State) (die : Nat) (o : DieOp), s.live →
      (s.dev.die die).ended = some o →
      o.cls = .erase →
      Effects (.eraseFail die) s (fun e =>
        e = (((s.dev.setDie die { s.dev.die die with ended := none }).raise 0x016 noPlot [die, o.block]).almanacCount 184 1).blockBad die o.block 2)) ∧
    (∀ (s : State) (g : Nat), s.live →
      s.dev.background = true →
      s.dev.flag F.TOP_MODE_CRO = false →
      Effects (.compostVictim g) s (fun e =>
        ∃ (l : Nat → Option (Nat × Nat)) (t : List (Nat × Option (Nat × Nat))), l = (fun (r : Nat) => ((s.dev.ftl.compost.find? (fun c => !c.started && c.reason == r && (s.dev.blk c.die c.block).group == g && (s.dev.blk c.die c.block).state == .closed)).map (fun c => (c.die, c.block)))) ∧ t = [(1, if s.dev.urgent g = true then (l 1).orElse (fun _ => s.dev.spaceVictim g) else none), (2, l 2), (3, l 3), (4, l 4), (1, l 1), (5, l 5), (5, if s.dev.freePermille g < s.dev.f F.MAPW_COMPOST_START then (l 5).orElse (fun _ => s.dev.spaceVictim g) else none)] ∧
        e = (match t.findSome? (fun t => t.2.map (fun b => (t.1, b))) with
          | some (r, b) => s.dev.freeCheck.startReloc b.1 b.2 r
          | none => s.dev.freeCheck))) ∧
    (∀ (s : State) (g : Nat), s.live →
      (s.dev.background = false ∨ s.dev.flag F.TOP_MODE_CRO = true) →
      Effects (.compostVictim g) s (fun e =>
        e = s.dev.freeCheck)) ∧
    (∀ (s : State) (nsid iu : Nat), s.live →
      entryType (s.dev.entry? nsid iu) ≠ 1 →
      Effects (.relocationCopyDone nsid iu) s (fun e =>
        e = (if (s.dev.flash.cws.filter (fun x => x.2.nsid == nsid && x.2.iu == iu && x.2.cwidx == 0 && decide (x.2.kind ≤ 1))).isEmpty = true then s.dev else s.dev.count 0x5A 0 noPlot 1).eraseSweep.rebuildSweep)) ∧
    (∀ (s : State) (nsid iu : Nat), s.live →
      entryType (s.dev.entry? nsid iu) = 1 →
      Effects (.relocationCopyDone nsid iu) s (fun e =>
        ∃ x : Dev, x = (match s.dev.cw? (s.dev.entry? nsid iu % 2 ^ 38) with
            | none => s.dev
            | some old => match ((s.dev.flash.cws.filter (fun x => x.2.nsid == nsid && x.2.iu == iu && x.2.cwidx == 0 && decide (x.2.kind ≤ 1))).filter (fun x => x.2.wseq == old.wseq && x.1 != s.dev.entry? nsid iu % 2 ^ 38 && (decide (old.reloc < x.2.reloc) || (old.reloc == 255 && x.2.reloc == 255 && !s.dev.ftl.relocBuf.any (fun w => w.nsid == nsid && w.iu == iu))))).getLast? with
              | none => s.dev
              | some c => match s.dev.copyIn (locDie c.1) (locBlock c.1) c.2 with
                | some loc => (s.dev.mapSet nsid iu (flashEntry loc)).jrec (.mapTo nsid iu (flashEntry loc) c.2.reloc)
                | none => s.dev) ∧
        e = x.eraseSweep.rebuildSweep)) ∧
    (∀ (s : State) (die block : Nat), s.live →
      Effects (.readDisturbLimit die block) s (fun e =>
        e = (if s.dev.f F.MAPW_RELOC_READMAX * 1000 ≤ (s.dev.blk die block).reads then s.dev.queueCompost die block 3 else s.dev))) ∧
    (∀ (s : State) (die block : Nat), s.live →
      Effects (.retentionLimit die block) s (fun e =>
        e = (if s.dev.f F.MAPW_RELOC_RETAIN * 86400 ≤ (s.dev.blk die block).age then s.dev.queueCompost die block 4 else s.dev).retainCheck))

/-- After the tag scan replay deals with every row slot that was in use at the stop, closes the stripes that were open, counts the slots and raises STRIPE_REPLAY; the map walk leaves the block stripes that have valid codewords and a failed member; rebuild marks the stripes it loses, relocates every block of a stripe, counts it and goes on; Rake reads and counts a stripe, reports a hard read, a reconstruction, a loss and a parity that does not agree, and shows its progress after the last. -/
def Obligations.StripesComplete : Prop :=
    (∀ (s : State) (torn : List Nat), s.live →
      s.dev.flag F.MAPW_STAT_ADMIT = true →
      Effects (.stripeReplay torn) s (fun e =>
        ∃ x y : Dev, x = (s.dev.strp.slots.filter (fun y => y.state != .free && s.dev.strp.replay.contains y.index)).foldl (fun (a : Dev) y => a.replayRow (torn.contains y.index) y) { s.dev with strp := { s.dev.strp with replay := [] } } ∧
        y = (((x.strp.stripes.filter (fun y => y.closing)).foldl (fun (a : Dev) y => a.closeStripe y.group y.bsn) x).jshow).freeCommits ∧
        e = (if (s.dev.strp.slots.filter (fun y => y.state != .free && s.dev.strp.replay.contains y.index)).isEmpty = true then y else (y.bump (F.STRP_CNT_COUNT 1) 0x11 0 (s.dev.strp.slots.filter (fun y => y.state != .free && s.dev.strp.replay.contains y.index)).length).raise 0x01C noPlot [(s.dev.strp.slots.filter (fun y => y.state != .free && s.dev.strp.replay.contains y.index)).length]))) ∧
    (∀ (s : State) (g : Nat), s.live →
      Effects (.mapWalkDone g) s (fun e =>
        ∃ rs : List Rebuild, rs = s.dev.strp.rebuilds.map (fun r => if r.group == g then { r with members := r.members.map (fun m => (m.1, true)), left := (s.dev.strp.stripes.filter (fun x => x.group == g && decide (0 < s.dev.erased x) && s.dev.stripeValid x)).map (fun x => x.bsn) } else r) ∧
        e = ({ s.dev with strp := { s.dev.strp with rebuilds := rs } } : Dev).rebuildSweep)) ∧
    (∀ (s : State) (g bsn : Nat) (lost : List (Nat × Nat)) (r : Rebuild) (x : BStripe), s.live →
      (s.dev.strp.rebuilds.find? (fun y => y.group == g) = some r) →
      s.dev.stripe? g bsn = some x →
      ((r.active && !s.dev.mode.pfStop && !(x.blocks.map (fun jb => s.dev.memberDie g jb.1)).any (fun y => s.dev.underTest (dieChan y / 8)) && r.left.contains bsn && !s.dev.flag F.STRP_RBCFG_PAUSE && s.dev.patrolMode && decide (s.dev.f F.PWR_PSTATE_PS ≤ 2) && (x.blocks.map Prod.fst).all (fun j => r.members.all (fun m => m.1 != j || m.2)) && (!s.dev.flag F.TOP_MODE_CRO || (s.dev.openStripe? g 1).isSome)) = true) →
      Effects (.rebuildStripe g bsn lost) s (fun e =>
        ∃ (y z : Dev) (rs : List Rebuild), y = lost.foldl (fun (a : Dev) ps => a.loseStripe x ps.1 ps.2 1) s.dev ∧
        rs = y.strp.rebuilds.map (fun v => if v.group == g then { v with left := v.left.filter (fun b => b != bsn), lost := v.lost + lost.length } else v) ∧
        z = x.blocks.foldl (fun (a : Dev) jb => a.startReloc (s.dev.memberDie g jb.1) jb.2 2) { y with strp := { y.strp with rebuilds := rs } } ∧
        e = (z.bump (F.STRP_CNT_COUNT 2) 0x12 0 1).rebuildSweep)) ∧
    (∀ (s : State) (g bsn page slot : Nat) (f : RakeFinding) (last : Bool) (x : BStripe), s.live →
      s.dev.stripe? g bsn = some x →
      s.dev.patrolMode = true →
      s.dev.mode.pfStop = false →
      ((x.blocks.map (fun jb => s.dev.memberDie g jb.1)).any (fun y => s.dev.underTest (dieChan y / 8)) = false) →
      ¬(2 < s.dev.f F.PWR_PSTATE_PS) →
      s.dev.f F.STRP_RAKE_DAYS ≠ 0 →
      s.dev.rakeStripes.contains (g, bsn) = true →
      Effects (.rakeStripeCheck g bsn page slot f last) s (fun e =>
        ∃ y z : Dev, y = (s.dev.rakeRead x).bump (F.STRP_CNT_COUNT 4) 0x14 0 1 ∧
        z = (match f with
          | .sound => y
          | .hard j => match AMap.find j x.blocks with
            | some b => y.rakeReport (s.dev.memberDie g j) b
            | none => y
          | .reconstructed => (x.blocks.foldl (fun (z : Dev) jb => z.rakeReport (s.dev.memberDie g jb.1) jb.2) (((y.bump (F.STRP_CNT_COUNT 0) 0x10 0 1).almanacCount 144 1).ewOccur 8))
          | .lost => y.loseStripe x page slot 4
          | .parity => (x.blocks.foldl (fun (z : Dev) jb => z.rakeReport (s.dev.memberDie g jb.1) jb.2) (y.bump (F.STRP_CNT_COUNT 5) 0x15 0 1)).raise 0x01B noPlot []) ∧
        e = (if last = true then z.rakeAdvance g bsn else z)))

/-- Training that agrees brings the link up at x8 or x4 and raises its event, or, after a retraining, resends and reports DEGRADED, and what waited goes on; training that does not agree leaves WIRING, and one that runs out of time begins again, or after two failed retrainings declares the link down; a data frame in order returns its ACK and credit, is counted and delivered, and the sixteenth is acknowledged at once; one already seen is acknowledged again and one ahead is dropped with a NAK; a frame that fails HCHK, its length or its CRC is dropped by that cause, and after the first two the receiver hunts; idle frames return ACK and credit; a NAK replays; a heartbeat takes every newer counter, which makes its member reachable, and records what it says; the replay timer resends or retrains, the acknowledge timer acknowledges, and the link timer declares the link down and sends its messages again; hunting begins with one NAK and ends at a frame. -/
def Obligations.GorwastaLinksComplete : Prop :=
    (∀ (s : State) (l : Nat) (x4 reversed : Bool), s.live →
      s.dev.linkable l = true →
      s.dev.linkState l = 1 →
      s.dev.trainOk l = true →
      (s.dev.link l).retrain = false →
      Effects (.gwlLinkUp l x4 reversed) s (fun e =>
        ∃ y z : Dev, y = s.dev.setLink l { GLink.init with train := (s.dev.link l).train, naks := (s.dev.link l).naks, queue := (s.dev.link l).queue } ∧
        z = (((y.setF (F.GWL_LSTAT_STATE l) (if x4 = true then 3 else 2)).setF (F.GWL_LSTAT_PEER l) (Nat.xor s.dev.self (linkMask l))).setF (F.GWL_LSTAT_REVERSED l) (Bool.nat reversed)).raise (0x1C0 + l) noPlot [] ∧
        e = ((if x4 = true then z.raise (0x1C4 + l) noPlot [] else z).pump l).reroute)) ∧
    (∀ (s : State) (l : Nat) (x4 reversed : Bool), s.live →
      s.dev.linkable l = true →
      s.dev.linkState l = 1 →
      s.dev.trainOk l = true →
      (s.dev.link l).retrain = true →
      Effects (.gwlLinkUp l x4 reversed) s (fun e =>
        ∃ y z : Dev, y = s.dev.setLink l { s.dev.link l with retrain := false, fails := 0, nak := false, hunting := false } ∧
        z = (((y.setF (F.GWL_LSTAT_STATE l) (if x4 = true then 3 else 2)).setF (F.GWL_LSTAT_PEER l) (Nat.xor s.dev.self (linkMask l))).setF (F.GWL_LSTAT_REVERSED l) (Bool.nat reversed)).resend l ∧
        e = ((z.raise (0x1C4 + l) noPlot []).pump l).reroute)) ∧
    (∀ (s : State) (l : Nat) (x4 reversed : Bool), s.live →
      s.dev.linkable l = true →
      s.dev.linkState l = 1 →
      s.dev.trainOk l = false →
      Effects (.gwlLinkUp l x4 reversed) s (fun e =>
        e = (s.dev.setF (F.GWL_LSTAT_STATE l) 4).raise 0x1C8 noPlot [l])) ∧
    (∀ (s : State) (l : Nat), s.live →
      s.dev.linkable l = true →
      s.dev.linkUp l = false →
      ((s.dev.link l).retrain = false ∨ (s.dev.link l).fails = 0) →
      Effects (.gwlTrainRetry l) s (fun e =>
        e = (s.dev.setF (F.GWL_LSTAT_STATE l) 1).setLink l { s.dev.link l with train := none, fails := (s.dev.link l).fails + Bool.nat (s.dev.link l).retrain })) ∧
    (∀ (s : State) (l : Nat), s.live →
      s.dev.linkable l = true →
      s.dev.linkUp l = false →
      (s.dev.link l).retrain = true →
      1 ≤ (s.dev.link l).fails →
      Effects (.gwlTrainRetry l) s (fun e =>
        e = s.dev.declareDown l)) ∧
    (∀ (s : State) (l peer plink cluster rhash : Nat) (x : Dev), s.live →
      s.dev.linkable l = true →
      s.dev.linkState l = 1 →
      x = s.dev.setLink l { s.dev.link l with train := some (peer, plink, cluster, rhash) } →
      x.trainOk l = true →
      Effects (.gwlTrainFrame l peer plink cluster rhash) s (fun e =>
        e = x.sendFrame l 4)) ∧
    (∀ (s : State) (l peer plink cluster rhash : Nat) (x : Dev), s.live →
      s.dev.linkable l = true →
      s.dev.linkState l = 1 →
      x = s.dev.setLink l { s.dev.link l with train := some (peer, plink, cluster, rhash) } →
      x.trainOk l = false →
      Effects (.gwlTrainFrame l peer plink cluster rhash) s (fun e =>
        e = (x.setF (F.GWL_LSTAT_STATE l) 4).raise 0x1C8 noPlot [l])) ∧
    (∀ (s : State) (l : Nat) (f : GwlFrame), s.live →
      s.dev.linkUp l = true →
      (s.dev.link l).hunting = false →
      frameFault f = none →
      f.ty = 0 →
      f.seq % 65536 = (s.dev.link l).expect →
      Effects (.gwlDataFrame l f) s (fun e =>
        ∃ x y : Dev, x = (s.dev.frameIn l f).lcount l 1 1 ∧
        y = (x.setLink l { x.link l with expect := ((x.link l).expect + 1) % 65536, nak := false, heldAck := (x.link l).heldAck + 1, owe := AMap.set 0 f.vc (AMap.get 0 f.vc (x.link l).owe + f.len) (x.link l).owe }).gwlDeliver l f ∧
        e = if 16 ≤ (y.link l).heldAck then y.sendFrame l 1 else y)) ∧
    (∀ (s : State) (l : Nat) (f : GwlFrame), s.live →
      s.dev.linkUp l = true →
      (s.dev.link l).hunting = false →
      frameFault f = none →
      f.ty = 0 →
      f.seq % 65536 ≠ (s.dev.link l).expect →
      seq16 (s.dev.link l).expect f.seq ≤ 512 →
      Effects (.gwlDataFrame l f) s (fun e =>
        e = ((s.dev.frameIn l f).lcount l 5 1).sendFrame l 1)) ∧
    (∀ (s : State) (l : Nat) (f : GwlFrame), s.live →
      s.dev.linkUp l = true →
      (s.dev.link l).hunting = false →
      frameFault f = none →
      f.ty = 0 →
      f.seq % 65536 ≠ (s.dev.link l).expect →
      512 < seq16 (s.dev.link l).expect f.seq →
      Effects (.gwlDataFrame l f) s (fun e =>
        e = s.dev.dropFrame l 5)) ∧
    (∀ (s : State) (l : Nat) (f : GwlFrame) (k : Nat), s.live →
      s.dev.linkUp l = true →
      (s.dev.link l).hunting = false →
      frameFault f = some k →
      Effects (.gwlDataFrame l f) s (fun e =>
        ∃ x : Dev, x = s.dev.dropFrame l k ∧ e = (if headOk f = true ∧ f.lenOk = true then x else x.setLink l { x.link l with hunting := true }))) ∧
    (∀ (s : State) (l : Nat) (f : GwlFrame), s.live →
      s.dev.linkUp l = true →
      (s.dev.link l).hunting = false →
      frameFault f = none →
      f.ty = 1 →
      Effects (.gwlIdleFrame l f) s (fun e =>
        e = s.dev.frameIn l f)) ∧
    (∀ (s : State) (l : Nat) (f : GwlFrame) (k : Nat), s.live →
      s.dev.linkUp l = true →
      (s.dev.link l).hunting = false →
      frameFault f = some k →
      Effects (.gwlIdleFrame l f) s (fun e =>
        ∃ x : Dev, x = s.dev.dropFrame l k ∧ e = (if headOk f = true ∧ f.lenOk = true then x else x.setLink l { x.link l with hunting := true }))) ∧
    (∀ (s : State) (l : Nat) (f : GwlFrame), s.live →
      s.dev.linkUp l = true →
      (s.dev.link l).hunting = false →
      frameFault f = none →
      f.ty = 2 →
      Effects (.gwlNak l f) s (fun e =>
        e = (s.dev.frameIn l f).replay l)) ∧
    (∀ (s : State) (l : Nat) (f : GwlFrame) (k : Nat), s.live →
      s.dev.linkUp l = true →
      (s.dev.link l).hunting = false →
      frameFault f = some k →
      Effects (.gwlNak l f) s (fun e =>
        ∃ x : Dev, x = s.dev.dropFrame l k ∧ e = (if headOk f = true ∧ f.lenOk = true then x else x.setLink l { x.link l with hunting := true }))) ∧
    (∀ (s : State) (l : Nat) (f : GwlFrame), s.live →
      s.dev.linkUp l = true →
      (s.dev.link l).hunting = false →
      frameFault f = none →
      f.ty = 3 →
      Effects (.gwlHeartbeat l f) s (fun e =>
        ∃ x : Dev, x = (List.range 8).foldl (fun (y : Dev) i => y.hear i (hbCount f.msg i)) (s.dev.frameIn l f) ∧
        e = ({ x with gwl := { x.gwl with heard := AMap.put (hbMember f.msg) (hbHeard f.msg) x.gwl.heard } } : Dev).reroute)) ∧
    (∀ (d : Dev) (i v : Nat), i ≠ d.self →
      1 ≤ seqDist v (AMap.get 0 i d.gwl.hbc) → seqDist v (AMap.get 0 i d.gwl.hbc) < 2 ^ 31 →
      d.hear i v = ({ d with gwl := { d.gwl with hbc := AMap.set 0 i v d.gwl.hbc, heardAt := AMap.put i d.now d.gwl.heardAt } } : Dev).setF F.GWL_SETS_REACH (setMember (d.f F.GWL_SETS_REACH) i true)) ∧
    (∀ (s : State) (l : Nat) (f : GwlFrame) (k : Nat), s.live →
      s.dev.linkUp l = true →
      (s.dev.link l).hunting = false →
      frameFault f = some k →
      Effects (.gwlHeartbeat l f) s (fun e =>
        ∃ x : Dev, x = s.dev.dropFrame l k ∧ e = (if headOk f = true ∧ f.lenOk = true then x else x.setLink l { x.link l with hunting := true }))) ∧
    (∀ (s : State) (l : Nat), s.live →
      s.dev.linkUp l = true →
      Effects (.gwlReplayTimeout l) s (fun e =>
        e = (if (s.dev.link l).kept.isEmpty = true then s.dev else if s.dev.f F.GWL_CFG_REPLAYMAX ≤ (s.dev.link l).resends then (((s.dev.setF (F.GWL_LSTAT_STATE l) 1).setLink l { s.dev.link l with retrain := true, resends := 0 }).lcount l 7 1) else (s.dev.setLink l { s.dev.link l with resends := (s.dev.link l).resends + 1 }).resend l))) ∧
    (∀ (s : State) (l : Nat), s.live →
      s.dev.linkUp l = true →
      0 < (s.dev.link l).heldAck →
      Effects (.gwlAckHoldTimeout l) s (fun e =>
        e = s.dev.sendFrame l 1)) ∧
    (∀ (s : State) (l : Nat), s.live →
      l < 4 →
      (s.dev.linkUp l = true ∨ (s.dev.link l).retrain = true) →
      Effects (.gwlLinkTimeout l) s (fun e =>
        ∃ x : Dev, x = (((s.dev.setF (F.GWL_LSTAT_STATE l) 0).setF (F.GWL_LSTAT_DOWNS l) (satAdd 16 (s.dev.f (F.GWL_LSTAT_DOWNS l)) 1)).setLink l { GLink.init with naks := (s.dev.link l).naks }).raise (0x1C0 + l) noPlot [] ∧
        e = ((s.dev.link l).kept.filterMap (fun g => g.msg) ++ (s.dev.link l).queue.filterMap (fun m => m.2.1)).foldl Dev.sendTo x)) ∧
    (∀ (s : State) (l : Nat), s.live →
      s.dev.linkUp l = true →
      Effects (.gwlFrameHunt l true) s (fun e =>
        e = s.dev.setLink l { s.dev.link l with hunting := false })) ∧
    (∀ (s : State) (l : Nat), s.live →
      s.dev.linkUp l = true →
      (s.dev.link l).nak = false →
      Effects (.gwlFrameHunt l false) s (fun e =>
        e = (s.dev.setLink l { s.dev.link l with hunting := true, nak := true, naks := satAdd 32 (s.dev.link l).naks 1 }).sendFrame l 2)) ∧
    (∀ (s : State) (l : Nat), s.live →
      s.dev.linkUp l = true →
      (s.dev.link l).nak = true →
      Effects (.gwlFrameHunt l false) s (fun e =>
        e = s.dev.setLink l { s.dev.link l with hunting := true, nak := true, naks := (s.dev.link l).naks }))

/-- Heartbeats go out on every link that is up; a member that stays silent for MISS leaves the reachable set, and the view changes by one epoch with its events, quorum, resynchronisation and what waited for the members that left; a chunk asked for is answered with its data or its loss, or rebuilt from k others; a result serves the gathering or the read of its tag, goes to the stripe owner where its holder lost it, or is counted as late; a shared namespace is reserved or refused, created and deleted; a lock is queued and granted when the stripe is free; a member prepares what it is asked under a prepared record, waits without room, and refuses while read-only; the owner goes on from data to parity to its entry; mirror entries are stored and acknowledged, the mirrored COMMIT of the lead decides, and commits, aborts and the end go through the members; the journal resolves, a decision is answered from the entries, resync goes stripe by stripe and ends with its last owner, and a good anchor token reseats the anchor. -/
def Obligations.ClusterCompletes : Prop :=
    (∀ (s : State) (x : Dev), s.live →
      s.dev.flag F.GWL_ID_CLUSTER = true →
      x = { s.dev with gwl := { s.dev.gwl with hbc := AMap.set 0 s.dev.self ((AMap.get 0 s.dev.self s.dev.gwl.hbc + 1) % 2 ^ 32) s.dev.gwl.hbc } } →
      Effects (.heartbeatPeriod) s (fun e =>
        e = ((List.range 4).filter x.linkUp).foldl (fun (y : Dev) l => y.sendRaw l 3 x.hbFlit) x)) ∧
    (∀ (s : State) (i : Nat), s.live →
      bit (s.dev.f F.GWL_SETS_REACH) i = true →
      i ≠ s.dev.self →
      AMap.get 0 i s.dev.gwl.heardAt + s.dev.f F.GWL_HB_MISS ≤ s.dev.now →
      Effects (.memberLost i) s (fun e =>
        e = s.dev.setF F.GWL_SETS_REACH (setMember (s.dev.f F.GWL_SETS_REACH) i false))) ∧
    (∀ (s : State) (fresh : Nat) (new : Nat), s.live →
      s.dev.flag F.GWL_ID_CLUSTER = true →
      new = setMember (s.dev.f F.GWL_SETS_REACH) s.dev.self true →
      new ≠ s.dev.f F.GWL_SETS_VIEWSET →
      Effects (.viewChange fresh) s (fun e =>
        ∃ (lost back : List Nat) (x y z : Dev), lost = (List.range 8).filter (fun i => bit (s.dev.f F.GWL_SETS_VIEWSET) i && !bit new i) ∧
        back = (List.range 8).filter (fun i => bit new i && !bit (s.dev.f F.GWL_SETS_VIEWSET) i) ∧
        x = ((s.dev.setF F.GWL_SETS_VIEWSET new).setF F.GWL_VIEW_VIEW ((((s.dev.gwl.heard.filter (fun h => bit new h.1)).map (fun h => h.2.view)).foldl max (s.dev.f F.GWL_VIEW_VIEW)) + 1)).raise 0x1CB noPlot [] ∧
        y = lost.foldl (fun (a : Dev) i => a.raise 0x1C9 noPlot [i]) x ∧
        z = (back.filter (fun i => i != s.dev.self)).foldl (fun (a : Dev) i => a.raise 0x1CA noPlot [i]) y ∧
        e = ((z.decideQuorum.startResync ((back.map (fun i => if i = s.dev.self then 0 else 2 ^ i)).sum) fresh).redirect lost s.dev.owner).grantAll)) ∧
    (∀ (s : State) (src nsid r j tag : Nat) (n : Ns) (g : ClusterGeom), s.live →
      s.dev.cns? nsid = some (n, g) →
      j < g.k + g.m →
      src ≠ s.dev.self →
      Effects (.chunkForward src nsid r j tag false) s (fun e =>
        (e = s.dev.sendTo { dst := src, kind := .result, tag := tag, nsid := nsid, stripe := r, tseq := 0, lead := src, vals := if s.dev.holder r j ≠ s.dev.self ∨ s.dev.clu.marked.contains (chunkKey nsid r j) = true then [] else [(j, s.dev.chunk nsid r j)] }))) ∧
    (∀ (s : State) (src nsid r j tag : Nat) (n : Ns) (g : ClusterGeom), s.live →
      s.dev.cns? nsid = some (n, g) →
      j < g.k + g.m →
      src = s.dev.self →
      s.dev.holder r j = s.dev.self →
      Effects (.chunkForward src nsid r j tag false) s (fun e =>
        (e = match s.dev.takeChunk n r j tag (if s.dev.clu.marked.contains (chunkKey nsid r j) = true then none else some (s.dev.chunk nsid r j)) with
        | some y => y
        | none => s.dev.setF F.HIF_DISCARD_COUNT (satAdd 64 (s.dev.f F.HIF_DISCARD_COUNT) 1)))) ∧
    (∀ (s : State) (src nsid r j tag : Nat) (n : Ns) (g : ClusterGeom), s.live →
      s.dev.cns? nsid = some (n, g) →
      j < g.k + g.m →
      Effects (.chunkForward src nsid r j tag true) s (fun e =>
        (e = match s.dev.gather g nsid r [j] (.rebuild src tag j) with
        | (y, some got) => y.answerChunk src nsid r j tag (got.bind (fun cs => chunkOf? g cs j))
        | (y, none) => y))) ∧
    (∀ (s : State) (src nsid r j tag : Nat) (v : Option Nat) (n : Ns) (g : ClusterGeom) (x : Gather), s.live →
      s.dev.cns? nsid = some (n, g) →
      (s.dev.gwl.gathers.find? (fun x => x.tag == tag && x.nsid == nsid && x.stripe == r && x.asked.contains j) = some x) →
      Effects (.chunkResult src nsid r j tag v) s (fun e =>
        e = s.dev.gatherTake n g x j v)) ∧
    (∀ (s : State) (src nsid r j tag : Nat) (n : Ns) (g : ClusterGeom), s.live →
      s.dev.cns? nsid = some (n, g) →
      (s.dev.gwl.gathers.find? (fun x => x.tag == tag && x.nsid == nsid && x.stripe == r && x.asked.contains j) = none) →
      src = s.dev.holder r j →
      s.dev.owner g r ≠ src →
      (s.dev.gwl.reads.any (fun x => x.tag == tag && x.nsid == nsid && x.parts.any (fun p => p.stripe == r && p.chunk == j && p.data.isNone)) = true) →
      Effects (.chunkResult src nsid r j tag none) s (fun e =>
        e = s.dev.askOwner g nsid r j tag)) ∧
    (∀ (s : State) (src nsid r j tag : Nat) (v : Option Nat) (n : Ns) (g : ClusterGeom), s.live →
      s.dev.cns? nsid = some (n, g) →
      (s.dev.gwl.gathers.find? (fun x => x.tag == tag && x.nsid == nsid && x.stripe == r && x.asked.contains j) = none) →
      (v ≠ none ∨ src ≠ s.dev.holder r j ∨ s.dev.owner g r = src ∨ s.dev.gwl.reads.any (fun x => x.tag == tag && x.nsid == nsid && x.parts.any (fun p => p.stripe == r && p.chunk == j && p.data.isNone)) = false) →
      Effects (.chunkResult src nsid r j tag v) s (fun e =>
        (e = match s.dev.takeChunk n r j tag v with
        | some y => y
        | none => s.dev.setF F.HIF_DISCARD_COUNT (satAdd 64 (s.dev.f F.HIF_DISCARD_COUNT) 1)))) ∧
    (∀ (s : State) (src nsid nsze geom lbaf iu pi : Nat) (ext : Bool) (g : ClusterGeom) (n : Ns), s.live →
      geomOf geom = some g →
      n = { nsid := nsid, nsze := nsze, ncap := nsze, lbaf := lbaf, iu := iu, pi := pi, ext := ext, comp := 0, attached := [], shared := true, epoch := 0, test := false, resv := Resv.init, cluster := some g } →
      Effects (.clusterShareReserve src nsid nsze geom lbaf iu pi ext false) s (fun e =>
        (e = if (s.dev.ns? nsid).isSome = true ∨ ¬(769 ≤ nsid ∧ nsid ≤ 1024) ∨ s.dev.mapFree < s.dev.nsMap n ∨ s.dev.capFits n = false then s.dev.sendTo { dst := src, kind := .refused, nsid := nsid, stripe := 0, tseq := 0, lead := src, vals := [] }
        else ({ s.dev with gwl := { s.dev.gwl with reserved := s.dev.gwl.reserved ++ [(nsid, nsze, geom, lbaf, iu)] } } : Dev).sendTo { dst := src, kind := .reserved, nsid := nsid, stripe := 0, tseq := 0, lead := src, vals := [] }))) ∧
    (∀ (s : State) (src nsid nsze geom lbaf iu pi : Nat) (ext : Bool) (g : ClusterGeom), s.live →
      geomOf geom = some g →
      nsze ≠ 0 →
      s.dev.gwl.reserved.contains (nsid, nsze, geom, lbaf, iu) = true →
      Effects (.clusterShareReserve src nsid nsze geom lbaf iu pi ext true) s (fun e =>
        e = ({ s.dev with gwl := { s.dev.gwl with reserved := s.dev.gwl.reserved.filter (fun x => x.1 != nsid) }, md := { s.dev.md with nss := s.dev.md.nss ++ [{ nsid := nsid, nsze := nsze, ncap := nsze, lbaf := lbaf, iu := iu, pi := pi, ext := ext, comp := 0, attached := [], shared := true, epoch := 0, test := false, resv := Resv.init, cluster := some g }] } } : Dev).mapShow)) ∧
    (∀ (s : State) (src nsid geom lbaf iu pi : Nat) (ext : Bool) (g : ClusterGeom), s.live →
      geomOf geom = some g →
      769 ≤ nsid →
      Effects (.clusterShareReserve src nsid 0 geom lbaf iu pi ext true) s (fun e =>
        e = s.dev.deleteNs nsid)) ∧
    (∀ (s : State) (lead tseq nsid r recv : Nat) (peer : Option Nat) (parts : List (Nat × Nat × Nat)) (n : Ns) (g : ClusterGeom) (ps : List CPart), s.live →
      s.dev.cns? nsid = some (n, g) →
      s.dev.owner g r = s.dev.self →
      (s.dev.gwl.txs.any (fun x => x.tseq == tseq && x.lead == lead && x.stripe == r) = false) →
      (ps = (match s.dev.gwl.writes.flatMap (fun w => w.reqs.filter (fun q => q.tseq == tseq && q.lead == lead && lead == s.dev.self)) with
        | q :: _ => q.parts.filter (fun p => p.stripe == r)
        | [] => parts.map (fun p => { stripe := r, chunk := p.1, blk := p.2.1, data := some p.2.2, bad := false }))) →
      Effects (.stripeLock lead tseq nsid r recv peer parts) s (fun e =>
        ∃ x : Dev, x = { s.dev with gwl := { s.dev.gwl with txs := s.dev.gwl.txs ++ [{ tseq := tseq, lead := lead, nsid := nsid, stripe := r, peer := peer, recv := recv, parts := ps, olds := [], granted := false, need := [], delta := [], qWait := false, ready := false, peerReady := peer.isNone || lead != s.dev.self }] } } ∧
        e = if s.dev.gwl.txs.any (fun y => y.nsid == nsid && y.stripe == r) = true then x else x.grantLock nsid r)) ∧
    (∀ (s : State) (src lead tseq nsid r j : Nat) (parts : List (Nat × Nat)) (n : Ns) (g : ClusterGeom) (new : Nat), s.live →
      s.dev.cns? nsid = some (n, g) →
      s.dev.holder r j = s.dev.self →
      j < g.k + g.m →
      s.dev.flag F.TOP_MODE_CRO = false →
      (new = mergeParts (lbaBytes n.lbaf) (s.dev.chunk nsid r j) (parts.map (fun p => { stripe := r, chunk := j, blk := p.1, data := some p.2, bad := false }))) →
      Effects (.prepare src lead tseq nsid r j parts none) s (fun e =>
        (e = match s.dev.prep { lead := lead, tseq := tseq, nsid := nsid, stripe := r, chunk := j, data := new } with
        | some y => y.sendTo { dst := src, kind := .prepared, nsid := nsid, stripe := r, tseq := tseq, lead := lead, vals := [(j, Nat.xor (s.dev.chunk nsid r j) new)] }
        | none => s.dev))) ∧
    (∀ (s : State) (src lead tseq nsid r j x : Nat) (parts : List (Nat × Nat)) (n : Ns) (g : ClusterGeom) (new : Nat), s.live →
      s.dev.cns? nsid = some (n, g) →
      s.dev.holder r j = s.dev.self →
      j < g.k + g.m →
      s.dev.flag F.TOP_MODE_CRO = false →
      new = Nat.xor (s.dev.chunk nsid r j) x →
      Effects (.prepare src lead tseq nsid r j parts (some x)) s (fun e =>
        (e = match s.dev.prep { lead := lead, tseq := tseq, nsid := nsid, stripe := r, chunk := j, data := new } with
        | some y => y.sendTo { dst := src, kind := .prepared, nsid := nsid, stripe := r, tseq := tseq, lead := lead, vals := [(j, Nat.xor (s.dev.chunk nsid r j) new)] }
        | none => s.dev))) ∧
    (∀ (s : State) (src lead tseq nsid r j : Nat) (parts : List (Nat × Nat)) (delta : Option Nat) (n : Ns) (g : ClusterGeom), s.live →
      s.dev.cns? nsid = some (n, g) →
      s.dev.holder r j = s.dev.self →
      j < g.k + g.m →
      s.dev.flag F.TOP_MODE_CRO = true →
      Effects (.prepare src lead tseq nsid r j parts delta) s (fun e =>
        e = s.dev.sendTo { dst := src, kind := .refusal, nsid := nsid, stripe := r, tseq := tseq, lead := lead, vals := [(j, 0)] })) ∧
    (∀ (s : State) (lead tseq j delta : Nat) (t : CTx) (n : Ns) (g : ClusterGeom), s.live →
      s.dev.tx? lead tseq = some t →
      s.dev.cns? t.nsid = some (n, g) →
      Effects (.prepared lead tseq j delta false) s (fun e =>
        e = s.dev.abortTx t .namespaceWriteProtected)) ∧
    (∀ (s : State) (lead tseq delta : Nat) (t : CTx) (n : Ns) (g : ClusterGeom), s.live →
      s.dev.tx? lead tseq = some t →
      s.dev.cns? t.nsid = some (n, g) →
      Effects (.prepared lead tseq 0xFF delta true) s (fun e =>
        e = (s.dev.setTx { t with peerReady := true }).txStep { t with peerReady := true })) ∧
    (∀ (s : State) (lead tseq j delta : Nat) (t t1 : CTx) (n : Ns) (g : ClusterGeom), s.live →
      s.dev.tx? lead tseq = some t →
      s.dev.cns? t.nsid = some (n, g) →
      j ≠ 0xFF →
      (t1 = { t with need := NSet.del j t.need, delta := if j < g.k then t.delta ++ [(j, delta)] else t.delta, qWait := t.qWait && j != g.k + 1 }) →
      (t1.need ≠ [] ∨ t1.qWait = true) →
      Effects (.prepared lead tseq j delta true) s (fun e =>
        e = s.dev.setTx t1)) ∧
    (∀ (s : State) (lead tseq j delta : Nat) (t t1 : CTx) (n : Ns) (g : ClusterGeom), s.live →
      s.dev.tx? lead tseq = some t →
      s.dev.cns? t.nsid = some (n, g) →
      j ≠ 0xFF →
      (t1 = { t with need := NSet.del j t.need, delta := if j < g.k then t.delta ++ [(j, delta)] else t.delta, qWait := t.qWait && j != g.k + 1 }) →
      t1.need = [] →
      t1.qWait = false →
      (j < g.k ∨ t.need.isEmpty = false) →
      Effects (.prepared lead tseq j delta true) s (fun e =>
        (e = match (if (s.dev.holder t.stripe g.k == s.dev.self) = true then s.dev.prep { lead := lead, tseq := tseq, nsid := t.nsid, stripe := t.stripe, chunk := g.k, data := Nat.xor (s.dev.chunk t.nsid t.stripe g.k) (chunkP t1.delta) } else some s.dev) with
        | none => s.dev
        | some y => if g.m = 2 ∧ s.dev.inView (s.dev.holder t.stripe (g.k + 1)) = true
            then (y.setTx { t1 with qWait := true }).sendTo { dst := s.dev.holder t.stripe (g.k + 1), kind := .prepareDelta, nsid := t.nsid, stripe := t.stripe, tseq := tseq, lead := lead, vals := [(g.k + 1, chunkQ t1.delta)] }
            else (y.setTx { t1 with ready := true }).txStep { t1 with ready := true }))) ∧
    (∀ (s : State) (lead tseq j delta : Nat) (t t1 : CTx) (n : Ns) (g : ClusterGeom), s.live →
      s.dev.tx? lead tseq = some t →
      s.dev.cns? t.nsid = some (n, g) →
      j ≠ 0xFF →
      (t1 = { t with need := NSet.del j t.need, delta := if j < g.k then t.delta ++ [(j, delta)] else t.delta, qWait := t.qWait && j != g.k + 1 }) →
      t1.need = [] →
      t1.qWait = false →
      g.k ≤ j →
      t.need = [] →
      Effects (.prepared lead tseq j delta true) s (fun e =>
        e = (s.dev.setTx { t1 with ready := true }).txStep { t1 with ready := true })) ∧
    (∀ (s : State) (x : CEntry) (rest : List CEntry), s.live →
      (rest = s.dev.clu.mirror.filter (fun y => !(y.owner == x.owner && y.tseq == x.tseq && y.lead == x.lead))) →
      (x.state = 0 ∨ rest.length < 65280) →
      Effects (.mirrorEntry x) s (fun e =>
        e = (({ s.dev with clu := { s.dev.clu with mirror := if x.state = 0 then rest else rest ++ [entrySeal x] } } : Dev).cjShow).sendTo { dst := x.owner, kind := .mirrorAck, nsid := x.nsid, stripe := x.stripe, tseq := x.tseq, lead := x.lead, vals := [(0, x.state)] })) ∧
    (∀ (s : State) (lead tseq st : Nat) (t : CTx) (x : CEntry), s.live →
      s.dev.tx? lead tseq = some t →
      (s.dev.clu.own.find? (fun (x : CEntry) => x.tseq == tseq && x.lead == lead) = some x) →
      lead = s.dev.self →
      st = 3 →
      x.state = 3 →
      Effects (.mirrorAck lead tseq st) s (fun e =>
        e = (s.dev.tellTx t .commit).settle lead tseq true)) ∧
    (∀ (s : State) (lead tseq st : Nat), s.live →
      (lead ≠ s.dev.self ∨ st ≠ 3) →
      Effects (.mirrorAck lead tseq st) s (fun e =>
        e = s.dev)) ∧
    (∀ (s : State) (src lead tseq : Nat) (t : CTx) (x : CEntry), s.live →
      s.dev.tx? lead tseq = some t →
      (s.dev.clu.own.find? (fun (x : CEntry) => x.tseq == tseq && x.lead == lead) = some x) →
      lead ≠ s.dev.self →
      Effects (.clusterCommit src lead tseq) s (fun e =>
        e = ((((s.dev.settle lead tseq true).putEntry { x with state := 3 }).tellTx t .commit)).sendTo { dst := src, kind := .committed, nsid := 0, stripe := 0, tseq := tseq, lead := lead, vals := [] })) ∧
    (∀ (s : State) (src lead tseq : Nat), s.live →
      (s.dev.tx? lead tseq = none ∨ s.dev.clu.own.find? (fun (x : CEntry) => x.tseq == tseq && x.lead == lead) = none ∨ lead = s.dev.self) →
      Effects (.clusterCommit src lead tseq) s (fun e =>
        e = (s.dev.settle lead tseq true).sendTo { dst := src, kind := .committed, nsid := 0, stripe := 0, tseq := tseq, lead := lead, vals := [] })) ∧
    (∀ (s : State) (lead tseq : Nat) (t : CTx), s.live →
      s.dev.tx? lead tseq = some t →
      lead ≠ s.dev.self →
      Effects (.clusterAbort lead tseq) s (fun e =>
        e = ((((s.dev.settle lead tseq false).tellTx t .abort).freeEntry lead tseq).unlock lead tseq))) ∧
    (∀ (s : State) (lead tseq : Nat), s.live →
      s.dev.tx? lead tseq = none →
      Effects (.clusterAbort lead tseq) s (fun e =>
        e = (s.dev.settle lead tseq false).txEnd lead tseq .namespaceWriteProtected)) ∧
    (∀ (s : State) (lead tseq : Nat), s.live →
      s.dev.tx? lead tseq = none →
      lead ≠ s.dev.self →
      Effects (.transactionDone lead tseq) s (fun e =>
        e = s.dev.txEnd lead tseq .success)) ∧
    (∀ (s : State) (lead tseq : Nat) (t : CTx) (x : CEntry) (y : Dev), s.live →
      s.dev.tx? lead tseq = some t →
      (s.dev.clu.own.find? (fun (x : CEntry) => x.tseq == tseq && x.lead == lead) = some x) →
      lead ≠ s.dev.self →
      y = (s.dev.freeEntry lead tseq).unlock lead tseq →
      Effects (.transactionDone lead tseq) s (fun e =>
        (e = if y.gwl.writes.any (fun w => w.reqs.any (fun q => q.tseq == tseq && q.lead == lead)) = true then y.txEnd lead tseq .success else y))) ∧
    (∀ (s : State) (lead tseq : Nat) (t : CTx) (x : CEntry), s.live →
      s.dev.tx? lead tseq = some t →
      (s.dev.clu.own.find? (fun (x : CEntry) => x.tseq == tseq && x.lead == lead) = some x) →
      lead = s.dev.self →
      x.state = 3 →
      Effects (.transactionDone lead tseq) s (fun e =>
        ∃ y : Dev, y = ((t.peer.toList ++ [t.recv]).eraseDups.filter (fun i => i != s.dev.self)).foldl (fun (z : Dev) i =>
        z.sendTo { dst := i, kind := .done, nsid := t.nsid, stripe := t.stripe, tseq := tseq, lead := lead, vals := [] }) ((s.dev.freeEntry lead tseq).unlock lead tseq) ∧
        e = if t.recv = s.dev.self then y.txEnd lead tseq .success else y)) ∧
    (∀ (s : State) (i : Nat) (lost : List (Nat × Nat)), s.live →
      Effects (.clusterJournalResolve (some i) lost) s (fun e =>
        e = (((s.dev.clu.mirror.filter (fun x => x.owner == i)).filter entryUsed).foldl (fun (y : Dev) x => y.resolve x) s.dev).loseStripes lost)) ∧
    (∀ (s : State) (lost : List (Nat × Nat)), s.live →
      Effects (.clusterJournalResolve none lost) s (fun e =>
        ∃ x : Dev, x = (s.dev.clu.own.filter entryUsed).foldl (fun (y : Dev) z => y.resolve z) s.dev ∧
        e = (((x.clu.preps.map (fun p => (p.lead, p.tseq, p.nsid, p.stripe))).eraseDups).foldl (fun (y : Dev) p =>
          match y.cns? p.2.2.1 with
          | none => y
          | some (_, g) => if (if y.inView (y.holder p.2.2.2 g.k) = true then y.holder p.2.2.2 g.k else Nat.xor (y.holder p.2.2.2 g.k) 7) = y.self then y
              else y.ask (if y.inView (y.holder p.2.2.2 g.k) = true then y.holder p.2.2.2 g.k else Nat.xor (y.holder p.2.2.2 g.k) 7) p.2.2.1 p.2.2.2 p.2.1 p.1) x).loseStripes lost)) ∧
    (∀ (s : State) (src lead tseq : Nat) (lost : List (Nat × Nat)) (es : List CEntry), s.live →
      (es = (s.dev.clu.own ++ s.dev.clu.mirror).filter (fun x => entryUsed x && x.lead == lead && x.tseq == tseq)) →
      (es.any (fun x => x.state == 3) = true) →
      Effects (.decisionQuery src lead tseq lost) s (fun e =>
        e = (s.dev.sendTo { dst := src, kind := .commit, nsid := 0, stripe := 0, tseq := tseq, lead := lead, vals := [] }).loseStripes lost)) ∧
    (∀ (s : State) (src lead tseq : Nat) (lost : List (Nat × Nat)) (es : List CEntry) (x : CEntry), s.live →
      (es = (s.dev.clu.own ++ s.dev.clu.mirror).filter (fun x => entryUsed x && x.lead == lead && x.tseq == tseq)) →
      (es.any (fun x => x.state == 3) = false) →
      (es.find? (fun x => x.state == 2 && x.owner == s.dev.self) = some x) →
      Effects (.decisionQuery src lead tseq lost) s (fun e =>
        e = (s.dev.ask lead x.nsid x.stripe tseq lead).loseStripes lost)) ∧
    (∀ (s : State) (src lead tseq : Nat) (lost : List (Nat × Nat)) (es : List CEntry), s.live →
      (es = (s.dev.clu.own ++ s.dev.clu.mirror).filter (fun x => entryUsed x && x.lead == lead && x.tseq == tseq)) →
      (es.any (fun x => x.state == 3) = false) →
      (es.find? (fun x => x.state == 2 && x.owner == s.dev.self) = none) →
      Effects (.decisionQuery src lead tseq lost) s (fun e =>
        (e = ((match s.dev.tx? lead tseq with
        | some t => if lead = s.dev.self then s.dev.abortTx t .internalError else s.dev
        | none => s.dev).sendTo { dst := src, kind := .abort, nsid := 0, stripe := 0, tseq := tseq, lead := lead, vals := [] }).loseStripes lost))) ∧
    (∀ (s : State) (owner nsid r : Nat) (recv : List (Nat × Nat)), s.live →
      owner ≠ s.dev.self →
      s.dev.gwl.rejoining = true →
      Effects (.resyncStripe owner nsid r recv false) s (fun e =>
        (e = (recv.filter (fun c => s.dev.holder r c.1 == s.dev.self)).foldl (fun (y : Dev) c =>
        match y.writeChunk nsid r c.1 c.2 with
        | some z => z
        | none => y) s.dev))) ∧
    (∀ (s : State) (owner nsid r : Nat) (x : Dev), s.live →
      owner ≠ s.dev.self →
      s.dev.gwl.rejoining = true →
      x = { s.dev with gwl := { s.dev.gwl with finished := NSet.add owner s.dev.gwl.finished } } →
      Effects (.resyncStripe owner nsid r [] true) s (fun e =>
        (e = if ((List.range 8).filter (fun i => x.inView i && i != s.dev.self && !bit (x.f F.GWL_SETS_REJSET) i)).all (fun i => x.gwl.finished.contains i) = true then x.fenceExit else x))) ∧
    (∀ (s : State) (owner nsid r : Nat) (recv : List (Nat × Nat)) (last : Bool) (n : Ns) (g : ClusterGeom), s.live →
      s.dev.cns? nsid = some (n, g) →
      owner = s.dev.self →
      s.dev.owner g r = s.dev.self →
      s.dev.gwl.resync.contains (s.dev.region nsid r) = true →
      s.dev.flag F.GWL_RESYNC_PAUSE = false →
      r < Dev.stripes n g →
      (s.dev.gwl.txs.any (fun t => t.nsid == nsid && t.stripe == r) = false) →
      (s.dev.gwl.gathers.any (fun x => x.nsid == nsid && x.stripe == r && x.why == .resync) = false) →
      Effects (.resyncStripe owner nsid r recv last) s (fun e =>
        (e = match s.dev.gather g nsid r ((List.range (g.k + g.m)).filter (fun j => bit (s.dev.f F.GWL_SETS_REJSET) (s.dev.holder r j))) .resync with
        | (y, some got) => y.sendStripe n g nsid r got
        | (y, none) => y))) ∧
    (∀ (s : State) (t : AnchorTok), s.live →
      s.dev.tokenGood t false = true →
      Effects (.anchorToken t) s (fun e =>
        ∃ x : Dev, x = ({ s.dev with clu := { s.dev.clu with anchor := some (t.anchor, t.epoch), tokens := s.dev.clu.tokens + 1 } } : Dev).setF F.GWL_ID_ANCHOR t.anchor ∧ e = x.decideQuorum.raise 0x1D1 noPlot [t.anchor])) ∧
    (∀ (s : State) (t : AnchorTok), s.live →
      s.dev.tokenGood t false = false →
      Effects (.anchorToken t) s (fun e =>
        e = s.dev))

/-- A submission in range and in sequence waits for a slot; one to a ring that is off or stale, with no new or too many descriptors, or with a wrong sequence, is rejected by its code; an acknowledgement in range is taken and any other is rejected; a ring is enabled with its pointers at zero, takes LOG2E and PLOT only while off, and is disabled by EN = 0; a startable ring's oldest descriptor becomes a job, a Skim job with its unit; a curd that has credit is taken by its stage, from the store, the working stage, a program or the exchange queue, fenced input is noted, and a curd for no job is counted and reported; credit returns; a job ends when its last curd is drained or a condition ends it, or by its time limit; a graft replaces the segment once no held job is left. -/
def Obligations.TrellisCompletes : Prop :=
    (∀ (s : State) (q r seq : Nat) (sub k : Nat), s.live →
      s.dev.quadOk q = true →
      r < 64 →
      sub = s.dev.f (F.TREL_RSUB_SUB q r) →
      k = seqDist (seq % 2 ^ 32) sub →
      s.dev.flag (F.TREL_RCTL_EN q r) = true →
      s.dev.flag (F.TREL_RCTL_STALE q r) = false →
      k ≠ 0 →
      k ≤ s.dev.ringE q r - seqDist sub (s.dev.f (F.TREL_RACK_ACK q r)) →
      (((List.range (min k 4096)).map (fun i => (sub + 1 + i) % 2 ^ 32)).any (fun i => (s.dev.ringDesc q r i).subseq != i) = false) →
      Effects (.trelRsub q r seq) s (fun e =>
        e = (s.dev.setF (F.TREL_RSUB_SUB q r) (seq % 2 ^ 32)).setWaits q (s.dev.waits q ++ ((List.range (min k 4096)).map (fun i => (sub + 1 + i) % 2 ^ 32)).map (fun i => (r, s.dev.ringDesc q r i))))) ∧
    (∀ (s : State) (q r seq : Nat) (sub k : Nat), s.live →
      s.dev.quadOk q = true →
      r < 64 →
      sub = s.dev.f (F.TREL_RSUB_SUB q r) →
      k = seqDist (seq % 2 ^ 32) sub →
      s.dev.flag (F.TREL_RCTL_EN q r) = true →
      s.dev.flag (F.TREL_RCTL_STALE q r) = false →
      (k = 0 ∨ s.dev.ringE q r - seqDist sub (s.dev.f (F.TREL_RACK_ACK q r)) < k) →
      Effects (.trelRsub q r seq) s (fun e =>
        e = s.dev.ringReject q r 1)) ∧
    (∀ (s : State) (q r seq : Nat) (sub k : Nat), s.live →
      s.dev.quadOk q = true →
      r < 64 →
      sub = s.dev.f (F.TREL_RSUB_SUB q r) →
      k = seqDist (seq % 2 ^ 32) sub →
      s.dev.flag (F.TREL_RCTL_EN q r) = true →
      s.dev.flag (F.TREL_RCTL_STALE q r) = false →
      k ≠ 0 →
      k ≤ s.dev.ringE q r - seqDist sub (s.dev.f (F.TREL_RACK_ACK q r)) →
      (((List.range (min k 4096)).map (fun i => (sub + 1 + i) % 2 ^ 32)).any (fun i => (s.dev.ringDesc q r i).subseq != i) = true) →
      Effects (.trelRsub q r seq) s (fun e =>
        e = s.dev.ringReject q r 2)) ∧
    (∀ (s : State) (q r seq : Nat), s.live →
      s.dev.quadOk q = true →
      r < 64 →
      s.dev.flag (F.TREL_RCTL_EN q r) = false →
      Effects (.trelRsub q r seq) s (fun e =>
        e = s.dev.ringReject q r 4)) ∧
    (∀ (s : State) (q r seq : Nat), s.live →
      s.dev.quadOk q = true →
      r < 64 →
      s.dev.flag (F.TREL_RCTL_EN q r) = true →
      s.dev.flag (F.TREL_RCTL_STALE q r) = true →
      Effects (.trelRsub q r seq) s (fun e =>
        e = (s.dev.ringReject q r 3).raise 0x1F9 (s.dev.f (F.TREL_RCTL_PLOT q r)) [])) ∧
    (∀ (s : State) (q r seq : Nat), s.live →
      s.dev.quadOk q = true →
      r < 64 →
      1 ≤ seqDist (seq % 2 ^ 32) (s.dev.f (F.TREL_RACK_ACK q r)) →
      seqDist (seq % 2 ^ 32) (s.dev.f (F.TREL_RACK_ACK q r)) ≤ seqDist (s.dev.f (F.TREL_RCMP_CMPSEQ q r)) (s.dev.f (F.TREL_RACK_ACK q r)) →
      Effects (.trelRack q r seq) s (fun e =>
        e = s.dev.setF (F.TREL_RACK_ACK q r) (seq % 2 ^ 32))) ∧
    (∀ (s : State) (q r seq : Nat), s.live →
      s.dev.quadOk q = true →
      r < 64 →
      ¬(1 ≤ seqDist (seq % 2 ^ 32) (s.dev.f (F.TREL_RACK_ACK q r)) ∧ seqDist (seq % 2 ^ 32) (s.dev.f (F.TREL_RACK_ACK q r)) ≤ seqDist (s.dev.f (F.TREL_RCMP_CMPSEQ q r)) (s.dev.f (F.TREL_RACK_ACK q r))) →
      Effects (.trelRack q r seq) s (fun e =>
        e = s.dev.ringReject q r 5)) ∧
    (∀ (s : State) (q r value : Nat) (x : Dev), s.live →
      s.dev.quadOk q = true →
      r < 64 →
      s.dev.flag (F.TREL_RCTL_EN q r) = false →
      bit value 21 = true →
      x = (if 4 ≤ bits value 0 4 ∧ bits value 0 4 ≤ 12 then s.dev.setF (F.TREL_RCTL_LOG2E q r) (bits value 0 4) else s.dev).setF (F.TREL_RCTL_PLOT q r) (bits value 4 9) →
      Effects (.ringEnable q r value) s (fun e =>
        e = ((((((x.setF (F.TREL_RCTL_GEN q r) (x.plotGen (x.f (F.TREL_RCTL_PLOT q r)))).setF (F.TREL_RCTL_STALE q r) 0).setF (F.TREL_RSUB_SUB q r) 0).setF (F.TREL_RACK_ACK q r) 0).setF (F.TREL_RCMP_CMPSEQ q r) 0).setF (F.TREL_RCTL_EN q r) 1))) ∧
    (∀ (s : State) (q r value : Nat), s.live →
      s.dev.quadOk q = true →
      r < 64 →
      s.dev.flag (F.TREL_RCTL_EN q r) = false →
      bit value 21 = false →
      Effects (.ringEnable q r value) s (fun e =>
        e = (if 4 ≤ bits value 0 4 ∧ bits value 0 4 ≤ 12 then s.dev.setF (F.TREL_RCTL_LOG2E q r) (bits value 0 4) else s.dev).setF (F.TREL_RCTL_PLOT q r) (bits value 4 9))) ∧
    (∀ (s : State) (q r value : Nat), s.live →
      s.dev.quadOk q = true →
      r < 64 →
      s.dev.flag (F.TREL_RCTL_EN q r) = true →
      bit value 21 = false →
      Effects (.ringEnable q r value) s (fun e =>
        e = s.dev.setF (F.TREL_RCTL_EN q r) 0)) ∧
    (∀ (s : State) (q r value : Nat), s.live →
      s.dev.quadOk q = true →
      r < 64 →
      s.dev.flag (F.TREL_RCTL_EN q r) = true →
      bit value 21 = true →
      Effects (.ringEnable q r value) s (fun e =>
        e = s.dev)) ∧
    (∀ (s : State) (q r u : Nat) (g : Nat) (x : JobDesc) (rest : List (Nat × JobDesc)) (j : Job), s.live →
      s.dev.quadOk q = true →
      s.dev.underTest q = false →
      (s.dev.startable q).contains r = true →
      g = (s.dev.ringArb q).pick (s.dev.startable q) r →
      takeWait s.dev q g (s.dev.waits q) = some (x, rest) →
      j = s.dev.newJob q g x →
      j.skim = none →
      Effects (.jobStart q r u) s (fun e =>
        ∃ y z : Dev, y = ({ s.dev with trel := { s.dev.trel with arbs := AMap.set ⟨[], []⟩ q ((s.dev.ringArb q).round (s.dev.startable q) g) s.dev.trel.arbs } } : Dev).setWaits q rest ∧
        z = y.setJobs q (y.jobs q ++ [{ j with unit := none }]) ∧
        e = (z.setF (F.TREL_RSTAT_ACTIVE q g) (z.f (F.TREL_RSTAT_ACTIVE q g) + 1)).bump (F.TREL_CNT_COUNT q 0) 0x140 q 1)) ∧
    (∀ (s : State) (q r u : Nat) (g : Nat) (x : JobDesc) (rest : List (Nat × JobDesc)) (j : Job) (p : SkimProg) (w : Dev), s.live →
      s.dev.quadOk q = true →
      s.dev.underTest q = false →
      (s.dev.startable q).contains r = true →
      g = (s.dev.ringArb q).pick (s.dev.startable q) r →
      takeWait s.dev q g (s.dev.waits q) = some (x, rest) →
      j = s.dev.newJob q g x →
      j.skim = some p →
      s.dev.f (F.SKIM_BIND_MODE q u) ≠ 2 →
      u < 8 →
      s.dev.skimTake q u (skimName q j.slot) = some w →
      Effects (.jobStart q r u) s (fun e =>
        ∃ y z : Dev, y = ({ w with trel := { w.trel with arbs := AMap.set ⟨[], []⟩ q ((s.dev.ringArb q).round (s.dev.startable q) g) w.trel.arbs } } : Dev).setWaits q rest ∧
        z = y.setJobs q (y.jobs q ++ [{ j with unit := some u }]) ∧
        e = (z.setF (F.TREL_RSTAT_ACTIVE q g) (z.f (F.TREL_RSTAT_ACTIVE q g) + 1)).bump (F.TREL_CNT_COUNT q 0) 0x140 q 1)) ∧
    (∀ (s : State) (q slot i : Nat) (c0 : CurdIn) (finds : List Finding) (j : Job), s.live →
      s.dev.quadOk q = true →
      s.dev.isolated q = false →
      s.dev.job? q slot = some j →
      i ≠ 0 →
      i < tplStages j.words →
      (i + 1 ≠ tplStages j.words ∨ stageTy j.words i ≠ 0x0B ∨ s.dev.chanHeld (j.desc.outoff + s.dev.outUsed q j) c0.vlen = false) →
      Effects (.curdArrival q slot i c0 finds) s (fun e =>
        (e = if stageTy j.words (i - 1) = 0x0A then
          match (s.dev.inst? j.desc.tag).bind ProgInst.takeOut with
          | none => s.dev
          | some (c, x) => match s.dev.sendCurd q j (i - 1) with
            | (none, y) => y
            | (some _, y) => (y.wakeInst x).takeCurd q slot i c finds
        else if j.work? = some (i - 1) then s.dev.workOut q slot i c0
        else if i = 1 ∧ (stageTy j.words 0 = 1 ∨ stageTy j.words 0 = 2) ∧ s.dev.fencedInput j (j.skip + j.inBytes) c0.vlen = true then s.dev.setJob q (j.note .fenced)
        else match (if i = 1 ∧ stageTy j.words 0 = 0x0E then s.dev.xqTake (c0.src % 4) else some (if i = 1 then s.dev.sourced j c0 else c0, s.dev)) with
          | none => s.dev
          | some (c, y) => match y.sendCurd q j (i - 1) with
            | (none, z) => { z with trel := { z.trel with xq := s.dev.trel.xq } }
            | (some _, z) => z.takeCurd q slot i c (if j.work? = some i then [] else finds)))) ∧
    (∀ (s : State) (q slot stage : Nat) (curd : CurdIn) (finds : List Finding), s.live →
      s.dev.quadOk q = true →
      s.dev.isolated q = false →
      s.dev.job? q slot = none →
      Effects (.curdArrival q slot stage curd finds) s (fun e =>
        e = (s.dev.bump (F.TREL_CNT_COUNT q 5) 0x145 q 1).raise (quadEvent q 1 2) noPlot [])) ∧
    (∀ (s : State) (q slot stage : Nat) (j : Job), s.live →
      s.dev.job? q slot = some j →
      0 < j.usedOn stage →
      Effects (.creditReturn q slot stage) s (fun e =>
        e = s.dev.returnCredit q j stage)) ∧
    (∀ (s : State) (q slot : Nat) (j : Job), s.live →
      s.dev.job? q slot = some j →
      (j.ending = true ∨ j.drained = true) →
      Effects (.jobEnd q slot) s (fun e =>
        e = s.dev.endJob q slot)) ∧
    (∀ (s : State) (q slot : Nat) (j : Job), s.live →
      s.dev.job? q slot = some j →
      j.desc.timeout ≠ 0 →
      j.drained = false →
      Effects (.jobTimeout q slot) s (fun e =>
        e = (s.dev.jobCond q slot .timeout).endJob q slot)) ∧
    (∀ (s : State) (q : Nat) (x : Segment), s.live →
      AMap.find q s.dev.trel.swap = some x →
      ((s.dev.jobs q).any (fun j => s.dev.graftHolds q j.desc.pid) = false) →
      Effects (.segmentSwapped q) s (fun e =>
        ∃ y : Dev, y = { s.dev with trel := { s.dev.trel with swap := AMap.del q s.dev.trel.swap } } ∧ e = ((if y.f F.BRZ_GRAFT_QUAD = q then y.setF F.BRZ_GRAFT_PENDING 0 else y).setSegment q x).raise (quadEvent q 1 3) noPlot []))

/-- A Skim unit takes a unit of the job's input in flight, in position and in range, notes one that is fenced, counts one that is unmapped and filters the rest into a batch; an idle unit is lent or returned; a switch point of Churn or Sieve goes to the engine's turn; an IU of a compressed namespace is compressed into its codewords, or kept plain where it holds marks or poison or does not shrink, and is decompressed and checked again on a read; a CAM search answers by the lowest matching index and counts, for steward code or with the next key of a lookup job; an update command records its operation, sets BUSY, and applies WRITE, INSERT_AT, INSERT_KEY, DELETE or CLEAR, or the status of the first check that fails, and UPDATE_DONE shows its status; a table descriptor is taken while the table is off and disabled once no job uses it. -/
def Obligations.NodesComplete : Prop :=
    (∀ (s : State) (q un slot unitOff : Nat) (data : List Byte) (poison : List Nat) (untrusted unmapped channel : Bool) (src : Nat) (j : Job) (p : SkimProg) (u : SkimIn), s.live →
      s.dev.job? q slot = some j →
      j.skim = some p →
      s.dev.quadOk q = true →
      s.dev.quadOk (un / 8) = true →
      u = s.dev.skimIn q un j unitOff p.unit { data := data, poison := poison, unmapped := unmapped, src := src, onChannel := false } →
      (s.dev.f (F.SKIM_BIND_MODE (un / 8) (un % 8)) = if channel then 0 else 1) →
      (channel = false ∨ (u.onChannel = true ∧ un / 8 = q ∧ j.desc.late = false)) →
      j.ending = false →
      unitOff % p.unit = 0 →
      unitOff + p.unit ≤ j.desc.inlen →
      s.dev.unitInFlight q j p.unit unitOff = true →
      s.dev.fencedInput j unitOff p.unit = true →
      Effects (.skimUnit q un slot unitOff data poison untrusted unmapped channel src) s (fun e =>
        e = s.dev.setJob q (j.note .fenced))) ∧
    (∀ (s : State) (q un slot unitOff : Nat) (data : List Byte) (poison : List Nat) (untrusted unmapped channel : Bool) (src : Nat) (j : Job) (p : SkimProg) (u : SkimIn) (x : Dev), s.live →
      s.dev.job? q slot = some j →
      j.skim = some p →
      s.dev.quadOk q = true →
      s.dev.quadOk (un / 8) = true →
      u = s.dev.skimIn q un j unitOff p.unit { data := data, poison := poison, unmapped := unmapped, src := src, onChannel := false } →
      (s.dev.f (F.SKIM_BIND_MODE (un / 8) (un % 8)) = if channel then 0 else 1) →
      (channel = false ∨ (u.onChannel = true ∧ un / 8 = q ∧ j.desc.late = false)) →
      j.ending = false →
      unitOff % p.unit = 0 →
      unitOff + p.unit ≤ j.desc.inlen →
      s.dev.unitInFlight q j p.unit unitOff = true →
      s.dev.fencedInput j unitOff p.unit = false →
      (u.unmapped = true ∨ u.data.length = p.unit) →
      s.dev.skimTake (un / 8) (un % 8) (skimName q slot) = some x →
      Effects (.skimUnit q un slot unitOff data poison untrusted unmapped channel src) s (fun e =>
        ∃ (k : Job) (y : Dev) (a : UnitRun), k = { (x.unitDone j p.unit unitOff).1 with inBytes := j.inBytes + p.unit } ∧ y = (x.unitDone j p.unit unitOff).2 ∧
        a = ((p.cut u.data u.poison).foldl (fun (a : UnitRun) z => a.piece (un / 8) un p u.data u.poison untrusted unitOff z) { job := k, dev := y.skimCount (un / 8) (if channel = true then 6 else 7) 1, recs := [] }) ∧
        e = if u.unmapped = true then y.setJob q { k with sum := { k.sum with unmapped := k.sum.unmapped + 1 } }
          else match batchOf a.recs unitOff u.src untrusted with
            | none => a.dev.setJob q a.job
            | some b => a.dev.setJob q { a.job with batches := a.job.batches ++ [b] })) ∧
    (∀ (s : State) (q u : Nat) (lent : Bool), s.live →
      s.dev.quadOk q = true →
      u < 8 →
      s.dev.f (F.SKIM_BIND_MODE q u) ≠ 2 →
      (s.dev.skimJobs q u).isEmpty = true →
      (lent = false ∨ s.dev.flag (F.SKIM_BIND_HOLD q u) = false) →
      Effects (.skimRebind q u lent) s (fun e =>
        e = s.dev.setF (F.SKIM_BIND_MODE q u) (Bool.nat lent))) ∧
    (∀ (s : State) (q pipe n : Nat) (ended : Bool), s.live →
      s.dev.quadOk q = true →
      pipe < 2 →
      Effects (.churnJobSwitch q pipe n ended) s (fun e =>
        e = (s.dev.engPoint 2 q pipe n ended (s.dev.f (F.CHURN_CFG_QUANTUM q) * 65536)).2)) ∧
    (∀ (s : State) (q n : Nat) (ended : Bool), s.live →
      s.dev.quadOk q = true →
      Effects (.sieveJobSwitch q n ended) s (fun e =>
        e = (s.dev.engPoint 3 q 0 n ended (s.dev.f (F.SIEVE_CFG_QUANTUM q) * 65536)).2)) ∧
    (∀ (s : State) (q nsid iu : Nat) (n : Ns) (c : Commit) (x : Dev) (slots : List Slot), s.live →
      s.dev.ns? nsid = some n →
      s.dev.liveCommit nsid iu = some c →
      s.dev.quadOk q = true →
      n.comp ≠ 0 →
      x = s.dev.engTakeInternal 2 q 2 0 (iuUser nsid iu) →
      x.iuHas q nsid iu = true →
      (slots = (c.iuSlotsOf n.iuSlots iu).map (fun i => AMap.get ⟨0, 0, 0, false⟩ i s.dev.mram.slots)) →
      (slots.any (fun i => i.poison || i.umask != 0) = false) →
      Effects (.iuCompress q nsid iu) s (fun e =>
        ∃ (k : List Nat) (y z : Dev), k = Fmt.iuPack n.comp (slots.flatMap (fun i => leBytes 4096 i.data)) ∧
        y = { x with ftl := { x.ftl with packed := AMap.put (iuKey nsid iu) k x.ftl.packed } } ∧
        z = (y.bump (F.CHURN_CNT_COUNT q 0) 0x150 q n.iuBytes).bump (F.CHURN_CNT_COUNT q 1) 0x151 q (((Fmt.iuCoded n.comp (slots.flatMap (fun i => leBytes 4096 i.data))).map List.length).getD 0) ∧
        e = (if k.isEmpty = true then z.bump (F.CHURN_CNT_COUNT q 7) 0x157 q 1 else z).engFree 2 q (iuUser nsid iu))) ∧
    (∀ (s : State) (q nsid iu : Nat) (n : Ns) (c : Commit) (x : Dev) (slots : List Slot), s.live →
      s.dev.ns? nsid = some n →
      s.dev.liveCommit nsid iu = some c →
      s.dev.quadOk q = true →
      n.comp ≠ 0 →
      x = s.dev.engTakeInternal 2 q 2 0 (iuUser nsid iu) →
      x.iuHas q nsid iu = true →
      (slots = (c.iuSlotsOf n.iuSlots iu).map (fun i => AMap.get ⟨0, 0, 0, false⟩ i s.dev.mram.slots)) →
      (slots.any (fun i => i.poison || i.umask != 0) = true) →
      Effects (.iuCompress q nsid iu) s (fun e =>
        e = (({ x with ftl := { x.ftl with packed := AMap.put (iuKey nsid iu) [] x.ftl.packed } } : Dev).bump (F.CHURN_CNT_COUNT q 7) 0x157 q 1).engFree 2 q (iuUser nsid iu))) ∧
    (∀ (s : State) (nsid iu : Nat) (n : Ns) (cws : List (Option Cw)) (loc q : Nat) (x y : Dev), s.live →
      s.dev.ns? nsid = some n →
      s.dev.packedAt nsid iu = some loc →
      s.dev.iuGot nsid loc = some cws →
      cws.isEmpty = false →
      q = dieChan (locDie loc) / 8 →
      s.dev.quadOk q = true →
      x = s.dev.engTakeInternal 2 q 3 1 (iuUser nsid iu) →
      x.iuHas q nsid iu = true →
      y = (x.bump (F.CHURN_CNT_COUNT q 2) 0x152 q (4096 * cws.length)).engFree 2 q (iuUser nsid iu) →
      Effects (.iuDecompress nsid iu) s (fun e =>
        (e = if cws.any Option.isNone = true then y.deliverIu n loc none
        else match Fmt.iuOpen n.iuBytes ((cws.filterMap id).map Cw.data) with
          | .ok v => (y.bump (F.CHURN_CNT_COUNT q 3) 0x153 q n.iuBytes).deliverIu n loc (some v)
          | .error (f, off) => (y.iuCorrupt q nsid iu f off).deliverIu n loc none))) ∧
    (∀ (s : State) (q t key : Nat) (poisoned : Bool) (bad : List (Nat × Bool)), s.live →
      s.dev.quadOk q = true →
      s.dev.tblEn q t = true →
      Effects (.camSearch q t key poisoned none bad) s (fun e =>
        ∃ (y z : Dev) (x : CamHit), y = (if poisoned = true then s.dev else s.dev.camRestore q t bad) ∧
        x = (if poisoned = true then { index := 0xFFFFFFFF, result := 0, count := 0, multi := false, hit := false, poisoned := true }
          else { y.camLookup q t (key % 2 ^ 160) with poisoned := bad.any (fun b => b.2 && (AMap.find b.1 (s.dev.sieve q).cam).isSome && s.dev.tblIn q t b.1) }) ∧
        z = (if x.multi = true then (if poisoned = true then y else y.bump (F.SIEVE_CNT_COUNT q 2) 0x15A q 1).bump (F.SIEVE_CNT_COUNT q 3) 0x15B q 1 else if poisoned = true then y else y.bump (F.SIEVE_CNT_COUNT q 2) 0x15A q 1) ∧
        e = z.setSieve q { z.sieve q with reply := some x })) ∧
    (∀ (s : State) (q t key : Nat) (poisoned : Bool) (slot : Nat) (bad : List (Nat × Bool)) (j : Job) (k : Nat) (m : Bool), s.live →
      s.dev.quadOk q = true →
      s.dev.tblEn q t = true →
      s.dev.job? q slot = some j →
      j.desc.prog = 8 →
      j.par 64 2 = 256 * q + t →
      j.ending = false →
      s.dev.nextKey j (s.dev.f (F.SIEVE_TBL_KEYW q t)) key poisoned = some (k, m) →
      Effects (.camSearch q t key poisoned (some slot) bad) s (fun e =>
        e = s.dev.camFind q t k m (some j.slot) bad)) ∧
    (∀ (s : State) (q t index : Nat), s.live →
      s.dev.quadOk q = true →
      t < 256 →
      s.dev.flag (F.SIEVE_URES_BUSY q) = false →
      Effects (.camWrite q t index) s (fun e =>
        ∃ (x y : Dev) (k : CamRes), x = ((((s.dev.setF (F.SIEVE_UCMD_OP q) 0).setF (F.SIEVE_UCMD_REPLACE q) 0).setF (F.SIEVE_UCMD_TABLE q) t).setF (F.SIEVE_UCMD_INDEX q) index).setF (F.SIEVE_URES_BUSY q) 1 ∧
        k = (if ¬s.dev.tblEn q t = true then ({ status := 3, index := none, cam := (x.sieve q).cam, writes := 0 } : CamRes) else if (!s.dev.tblIn q t index) = true then ({ status := 2, index := none, cam := (x.sieve q).cam, writes := 0 } : CamRes) else ({ status := 0, index := some index, cam := AMap.put index (s.dev.camEntry q t) (x.sieve q).cam, writes := 1 } : CamRes)) ∧
        y = x.camApply q t k ∧ e = y.setSieve q { y.sieve q with upd := some (k.status, k.index.getD (s.dev.f (F.SIEVE_URES_INDEX q))) })) ∧
    (∀ (s : State) (q t index : Nat), s.live →
      s.dev.quadOk q = true →
      t < 256 →
      s.dev.flag (F.SIEVE_URES_BUSY q) = false →
      Effects (.insertAt q t index) s (fun e =>
        ∃ (x y : Dev) (k : CamRes), x = ((((s.dev.setF (F.SIEVE_UCMD_OP q) 1).setF (F.SIEVE_UCMD_REPLACE q) 0).setF (F.SIEVE_UCMD_TABLE q) t).setF (F.SIEVE_UCMD_INDEX q) index).setF (F.SIEVE_URES_BUSY q) 1 ∧
        k = (if ¬s.dev.tblEn q t = true then ({ status := 3, index := none, cam := (x.sieve q).cam, writes := 0 } : CamRes) else if ¬(s.dev.f (F.SIEVE_TBL_CLASS q t) == 0) = true then ({ status := 4, index := none, cam := (x.sieve q).cam, writes := 0 } : CamRes) else if (!s.dev.tblIn q t index) = true then ({ status := 2, index := none, cam := (x.sieve q).cam, writes := 0 } : CamRes) else camInsertAt (x.sieve q).cam (s.dev.tblBase q t) (s.dev.tblSize q t) index (s.dev.camEntry q t)) ∧
        y = x.camApply q t k ∧ e = y.setSieve q { y.sieve q with upd := some (k.status, k.index.getD (s.dev.f (F.SIEVE_URES_INDEX q))) })) ∧
    (∀ (s : State) (q t : Nat) (replace : Bool), s.live →
      s.dev.quadOk q = true →
      t < 256 →
      s.dev.flag (F.SIEVE_URES_BUSY q) = false →
      Effects (.insertKey q t replace) s (fun e =>
        ∃ (x y : Dev) (k : CamRes), x = ((((s.dev.setF (F.SIEVE_UCMD_OP q) 2).setF (F.SIEVE_UCMD_REPLACE q) (Bool.nat replace)).setF (F.SIEVE_UCMD_TABLE q) t).setF (F.SIEVE_UCMD_INDEX q) (s.dev.f (F.SIEVE_UCMD_INDEX q))).setF (F.SIEVE_URES_BUSY q) 1 ∧
        k = (if ¬s.dev.tblEn q t = true then ({ status := 3, index := none, cam := (x.sieve q).cam, writes := 0 } : CamRes) else if ¬(s.dev.f (F.SIEVE_TBL_CLASS q t) == 1) = true then ({ status := 4, index := none, cam := (x.sieve q).cam, writes := 0 } : CamRes) else camInsertKey (x.sieve q).cam (s.dev.tblBase q t) (s.dev.tblSize q t) (s.dev.camEntry q t) replace) ∧
        y = x.camApply q t k ∧ e = y.setSieve q { y.sieve q with upd := some (k.status, k.index.getD (s.dev.f (F.SIEVE_URES_INDEX q))) })) ∧
    (∀ (s : State) (q t index : Nat), s.live →
      s.dev.quadOk q = true →
      t < 256 →
      s.dev.flag (F.SIEVE_URES_BUSY q) = false →
      Effects (.camDelete q t index) s (fun e =>
        ∃ (x y : Dev) (k : CamRes), x = ((((s.dev.setF (F.SIEVE_UCMD_OP q) 3).setF (F.SIEVE_UCMD_REPLACE q) 0).setF (F.SIEVE_UCMD_TABLE q) t).setF (F.SIEVE_UCMD_INDEX q) index).setF (F.SIEVE_URES_BUSY q) 1 ∧
        k = (if ¬s.dev.tblEn q t = true then ({ status := 3, index := none, cam := (x.sieve q).cam, writes := 0 } : CamRes) else if (!s.dev.tblIn q t index) = true then ({ status := 2, index := none, cam := (x.sieve q).cam, writes := 0 } : CamRes) else camDeleteAt (x.sieve q).cam (s.dev.tblBase q t) index (s.dev.f (F.SIEVE_TBL_CLASS q t) == 1)) ∧
        y = x.camApply q t k ∧ e = y.setSieve q { y.sieve q with upd := some (k.status, k.index.getD (s.dev.f (F.SIEVE_URES_INDEX q))) })) ∧
    (∀ (s : State) (q t : Nat), s.live →
      s.dev.quadOk q = true →
      t < 256 →
      s.dev.flag (F.SIEVE_URES_BUSY q) = false →
      Effects (.clearTable q t) s (fun e =>
        ∃ (x y : Dev) (k : CamRes), x = ((((s.dev.setF (F.SIEVE_UCMD_OP q) 4).setF (F.SIEVE_UCMD_REPLACE q) 0).setF (F.SIEVE_UCMD_TABLE q) t).setF (F.SIEVE_UCMD_INDEX q) (s.dev.f (F.SIEVE_UCMD_INDEX q))).setF (F.SIEVE_URES_BUSY q) 1 ∧
        k = (if ¬s.dev.tblEn q t = true then ({ status := 3, index := none, cam := (x.sieve q).cam, writes := 0 } : CamRes) else camCleared (x.sieve q).cam (s.dev.tblBase q t) (s.dev.tblSize q t)) ∧
        y = x.camApply q t k ∧ e = y.setSieve q { y.sieve q with upd := some (k.status, k.index.getD (s.dev.f (F.SIEVE_URES_INDEX q))) })) ∧
    (∀ (s : State) (q : Nat) (st i : Nat), s.live →
      (s.dev.sieve q).upd = some (st, i) →
      Effects (.updateDone q) s (fun e =>
        ∃ x y : Dev, x = s.dev.setSieve q { s.dev.sieve q with upd := none } ∧ y = (((x.setF (F.SIEVE_URES_BUSY q) 0).setF (F.SIEVE_URES_DONE q) 1).setF (F.SIEVE_URES_STATUS q) st).setF (F.SIEVE_URES_INDEX q) i ∧
        e = (if st = 1 then y.raise (quadEvent q 3 2) noPlot [] else y).raise (quadEvent q 3 3) noPlot [])) ∧
    (∀ (s : State) (q t value : Nat) (x : Dev), s.live →
      s.dev.quadOk q = true →
      t < 256 →
      s.dev.tblEn q t = false →
      x = ((((s.dev.setF (F.SIEVE_TBL_BASE q t) (bits value 0 16)).setF (F.SIEVE_TBL_SIZE q t) (bits value 16 17)).setF (F.SIEVE_TBL_CLASS q t) (bits value 33 1)).setF (F.SIEVE_TBL_KEYW q t) (bits value 34 5)).setF (F.SIEVE_TBL_PLOT q t) (bits value 40 9) →
      Effects (.sieveTblWrite q t value) s (fun e =>
        e = if bit value 63 && x.tblFit q t then (x.setF (F.SIEVE_TBL_EN q t) 1).tblShow q t else x)) ∧
    (∀ (s : State) (q t value : Nat), s.live →
      s.dev.quadOk q = true →
      t < 256 →
      s.dev.tblEn q t = true →
      bit value 63 = false →
      Effects (.sieveTblWrite q t value) s (fun e =>
        e = if s.dev.tblUsed q t then s.dev.setSieve q { s.dev.sieve q with closing := NSet.add t (s.dev.sieve q).closing } else s.dev.setF (F.SIEVE_TBL_EN q t) 0)) ∧
    (∀ (s : State) (q t value : Nat), s.live →
      s.dev.quadOk q = true →
      t < 256 →
      s.dev.tblEn q t = true →
      bit value 63 = true →
      Effects (.sieveTblWrite q t value) s (fun e =>
        e = s.dev))

/-- A key is derived for an XTS lane or for a job's own purpose, refused to another purpose, and where none can be given the job ends EPOCH_EXHAUSTED; a key whose lease is spent gets the next 65,536 values of its counter, or its users are refused; the next decrypted message's tag is checked once all but its held curd has been sent, and a poisoned one, or one that differs, marks the job AUTH_FAIL and untrusted from there; a switch point goes to the engine's turn; a session opens with its results cleared where a context is free, takes its key for an HMAC, takes bytes while OPEN and errs otherwise or on poison, finishes, aborts, times out, gives its digest and is compared with the expected one. -/
def Obligations.CipherAndDigestComplete : Prop :=
    (∀ (s : State) (q ch nsid slot purpose : Nat) (n : Ns), s.live →
      s.dev.quadOk q = true →
      s.dev.ns? nsid = some n →
      Effects (.keyDerivation q (some (ch, nsid)) slot purpose) s (fun e =>
        e = (s.dev.getKey q { purpose := 1, plot := 0, nsid := nsid, epoch := n.epoch, ulabel := 0 } 0 (.lane ch nsid)).2)) ∧
    (∀ (s : State) (q slot purpose : Nat) (j : Job), s.live →
      s.dev.quadOk q = true →
      s.dev.job? q slot = some j →
      (j.purpose = 0 ∨ j.purpose ≠ purpose) →
      Effects (.keyDerivation q none slot purpose) s (fun e =>
        e = (s.dev.jobCond q slot .badDesc).ciphErr q Js.badDesc.code slot)) ∧
    (∀ (s : State) (q slot purpose : Nat) (j : Job), s.live →
      s.dev.quadOk q = true →
      s.dev.job? q slot = some j →
      j.purpose ≠ 0 →
      j.purpose = purpose →
      Effects (.keyDerivation q none slot purpose) s (fun e =>
        (e = match s.dev.getKey q j.label (j.par 64 1) (.job slot) with
        | (some _, y) => y
        | (none, y) => ((y.jobCond q slot .epochExhausted).ciphErr q Js.epochExhausted.code slot).bump (F.CIPH_CNT_COUNT q 7) 0x167 q 1))) ∧
    (∀ (s : State) (q idx : Nat) (k : KeySlot) (t : List GcmEnt) (l : Nat × Nat), s.live →
      ((s.dev.keySlots q).find? (fun k => k.idx == idx) = some k) →
      k.label.purpose = 3 →
      (match k.lease with
        | none => true
        | some l => decide (l.2 ≤ l.1)) = true →
      gcmRequest s.dev.gcm k.label.plot k.label.ulabel k.label.epoch = (t, .ok l) →
      Effects (.gcmLease q idx) s (fun e =>
        e = ({ s.dev with gcm := t } : Dev).setKeySlots q ((s.dev.keySlots q).map (fun x => if x.idx == idx then { x with lease := some l } else x)))) ∧
    (∀ (s : State) (q idx : Nat) (k : KeySlot) (t : List GcmEnt) (c : Nat), s.live →
      ((s.dev.keySlots q).find? (fun k => k.idx == idx) = some k) →
      k.label.purpose = 3 →
      (match k.lease with
        | none => true
        | some l => decide (l.2 ≤ l.1)) = true →
      gcmRequest s.dev.gcm k.label.plot k.label.ulabel k.label.epoch = (t, .error c) →
      Effects (.gcmLease q idx) s (fun e =>
        e = ((s.dev.refuseUsers q k).bump (F.CIPH_CNT_COUNT q 7) 0x167 q 1).raise (quadEvent q 4 2) noPlot [k.label.purpose, k.label.plot, c])) ∧
    (∀ (t : List GcmEnt) (plot ulabel epoch : Nat) (x : GcmEnt),
      t.find? (fun y => y.plot == plot && y.ulabel == ulabel) = some x → x.epoch = epoch → x.next + leaseMax ≤ 2 ^ 64 →
      gcmRequest t plot ulabel epoch = (t.filter (fun y => !(y.plot == plot && y.ulabel == ulabel)) ++ [{ x with next := x.next + leaseMax }], .ok (x.next, x.next + leaseMax))) ∧
    (∀ (s : State) (q slot : Nat) (j : Job) (done : List OutUnit) (o len : Nat) (m : OutRec), s.live →
      s.dev.job? q slot = some j →
      j.purpose = 3 →
      j.par 65 1 = 1 →
      (s.dev.jobKey q j).isSome = true →
      done = (s.dev.product q j).units.take j.feed.checked →
      o = (done.map OutUnit.size).sum →
      (gcmMsg j.feed.inp ((done.map (fun u => u.size + 40)).sum) (j.desc.inlen - j.skip - (done.map (fun u => u.size + 40)).sum) = some (len, m)) →
      len + 40 ≤ m.length →
      41 ≤ m.length →
      o + heldFrom len ≤ j.feed.sent →
      Effects (.gcmTagCheck q slot) s (fun e =>
        ∃ x y : Job, x = { j with feed := { j.feed with checked := j.feed.checked + 1 } } ∧
        y = (if foul m = true then x.note .poison else x).note .authFail ∧
        e = if foul m = false ∧ gcmTagOk (toNats (s.dev.keyOf j.label 0)) len m = true then s.dev.setJob q x
          else if foul m = true then s.dev.setJob q { y with tainted := true, untrustedAt := some (y.untrustedAt.getD (o + heldFrom len)) }
          else ((s.dev.setJob q { y with tainted := true, untrustedAt := some (y.untrustedAt.getD (o + heldFrom len)) }).bump (F.CIPH_CNT_COUNT q 3) 0x163 q 1).raise (quadEvent q 4 0) noPlot [])) ∧
    (∀ (s : State) (q n : Nat) (ended : Bool), s.live →
      s.dev.quadOk q = true →
      Effects (.engineSwitch q true n ended) s (fun e =>
        e = (s.dev.engPoint 1 q 0 n ended 65536).2)) ∧
    (∀ (s : State) (q n : Nat) (ended : Bool), s.live →
      s.dev.quadOk q = true →
      Effects (.engineSwitch q false n ended) s (fun e =>
        e = if (s.dev.engPoint 0 q 0 n ended 65536).1 then (s.dev.engPoint 0 q 0 n ended 65536).2.bump (F.CIPH_CNT_COUNT q 6) 0x166 q 1 else (s.dev.engPoint 0 q 0 n ended 65536).2)) ∧
    (∀ (s : State) (q s_ plot : Nat) (x : Dev), s.live →
      s.dev.quadOk q = true →
      s_ < 8 →
      s.dev.sesState q s_ ≠ 1 →
      s.dev.sesState q s_ ≠ 2 →
      (x = ((((((List.range 8).foldl (fun (y : Dev) i => (y.setF (F.DGST_RES_DIGEST q s_ i) 0).setF (F.DGST_EXP_DIGEST q s_ i) 0) s.dev).setF (F.DGST_SLEN_BYTES q s_) 0).setF (F.DGST_SSTAT_PLOT q s_) plot).setF (F.DGST_SSTAT_ERR q s_) 0).setF (F.DGST_CMP_MATCH q s_) 0).setF (F.DGST_CMP_MATCH_N q s_) 0) →
      Effects (.dgstOpen q s_ plot) s (fun e =>
        ∃ z : Dev → Dev, z = (fun (y : Dev) => ((y.setSes q s_ { DgstSes.init with at_ := y.now }).setSesState q s_ 1).bump (F.DGST_CNT_COUNT q 3) 0x16B q 1) ∧
        e = match (match x.engTake 1 q plot (x.f (F.DGST_SCTL_URG q s_)) 0 (.session s_) with
            | some y => some y
            | none => if plot = steward then some (x.engTakeInternal 1 q (x.f (F.DGST_SCTL_URG q s_)) 0 (.session s_)) else none) with
          | none => (x.sesError q s_ 1).raise (ctxEvent 1 q) noPlot []
          | some y => if s.dev.f (F.DGST_SCTL_ALG q s_) < 3 then z y
              else match (z y).getKey q { purpose := 6, plot := plot, nsid := 0, epoch := (z y).f (F.DGST_SEPOCH_EPOCH q s_), ulabel := (z y).f (F.DGST_SLABEL_ULABEL q s_) } (s.dev.f (F.DGST_SCTL_ALG q s_)) (.session s_) with
                | (some i, w) => w.setSes q s_ { DgstSes.init with at_ := y.now, key := some i }
                | (none, w) => w.sesError q s_ 6)) ∧
    (∀ (s : State) (q s_ plot word : Nat), s.live →
      s.dev.quadOk q = true →
      s_ < 8 →
      s.dev.sesOwner q s_ plot = true →
      s.dev.sesState q s_ = 1 →
      Effects (.dgstData q s_ plot word false) s (fun e =>
        e = (s.dev.setSes q s_ { s.dev.ses q s_ with msg := (s.dev.ses q s_).msg ++ leBytes 8 word, at_ := s.dev.now, written := true }).setF (F.DGST_SLEN_BYTES q s_) ((s.dev.ses q s_).msg.length + (leBytes 8 word).length))) ∧
    (∀ (s : State) (q s_ plot word : Nat), s.live →
      s.dev.quadOk q = true →
      s_ < 8 →
      s.dev.sesOwner q s_ plot = true →
      s.dev.sesState q s_ = 1 →
      Effects (.dgstData q s_ plot word true) s (fun e =>
        e = (s.dev.setSes q s_ { s.dev.ses q s_ with poisoned := true }).sesError q s_ 3)) ∧
    (∀ (s : State) (q s_ plot word : Nat) (poisoned : Bool), s.live →
      s.dev.quadOk q = true →
      s_ < 8 →
      s.dev.sesOwner q s_ plot = true →
      s.dev.sesState q s_ ≠ 1 →
      Effects (.dgstData q s_ plot word poisoned) s (fun e =>
        e = s.dev.sesError q s_ 2)) ∧
    (∀ (s : State) (q s_ n plot word : Nat), s.live →
      s.dev.quadOk q = true →
      s_ < 8 →
      1 ≤ n →
      n ≤ 8 →
      s.dev.sesOwner q s_ plot = true →
      s.dev.sesState q s_ = 1 →
      Effects (.dgstLast q s_ n plot word false) s (fun e =>
        e = ((s.dev.setSes q s_ { s.dev.ses q s_ with msg := (s.dev.ses q s_).msg ++ leBytes n word, at_ := s.dev.now, written := true }).setF (F.DGST_SLEN_BYTES q s_) ((s.dev.ses q s_).msg.length + (leBytes n word).length)).setSesState q s_ 2)) ∧
    (∀ (s : State) (q s_ n plot word : Nat), s.live →
      s.dev.quadOk q = true →
      s_ < 8 →
      1 ≤ n →
      n ≤ 8 →
      s.dev.sesOwner q s_ plot = true →
      s.dev.sesState q s_ = 1 →
      Effects (.dgstLast q s_ n plot word true) s (fun e =>
        e = (s.dev.setSes q s_ { s.dev.ses q s_ with poisoned := true }).sesError q s_ 3)) ∧
    (∀ (s : State) (q s_ n plot word : Nat) (poisoned : Bool), s.live →
      s.dev.quadOk q = true →
      s_ < 8 →
      1 ≤ n →
      n ≤ 8 →
      s.dev.sesOwner q s_ plot = true →
      s.dev.sesState q s_ ≠ 1 →
      Effects (.dgstLast q s_ n plot word poisoned) s (fun e =>
        e = s.dev.sesError q s_ 2)) ∧
    (∀ (s : State) (q s_ plot : Nat), s.live →
      s.dev.quadOk q = true →
      s_ < 8 →
      s.dev.sesOwner q s_ plot = true →
      s.dev.sesState q s_ = 1 →
      (s.dev.ses q s_).written = false →
      Effects (.dgstFin0 q s_ plot) s (fun e =>
        e = s.dev.setSesState q s_ 2)) ∧
    (∀ (s : State) (q s_ plot : Nat), s.live →
      s.dev.quadOk q = true →
      s_ < 8 →
      s.dev.sesOwner q s_ plot = true →
      (s.dev.sesState q s_ = 1 ∨ s.dev.sesState q s_ = 2) →
      Effects (.dgstAbort q s_ plot) s (fun e =>
        e = s.dev.sesError q s_ 5)) ∧
    (∀ (s : State) (q s_ : Nat) (fault : Bool), s.live →
      s.dev.quadOk q = true →
      s_ < 8 →
      s.dev.sesState q s_ = 2 →
      Effects (.dgstDigestDone q s_ fault) s (fun e =>
        ∃ x y : Dev, x = (List.range 8).foldl (fun (z : Dev) i => z.setF (F.DGST_RES_DIGEST q s_ i) (leNat (((s.dev.sesDigest q s_).drop (8 * i)).take 8))) s.dev ∧
        y = (x.bump (F.DGST_CNT_COUNT q 0) 0x168 q (s.dev.ses q s_).msg.length).bump (F.DGST_CNT_COUNT q (if s.dev.f (F.DGST_SCTL_ALG q s_) < 3 then 1 else 2)) (if s.dev.f (F.DGST_SCTL_ALG q s_) < 3 then 0x169 else 0x16A) q 1 ∧
        e = ((y.setSesState q s_ 3).sesFree q s_).sesCompare q s_ fault)) ∧
    (∀ (s : State) (q s_ : Nat), s.live →
      s.dev.quadOk q = true →
      s_ < 8 →
      s.dev.sesState q s_ = 1 →
      Effects (.dgstIdleTimeout q s_) s (fun e =>
        e = s.dev.sesError q s_ 4)) ∧
    (∀ (s : State) (q s_ i plot value : Nat) (fault : Bool) (x : Dev), s.live →
      s.dev.quadOk q = true →
      s_ < 8 →
      i < 8 →
      s.dev.sesOwner q s_ plot = true →
      x = s.dev.setF (F.DGST_EXP_DIGEST q s_ i) value →
      Effects (.dgstExpWrite q s_ i plot value fault) s (fun e =>
        e = if x.sesState q s_ = 3 then x.sesCompare q s_ fault else x))

/-- A free field core takes the runnable program that is next; a quantum's end in a delay slot or in Halward's code waits, and otherwise the program is charged and leaves where its plot is over its cap, another plot is next or its own plot has a runnable program; SVC 0 ends the program, SVC 1 ends the quantum and SVC 2 returns from a delegated trap or, with none, ends it; PIN_TAIL and POUT_TAIL move their tails within what has been delivered and written, and trap PORT otherwise; the time limit ends it. -/
def Obligations.ProgramsComplete : Prop :=
    (∀ (s : State) (c : Nat) (x : ProgInst), s.live →
      fieldCore c = true →
      s.dev.quadOk (c / 8) = true →
      s.dev.underTest (c / 8) = false →
      (s.dev.coreState c = 0 ∨ s.dev.coreState c = 3) →
      (s.dev.cpu c).prog = none →
      (s.dev.cpu c).halted = false →
      s.dev.nextProg (c / 8) = some x →
      Effects (.programDispatch c) s (fun e =>
        e = (s.dev.coreRound x.quad x.plot).putProg c x)) ∧
    (∀ (s : State) (c : Nat), s.live →
      fieldCore c = true →
      (s.dev.progOn c).isSome = true →
      ((s.dev.cpu c).delay.isSome = true ∨ (s.dev.cpu c).prv = true) →
      Effects (.quantumEnd c) s (fun e =>
        e = s.dev.setCpu c { s.dev.cpu c with preempt := true })) ∧
    (∀ (s : State) (c : Nat) (x : ProgInst) (w y : Dev), s.live →
      fieldCore c = true →
      (s.dev.cpu c).delay = none →
      (s.dev.cpu c).prv = false →
      w = s.dev.setCpu c { s.dev.cpu c with preempt := false } →
      w.progOn c = some x →
      y = w.chargeProg x →
      Effects (.quantumEnd c) s (fun e =>
        (e = if y.f (F.PLOT_FCORE_CAP x.plot) < y.onCores x.plot ∨ y.corePlot x.quad (y.runnable x.quad ++ [x]) ≠ x.plot ∨ (y.runnable x.quad).any (fun v => v.plot == x.plot) = true
          then match y.inst? x.tag with
            | some z => (y.offCore c z true).grantCore c
            | none => y
          else y.coreRound x.quad x.plot))) ∧
    (∀ (s : State) (c : Nat) (x : ProgInst), s.live →
      s.dev.atP c = some x →
      Effects (.programExit c) s (fun e =>
        e = (s.dev.svcEntry c 0).endProg x.tag { js := .ok, cause := 0, bits := 0, core := c % 8, val := ((s.dev.cpu c).reg 4).toNat, pc := (s.dev.cpu c).pc.toNat, fl := (s.dev.cpu c).fl.toNat })) ∧
    (∀ (s : State) (c : Nat) (x : ProgInst), s.live →
      s.dev.atP c = some x →
      Effects (.yield c) s (fun e =>
        e = ((s.dev.svcEntry c 1).svcReturn c).quantumEnd c)) ∧
    (∀ (s : State) (c : Nat) (x : ProgInst), s.live →
      s.dev.atP c = some x →
      x.inTrap = false →
      Effects (.resume c) s (fun e =>
        e = (s.dev.svcEntry c 2).trapEnd c x 9)) ∧
    (∀ (s : State) (c : Nat) (x : ProgInst), s.live →
      s.dev.atP c = some x →
      x.inTrap = true →
      Effects (.resume c) s (fun e =>
        ∃ y z : Dev, y = s.dev.svcEntry c 2 ∧ z = y.setCpu c { y.cpu c with tpc := BitVec.ofNat 64 (leNat ((y.cpu c).tcm.bytes (trapFrame + 8) 8)), tfl := BitVec.ofNat 64 (leNat ((y.cpu c).tcm.bytes (trapFrame + 24) 8)) &&& 0x1011F#64, tcm := (y.cpu c).tcm.setBytes (trapFrame + 32) (leBytes 4 0) } ∧
        e = (z.setInst { x with inTrap := false }).svcReturn c)) ∧
    (∀ (s : State) (c t : Nat) (x : ProgInst) (n : Nat) (z : ProgInst) (y : Dev), s.live →
      s.dev.atP c = some x →
      n = seqDist (t % 2 ^ 32) x.pinTail →
      1 ≤ n →
      n ≤ seqDist x.pinHead x.pinTail →
      (z = { x with pinTail := t % 2 ^ 32, inCurds := x.inCurds.filter (fun c => !decide (seqDist c.1 x.pinTail < n)) }) →
      y = (s.dev.setInst z).pinCredit z n →
      Effects (.pinTail c t) s (fun e =>
        e = y.setCpu c { y.cpu c with pc := (y.cpu c).pc + 4#64, delay := none })) ∧
    (∀ (s : State) (c t : Nat) (x : ProgInst) (n : Nat), s.live →
      s.dev.atP c = some x →
      n = seqDist (t % 2 ^ 32) x.pinTail →
      (n = 0 ∨ seqDist x.pinHead x.pinTail < n) →
      Effects (.pinTail c t) s (fun e =>
        e = s.dev.trap c 0xC 2 0x801F004 (s.dev.cpu c).pc.toNat false (s.dev.cpu c).delay.isSome)) ∧
    (∀ (s : State) (c t : Nat) (x : ProgInst) (n : Nat) (ws : List Nat) (y : Dev), s.live →
      s.dev.atP c = some x →
      n = seqDist (t % 2 ^ 32) x.poutTail →
      (ws = (List.range (min n 16)).map (fun i => leNat (x.out.bytes ((x.poutTail + i) % 16 * 0x200 + 0x100) 8))) →
      1 ≤ n →
      n ≤ 16 →
      seqDist (t % 2 ^ 32) x.poutHead ≤ 16 →
      ws.all poutOk = true →
      x.outLast = false →
      (ws.dropLast.all (fun w => !bit w 10) = true) →
      (y = s.dev.setInst { x with poutTail := t % 2 ^ 32, outLast := (ws.getLast?).any (fun w => bit w 10) }) →
      Effects (.poutTail c t) s (fun e =>
        e = y.setCpu c { y.cpu c with pc := (y.cpu c).pc + 4#64, delay := none })) ∧
    (∀ (s : State) (c t : Nat) (x : ProgInst) (n : Nat) (ws : List Nat), s.live →
      s.dev.atP c = some x →
      n = seqDist (t % 2 ^ 32) x.poutTail →
      (ws = (List.range (min n 16)).map (fun i => leNat (x.out.bytes ((x.poutTail + i) % 16 * 0x200 + 0x100) 8))) →
      (n = 0 ∨ 16 < n ∨ 16 < seqDist (t % 2 ^ 32) x.poutHead ∨ ws.all poutOk = false ∨ x.outLast = true ∨ ws.dropLast.all (fun w => !bit w 10) = false) →
      Effects (.poutTail c t) s (fun e =>
        e = s.dev.trap c 0xC 2 0x801F008 (s.dev.cpu c).pc.toNat false (s.dev.cpu c).delay.isSome)) ∧
    (∀ (s : State) (tag : Nat) (x : ProgInst), s.live →
      s.dev.inst? tag = some x →
      x.launch.timeout ≠ 0 →
      x.started.isSome = true →
      Effects (.programTimeout tag) s (fun e =>
        e = s.dev.endProg tag { js := .timeout, cause := 0, bits := 0, core := x.core.getD 0 % 8, val := if x.core.isSome then (s.dev.cpu (x.core.getD 0)).tval.toNat else 0, pc := if x.core.isSome then (s.dev.cpu (x.core.getD 0)).pc.toNat else 0, fl := if x.core.isSome then (s.dev.cpu (x.core.getD 0)).fl.toNat else 0 }))

/-- A scheduling step queues what has come, switches draining at its levels, marks what is throttled, and issues the request that is chosen, reading the burst of a partial write first; a burst read is decoded, merged with the writes ahead of it and delivered; MR4 readings, refreshes, the activation window, drift, frequency change, CA parity replay, scrub and idle pages do their part; an error that the array corrects, or a clean cache line that is read again, is counted, and an uncorrectable one poisons and is reported, or for MRAM loses its block; requests are served per pool, a handle is freed by its owner or the manager and else refused by its cause, and the cache is refilled or drained between its levels. -/
def Obligations.MemoryAndPoolsComplete : Prop :=
    (∀ (s : State) (q sub : Nat) (arrivals : List MemReq) (elapsed : Nat) (errs : List Nat), s.live →
      sub < 2 →
      s.dev.quadOk q = true →
      s.dev.mcRuns q = false →
      Effects (.memcSchedule q sub arrivals elapsed errs) s (fun e =>
        ∃ (rq wq : List DReq) (dr : Bool), rq = (((s.dev.mc q).sub sub).rq.map (fun (z : DReq) => { z with waited := z.waited + elapsed }) ++ ((arrivals.filter (fun (z : MemReq) => mcSub z.addr == sub)).map toReq).filter (fun (z : DReq) => !z.write)).take 64 ∧
        wq = (((s.dev.mc q).sub sub).wq.map (fun (z : DReq) => { z with waited := z.waited + elapsed }) ++ ((arrivals.filter (fun (z : MemReq) => mcSub z.addr == sub)).map toReq).filter (fun (z : DReq) => z.write)).take 64 ∧
        dr = (if s.dev.f (F.MEMC_SCHED_WRHI q) < wq.length then true else if wq.length < s.dev.f (F.MEMC_SCHED_WRLO q) then false else ((s.dev.mc q).sub sub).draining) ∧
        e = s.dev.setMc q ((s.dev.mc q).setSub sub { (s.dev.mc q).sub sub with rq := rq, wq := wq, draining := dr }))) ∧
    (∀ (s : State) (q sub : Nat) (arrivals : List MemReq) (elapsed : Nat) (errs : List Nat), s.live →
      sub < 2 →
      s.dev.quadOk q = true →
      s.dev.mcRuns q = true →
      Effects (.memcSchedule q sub arrivals elapsed errs) s (fun e =>
        ∃ (rq wq : List DReq) (dr : Bool) (x : Dev) (c : DSub) (y : Dev) (open_ : List DReq), rq = (((s.dev.mc q).sub sub).rq.map (fun (z : DReq) => { z with waited := z.waited + elapsed }) ++ ((arrivals.filter (fun (z : MemReq) => mcSub z.addr == sub)).map toReq).filter (fun (z : DReq) => !z.write)).take 64 ∧
        wq = (((s.dev.mc q).sub sub).wq.map (fun (z : DReq) => { z with waited := z.waited + elapsed }) ++ ((arrivals.filter (fun (z : MemReq) => mcSub z.addr == sub)).map toReq).filter (fun (z : DReq) => z.write)).take 64 ∧
        dr = (if s.dev.f (F.MEMC_SCHED_WRHI q) < wq.length then true else if wq.length < s.dev.f (F.MEMC_SCHED_WRLO q) then false else ((s.dev.mc q).sub sub).draining) ∧
        x = s.dev.setMc q ((s.dev.mc q).setSub sub { (s.dev.mc q).sub sub with rq := rq, wq := wq, draining := dr }) ∧
        c = { (s.dev.mc q).sub sub with rq := rq.map (fun r => if x.mcThrottled q r = true then { r with thr := true } else r), wq := wq.map (fun r => if x.mcThrottled q r = true then { r with thr := true } else r), draining := dr } ∧
        y = (x.setMc q ((x.mc q).setSub sub c)).mcCount q 5 ((rq ++ wq).filter (fun r => x.mcThrottled q r && !r.thr)).length ∧
        open_ = (c.rq ++ c.wq).filter (fun r => !x.mcThrottled q r) ∧
        e = match y.mcChoose q (if ((dr || c.rq.isEmpty) && !(c.wq.filter (fun r => !x.mcThrottled q r)).isEmpty) = true then c.wq.filter (fun r => !x.mcThrottled q r) else c.rq.filter (fun r => !x.mcThrottled q r)) open_ c.arb with
          | none => y
          | some r =>
            let z := y.setMc q ((y.mc q).setSub sub { c with arb := c.arb.round (open_.map (fun v => v.id)) r.id })
            let w := if r.write = true ∧ r.mask % 2 ^ 64 ≠ 2 ^ 64 - 1 then ((z.mcDecode q r.addr errs).2).mcCount q 0 1 else z
            let a := (w.mcIssue q sub r).finjItem 4 q 0
            if a.1 = true then (a.2.setMc q ((a.2.mc q).replayRows (s.dev.mcRanks q) (mcRank (s.dev.mcRanks q) r.addr) ((a.2.mc q).retry.drop ((a.2.mc q).retry.length - 1)))).mcReplay q else a.2)) ∧
    (∀ (s : State) (q id : Nat) (errs : List Nat) (slm : Option (Nat × Nat)) (x : DInflight), s.live →
      ((s.dev.mc q).inflight.find? (fun x => x.id == id) = some x) →
      Effects (.dramBurstRead q id errs slm) s (fun e =>
        ∃ (r : Bool × Dev) (p : Bool), r = s.dev.mcDecode q x.addr errs ∧
        p = ((r.1 && !(x.over_.any (fun w => w.mask % 2 ^ 64 == 2 ^ 64 - 1))) || x.over_.any (fun w => w.poison)) ∧
        e = (r.2.setMc q { r.2.mc q with inflight := (r.2.mc q).inflight.filter (fun y => y.id != id), out := (r.2.mc q).out ++ [{ id := id, data := x.over_.foldl (fun v w => mergeBytes v w.data w.mask) (s.dev.burst q x.addr), poison := p }] }).slmMark slm p)) ∧
    (∀ (s : State) (q : Nat), s.live →
      s.dev.quadOk q = true →
      Effects (.mr4Poll q true) s (fun e =>
        e = (s.dev.setMc q { s.dev.mc q with cool := 0 }).setF (F.MEMC_STAT_HOTREF q) 1)) ∧
    (∀ (s : State) (q : Nat), s.live →
      s.dev.quadOk q = true →
      Effects (.mr4Poll q false) s (fun e =>
        e = if 2 ≤ (s.dev.mc q).cool + 1 then (s.dev.setMc q { s.dev.mc q with cool := min 2 ((s.dev.mc q).cool + 1) }).setF (F.MEMC_STAT_HOTREF q) 0 else s.dev.setMc q { s.dev.mc q with cool := min 2 ((s.dev.mc q).cool + 1) })) ∧
    (∀ (s : State) (q : Nat), s.live →
      s.dev.quadOk q = true →
      ((List.range 2).any (fun i => !(((s.dev.mc q).sub i).rq ++ ((s.dev.mc q).sub i).wq).isEmpty) = true) →
      (s.dev.mc q).postponed < 4 →
      Effects (.refreshDue q) s (fun e =>
        e = s.dev.setMc q { s.dev.mc q with postponed := (s.dev.mc q).postponed + 1 })) ∧
    (∀ (s : State) (q : Nat), s.live →
      s.dev.quadOk q = true →
      ((List.range 2).any (fun i => !(((s.dev.mc q).sub i).rq ++ ((s.dev.mc q).sub i).wq).isEmpty) = false ∨ 4 ≤ (s.dev.mc q).postponed) →
      Effects (.refreshDue q) s (fun e =>
        ∃ (n : Nat) (x : Dev), n = (if (List.range 2).any (fun i => !(((s.dev.mc q).sub i).rq ++ ((s.dev.mc q).sub i).wq).isEmpty) = true then 1 else (s.dev.mc q).postponed + 1) ∧
        x = s.dev.setMc q { (if s.dev.flag (F.MEMC_REF_SB q) = true then s.dev.mc q else (s.dev.mc q).closeAll).refreshed n with postponed := (s.dev.mc q).postponed + 1 - n } ∧
        e = if s.dev.flag (F.MEMC_STAT_HOTREF q) = true then x.mcCount q 6 n else x)) ∧
    (∀ (s : State) (q : Nat), s.live →
      Effects (.rhtWindowEnd q) s (fun e =>
        e = s.dev.setMc q { s.dev.mc q with acts := [], reported := [] })) ∧
    (∀ (s : State) (q rank drift : Nat), s.live →
      s.dev.mcRuns q = true →
      s.dev.flag (F.MEMC_STAT_TRAINED q) = true →
      rank ≤ s.dev.mcRanks q →
      Effects (.dqsOscRead q rank drift) s (fun e =>
        e = if 8 < drift then s.dev.setMc q { s.dev.mc q with drift := AMap.set 0 rank 0 (s.dev.mc q).drift, retrains := (s.dev.mc q).retrains + 1 } else s.dev.setMc q { s.dev.mc q with drift := AMap.set 0 rank drift (s.dev.mc q).drift })) ∧
    (∀ (s : State) (q : Nat), s.live →
      s.dev.quadOk q = true →
      s.dev.flag (F.MEMC_STAT_FBUSY q) = false →
      s.dev.underTest q = false →
      Effects (.memcFchgGo q) s (fun e =>
        ∃ x : Dev, x = ((s.dev.setF (F.MEMC_FCHG_GO q) 1).setF (F.MEMC_STAT_FBUSY q) 1).setF (F.MEMC_STAT_SREF q) 1 ∧ e = x.fchgClose q)) ∧
    (∀ (s : State) (q : Nat), s.live →
      s.dev.quadOk q = true →
      (s.dev.flag (F.MEMC_STAT_FBUSY q) = true ∨ s.dev.underTest q = true) →
      Effects (.memcFchgGo q) s (fun e =>
        ∃ x : Dev, x = s.dev.setF (F.MEMC_FCHG_GO q) 1 ∧ e = (x.setMc q { x.mc q with goWaits := true }).fchgClose q)) ∧
    (∀ (s : State) (q : Nat) (x : Dev), s.live →
      s.dev.quadOk q = true →
      s.dev.flag (F.MEMC_STAT_FBUSY q) = true →
      x = (((s.dev.setF (F.MEMC_STAT_SET q) (1 - s.dev.f (F.MEMC_STAT_SET q))).setF (F.MEMC_STAT_FBUSY q) 0).setF (F.MEMC_STAT_SREF q) 0).setF (F.MEMC_FCHG_GO q) 0 →
      Effects (.freqChangeDone q) s (fun e =>
        ∃ y : Dev, y = x.setMc q (x.mc q).closeAll ∧ e = if (y.mc q).goWaits then (y.setMc q { y.mc q with goWaits := false }).fchgGo q else y)) ∧
    (∀ (s : State) (q rank window : Nat) (again : List Bool), s.live →
      s.dev.quadOk q = true →
      Effects (.caParityAlert q rank window again) s (fun e =>
        ∃ (win : List DCmd) (ids : List Nat) (redo : List DInflight) (x y : Dev), win = (((s.dev.mc q).retry.filter (fun c => mcRank (s.dev.mcRanks q) c.req.addr == rank)).drop (((s.dev.mc q).retry.filter (fun c => mcRank (s.dev.mcRanks q) c.req.addr == rank)).length - window)).filter (fun c => !c.req.write) ∧
        ids = win.map (fun c => c.req.id) ∧
        redo = (win.filter (fun c => (s.dev.mc q).out.any (fun o => o.id == c.req.id))).map (fun c => ({ id := c.req.id, addr := c.req.addr, sub := c.sub, over_ := (((s.dev.mc q).sub c.sub).wq.filter (fun w => sameBurst w.addr c.req.addr && decide (w.id < c.req.id))) } : DInflight)) ∧
        x = s.dev.setMc q { (s.dev.mc q).replayRows (s.dev.mcRanks q) rank (((s.dev.mc q).retry.filter (fun c => mcRank (s.dev.mcRanks q) c.req.addr == rank)).drop (((s.dev.mc q).retry.filter (fun c => mcRank (s.dev.mcRanks q) c.req.addr == rank)).length - window)) with out := (s.dev.mc q).out.filter (fun o => !ids.contains o.id), inflight := (s.dev.mc q).inflight ++ redo } ∧
        y = (List.range (replayRuns (s.dev.f (F.MEMC_RETRY_MAX q)) 0 again).1).foldl (fun (z : Dev) _ => z.mcReplay q) x ∧
        e = if (replayRuns (s.dev.f (F.MEMC_RETRY_MAX q)) 0 again).2 then y.mcFail q ids else y)) ∧
    (∀ (s : State) (q : Nat) (errs : List Nat) (slm : Option (Nat × Nat)), s.live →
      s.dev.mcRuns q = true →
      6 ≤ s.dev.f F.TOP_MODE_MODE →
      s.dev.f F.TOP_MODE_MODE ≤ 9 →
      s.dev.f F.PWR_PSTATE_PS < 3 →
      s.dev.f (F.MEMC_SCRUB_HOURS q) ≠ 0 →
      s.dev.f (F.MEMC_STAT_CAPGIB q) * 2 ^ 30 ≠ 0 →
      Effects (.scrubRead q errs slm) s (fun e =>
        ∃ x : Dev, x = ((s.dev.mcDecode q (s.dev.mc q).scrubAt errs).2.mcCount q 0 1).slmMark slm (s.dev.mcDecode q (s.dev.mc q).scrubAt errs).1 ∧
        e = (x.setMc q { x.mc q with scrubAt := ((s.dev.mc q).scrubAt + 64) % (s.dev.f (F.MEMC_STAT_CAPGIB q) * 2 ^ 30) }).setF (F.MEMC_SCRUB_PCT q) (((s.dev.mc q).scrubAt + 64) % (s.dev.f (F.MEMC_STAT_CAPGIB q) * 2 ^ 30) * 100 / (s.dev.f (F.MEMC_STAT_CAPGIB q) * 2 ^ 30)))) ∧
    (∀ (s : State) (q b : Nat) (row : Nat), s.live →
      ((s.dev.mc q).bank b).row = some row →
      ((((s.dev.mc q).sub 0).rq ++ ((s.dev.mc q).sub 0).wq ++ (((s.dev.mc q).sub 1).rq ++ ((s.dev.mc q).sub 1).wq)).any (fun r => mcBank (s.dev.mcRanks q) r.addr == b && mcRow (s.dev.mcRanks q) r.addr == row) = false) →
      Effects (.pageIdleClose q b) s (fun e =>
        e = s.dev.setMc q ((s.dev.mc q).setBank b { (s.dev.mc q).bank b with row := none }))) ∧
    (∀ (s : State) (unit quad inst off : Nat) (uncorrectable dirty : Bool), s.live →
      unit ≠ 8 →
      (uncorrectable = false ∨ ((unit = 2 ∨ unit = 3 ∨ unit = 4) ∧ dirty = false)) →
      Effects (.sramEccError unit quad inst off uncorrectable dirty) s (fun e =>
        ∃ x : Dev, x = s.dev.eccCorrect 0 unit quad inst off ∧ e = if unit = 1 ∧ quad < 4 ∧ inst < 8 then x.coreBump (8 * quad + inst) 7 1 else x)) ∧
    (∀ (s : State) (unit quad inst off : Nat) (dirty : Bool), s.live →
      unit ≠ 8 →
      ((unit = 2 ∨ unit = 3 ∨ unit = 4) → dirty = true) →
      Effects (.sramEccError unit quad inst off true dirty) s (fun e =>
        ∃ x y : Dev, x = s.dev.eccUncorrect 0 ∧
        y = (if unit = 1 ∧ quad < 4 ∧ inst < 8 then x.setCpu (8 * quad + inst) { x.cpu (8 * quad + inst) with tcm := (x.cpu (8 * quad + inst)).tcm.setPoison (8 * off) true }
          else if unit ≤ 7 then { x with pail := { x.pail with sramPoison := if x.pail.sramPoison.contains (unit, quad, inst, off / 8) = true then x.pail.sramPoison else x.pail.sramPoison ++ [(unit, quad, inst, off / 8)] } }
          else if 9 ≤ unit then { x with sramBad := true } else x) ∧
        e = if (unit == 2 || unit == 3 || unit == 4) = true then y else y.raise 0x025 noPlot [unit, quad, off])) ∧
    (∀ (s : State) (off : Nat) (x : MramBlk) (found : Nat), s.live →
      Effects (.mramEccError off x found) s (fun e =>
        ∃ (a b : Bool × Dev) (f : Nat), a = s.dev.finjItem 5 (off / 2 ^ 28) 0 ∧ b = a.2.finjItem 6 (off / 2 ^ 28) 0 ∧
        f = (if b.1 = true then 2 else if a.1 = true ∧ found = 0 then 1 else found) ∧
        e = if f = 0 then b.2 else if f = 1 then b.2.eccCorrect 2 (off / 2 ^ 28) 0xFF 0 (off / 64 * 64)
          else (((b.2.eccUncorrect 2).raise 0x026 noPlot [off]).ewOccur 17).mramBad x)) ∧
    (∀ (s : State) (arrivals : List (Nat × Nat × Nat × Bool)) (here : List PReq), s.live →
      (here = s.dev.pail.waiting ++ arrivals.map (fun a => ⟨a.1, a.2.1, a.2.1, a.2.2.1, a.2.2.2⟩)) →
      Effects (.pailAlloc arrivals) s (fun e =>
        e = (List.range 16).foldl (Dev.pailPool here) { s.dev with pail := { s.dev.pail with waiting := [] } })) ∧
    (∀ (s : State) (h owner : Nat) (steward : Bool), s.live →
      s.dev.flag (F.PAIL_POOLCFG_EN (hPool h)) = true →
      hIndex h < s.dev.f (F.PAIL_POOLCNT_COUNT (hPool h)) →
      tagState (s.dev.pailTag h) = 1 →
      (tagOwner (s.dev.pailTag h) = owner ∨ (steward || owner == 0 || owner == 0x3FF) = true) →
      Effects (.pailFree h owner steward) s (fun e =>
        ∃ x : Dev, x = (if tagOwner (s.dev.pailTag h) ≠ owner then (s.dev.pailCount 4).pailCount 5 else s.dev.pailCount 4) ∧
        e = if s.dev.pailLost h = true then (x.setPailTag h (3 * 1024 + tagOwner (s.dev.pailTag h))).pailCount 7
          else ((x.setPailTag h 0).setPailFree (hPool h) (x.pailFreeCount (hPool h) + 1)).setPailCache (hPool h) (min 128 (x.pailCache (hPool h) + 1)))) ∧
    (∀ (s : State) (h owner : Nat) (steward : Bool), s.live →
      (s.dev.flag (F.PAIL_POOLCFG_EN (hPool h)) = false ∨ s.dev.f (F.PAIL_POOLCNT_COUNT (hPool h)) ≤ hIndex h) →
      Effects (.pailFree h owner steward) s (fun e =>
        e = s.dev.pailRefuse h owner 1)) ∧
    (∀ (s : State) (h owner : Nat) (steward : Bool), s.live →
      s.dev.flag (F.PAIL_POOLCFG_EN (hPool h)) = true →
      hIndex h < s.dev.f (F.PAIL_POOLCNT_COUNT (hPool h)) →
      tagState (s.dev.pailTag h) ≠ 1 →
      Effects (.pailFree h owner steward) s (fun e =>
        e = s.dev.pailRefuse h owner 2)) ∧
    (∀ (s : State) (h owner : Nat) (steward : Bool), s.live →
      s.dev.flag (F.PAIL_POOLCFG_EN (hPool h)) = true →
      hIndex h < s.dev.f (F.PAIL_POOLCNT_COUNT (hPool h)) →
      tagState (s.dev.pailTag h) = 1 →
      tagOwner (s.dev.pailTag h) ≠ owner →
      (steward || owner == 0 || owner == 0x3FF) = false →
      Effects (.pailFree h owner steward) s (fun e =>
        e = s.dev.pailRefuse h owner 3)) ∧
    (∀ (s : State) (n : Nat), s.live →
      Effects (.pailCacheRefill n) s (fun e =>
        e = if s.dev.pailCache n < s.dev.f (F.PAIL_POOLWM_LOW n) then s.dev.setPailCache n (max (s.dev.pailCache n) (min (s.dev.f (F.PAIL_POOLWM_MID n)) (s.dev.pailFreeCount n))) else if s.dev.f (F.PAIL_POOLWM_HIGH n) < s.dev.pailCache n then s.dev.setPailCache n (s.dev.f (F.PAIL_POOLWM_MID n)) else s.dev))

/-- Each message whose Security Send is admitted completes it and leaves its response: status 2 where its length or reserved bytes are wrong, 3 from a plot or in a state that may not send it, and else 0 with the version, the identity, the evidence, the nonce, the life-cycle change or debug rights of a good token (4 and a new nonce for a token that is refused, 5 where the evidence or TEST is not available), the certificate chain (2 for another leaf key) or the stream key (3 for a slot already burned); a management read answers its block with the PEC once the endpoint is up, a bus error is reported, and an SCL timeout drops the reply. -/
def Obligations.HalwardCompletes : Prop :=
    (∀ (s : State) (c : NCmd) (reqId len : Nat) (zeros : Bool), s.live →
      s.dev.admitsUp c false true false = true →
      prpFits c (16 + len) false = true →
      Effects (.getVersion c reqId len zeros) s (fun e =>
        ∃ r : Nat × List Nat × Dev, r = (if ¬(decide (len = 0) && zeros) = true then (2, [], s.dev.hostActivity) else if stateAnswers s.dev.hostActivity.fuses.state 1 = false then (3, [], s.dev.hostActivity) else (0, [1, 0, s.dev.hostActivity.fuses.state, s.dev.hostActivity.fuses.lcrec.length], s.dev.hostActivity)) ∧
        e = (r.2.2.answer c.id.plot 1 reqId r.1 r.2.1).done c.id .success)) ∧
    (∀ (s : State) (c : NCmd) (reqId len : Nat) (zeros : Bool), s.live →
      s.dev.admitsUp c false true false = true →
      prpFits c (16 + len) false = true →
      Effects (.getIdentity c reqId len zeros) s (fun e =>
        ∃ r : Nat × List Nat × Dev, r = (if ¬(decide (len = 0) && zeros) = true then (2, [], s.dev.hostActivity) else if stateAnswers s.dev.hostActivity.fuses.state 2 = false then (3, [], s.dev.hostActivity) else (0, numBytes 8 s.dev.hostActivity.fuses.dieId ++ freeBytes 97 Config.identityKey ++ s.dev.hostActivity.bootFlash.cert, s.dev.hostActivity)) ∧
        e = (r.2.2.answer c.id.plot 2 reqId r.1 r.2.1).done c.id .success)) ∧
    (∀ (s : State) (c : NCmd) (reqId len challenge mask : Nat) (zeros : Bool), s.live →
      s.dev.admitsUp c false true false = true →
      prpFits c (16 + len) false = true →
      Effects (.attest c reqId len challenge mask zeros) s (fun e =>
        ∃ r : Nat × List Nat × Dev, r = (if ¬(decide (len = 34 ∧ mask < 1024) && zeros) = true then (2, [], s.dev.hostActivity) else if stateAnswers s.dev.hostActivity.fuses.state 3 = false ∧ s.dev.hostActivity.fuses.state ≠ 7 then (3, [], s.dev.hostActivity) else if s.dev.hostActivity.f F.TOP_MODE_MODE = 1 ∨ s.dev.hostActivity.f F.TOP_MODE_MODE = 0xB ∨ s.dev.hostActivity.fuses.state = 7 then (5, [], s.dev.hostActivity) else (0, (s.dev.hostActivity.report c.id.plot challenge mask).1, (s.dev.hostActivity.report c.id.plot challenge mask).2)) ∧
        e = (r.2.2.answer c.id.plot 3 reqId r.1 r.2.1).done c.id .success)) ∧
    (∀ (s : State) (c : NCmd) (reqId len : Nat) (zeros : Bool), s.live →
      s.dev.admitsUp c false true false = true →
      prpFits c (16 + len) false = true →
      Effects (.getNonce c reqId len zeros) s (fun e =>
        ∃ r : Nat × List Nat × Dev, r = (if ¬(decide (len = 0) && zeros) = true then (2, [], s.dev.hostActivity) else if c.id.plot ≠ 0 ∨ stateAnswers s.dev.hostActivity.fuses.state 0x10 = false then (3, [], s.dev.hostActivity) else (0, numBytes 8 (Config.nonce s.dev.hostActivity.boot.nonce), s.dev.hostActivity)) ∧
        e = (r.2.2.answer c.id.plot 0x10 reqId r.1 r.2.1).done c.id .success)) ∧
    (∀ (s : State) (c : NCmd) (reqId len : Nat) (zeros : Bool) (t : Token), s.live →
      s.dev.admitsUp c false true false = true →
      prpFits c (16 + len) false = true →
      Effects (.lcsChange c reqId len zeros t) s (fun e =>
        ∃ r : Nat × List Nat × Dev, r = (if ¬(decide (len = 320) && zeros) = true then (2, [], s.dev.hostActivity) else if c.id.plot ≠ 0 ∨ stateAnswers s.dev.hostActivity.fuses.state 0x11 = false then (3, [], s.dev.hostActivity) else if s.dev.hostActivity.tokenOk t 1 = true ∧ s.dev.hostActivity.lcAllowed t.arg = true ∧ t.rights < 16 then (0, [], { (s.dev.hostActivity.renonce).raise 0x02E noPlot [s.dev.hostActivity.fuses.state, t.arg] with boot := { ((s.dev.hostActivity.renonce).raise 0x02E noPlot [s.dev.hostActivity.fuses.state, t.arg]).boot with lcChange := some (t.arg, t.rights) } }) else (4, [], s.dev.hostActivity.renonce)) ∧
        e = (r.2.2.answer c.id.plot 0x11 reqId r.1 r.2.1).done c.id .success)) ∧
    (∀ (s : State) (c : NCmd) (reqId len : Nat) (zeros : Bool) (t : Token), s.live →
      s.dev.admitsUp c false true false = true →
      prpFits c (16 + len) false = true →
      Effects (.debugAuth c reqId len zeros t) s (fun e =>
        ∃ r : Nat × List Nat × Dev, r = (if ¬(decide (len = 320) && zeros) = true then (2, [], s.dev.hostActivity) else if c.id.plot ≠ 0 ∨ stateAnswers s.dev.hostActivity.fuses.state 0x12 = false then (3, [], s.dev.hostActivity) else if s.dev.hostActivity.tokenOk t 2 = true ∧ t.arg = 0 ∧ s.dev.hostActivity.rightsOk t.rights = true then (if bit t.rights 0 = true ∧ s.dev.hostActivity.testReach = false then (5, [], s.dev.hostActivity.renonce) else (0, [], { ((s.dev.hostActivity.renonce).setF F.HALW_DEBUG_RIGHTS (s.dev.hostActivity.f F.HALW_DEBUG_RIGHTS ||| t.rights)).raise 0x02F noPlot [t.rights] with boot := { (((s.dev.hostActivity.renonce).setF F.HALW_DEBUG_RIGHTS (s.dev.hostActivity.f F.HALW_DEBUG_RIGHTS ||| t.rights)).raise 0x02F noPlot [t.rights]).boot with testEntry := (((s.dev.hostActivity.renonce).setF F.HALW_DEBUG_RIGHTS (s.dev.hostActivity.f F.HALW_DEBUG_RIGHTS ||| t.rights)).raise 0x02F noPlot [t.rights]).boot.testEntry || bit t.rights 0 } })) else (4, [], s.dev.hostActivity.renonce)) ∧
        e = (r.2.2.answer c.id.plot 0x12 reqId r.1 r.2.1).done c.id .success)) ∧
    (∀ (s : State) (c : NCmd) (reqId : Nat) (zeros : Bool) (chain : List Nat) (leafOk : Bool), s.live →
      s.dev.admitsUp c false true false = true →
      prpFits c (16 + chain.length) false = true →
      Effects (.installCert c reqId zeros chain leafOk) s (fun e =>
        ∃ r : Nat × List Nat × Dev, r = (if ¬(decide (chain.length ≤ 61440 ∧ chain ≠ []) && zeros) = true then (2, [], s.dev.hostActivity) else if c.id.plot ≠ 0 ∨ stateAnswers s.dev.hostActivity.fuses.state 0x13 = false then (3, [], s.dev.hostActivity) else if leafOk = true then (0, [], { s.dev.hostActivity with bootFlash := { s.dev.hostActivity.bootFlash with cert := chain.map (fun b => b % 256) } }) else (2, [], s.dev.hostActivity)) ∧
        e = (r.2.2.answer c.id.plot 0x13 reqId r.1 r.2.1).done c.id .success)) ∧
    (∀ (s : State) (c : NCmd) (reqId : Nat) (zeros : Bool) (slot : Nat) (key : List Byte), s.live →
      s.dev.admitsUp c false true false = true →
      prpFits c (16 + (1 + key.length)) false = true →
      Effects (.installStreamkey c reqId zeros slot key) s (fun e =>
        ∃ r : Nat × List Nat × Dev, r = (if ¬(decide ((slot = 2 ∨ slot = 3) ∧ key.length = 97 ∧ key.head? = some 4#8) && zeros) = true then (2, [], s.dev.hostActivity) else if c.id.plot ≠ 0 ∨ stateAnswers s.dev.hostActivity.fuses.state 0x14 = false then (3, [], s.dev.hostActivity) else if bit s.dev.hostActivity.fuses.burned slot = true then (3, [], s.dev.hostActivity) else (0, [], ({ s.dev.hostActivity with fuses := { s.dev.hostActivity.fuses with burned := setBit s.dev.hostActivity.fuses.burned slot true, imgKeys := AMap.put slot (leNat (Sha.digest Sha.sha384 key)) s.dev.hostActivity.fuses.imgKeys } } : Dev).setF F.HALW_KEYS_BURNED (setBit s.dev.hostActivity.fuses.burned slot true))) ∧
        e = (r.2.2.answer c.id.plot 0x14 reqId r.1 r.2.1).done c.id .success)) ∧
    (∀ (s : State), s.live →
      Effects (.miStatus true) s (fun e =>
        ∃ l : List Nat, l = [6, 3 + 4 * Bool.nat s.dev.pins.link1 + 8 * Bool.nat s.dev.pins.link0 + 16 + 32 * Bool.nat (!s.dev.mode.faultN) + 64 * Bool.nat (!s.dev.serving) + 128, if s.dev.serving = true then 255 - s.dev.critNow 0 else 0xFF, if s.dev.hotKnown = true then s.dev.f F.PWR_THERM_HOTTEMP else 0xFF, if s.dev.boot.stream.isSome = true then s.dev.percentUsed else 0xFF, Config.miByte 5 % 256, Config.miByte 6 % 256] ∧
        e = { s.dev with host := { s.dev.host with smbusReply := if s.dev.miUp = true then l ++ [pec 0 l] else [] } })) ∧
    (∀ (s : State), s.live →
      Effects (.miStatus false) s (fun e =>
        e = ({ s.dev with host := { s.dev.host with smbusReply := [] } } : Dev).raise 0x1EB noPlot [])) ∧
    (∀ (s : State), s.live →
      Effects (.miVendorIdSerial true) s (fun e =>
        ∃ l : List Nat, l = [22, 0x1E, 0xA7] ++ (if s.dev.boot.stream.isSome = true then s.dev.serial else List.replicate 20 0xFF) ∧
        e = { s.dev with host := { s.dev.host with smbusReply := if s.dev.miUp = true then l ++ [pec 8 l] else [] } })) ∧
    (∀ (s : State), s.live →
      Effects (.miVendorIdSerial false) s (fun e =>
        e = ({ s.dev with host := { s.dev.host with smbusReply := [] } } : Dev).raise 0x1EB noPlot [])) ∧
    (∀ (s : State), s.live →
      Effects (.miEloaskoBlock true) s (fun e =>
        ∃ l : List Nat, l = [7, s.dev.f F.TOP_MODE_MODE + 16 * s.dev.f F.PWR_PSTATE_PS, s.dev.f F.GWL_ID_MEMBER + 8 * s.dev.f F.TOP_MODE_CFENCE, s.dev.f F.HALW_LCS_STATE + 16 * s.dev.f F.HALW_LCS_LCCOUNT % 256, (List.range 4).foldl (fun n q => setBit n q (s.dev.quadOk q)) 0, if s.dev.boot.stream.isSome = true then s.dev.availSpare else 0xFF, if s.dev.hotKnown = true then s.dev.f F.PWR_THERM_HOTTEMP else 0xFF] ∧
        e = { s.dev with host := { s.dev.host with smbusReply := if s.dev.miUp = true then l ++ [pec 90 l] else [] } })) ∧
    (∀ (s : State), s.live →
      Effects (.miEloaskoBlock false) s (fun e =>
        e = ({ s.dev with host := { s.dev.host with smbusReply := [] } } : Dev).raise 0x1EB noPlot [])) ∧
    (∀ (s : State), s.live →
      Effects (.smbusSclTimeout) s (fun e =>
        e = { s.dev with host := { s.dev.host with smbusReply := [] } }))

/-- With commands waiting, a step is exec of the first on the rest; with none, a millisecond passes (the model's choice, log entry 2). No command stops the machine or touches the queue, so a step drops exactly the front command and a queue of well-formed commands stays one. -/
def Obligations.StepRule : Prop :=
    (∀ (s : State) (c : Instr) (rest : List Instr), s.pending = c :: rest → step s = exec c { s with pending := rest }) ∧
    (∀ s : State, s.pending = [] → step s = .next { s with dev := s.dev.tick }) ∧
    (∀ (i : Instr) (s : State), ∃ d : Dev, exec i s = .next { s with dev := d }) ∧
    (∀ s t : State, s.pending.all Instr.wf = true → step s = .next t → t.pending.all Instr.wf = true ∧ t.pending = s.pending.tail) ∧
    (State.reset.pending.all Instr.wf = true)

/-- At reset no command waits, every control-space field reads its reset value but TOP_ID.PART, the life-cycle state and count and the key flags, which show fuses (their values are the model's, log entry on the fuses), every event and counter field reads its reset value, the mode is RESET with RESET_N low and FAULT_N asserted, no command is outstanding, the journal and the caches are empty, every core holds zeros, and every memory reads zero in canonical form (log entry on memory). -/
def Obligations.ResetState : Prop :=
    (State.reset.pending = [] ∧ State.reset.dev.f F.TOP_MODE_MODE = 0 ∧ State.reset.dev.f F.TOP_RSTCAUSE_POR = 1 ∧ State.reset.dev.pins.resetN = false ∧ State.reset.dev.mode.faultN = true) ∧
    (∀ x : Field, x.key ≠ F.TOP_ID_PART.key → x.key ≠ F.HALW_LCS_STATE.key → x.key ≠ F.HALW_LCS_LCCOUNT.key → x.key ≠ F.HALW_KEYS_BURNED.key → x.key ≠ F.HALW_KEYS_AUTH.key → State.reset.dev.f x = x.reset) ∧
    (∀ x : Field, State.reset.dev.ef x = x.reset) ∧
    (State.reset.dev.f F.TOP_ID_PART = 0x7840 ∧ State.reset.dev.f F.HALW_LCS_STATE = 3 ∧ State.reset.dev.f F.HALW_LCS_LCCOUNT = 2 ∧ State.reset.dev.f F.HALW_KEYS_BURNED = 7 ∧ State.reset.dev.f F.HALW_KEYS_AUTH = 1) ∧
    (∀ id : CmdId, State.reset.dev.outstanding id = false) ∧
    (State.reset.dev.evt.journal = [] ∧ State.reset.dev.ftl.map = [] ∧ State.reset.dev.pail.tags = [] ∧ State.reset.dev.flash.cws = []) ∧
    (∀ c i : Nat, (State.reset.dev.cpu c).reg i = 0#64 ∧ (State.reset.dev.cpu c).tcm.wf = true ∧ ∀ a, (State.reset.dev.cpu c).tcm.byte a = 0) ∧
    (State.reset.dev.trel.dram.wf = true ∧ (∀ a, State.reset.dev.trel.dram.byte a = 0) ∧ ∀ p, (State.reset.dev.slm p).wf = true ∧ ∀ a, (State.reset.dev.slm p).byte a = 0)

/-- A write to an RO field leaves the part as it is, and so does a write to an RWL field whose lock is set. A WO field reads zero. Written bits of a W1C field clear and written zeros keep it; written bits of a W1S field set and written zeros keep it. An RW field without a range of its own takes the bits written. No write to a field changes a field of another key. -/
def Obligations.FieldAccessRules : Prop :=
    (∀ (d : Dev) (r : Reg) (v : Nat) (x : Field), x.ty = .RO → d.writeField r v x = d) ∧
    (∀ (d : Dev) (r : Reg) (v : Nat) (x : Field), x.ty = .RWL → d.regLocked r = true → d.writeField r v x = d) ∧
    (∀ (d : Dev) (r : Reg) (x : Field), x.ty = .WO → d.fieldRead r x = 0) ∧
    (∀ (d : Dev) (r : Reg) (v i : Nat) (x : Field), x.ty = .W1C → r.isEvt = false → i < x.width → bit ((d.writeField r v x).f x) i = (bit (d.f x) i && !bit v (x.lo + i))) ∧
    (∀ (d : Dev) (r : Reg) (v i : Nat) (x : Field), x.ty = .W1S → r.isEvt = false → i < x.width → bit ((d.writeField r v x).f x) i = (bit (d.f x) i || bit v (x.lo + i))) ∧
    (∀ (d : Dev) (r : Reg) (v : Nat) (x : Field), x.ty = .RW → r.isEvt = false → takeOf r x.lo = .free → (d.writeField r v x).f x = bits v x.lo x.width) ∧
    (∀ (d : Dev) (r : Reg) (v : Nat) (x y : Field), y.key ≠ x.key → (d.writeField r v x).f y = d.f y ∧ (d.writeField r v x).ef y = d.ef y)

/-- For every register with indices in range, the register that its control-space offset names is that register; and an offset names a register only if it is that register's own offset. No two registers share an offset. -/
def Obligations.RegisterOffsets : Prop :=
    (∀ r : Reg, r.valid = true → Reg.ofOffset r.addr = some r) ∧
    (∀ (o : Nat) (r : Reg), Reg.ofOffset o = some r → r.addr = o ∧ r.valid = true)

/-- Over any sequence of requests to an empty GCM counter table, two leases of the same plot, user label and epoch never share a value: the later one begins where the earlier one ended or above. Every lease holds at least one and at most 65,536 values, all below 2^64. -/
def Obligations.GcmLeasesNeverRepeat : Prop :=
    (∀ l : List (Nat × Nat × Nat), (gcmLeases [] l).Pairwise (fun x y => x.1 = y.1 → x.2.1 = y.2.1 → x.2.2.1 = y.2.2.1 → x.2.2.2.2 ≤ y.2.2.2.1) ∧ ∀ x ∈ gcmLeases [] l, x.2.2.2.1 < x.2.2.2.2 ∧ x.2.2.2.2 ≤ x.2.2.2.1 + 65536 ∧ x.2.2.2.2 ≤ 2 ^ 64)

/-- From any arbiter that rounds over N requesters have reached, in 15 + N further rounds in each of which a requester waits, that requester is granted. Ages never pass 15, an age of 15 makes a requester urgent, the granted requester's age is zero, every other that waits ages by one, and no requester that is not urgent is granted while an urgent one waits. -/
def Obligations.ArbiterBound : Prop :=
    (∀ (n r : Nat) (pre l : List (List Nat × Nat)), (∀ x ∈ pre ++ l, (∀ w ∈ x.1, w < n) ∧ x.2 ∈ x.1) → l.length = 15 + n → (∀ x ∈ l, r ∈ x.1) → r ∈ ((⟨[], []⟩ : Arb).after pre).grants l) ∧
    (∀ (n : Nat) (pre : List (List Nat × Nat)) (r : Nat), (∀ x ∈ pre, (∀ w ∈ x.1, w < n) ∧ x.2 ∈ x.1) → ((⟨[], []⟩ : Arb).after pre).age r ≤ 15 ∧ (((⟨[], []⟩ : Arb).after pre).age r = 15 ↔ r ∈ ((⟨[], []⟩ : Arb).after pre).urgent)) ∧
    (∀ (a : Arb) (waiting : List Nat) (g r : Nat), (a.round waiting g).age r = if r = g then 0 else if r ∈ waiting then min 15 (a.age r + 1) else a.age r) ∧
    (∀ (a : Arb) (waiting : List Nat) (choice r : Nat), r ∈ a.urgent → r ∈ waiting → a.pick waiting choice ∈ a.urgent ∧ a.pick waiting choice ∈ waiting)

/-- After a completion is presented for a command, the command has no latch: a second completion of it, whatever its status, changes nothing. A completion leaves the latches of every other command. -/
def Obligations.FirstCompletionWins : Prop :=
    (∀ (d : Dev) (id : CmdId) (st : Sc) (x y : Nat), (d.complete id st x y).latch? id = none) ∧
    (∀ (d : Dev) (id : CmdId) (st st2 : Sc) (x y x2 y2 : Nat), (d.complete id st x y).complete id st2 x2 y2 = d.complete id st x y) ∧
    (∀ (d : Dev) (id id2 : CmdId) (st : Sc) (x y : Nat), id2 ≠ id → (d.complete id st x y).latch? id2 = d.latch? id2)

/-- A free of a handle of a pool that is not enabled, or past its count, is ignored, recorded with cause 1 and raises PAIL_BAD_HANDLE; of a handle that is free or retired, with cause 2 and PAIL_DOUBLE_FREE; of another owner's handle without the manager privilege, with cause 3 and PAIL_FOREIGN_FREE; in each case no tag, cache or pool changes. A handle whose buffer lies partly in a DRAM channel out of service becomes RETIRED; otherwise it becomes FREE and returns to the cache. A performed free of another owner's handle counts in PAIL_CNT[5]. -/
def Obligations.PailFree : Prop :=
    (∀ (d : Dev) (h o : Nat) (m : Bool), (d.flag (F.PAIL_POOLCFG_EN (hPool h)) = false ∨ d.f (F.PAIL_POOLCNT_COUNT (hPool h)) ≤ hIndex h) → ∃ e : Dev, d.pailFree h o m = e.raise 0x023 (ownerPlot o) [h, o] ∧ e.pail = d.pail ∧ e.f F.PAIL_ERR_VALID = 1 ∧ e.f F.PAIL_ERR_CAUSE = 1 ∧ e.f F.PAIL_ERR_OWNER = o % 1024 ∧ e.f F.PAIL_ERRH_HANDLE = h % 2 ^ 32) ∧
    (∀ (d : Dev) (h o : Nat) (m : Bool), d.flag (F.PAIL_POOLCFG_EN (hPool h)) = true → hIndex h < d.f (F.PAIL_POOLCNT_COUNT (hPool h)) → tagState (d.pailTag h) ≠ 1 → ∃ e : Dev, d.pailFree h o m = e.raise 0x021 (ownerPlot o) [h, o] ∧ e.pail = d.pail ∧ e.f F.PAIL_ERR_VALID = 1 ∧ e.f F.PAIL_ERR_CAUSE = 2 ∧ e.f F.PAIL_ERR_OWNER = o % 1024 ∧ e.f F.PAIL_ERRH_HANDLE = h % 2 ^ 32) ∧
    (∀ (d : Dev) (h o : Nat) (m : Bool), d.flag (F.PAIL_POOLCFG_EN (hPool h)) = true → hIndex h < d.f (F.PAIL_POOLCNT_COUNT (hPool h)) → tagState (d.pailTag h) = 1 → tagOwner (d.pailTag h) ≠ o → m = false → ∃ e : Dev, d.pailFree h o m = e.raise 0x022 (ownerPlot o) [h, o] ∧ e.pail = d.pail ∧ e.f F.PAIL_ERR_VALID = 1 ∧ e.f F.PAIL_ERR_CAUSE = 3 ∧ e.f F.PAIL_ERR_OWNER = o % 1024 ∧ e.f F.PAIL_ERRH_HANDLE = h % 2 ^ 32) ∧
    (∀ (d : Dev) (h o : Nat) (m : Bool), d.flag (F.PAIL_POOLCFG_EN (hPool h)) = true → hIndex h < d.f (F.PAIL_POOLCNT_COUNT (hPool h)) → tagState (d.pailTag h) = 1 → (tagOwner (d.pailTag h) = o ∨ m = true) → d.pailLost h = true → d.pailFree h o m = ((if tagOwner (d.pailTag h) ≠ o then (d.pailCount 4).pailCount 5 else d.pailCount 4).setPailTag h (3 * 1024 + tagOwner (d.pailTag h))).pailCount 7 ∧ tagState ((d.pailFree h o m).pailTag h) = 3) ∧
    (∀ (d : Dev) (h o : Nat) (m : Bool), d.flag (F.PAIL_POOLCFG_EN (hPool h)) = true → hIndex h < d.f (F.PAIL_POOLCNT_COUNT (hPool h)) → tagState (d.pailTag h) = 1 → (tagOwner (d.pailTag h) = o ∨ m = true) → d.pailLost h = false → d.pailFree h o m = ((((if tagOwner (d.pailTag h) ≠ o then (d.pailCount 4).pailCount 5 else d.pailCount 4)).setPailTag h 0).setPailFree (hPool h) (((if tagOwner (d.pailTag h) ≠ o then (d.pailCount 4).pailCount 5 else d.pailCount 4)).pailFreeCount (hPool h) + 1)).setPailCache (hPool h) (min 128 (((if tagOwner (d.pailTag h) ≠ o then (d.pailCount 4).pailCount 5 else d.pailCount 4)).pailCache (hPool h) + 1)) ∧ tagState ((d.pailFree h o m).pailTag h) = 0)

/-- With f the first free entry at or above p, INSERT_AT at p writes the new entry at p, moves the entries p to f - 1 each up by one place and leaves every other, at a cost of f - p + 1 writes (with p free, f is p and nothing moves). With no free entry from p up the table is full and unchanged. DELETE of an entry of a class A table frees it and moves nothing. -/
def Obligations.CamInsertAtShifts : Prop :=
    (∀ (cam : List (Nat × CamEnt)) (base size p f : Nat) (e : CamEnt), p ≤ f → f < base + size → AMap.find f cam = none → (∀ i, p ≤ i → i < f → (AMap.find i cam).isSome = true) → (camInsertAt cam base size p e).status = 0 ∧ (camInsertAt cam base size p e).writes = f - p + 1 ∧ ∀ i, AMap.find i (camInsertAt cam base size p e).cam = if i = p then some e else if p < i ∧ i ≤ f then AMap.find (i - 1) cam else AMap.find i cam) ∧
    (∀ (cam : List (Nat × CamEnt)) (base size p : Nat) (e : CamEnt), (∀ i, p ≤ i → i < base + size → (AMap.find i cam).isSome = true) → (camInsertAt cam base size p e).status = 1 ∧ (camInsertAt cam base size p e).cam = cam ∧ (camInsertAt cam base size p e).writes = 0) ∧
    (∀ (cam : List (Nat × CamEnt)) (base i : Nat) (x : CamEnt), AMap.find i cam = some x → (camDeleteAt cam base i false).status = 0 ∧ ∀ j, AMap.find j (camDeleteAt cam base i false).cam = if j = i then none else AMap.find j cam)

/-- Every word but REP that names an instruction, met on a core that runs, with its fetch permitted, no interrupt due and its guard false: unless a check of a reserved field or of the privilege traps first, the core moves pc past the word, its load delay ends and the instruction counts as retired; no register, flag or memory byte changes. A REP whose pair is valid moves past both words. -/
def Obligations.GuardFalse : Prop :=
    (∀ (d : Dev) (c w next upto : Nat) (f : Dev → Dev), wordMeaning c w next upto = some f → wOp w ≠ 0x3C → d.coreRuns c = true → (d.cpu c).halted = false → (d.cpu c).waiting = false → d.irqDue c = false → d.fetchTrap c (d.cpu c).pc.toNat = none → condHolds (wG w) (d.cpu c).fl = false → f d = d.retire c 1 (d.cpu c) ∨ (∃ v : Nat, f d = d.vzTrap c 1 0 v) ∨ ((d.cpu c).prv = false ∧ ∃ v : Nat, f d = d.vzTrap c 3 0 v)) ∧
    (∀ (d : Dev) (c g mode next upto : Nat), mode < 3 → g ≠ 0xF → repAccepts mode next = true → d.fetchTrap c (((d.cpu c).pc.toNat + 4) % 2 ^ 64) = none → d.coreRuns c = true → (d.cpu c).halted = false → (d.cpu c).waiting = false → d.irqDue c = false → d.fetchTrap c (d.cpu c).pc.toNat = none → condHolds (g) (d.cpu c).fl = false → vzRep c g mode next upto d = d.retire c 2 (d.cpu c))

/-- While scan has stopped the part, a register write, an NVMe command, a link, media, engine or core command and the firmware's own commands leave the part exactly as it is; a part reset takes it out of scan. -/
def Obligations.ScanFreezesThePart : Prop :=
    (∀ (s : State) (f : Dev → Dev), s.dev.test.scanStopped = true → run f s = .next s) ∧
    (∀ (s : State) (c g rd ra rb : Nat) (sf : Bool) (by_ : Requester) (addr value : Nat) (wide : Bool), s.dev.test.scanStopped = true → exec (.add c g rd ra rb sf) s = .next s ∧ exec (.csrWrite by_ addr value wide) s = .next s ∧ exec .firmwareVerify s = .next s)

/-- For Type 1 and Type 3, the block that PRACT = 1 makes from any data for block i of a command passes the guard, application tag and reference tag checks of the same command, whatever PRCHK and the mask ask for, and its first 4,096 bytes are the data's. -/
def Obligations.ProtectionInformationRoundTrip : Prop :=
    (∀ (ty i v : Nat) (c : PiCmd), ty = 1 ∨ ty = 3 → c.app < 2 ^ 16 → c.ref < 2 ^ 32 → piCheck ty c i (piMake ty c i v) = none ∧ leBytes 4096 (piMake ty c i v) = leBytes 4096 v)
end

