-- ==== Sys2Proof/Laws/Map.lean ====
section
/-! SUPPORT. Finite maps, register fields and byte memory: a read after a write to the same place gives the value written, a write
leaves every other place alone, and writes keep memory in its canonical form. -/

namespace Sys2Proof.Machine

theorem AMap.find_put_same {α : Type} (k : Nat) (v : α) (m : List (Nat × α)) : AMap.find k (AMap.put k v m) = some v := by
  induction m with
  | nil => simp [AMap.put, AMap.find]
  | cons p t ih =>
    obtain ⟨j, u⟩ := p
    unfold AMap.put
    split
    · simp [AMap.find]
    · split
      · simp [AMap.find]
      · next h => simp [AMap.find, h, ih]

theorem AMap.find_put_ne {α : Type} {k k' : Nat} (h : k' ≠ k) (v : α) (m : List (Nat × α)) :
    AMap.find k' (AMap.put k v m) = AMap.find k' m := by
  induction m with
  | nil => simp [AMap.put, AMap.find, h]
  | cons p t ih =>
    obtain ⟨j, u⟩ := p
    unfold AMap.put
    split
    · simp [AMap.find, h]
    · split
      · next e => subst e; simp [AMap.find, h]
      · simp only [AMap.find, ih]

theorem AMap.find_del_same {α : Type} (k : Nat) (m : List (Nat × α)) : AMap.find k (AMap.del k m) = none := by
  unfold AMap.del
  induction m with
  | nil => rfl
  | cons p t ih =>
    obtain ⟨j, u⟩ := p
    by_cases e : j = k
    · simp [e, ih]
    · have e' : ¬k = j := fun x => e x.symm
      simp [e, AMap.find, e', ih]

theorem AMap.find_del_ne {α : Type} {k k' : Nat} (h : k' ≠ k) (m : List (Nat × α)) :
    AMap.find k' (AMap.del k m) = AMap.find k' m := by
  unfold AMap.del
  induction m with
  | nil => rfl
  | cons p t ih =>
    obtain ⟨j, u⟩ := p
    by_cases e : j = k
    · have e' : ¬k' = j := fun x => h (x.trans e)
      simp [e, AMap.find, h, ih]
    · simp [e, AMap.find, ih]

/-- A read of the key that was set. -/
theorem AMap.get_set_same {α : Type} [DecidableEq α] (dflt : α) (k : Nat) (v : α) (m : List (Nat × α)) :
    AMap.get dflt k (AMap.set dflt k v m) = v := by
  unfold AMap.get AMap.set
  split
  · next h => simp [AMap.find_del_same, h]
  · simp [AMap.find_put_same]

/-- A read of any other key. -/
theorem AMap.get_set_ne {α : Type} [DecidableEq α] (dflt dflt' : α) {k k' : Nat} (h : k' ≠ k) (v : α) (m : List (Nat × α)) :
    AMap.get dflt' k' (AMap.set dflt k v m) = AMap.get dflt' k' m := by
  unfold AMap.get AMap.set
  split
  · simp [AMap.find_del_ne h]
  · simp [AMap.find_put_ne h]

/-- A field reads back what was set, cut to its width. -/
@[simp] theorem Dev.f_setF_same (d : Dev) (x : Field) (v : Nat) : (d.setF x v).f x = v % 2 ^ x.width :=
  AMap.get_set_same _ _ _ _

/-- Setting a field leaves the fields at other places alone. -/
theorem Dev.f_setF_ne (d : Dev) {x y : Field} (h : y.key ≠ x.key) (v : Nat) : (d.setF x v).f y = d.f y :=
  AMap.get_set_ne _ _ h _ _

@[simp] theorem Dev.ef_setEf_same (d : Dev) (x : Field) (v : Nat) : (d.setEf x v).ef x = v % 2 ^ x.width :=
  AMap.get_set_same _ _ _ _

theorem Dev.ef_setEf_ne (d : Dev) {x y : Field} (h : y.key ≠ x.key) (v : Nat) : (d.setEf x v).ef y = d.ef y :=
  AMap.get_set_ne _ _ h _ _

/-- Control space outside EVT and PMU is untouched by a write to EVT or PMU, and the other way round. -/
@[simp] theorem Dev.f_setEf (d : Dev) (x y : Field) (v : Nat) : (d.setEf x v).f y = d.f y := rfl
@[simp] theorem Dev.ef_setF (d : Dev) (x y : Field) (v : Nat) : (d.setF x v).ef y = d.ef y := rfl

@[simp] theorem Dev.ctrl_setCtrl_same (d : Dev) (p : Nat) (c : Ctrl) : (d.setCtrl p c).ctrl p = c :=
  AMap.get_set_same _ _ _ _

theorem Dev.ctrl_setCtrl_ne (d : Dev) {p p' : Nat} (h : p' ≠ p) (c : Ctrl) : (d.setCtrl p c).ctrl p' = d.ctrl p' :=
  AMap.get_set_ne _ _ h _ _

@[simp] theorem Dev.f_setCtrl (d : Dev) (p : Nat) (c : Ctrl) (y : Field) : (d.setCtrl p c).f y = d.f y := rfl

/-! ### Byte memory -/

/-- A byte reads back. -/
@[simp] theorem Mem.byte_setByte_same (m : Mem) (a : Nat) (b : Byte) : (m.setByte a b).byte a = b :=
  AMap.get_set_same _ _ _ _

/-- Every other byte stays. -/
theorem Mem.byte_setByte_ne (m : Mem) {a a' : Nat} (h : a' ≠ a) (b : Byte) : (m.setByte a b).byte a' = m.byte a' :=
  AMap.get_set_ne _ _ h _ _

/-- A store leaves the bytes outside it alone. -/
theorem Mem.byte_setBytes_out (m : Mem) (l : List Byte) (a a' : Nat) (h : a' < a ∨ a + l.length ≤ a') :
    (m.setBytes a l).byte a' = m.byte a' := by
  induction l generalizing m a with
  | nil => rfl
  | cons b t ih =>
    simp only [Mem.setBytes, List.length_cons] at h ⊢
    rw [ih _ _ (by omega), Mem.byte_setByte_ne _ (by omega)]

theorem AMap.put_head_lt {α : Type} (k : Nat) (v : α) (m : List (Nat × α)) (j : Nat)
    (h : ∀ p ∈ m, j < p.1) (hk : j < k) : ∀ p ∈ AMap.put k v m, j < p.1 := by
  induction m with
  | nil => intro p hp; simp [AMap.put] at hp; subst hp; exact hk
  | cons q t ih =>
    obtain ⟨i, u⟩ := q
    have hq : j < i := h (i, u) (by simp)
    have ht : ∀ p ∈ t, j < p.1 := fun p hp => h p (by simp [hp])
    intro p hp
    unfold AMap.put at hp
    split at hp
    · simp only [List.mem_cons] at hp
      rcases hp with rfl | rfl | hp
      · exact hk
      · exact hq
      · exact ht p hp
    · split at hp
      · simp only [List.mem_cons] at hp
        rcases hp with rfl | hp
        · exact hk
        · exact ht p hp
      · simp only [List.mem_cons] at hp
        rcases hp with rfl | hp
        · exact hq
        · exact ih ht p hp

theorem AMap.put_pairwise {α : Type} (k : Nat) (v : α) (m : List (Nat × α))
    (h : m.Pairwise (fun x y => x.1 < y.1)) : (AMap.put k v m).Pairwise (fun x y => x.1 < y.1) := by
  induction m with
  | nil => simp [AMap.put]
  | cons q t ih =>
    obtain ⟨i, u⟩ := q
    rw [List.pairwise_cons] at h
    unfold AMap.put
    split
    · next e =>
      rw [List.pairwise_cons, List.pairwise_cons]
      refine ⟨?_, h⟩
      intro p hp
      simp only [List.mem_cons] at hp
      rcases hp with rfl | hp
      · exact e
      · exact Nat.lt_trans e (h.1 p hp)
    · split
      · next e =>
        subst e
        rw [List.pairwise_cons]
        exact h
      · next e1 e2 =>
        rw [List.pairwise_cons]
        exact ⟨AMap.put_head_lt k v t i h.1 (by omega), ih h.2⟩

theorem AMap.put_all {α : Type} (k : Nat) (v : α) (m : List (Nat × α)) (p : Nat × α → Bool) (hm : m.all p = true)
    (hv : p (k, v) = true) : (AMap.put k v m).all p = true := by
  induction m with
  | nil => simp [AMap.put, hv]
  | cons q t ih =>
    obtain ⟨i, u⟩ := q
    simp only [List.all_cons, Bool.and_eq_true] at hm
    unfold AMap.put
    split
    · simp [hv, hm.1, hm.2]
    · split
      · simp [hv, hm.2]
      · simp [hm.1, ih hm.2]

/-- A write of a byte keeps the canonical form. -/
theorem Mem.setByte_wf (m : Mem) (a : Nat) (b : Byte) (h : m.wf = true) : (m.setByte a b).wf = true := by
  simp only [Mem.wf, Bool.and_eq_true, decide_eq_true_eq] at h ⊢
  obtain ⟨h1, h2⟩ := h
  unfold Mem.setByte AMap.set
  dsimp only
  split
  · refine ⟨h1.filter _, ?_⟩
    unfold AMap.del
    rw [List.all_eq_true] at h2 ⊢
    exact fun x hx => h2 x (List.mem_filter.mp hx).1
  · next e => exact ⟨AMap.put_pairwise a b _ h1, AMap.put_all a b _ _ h2 (by simpa using e)⟩

theorem Mem.setBytes_wf (m : Mem) (l : List Byte) (a : Nat) (h : m.wf = true) : (m.setBytes a l).wf = true := by
  induction l generalizing m a with
  | nil => exact h
  | cons b t ih => exact ih _ _ (Mem.setByte_wf m a b h)

@[simp] theorem Mem.setPoison_wf (m : Mem) (a : Nat) (p : Bool) : (m.setPoison a p).wf = m.wf := rfl

theorem Mem.setPoisonRange_wf (m : Mem) (p : Bool) (n a : Nat) : (m.setPoisonRange a p n).wf = m.wf := by
  induction n generalizing m a with
  | zero => rfl
  | succ n ih => simp only [Mem.setPoisonRange, ih, Mem.setPoison_wf]

theorem Mem.init_wf : Mem.init.wf = true := rfl

end Sys2Proof.Machine
end

