-- ==== Sys2Proof/Laws/State.lean ====
section
/-! SUPPORT. One lemma for each field of `Dev` under each named update, all true by `rfl`, so that no proof unfolds a record update. -/

namespace Sys2Proof.Machine

variable (d : Dev)

@[simp] theorem Dev.setF_pins (x : Field) (v : Nat) : (d.setF x v).pins = d.pins := rfl
@[simp] theorem Dev.setF_mode (x : Field) (v : Nat) : (d.setF x v).mode = d.mode := rfl
@[simp] theorem Dev.setF_free (x : Field) (v : Nat) : (d.setF x v).free = d.free := rfl
@[simp] theorem Dev.setF_host (x : Field) (v : Nat) : (d.setF x v).host = d.host := rfl
@[simp] theorem Dev.setF_plot (x : Field) (v : Nat) : (d.setF x v).plot = d.plot := rfl
@[simp] theorem Dev.setF_media (x : Field) (v : Nat) : (d.setF x v).media = d.media := rfl
@[simp] theorem Dev.setF_flash (x : Field) (v : Nat) : (d.setF x v).flash = d.flash := rfl
@[simp] theorem Dev.setF_mram (x : Field) (v : Nat) : (d.setF x v).mram = d.mram := rfl
@[simp] theorem Dev.setF_md (x : Field) (v : Nat) : (d.setF x v).md = d.md := rfl
@[simp] theorem Dev.setF_ftl (x : Field) (v : Nat) : (d.setF x v).ftl = d.ftl := rfl
@[simp] theorem Dev.setF_strp (x : Field) (v : Nat) : (d.setF x v).strp = d.strp := rfl
@[simp] theorem Dev.setF_fuses (x : Field) (v : Nat) : (d.setF x v).fuses = d.fuses := rfl
@[simp] theorem Dev.setF_bootFlash (x : Field) (v : Nat) : (d.setF x v).bootFlash = d.bootFlash := rfl
@[simp] theorem Dev.setF_boot (x : Field) (v : Nat) : (d.setF x v).boot = d.boot := rfl
@[simp] theorem Dev.setF_nv (x : Field) (v : Nat) : (d.setF x v).nv = d.nv := rfl
@[simp] theorem Dev.setF_crypt (x : Field) (v : Nat) : (d.setF x v).crypt = d.crypt := rfl
@[simp] theorem Dev.setF_trel (x : Field) (v : Nat) : (d.setF x v).trel = d.trel := rfl
@[simp] theorem Dev.setF_eras (x : Field) (v : Nat) : (d.setF x v).eras = d.eras := rfl
@[simp] theorem Dev.setF_epochs (x : Field) (v : Nat) : (d.setF x v).epochs = d.epochs := rfl
@[simp] theorem Dev.setF_spent (x : Field) (v : Nat) : (d.setF x v).spent = d.spent := rfl
@[simp] theorem Dev.setF_gcm (x : Field) (v : Nat) : (d.setF x v).gcm = d.gcm := rfl
@[simp] theorem Dev.setF_memc (x : Field) (v : Nat) : (d.setF x v).memc = d.memc := rfl
@[simp] theorem Dev.setF_ecc (x : Field) (v : Nat) : (d.setF x v).ecc = d.ecc := rfl
@[simp] theorem Dev.setF_pail (x : Field) (v : Nat) : (d.setF x v).pail = d.pail := rfl
@[simp] theorem Dev.setF_sramBad (x : Field) (v : Nat) : (d.setF x v).sramBad = d.sramBad := rfl
@[simp] theorem Dev.setF_marks (x : Field) (v : Nat) : (d.setF x v).marks = d.marks := rfl
@[simp] theorem Dev.setF_core (x : Field) (v : Nat) : (d.setF x v).core = d.core := rfl
@[simp] theorem Dev.setF_gwl (x : Field) (v : Nat) : (d.setF x v).gwl = d.gwl := rfl
@[simp] theorem Dev.setF_clu (x : Field) (v : Nat) : (d.setF x v).clu = d.clu := rfl
@[simp] theorem Dev.setF_evt (x : Field) (v : Nat) : (d.setF x v).evt = d.evt := rfl
@[simp] theorem Dev.setF_test (x : Field) (v : Nat) : (d.setF x v).test = d.test := rfl
@[simp] theorem Dev.setF_finj (x : Field) (v : Nat) : (d.setF x v).finj = d.finj := rfl

@[simp] theorem Dev.setEf_pins (x : Field) (v : Nat) : (d.setEf x v).pins = d.pins := rfl
@[simp] theorem Dev.setEf_mode (x : Field) (v : Nat) : (d.setEf x v).mode = d.mode := rfl
@[simp] theorem Dev.setEf_regs (x : Field) (v : Nat) : (d.setEf x v).regs = d.regs := rfl
@[simp] theorem Dev.setEf_free (x : Field) (v : Nat) : (d.setEf x v).free = d.free := rfl
@[simp] theorem Dev.setEf_host (x : Field) (v : Nat) : (d.setEf x v).host = d.host := rfl
@[simp] theorem Dev.setEf_plot (x : Field) (v : Nat) : (d.setEf x v).plot = d.plot := rfl
@[simp] theorem Dev.setEf_media (x : Field) (v : Nat) : (d.setEf x v).media = d.media := rfl
@[simp] theorem Dev.setEf_flash (x : Field) (v : Nat) : (d.setEf x v).flash = d.flash := rfl
@[simp] theorem Dev.setEf_mram (x : Field) (v : Nat) : (d.setEf x v).mram = d.mram := rfl
@[simp] theorem Dev.setEf_md (x : Field) (v : Nat) : (d.setEf x v).md = d.md := rfl
@[simp] theorem Dev.setEf_ftl (x : Field) (v : Nat) : (d.setEf x v).ftl = d.ftl := rfl
@[simp] theorem Dev.setEf_strp (x : Field) (v : Nat) : (d.setEf x v).strp = d.strp := rfl
@[simp] theorem Dev.setEf_fuses (x : Field) (v : Nat) : (d.setEf x v).fuses = d.fuses := rfl
@[simp] theorem Dev.setEf_bootFlash (x : Field) (v : Nat) : (d.setEf x v).bootFlash = d.bootFlash := rfl
@[simp] theorem Dev.setEf_boot (x : Field) (v : Nat) : (d.setEf x v).boot = d.boot := rfl
@[simp] theorem Dev.setEf_nv (x : Field) (v : Nat) : (d.setEf x v).nv = d.nv := rfl
@[simp] theorem Dev.setEf_crypt (x : Field) (v : Nat) : (d.setEf x v).crypt = d.crypt := rfl
@[simp] theorem Dev.setEf_trel (x : Field) (v : Nat) : (d.setEf x v).trel = d.trel := rfl
@[simp] theorem Dev.setEf_eras (x : Field) (v : Nat) : (d.setEf x v).eras = d.eras := rfl
@[simp] theorem Dev.setEf_epochs (x : Field) (v : Nat) : (d.setEf x v).epochs = d.epochs := rfl
@[simp] theorem Dev.setEf_spent (x : Field) (v : Nat) : (d.setEf x v).spent = d.spent := rfl
@[simp] theorem Dev.setEf_gcm (x : Field) (v : Nat) : (d.setEf x v).gcm = d.gcm := rfl
@[simp] theorem Dev.setEf_memc (x : Field) (v : Nat) : (d.setEf x v).memc = d.memc := rfl
@[simp] theorem Dev.setEf_ecc (x : Field) (v : Nat) : (d.setEf x v).ecc = d.ecc := rfl
@[simp] theorem Dev.setEf_pail (x : Field) (v : Nat) : (d.setEf x v).pail = d.pail := rfl
@[simp] theorem Dev.setEf_sramBad (x : Field) (v : Nat) : (d.setEf x v).sramBad = d.sramBad := rfl
@[simp] theorem Dev.setEf_marks (x : Field) (v : Nat) : (d.setEf x v).marks = d.marks := rfl
@[simp] theorem Dev.setEf_core (x : Field) (v : Nat) : (d.setEf x v).core = d.core := rfl
@[simp] theorem Dev.setEf_gwl (x : Field) (v : Nat) : (d.setEf x v).gwl = d.gwl := rfl
@[simp] theorem Dev.setEf_clu (x : Field) (v : Nat) : (d.setEf x v).clu = d.clu := rfl
@[simp] theorem Dev.setEf_test (x : Field) (v : Nat) : (d.setEf x v).test = d.test := rfl
@[simp] theorem Dev.setEf_finj (x : Field) (v : Nat) : (d.setEf x v).finj = d.finj := rfl

@[simp] theorem Dev.setCpu_pins (c : Nat) (s : CoreSt) : (d.setCpu c s).pins = d.pins := rfl
@[simp] theorem Dev.setCpu_mode (c : Nat) (s : CoreSt) : (d.setCpu c s).mode = d.mode := rfl
@[simp] theorem Dev.setCpu_regs (c : Nat) (s : CoreSt) : (d.setCpu c s).regs = d.regs := rfl
@[simp] theorem Dev.setCpu_free (c : Nat) (s : CoreSt) : (d.setCpu c s).free = d.free := rfl
@[simp] theorem Dev.setCpu_host (c : Nat) (s : CoreSt) : (d.setCpu c s).host = d.host := rfl
@[simp] theorem Dev.setCpu_plot (c : Nat) (s : CoreSt) : (d.setCpu c s).plot = d.plot := rfl
@[simp] theorem Dev.setCpu_media (c : Nat) (s : CoreSt) : (d.setCpu c s).media = d.media := rfl
@[simp] theorem Dev.setCpu_flash (c : Nat) (s : CoreSt) : (d.setCpu c s).flash = d.flash := rfl
@[simp] theorem Dev.setCpu_mram (c : Nat) (s : CoreSt) : (d.setCpu c s).mram = d.mram := rfl
@[simp] theorem Dev.setCpu_md (c : Nat) (s : CoreSt) : (d.setCpu c s).md = d.md := rfl
@[simp] theorem Dev.setCpu_ftl (c : Nat) (s : CoreSt) : (d.setCpu c s).ftl = d.ftl := rfl
@[simp] theorem Dev.setCpu_strp (c : Nat) (s : CoreSt) : (d.setCpu c s).strp = d.strp := rfl
@[simp] theorem Dev.setCpu_fuses (c : Nat) (s : CoreSt) : (d.setCpu c s).fuses = d.fuses := rfl
@[simp] theorem Dev.setCpu_bootFlash (c : Nat) (s : CoreSt) : (d.setCpu c s).bootFlash = d.bootFlash := rfl
@[simp] theorem Dev.setCpu_boot (c : Nat) (s : CoreSt) : (d.setCpu c s).boot = d.boot := rfl
@[simp] theorem Dev.setCpu_nv (c : Nat) (s : CoreSt) : (d.setCpu c s).nv = d.nv := rfl
@[simp] theorem Dev.setCpu_crypt (c : Nat) (s : CoreSt) : (d.setCpu c s).crypt = d.crypt := rfl
@[simp] theorem Dev.setCpu_trel (c : Nat) (s : CoreSt) : (d.setCpu c s).trel = d.trel := rfl
@[simp] theorem Dev.setCpu_eras (c : Nat) (s : CoreSt) : (d.setCpu c s).eras = d.eras := rfl
@[simp] theorem Dev.setCpu_epochs (c : Nat) (s : CoreSt) : (d.setCpu c s).epochs = d.epochs := rfl
@[simp] theorem Dev.setCpu_spent (c : Nat) (s : CoreSt) : (d.setCpu c s).spent = d.spent := rfl
@[simp] theorem Dev.setCpu_gcm (c : Nat) (s : CoreSt) : (d.setCpu c s).gcm = d.gcm := rfl
@[simp] theorem Dev.setCpu_memc (c : Nat) (s : CoreSt) : (d.setCpu c s).memc = d.memc := rfl
@[simp] theorem Dev.setCpu_ecc (c : Nat) (s : CoreSt) : (d.setCpu c s).ecc = d.ecc := rfl
@[simp] theorem Dev.setCpu_pail (c : Nat) (s : CoreSt) : (d.setCpu c s).pail = d.pail := rfl
@[simp] theorem Dev.setCpu_sramBad (c : Nat) (s : CoreSt) : (d.setCpu c s).sramBad = d.sramBad := rfl
@[simp] theorem Dev.setCpu_marks (c : Nat) (s : CoreSt) : (d.setCpu c s).marks = d.marks := rfl
@[simp] theorem Dev.setCpu_gwl (c : Nat) (s : CoreSt) : (d.setCpu c s).gwl = d.gwl := rfl
@[simp] theorem Dev.setCpu_clu (c : Nat) (s : CoreSt) : (d.setCpu c s).clu = d.clu := rfl
@[simp] theorem Dev.setCpu_evt (c : Nat) (s : CoreSt) : (d.setCpu c s).evt = d.evt := rfl
@[simp] theorem Dev.setCpu_test (c : Nat) (s : CoreSt) : (d.setCpu c s).test = d.test := rfl
@[simp] theorem Dev.setCpu_finj (c : Nat) (s : CoreSt) : (d.setCpu c s).finj = d.finj := rfl

@[simp] theorem Dev.setCtrl_pins (p : Nat) (c : Ctrl) : (d.setCtrl p c).pins = d.pins := rfl
@[simp] theorem Dev.setCtrl_mode (p : Nat) (c : Ctrl) : (d.setCtrl p c).mode = d.mode := rfl
@[simp] theorem Dev.setCtrl_regs (p : Nat) (c : Ctrl) : (d.setCtrl p c).regs = d.regs := rfl
@[simp] theorem Dev.setCtrl_free (p : Nat) (c : Ctrl) : (d.setCtrl p c).free = d.free := rfl
@[simp] theorem Dev.setCtrl_plot (p : Nat) (c : Ctrl) : (d.setCtrl p c).plot = d.plot := rfl
@[simp] theorem Dev.setCtrl_media (p : Nat) (c : Ctrl) : (d.setCtrl p c).media = d.media := rfl
@[simp] theorem Dev.setCtrl_flash (p : Nat) (c : Ctrl) : (d.setCtrl p c).flash = d.flash := rfl
@[simp] theorem Dev.setCtrl_mram (p : Nat) (c : Ctrl) : (d.setCtrl p c).mram = d.mram := rfl
@[simp] theorem Dev.setCtrl_md (p : Nat) (c : Ctrl) : (d.setCtrl p c).md = d.md := rfl
@[simp] theorem Dev.setCtrl_ftl (p : Nat) (c : Ctrl) : (d.setCtrl p c).ftl = d.ftl := rfl
@[simp] theorem Dev.setCtrl_strp (p : Nat) (c : Ctrl) : (d.setCtrl p c).strp = d.strp := rfl
@[simp] theorem Dev.setCtrl_fuses (p : Nat) (c : Ctrl) : (d.setCtrl p c).fuses = d.fuses := rfl
@[simp] theorem Dev.setCtrl_bootFlash (p : Nat) (c : Ctrl) : (d.setCtrl p c).bootFlash = d.bootFlash := rfl
@[simp] theorem Dev.setCtrl_boot (p : Nat) (c : Ctrl) : (d.setCtrl p c).boot = d.boot := rfl
@[simp] theorem Dev.setCtrl_nv (p : Nat) (c : Ctrl) : (d.setCtrl p c).nv = d.nv := rfl
@[simp] theorem Dev.setCtrl_crypt (p : Nat) (c : Ctrl) : (d.setCtrl p c).crypt = d.crypt := rfl
@[simp] theorem Dev.setCtrl_trel (p : Nat) (c : Ctrl) : (d.setCtrl p c).trel = d.trel := rfl
@[simp] theorem Dev.setCtrl_eras (p : Nat) (c : Ctrl) : (d.setCtrl p c).eras = d.eras := rfl
@[simp] theorem Dev.setCtrl_epochs (p : Nat) (c : Ctrl) : (d.setCtrl p c).epochs = d.epochs := rfl
@[simp] theorem Dev.setCtrl_spent (p : Nat) (c : Ctrl) : (d.setCtrl p c).spent = d.spent := rfl
@[simp] theorem Dev.setCtrl_gcm (p : Nat) (c : Ctrl) : (d.setCtrl p c).gcm = d.gcm := rfl
@[simp] theorem Dev.setCtrl_memc (p : Nat) (c : Ctrl) : (d.setCtrl p c).memc = d.memc := rfl
@[simp] theorem Dev.setCtrl_ecc (p : Nat) (c : Ctrl) : (d.setCtrl p c).ecc = d.ecc := rfl
@[simp] theorem Dev.setCtrl_pail (p : Nat) (c : Ctrl) : (d.setCtrl p c).pail = d.pail := rfl
@[simp] theorem Dev.setCtrl_sramBad (p : Nat) (c : Ctrl) : (d.setCtrl p c).sramBad = d.sramBad := rfl
@[simp] theorem Dev.setCtrl_marks (p : Nat) (c : Ctrl) : (d.setCtrl p c).marks = d.marks := rfl
@[simp] theorem Dev.setCtrl_core (p : Nat) (c : Ctrl) : (d.setCtrl p c).core = d.core := rfl
@[simp] theorem Dev.setCtrl_gwl (p : Nat) (c : Ctrl) : (d.setCtrl p c).gwl = d.gwl := rfl
@[simp] theorem Dev.setCtrl_clu (p : Nat) (c : Ctrl) : (d.setCtrl p c).clu = d.clu := rfl
@[simp] theorem Dev.setCtrl_evt (p : Nat) (c : Ctrl) : (d.setCtrl p c).evt = d.evt := rfl
@[simp] theorem Dev.setCtrl_test (p : Nat) (c : Ctrl) : (d.setCtrl p c).test = d.test := rfl
@[simp] theorem Dev.setCtrl_finj (p : Nat) (c : Ctrl) : (d.setCtrl p c).finj = d.finj := rfl

@[simp] theorem Dev.send_pins (m : HostMsg) : (d.send m).pins = d.pins := rfl
@[simp] theorem Dev.send_mode (m : HostMsg) : (d.send m).mode = d.mode := rfl
@[simp] theorem Dev.send_regs (m : HostMsg) : (d.send m).regs = d.regs := rfl
@[simp] theorem Dev.send_free (m : HostMsg) : (d.send m).free = d.free := rfl
@[simp] theorem Dev.send_plot (m : HostMsg) : (d.send m).plot = d.plot := rfl
@[simp] theorem Dev.send_media (m : HostMsg) : (d.send m).media = d.media := rfl
@[simp] theorem Dev.send_flash (m : HostMsg) : (d.send m).flash = d.flash := rfl
@[simp] theorem Dev.send_mram (m : HostMsg) : (d.send m).mram = d.mram := rfl
@[simp] theorem Dev.send_md (m : HostMsg) : (d.send m).md = d.md := rfl
@[simp] theorem Dev.send_ftl (m : HostMsg) : (d.send m).ftl = d.ftl := rfl
@[simp] theorem Dev.send_strp (m : HostMsg) : (d.send m).strp = d.strp := rfl
@[simp] theorem Dev.send_fuses (m : HostMsg) : (d.send m).fuses = d.fuses := rfl
@[simp] theorem Dev.send_bootFlash (m : HostMsg) : (d.send m).bootFlash = d.bootFlash := rfl
@[simp] theorem Dev.send_boot (m : HostMsg) : (d.send m).boot = d.boot := rfl
@[simp] theorem Dev.send_nv (m : HostMsg) : (d.send m).nv = d.nv := rfl
@[simp] theorem Dev.send_crypt (m : HostMsg) : (d.send m).crypt = d.crypt := rfl
@[simp] theorem Dev.send_trel (m : HostMsg) : (d.send m).trel = d.trel := rfl
@[simp] theorem Dev.send_eras (m : HostMsg) : (d.send m).eras = d.eras := rfl
@[simp] theorem Dev.send_epochs (m : HostMsg) : (d.send m).epochs = d.epochs := rfl
@[simp] theorem Dev.send_spent (m : HostMsg) : (d.send m).spent = d.spent := rfl
@[simp] theorem Dev.send_gcm (m : HostMsg) : (d.send m).gcm = d.gcm := rfl
@[simp] theorem Dev.send_memc (m : HostMsg) : (d.send m).memc = d.memc := rfl
@[simp] theorem Dev.send_ecc (m : HostMsg) : (d.send m).ecc = d.ecc := rfl
@[simp] theorem Dev.send_pail (m : HostMsg) : (d.send m).pail = d.pail := rfl
@[simp] theorem Dev.send_sramBad (m : HostMsg) : (d.send m).sramBad = d.sramBad := rfl
@[simp] theorem Dev.send_marks (m : HostMsg) : (d.send m).marks = d.marks := rfl
@[simp] theorem Dev.send_core (m : HostMsg) : (d.send m).core = d.core := rfl
@[simp] theorem Dev.send_gwl (m : HostMsg) : (d.send m).gwl = d.gwl := rfl
@[simp] theorem Dev.send_clu (m : HostMsg) : (d.send m).clu = d.clu := rfl
@[simp] theorem Dev.send_evt (m : HostMsg) : (d.send m).evt = d.evt := rfl
@[simp] theorem Dev.send_test (m : HostMsg) : (d.send m).test = d.test := rfl
@[simp] theorem Dev.send_finj (m : HostMsg) : (d.send m).finj = d.finj := rfl

@[simp] theorem Dev.stat_pins (p k n : Nat) : (d.stat p k n).pins = d.pins := rfl
@[simp] theorem Dev.stat_mode (p k n : Nat) : (d.stat p k n).mode = d.mode := rfl
@[simp] theorem Dev.stat_regs (p k n : Nat) : (d.stat p k n).regs = d.regs := rfl
@[simp] theorem Dev.stat_free (p k n : Nat) : (d.stat p k n).free = d.free := rfl
@[simp] theorem Dev.stat_plot (p k n : Nat) : (d.stat p k n).plot = d.plot := rfl
@[simp] theorem Dev.stat_media (p k n : Nat) : (d.stat p k n).media = d.media := rfl
@[simp] theorem Dev.stat_flash (p k n : Nat) : (d.stat p k n).flash = d.flash := rfl
@[simp] theorem Dev.stat_mram (p k n : Nat) : (d.stat p k n).mram = d.mram := rfl
@[simp] theorem Dev.stat_md (p k n : Nat) : (d.stat p k n).md = d.md := rfl
@[simp] theorem Dev.stat_ftl (p k n : Nat) : (d.stat p k n).ftl = d.ftl := rfl
@[simp] theorem Dev.stat_strp (p k n : Nat) : (d.stat p k n).strp = d.strp := rfl
@[simp] theorem Dev.stat_fuses (p k n : Nat) : (d.stat p k n).fuses = d.fuses := rfl
@[simp] theorem Dev.stat_bootFlash (p k n : Nat) : (d.stat p k n).bootFlash = d.bootFlash := rfl
@[simp] theorem Dev.stat_boot (p k n : Nat) : (d.stat p k n).boot = d.boot := rfl
@[simp] theorem Dev.stat_nv (p k n : Nat) : (d.stat p k n).nv = d.nv := rfl
@[simp] theorem Dev.stat_crypt (p k n : Nat) : (d.stat p k n).crypt = d.crypt := rfl
@[simp] theorem Dev.stat_trel (p k n : Nat) : (d.stat p k n).trel = d.trel := rfl
@[simp] theorem Dev.stat_eras (p k n : Nat) : (d.stat p k n).eras = d.eras := rfl
@[simp] theorem Dev.stat_epochs (p k n : Nat) : (d.stat p k n).epochs = d.epochs := rfl
@[simp] theorem Dev.stat_spent (p k n : Nat) : (d.stat p k n).spent = d.spent := rfl
@[simp] theorem Dev.stat_gcm (p k n : Nat) : (d.stat p k n).gcm = d.gcm := rfl
@[simp] theorem Dev.stat_memc (p k n : Nat) : (d.stat p k n).memc = d.memc := rfl
@[simp] theorem Dev.stat_ecc (p k n : Nat) : (d.stat p k n).ecc = d.ecc := rfl
@[simp] theorem Dev.stat_pail (p k n : Nat) : (d.stat p k n).pail = d.pail := rfl
@[simp] theorem Dev.stat_sramBad (p k n : Nat) : (d.stat p k n).sramBad = d.sramBad := rfl
@[simp] theorem Dev.stat_marks (p k n : Nat) : (d.stat p k n).marks = d.marks := rfl
@[simp] theorem Dev.stat_core (p k n : Nat) : (d.stat p k n).core = d.core := rfl
@[simp] theorem Dev.stat_gwl (p k n : Nat) : (d.stat p k n).gwl = d.gwl := rfl
@[simp] theorem Dev.stat_clu (p k n : Nat) : (d.stat p k n).clu = d.clu := rfl
@[simp] theorem Dev.stat_evt (p k n : Nat) : (d.stat p k n).evt = d.evt := rfl
@[simp] theorem Dev.stat_test (p k n : Nat) : (d.stat p k n).test = d.test := rfl
@[simp] theorem Dev.stat_finj (p k n : Nat) : (d.stat p k n).finj = d.finj := rfl

@[simp] theorem Dev.dropLatch_pins (id : CmdId) : (d.dropLatch id).pins = d.pins := rfl
@[simp] theorem Dev.dropLatch_mode (id : CmdId) : (d.dropLatch id).mode = d.mode := rfl
@[simp] theorem Dev.dropLatch_regs (id : CmdId) : (d.dropLatch id).regs = d.regs := rfl
@[simp] theorem Dev.dropLatch_free (id : CmdId) : (d.dropLatch id).free = d.free := rfl
@[simp] theorem Dev.dropLatch_plot (id : CmdId) : (d.dropLatch id).plot = d.plot := rfl
@[simp] theorem Dev.dropLatch_media (id : CmdId) : (d.dropLatch id).media = d.media := rfl
@[simp] theorem Dev.dropLatch_flash (id : CmdId) : (d.dropLatch id).flash = d.flash := rfl
@[simp] theorem Dev.dropLatch_mram (id : CmdId) : (d.dropLatch id).mram = d.mram := rfl
@[simp] theorem Dev.dropLatch_md (id : CmdId) : (d.dropLatch id).md = d.md := rfl
@[simp] theorem Dev.dropLatch_ftl (id : CmdId) : (d.dropLatch id).ftl = d.ftl := rfl
@[simp] theorem Dev.dropLatch_strp (id : CmdId) : (d.dropLatch id).strp = d.strp := rfl
@[simp] theorem Dev.dropLatch_fuses (id : CmdId) : (d.dropLatch id).fuses = d.fuses := rfl
@[simp] theorem Dev.dropLatch_bootFlash (id : CmdId) : (d.dropLatch id).bootFlash = d.bootFlash := rfl
@[simp] theorem Dev.dropLatch_boot (id : CmdId) : (d.dropLatch id).boot = d.boot := rfl
@[simp] theorem Dev.dropLatch_nv (id : CmdId) : (d.dropLatch id).nv = d.nv := rfl
@[simp] theorem Dev.dropLatch_crypt (id : CmdId) : (d.dropLatch id).crypt = d.crypt := rfl
@[simp] theorem Dev.dropLatch_trel (id : CmdId) : (d.dropLatch id).trel = d.trel := rfl
@[simp] theorem Dev.dropLatch_eras (id : CmdId) : (d.dropLatch id).eras = d.eras := rfl
@[simp] theorem Dev.dropLatch_epochs (id : CmdId) : (d.dropLatch id).epochs = d.epochs := rfl
@[simp] theorem Dev.dropLatch_spent (id : CmdId) : (d.dropLatch id).spent = d.spent := rfl
@[simp] theorem Dev.dropLatch_gcm (id : CmdId) : (d.dropLatch id).gcm = d.gcm := rfl
@[simp] theorem Dev.dropLatch_memc (id : CmdId) : (d.dropLatch id).memc = d.memc := rfl
@[simp] theorem Dev.dropLatch_ecc (id : CmdId) : (d.dropLatch id).ecc = d.ecc := rfl
@[simp] theorem Dev.dropLatch_pail (id : CmdId) : (d.dropLatch id).pail = d.pail := rfl
@[simp] theorem Dev.dropLatch_sramBad (id : CmdId) : (d.dropLatch id).sramBad = d.sramBad := rfl
@[simp] theorem Dev.dropLatch_marks (id : CmdId) : (d.dropLatch id).marks = d.marks := rfl
@[simp] theorem Dev.dropLatch_core (id : CmdId) : (d.dropLatch id).core = d.core := rfl
@[simp] theorem Dev.dropLatch_gwl (id : CmdId) : (d.dropLatch id).gwl = d.gwl := rfl
@[simp] theorem Dev.dropLatch_clu (id : CmdId) : (d.dropLatch id).clu = d.clu := rfl
@[simp] theorem Dev.dropLatch_evt (id : CmdId) : (d.dropLatch id).evt = d.evt := rfl
@[simp] theorem Dev.dropLatch_test (id : CmdId) : (d.dropLatch id).test = d.test := rfl
@[simp] theorem Dev.dropLatch_finj (id : CmdId) : (d.dropLatch id).finj = d.finj := rfl

@[simp] theorem Dev.draw_pins : d.draw.2.pins = d.pins := rfl
@[simp] theorem Dev.draw_mode : d.draw.2.mode = d.mode := rfl
@[simp] theorem Dev.draw_regs : d.draw.2.regs = d.regs := rfl
@[simp] theorem Dev.draw_host : d.draw.2.host = d.host := rfl
@[simp] theorem Dev.draw_plot : d.draw.2.plot = d.plot := rfl
@[simp] theorem Dev.draw_media : d.draw.2.media = d.media := rfl
@[simp] theorem Dev.draw_flash : d.draw.2.flash = d.flash := rfl
@[simp] theorem Dev.draw_mram : d.draw.2.mram = d.mram := rfl
@[simp] theorem Dev.draw_md : d.draw.2.md = d.md := rfl
@[simp] theorem Dev.draw_ftl : d.draw.2.ftl = d.ftl := rfl
@[simp] theorem Dev.draw_strp : d.draw.2.strp = d.strp := rfl
@[simp] theorem Dev.draw_fuses : d.draw.2.fuses = d.fuses := rfl
@[simp] theorem Dev.draw_bootFlash : d.draw.2.bootFlash = d.bootFlash := rfl
@[simp] theorem Dev.draw_boot : d.draw.2.boot = d.boot := rfl
@[simp] theorem Dev.draw_nv : d.draw.2.nv = d.nv := rfl
@[simp] theorem Dev.draw_crypt : d.draw.2.crypt = d.crypt := rfl
@[simp] theorem Dev.draw_trel : d.draw.2.trel = d.trel := rfl
@[simp] theorem Dev.draw_eras : d.draw.2.eras = d.eras := rfl
@[simp] theorem Dev.draw_epochs : d.draw.2.epochs = d.epochs := rfl
@[simp] theorem Dev.draw_spent : d.draw.2.spent = d.spent := rfl
@[simp] theorem Dev.draw_gcm : d.draw.2.gcm = d.gcm := rfl
@[simp] theorem Dev.draw_memc : d.draw.2.memc = d.memc := rfl
@[simp] theorem Dev.draw_ecc : d.draw.2.ecc = d.ecc := rfl
@[simp] theorem Dev.draw_pail : d.draw.2.pail = d.pail := rfl
@[simp] theorem Dev.draw_sramBad : d.draw.2.sramBad = d.sramBad := rfl
@[simp] theorem Dev.draw_marks : d.draw.2.marks = d.marks := rfl
@[simp] theorem Dev.draw_core : d.draw.2.core = d.core := rfl
@[simp] theorem Dev.draw_gwl : d.draw.2.gwl = d.gwl := rfl
@[simp] theorem Dev.draw_clu : d.draw.2.clu = d.clu := rfl
@[simp] theorem Dev.draw_evt : d.draw.2.evt = d.evt := rfl
@[simp] theorem Dev.draw_test : d.draw.2.test = d.test := rfl
@[simp] theorem Dev.draw_finj : d.draw.2.finj = d.finj := rfl

@[simp] theorem Dev.draw_free : d.draw.2.free = d.free + 1 := rfl
@[simp] theorem Dev.draw_fst : d.draw.1 = d.free := rfl
@[simp] theorem Dev.setF_regs (x : Field) (v : Nat) : (d.setF x v).regs = d.regs.set x v := rfl
@[simp] theorem Dev.setEf_regs' (x : Field) (v : Nat) : (d.setEf x v).evt.regs = d.evt.regs.set x v := rfl
@[simp] theorem Dev.setEf_journal (x : Field) (v : Nat) : (d.setEf x v).evt.journal = d.evt.journal := rfl
@[simp] theorem Dev.setEf_ovf (x : Field) (v : Nat) : (d.setEf x v).evt.ovf = d.evt.ovf := rfl

end Sys2Proof.Machine
end

