-- ==== Sys2Proof/Laws/Events.lean ====
section
/-! SUPPORT. What raising events can change: control space in one field, the event system and the host interface, nothing else. -/

namespace Sys2Proof.Machine

/-- Folding operations that leave the still part alone leaves it alone. -/
theorem Dev.foldl_still {α : Type} (f : Dev → α → Dev) (hf : ∀ d a, (f d a).still = d.still) (l : List α) (d : Dev) :
    (l.foldl f d).still = d.still := by
  induction l generalizing d with
  | nil => rfl
  | cons a t ih => rw [List.foldl_cons, ih, hf]

@[simp] theorem Dev.setF_still (d : Dev) (x : Field) (v : Nat) : (d.setF x v).still = d.still := rfl
@[simp] theorem Dev.setEf_still (d : Dev) (x : Field) (v : Nat) : (d.setEf x v).still = d.still := rfl
@[simp] theorem Dev.setCtrl_still (d : Dev) (p : Nat) (c : Ctrl) : (d.setCtrl p c).still = d.still := rfl
@[simp] theorem Dev.send_still (d : Dev) (m : HostMsg) : (d.send m).still = d.still := rfl

theorem Dev.still_evt (d : Dev) (x : EvtSt) : ({ d with evt := x } : Dev).still = d.still := rfl

@[simp] theorem Dev.pmuBump_still (d : Dev) (i n : Nat) : (d.pmuBump i n).still = d.still := by
  simp only [Dev.pmuBump]
  split
  · rfl
  · split <;> rfl

@[simp] theorem Dev.pmuAdd_still (d : Dev) (src q p n : Nat) : (d.pmuAdd src q p n).still = d.still :=
  Dev.foldl_still _ (fun d i => by split <;> simp) _ d

@[simp] theorem Dev.msix_still (d : Dev) (p v : Nat) : (d.msix p v).still = d.still := by
  unfold Dev.msix
  split <;> rfl

@[simp] theorem Dev.writeCqe_still (d : Dev) (p : Nat) (q : Cq) (e : Cqe) : (d.writeCqe p q e).still = d.still := by
  unfold Dev.writeCqe
  dsimp only
  split
  · simp
  · split <;> simp

@[simp] theorem Dev.postCqe_still (d : Dev) (p cq : Nat) (e : Cqe) : (d.postCqe p cq e).still = d.still := by
  unfold Dev.postCqe
  split
  · rfl
  · split <;> simp

/-- A successful completion touches the host interface and the counters alone. -/
@[simp] theorem Dev.complete_still (d : Dev) (id : CmdId) (dw0 dw1 : Nat) : (d.complete id .success dw0 dw1).still = d.still := by
  unfold Dev.complete
  split
  · rfl
  · simp only [reduceCtorEq, if_false, if_true, Dev.postCqe_still]
    rw [Dev.pmuAdd_still]; rfl

@[simp] theorem Dev.asyncTo_still (d : Dev) (p : Nat) (e : AsyncEv) : (d.asyncTo p e).still = d.still := by
  unfold Dev.asyncTo
  dsimp only
  split
  · rfl
  · split
    · split <;> simp
    · simp

@[simp] theorem Dev.vendorTo_still (d : Dev) (i p : Nat) : (d.vendorTo i p).still = d.still := by
  unfold Dev.vendorTo
  split <;> simp

@[simp] theorem Dev.vendorAll_still (d : Dev) (i : Nat) : (d.vendorAll i).still = d.still :=
  Dev.foldl_still _ (fun d p => by simp) _ d

@[simp] theorem Dev.watermark_still (d : Dev) : d.watermark.still = d.still := by
  unfold Dev.watermark
  split
  · rw [Dev.vendorTo_still]; rfl
  · rfl

@[simp] theorem Dev.setAck_still (d : Dev) (v : Nat) : (d.setAck v).still = d.still := rfl

@[simp] theorem Dev.journal_still (d : Dev) (n p : Nat) (l : List Nat) (tv : Bool) : (d.journal n p l tv).still = d.still := by
  unfold Dev.journal
  dsimp only
  split
  · rw [Dev.setAck_still, Dev.still_evt, Dev.setEf_still]
  · split
    · rw [Dev.setEf_still, Dev.setAck_still, Dev.still_evt, Dev.setEf_still]
    · rw [Dev.setAck_still, Dev.still_evt, Dev.setEf_still]

@[simp] theorem Dev.noteRecord_still (d : Dev) (n p : Nat) (l : List Nat) : (d.noteRecord n p l).still = d.still := by
  unfold Dev.noteRecord
  split
  · rfl
  · rw [Dev.still_evt]

@[simp] theorem Dev.noteSuppressed_still (d : Dev) (n p : Nat) (l : List Nat) : (d.noteSuppressed n p l).still = d.still := by
  unfold Dev.noteSuppressed
  split
  · rfl
  · rw [Dev.still_evt]

@[simp] theorem Dev.route_still (d : Dev) (n : Nat) : (d.route n).still = d.still := by
  unfold Dev.route
  dsimp only
  split
  · unfold Dev.setLine
    split <;> simp
  · split <;> simp

@[simp] theorem Dev.record_still (d : Dev) (n p : Nat) (l : List Nat) (tv : Bool) : (d.record n p l tv).still = d.still := by
  simp [Dev.record, Dev.setPend]

@[simp] theorem Dev.raiseOne_still (d : Dev) (n p : Nat) (l : List Nat) (tv : Bool) : (d.raiseOne n p l tv).still = d.still := by
  unfold Dev.raiseOne
  dsimp only
  split
  · split <;> simp
  · rfl

@[simp] theorem Dev.raiseTv_still (d : Dev) (n p : Nat) (l : List Nat) (tv : Bool) : (d.raiseTv n p l tv).still = d.still := by
  unfold Dev.raiseTv
  dsimp only
  split <;> simp

@[simp] theorem Dev.raise_still (d : Dev) (n p : Nat) (l : List Nat) : (d.raise n p l).still = d.still := by simp [Dev.raise]

@[simp] theorem Dev.count_still (d : Dev) (src q p n : Nat) : (d.count src q p n).still = d.still := by simp [Dev.count]

@[simp] theorem Dev.bump_still (d : Dev) (x : Field) (src q n : Nat) : (d.bump x src q n).still = d.still := by simp [Dev.bump]

theorem Dev.overflowsN_still (k : Nat) (d : Dev) : (d.overflowsN k).still = d.still := by
  induction k generalizing d with
  | zero => rfl
  | succ k ih =>
    unfold Dev.overflowsN
    split
    · rfl
    · rw [ih, Dev.foldl_still _ (fun d i => by simp)]; rfl

/-- The PMU_OVERFLOW events after a command leave the still part of the machine alone. -/
@[simp] theorem Dev.overflows_still (d : Dev) : d.overflows.still = d.still := Dev.overflowsN_still _ d

/-- With no counter wrapped nothing follows a command. -/
theorem Dev.overflows_of_none (d : Dev) (h : d.evt.ovf = []) : d.overflows = d := by
  unfold Dev.overflows Dev.overflowsN
  rw [h]

/-- The effect of a command on a part that logic scan has not stopped. -/
theorem run_live (f : Dev → Dev) (s : State) (h : s.dev.test.scanStopped = false) :
    run f s = .next { s with dev := (f s.dev).overflows } := by
  simp [run, h]

/-- A command of `run` completes with its effect. -/
theorem effects_run {i : Instr} {f : Dev → Dev} {s : State} {P : Dev → Prop} (hi : exec i s = run f s)
    (h : s.dev.test.scanStopped = false) (hp : P (f s.dev)) : Effects i s P :=
  ⟨f s.dev, by rw [hi, run_live f s h], hp⟩

/-- A command of `runHard` completes with its effect. -/
theorem effects_runHard {i : Instr} {f : Dev → Dev} {s : State} {P : Dev → Prop} (hi : exec i s = runHard f s)
    (hp : P (f s.dev)) : Effects i s P :=
  ⟨f s.dev, by rw [hi]; rfl, hp⟩

end Sys2Proof.Machine
end

