-- ==== Sys2Proof/Laws/Host.lean ====
section
/-! SUPPORT. What the common checks of the host's commands (R67, R79) leave when they pass. -/

namespace Sys2Proof.Machine

/-- An admitted admin command goes on from the part as the host's activity leaves it. -/
theorem Dev.admin_of {d : Dev} {c : NCmd} {mgr safe san : Bool} (h : d.admits c mgr safe san = true) (go : Dev → Dev) :
    d.admin c mgr safe san go = go d.hostActivity := by
  simp only [Dev.admits, Bool.and_eq_true, Bool.not_eq_true', Bool.and_eq_false_iff, bne_eq_false_iff_eq, beq_eq_false_iff_ne, ne_eq,
    Bool.not_eq_false'] at h
  obtain ⟨⟨⟨⟨h1, h2⟩, h3⟩, h4⟩, h5⟩ := h
  unfold Dev.admin
  dsimp only
  rw [if_neg (by simp [h1]), if_neg (by rcases h2 with h | h <;> simp [h]), if_neg (by simp [h3]),
    if_neg (by rcases h4 with h | h <;> simp [h]), if_neg (by rcases h5 with h | h <;> simp [h])]

theorem Dev.adminUp_of {d : Dev} {c : NCmd} {mgr safe san : Bool} (h : d.admitsUp c mgr safe san = true) (go : Dev → Dev) :
    d.adminUp c mgr safe san go = go d.hostActivity := by
  simp only [Dev.admitsUp, Bool.and_eq_true, bne_iff_ne, ne_eq] at h
  unfold Dev.adminUp
  rw [Dev.admin_of h.1, if_neg h.2]

theorem Dev.setFeature_of {d : Dev} {c : NCmd} {save sv mgr san : Bool} (h : d.admitsFeature c save sv mgr san = true)
    (go : Dev → Dev) : d.setFeature c save sv mgr san go = go d.hostActivity := by
  simp only [Dev.admitsFeature, Bool.and_eq_true, Bool.not_eq_true', Bool.and_eq_false_iff, bne_eq_false_iff_eq,
    Bool.not_eq_false'] at h
  obtain ⟨⟨h1, h2⟩, h3⟩ := h
  unfold Dev.setFeature
  rw [Dev.admin_of h1, if_neg (by rcases h2 with h | h <;> simp [h]), if_neg (by rcases h3 with h | h <;> simp [h])]

theorem Dev.io_of {d : Dev} {c : NCmd} {ch : Bool} {a : Access} {n : Ns} (h : d.admitsIo c ch a n = true) (go : Dev → Ns → Dev) :
    d.io c ch a go = go d.hostActivity n := by
  simp only [Dev.admitsIo, Bool.and_eq_true, Bool.not_eq_true', decide_eq_true_eq] at h
  obtain ⟨⟨⟨⟨⟨⟨⟨h1, h2⟩, hm1, hm3, hmA⟩, h4⟩, h5⟩, h6⟩, h7⟩, h8⟩ := h
  unfold Dev.io
  dsimp only
  rw [if_neg (by simp [h1]), if_neg hmA, if_neg (by simp [h2]), if_neg hm1, if_neg hm3, h4]
  dsimp only
  rw [if_neg (by simp [h5]), if_neg (by simp [h6]), if_neg (by simp [h7]), if_neg (by simp [h8])]

theorem Dev.compute_of {d : Dev} {c : NCmd} {nsid : Nat} (h : d.admitsCompute c nsid = true) (go : Dev → Dev) :
    d.compute c nsid go = go d.hostActivity := by
  simp only [Dev.admitsCompute, Bool.and_eq_true, Bool.not_eq_true', decide_eq_true_eq, beq_iff_eq] at h
  obtain ⟨⟨⟨⟨⟨h1, h2⟩, hm1, hm3, hmA⟩, h4⟩, h5⟩, h6⟩ := h
  unfold Dev.compute
  dsimp only
  rw [if_neg (by simp [h1]), if_neg hmA, if_neg (by simp [h6]), if_neg (by simp [h2]), if_neg hm1, if_neg hm3, if_neg (by simpa using h4),
    if_neg (by simp [h5])]

/-- A command whose data pointer is right goes on. -/
theorem Dev.withPtr_of {c : NCmd} {need : Nat} {read : Bool} (h : dataFits c need read = true) (d : Dev) (go : Dev → Dev) :
    d.withPtr c need read go = go d := by
  simp only [dataFits, Bool.or_eq_true, beq_iff_eq, Option.isNone_iff_eq_none] at h
  unfold Dev.withPtr
  rcases h with h | h
  · rw [if_pos h]
  · rw [h]; split <;> rfl

theorem Dev.withPrp_of {c : NCmd} {need : Nat} {read : Bool} (h : prpFits c need read = true) (d : Dev) (go : Dev → Dev) :
    d.withPrp c need read go = go d := by
  simp only [prpFits, Bool.or_eq_true, beq_iff_eq, Bool.and_eq_true] at h
  unfold Dev.withPrp
  by_cases hn : need = 0
  · rw [if_pos hn]
  · obtain ⟨h1, h2⟩ := h.resolve_left hn
    rw [if_neg hn]
    split
    · next hd => simp [hd] at h1
    · exact Dev.withPtr_of (by simp only [dataFits, Bool.or_eq_true]; exact Or.inr h2) d go

end Sys2Proof.Machine
end

