-- ==== Sys2Proof/Laws/Vz.lean ====
section
/-! SUPPORT. What the shared forms of VZ64 instructions do on a core that executes its instruction. -/

namespace Sys2Proof.Machine

/-! ### Registers -/

@[simp] theorem CoreSt.setReg_pc (s : CoreSt) (i : Nat) (v : W64) : (s.setReg i v).pc = s.pc := by
  unfold CoreSt.setReg; split <;> rfl
@[simp] theorem CoreSt.setReg_fl (s : CoreSt) (i : Nat) (v : W64) : (s.setReg i v).fl = s.fl := by
  unfold CoreSt.setReg; split <;> rfl
@[simp] theorem CoreSt.setReg_rc (s : CoreSt) (i : Nat) (v : W64) : (s.setReg i v).rc = s.rc := by
  unfold CoreSt.setReg; split <;> rfl
@[simp] theorem CoreSt.setReg_ctl (s : CoreSt) (i : Nat) (v : W64) : (s.setReg i v).ctl = s.ctl := by
  unfold CoreSt.setReg; split <;> rfl
@[simp] theorem CoreSt.setReg_pstat (s : CoreSt) (i : Nat) (v : W64) : (s.setReg i v).pstat = s.pstat := by
  unfold CoreSt.setReg; split <;> rfl
@[simp] theorem CoreSt.setReg_tpc (s : CoreSt) (i : Nat) (v : W64) : (s.setReg i v).tpc = s.tpc := by
  unfold CoreSt.setReg; split <;> rfl
@[simp] theorem CoreSt.setReg_tfl (s : CoreSt) (i : Nat) (v : W64) : (s.setReg i v).tfl = s.tfl := by
  unfold CoreSt.setReg; split <;> rfl
@[simp] theorem CoreSt.setReg_tcause (s : CoreSt) (i : Nat) (v : W64) : (s.setReg i v).tcause = s.tcause := by
  unfold CoreSt.setReg; split <;> rfl
@[simp] theorem CoreSt.setReg_tval (s : CoreSt) (i : Nat) (v : W64) : (s.setReg i v).tval = s.tval := by
  unfold CoreSt.setReg; split <;> rfl
@[simp] theorem CoreSt.setReg_tbase (s : CoreSt) (i : Nat) (v : W64) : (s.setReg i v).tbase = s.tbase := by
  unfold CoreSt.setReg; split <;> rfl
@[simp] theorem CoreSt.setReg_scratch (s : CoreSt) (i : Nat) (v : W64) : (s.setReg i v).scratch = s.scratch := by
  unfold CoreSt.setReg; split <;> rfl
@[simp] theorem CoreSt.setReg_delay (s : CoreSt) (i : Nat) (v : W64) : (s.setReg i v).delay = s.delay := by
  unfold CoreSt.setReg; split <;> rfl
@[simp] theorem CoreSt.setReg_waiting (s : CoreSt) (i : Nat) (v : W64) : (s.setReg i v).waiting = s.waiting := by
  unfold CoreSt.setReg; split <;> rfl
@[simp] theorem CoreSt.setReg_inRep (s : CoreSt) (i : Nat) (v : W64) : (s.setReg i v).inRep = s.inRep := by
  unfold CoreSt.setReg; split <;> rfl
@[simp] theorem CoreSt.setReg_halted (s : CoreSt) (i : Nat) (v : W64) : (s.setReg i v).halted = s.halted := by
  unfold CoreSt.setReg; split <;> rfl
@[simp] theorem CoreSt.setReg_stepping (s : CoreSt) (i : Nat) (v : W64) : (s.setReg i v).stepping = s.stepping := by
  unfold CoreSt.setReg; split <;> rfl
@[simp] theorem CoreSt.setReg_tcm (s : CoreSt) (i : Nat) (v : W64) : (s.setReg i v).tcm = s.tcm := by
  unfold CoreSt.setReg; split <;> rfl
@[simp] theorem CoreSt.setReg_preempt (s : CoreSt) (i : Nat) (v : W64) : (s.setReg i v).preempt = s.preempt := by
  unfold CoreSt.setReg; split <;> rfl
@[simp] theorem CoreSt.setReg_prog (s : CoreSt) (i : Nat) (v : W64) : (s.setReg i v).prog = s.prog := by
  unfold CoreSt.setReg; split <;> rfl

/-- A register reads back what was written, but for g0. -/
theorem CoreSt.reg_setReg_same (s : CoreSt) (i : Nat) (v : W64) (h : i ≠ 0) (h32 : i < 32) : (s.setReg i v).reg i = v := by
  simp [CoreSt.reg, CoreSt.setReg, h, Vector.getD, h32]

/-- Every other register stays. -/
theorem CoreSt.reg_setReg_ne (s : CoreSt) {i j : Nat} (v : W64) (h : j ≠ i) : (s.setReg i v).reg j = s.reg j := by
  unfold CoreSt.setReg
  split
  · rfl
  · simp only [CoreSt.reg]
    split
    · rfl
    · have e : i ≠ j := fun e => h e.symm
      simp [Vector.getD, e]

/-- g0 reads zero whatever is written to it (R299). -/
theorem CoreSt.reg_zero (s : CoreSt) : s.reg 0 = 0#64 := rfl

/-- Retiring with a register written and the flags left. -/
theorem Dev.retire_setReg (d : Dev) (c rd : Nat) (v : W64) :
    d.retire c 1 ((d.cpu c).setReg rd v) = d.writes c rd v (d.flags c) := by
  unfold Dev.writes Dev.flags
  rw [← CoreSt.setReg_fl (d.cpu c) rd v]

/-! ### The core record under the operations of an instruction -/

@[simp] theorem Dev.cpu_setCpu_same (d : Dev) (c : Nat) (s : CoreSt) : (d.setCpu c s).cpu c = s := AMap.get_set_same _ _ _ _

theorem Dev.cpu_setCpu_ne (d : Dev) {c k : Nat} (h : k ≠ c) (s : CoreSt) : (d.setCpu c s).cpu k = d.cpu k :=
  AMap.get_set_ne _ _ h _ _

/-- Operations that leave the still part alone leave the cores alone. -/
theorem Dev.cpu_of_still {d e : Dev} (h : e.still = d.still) (c : Nat) : e.cpu c = d.cpu c := by
  have hk : e.still.core = d.still.core := by rw [h]
  have hc : e.core = d.core := hk
  simp only [Dev.cpu, hc]

@[simp] theorem Dev.cpu_setF (d : Dev) (x : Field) (v c : Nat) : (d.setF x v).cpu c = d.cpu c := rfl

@[simp] theorem Dev.cpu_setCoreState (d : Dev) (c v k : Nat) : (d.setCoreState c v).cpu k = d.cpu k := by
  unfold Dev.setCoreState
  split <;> rfl

@[simp] theorem Dev.cpu_coreBump (d : Dev) (c k n j : Nat) : (d.coreBump c k n).cpu j = d.cpu j := by
  unfold Dev.coreBump
  split
  · exact Dev.cpu_of_still (Dev.bump_still _ _ _ _ _) j
  · rfl

@[simp] theorem Dev.cpu_setInst (d : Dev) (x : ProgInst) (j : Nat) : (d.setInst x).cpu j = d.cpu j := rfl

/-- A retired instruction leaves its core with pc moved on and the load delay ended. -/
theorem Dev.cpu_retire (d : Dev) (c n : Nat) (s : CoreSt) :
    (d.retire c n s).cpu c = { s with pc := s.pc + BitVec.ofNat 64 (4 * n), delay := none, inRep := false } := by
  unfold Dev.retire
  dsimp only
  split <;> simp

/-! ### Forms -/

/-- The order of R328 leaves nothing before the instruction itself. -/
theorem Dev.vz_executes (d : Dev) (c g word : Nat) (resv needS : Bool) (body : CoreSt → Dev → Dev)
    (h : d.executes c g = true) (hr : resv = false) (hs : needS = true → (d.cpu c).prv = true) :
    d.vz c g word resv needS body = body (d.cpu c) d := by
  simp only [Dev.executes, Bool.and_eq_true, Bool.not_eq_true', Option.isNone_iff_eq_none] at h
  obtain ⟨⟨⟨⟨⟨⟨h1, h2⟩, hp⟩, h3⟩, h4⟩, h5⟩, h6⟩ := h
  have hg : (g == 0xF) = false := by
    by_contra hne
    simp only [Bool.not_eq_false, beq_iff_eq] at hne
    subst hne
    simp [condHolds] at h6
  have hb : (needS && !(d.cpu c).prv) = false := by
    cases needS
    · rfl
    · simp [hs rfl]
  simp [Dev.vz, Dev.boundary, h1, h2, hp, h3, h4, h5, h6, hr, hg, hb]

/-- A register ALU instruction. -/
theorem Dev.aluR_executes (d : Dev) (fn c g rd ra rb : Nat) (sf : Bool) (op : W64 → W64 → W64 → Res) (h : d.executes c g = true) :
    d.aluR fn c g rd ra rb sf op =
      d.writes c rd (op (d.flags c) (d.x c ra) (d.x c rb)).val
        (if sf then (op (d.flags c) (d.x c ra) (d.x c rb)).fl else d.flags c) := by
  unfold Dev.aluR
  rw [Dev.vz_executes _ _ _ _ _ _ _ h rfl (by simp)]
  rfl

/-- An immediate instruction. -/
theorem Dev.aluI_executes (d : Dev) (op c g rd ra imm : Nat) (sf : Bool) (f : W64 → W64 → Res) (h : d.executes c g = true) :
    d.aluI op c g rd ra imm false sf f =
      d.writes c rd (f (d.flags c) (d.x c ra)).val (if sf then (f (d.flags c) (d.x c ra)).fl else d.flags c) := by
  unfold Dev.aluI
  rw [Dev.vz_executes _ _ _ _ _ _ _ h rfl (by simp)]
  rfl

end Sys2Proof.Machine
end

