-- ==== Sys2Proof/Tests/Slice0.lean ====
section
/-! SUPPORT. Tests: ill-formed commands that the check refuses, instruction words written out from the spec's encoding, and for every
statement with hypotheses a state and operands that meet them together. -/

set_option maxRecDepth 40000
set_option linter.unusedVariables false

namespace Sys2Proof.Machine

/-! ### Ill-formed commands -/

/-- An NVMe command. -/
def W.c0 : NCmd := { id := ⟨0, 0, 0⟩, nsid := 1, rsvd := false, dp := .prp 0 [] }

/-- A curd. -/
def W.cd0 : CurdIn :=
  { vlen := 1, first := true, last := true, poison := 0, untrusted := false, rstart := 0, rcount := 0, offset := 0, cseq := 0, src := 0,
    data := 0, unitLen := 0, consumed := 0 }

/-- A memory request. -/
def W.mr0 : MemReq := { id := 0, addr := 0, write := false, owner := 0, data := 0, mask := 0, poison := false }

/-! ### Helper states -/

/-- A Gorwasta frame of TYPE `ty`, LEN `len`, SEQ `n` and payload `msg` for member 0, with its HCHK and CRC. -/
def W.frame (ty len n msg : Nat) : GwlFrame :=
  let f : GwlFrame :=
    { ty := ty, len := len, vc := 0, seq := n, ack := 65535, cred := 0, credVc := 0, hchk := 0, lenOk := true, msg := msg, poison := 0, crc := 0, dst := 0 }
  let g := { f with hchk := crc8 (frameHead f) }
  { g with crc := crc32c ((frameHead g ++ [g.hchk]).map (BitVec.ofNat 8) ++ leBytes (64 * g.len) g.msg ++ leBytes 1 g.poison ++ leBytes 1 0) }
def W.goodf (n : Nat) : GwlFrame := W.frame 0 1 n 0

/-- The state after reset, changed. -/
def W.st (f : Dev → Dev) : State := { State.reset with dev := f State.reset.dev }

/-- The part in service: SERVICE, the pins high, every quadrant and core 6 in service. -/
def W.up (d : Dev) : Dev :=
  { (d.setF F.TOP_MODE_MODE 6).setF (F.CORE_STAT_STATE 6) 2 with pins := { Pins.init with resetN := true } }

def W.sec : State := W.st (fun d => d.setF F.TOP_MODE_MODE 6)

/-- DZT set in ctl of core 32. -/
def W.secDzt : State := W.st (fun d => (d.setF F.TOP_MODE_MODE 6).setCpu 32 { d.cpu 32 with ctl := 1#64 })

/-- Digits that are not decimal in g2 and g3 of core 32. -/
def W.secBad : State := W.st (fun d => (d.setF F.TOP_MODE_MODE 6).setCpu 32 (((d.cpu 32).setReg 1 0xA#64).setReg 2 0xA#64))

/-- A steward core with an interrupt due. -/
def W.irq : State :=
  W.st (fun d => (((W.up d).setEf (F.EVT_CPEND_PEND 6) 1).setEf (F.EVT_CPEND_EN 6) 1).setCpu 6 { d.cpu 6 with pstat := 5#64 })

/-- Powered, RESET_N high, before any start-up step. -/
def W.run (d : Dev) : Dev := { d with pins := { Pins.init with resetN := true }, mode := { d.mode with hold := .none, faultN := false } }

def W.prof : DieProf := { jedec := 0, planes := 1, xrOff := 0, xrMask := 0, page := 16384, spare := 2208, pages := 64, blocks := 4096, tRead := 400, tProg := 12000, tErase := 50000 }
def W.hdr (ks : Nat) : ObjHdr := { wellFormed := true, svn := 1, target := 7, step := 0xB0, keySlot := ks, pubHash := ks, sigOk := true, hashOk := true, digest := 5, length := 1000 }
def W.pent (n : Nat) : PlotEnt := { plot := n, en := true, psallow := true, qmax := 8, vmax := 8, weight := 1, oshare := 256, slm := 16, fcWeight := 1, fcCap := 4, ewt := [1,1,1,1], ecap := [8,8,8,8], signedOnly := false }
def W.seg0 : Segment := { segver := 1, edges := List.replicate 16 0, templates := [] }
def W.strm0 : Stream := { hdr := W.hdr 2, order := [(1,0),(2,0),(3,0),(4,0),(5,0),(7,0),(8,0),(9,0),(10,0),(11,0),(12,0),(12,1),(13,0)], id := 77, ident := some (0,0,0), units := some (3, 0xFFFF), clocks := [2000,2000,2000], dieProfs := [W.prof], chans := List.replicate 16 { iface := 0, rateMax := 4, xrate := false, parity := 0, profile := 0, dies := [0] }, retry := [], groups := [{ geom := 0, members := (List.range 16).map (fun c => 64*c) }], media := some { op := 7, rated := 3000, mapLimit := 1, ewSet := 0, ewPct := 10, critPct := 2, wearPct := 90 }, dram := [(0, { width := 0, density := 0, ranks := 0, rateA := 0, rateB := 1, tsetA := [], tsetB := [] }), (1, { width := 0, density := 0, ranks := 0, rateA := 0, rateB := 1, tsetA := [], tsetB := [] })], pools := List.replicate 16 { en := true, loc := 0, size := 12, fallback := 0, fben := false, base := 0, count := 64, floor := 8 }, reqs := [], maxPlots := 8, plots := [W.pent 0, W.pent 1], segments := [(0, W.seg0), (1, W.seg0)], routes := [], roster := none, progKeys := [] }

/-- BOOT with a firmware image and a stream in the boot flash. -/
def W.fw (d : Dev) : Dev :=
  { (W.run d).setF F.TOP_MODE_MODE 4 with
    bootFlash := { BootFlash.init with dir0 := some { seq := 1, fwActive := 1, fwNext := 0, strActive := 0 },
                                       strA := some W.strm0, fw := [(1, { hdr := W.hdr 0, rev := 1 })] } }

/-- The same, with another slot chosen, which is empty. -/
def W.fw2 (d : Dev) : Dev :=
  { W.fw d with bootFlash := { (W.fw d).bootFlash with dir0 := some { seq := 1, fwActive := 2, fwNext := 0, strActive := 0 } } }

/-- The same, with the firmware running. -/
def W.strm (d : Dev) : Dev := { W.fw d with boot := { d.boot with fwRunning := 1 } }

/-- The stream in slot B alone. -/
def W.strmB (d : Dev) : Dev := { W.strm d with bootFlash := { (W.strm d).bootFlash with strA := none, strB := some W.strm0 } }

/-- A clean stop, the stream in force. -/
def W.load (d : Dev) : Dev := { W.fw d with boot := { d.boot with fwRunning := 1, stream := some W.strm0 }, nv := { d.nv with stop := .clean } }

/-- In service, with the admin command ⟨0, 0, 1⟩ and the I/O command ⟨0, 1, 1⟩ of plot 0 outstanding, I/O queues 1, and namespace 1
of 4 KiB blocks attached to plot 0. -/
def W.cmd (d : Dev) : Dev :=
  let q (i : Nat) : Sq := { qid := i, size := 16, cqid := i, prio := 0, head := 0, tail := 3 }
  let c (i : Nat) : Cq := { qid := i, size := 16, head := 0, tail := 0, phase := true, vec := 0, ien := true, held := [],
                            stalled := false, coalesced := 0 }
  let l (i : Nat) : Latch := { id := ⟨0, i, 1⟩, plotGen := 0, qGen := 0, at_ := 0, tmax := 5, io := i != 0 }
  let n : Ns := { nsid := 1, nsze := 4096, ncap := 4096, lbaf := 0, iu := 0, pi := 0, ext := false, comp := 0, attached := [0],
                  shared := true, epoch := 0, test := false, resv := Resv.init, cluster := none }
  let u := (W.up d).setCtrl 0 { (W.up d).ctrl 0 with en := true, rdy := true, sqs := [q 0, q 1], cqs := [c 0, c 1] }
  { u.setF (F.PLOT_QV_VMAX 0) 8 with host := { (u.setF (F.PLOT_QV_VMAX 0) 8).host with latches := [l 0, l 1] }, md := { u.md with nss := [n] } }

/-- The admin command and the I/O command of `W.cmd`. -/
def W.adm (nsid : Nat) : NCmd := { id := ⟨0, 0, 1⟩, nsid := nsid, rsvd := false, dp := .prp 0 [] }
def W.ioc (nsid : Nat) : NCmd := { id := ⟨0, 1, 1⟩, nsid := nsid, rsvd := false, dp := .prp 0 [] }

/-- A cluster member: a roster of two, this part member 0. -/
def W.ros : Roster := { clusterId := 9, members := [(0, 1), (1, 2)], retired := 0, anchor := 0, epoch := 0, authKey := 1, hash := 5 }
def W.ros5 : Roster := { W.ros with members := [(0, 1), (1, 2), (2, 3), (3, 4), (4, 5)] }
def W.memb (d : Dev) : Dev :=
  { d.setF F.GWL_ID_CLUSTER 1 with boot := { d.boot with stream := some { W.strm0 with roster := some W.ros } } }
def W.tok : AnchorTok :=
  { cluster := 9, rhash := 5, anchor := 1, epoch := 1, nonce := Config.clusterNonce 0, zeros := true, sigOk := true }

/-- The stream in force with its segments, and a graft for quadrant 0. -/
def W.grf (d : Dev) : Dev :=
  let u := W.cmd d
  let v := W.strm0.segments.foldl (fun (e : Dev) s => e.setSegment s.1 s.2) { u with boot := { u.boot with stream := some W.strm0, fwRunning := 1 } }
  v.setF F.TOP_UNITS_QFUSED 0xC
def W.graft : Graft :=
  { hdr := { W.hdr 2 with svn := 2, length := 1024 }, order := [(0xC, 0)], streamId := 77, quad := 0, seg := some W.seg0 }

/-- A response of Halward that is ready. -/
def W.hmsg : HalwMsg := { plot := 0, code := 1, reqId := 7, ready := true, status := 0, payload := [1] }
def W.msg (d : Dev) : Dev := { W.cmd d with boot := { d.boot with msgs := [W.hmsg] } }

/-- A whole firmware image, and a whole stream, downloaded. -/
def W.dlf (d : Dev) : Dev := { W.cmd d with boot := { d.boot with download := [(0, 1000, .firmware { hdr := W.hdr 0, rev := 1 })] } }
def W.dls (d : Dev) : Dev := { W.cmd d with boot := { d.boot with download := [(0, 1000, .stream W.strm0)] } }

/-- `W.cmd` with the reservation `r` on namespace 1. -/
def W.rns (r : Resv) : Ns :=
  { nsid := 1, nsze := 4096, ncap := 4096, lbaf := 0, iu := 0, pi := 0, ext := false, comp := 0, attached := [0],
    shared := true, epoch := 0, test := false, resv := r, cluster := none }
def W.resv (r : Resv) : State := W.st (fun d => { W.cmd d with md := { (W.cmd d).md with nss := [W.rns r] } })

/-- An SLM of 16 MiB for plot 0, and a program, an image and a range set of it. -/
def W.slm (d : Dev) : Dev :=
  let u := ((W.cmd d).setF (F.PLOT_SLM_EFFECT 0) 1).setCtrl 0 { (W.cmd d).ctrl 0 with css := 6 }
  { u.setF (F.PLOT_FCORE_CAP 0) 4 with
    trel := { u.trel with sets := [{ id := 3, plot := 0, gen := 0, ranges := [(0, 4096)] }],
                          images := [{ index := 40, plot := 0, gen := 0, pats := [], dtiles := 1, nbytes := 64, image := List.replicate 64 0#8, active := false }] }
    core := { u.core with progs := [{ index := 20, plot := 0, gen := 0, image := [], active := false }] } }

/-- A program image with one X and one W segment, unsigned, and a Sieve image of one pattern. -/
def W.prog : List Byte :=
  let seg (a p : Nat) : List Byte := leBytes 4 a ++ leBytes 4 0 ++ leBytes 4 4096 ++ leBytes 4 p
  let a : List Byte := [0x56#8, 0x5A#8, 0x50#8, 0x47#8] ++ leBytes 4 1 ++ leBytes 4 256 ++ leBytes 4 0 ++ leBytes 4 0x2000 ++ leBytes 4 0 ++ leBytes 2 0 ++ [2#8, 0xFF#8]
  let b : List Byte := seg 0 5 ++ seg 0x1000 3 ++ List.replicate 96 0#8
  a ++ leBytes 4 (crc32c (a ++ b)) ++ b ++ List.replicate 96 0#8
def W.sieveImg : List Byte :=
  let a : List Byte := [0x53#8, 0x56#8, 0x49#8, 0x4D#8] ++ leBytes 4 1 ++ leBytes 4 1 ++ leBytes 4 1 ++ leBytes 4 64 ++ leBytes 4 64 ++ List.replicate 36 0#8
  a ++ leBytes 4 (crc32c a)

def W.mbx3 : Mbx := { Mbx.init with incT := 1, incM := 1, up := [(64, 1), (66, 1)], dn := [(64, 1), (66, 1)] }

/-- Plot 3 enabled, with a message in the first slot of each of its rings. -/
def W.mb (d : Dev) : Dev :=
  let u := ((W.up d).setF (F.PLOT_CTL_EN 3) 1).setMbx 3 W.mbx3
  { u with host := { u.host with numVfs := [(0, 8)] } }

/-- Die 0 of channel 0 in service, trained at rate 4, with one host read waiting; and with that operation, or a program or erase,
busy or ended. -/
def W.op (cls : OpClass) : DieOp :=
  { cls := cls, die := 0, block := 5, page := 0, slots := [0], cws := [], cmd := none, group := 0, bsn := 0, parity := false, whole := true, suspends := 0 }
def W.ch (x : DieSt) (d : Dev) : Dev :=
  let u := ((W.up d).setF (F.CHAN_DIESTAT_STATE 0 0) 1).setF (F.CHAN_STAT_RATE 0) 4
  { (u.setF (F.CHAN_STAT_TRAINED 0) 1).setF (F.CHAN_DIEPRES_PRES 0 0) 1 with media := { u.media with dies := [(0, x)], driven := true } }
def W.cw : Cw :=
  { data := 0, hmeta := 0, umask := 0, epoch := 0, iu := 0, nsid := 1, wseq := 1, reloc := 0, gen := 0, cwidx := 0, kind := 2, poison := false, pf := 0 }

/-- A codeword at location 0 that stands at a step of the ladder, stored or erased. -/
def W.rd (st : Ladder) : ReadCw := { loc := 0, cmd := none, step := st, entry := 0, tried := 0, ptype := 0, won := false }
def W.ladder (st : Ladder) (cws : List (Nat × Cw)) (d : Dev) : Dev :=
  let u := W.ch DieSt.init d
  { u with media := { u.media with reading := [W.rd st] }, flash := { u.flash with cws := cws } }

/-- Group 0: one die of each channel. -/
def W.grp (d : Dev) : Dev :=
  (List.range 16).foldl (fun (e : Dev) j => (e.setF (F.STRP_GMEM_USED j) 1).setF (F.STRP_GMEM_DIE j) (64 * j)) (d.setF F.STRP_CFG_GROUPS 1)

/-- The same at the last step, with its block in a whole block stripe of group 0. -/
def W.stripe (d : Dev) : Dev :=
  let u := W.grp (W.ladder .reconstruct [(0, W.cw)] d)
  { u with boot := { u.boot with stream := some W.strm0 }
           strp := { u.strp with stripes := [{ group := 0, bsn := 0, purpose := 0, blocks := [(0, 0)], pmem := 15, qmem := none, isOpen := false, closing := false, next := [], fill := [] }] } }

/-- A whole block stripe of group 0, with block 0 of member 0. -/
def W.bst : BStripe :=
  { group := 0, bsn := 0, purpose := 0, blocks := [(0, 0)], pmem := 15, qmem := none, isOpen := false, closing := false, next := [], fill := [] }

/-- A write of IU 0 of namespace 1 in the cache, and group 0 to destage it to. -/
def W.com : Commit :=
  { wseq := 1, nsid := 1, kind := 1, count := 1, firstIu := 0, firstSlot := 0, plot := 0, gen := 0, lead := 0, tseq := 0, dead := [], sent := [], staged := [], moved := [] }
def W.dest (d : Dev) : Dev :=
  let u := W.grp (W.cmd d)
  { u with boot := { u.boot with stream := some W.strm0 }
           mram := { u.mram with commits := [W.com] }
           strp := { u.strp with stripes := [{ W.bst with isOpen := true }] }
           md := { u.md with nss := [W.rns Resv.init] } }

/-- A part with capacity: group 0 with 65,536 good blocks at its first boot, a map region of 1 GiB, no namespaces. -/
def W.cap (d : Dev) : Dev :=
  let u := W.grp (W.cmd d)
  { u.setF (F.MEMC_STAT_CAPGIB 0) 64 with boot := { u.boot with stream := some W.strm0 }, md := { u.md with nss := [], base := [(0, 65536)] } }
def W.capm (d : Dev) : Dev :=
  let u := (W.cap d).setF F.GWL_ID_CLUSTER 1
  { u.setF F.GWL_SETS_VIEWSET 255 with boot := { u.boot with stream := some { W.strm0 with roster := some W.ros5 } } }

/-- Member 0 of a cluster of two, link 0 up, both members in view, with cluster namespace 1. -/
def W.cns : Ns := { W.rns Resv.init with cluster := some ⟨4, 1⟩ }
def W.clu (d : Dev) : Dev :=
  let u := (((W.memb (W.cmd d)).setF (F.GWL_LSTAT_STATE 0) 2).setF F.GWL_SETS_VIEWSET 3).setF F.GWL_SETS_REACH 3
  { u with md := { u.md with nss := [W.cns] } }
def W.gf : GFrame := { ty := 0, seq := 0, ack := 65535, msg := none, raw := 0, poison := 0, vc := 0, cred := 0, credVc := 0 }
def W.tx : CTx :=
  { tseq := 5, lead := 1, nsid := 1, stripe := 0, peer := none, recv := 1, parts := [], olds := [], granted := true, need := [0, 1], delta := [],
    qWait := false, ready := false, peerReady := true }
def W.ent : CEntry :=
  { tseq := 5, owner := 0, lead := 1, state := 3, geom := 1, nsid := 1, stripe := 0, peer := 0xFF, mirror := 1, chunks := 0, view := 1, hcrc := 0 }
def W.crd : CRead :=
  { id := ⟨0, 1, 1⟩, tag := 0, nsid := 1, use := .toHost, pi := none, parts := [{ stripe := 0, chunk := 1, blk := 0, data := none, bad := false }] }

/-- A descriptor, and a job made from it, of plot 0. -/
def W.desc : JobDesc :=
  { subseq := 1, pid := 0, prog := 0, resume := false, late := false, urg := 0, plot := 0, gen := 0, tag := 0, nsid := 1, instart := 0,
    inlen := 8192, outoff := 0, outcap := 0, param := 0, paramlen := 0, token := 0, timeout := 0, flagsOk := true }
def W.job : Job :=
  { slot := 0, ring := 20, desc := W.desc, words := [0x200, 0, 0x10001, 0xB], started := 0, conds := [], used := [], stalled := [], skim := none,
    unit := none, batches := [], wrote := [], units := [], low := 0, sum := Summary.init, inBytes := 0, outBytes := 0, excess := 0, token := none,
    untrustedAt := none, drained := false, reports := 0, param := [], resumed := false, voided := false, tainted := false, eng := 0, sgen := 0,
    feed := { inp := [], ended := false, sent := 0, nonces := [], checked := 0 } }
def W.jobbed : State := W.st (fun d => { W.cmd d with trel := { (W.cmd d).trel with jobs := [(0, [W.job])] } })
def W.waiting : State := W.st (fun d => { W.cmd d with trel := { (W.cmd d).trel with waits := [(0, [(0, W.desc)])] } })

/-- Ring 0 enabled with 16 entries, whose first descriptor carries sequence 1. -/
def W.ringed : State :=
  W.st (fun d => { ((W.up d).setF (F.TREL_RCTL_EN 0 0) 1).setF (F.TREL_RCTL_LOG2E 0 0) 4 with
    trel := { d.trel with dram := d.trel.dram.setBytes 128 (leBytes 4 1) } })

/-- A job of a Skim program in slot 0, and unit 0 lent. -/
def W.sprog : SkimProg :=
  { mode := 0, align := 0, reclen := 64, p4 := 0, p5 := 0, ncols := 0, npred := 0, nterms := 0, projmode := 0, cols := [], preds := [], terms := [],
    colmask := 0, recref := false }
def W.sjob : Job := { W.job with skim := some W.sprog }
def W.skimmed : State :=
  W.st (fun d => { (W.cmd d).setF (F.SKIM_BIND_MODE 0 0) 1 with trel := { (W.cmd d).trel with jobs := [(0, [W.sjob])] } })

/-- A compressed namespace with a write in the cache, and with an IU compressed on flash. -/
def W.cmp : Ns := { W.rns Resv.init with comp := 1, iu := 1 }
def W.pack (d : Dev) : Dev := { W.dest d with md := { (W.dest d).md with nss := [W.cmp] } }
def W.unpack (d : Dev) : Dev :=
  { W.dest d with md := { (W.dest d).md with nss := [W.cmp] }, flash := { (W.dest d).flash with cws := [(0, { W.cw with kind := 1, data := 257 })] }
                  ftl := { (W.dest d).ftl with map := [(iuKey 1 0, flashEntry 0)], packIn := [(0, some { W.cw with kind := 1, data := 257 })]
                                               reads := [{ id := ⟨0, 1, 1⟩, nsid := 1, use := .toHost, pi := none, blocks := [.packed 1 0 0 0] }] } }

/-- Table 0 of quadrant 0, of 16 entries at 0: ordered, or by key. -/
def W.table (d : Dev) : Dev :=
  (((W.up d).setF (F.SIEVE_TBL_EN 0 0) 1).setF (F.SIEVE_TBL_SIZE 0 0) 16).setF (F.SIEVE_TBL_KEYW 0 0) 4
def W.tablek (d : Dev) : Dev := (W.table d).setF (F.SIEVE_TBL_CLASS 0 0) 1
def W.curd : CurdIn :=
  { vlen := 0, first := true, last := false, poison := 0, untrusted := false, rstart := 0, rcount := 0, offset := 0, cseq := 0, src := 0, data := 0,
    unitLen := 0, consumed := 0 }

/-- A job that encrypts by XTS, one that checks a GCM tag, and a GCM key without a lease. -/
def W.xpar : List Byte := List.replicate 96 0#8
def W.gpar : List Byte := List.replicate 64 0#8 ++ [1#8, 1#8] ++ List.replicate 30 0#8
def W.xjob : Job := { W.job with desc := { W.desc with prog := 6 }, param := W.xpar }
def W.xts : State :=
  W.st (fun d => ({ W.cmd d with trel := { (W.cmd d).trel with jobs := [(0, [W.xjob])] } } : Dev).setKeySlots 0
    [{ idx := 0, label := W.xjob.label, era := (W.cmd d).era 0, pins := [], used := 0, lease := none }])
def W.gcmj : State := W.st (fun d => { W.cmd d with trel := { (W.cmd d).trel with jobs := [(0, [{ W.xjob with param := W.gpar }])] } })
def W.gkey : KeySlot := { idx := 0, label := { purpose := 3, plot := 0, nsid := 0, epoch := 0, ulabel := 1 }, era := 0, pins := [], used := 0, lease := none }
def W.leased : State := W.st (fun d => (W.up d).setKeySlots 0 [W.gkey])
def W.unleased : State :=
  W.st (fun d => { (W.up d).setKeySlots 0 [W.gkey] with gcm := [{ plot := 0, ulabel := 1, epoch := 1, next := leaseMax }] })

/-- A program of plot 0, waiting for a core, on core 0, over its plot's cap, in a delegated trap, with a curd in, with one out. -/
def W.lau : Launch :=
  { pver := 1, flags := 0, urg := 0, quad := 0, nsid := 0, instart := 0, inlen := 0, outoff := 0, outcap := 0, inpid := 0, outpid := 0, rings := 0,
    log2e := 0, timeout := 0, argoff := 0, arglen := 0, recoff := 0, ringoff := 0, zeros := true }
def W.inst : ProgInst :=
  { tag := 3, id := ⟨0, 1, 1⟩, plot := 0, gen := 0, index := 20, quad := 0, launch := W.lau, image := [], rings := [], started := none, core := none,
    onAt := 0, saved := none, inTrap := false, waiting := false, usedUs := 0, retired := 0, pinHead := 0, pinTail := 0, poutTail := 0, poutHead := 0,
    inCurds := [], out := Mem.init, inLast := false, outLast := false, autoLast := false, untr := false, outOff := 0, inSlot := none, outSlot := none,
    ended := none, discarded := 0 }
def W.insc : ProgInst := { W.inst with core := some 0, started := some 0 }
def W.prg : State := W.st (fun d => { ((W.cmd d).setF (F.PLOT_FCORE_CAP 0) 4).setF (F.CORE_STAT_STATE 0) 0 with core := { d.core with insts := [W.inst] } })
def W.on (x : ProgInst) (cap : Nat) : State :=
  W.st (fun d =>
    let u : Dev := { (((W.cmd d).setF (F.PLOT_FCORE_CAP 0) cap).setF (F.CORE_STAT_STATE 0) 1) with core := { d.core with insts := [x] } }
    u.setCpu 0 { u.cpu 0 with prog := some 3, pstat := 0#64 })
def W.onp : State := W.on W.insc 4
def W.capped : State := W.on W.insc 0
def W.trp : State := W.on { W.insc with inTrap := true } 4
def W.curded : State := W.on { W.insc with pinHead := 1, inCurds := [(0, W.curd)] } 4
def W.inso : ProgInst := { W.insc with out := Mem.init.setBytes 0x100 [1#8] }
def W.outed : State := W.on W.inso 4
def W.timed : State := W.on { W.insc with launch := { W.lau with timeout := 1 }, started := some 0 } 4

/-- One read waiting in subchannel 0 of quadrant 0; a handle of pool 0 that owner 7 holds. -/
def W.dreq : DReq := { id := 1, addr := 0, write := false, owner := 0, data := 0, mask := 0, poison := false, waited := 0, thr := false }
def W.dsub : DSub := { DSub.init with rq := [W.dreq] }
def W.sched : State := W.st (fun d => (W.up d).setMc 0 (MemcSt.init.setSub 0 W.dsub))
def W.tagged (d : Dev) : Dev :=
  (((W.up d).setF (F.PAIL_POOLCFG_EN 0) 1).setF (F.PAIL_POOLCNT_COUNT 0) 64).setPailTag 0 (1024 + 7)

/-- A token of Halward that is accepted at reset; a part in PROVISIONED; a serving part that has a temperature, 2 ms after power. -/
def W.tkn (ty arg rights : Nat) : Token :=
  { type := ty, arg := arg, rights := rights, dieId := State.reset.dev.fuses.dieId, nonce := Config.nonce 0 % 2 ^ 64,
    authHash := State.reset.dev.fuses.authKey.getD 0, zeros := true, sigOk := true }
def W.prov (d : Dev) : Dev := { W.cmd d with fuses := { d.fuses with lcrec := [2] } }
def W.mi : State :=
  W.st (fun d => { (W.up d).setF (F.PWR_TEMP_VALID 0) 1 with mode := { (W.up d).mode with ms := 5 }, boot := { d.boot with stream := some W.strm0 } })

/-- A copy of segment 1 in one block of die 0, written. -/
def W.segc : SegCopy := { bseq := 0, entries := [], loc := some 0 }
def W.seg1 (d : Dev) : Dev :=
  let u := W.grp (W.cmd d)
  let v : Dev := { u with boot := { u.boot with stream := some W.strm0 } }
  { v with ftl := { v.ftl with copies := [(1, W.segc)] }, flash := { v.flash with cws := (W.segc.cws 1).zipIdx.map (fun p => (v.cwAt 0 p.2, p.1)) } }

/-- IU 0 of `W.dest` placed. -/
def W.destOpt : Option Dev :=
  ((W.st W.dest).dev.paced 0 ((W.st W.dest).dev.iuCodewords (W.rns Resv.init) W.com 0).length).bind (fun e => e.place 0 0 ((W.st W.dest).dev.iuCodewords (W.rns Resv.init) W.com 0))
theorem W.dest_isSome : W.destOpt.isSome = true := by decide +kernel

/-- A waiting SCAN_FILTER job of a HIF command with a program of one column; a job whose input this fenced member does not hold; a lookup job;
a cached write with a mark. -/
def W.sparam : List Byte :=
  [1#8] ++ List.replicate 31 0#8 ++ leBytes 8 64 ++ List.replicate 24 0#8 ++
    ([0#8, 0#8, 64#8, 0#8, 0#8, 0#8, 1#8] ++ List.replicate 11 0#8 ++ leBytes 2 4 ++ List.replicate 924 0#8 ++ leBytes 8 1 ++ List.replicate 8 0#8)
def W.skp : SkimProg :=
  { mode := 0, align := 0, reclen := 64, p4 := 0, p5 := 0, ncols := 1, npred := 0, nterms := 0, projmode := 0, cols := [(0, 4, 0)], preds := [],
    terms := [], colmask := 1, recref := false }
def W.sdesc : JobDesc := { W.desc with prog := 1, inlen := 4096 }
def W.pcmd : ProgCmd :=
  { tag := 0, id := ⟨0, 1, 1⟩, param := W.sparam, left := 1, js := .ok, outBytes := 0, inBytes := 0, aux := 0, engine := 0, label := 0,
    sum := Summary.init, seen := 0, gen := 0, units := [], low := 0, wrote := [] }
def W.swait : State :=
  W.st (fun d =>
    let u := (W.cmd d).setF (F.PLOT_SLM_EFFECT 0) 1
    { u with trel := { u.trel with segs := [(0, { W.seg0 with templates := [{ pid := 0, words := W.job.words }] })], cmds := [W.pcmd]
                                   waits := [(0, [(0, W.sdesc)])] } })
def W.cjob : Job := { W.sjob with desc := { W.desc with nsid := 1, instart := 16 } }
def W.sfenced : State :=
  W.st (fun d =>
    let u := ((W.clu d).setF (F.SKIM_BIND_MODE 0 0) 1).setF F.TOP_MODE_CFENCE 1
    { u with trel := { u.trel with jobs := [(0, [W.cjob])] } })
def W.ljob : Job := { W.job with desc := { W.desc with prog := 8 }, inBytes := 8192, param := List.replicate 128 0#8 }
def W.looked : State := W.st (fun d => { W.table d with trel := { (W.table d).trel with jobs := [(0, [W.ljob])] } })
def W.packp (d : Dev) : Dev :=
  { W.pack d with mram := { (W.pack d).mram with slots := [(0, ⟨0, 0, 0, true⟩)] } }

/-- A job that decrypts one GCM message of one byte, with its key pinned. -/
def W.gmsg : List (Byte × Bool) :=
  (List.replicate 12 0#8 ++ leBytes 8 1 ++ List.replicate 21 0#8).map (fun b => (b, false))
def W.gjob : Job := { W.xjob with param := W.gpar, feed := { inp := W.gmsg, ended := true, sent := 0, nonces := [], checked := 0 } }
def W.gcmt : State :=
  W.st (fun d => ({ W.cmd d with trel := { (W.cmd d).trel with jobs := [(0, [W.gjob])] } } : Dev).setKeySlots 0
    [{ idx := 0, label := W.gjob.label, era := (W.cmd d).era 0, pins := [.job 0], used := 0, lease := none }])

/-- `W.onp` in a delay slot. -/
def W.onprv : State := { W.onp with dev := W.onp.dev.setCpu 0 { W.onp.dev.cpu 0 with delay := some (0, 0#64) } }

def W.fr0 : GwlFrame := W.frame 0 1 0 0

/-! ### The check refuses each ill-formed command -/

theorem test_wf_refuses_CmdId : [(⟨512, 0, 0⟩ : CmdId), (⟨0, 65536, 0⟩ : CmdId), (⟨0, 0, 65536⟩ : CmdId)].all (fun x => !x.wf) = true := by decide

theorem test_wf_refuses_CmdIdEnded : [(⟨512, 0, 0⟩ : CmdId), (⟨0, 65536, 0⟩ : CmdId), (⟨0, 0, 65536 * 257⟩ : CmdId)].all (fun x => !x.ended) = true := by decide

theorem test_wf_refuses_DataPtr : [(.prp 4096 [] : DataPtr), (.prp 0 [4096] : DataPtr), (.sgl [.data (2 ^ 32)] : DataPtr), (.sgl [.bitBucket (2 ^ 32)] : DataPtr)].all (fun x => !x.wf) = true := by decide

theorem test_wf_refuses_NCmd : [({ W.c0 with dp := .prp 4096 [] } : NCmd), ({ W.c0 with nsid := 2 ^ 32 } : NCmd), ({ W.c0 with id := ⟨512, 0, 0⟩ } : NCmd)].all (fun x => !x.wf) = true := by decide

theorem test_wf_refuses_Requester : [(.core 32 : Requester), (.tenant 512 : Requester)].all (fun x => !x.wf) = true := by decide

theorem test_wf_refuses_PiCmd : [(⟨false, 8, 0, 0, 0⟩ : PiCmd), (⟨false, 0, 2 ^ 32, 0, 0⟩ : PiCmd), (⟨false, 0, 0, 65536, 0⟩ : PiCmd), (⟨false, 0, 0, 0, 65536⟩ : PiCmd)].all (fun x => !x.wf) = true := by decide

theorem test_wf_refuses_GwlFrame : [({ W.fr0 with ty := 8 } : GwlFrame), ({ W.fr0 with len := 8 } : GwlFrame), ({ W.fr0 with vc := 4 } : GwlFrame), ({ W.fr0 with seq := 65536 } : GwlFrame), ({ W.fr0 with ack := 65536 } : GwlFrame), ({ W.fr0 with cred := 64 } : GwlFrame), ({ W.fr0 with credVc := 4 } : GwlFrame), ({ W.fr0 with hchk := 256 } : GwlFrame), ({ W.fr0 with poison := 256 } : GwlFrame), ({ W.fr0 with crc := 2 ^ 32 } : GwlFrame), ({ W.fr0 with dst := 8 } : GwlFrame), ({ W.fr0 with len := 0, msg := 1 } : GwlFrame)].all (fun x => !x.wf) = true := by decide

theorem test_wf_refuses_CurdIn : [({ W.cd0 with vlen := 257 } : CurdIn), ({ W.cd0 with poison := 16 } : CurdIn), ({ W.cd0 with offset := 2 ^ 48 } : CurdIn), ({ W.cd0 with cseq := 65536 } : CurdIn), ({ W.cd0 with data := 2 ^ 2048 } : CurdIn)].all (fun x => !x.wf) = true := by decide

theorem test_wf_refuses_MemReq : [({ W.mr0 with data := 2 ^ 512 } : MemReq), ({ W.mr0 with mask := 2 ^ 64 } : MemReq), ({ W.mr0 with owner := 1024 } : MemReq)].all (fun x => !x.wf) = true := by decide

theorem test_wf_refuses_DbgItem : [(.g 32 : DbgItem), (.sr 32 : DbgItem), (.mem (2 ^ 64) 8 : DbgItem), (.mem 0 3 : DbgItem)].all (fun x => !x.wf) = true := by decide

theorem test_wf_refuses_0 : ([.csrWrite (.core 32) 0 0 false,
    .csrWrite .manager (2 ^ 33) 0 false,
    .csrWrite .manager 0 (2 ^ 64) false,
    .csrBadAccess (.core 32) 0 0 false,
    .csrBadAccess .manager (2 ^ 33) 0 false,
    .csrSplitReadLow (.core 32) 0,
    .csrSplitReadLow .manager (2 ^ 33),
    .csrSplitReadHigh (.core 32) 0,
    .csrSplitReadHigh .manager (2 ^ 33),
    .csrSplitWriteLow (.core 32) 0 0,
    .csrSplitWriteLow .manager (2 ^ 33) 0,
    .csrSplitWriteLow .manager 0 (2 ^ 64),
    .csrSplitWriteHigh (.core 32) 0 0,
    .csrSplitWriteHigh .manager (2 ^ 33) 0,
    .csrSplitWriteHigh .manager 0 (2 ^ 64),
    .topReset (2 ^ 16) false,
    .nvmSubsystemReset 512 0,
    .perstAssert 2,
    .perstDeassert 2,
    .pcieLinkUp 2 0 0 false,
    .pcieLinkDown 2,
    .pcieLinkRecovery 2,
    .qbistDue 4,
    .sqTailDoorbell 512 0 0,
    .sqTailDoorbell 0 65536 0,
    .cqHeadDoorbell 512 0 0,
    .cqHeadDoorbell 0 65536 0,
    .hostCqStall 512 0,
    .hostCqStall 0 65536,
    .cmdTmaxExpired ⟨512, 0, 0⟩ [],
    .internalResult ⟨512, 0, 0⟩ 0 0 .success 0 0,
    .deleteIoSubmissionQueue { W.c0 with nsid := 2 ^ 32 } 0 [],
    .createIoSubmissionQueue { W.c0 with nsid := 2 ^ 32 } 0 0 0 0 false,
    .deleteIoCompletionQueue { W.c0 with nsid := 2 ^ 32 } 0,
    .createIoCompletionQueue { W.c0 with nsid := 2 ^ 32 } 0 0 0 false false,
    .getLogPage { W.c0 with nsid := 2 ^ 32 } 0 0 0 0 0 0 false,
    .getLogPage W.c0 256 0 0 0 0 0 false,
    .identify { W.c0 with nsid := 2 ^ 32 } 0 0 0,
    .identify W.c0 256 0 0,
    .abort { W.c0 with nsid := 2 ^ 32 },
    .getFeatures { W.c0 with nsid := 2 ^ 32 } 0 0 0,
    .getFeatures W.c0 256 0 0,
    .getFeatures W.c0 0 0 (2 ^ 32),
    .setArbitration { W.c0 with nsid := 2 ^ 32 } false 0 0 0 0,
    .setPowerManagement { W.c0 with nsid := 2 ^ 32 } false 0,
    .setTemperatureThreshold { W.c0 with nsid := 2 ^ 32 } false 0 0 0,
    .setErrorRecovery { W.c0 with nsid := 2 ^ 32 } false 0 false,
    .setNumberOfQueues { W.c0 with nsid := 2 ^ 32 } false 0 0,
    .setInterruptCoalescing { W.c0 with nsid := 2 ^ 32 } false 0 0,
    .setInterruptVectorConfig { W.c0 with nsid := 2 ^ 32 } false 0 false] : List Instr).all (fun i => !i.wf) = true := by decide

theorem test_wf_refuses_1 : ([.setWriteAtomicity { W.c0 with nsid := 2 ^ 32 } false 0,
    .setAsyncEventConfig { W.c0 with nsid := 2 ^ 32 } false 0,
    .setAutonomousPst { W.c0 with nsid := 2 ^ 32 } false false [],
    .setTimestamp { W.c0 with nsid := 2 ^ 32 } false 0,
    .setHostThermalMgmt { W.c0 with nsid := 2 ^ 32 } false 0 0,
    .setVolatileWriteCache { W.c0 with nsid := 2 ^ 32 },
    .setCommandBound { W.c0 with nsid := 2 ^ 32 } false 0,
    .setEarlyWarning { W.c0 with nsid := 2 ^ 32 } false 0 0 0 0 false,
    .setVendorEventNotices { W.c0 with nsid := 2 ^ 32 } false 0,
    .asynchronousEventRequest { W.c0 with nsid := 2 ^ 32 },
    .namespaceManagement { W.c0 with nsid := 2 ^ 32 } false 0 0 0 0 false false 0 0 0 none,
    .namespaceAttachment { W.c0 with nsid := 2 ^ 32 } false [],
    .virtualizationManagement { W.c0 with nsid := 2 ^ 32 } 0 0 0 0,
    .formatNvm { W.c0 with nsid := 2 ^ 32 } 0 0 0 false,
    .firmwareImageDownload { W.c0 with nsid := 2 ^ 32 } 0 0 (.stream W.strm0),
    .firmwareCommit { W.c0 with nsid := 2 ^ 32 } 0 0,
    .fwActivateNoReset { W.c0 with nsid := 2 ^ 32 } 0,
    .streamCommit { W.c0 with nsid := 2 ^ 32 } 0 0,
    .shortSelfTest { W.c0 with nsid := 2 ^ 32 } false,
    .extendedSelfTest { W.c0 with nsid := 2 ^ 32 },
    .selfTestAbort { W.c0 with nsid := 2 ^ 32 },
    .cryptoErase { W.c0 with nsid := 2 ^ 32 },
    .blockErase { W.c0 with nsid := 2 ^ 32 },
    .reseatAnchor { W.c0 with nsid := 2 ^ 32 } 0 ⟨0, 0, 0, 0, 0, true, true⟩,
    .applyGraft { W.c0 with nsid := 2 ^ 32 } 0 ⟨W.hdr 0, [], 0, 0, none⟩,
    .securityReceive { W.c0 with nsid := 2 ^ 32 } 0 0 0,
    .flush { W.c0 with nsid := 2 ^ 32 },
    .write { W.c0 with nsid := 2 ^ 32 } 0 [] ⟨false, 0, 0, 0, 0⟩,
    .write W.c0 (2 ^ 64) [] ⟨false, 0, 0, 0, 0⟩,
    .write W.c0 0 [] ⟨false, 8, 0, 0, 0⟩,
    .read { W.c0 with nsid := 2 ^ 32 } 0 0 ⟨false, 0, 0, 0, 0⟩,
    .read W.c0 (2 ^ 64) 0 ⟨false, 0, 0, 0, 0⟩,
    .read W.c0 0 0 ⟨false, 8, 0, 0, 0⟩,
    .writeUncorrectable { W.c0 with nsid := 2 ^ 32 } 0 0,
    .writeUncorrectable W.c0 (2 ^ 64) 0,
    .compare { W.c0 with nsid := 2 ^ 32 } 0 [] ⟨false, 0, 0, 0, 0⟩,
    .compare W.c0 (2 ^ 64) [] ⟨false, 0, 0, 0, 0⟩,
    .compare W.c0 0 [] ⟨false, 8, 0, 0, 0⟩,
    .writeZeroes { W.c0 with nsid := 2 ^ 32 } 0 0 false,
    .writeZeroes W.c0 (2 ^ 64) 0 false,
    .datasetManagement { W.c0 with nsid := 2 ^ 32 } false [],
    .verify { W.c0 with nsid := 2 ^ 32 } 0 0 ⟨false, 0, 0, 0, 0⟩,
    .verify W.c0 (2 ^ 64) 0 ⟨false, 0, 0, 0, 0⟩,
    .verify W.c0 0 0 ⟨false, 8, 0, 0, 0⟩,
    .reservationRegister { W.c0 with nsid := 2 ^ 32 } 0 false 0 0 0,
    .reservationReport { W.c0 with nsid := 2 ^ 32 } 0,
    .reservationAcquire { W.c0 with nsid := 2 ^ 32 } 0 0 false 0 0,
    .reservationRelease { W.c0 with nsid := 2 ^ 32 } 0 0 false 0,
    .copy { W.c0 with nsid := 2 ^ 32 } 0 0 [] ⟨false, 0, 0, 0, 0⟩ ⟨false, 0, 0, 0, 0⟩,
    .copy W.c0 (2 ^ 64) 0 [] ⟨false, 0, 0, 0, 0⟩ ⟨false, 0, 0, 0, 0⟩] : List Instr).all (fun i => !i.wf) = true := by decide

theorem test_wf_refuses_2 : ([.copy W.c0 0 0 [] ⟨false, 8, 0, 0, 0⟩ ⟨false, 0, 0, 0, 0⟩,
    .copy W.c0 0 0 [] ⟨false, 0, 0, 0, 0⟩ ⟨false, 8, 0, 0, 0⟩,
    .executeProgram { W.c0 with nsid := 2 ^ 32 } 0 0 [],
    .loadProgram { W.c0 with nsid := 2 ^ 32 } 0 false 0 0 0 [] [] false false,
    .programActivationManagement { W.c0 with nsid := 2 ^ 32 } 0 false,
    .memoryRangeSetManagement { W.c0 with nsid := 2 ^ 32 } false 0 [],
    .memoryRead { W.c0 with nsid := 2 ^ 32 } 0 0,
    .memoryWrite { W.c0 with nsid := 2 ^ 32 } 0 [],
    .memoryCopy { W.c0 with nsid := 2 ^ 32 } 0 [],
    .memoryFill { W.c0 with nsid := 2 ^ 32 } 0 0 0,
    .ccEnable 512 0 0 0 0,
    .ccDisable 512,
    .normalShutdown 512,
    .abruptShutdown 512,
    .functionLevelReset 512,
    .plotEnable 512,
    .plotDisable 512,
    .vfEnableClear 0 512,
    .plotRst 512,
    .plotResetPoint 512 [],
    .plotSlmFillDone 512,
    .plotShareWrite 512 0 0,
    .slmGrowFillDone 512,
    .mbSeqWrite 512 false 0,
    .mbAckWrite 512 false 0,
    .mbIncWrite 512 false 0,
    .mbSlotWrite 512 false 0 0,
    .dieDiscovery 2048 false false 0 0 0 0 0 [] false,
    .channelTraining 32 [] [],
    .dieOpIssue 2048,
    .dieStatusPoll 2048 0,
    .dieTimeout 2048,
    .dieResetTimeout 2048,
    .programSuspend 2048,
    .readRetryReread 2048 0 0 [] false 0,
    .destage (2 ^ 32) 0 0 false,
    .nandProgramDone 2048,
    .progFail 2048,
    .eraseDone 2048,
    .eraseFail 2048,
    .relocationCopyDone (2 ^ 32) 0,
    .readDisturbLimit 2048 0,
    .retentionLimit 2048 0,
    .gwlLinkUp 4 false false,
    .gwlTrainRetry 4,
    .gwlDataFrame 4 W.fr0,
    .gwlDataFrame 0 { W.fr0 with ty := 8 },
    .gwlIdleFrame 4 W.fr0,
    .gwlIdleFrame 0 { W.fr0 with ty := 8 },
    .gwlNak 4 W.fr0] : List Instr).all (fun i => !i.wf) = true := by decide

theorem test_wf_refuses_3 : ([.gwlNak 0 { W.fr0 with ty := 8 },
    .gwlTrainFrame 4 0 0 0 0,
    .gwlHeartbeat 4 W.fr0,
    .gwlHeartbeat 0 { W.fr0 with ty := 8 },
    .gwlReplayTimeout 4,
    .gwlAckHoldTimeout 4,
    .gwlLinkTimeout 4,
    .memberLost 8,
    .viewChange 256,
    .chunkForward 8 0 0 0 0 false,
    .chunkForward 0 (2 ^ 32) 0 0 0 false,
    .chunkResult 8 0 0 0 0 none,
    .chunkResult 0 (2 ^ 32) 0 0 0 none,
    .clusterShareReserve 8 0 0 0 0 0 0 false false,
    .clusterShareReserve 0 (2 ^ 32) 0 0 0 0 0 false false,
    .stripeLock 0 0 (2 ^ 32) 0 0 none [],
    .prepare 8 0 0 0 0 0 [] none,
    .prepare 0 0 0 (2 ^ 32) 0 0 [] none,
    .clusterCommit 8 0 0,
    .decisionQuery 8 0 0 [],
    .resyncStripe 0 (2 ^ 32) 0 [] false,
    .trelRsub 4 0 0,
    .trelRsub 0 0 (2 ^ 32),
    .trelRack 4 0 0,
    .trelRack 0 0 (2 ^ 32),
    .ringEnable 4 0 0,
    .ringEnable 0 0 (2 ^ 32),
    .jobStart 4 0 0,
    .curdArrival 4 0 0 W.cd0 [],
    .curdArrival 0 0 0 { W.cd0 with poison := 16 } [],
    .creditReturn 4 0 0,
    .jobEnd 4 0,
    .jobTimeout 4 0,
    .skimUnit 4 0 0 0 [] [] false false false 0,
    .skimRebind 4 0 false,
    .segmentSwapped 4,
    .churnJobSwitch 4 0 0 false,
    .iuCompress 4 0 0,
    .iuCompress 0 (2 ^ 32) 0,
    .iuDecompress (2 ^ 32) 0,
    .sieveJobSwitch 4 0 false,
    .camSearch 4 0 0 false none [],
    .camWrite 4 0 0,
    .insertAt 4 0 0,
    .insertKey 4 0 false,
    .camDelete 4 0 0,
    .clearTable 4 0,
    .updateDone 4,
    .sieveTblWrite 4 0 0,
    .sieveTblWrite 0 0 (2 ^ 32)] : List Instr).all (fun i => !i.wf) = true := by decide

theorem test_wf_refuses_4 : ([.keyDerivation 4 none 0 0,
    .gcmLease 4 0,
    .gcmTagCheck 4 0,
    .engineSwitch 4 false 0 false,
    .dgstOpen 4 0 0,
    .dgstOpen 0 8 0,
    .dgstOpen 0 0 512,
    .dgstData 4 0 0 0 false,
    .dgstData 0 8 0 0 false,
    .dgstData 0 0 512 0 false,
    .dgstData 0 0 0 (2 ^ 64) false,
    .dgstLast 4 0 0 0 0 false,
    .dgstLast 0 8 0 0 0 false,
    .dgstLast 0 0 0 512 0 false,
    .dgstLast 0 0 0 0 (2 ^ 64) false,
    .dgstFin0 4 0 0,
    .dgstFin0 0 8 0,
    .dgstFin0 0 0 512,
    .dgstAbort 4 0 0,
    .dgstAbort 0 8 0,
    .dgstAbort 0 0 512,
    .dgstDigestDone 4 0 false,
    .dgstDigestDone 0 8 false,
    .dgstIdleTimeout 4 0,
    .dgstIdleTimeout 0 8,
    .dgstExpWrite 4 0 0 0 0 false,
    .dgstExpWrite 0 8 0 0 0 false,
    .dgstExpWrite 0 0 0 512 0 false,
    .add 33 0 0 0 0 false,
    .add 0 16 0 0 0 false,
    .add 0 0 32 0 0 false,
    .add 0 0 0 32 0 false,
    .add 0 0 0 0 32 false,
    .adc 33 0 0 0 0 false,
    .adc 0 16 0 0 0 false,
    .adc 0 0 32 0 0 false,
    .adc 0 0 0 32 0 false,
    .adc 0 0 0 0 32 false,
    .sub 33 0 0 0 0 false,
    .sub 0 16 0 0 0 false,
    .sub 0 0 32 0 0 false,
    .sub 0 0 0 32 0 false,
    .sub 0 0 0 0 32 false,
    .sbc 33 0 0 0 0 false,
    .sbc 0 16 0 0 0 false,
    .sbc 0 0 32 0 0 false,
    .sbc 0 0 0 32 0 false,
    .sbc 0 0 0 0 32 false,
    .neg 33 0 0 0 false,
    .neg 0 16 0 0 false] : List Instr).all (fun i => !i.wf) = true := by decide

theorem test_wf_refuses_5 : ([.neg 0 0 32 0 false,
    .neg 0 0 0 32 false,
    .and 33 0 0 0 0 false,
    .and 0 16 0 0 0 false,
    .and 0 0 32 0 0 false,
    .and 0 0 0 32 0 false,
    .and 0 0 0 0 32 false,
    .or 33 0 0 0 0 false,
    .or 0 16 0 0 0 false,
    .or 0 0 32 0 0 false,
    .or 0 0 0 32 0 false,
    .or 0 0 0 0 32 false,
    .xor 33 0 0 0 0 false,
    .xor 0 16 0 0 0 false,
    .xor 0 0 32 0 0 false,
    .xor 0 0 0 32 0 false,
    .xor 0 0 0 0 32 false,
    .andn 33 0 0 0 0 false,
    .andn 0 16 0 0 0 false,
    .andn 0 0 32 0 0 false,
    .andn 0 0 0 32 0 false,
    .andn 0 0 0 0 32 false,
    .orn 33 0 0 0 0 false,
    .orn 0 16 0 0 0 false,
    .orn 0 0 32 0 0 false,
    .orn 0 0 0 32 0 false,
    .orn 0 0 0 0 32 false,
    .shl 33 0 0 0 0 false,
    .shl 0 16 0 0 0 false,
    .shl 0 0 32 0 0 false,
    .shl 0 0 0 32 0 false,
    .shl 0 0 0 0 32 false,
    .shr 33 0 0 0 0 false,
    .shr 0 16 0 0 0 false,
    .shr 0 0 32 0 0 false,
    .shr 0 0 0 32 0 false,
    .shr 0 0 0 0 32 false,
    .sar 33 0 0 0 0 false,
    .sar 0 16 0 0 0 false,
    .sar 0 0 32 0 0 false,
    .sar 0 0 0 32 0 false,
    .sar 0 0 0 0 32 false,
    .ror 33 0 0 0 0 false,
    .ror 0 16 0 0 0 false,
    .ror 0 0 32 0 0 false,
    .ror 0 0 0 32 0 false,
    .ror 0 0 0 0 32 false,
    .rol 33 0 0 0 0 false,
    .rol 0 16 0 0 0 false,
    .rol 0 0 32 0 0 false] : List Instr).all (fun i => !i.wf) = true := by decide

theorem test_wf_refuses_6 : ([.rol 0 0 0 32 0 false,
    .rol 0 0 0 0 32 false,
    .mul 33 0 0 0 0 false,
    .mul 0 16 0 0 0 false,
    .mul 0 0 32 0 0 false,
    .mul 0 0 0 32 0 false,
    .mul 0 0 0 0 32 false,
    .mulhu 33 0 0 0 0 false,
    .mulhu 0 16 0 0 0 false,
    .mulhu 0 0 32 0 0 false,
    .mulhu 0 0 0 32 0 false,
    .mulhu 0 0 0 0 32 false,
    .mulhs 33 0 0 0 0 false,
    .mulhs 0 16 0 0 0 false,
    .mulhs 0 0 32 0 0 false,
    .mulhs 0 0 0 32 0 false,
    .mulhs 0 0 0 0 32 false,
    .divu 33 0 0 0 0 false,
    .divu 0 16 0 0 0 false,
    .divu 0 0 32 0 0 false,
    .divu 0 0 0 32 0 false,
    .divu 0 0 0 0 32 false,
    .divs 33 0 0 0 0 false,
    .divs 0 16 0 0 0 false,
    .divs 0 0 32 0 0 false,
    .divs 0 0 0 32 0 false,
    .divs 0 0 0 0 32 false,
    .remu 33 0 0 0 0 false,
    .remu 0 16 0 0 0 false,
    .remu 0 0 32 0 0 false,
    .remu 0 0 0 32 0 false,
    .remu 0 0 0 0 32 false,
    .rems 33 0 0 0 0 false,
    .rems 0 16 0 0 0 false,
    .rems 0 0 32 0 0 false,
    .rems 0 0 0 32 0 false,
    .rems 0 0 0 0 32 false,
    .sxtb 33 0 0 0 false,
    .sxtb 0 16 0 0 false,
    .sxtb 0 0 32 0 false,
    .sxtb 0 0 0 32 false,
    .sxth 33 0 0 0 false,
    .sxth 0 16 0 0 false,
    .sxth 0 0 32 0 false,
    .sxth 0 0 0 32 false,
    .sxtw 33 0 0 0 false,
    .sxtw 0 16 0 0 false,
    .sxtw 0 0 32 0 false,
    .sxtw 0 0 0 32 false,
    .zxtw 33 0 0 0 false] : List Instr).all (fun i => !i.wf) = true := by decide

theorem test_wf_refuses_7 : ([.zxtw 0 16 0 0 false,
    .zxtw 0 0 32 0 false,
    .zxtw 0 0 0 32 false,
    .clz 33 0 0 0 false,
    .clz 0 16 0 0 false,
    .clz 0 0 32 0 false,
    .clz 0 0 0 32 false,
    .ctz 33 0 0 0 false,
    .ctz 0 16 0 0 false,
    .ctz 0 0 32 0 false,
    .ctz 0 0 0 32 false,
    .popc 33 0 0 0 false,
    .popc 0 16 0 0 false,
    .popc 0 0 32 0 false,
    .popc 0 0 0 32 false,
    .bswap 33 0 0 0 false,
    .bswap 0 16 0 0 false,
    .bswap 0 0 32 0 false,
    .bswap 0 0 0 32 false,
    .dadd 33 0 0 0 0,
    .dadd 0 16 0 0 0,
    .dadd 0 0 32 0 0,
    .dadd 0 0 0 32 0,
    .dadd 0 0 0 0 32,
    .dadc 33 0 0 0 0,
    .dadc 0 16 0 0 0,
    .dadc 0 0 32 0 0,
    .dadc 0 0 0 32 0,
    .dadc 0 0 0 0 32,
    .dsub 33 0 0 0 0,
    .dsub 0 16 0 0 0,
    .dsub 0 0 32 0 0,
    .dsub 0 0 0 32 0,
    .dsub 0 0 0 0 32,
    .dsbc 33 0 0 0 0,
    .dsbc 0 16 0 0 0,
    .dsbc 0 0 32 0 0,
    .dsbc 0 0 0 32 0,
    .dsbc 0 0 0 0 32,
    .daa 33 0 0 0,
    .daa 0 16 0 0,
    .daa 0 0 32 0,
    .daa 0 0 0 32,
    .das 33 0 0 0,
    .das 0 16 0 0,
    .das 0 0 32 0,
    .das 0 0 0 32,
    .cvbd 33 0 0 0,
    .cvbd 0 16 0 0,
    .cvbd 0 0 32 0] : List Instr).all (fun i => !i.wf) = true := by decide

theorem test_wf_refuses_8 : ([.cvbd 0 0 0 32,
    .cvdb 33 0 0 0 0,
    .cvdb 0 16 0 0 0,
    .cvdb 0 0 32 0 0,
    .cvdb 0 0 0 32 0,
    .cvdb 0 0 0 0 32,
    .addi 33 0 0 0 0,
    .addi 0 16 0 0 0,
    .addi 0 0 32 0 0,
    .addi 0 0 0 32 0,
    .addi 0 0 0 0 (2 ^ 12),
    .addis 33 0 0 0 0,
    .addis 0 16 0 0 0,
    .addis 0 0 32 0 0,
    .addis 0 0 0 32 0,
    .addis 0 0 0 0 (2 ^ 12),
    .subis 33 0 0 0 0,
    .subis 0 16 0 0 0,
    .subis 0 0 32 0 0,
    .subis 0 0 0 32 0,
    .subis 0 0 0 0 (2 ^ 12),
    .andi 33 0 0 0 0,
    .andi 0 16 0 0 0,
    .andi 0 0 32 0 0,
    .andi 0 0 0 32 0,
    .andi 0 0 0 0 (2 ^ 12),
    .ori 33 0 0 0 0,
    .ori 0 16 0 0 0,
    .ori 0 0 32 0 0,
    .ori 0 0 0 32 0,
    .ori 0 0 0 0 (2 ^ 12),
    .xori 33 0 0 0 0,
    .xori 0 16 0 0 0,
    .xori 0 0 32 0 0,
    .xori 0 0 0 32 0,
    .xori 0 0 0 0 (2 ^ 12),
    .andis 33 0 0 0 0,
    .andis 0 16 0 0 0,
    .andis 0 0 32 0 0,
    .andis 0 0 0 32 0,
    .andis 0 0 0 0 (2 ^ 12),
    .shli 33 0 0 0 0,
    .shli 0 16 0 0 0,
    .shli 0 0 32 0 0,
    .shli 0 0 0 32 0,
    .shli 0 0 0 0 (2 ^ 12),
    .shri 33 0 0 0 0,
    .shri 0 16 0 0 0,
    .shri 0 0 32 0 0,
    .shri 0 0 0 32 0] : List Instr).all (fun i => !i.wf) = true := by decide

theorem test_wf_refuses_9 : ([.shri 0 0 0 0 (2 ^ 12),
    .sari 33 0 0 0 0,
    .sari 0 16 0 0 0,
    .sari 0 0 32 0 0,
    .sari 0 0 0 32 0,
    .sari 0 0 0 0 (2 ^ 12),
    .rori 33 0 0 0 0,
    .rori 0 16 0 0 0,
    .rori 0 0 32 0 0,
    .rori 0 0 0 32 0,
    .rori 0 0 0 0 (2 ^ 12),
    .seti 33 0 0 false 0,
    .seti 0 16 0 false 0,
    .seti 0 0 32 false 0,
    .seti 0 0 0 false (2 ^ 16),
    .shin 33 0 0 false 0,
    .shin 0 16 0 false 0,
    .shin 0 0 32 false 0,
    .shin 0 0 0 false (2 ^ 16),
    .addpc 33 0 0 0,
    .addpc 0 16 0 0,
    .addpc 0 0 32 0,
    .addpc 0 0 0 (2 ^ 17),
    .lb 33 0 0 0 0,
    .lb 0 16 0 0 0,
    .lb 0 0 32 0 0,
    .lb 0 0 0 32 0,
    .lb 0 0 0 0 (2 ^ 12),
    .lbu 33 0 0 0 0,
    .lbu 0 16 0 0 0,
    .lbu 0 0 32 0 0,
    .lbu 0 0 0 32 0,
    .lbu 0 0 0 0 (2 ^ 12),
    .lh 33 0 0 0 0,
    .lh 0 16 0 0 0,
    .lh 0 0 32 0 0,
    .lh 0 0 0 32 0,
    .lh 0 0 0 0 (2 ^ 12),
    .lhu 33 0 0 0 0,
    .lhu 0 16 0 0 0,
    .lhu 0 0 32 0 0,
    .lhu 0 0 0 32 0,
    .lhu 0 0 0 0 (2 ^ 12),
    .lw 33 0 0 0 0,
    .lw 0 16 0 0 0,
    .lw 0 0 32 0 0,
    .lw 0 0 0 32 0,
    .lw 0 0 0 0 (2 ^ 12),
    .lwu 33 0 0 0 0,
    .lwu 0 16 0 0 0] : List Instr).all (fun i => !i.wf) = true := by decide

theorem test_wf_refuses_10 : ([.lwu 0 0 32 0 0,
    .lwu 0 0 0 32 0,
    .lwu 0 0 0 0 (2 ^ 12),
    .ld 33 0 0 0 0,
    .ld 0 16 0 0 0,
    .ld 0 0 32 0 0,
    .ld 0 0 0 32 0,
    .ld 0 0 0 0 (2 ^ 12),
    .sb 33 0 0 0 0,
    .sb 0 16 0 0 0,
    .sb 0 0 32 0 0,
    .sb 0 0 0 32 0,
    .sb 0 0 0 0 (2 ^ 12),
    .sh 33 0 0 0 0,
    .sh 0 16 0 0 0,
    .sh 0 0 32 0 0,
    .sh 0 0 0 32 0,
    .sh 0 0 0 0 (2 ^ 12),
    .sw 33 0 0 0 0,
    .sw 0 16 0 0 0,
    .sw 0 0 32 0 0,
    .sw 0 0 0 32 0,
    .sw 0 0 0 0 (2 ^ 12),
    .sd 33 0 0 0 0,
    .sd 0 16 0 0 0,
    .sd 0 0 32 0 0,
    .sd 0 0 0 32 0,
    .sd 0 0 0 0 (2 ^ 12),
    .cas 33 0 0 0 0,
    .cas 0 16 0 0 0,
    .cas 0 0 32 0 0,
    .cas 0 0 0 32 0,
    .cas 0 0 0 0 32,
    .bcc 33 0 0 0,
    .bcc 0 16 0 0,
    .bcc 0 0 16 0,
    .bcc 0 0 0 (2 ^ 18),
    .b 33 0 0,
    .b 0 16 0,
    .b 0 0 (2 ^ 22),
    .bl 33 0 0,
    .bl 0 16 0,
    .bl 0 0 (2 ^ 22),
    .br 33 0 0,
    .br 0 16 0,
    .br 0 0 32,
    .blr 33 0 0,
    .blr 0 16 0,
    .blr 0 0 32,
    .mfsr 33 0 0 0 0] : List Instr).all (fun i => !i.wf) = true := by decide

theorem test_wf_refuses_11 : ([.mfsr 0 16 0 0 0,
    .mfsr 0 0 32 0 0,
    .mfsr 0 0 0 32 0,
    .mfsr 0 0 0 0 64,
    .mtsr 33 0 0 0 0,
    .mtsr 0 16 0 0 0,
    .mtsr 0 0 32 0 0,
    .mtsr 0 0 0 32 0,
    .mtsr 0 0 0 0 64,
    .rte 33 0 0,
    .rte 0 16 0,
    .rte 0 0 (2 ^ 16),
    .fence 33 0,
    .fence 0 16,
    .wfe 33 0,
    .wfe 0 16,
    .svc 33 0 0,
    .svc 0 16 0,
    .svc 0 0 (2 ^ 16),
    .brk 33 0 0,
    .brk 0 16 0,
    .brk 0 0 (2 ^ 16),
    .rep 33 0 0 0 0,
    .rep 0 16 0 0 0,
    .rep 0 0 4 0 0,
    .rep 0 0 0 (2 ^ 32) 0,
    .movb 33 0,
    .movb 0 16,
    .movd 33 0,
    .movd 0 16,
    .filb 33 0,
    .filb 0 16,
    .fild 33 0,
    .fild 0 16,
    .cmpb 33 0,
    .cmpb 0 16,
    .cmpd 33 0,
    .cmpd 0 16,
    .scnb 33 0,
    .scnb 0 16,
    .scnd 33 0,
    .scnd 0 16,
    .interrupt 33,
    .programDispatch 33,
    .quantumEnd 33,
    .programExit 33,
    .yield 33,
    .resume 33,
    .pinTail 33 0,
    .poutTail 33 0] : List Instr).all (fun i => !i.wf) = true := by decide

theorem test_wf_refuses_12 : ([.memcSchedule 4 0 [] 0 [],
    .memcSchedule 0 2 [] 0 [],
    .memcSchedule 0 0 [{ W.mr0 with owner := 1024 }] 0 [],
    .dramBurstRead 4 0 [] none,
    .mr4Poll 4 false,
    .refreshDue 4,
    .rhtWindowEnd 4,
    .dqsOscRead 4 0 0,
    .memcFchgGo 4,
    .freqChangeDone 4,
    .caParityAlert 4 0 0 [],
    .scrubRead 4 [] none,
    .getVersion { W.c0 with nsid := 2 ^ 32 } 0 0 false,
    .getIdentity { W.c0 with nsid := 2 ^ 32 } 0 0 false,
    .attest { W.c0 with nsid := 2 ^ 32 } 0 0 0 0 false,
    .getNonce { W.c0 with nsid := 2 ^ 32 } 0 0 false,
    .lcsChange { W.c0 with nsid := 2 ^ 32 } 0 0 false ⟨0, 0, 0, 0, 0, 0, true, true⟩,
    .debugAuth { W.c0 with nsid := 2 ^ 32 } 0 0 false ⟨0, 0, 0, 0, 0, 0, true, true⟩,
    .installCert { W.c0 with nsid := 2 ^ 32 } 0 false [] false,
    .installStreamkey { W.c0 with nsid := 2 ^ 32 } 0 false 0 [],
    .evtHostAckSeq (2 ^ 32),
    .evtSwtrig (2 ^ 32),
    .evtRoute 512 0,
    .evtRoute 0 (2 ^ 32),
    .pmuCntWrite 48 0 0,
    .pmuCntWrite 0 (2 ^ 64) 0,
    .pmuOverflow 48 0,
    .finjEnable 16 0,
    .finjEnable 0 (2 ^ 32),
    .dbgHalt 33,
    .dbgStep 33 0,
    .dbgResume 33,
    .dbgAccess 33 (.g 0) false 0,
    .dbgAccess 0 (.g 32) false 0,
    .uartRxByte 256,
    .autonomousPowerStateTransition 512,
    .interruptCoalescingTimeout 512 0,
    .interruptCoalescingTimeout 0 65536,
    .pageIdleClose 4 0,
    .gwlFrameHunt 4 false,
    .reservedWord 33 0,
    .reservedWord 0 (2 ^ 32)] : List Instr).all (fun i => !i.wf) = true := by decide

/-! ### Words written out from R302 and R303 -/

/-- R304 gives this word. -/
theorem test_word_adds : wordMeaning 0 0x000642C0 0 0 = some (vzAdd 0 0 3 4 5 true) := rfl

/-- R304 gives this word. -/
theorem test_word_adds_eq : wordMeaning 0 0x100642C0 0 0 = some (vzAdd 0 1 3 4 5 true) := rfl

/-- R304 gives this word. -/
theorem test_word_ld : wordMeaning 0 0x068A6010 0 0 = some (vzLd 0 0 5 6 16) := rfl

/-- R304 gives this word. -/
theorem test_word_bcc_back : wordMeaning 0 0x0C07FFFD 0 0 = some (vzBcc 0 0 1 0x3FFFD) := rfl

/-- OP 0x01, rd 1, ra 2, rb 3, FN 0. -/
theorem test_word_dadd : wordMeaning 0 0x00422180 0 0 = some (vzDadd 0 0 1 2 3) := rfl

/-- OP 0x02, rd 1, ra 2, imm -1. -/
theorem test_word_addi : wordMeaning 0 0x00822FFF 0 0 = some (vzAddi 0 0 1 2 0xFFF) := rfl

/-- OP 0x1C, rd 5, ra 6, imm 16. -/
theorem test_word_sb : wordMeaning 0 0x070A6010 0 0 = some (vzSb 0 0 5 6 16) := rfl

/-- OP 0x20, rd 1, ra 2, rb 3. -/
theorem test_word_cas : wordMeaning 0 0x08022180 0 0 = some (vzCas 0 0 1 2 3) := rfl

/-- OP 0x31, disp 1. -/
theorem test_word_b : wordMeaning 0 0x0C400001 0 0 = some (vzB 0 0 1) := rfl

/-- OP 0x33, FN 0, ra 31. -/
theorem test_word_ret : wordMeaning 0 0x0CC1F000 0 0 = some (vzBr 0 0 31) := rfl

/-- OP 0x38, FN 3. -/
theorem test_word_fence : wordMeaning 0 0x0E000003 0 0 = some (vzFence 0 0) := rfl

/-- OP 0x39, imm 5. -/
theorem test_word_svc : wordMeaning 0 0x0E400005 0 0 = some (vzSvc 0 0 5) := rfl

/-- OP 0x3D, FN 4. -/
theorem test_word_cmpb : wordMeaning 0 0x0F400004 0 0 = some (vzCmpb 0 0) := rfl

/-- ADD wraps at 64 bits and sets Z and C (R310). -/
theorem test_add_wraps : (addRes 0 0xFFFFFFFFFFFFFFFF#64 1#64 false).val = 0#64 ∧ fZ (addRes 0 0xFFFFFFFFFFFFFFFF#64 1#64 false).fl = true ∧
    fC (addRes 0 0xFFFFFFFFFFFFFFFF#64 1#64 false).fl = true := by decide

/-- Seven further rounds leave a fresh arbiter's waiting requester at age 7 (R24). -/
theorem test_arb_age : ((⟨[], []⟩ : Arb).after (List.replicate 7 ([0, 1], 0))).age 1 = 7 := by decide

/-! ### The hypotheses of every statement can be met -/

theorem wit_RegisterAluWritesResult_0 : ∃ (s : State) (c g rd ra rb : Nat) (sf : Bool), (s.live) ∧ (s.dev.executes c g) :=
  ⟨W.sec, 32, 0, 1, 2, 3, true, (by decide), (by decide)⟩
theorem wit_RegisterAluWritesResult_1 : ∃ (s : State) (c g rd ra rb : Nat) (sf : Bool), (s.live) ∧ (s.dev.executes c g) :=
  ⟨W.sec, 32, 0, 1, 2, 3, true, (by decide), (by decide)⟩
theorem wit_RegisterAluWritesResult_2 : ∃ (s : State) (c g rd ra rb : Nat) (sf : Bool), (s.live) ∧ (s.dev.executes c g) :=
  ⟨W.sec, 32, 0, 1, 2, 3, true, (by decide), (by decide)⟩
theorem wit_RegisterAluWritesResult_3 : ∃ (s : State) (c g rd ra rb : Nat) (sf : Bool), (s.live) ∧ (s.dev.executes c g) :=
  ⟨W.sec, 32, 0, 1, 2, 3, true, (by decide), (by decide)⟩
theorem wit_RegisterAluWritesResult_4 : ∃ (s : State) (c g rd ra rb : Nat) (sf : Bool), (s.live) ∧ (s.dev.executes c g) :=
  ⟨W.sec, 32, 0, 1, 2, 3, true, (by decide), (by decide)⟩
theorem wit_RegisterAluWritesResult_5 : ∃ (s : State) (c g rd ra rb : Nat) (sf : Bool), (s.live) ∧ (s.dev.executes c g) :=
  ⟨W.sec, 32, 0, 1, 2, 3, true, (by decide), (by decide)⟩
theorem wit_RegisterAluWritesResult_6 : ∃ (s : State) (c g rd ra rb : Nat) (sf : Bool), (s.live) ∧ (s.dev.executes c g) :=
  ⟨W.sec, 32, 0, 1, 2, 3, true, (by decide), (by decide)⟩
theorem wit_RegisterAluWritesResult_7 : ∃ (s : State) (c g rd ra rb : Nat) (sf : Bool), (s.live) ∧ (s.dev.executes c g) :=
  ⟨W.sec, 32, 0, 1, 2, 3, true, (by decide), (by decide)⟩
theorem wit_RegisterAluWritesResult_8 : ∃ (s : State) (c g rd ra rb : Nat) (sf : Bool), (s.live) ∧ (s.dev.executes c g) :=
  ⟨W.sec, 32, 0, 1, 2, 3, true, (by decide), (by decide)⟩
theorem wit_RegisterAluWritesResult_9 : ∃ (s : State) (c g rd ra rb : Nat) (sf : Bool), (s.live) ∧ (s.dev.executes c g) :=
  ⟨W.sec, 32, 0, 1, 2, 3, true, (by decide), (by decide)⟩
theorem wit_RegisterAluWritesResult_10 : ∃ (s : State) (c g rd ra rb : Nat) (sf : Bool), (s.live) ∧ (s.dev.executes c g) :=
  ⟨W.sec, 32, 0, 1, 2, 3, true, (by decide), (by decide)⟩
theorem wit_RegisterAluWritesResult_11 : ∃ (s : State) (c g rd ra rb : Nat) (sf : Bool), (s.live) ∧ (s.dev.executes c g) :=
  ⟨W.sec, 32, 0, 1, 2, 3, true, (by decide), (by decide)⟩
theorem wit_ShiftAndUnaryWriteResult_0 : ∃ (s : State) (c g rd ra rb : Nat) (sf : Bool), (s.live) ∧ (s.dev.executes c g) :=
  ⟨W.sec, 32, 0, 1, 2, 3, true, (by decide), (by decide)⟩
theorem wit_ShiftAndUnaryWriteResult_1 : ∃ (s : State) (c g rd ra rb : Nat) (sf : Bool), (s.live) ∧ (s.dev.executes c g) :=
  ⟨W.sec, 32, 0, 1, 2, 3, true, (by decide), (by decide)⟩
theorem wit_ShiftAndUnaryWriteResult_2 : ∃ (s : State) (c g rd ra rb : Nat) (sf : Bool), (s.live) ∧ (s.dev.executes c g) :=
  ⟨W.sec, 32, 0, 1, 2, 3, true, (by decide), (by decide)⟩
theorem wit_ShiftAndUnaryWriteResult_3 : ∃ (s : State) (c g rd ra rb : Nat) (sf : Bool), (s.live) ∧ (s.dev.executes c g) :=
  ⟨W.sec, 32, 0, 1, 2, 3, true, (by decide), (by decide)⟩
theorem wit_ShiftAndUnaryWriteResult_4 : ∃ (s : State) (c g rd ra rb : Nat) (sf : Bool), (s.live) ∧ (s.dev.executes c g) :=
  ⟨W.sec, 32, 0, 1, 2, 3, true, (by decide), (by decide)⟩
theorem wit_ShiftAndUnaryWriteResult_5 : ∃ (s : State) (c g rd ra : Nat) (sf : Bool), (s.live) ∧ (s.dev.executes c g) :=
  ⟨W.sec, 32, 0, 1, 2, true, (by decide), (by decide)⟩
theorem wit_ShiftAndUnaryWriteResult_6 : ∃ (s : State) (c g rd ra : Nat) (sf : Bool), (s.live) ∧ (s.dev.executes c g) :=
  ⟨W.sec, 32, 0, 1, 2, true, (by decide), (by decide)⟩
theorem wit_ShiftAndUnaryWriteResult_7 : ∃ (s : State) (c g rd ra : Nat) (sf : Bool), (s.live) ∧ (s.dev.executes c g) :=
  ⟨W.sec, 32, 0, 1, 2, true, (by decide), (by decide)⟩
theorem wit_ShiftAndUnaryWriteResult_8 : ∃ (s : State) (c g rd ra : Nat) (sf : Bool), (s.live) ∧ (s.dev.executes c g) :=
  ⟨W.sec, 32, 0, 1, 2, true, (by decide), (by decide)⟩
theorem wit_ShiftAndUnaryWriteResult_9 : ∃ (s : State) (c g rd ra : Nat) (sf : Bool), (s.live) ∧ (s.dev.executes c g) :=
  ⟨W.sec, 32, 0, 1, 2, true, (by decide), (by decide)⟩
theorem wit_ShiftAndUnaryWriteResult_10 : ∃ (s : State) (c g rd ra : Nat) (sf : Bool), (s.live) ∧ (s.dev.executes c g) :=
  ⟨W.sec, 32, 0, 1, 2, true, (by decide), (by decide)⟩
theorem wit_ShiftAndUnaryWriteResult_11 : ∃ (s : State) (c g rd ra : Nat) (sf : Bool), (s.live) ∧ (s.dev.executes c g) :=
  ⟨W.sec, 32, 0, 1, 2, true, (by decide), (by decide)⟩
theorem wit_ShiftAndUnaryWriteResult_12 : ∃ (s : State) (c g rd ra : Nat) (sf : Bool), (s.live) ∧ (s.dev.executes c g) :=
  ⟨W.sec, 32, 0, 1, 2, true, (by decide), (by decide)⟩
theorem wit_ShiftAndUnaryWriteResult_13 : ∃ (s : State) (c g rd ra : Nat) (sf : Bool), (s.live) ∧ (s.dev.executes c g) :=
  ⟨W.sec, 32, 0, 1, 2, true, (by decide), (by decide)⟩
theorem wit_ShiftResult_0_0 : ∃ (n : Nat), (n < 256) :=
  ⟨255, (by decide)⟩
theorem wit_DivisionCompletes_0 : ∃ (s : State) (c g rd ra rb : Nat) (sf : Bool), (s.live) ∧ (s.dev.executes c g) ∧ (((s.dev.x c rb) = 0#64 → (s.dev.cpu c).ctl.getLsbD 0 = false)) :=
  ⟨W.sec, 32, 0, 1, 2, 3, true, (by decide), (by decide), (by decide)⟩
theorem wit_DivisionCompletes_1 : ∃ (s : State) (c g rd ra rb : Nat) (sf : Bool), (s.live) ∧ (s.dev.executes c g) ∧ (((s.dev.x c rb) = 0#64 → (s.dev.cpu c).ctl.getLsbD 0 = false)) :=
  ⟨W.sec, 32, 0, 1, 2, 3, true, (by decide), (by decide), (by decide)⟩
theorem wit_DivisionCompletes_2 : ∃ (s : State) (c g rd ra rb : Nat) (sf : Bool), (s.live) ∧ (s.dev.executes c g) ∧ (((s.dev.x c rb) = 0#64 → (s.dev.cpu c).ctl.getLsbD 0 = false)) :=
  ⟨W.sec, 32, 0, 1, 2, 3, true, (by decide), (by decide), (by decide)⟩
theorem wit_DivisionCompletes_3 : ∃ (s : State) (c g rd ra rb : Nat) (sf : Bool), (s.live) ∧ (s.dev.executes c g) ∧ (((s.dev.x c rb) = 0#64 → (s.dev.cpu c).ctl.getLsbD 0 = false)) :=
  ⟨W.sec, 32, 0, 1, 2, 3, true, (by decide), (by decide), (by decide)⟩
theorem wit_DivisionCompletes_4 : ∃ (s : State) (c g rd ra rb : Nat) (sf : Bool), (s.live) ∧ (s.dev.executes c g) ∧ ((s.dev.x c rb) = 0#64) ∧ ((s.dev.cpu c).ctl.getLsbD 0 = true) :=
  ⟨W.secDzt, 32, 0, 1, 2, 3, true, (by decide), (by decide), (by decide), (by decide)⟩
theorem wit_DivisionCompletes_5 : ∃ (s : State) (c g rd ra rb : Nat) (sf : Bool), (s.live) ∧ (s.dev.executes c g) ∧ ((s.dev.x c rb) = 0#64) ∧ ((s.dev.cpu c).ctl.getLsbD 0 = true) :=
  ⟨W.secDzt, 32, 0, 1, 2, 3, true, (by decide), (by decide), (by decide), (by decide)⟩
theorem wit_DivisionCompletes_6 : ∃ (s : State) (c g rd ra rb : Nat) (sf : Bool), (s.live) ∧ (s.dev.executes c g) ∧ ((s.dev.x c rb) = 0#64) ∧ ((s.dev.cpu c).ctl.getLsbD 0 = true) :=
  ⟨W.secDzt, 32, 0, 1, 2, 3, true, (by decide), (by decide), (by decide), (by decide)⟩
theorem wit_DivisionCompletes_7 : ∃ (s : State) (c g rd ra rb : Nat) (sf : Bool), (s.live) ∧ (s.dev.executes c g) ∧ ((s.dev.x c rb) = 0#64) ∧ ((s.dev.cpu c).ctl.getLsbD 0 = true) :=
  ⟨W.secDzt, 32, 0, 1, 2, 3, true, (by decide), (by decide), (by decide), (by decide)⟩
theorem wit_DivisionResult_0_0 : ∃ (b : W64), (b = 0#64) :=
  ⟨0#64, (by decide)⟩
theorem wit_DivisionResult_0_1 : ∃ (signed : Bool) (a b : W64), (b ≠ 0#64) ∧ (signed = true) ∧ (a = 0x8000000000000000#64) ∧ (b = BitVec.allOnes 64) :=
  ⟨true, 0x8000000000000000#64, BitVec.allOnes 64, (by decide), (by decide), (by decide), (by decide)⟩
theorem wit_DivisionResult_0_2 : ∃ (signed : Bool) (a b : W64), (b ≠ 0#64) ∧ (signed = true) ∧ (¬(a = 0x8000000000000000#64 ∧ b = BitVec.allOnes 64)) :=
  ⟨true, 0x8000000000000000#64, 1#64, (by decide), (by decide), (by decide)⟩
theorem wit_DivisionResult_0_3 : ∃ (signed : Bool) (b : W64), (b ≠ 0#64) ∧ (signed = false) :=
  ⟨false, 1#64, (by decide), (by decide)⟩
theorem wit_DecimalCompletes_0 : ∃ (s : State) (c g rd ra rb : Nat), (s.live) ∧ (s.dev.executes c g) ∧ (decOk (s.dev.x c ra) = true) ∧ (decOk (s.dev.x c rb) = true) :=
  ⟨W.sec, 32, 0, 1, 2, 3, (by decide), (by decide), (by decide), (by decide)⟩
theorem wit_DecimalCompletes_1 : ∃ (s : State) (c g rd ra rb : Nat), (s.live) ∧ (s.dev.executes c g) ∧ (decOk (s.dev.x c ra) = true) ∧ (decOk (s.dev.x c rb) = true) :=
  ⟨W.sec, 32, 0, 1, 2, 3, (by decide), (by decide), (by decide), (by decide)⟩
theorem wit_DecimalCompletes_2 : ∃ (s : State) (c g rd ra rb : Nat), (s.live) ∧ (s.dev.executes c g) ∧ (decOk (s.dev.x c ra) = true) ∧ (decOk (s.dev.x c rb) = true) :=
  ⟨W.sec, 32, 0, 1, 2, 3, (by decide), (by decide), (by decide), (by decide)⟩
theorem wit_DecimalCompletes_3 : ∃ (s : State) (c g rd ra rb : Nat), (s.live) ∧ (s.dev.executes c g) ∧ (decOk (s.dev.x c ra) = true) ∧ (decOk (s.dev.x c rb) = true) :=
  ⟨W.sec, 32, 0, 1, 2, 3, (by decide), (by decide), (by decide), (by decide)⟩
theorem wit_DecimalCompletes_4 : ∃ (s : State) (c g rd ra : Nat), (s.live) ∧ (s.dev.executes c g) :=
  ⟨W.sec, 32, 0, 1, 2, (by decide), (by decide)⟩
theorem wit_DecimalCompletes_5 : ∃ (s : State) (c g rd ra : Nat), (s.live) ∧ (s.dev.executes c g) :=
  ⟨W.sec, 32, 0, 1, 2, (by decide), (by decide)⟩
theorem wit_DecimalCompletes_6 : ∃ (s : State) (c g rd ra : Nat), (s.live) ∧ (s.dev.executes c g) :=
  ⟨W.sec, 32, 0, 1, 2, (by decide), (by decide)⟩
theorem wit_DecimalCompletes_7 : ∃ (s : State) (c g rd ra unused : Nat), (s.live) ∧ (s.dev.executes c g) ∧ (decOk (s.dev.x c ra) = true) :=
  ⟨W.sec, 32, 0, 1, 2, 3, (by decide), (by decide), (by decide)⟩
theorem wit_DecimalCompletes_8 : ∃ (s : State) (c g rd ra rb : Nat), (s.live) ∧ (s.dev.executes c g) ∧ ((decOk (s.dev.x c ra) = false ∨ decOk (s.dev.x c rb) = false)) ∧ (fDT (s.dev.flags c) = false) :=
  ⟨W.secBad, 32, 0, 1, 2, 3, (by decide), (by decide), (by decide), (by decide)⟩
theorem wit_DecimalCompletes_9 : ∃ (s : State) (c g rd ra rb : Nat), (s.live) ∧ (s.dev.executes c g) ∧ ((decOk (s.dev.x c ra) = false ∨ decOk (s.dev.x c rb) = false)) ∧ (fDT (s.dev.flags c) = false) :=
  ⟨W.secBad, 32, 0, 1, 2, 3, (by decide), (by decide), (by decide), (by decide)⟩
theorem wit_DecimalCompletes_10 : ∃ (s : State) (c g rd ra rb : Nat), (s.live) ∧ (s.dev.executes c g) ∧ ((decOk (s.dev.x c ra) = false ∨ decOk (s.dev.x c rb) = false)) ∧ (fDT (s.dev.flags c) = false) :=
  ⟨W.secBad, 32, 0, 1, 2, 3, (by decide), (by decide), (by decide), (by decide)⟩
theorem wit_DecimalCompletes_11 : ∃ (s : State) (c g rd ra rb : Nat), (s.live) ∧ (s.dev.executes c g) ∧ ((decOk (s.dev.x c ra) = false ∨ decOk (s.dev.x c rb) = false)) ∧ (fDT (s.dev.flags c) = false) :=
  ⟨W.secBad, 32, 0, 1, 2, 3, (by decide), (by decide), (by decide), (by decide)⟩
theorem wit_DecimalCompletes_12 : ∃ (s : State) (c g rd ra unused : Nat), (s.live) ∧ (s.dev.executes c g) ∧ (decOk (s.dev.x c ra) = false) ∧ (fDT (s.dev.flags c) = false) :=
  ⟨W.secBad, 32, 0, 1, 2, 3, (by decide), (by decide), (by decide), (by decide)⟩
theorem wit_ImmediateWritesResult_0 : ∃ (s : State) (c g rd ra imm : Nat), (s.live) ∧ (s.dev.executes c g) :=
  ⟨W.sec, 32, 0, 1, 2, 255, (by decide), (by decide)⟩
theorem wit_ImmediateWritesResult_1 : ∃ (s : State) (c g rd ra imm : Nat), (s.live) ∧ (s.dev.executes c g) :=
  ⟨W.sec, 32, 0, 1, 2, 255, (by decide), (by decide)⟩
theorem wit_ImmediateWritesResult_2 : ∃ (s : State) (c g rd ra imm : Nat), (s.live) ∧ (s.dev.executes c g) :=
  ⟨W.sec, 32, 0, 1, 2, 255, (by decide), (by decide)⟩
theorem wit_ImmediateWritesResult_3 : ∃ (s : State) (c g rd ra imm : Nat), (s.live) ∧ (s.dev.executes c g) :=
  ⟨W.sec, 32, 0, 1, 2, 255, (by decide), (by decide)⟩
theorem wit_ImmediateWritesResult_4 : ∃ (s : State) (c g rd ra imm : Nat), (s.live) ∧ (s.dev.executes c g) :=
  ⟨W.sec, 32, 0, 1, 2, 255, (by decide), (by decide)⟩
theorem wit_ImmediateWritesResult_5 : ∃ (s : State) (c g rd ra imm : Nat), (s.live) ∧ (s.dev.executes c g) :=
  ⟨W.sec, 32, 0, 1, 2, 255, (by decide), (by decide)⟩
theorem wit_ImmediateWritesResult_6 : ∃ (s : State) (c g rd ra imm : Nat), (s.live) ∧ (s.dev.executes c g) :=
  ⟨W.sec, 32, 0, 1, 2, 255, (by decide), (by decide)⟩
theorem wit_ImmediateWritesResult_7 : ∃ (s : State) (c g rd ra imm : Nat), (s.live) ∧ (s.dev.executes c g) ∧ (imm < 256) :=
  ⟨W.sec, 32, 0, 1, 2, 255, (by decide), (by decide), (by decide)⟩
theorem wit_ImmediateWritesResult_8 : ∃ (s : State) (c g rd ra imm : Nat), (s.live) ∧ (s.dev.executes c g) ∧ (imm < 256) :=
  ⟨W.sec, 32, 0, 1, 2, 255, (by decide), (by decide), (by decide)⟩
theorem wit_ImmediateWritesResult_9 : ∃ (s : State) (c g rd ra imm : Nat), (s.live) ∧ (s.dev.executes c g) ∧ (imm < 256) :=
  ⟨W.sec, 32, 0, 1, 2, 255, (by decide), (by decide), (by decide)⟩
theorem wit_ImmediateWritesResult_10 : ∃ (s : State) (c g rd ra imm : Nat), (s.live) ∧ (s.dev.executes c g) ∧ (imm < 256) :=
  ⟨W.sec, 32, 0, 1, 2, 255, (by decide), (by decide), (by decide)⟩
theorem wit_ImmediateWritesResult_11 : ∃ (s : State) (c g rd : Nat) (x : Bool) (imm : Nat), (s.live) ∧ (s.dev.executes c g) :=
  ⟨W.sec, 32, 0, 1, true, 3, (by decide), (by decide)⟩
theorem wit_ImmediateWritesResult_12 : ∃ (s : State) (c g rd imm : Nat), (s.live) ∧ (s.dev.executes c g) :=
  ⟨W.sec, 32, 0, 1, 3, (by decide), (by decide)⟩
theorem wit_ImmediateWritesResult_13 : ∃ (s : State) (c g rd imm : Nat), (s.live) ∧ (s.dev.executes c g) :=
  ⟨W.sec, 32, 0, 1, 3, (by decide), (by decide)⟩
theorem wit_LoadCompletes_0 : ∃ (s : State) (c g rd ra imm : Nat), (s.live) ∧ (s.dev.executes c g) ∧ (s.dev.accTrap c ((s.dev.x c ra + (BitVec.ofNat 12 imm).signExtend 64).toNat) 1 .load = none) ∧ ((s.dev.peek c ((s.dev.x c ra + (BitVec.ofNat 12 imm).signExtend 64).toNat) 1).poison = false) :=
  ⟨W.sec, 32, 0, 1, 0, 64, (by decide), (by decide), (by decide), (by decide)⟩
theorem wit_LoadCompletes_1 : ∃ (s : State) (c g rd ra imm : Nat), (s.live) ∧ (s.dev.executes c g) ∧ (s.dev.accTrap c ((s.dev.x c ra + (BitVec.ofNat 12 imm).signExtend 64).toNat) 1 .load = none) ∧ ((s.dev.peek c ((s.dev.x c ra + (BitVec.ofNat 12 imm).signExtend 64).toNat) 1).poison = false) :=
  ⟨W.sec, 32, 0, 1, 0, 64, (by decide), (by decide), (by decide), (by decide)⟩
theorem wit_LoadCompletes_2 : ∃ (s : State) (c g rd ra imm : Nat), (s.live) ∧ (s.dev.executes c g) ∧ (s.dev.accTrap c ((s.dev.x c ra + (BitVec.ofNat 12 imm).signExtend 64).toNat) 2 .load = none) ∧ ((s.dev.peek c ((s.dev.x c ra + (BitVec.ofNat 12 imm).signExtend 64).toNat) 2).poison = false) :=
  ⟨W.sec, 32, 0, 1, 0, 64, (by decide), (by decide), (by decide), (by decide)⟩
theorem wit_LoadCompletes_3 : ∃ (s : State) (c g rd ra imm : Nat), (s.live) ∧ (s.dev.executes c g) ∧ (s.dev.accTrap c ((s.dev.x c ra + (BitVec.ofNat 12 imm).signExtend 64).toNat) 2 .load = none) ∧ ((s.dev.peek c ((s.dev.x c ra + (BitVec.ofNat 12 imm).signExtend 64).toNat) 2).poison = false) :=
  ⟨W.sec, 32, 0, 1, 0, 64, (by decide), (by decide), (by decide), (by decide)⟩
theorem wit_LoadCompletes_4 : ∃ (s : State) (c g rd ra imm : Nat), (s.live) ∧ (s.dev.executes c g) ∧ (s.dev.accTrap c ((s.dev.x c ra + (BitVec.ofNat 12 imm).signExtend 64).toNat) 4 .load = none) ∧ ((s.dev.peek c ((s.dev.x c ra + (BitVec.ofNat 12 imm).signExtend 64).toNat) 4).poison = false) :=
  ⟨W.sec, 32, 0, 1, 0, 64, (by decide), (by decide), (by decide), (by decide)⟩
theorem wit_LoadCompletes_5 : ∃ (s : State) (c g rd ra imm : Nat), (s.live) ∧ (s.dev.executes c g) ∧ (s.dev.accTrap c ((s.dev.x c ra + (BitVec.ofNat 12 imm).signExtend 64).toNat) 4 .load = none) ∧ ((s.dev.peek c ((s.dev.x c ra + (BitVec.ofNat 12 imm).signExtend 64).toNat) 4).poison = false) :=
  ⟨W.sec, 32, 0, 1, 0, 64, (by decide), (by decide), (by decide), (by decide)⟩
theorem wit_LoadCompletes_6 : ∃ (s : State) (c g rd ra imm : Nat), (s.live) ∧ (s.dev.executes c g) ∧ (s.dev.accTrap c ((s.dev.x c ra + (BitVec.ofNat 12 imm).signExtend 64).toNat) 8 .load = none) ∧ ((s.dev.peek c ((s.dev.x c ra + (BitVec.ofNat 12 imm).signExtend 64).toNat) 8).poison = false) :=
  ⟨W.sec, 32, 0, 1, 0, 64, (by decide), (by decide), (by decide), (by decide)⟩
theorem wit_StoreCompletes_0 : ∃ (s : State) (c g rd ra imm : Nat) (e1 : Dev), (s.live) ∧ (s.dev.executes c g) ∧ (s.dev.accTrap c ((s.dev.x c ra + (BitVec.ofNat 12 imm).signExtend 64).toNat) 1 .store = none) ∧ (s.dev.poke c ((s.dev.x c ra + (BitVec.ofNat 12 imm).signExtend 64).toNat) 1 ((s.dev.x c rd).toNat % 256 ^ 1) false = some e1) ∧ (e1.coreRuns c = true) :=
  ⟨W.sec, 32, 0, 1, 0, 64, (W.sec.dev.poke 32 64 1 0 false).getD W.sec.dev, (by decide), (by decide), (by decide), (by rfl), (by decide)⟩
theorem wit_StoreCompletes_1 : ∃ (s : State) (c g rd ra imm : Nat) (e1 : Dev), (s.live) ∧ (s.dev.executes c g) ∧ (s.dev.accTrap c ((s.dev.x c ra + (BitVec.ofNat 12 imm).signExtend 64).toNat) 2 .store = none) ∧ (s.dev.poke c ((s.dev.x c ra + (BitVec.ofNat 12 imm).signExtend 64).toNat) 2 ((s.dev.x c rd).toNat % 256 ^ 2) false = some e1) ∧ (e1.coreRuns c = true) :=
  ⟨W.sec, 32, 0, 1, 0, 64, (W.sec.dev.poke 32 64 2 0 false).getD W.sec.dev, (by decide), (by decide), (by decide), (by rfl), (by decide)⟩
theorem wit_StoreCompletes_2 : ∃ (s : State) (c g rd ra imm : Nat) (e1 : Dev), (s.live) ∧ (s.dev.executes c g) ∧ (s.dev.accTrap c ((s.dev.x c ra + (BitVec.ofNat 12 imm).signExtend 64).toNat) 4 .store = none) ∧ (s.dev.poke c ((s.dev.x c ra + (BitVec.ofNat 12 imm).signExtend 64).toNat) 4 ((s.dev.x c rd).toNat % 256 ^ 4) false = some e1) ∧ (e1.coreRuns c = true) :=
  ⟨W.sec, 32, 0, 1, 0, 64, (W.sec.dev.poke 32 64 4 0 false).getD W.sec.dev, (by decide), (by decide), (by decide), (by rfl), (by decide)⟩
theorem wit_StoreCompletes_3 : ∃ (s : State) (c g rd ra imm : Nat) (e1 : Dev), (s.live) ∧ (s.dev.executes c g) ∧ (s.dev.accTrap c ((s.dev.x c ra + (BitVec.ofNat 12 imm).signExtend 64).toNat) 8 .store = none) ∧ (s.dev.poke c ((s.dev.x c ra + (BitVec.ofNat 12 imm).signExtend 64).toNat) 8 ((s.dev.x c rd).toNat % 256 ^ 8) false = some e1) ∧ (e1.coreRuns c = true) :=
  ⟨W.sec, 32, 0, 1, 0, 64, (W.sec.dev.poke 32 64 8 0 false).getD W.sec.dev, (by decide), (by decide), (by decide), (by rfl), (by decide)⟩
theorem wit_LoadStoreAgree_0_0 : ∃ (d : Dev) (c a : Nat), ((d.mapAt c a).isMem = true) :=
  ⟨W.sec.dev, 32, 0x7FFFF, (by decide)⟩
theorem wit_LoadStoreAgree_1_0 : ∃ (d : Dev) (c a : Nat), ((d.mapAt c a).isMem = true) :=
  ⟨W.sec.dev, 32, 0, (by decide)⟩
theorem wit_CasCompletes_0 : ∃ (s : State) (c g rd ra rb : Nat) (e1 : Dev), (s.live) ∧ (s.dev.executes c g) ∧ (s.dev.accTrap c ((s.dev.x c ra).toNat) 8 .atomic = none) ∧ ((s.dev.peek c ((s.dev.x c ra).toNat) 8).poison = false) ∧ (s.dev.x c rd = (BitVec.ofNat 64 (s.dev.peek c ((s.dev.x c ra).toNat) 8).val)) ∧ (s.dev.poke c ((s.dev.x c ra).toNat) 8 (s.dev.x c rb).toNat false = some e1) :=
  ⟨W.sec, 32, 0, 1, 0, 2, (W.sec.dev.poke 32 0 8 0 false).getD W.sec.dev, (by decide), (by decide), (by decide), (by decide), (by decide), (by rfl)⟩
theorem wit_CasCompletes_1 : ∃ (s : State) (c g rd ra rb : Nat), (s.live) ∧ (s.dev.executes c g) ∧ (s.dev.accTrap c ((s.dev.x c ra).toNat) 8 .atomic = none) ∧ ((s.dev.peek c ((s.dev.x c ra).toNat) 8).poison = false) ∧ (s.dev.x c rd ≠ (BitVec.ofNat 64 (s.dev.peek c ((s.dev.x c ra).toNat) 8).val)) :=
  ⟨W.secBad, 32, 0, 1, 0, 2, (by decide), (by decide), (by decide), (by decide), (by decide)⟩
theorem wit_FlowAndSystemComplete_0 : ∃ (s : State) (c g cond disp : Nat), (s.live) ∧ (s.dev.executes c g) ∧ (cond < 15) :=
  ⟨W.sec, 32, 0, 14, 5, (by decide), (by decide), (by decide)⟩
theorem wit_FlowAndSystemComplete_1 : ∃ (s : State) (c g disp : Nat), (s.live) ∧ (s.dev.executes c g) :=
  ⟨W.sec, 32, 0, 5, (by decide), (by decide)⟩
theorem wit_FlowAndSystemComplete_2 : ∃ (s : State) (c g disp : Nat), (s.live) ∧ (s.dev.executes c g) :=
  ⟨W.sec, 32, 0, 5, (by decide), (by decide)⟩
theorem wit_FlowAndSystemComplete_3 : ∃ (s : State) (c g ra : Nat), (s.live) ∧ (s.dev.executes c g) ∧ ((s.dev.x c ra).toNat % 4 = 0) :=
  ⟨W.sec, 32, 0, 5, (by decide), (by decide), (by decide)⟩
theorem wit_FlowAndSystemComplete_4 : ∃ (s : State) (c g ra : Nat), (s.live) ∧ (s.dev.executes c g) ∧ ((s.dev.x c ra).toNat % 4 = 0) :=
  ⟨W.sec, 32, 0, 31, (by decide), (by decide), (by decide)⟩
theorem wit_FlowAndSystemComplete_5 : ∃ (s : State) (c g : Nat), (s.live) ∧ (s.dev.executes c g) :=
  ⟨W.sec, 32, 0, (by decide), (by decide)⟩
theorem wit_FlowAndSystemComplete_6 : ∃ (s : State) (c g rd sr unused : Nat), (s.live) ∧ (s.dev.executes c g) ∧ (srExists sr = true) ∧ ((srIsS sr = true → (s.dev.cpu c).prv = true)) ∧ (sr ≠ 3) :=
  ⟨W.sec, 32, 0, 1, 15, 0, (by decide), (by decide), (by decide), (by decide), (by decide)⟩
theorem wit_FlowAndSystemComplete_7 : ∃ (s : State) (c g rd unused : Nat), (s.live) ∧ (s.dev.executes c g) :=
  ⟨W.sec, 32, 0, 1, 0, (by decide), (by decide)⟩
theorem wit_FlowAndSystemComplete_8 : ∃ (s : State) (c g sr ra unused : Nat), (s.live) ∧ (s.dev.executes c g) ∧ (srExists sr = true) ∧ ((srIsS sr = true → (s.dev.cpu c).prv = true)) :=
  ⟨W.sec, 32, 0, 15, 1, 0, (by decide), (by decide), (by decide), (by decide)⟩
theorem wit_FlowAndSystemComplete_9 : ∃ (s : State) (c g imm : Nat), (s.live) ∧ (s.dev.executes c g) ∧ (s.dev.atP c = none) :=
  ⟨W.sec, 32, 0, 7, (by decide), (by decide), (by decide)⟩
theorem wit_FlowAndSystemComplete_10 : ∃ (s : State) (c g imm : Nat), (s.live) ∧ (s.dev.executes c g) :=
  ⟨W.sec, 32, 0, 7, (by decide), (by decide)⟩
theorem wit_FlowAndSystemComplete_11 : ∃ (s : State) (c g : Nat), (s.live) ∧ (s.dev.executes c g) ∧ ((s.dev.retire c 1 (s.dev.cpu c)).linePending c = false) ∧ ((s.dev.retire c 1 (s.dev.cpu c)).atP c = none) :=
  ⟨W.sec, 32, 0, (by decide), (by decide), (by decide), (by decide)⟩
theorem wit_FlowAndSystemComplete_12 : ∃ (s : State) (c : Nat), (s.live) ∧ (s.dev.coreRuns c = true) ∧ ((s.dev.cpu c).halted = false) ∧ ((s.dev.cpu c).waiting = false) ∧ ((s.dev.cpu c).preemptDue = false) ∧ (s.dev.irqDue c = true) :=
  ⟨W.irq, 6, (by decide), (by decide), (by decide), (by decide), (by decide), (by decide)⟩
theorem wit_FlowAndSystemComplete_13 : ∃ (s : State) (c word : Nat), (s.live) ∧ (s.dev.executes c 0) ∧ (wordReserved word = true) :=
  ⟨W.sec, 32, 0xFFFFFFFF, (by decide), (by decide), (by decide)⟩
theorem wit_RteRestores_0 : ∃ (s : State) (c g unused : Nat), (s.live) ∧ (s.dev.executes c g) ∧ ((s.dev.cpu c).prv = true) :=
  ⟨W.sec, 32, 0, 0, (by decide), (by decide), (by decide)⟩
theorem wit_TrapEntry_0_0 : ∃ (d : Dev) (c cause acc : Nat), ((d.cpu c).prv = true ∨ cause = 0x10) ∧ (((d.cpu c).nest = false ∨ cause = 0x10)) ∧ (cause < 256) ∧ (acc < 4) :=
  ⟨W.sec.dev, 32, 0x10, 3, (by decide), (by decide), (by decide), (by decide)⟩
theorem wit_GuardsAndConditions_1 : ∃ (s : State) (c word : Nat), (s.live) ∧ (s.dev.executes c 0) ∧ (word / 2 ^ 28 % 16 = 15) :=
  ⟨W.sec, 32, 0xFFFFFFFF, (by decide), (by decide), (by decide)⟩
theorem wit_GuardsAndConditions_2 : ∃ (s : State) (c g disp : Nat), (s.live) ∧ (s.dev.executes c g) :=
  ⟨W.sec, 32, 0, 3, (by decide), (by decide)⟩
theorem wit_BlockAndRepComplete_0 : ∃ (s : State) (c g : Nat) (e1 : Dev), (s.live) ∧ (s.dev.executes c g) ∧ (s.dev.blockStep c 0 = .next e1) ∧ (e1.coreRuns c = true) :=
  ⟨W.sec, 32, 0, (match W.sec.dev.blockStep 32 0 with | .next e => e | _ => W.sec.dev), (by decide), (by decide), (by rfl), (by decide)⟩
theorem wit_BlockAndRepComplete_1 : ∃ (s : State) (c g : Nat) (e1 : Dev), (s.live) ∧ (s.dev.executes c g) ∧ (s.dev.blockStep c 1 = .next e1) ∧ (e1.coreRuns c = true) :=
  ⟨W.sec, 32, 0, (match W.sec.dev.blockStep 32 1 with | .next e => e | _ => W.sec.dev), (by decide), (by decide), (by rfl), (by decide)⟩
theorem wit_BlockAndRepComplete_2 : ∃ (s : State) (c g : Nat) (e1 : Dev), (s.live) ∧ (s.dev.executes c g) ∧ (s.dev.blockStep c 2 = .next e1) ∧ (e1.coreRuns c = true) :=
  ⟨W.sec, 32, 0, (match W.sec.dev.blockStep 32 2 with | .next e => e | _ => W.sec.dev), (by decide), (by decide), (by rfl), (by decide)⟩
theorem wit_BlockAndRepComplete_3 : ∃ (s : State) (c g : Nat) (e1 : Dev), (s.live) ∧ (s.dev.executes c g) ∧ (s.dev.blockStep c 3 = .next e1) ∧ (e1.coreRuns c = true) :=
  ⟨W.sec, 32, 0, (match W.sec.dev.blockStep 32 3 with | .next e => e | _ => W.sec.dev), (by decide), (by decide), (by rfl), (by decide)⟩
theorem wit_BlockAndRepComplete_4 : ∃ (s : State) (c g : Nat) (e1 : Dev), (s.live) ∧ (s.dev.executes c g) ∧ (s.dev.blockStep c 4 = .next e1) ∧ (e1.coreRuns c = true) :=
  ⟨W.sec, 32, 0, (match W.sec.dev.blockStep 32 4 with | .next e => e | _ => W.sec.dev), (by decide), (by decide), (by rfl), (by decide)⟩
theorem wit_BlockAndRepComplete_5 : ∃ (s : State) (c g : Nat) (e1 : Dev), (s.live) ∧ (s.dev.executes c g) ∧ (s.dev.blockStep c 5 = .next e1) ∧ (e1.coreRuns c = true) :=
  ⟨W.sec, 32, 0, (match W.sec.dev.blockStep 32 5 with | .next e => e | _ => W.sec.dev), (by decide), (by decide), (by rfl), (by decide)⟩
theorem wit_BlockAndRepComplete_6 : ∃ (s : State) (c g : Nat) (e1 : Dev), (s.live) ∧ (s.dev.executes c g) ∧ (s.dev.blockStep c 6 = .next e1) ∧ (e1.coreRuns c = true) :=
  ⟨W.sec, 32, 0, (match W.sec.dev.blockStep 32 6 with | .next e => e | _ => W.sec.dev), (by decide), (by decide), (by rfl), (by decide)⟩
theorem wit_BlockAndRepComplete_7 : ∃ (s : State) (c g : Nat) (e1 : Dev), (s.live) ∧ (s.dev.executes c g) ∧ (s.dev.blockStep c 7 = .next e1) ∧ (e1.coreRuns c = true) :=
  ⟨W.sec, 32, 0, (match W.sec.dev.blockStep 32 7 with | .next e => e | _ => W.sec.dev), (by decide), (by decide), (by rfl), (by decide)⟩
theorem wit_BlockAndRepComplete_8 : ∃ (s : State) (c mode next upto : Nat), (s.live) ∧ (s.dev.executes c 0) ∧ (mode < 3) ∧ (s.dev.fetchTrap c (((s.dev.cpu c).pc.toNat + 4) % 2 ^ 64) = none) ∧ (repAccepts mode next = true) :=
  ⟨W.sec, 32, 2, 0x0F400004, 3, (by decide), (by decide), (by decide), (by decide), (by decide)⟩
theorem wit_BlockAndRepComplete_9 : ∃ (s : State) (c g mode next upto : Nat), (s.live) ∧ (s.dev.executes c g) ∧ (mode < 3) ∧ (s.dev.fetchTrap c (((s.dev.cpu c).pc.toNat + 4) % 2 ^ 64) = none) ∧ (repAccepts mode next = false) :=
  ⟨W.sec, 32, 0, 1, 0x0F400000, 3, (by decide), (by decide), (by decide), (by decide), (by decide)⟩
theorem wit_BlockSteps_0_0 : ∃ (fn : Nat), (fn < 8) :=
  ⟨7, (by decide)⟩
theorem wit_VzWordsDecode_0_0 : ∃ (g rd ra rb : Nat), (g < 15) ∧ (rd < 32) ∧ (ra < 32) ∧ (rb < 32) :=
  ⟨14, 31, 31, 31, (by decide), (by decide), (by decide), (by decide)⟩
theorem wit_VzWordsDecode_1_0 : ∃ (g rd ra : Nat), (g < 15) ∧ (rd < 32) ∧ (ra < 32) :=
  ⟨14, 31, 31, (by decide), (by decide), (by decide)⟩
theorem wit_VzWordsDecode_2_0 : ∃ (g rd ra rb : Nat), (g < 15) ∧ (rd < 32) ∧ (ra < 32) ∧ (rb < 32) :=
  ⟨14, 31, 31, 31, (by decide), (by decide), (by decide), (by decide)⟩
theorem wit_VzWordsDecode_3_0 : ∃ (g rd ra imm : Nat), (g < 15) ∧ (rd < 32) ∧ (ra < 32) ∧ (imm < 2 ^ 12) :=
  ⟨14, 31, 31, 4095, (by decide), (by decide), (by decide), (by decide)⟩
theorem wit_VzWordsDecode_4_0 : ∃ (g rd ra imm : Nat), (g < 15) ∧ (rd < 32) ∧ (ra < 32) ∧ (imm < 2 ^ 8) :=
  ⟨14, 31, 31, 255, (by decide), (by decide), (by decide), (by decide)⟩
theorem wit_VzWordsDecode_5_0 : ∃ (g rd imm : Nat), (g < 15) ∧ (rd < 32) ∧ (imm < 2 ^ 16) :=
  ⟨14, 31, 65535, (by decide), (by decide), (by decide)⟩
theorem wit_VzWordsDecode_6_0 : ∃ (g rd imm : Nat), (g < 15) ∧ (rd < 32) ∧ (imm < 2 ^ 17) :=
  ⟨14, 31, 131071, (by decide), (by decide), (by decide)⟩
theorem wit_VzWordsDecode_7_0 : ∃ (g cond disp : Nat), (g < 15) ∧ (cond < 15) ∧ (disp < 2 ^ 18) :=
  ⟨14, 14, 262143, (by decide), (by decide), (by decide)⟩
theorem wit_VzWordsDecode_8_0 : ∃ (g disp : Nat), (g < 15) ∧ (disp < 2 ^ 22) :=
  ⟨14, 4194303, (by decide), (by decide)⟩
theorem wit_VzWordsDecode_9_0 : ∃ (g ra : Nat), (g < 15) ∧ (ra < 32) :=
  ⟨14, 31, (by decide), (by decide)⟩
theorem wit_VzWordsDecode_10_0 : ∃ (g rd sr : Nat), (g < 15) ∧ (rd < 32) ∧ (srExists sr = true) :=
  ⟨14, 31, 15, (by decide), (by decide), (by decide)⟩
theorem wit_VzWordsDecode_11_0 : ∃ (g : Nat), (g < 15) :=
  ⟨14, (by decide)⟩
theorem wit_VzWordsDecode_12_0 : ∃ (g imm : Nat), (g < 15) ∧ (imm < 2 ^ 16) :=
  ⟨14, 65535, (by decide), (by decide)⟩
theorem wit_VzWordsDecode_13_0 : ∃ (g mode : Nat), (g < 15) ∧ (mode < 3) :=
  ⟨14, 2, (by decide), (by decide)⟩
theorem wit_TapCompletes_0 : ∃ (s : State), (s.dev.pins.supply = true) :=
  ⟨W.st id, (by decide)⟩
theorem wit_TapCompletes_1 : ∃ (s : State), (s.dev.pins.supply = true) :=
  ⟨W.st id, (by decide)⟩
theorem wit_TapCompletes_2 : ∃ (s : State), (s.dev.pins.supply = true) :=
  ⟨W.st id, (by decide)⟩
theorem wit_TapCompletes_3 : ∃ (s : State), (s.dev.pins.supply = true) :=
  ⟨W.st id, (by decide)⟩
theorem wit_TapCompletes_4 : ∃ (s : State) (drive pins : Nat), (s.dev.pins.supply = true) ∧ (s.dev.pins.resetN = false) :=
  ⟨W.st id, 5, 3, (by decide), (by decide)⟩
theorem wit_TapCompletes_5 : ∃ (s : State) (preload pins : Nat), (s.dev.pins.supply = true) :=
  ⟨W.st id, 5, 3, (by decide)⟩
theorem wit_TapCompletes_6 : ∃ (s : State), (s.dev.pins.supply = true) ∧ (s.dev.pins.resetN = false) :=
  ⟨W.st id, (by decide), (by decide)⟩
theorem wit_TapCompletes_7 : ∃ (s : State), (s.dev.pins.supply = true) ∧ (s.dev.pins.resetN = false) :=
  ⟨W.st id, (by decide), (by decide)⟩
theorem wit_TapCompletes_8 : ∃ (s : State), (s.dev.pins.supply = true) ∧ (s.dev.flag F.HALW_SCRUB_DONE = true) ∧ (s.dev.f F.TOP_MODE_MODE = 0xB) :=
  ⟨W.st (fun d => (d.setF F.HALW_SCRUB_DONE 1).setF F.TOP_MODE_MODE 0xB), (by decide), (by decide), (by decide)⟩
theorem wit_TapCompletes_9 : ∃ (s : State), (s.live) ∧ (s.dev.pins.supply = true) ∧ (s.dev.right 2 = true) ∧ ((s.dev.tapSelect .dbg).test.dbgActive = false) :=
  ⟨W.st (fun d => d.setF F.HALW_DEBUG_RIGHTS 15), (by decide), (by decide), (by decide), (by decide)⟩
theorem wit_TapCompletes_10 : ∃ (s : State), (s.live) ∧ (s.dev.pins.supply = true) ∧ (s.dev.right 2 = true) ∧ ((s.dev.tapSelect .dbg).test.dbgActive = true) :=
  ⟨W.st (fun d => { d.setF F.HALW_DEBUG_RIGHTS 15 with test := { d.test with dbgActive := true } }), (by decide), (by decide), (by decide), (by decide)⟩
theorem wit_TapCompletes_11 : ∃ (s : State), (s.live) ∧ (s.dev.pins.supply = true) ∧ (s.dev.right 2 = false) :=
  ⟨W.st id, (by decide), (by decide), (by decide)⟩
theorem wit_TapCompletes_12 : ∃ (s : State) (drive pins : Nat), (s.dev.pins.supply = true) ∧ (s.dev.pins.resetN = true) :=
  ⟨W.st W.up, 5, 3, (by decide), (by decide)⟩
theorem wit_TapCompletes_13 : ∃ (s : State), (s.dev.pins.supply = true) ∧ (s.dev.pins.resetN = true) :=
  ⟨W.st W.up, (by decide), (by decide)⟩
theorem wit_TapCompletes_14 : ∃ (s : State), (s.dev.pins.supply = true) ∧ (s.dev.pins.resetN = true) :=
  ⟨W.st W.up, (by decide), (by decide)⟩
theorem wit_TapCompletes_15 : ∃ (s : State), (s.dev.pins.supply = true) ∧ (s.dev.flag F.HALW_SCRUB_DONE = false ∨ s.dev.f F.TOP_MODE_MODE ≠ 0xB) :=
  ⟨W.st W.up, (by decide), (by decide)⟩
theorem wit_DebugCompletes_0 : ∃ (s : State) (c : Nat), (s.live) ∧ (s.dev.dbgOn c = true) :=
  ⟨W.st (fun d => ({ W.up d with test := { d.test with dbgActive := true } }.setF F.HALW_DEBUG_RIGHTS 15).setCpu 6 { d.cpu 6 with halted := true }), 6, (by decide), (by decide)⟩
theorem wit_DebugCompletes_1 : ∃ (s : State) (c : Nat), (s.live) ∧ (s.dev.dbgOn c = true) ∧ ((s.dev.cpu c).halted = true) :=
  ⟨W.st (fun d => ({ W.up d with test := { d.test with dbgActive := true } }.setF F.HALW_DEBUG_RIGHTS 15).setCpu 6 { d.cpu 6 with halted := true }), 6, (by decide), (by decide), (by decide)⟩
theorem wit_DebugCompletes_2 : ∃ (s : State) (c upto : Nat) (m : Dev → Dev), (s.live) ∧ (s.dev.dbgOn c = true) ∧ ((s.dev.cpu c).halted = true) ∧ (wordMeaning c (s.dev.wordAt c (s.dev.cpu c).pc.toNat) (s.dev.wordAt c (((s.dev.cpu c).pc.toNat + 4) % 2 ^ 64)) upto = some m) :=
  ⟨W.st (fun d => ({ W.up d with test := { d.test with dbgActive := true } }.setF F.HALW_DEBUG_RIGHTS 15).setCpu 6 { d.cpu 6 with halted := true }), 6, 3, vzAdd 6 0 0 0 0 false, (by decide), (by decide), (by decide), (by rfl)⟩
theorem wit_DebugCompletes_3 : ∃ (s : State) (c upto : Nat), (s.live) ∧ (s.dev.dbgOn c = true) ∧ ((s.dev.cpu c).halted = true) ∧ (wordMeaning c (s.dev.wordAt c (s.dev.cpu c).pc.toNat) (s.dev.wordAt c (((s.dev.cpu c).pc.toNat + 4) % 2 ^ 64)) upto = none) :=
  ⟨W.st (fun d => (({ W.up d with test := { d.test with dbgActive := true } }.setF F.HALW_DEBUG_RIGHTS 15).setCpu 6 { d.cpu 6 with halted := true, pc := 0x1000#64, tcm := (d.cpu 6).tcm.setBytes 0x1000 [0#8, 0#8, 0#8, 0xFE#8] })), 6, 3, (by decide), (by decide), (by decide), (by rfl)⟩
theorem wit_DebugCompletes_4 : ∃ (s : State) (c i value : Nat), (s.live) ∧ (s.dev.dbgOn c = true) ∧ ((s.dev.cpu c).halted = true) :=
  ⟨W.st (fun d => ({ W.up d with test := { d.test with dbgActive := true } }.setF F.HALW_DEBUG_RIGHTS 15).setCpu 6 { d.cpu 6 with halted := true }), 6, 31, 7, (by decide), (by decide), (by decide)⟩
theorem wit_DebugCompletes_5 : ∃ (s : State) (c i value : Nat), (s.live) ∧ (s.dev.dbgOn c = true) ∧ ((s.dev.cpu c).halted = true) :=
  ⟨W.st (fun d => ({ W.up d with test := { d.test with dbgActive := true } }.setF F.HALW_DEBUG_RIGHTS 15).setCpu 6 { d.cpu 6 with halted := true }), 6, 31, 7, (by decide), (by decide), (by decide)⟩
theorem wit_DebugCompletes_6 : ∃ (s : State) (c i value : Nat), (s.live) ∧ (s.dev.dbgOn c = true) ∧ ((s.dev.cpu c).halted = true) ∧ (srExists i = true) :=
  ⟨W.st (fun d => ({ W.up d with test := { d.test with dbgActive := true } }.setF F.HALW_DEBUG_RIGHTS 15).setCpu 6 { d.cpu 6 with halted := true }), 6, 15, 7, (by decide), (by decide), (by decide), (by decide)⟩
theorem wit_DebugCompletes_7 : ∃ (s : State) (c i value : Nat), (s.live) ∧ (s.dev.dbgOn c = true) ∧ ((s.dev.cpu c).halted = true) ∧ (srExists i = true) ∧ (i ≠ 3) :=
  ⟨W.st (fun d => ({ W.up d with test := { d.test with dbgActive := true } }.setF F.HALW_DEBUG_RIGHTS 15).setCpu 6 { d.cpu 6 with halted := true }), 6, 15, 7, (by decide), (by decide), (by decide), (by decide), (by decide)⟩
theorem wit_DebugCompletes_8 : ∃ (s : State) (c value : Nat), (s.live) ∧ (s.dev.dbgOn c = true) ∧ ((s.dev.cpu c).halted = true) :=
  ⟨W.st (fun d => ({ W.up d with test := { d.test with dbgActive := true } }.setF F.HALW_DEBUG_RIGHTS 15).setCpu 6 { d.cpu 6 with halted := true }), 6, 7, (by decide), (by decide), (by decide)⟩
theorem wit_DebugCompletes_9 : ∃ (s : State) (c a n value : Nat), (s.live) ∧ (s.dev.dbgOn c = true) ∧ ((s.dev.cpu c).halted = true) ∧ (n = 1 ∨ n = 2 ∨ n = 4 ∨ n = 8) ∧ ((s.dev.setCpu c { s.dev.cpu c with pstat := (s.dev.cpu c).pstat ||| 1#64 }).accTrap c a n .load = none) ∧ ((s.dev.peek c a n).poison = false) :=
  ⟨W.st (fun d => (({ W.up d with test := { d.test with dbgActive := true } }.setF F.HALW_DEBUG_RIGHTS 15).setCpu 6 { d.cpu 6 with halted := true }).setRgn 6 0 true 0 0 false false false), 6, 0, 8, 0, (by decide), (by decide), (by decide), (by decide), (by decide), (by decide)⟩
theorem wit_DebugCompletes_10 : ∃ (s : State) (c a n value : Nat), (s.live) ∧ (s.dev.dbgOn c = true) ∧ ((s.dev.cpu c).halted = true) ∧ (n = 1 ∨ n = 2 ∨ n = 4 ∨ n = 8) ∧ ((s.dev.setCpu c { s.dev.cpu c with pstat := (s.dev.cpu c).pstat ||| 1#64 }).accTrap c a n .store = none) ∧ ((s.dev.poke c a n (value % 256 ^ n) false).isSome = true) :=
  ⟨W.st (fun d => (({ W.up d with test := { d.test with dbgActive := true } }.setF F.HALW_DEBUG_RIGHTS 15).setCpu 6 { d.cpu 6 with halted := true }).setRgn 6 0 true 0 0 false false false), 6, 0, 8, 9, (by decide), (by decide), (by decide), (by decide), (by decide), (by decide)⟩
theorem wit_DebugCompletes_11 : ∃ (s : State) (b : Nat), (s.live) ∧ (s.dev.right 3 = false) :=
  ⟨W.st W.up, 255, (by decide), (by decide)⟩
theorem wit_DebugCompletes_12 : ∃ (s : State) (b : Nat), (s.live) ∧ (s.dev.right 3 = true) :=
  ⟨W.st (fun d => ({ W.up d with test := { d.test with dbgActive := true } }.setF F.HALW_DEBUG_RIGHTS 15).setCpu 6 { d.cpu 6 with halted := true }), 255, (by decide), (by decide)⟩
theorem wit_EventsAndCountersComplete_0 : ∃ (s : State) (value : Nat), (s.live) ∧ (s.dev.ef F.EVT_HOST_ACK_SEQ_SEQ < value) ∧ (value ≤ s.dev.jhead) ∧ (¬((s.dev.setAck value).ef F.EVT_JSTAT_UNACK < (s.dev.setAck value).ef F.EVT_JCFG_HOSTWM)) :=
  ⟨W.st (fun d => (d.setEf F.EVT_JHEAD_SEQ 5).setEf F.EVT_JCFG_HOSTWM 0), 2, (by decide), (by decide), (by decide), (by decide)⟩
theorem wit_EventsAndCountersComplete_1 : ∃ (s : State) (value : Nat), (s.live) ∧ (s.dev.ef F.EVT_HOST_ACK_SEQ_SEQ < value) ∧ (value ≤ s.dev.jhead) ∧ ((s.dev.setAck value).ef F.EVT_JSTAT_UNACK < (s.dev.setAck value).ef F.EVT_JCFG_HOSTWM) :=
  ⟨W.st (fun d => (d.setEf F.EVT_JHEAD_SEQ 5).setEf F.EVT_JCFG_HOSTWM 9), 2, (by decide), (by decide), (by decide), (by decide)⟩
theorem wit_EventsAndCountersComplete_2 : ∃ (s : State) (value : Nat), (s.live) ∧ (value ≤ s.dev.ef F.EVT_HOST_ACK_SEQ_SEQ ∨ s.dev.jhead < value) :=
  ⟨W.st id, 2, (by decide), (by decide)⟩
theorem wit_EventsAndCountersComplete_3 : ∃ (s : State) (value : Nat), (s.live) :=
  ⟨W.st id, 7, (by decide)⟩
theorem wit_EventsAndCountersComplete_4 : ∃ (s : State) (n value : Nat), (s.live) ∧ (n < 512) ∧ (s.dev.routeOk value = true) :=
  ⟨W.st id, 511, 0, (by decide), (by decide), (by decide)⟩
theorem wit_EventsAndCountersComplete_5 : ∃ (s : State) (n value : Nat), (s.live) ∧ (512 ≤ n ∨ s.dev.routeOk value = false) :=
  ⟨W.st id, 512, 0, (by decide), (by decide)⟩
theorem wit_EventsAndCountersComplete_6 : ∃ (s : State) (on : Bool), (s.live) :=
  ⟨W.st id, true, (by decide)⟩
theorem wit_EventsAndCountersComplete_7 : ∃ (s : State) (on : Bool), (s.live) :=
  ⟨W.st id, true, (by decide)⟩
theorem wit_EventsAndCountersComplete_8 : ∃ (s : State), (s.live) :=
  ⟨W.st id, (by decide)⟩
theorem wit_EventsAndCountersComplete_9 : ∃ (s : State) (i value inc : Nat), (s.live) ∧ (s.dev.pmuHas i = true) ∧ ((s.dev.setEf (F.PMU_CNT_COUNT i) (value % 2 ^ 48)).pmuOn i = false) :=
  ⟨W.st id, 31, 5, 0, (by decide), (by decide), (by decide)⟩
theorem wit_EventsAndCountersComplete_10 : ∃ (s : State) (i value inc : Nat), (s.live) ∧ (s.dev.pmuHas i = true) ∧ ((s.dev.setEf (F.PMU_CNT_COUNT i) (value % 2 ^ 48)).pmuOn i = true) :=
  ⟨W.st (fun d => (d.setEf F.PMU_CTL_RUN 1).setEf (F.PMU_SEL_EN 0) 1), 0, 5, 1, (by decide), (by decide), (by decide)⟩
theorem wit_EventsAndCountersComplete_11 : ∃ (s : State) (i value inc : Nat), (s.live) ∧ (s.dev.pmuHas i = false) :=
  ⟨W.st id, 48, 5, 1, (by decide), (by decide)⟩
theorem wit_EventsAndCountersComplete_12 : ∃ (s : State) (i n : Nat), (s.live) ∧ (s.dev.pmuHas i = true) ∧ (s.dev.pmuOn i = true) ∧ (2 ^ 48 ≤ s.dev.ef (F.PMU_CNT_COUNT i) + n) ∧ (((s.dev.setEf (F.PMU_CNT_COUNT i) ((s.dev.ef (F.PMU_CNT_COUNT i) + n) % 2 ^ 48)).setEf (F.PMU_OVF_OVF (i / 32)) (setBit ((s.dev.setEf (F.PMU_CNT_COUNT i) ((s.dev.ef (F.PMU_CNT_COUNT i) + n) % 2 ^ 48)).ef (F.PMU_OVF_OVF (i / 32))) (i % 32) true)).ef (F.PMU_SEL_OVFEV i) ≠ 1) :=
  ⟨W.st (fun d => (d.setEf F.PMU_CTL_RUN 1).setEf (F.PMU_SEL_EN 0) 1), 0, 2 ^ 48, (by decide), (by decide), (by decide), (by decide), (by decide)⟩
theorem wit_EventsAndCountersComplete_13 : ∃ (s : State) (i n : Nat), (s.live) ∧ (s.dev.pmuHas i = true) ∧ (s.dev.pmuOn i = true) ∧ (2 ^ 48 ≤ s.dev.ef (F.PMU_CNT_COUNT i) + n) :=
  ⟨W.st (fun d => ((d.setEf F.PMU_CTL_RUN 1).setEf (F.PMU_SEL_EN 0) 1).setEf (F.PMU_SEL_OVFEV 0) 1), 0, 2 ^ 48, (by decide), (by decide), (by decide), (by decide)⟩
theorem wit_EventsAndCountersComplete_14 : ∃ (s : State) (i value : Nat), (s.live) ∧ (i < 16) ∧ (s.dev.flag (F.FINJ_INJ_EN i) = true) ∧ (bit value 0 = false) :=
  ⟨W.st (fun d => d.setF (F.FINJ_INJ_EN 15) 1), 15, 0, (by decide), (by decide), (by decide), (by decide)⟩
theorem wit_EventsAndCountersComplete_15 : ∃ (s : State) (i value : Nat), (s.live) ∧ (i < 16) ∧ (s.dev.flag (F.FINJ_INJ_EN i) = false) ∧ (bit value 0 = true) ∧ (s.dev.finjOk = true) ∧ (¬(7 ≤ bits value 2 4)) ∧ (s.dev.flag F.FINJ_CTL_ANY = true) :=
  ⟨W.st (fun d => (((W.up d).setF F.FINJ_CTL_ANY 1).setF F.HALW_LCS_STATE 1).setF F.TOP_MODE_MODE 0xB), 0, 1, (by decide), (by decide), (by decide), (by decide), (by decide), (by decide), (by decide)⟩
theorem wit_EventsAndCountersComplete_16 : ∃ (s : State) (i value : Nat), (s.live) ∧ (i < 16) ∧ (s.dev.flag (F.FINJ_INJ_EN i) = false) ∧ (bit value 0 = true) ∧ (s.dev.finjOk = false) :=
  ⟨W.st id, 0, 1, (by decide), (by decide), (by decide), (by decide), (by decide)⟩
theorem wit_EventsAndCountersComplete_17 : ∃ (s : State) (i value : Nat), (s.live) ∧ (i < 16) ∧ (s.dev.flag (F.FINJ_INJ_EN i) = false) ∧ (bit value 0 = true) ∧ (s.dev.finjOk = true) ∧ (¬(7 ≤ bits value 2 4)) ∧ (s.dev.flag F.FINJ_CTL_ANY = false) :=
  ⟨W.st (fun d => ((W.up d).setF F.HALW_LCS_STATE 1).setF F.TOP_MODE_MODE 0xB), 0, 1, (by decide), (by decide), (by decide), (by decide), (by decide), (by decide), (by decide)⟩
theorem wit_EventsAndCountersComplete_18 : ∃ (s : State) (i value : Nat), (s.live) ∧ (i < 16) ∧ (s.dev.flag (F.FINJ_INJ_EN i) = false) ∧ (bit value 0 = false) :=
  ⟨W.st id, 0, 4, (by decide), (by decide), (by decide), (by decide)⟩
theorem wit_EventsAndCountersComplete_19 : ∃ (s : State) (i value : Nat), (s.live) ∧ (i < 16) ∧ (s.dev.flag (F.FINJ_INJ_EN i) = true) ∧ (bit value 0 = true) :=
  ⟨W.st (fun d => d.setF (F.FINJ_INJ_EN 15) 1), 15, 1, (by decide), (by decide), (by decide), (by decide)⟩
theorem wit_EventsAndCountersComplete_20 : ∃ (s : State) (i value : Nat), (s.live) ∧ (i < 16) ∧ (s.dev.flag (F.FINJ_INJ_EN i) = false) ∧ (bit value 0 = true) ∧ (s.dev.finjOk = true) ∧ (7 ≤ bits value 2 4) :=
  ⟨W.st (fun d => ((W.up d).setF F.HALW_LCS_STATE 1).setF F.TOP_MODE_MODE 0xB), 0, 0x1D, (by decide), (by decide), (by decide), (by decide), (by decide), (by decide)⟩
theorem wit_ControlSpaceCompletes_0 : ∃ (s : State) (by_ : Requester) (addr value : Nat) (wide : Bool) (r : Reg), (s.live) ∧ ((∀ n, by_ ≠ .tenant n)) ∧ (addr < 2 ^ 32) ∧ (s.dev.target (whoOf by_) addr (if wide then 8 else 4) true = .whole r) ∧ (ownWrite r = false) :=
  ⟨W.st W.up, .manager, (Reg.PMU_SEL 3).addr, 5, false, .PMU_SEL 3, (by decide), (by intro n h; cases h), (by decide), (by decide), (by decide)⟩
theorem wit_ControlSpaceCompletes_1 : ∃ (s : State) (by_ : Requester) (addr value : Nat) (wide : Bool) (r : Reg), (s.live) ∧ ((∀ n, by_ ≠ .tenant n)) ∧ (addr < 2 ^ 32) ∧ (s.dev.target (whoOf by_) addr (if wide then 8 else 4) true = .whole r) :=
  ⟨W.st W.up, .security, (Reg.TREL_RSUB 0 0).addr, 5, false, .TREL_RSUB 0 0, (by decide), (by intro n h; cases h), (by decide), (by decide)⟩
theorem wit_ControlSpaceCompletes_2 : ∃ (s : State) (by_ : Requester) (addr value : Nat) (wide : Bool), (s.live) ∧ (2 ^ 32 ≤ addr) :=
  ⟨W.st W.up, .tenant 1, 2 ^ 32, 5, false, (by decide), (by decide)⟩
theorem wit_ControlSpaceCompletes_3 : ∃ (s : State) (by_ : Requester) (addr size : Nat), (s.live) ∧ ((∀ n, by_ ≠ .tenant n)) ∧ (addr < 2 ^ 32) ∧ (s.dev.target (whoOf by_) addr size true = .bad) ∧ (s.dev.ef F.EVT_BADINFO_VALID ≠ 1) :=
  ⟨W.st W.up, .manager, 1, 4, (by decide), (by intro n h; cases h), (by decide), (by decide), (by decide)⟩
theorem wit_ControlSpaceCompletes_4 : ∃ (s : State) (by_ : Requester) (addr size : Nat), (s.live) ∧ ((∀ n, by_ ≠ .tenant n)) ∧ (addr < 2 ^ 32) ∧ (s.dev.target (whoOf by_) addr size true = .bad) ∧ (s.dev.ef F.EVT_BADINFO_VALID = 1) :=
  ⟨W.st (fun d => (W.up d).setEf F.EVT_BADINFO_VALID 1), .manager, 1, 4, (by decide), (by intro n h; cases h), (by decide), (by decide), (by decide)⟩
theorem wit_ControlSpaceCompletes_5 : ∃ (s : State) (by_ : Requester) (addr size : Nat), (s.live) ∧ ((∀ n, by_ ≠ .tenant n)) ∧ (addr < 2 ^ 32) ∧ (s.dev.target (whoOf by_) addr size false = .bad) ∧ (s.dev.ef F.EVT_BADINFO_VALID ≠ 1) :=
  ⟨W.st W.up, .core 3, 1, 4, (by decide), (by intro n h; cases h), (by decide), (by decide), (by decide)⟩
theorem wit_ControlSpaceCompletes_6 : ∃ (s : State) (by_ : Requester) (addr size : Nat), (s.live) ∧ ((∀ n, by_ ≠ .tenant n)) ∧ (addr < 2 ^ 32) ∧ (s.dev.target (whoOf by_) addr size false = .bad) ∧ (s.dev.ef F.EVT_BADINFO_VALID = 1) :=
  ⟨W.st (fun d => (W.up d).setEf F.EVT_BADINFO_VALID 1), .manager, 1, 4, (by decide), (by intro n h; cases h), (by decide), (by decide), (by decide)⟩
theorem wit_ControlSpaceCompletes_7 : ∃ (s : State) (by_ : Requester) (addr size : Nat) (r : Reg), (s.live) ∧ ((∀ n, by_ ≠ .tenant n)) ∧ (addr < 2 ^ 32) ∧ (s.dev.target (whoOf by_) addr size false = .whole r) :=
  ⟨W.st W.up, .manager, (Reg.TOP_MODE).addr, 4, .TOP_MODE, (by decide), (by intro n h; cases h), (by decide), (by decide)⟩
theorem wit_ControlSpaceCompletes_8 : ∃ (s : State) (by_ : Requester) (addr : Nat) (r : Reg), (s.live) ∧ ((∀ n, by_ ≠ .tenant n)) ∧ (addr < 2 ^ 32) ∧ (s.dev.target (whoOf by_) addr 4 false = .low r) :=
  ⟨W.st W.up, .manager, (Reg.EVT_JHEAD).addr, .EVT_JHEAD, (by decide), (by intro n h; cases h), (by decide), (by decide)⟩
theorem wit_ControlSpaceCompletes_9 : ∃ (s : State) (by_ : Requester) (addr : Nat) (r : Reg) (v : Nat), (s.live) ∧ ((∀ n, by_ ≠ .tenant n)) ∧ (addr < 2 ^ 32) ∧ (s.dev.target (whoOf by_) addr 4 false = .high r) ∧ (s.dev.latched (whoOf by_) r.addr = some v) :=
  ⟨W.st (fun d => { W.up d with host := { d.host with readLatch := [((whoOf .manager).num, (Reg.EVT_JHEAD).addr, 9)] } }), .manager, (Reg.EVT_JHEAD).addr + 4, .EVT_JHEAD, 9, (by decide), (by intro n h; cases h), (by decide), (by decide), (by decide)⟩
theorem wit_ControlSpaceCompletes_10 : ∃ (s : State) (by_ : Requester) (addr : Nat) (r : Reg), (s.live) ∧ ((∀ n, by_ ≠ .tenant n)) ∧ (addr < 2 ^ 32) ∧ (s.dev.target (whoOf by_) addr 4 false = .high r) ∧ (s.dev.latched (whoOf by_) r.addr = none) :=
  ⟨W.st W.up, .manager, (Reg.EVT_JHEAD).addr + 4, .EVT_JHEAD, (by decide), (by intro n h; cases h), (by decide), (by decide), (by decide)⟩
theorem wit_ControlSpaceCompletes_11 : ∃ (s : State) (by_ : Requester) (addr value : Nat) (r : Reg), (s.live) ∧ ((∀ n, by_ ≠ .tenant n)) ∧ (addr < 2 ^ 32) ∧ (s.dev.target (whoOf by_) addr 4 true = .low r) :=
  ⟨W.st W.up, .manager, (Reg.EVT_HOST_ACK_SEQ).addr, 5, .EVT_HOST_ACK_SEQ, (by decide), (by intro n h; cases h), (by decide), (by decide)⟩
theorem wit_ControlSpaceCompletes_12 : ∃ (s : State) (by_ : Requester) (addr value : Nat) (r : Reg) (x : Nat × Nat × Nat), (s.live) ∧ ((∀ n, by_ ≠ .tenant n)) ∧ (addr < 2 ^ 32) ∧ (s.dev.target (whoOf by_) addr 4 true = .high r) ∧ (s.dev.host.writeHold.find? (fun y => y.1 == (whoOf by_).num && y.2.1 == r.addr) = some x) :=
  ⟨W.st (fun d => { W.up d with host := { d.host with writeHold := [((whoOf .manager).num, (Reg.EVT_HOST_ACK_SEQ).addr, 9)] } }), .manager, (Reg.EVT_HOST_ACK_SEQ).addr + 4, 1, .EVT_HOST_ACK_SEQ, ((whoOf .manager).num, (Reg.EVT_HOST_ACK_SEQ).addr, 9), (by decide), (by intro n h; cases h), (by decide), (by decide), (by decide)⟩
theorem wit_ControlSpaceCompletes_13 : ∃ (s : State) (by_ : Requester) (addr value : Nat) (r : Reg), (s.live) ∧ ((∀ n, by_ ≠ .tenant n)) ∧ (addr < 2 ^ 32) ∧ (s.dev.target (whoOf by_) addr 4 true = .high r) ∧ (s.dev.host.writeHold.find? (fun y => y.1 == (whoOf by_).num && y.2.1 == r.addr) = none) :=
  ⟨W.st W.up, .manager, (Reg.EVT_HOST_ACK_SEQ).addr + 4, 1, .EVT_HOST_ACK_SEQ, (by decide), (by intro n h; cases h), (by decide), (by decide), (by decide)⟩
theorem wit_ResetsComplete_0 : ∃ (s : State), (s.dev.pins.supply = false) :=
  ⟨W.st (fun d => { d with pins := { d.pins with supply := false } }), (by decide)⟩
theorem wit_ResetsComplete_1 : ∃ (s : State), (s.dev.pins.supply = true) ∧ (s.dev.pins.resetN = true) ∧ (¬(s.dev.mode.hold = .trip ∧ s.dev.anySensor 90 = true)) :=
  ⟨W.st W.up, (by decide), (by decide), (by decide)⟩
theorem wit_ResetsComplete_2 : ∃ (s : State), (s.dev.pins.supply = true) ∧ (s.dev.pins.resetN = true) ∧ (s.dev.mode.hold = .trip) ∧ (s.dev.anySensor 90 = true) :=
  ⟨W.st (fun d => { ((W.up d).setF (F.PWR_TEMP_VALID 0) 1).setF (F.PWR_TEMP_TEMP 0) 125 with mode := { d.mode with hold := .trip } }), (by decide), (by decide), (by decide), (by decide)⟩
theorem wit_ResetsComplete_3 : ∃ (s : State), (s.dev.pins.supply = true) ∧ (s.dev.pins.resetN = false) ∧ (({ s.dev with pins := { s.dev.pins with resetN := true, upMs := 0 } }).tapRelease.mode.hold ≠ .trip) :=
  ⟨W.st id, (by decide), (by decide), (by decide)⟩
theorem wit_ResetsComplete_4 : ∃ (s : State), (s.dev.pins.supply = true) ∧ (s.dev.pins.resetN = false) ∧ (({ s.dev with pins := { s.dev.pins with resetN := true, upMs := 0 } }).tapRelease.mode.hold = .trip) :=
  ⟨W.st (fun d => { d with mode := { d.mode with hold := .trip } }), (by decide), (by decide), (by decide)⟩
theorem wit_ResetsComplete_5 : ∃ (s : State) (key : Nat) (go : Bool), (s.live) ∧ (key = 0xC3A5) ∧ (go = true) ∧ (s.dev.canReset = true) :=
  ⟨W.st W.up, 0xC3A5, true, (by decide), (by decide), (by decide), (by decide)⟩
theorem wit_ResetsComplete_6 : ∃ (s : State) (key : Nat) (go : Bool), (s.live) ∧ (key ≠ 0xC3A5 ∨ go = false ∨ s.dev.canReset = false) :=
  ⟨W.st W.up, 0xC3A4, true, (by decide), (by decide)⟩
theorem wit_ResetsComplete_7 : ∃ (s : State) (p v : Nat), (s.live) ∧ (p = 0) ∧ (v = 0x4E564D65) ∧ (s.dev.canReset = true) :=
  ⟨W.st W.up, 0, 0x4E564D65, (by decide), (by decide), (by decide), (by decide)⟩
theorem wit_ResetsComplete_8 : ∃ (s : State) (p v : Nat), (s.live) ∧ (p ≠ 0 ∨ v ≠ 0x4E564D65 ∨ s.dev.canReset = false) :=
  ⟨W.st W.up, 1, 0x4E564D65, (by decide), (by decide)⟩
theorem wit_ResetsComplete_10 : ∃ (s : State), (s.dev.pins.supply = true) :=
  ⟨W.st W.up, (by decide)⟩
theorem wit_ResetsComplete_11 : ∃ (s : State), (s.dev.pins.supply = true) ∧ (s.dev.pins.resetN = true) ∧ (s.dev.mode.hold ≠ .trip) ∧ (s.dev.anySensor s.dev.tripTemp = true) ∧ (s.dev.f F.TOP_MODE_MODE = 0 ∨ s.dev.mode.hold = .pwrfail) :=
  ⟨W.st (fun d => ((W.run d).setF (F.PWR_TEMP_VALID 0) 1).setF (F.PWR_TEMP_TEMP 0) 125), (by decide), (by decide), (by decide), (by decide), (by decide)⟩
theorem wit_ResetsComplete_12 : ∃ (s : State), (s.dev.pins.supply = true) ∧ (s.dev.pins.resetN = true) ∧ (s.dev.mode.hold ≠ .trip) ∧ (s.dev.anySensor s.dev.tripTemp = true) ∧ (s.dev.f F.TOP_MODE_MODE ≠ 0) ∧ (s.dev.mode.hold ≠ .pwrfail) :=
  ⟨W.st (fun d => ((W.up d).setF (F.PWR_TEMP_VALID 0) 1).setF (F.PWR_TEMP_TEMP 0) 125), (by decide), (by decide), (by decide), (by decide), (by decide), (by decide)⟩
theorem wit_StartUpCompletes_0 : ∃ (s : State), (s.live) ∧ (s.dev.starting = true) ∧ (s.dev.f F.TOP_MODE_MODE = 0) ∧ (s.dev.flag F.HALW_SCRUB_DONE = false) :=
  ⟨W.st W.run, (by decide), (by decide), (by decide), (by decide)⟩
theorem wit_StartUpCompletes_1 : ∃ (s : State) (ms misr : Nat), (s.live) ∧ (s.dev.selfTesting = true) ∧ (s.dev.mode.devTested = false) :=
  ⟨W.st (fun d => (W.run d).setF F.TOP_MODE_MODE 2), 4, 5, (by decide), (by decide), (by decide)⟩
theorem wit_StartUpCompletes_2 : ∃ (s : State) (l m k : Bool) (ms misr : Nat), (s.live) ∧ (s.dev.selfTesting = true) ∧ (s.dev.mode.devTested = false) ∧ ((l || m || k) = true) :=
  ⟨W.st (fun d => (W.run d).setF F.TOP_MODE_MODE 2), true, false, true, 4, 5, (by decide), (by decide), (by decide), (by decide)⟩
theorem wit_StartUpCompletes_3 : ∃ (s : State) (l m k : Bool) (ms misr : Nat), (s.live) ∧ (s.dev.selfTesting = true) ∧ (s.dev.mode.devTested = true) ∧ (s.dev.mode.nextQ < 4) :=
  ⟨W.st (fun d => { (W.run d).setF F.TOP_MODE_MODE 2 with mode := { d.mode with hold := .none, devTested := true } }), false, true, false, 4, 5, (by decide), (by decide), (by decide), (by decide)⟩
theorem wit_StartUpCompletes_4 : ∃ (s : State) (failed : List Nat), (s.live) ∧ (s.dev.selfTesting = true) ∧ (s.dev.mode.devTested = true) ∧ (s.dev.mode.nextQ = 4) ∧ (s.dev.mode.dramTrained = false) ∧ ((failed.filter s.dev.quadOk) = []) :=
  ⟨W.st (fun d => { (W.run d).setF F.TOP_MODE_MODE 2 with mode := { d.mode with hold := .none, devTested := true, nextQ := 4 } }), [7], (by decide), (by decide), (by decide), (by decide), (by decide), (by decide)⟩
theorem wit_StartUpCompletes_5 : ∃ (s : State) (failed : List Nat), (s.live) ∧ (s.dev.selfTesting = true) ∧ (s.dev.mode.devTested = true) ∧ (s.dev.mode.nextQ = 4) ∧ (s.dev.mode.dramTrained = false) ∧ ((failed.filter s.dev.quadOk) ≠ []) :=
  ⟨W.st (fun d => { (W.run d).setF F.TOP_MODE_MODE 2 with mode := { d.mode with hold := .none, devTested := true, nextQ := 4 } }), [2], (by decide), (by decide), (by decide), (by decide), (by decide), (by decide)⟩
theorem wit_StartUpCompletes_6 : ∃ (s : State), (s.live) ∧ (s.dev.selfTesting = true) ∧ (s.dev.mode.devTested = true) ∧ (s.dev.mode.nextQ = 4) ∧ (s.dev.mode.sramFilled = false) :=
  ⟨W.st (fun d => { (W.run d).setF F.TOP_MODE_MODE 2 with mode := { d.mode with hold := .none, devTested := true, nextQ := 4 } }), (by decide), (by decide), (by decide), (by decide), (by decide)⟩
theorem wit_StartUpCompletes_7 : ∃ (s : State), (s.live) ∧ (s.dev.selfTesting = true) ∧ (s.dev.mode.dramTrained = true) ∧ (s.dev.mode.dramFilled = false) :=
  ⟨W.st (fun d => { (W.run d).setF F.TOP_MODE_MODE 2 with mode := { d.mode with hold := .none, dramTrained := true } }), (by decide), (by decide), (by decide), (by decide)⟩
theorem wit_BootAndRecoveryComplete_0 : ∃ (s : State) (s0 : Nat), (s.live) ∧ (s.dev.booting = true) ∧ (s.dev.boot.fwRunning = 0) ∧ (s.dev.f F.HALW_BOOT_BOOTSEL < 2) ∧ (((if 1 ≤ s.dev.directory.fwNext ∧ s.dev.directory.fwNext ≤ 3 then s.dev.directory.fwNext else s.dev.directory.fwActive) :: [1, 2, 3].filter (fun k => k != (if 1 ≤ s.dev.directory.fwNext ∧ s.dev.directory.fwNext ≤ 3 then s.dev.directory.fwNext else s.dev.directory.fwActive))).find? s.dev.slotOk = some s0) ∧ (s0 = (if 1 ≤ s.dev.directory.fwNext ∧ s.dev.directory.fwNext ≤ 3 then s.dev.directory.fwNext else s.dev.directory.fwActive)) :=
  ⟨W.st W.fw, 1, (by decide), (by decide), (by decide), (by decide), (by decide), (by decide)⟩
theorem wit_BootAndRecoveryComplete_1 : ∃ (s : State) (s0 : Nat), (s.live) ∧ (s.dev.booting = true) ∧ (s.dev.boot.fwRunning = 0) ∧ (s.dev.f F.HALW_BOOT_BOOTSEL < 2) ∧ (((if 1 ≤ s.dev.directory.fwNext ∧ s.dev.directory.fwNext ≤ 3 then s.dev.directory.fwNext else s.dev.directory.fwActive) :: [1, 2, 3].filter (fun k => k != (if 1 ≤ s.dev.directory.fwNext ∧ s.dev.directory.fwNext ≤ 3 then s.dev.directory.fwNext else s.dev.directory.fwActive))).find? s.dev.slotOk = some s0) ∧ (s0 ≠ (if 1 ≤ s.dev.directory.fwNext ∧ s.dev.directory.fwNext ≤ 3 then s.dev.directory.fwNext else s.dev.directory.fwActive)) :=
  ⟨W.st W.fw2, 1, (by decide), (by decide), (by decide), (by decide), (by decide), (by decide)⟩
theorem wit_BootAndRecoveryComplete_2 : ∃ (s : State), (s.live) ∧ (s.dev.booting = true) ∧ (s.dev.boot.fwRunning = 0) ∧ (2 ≤ s.dev.f F.HALW_BOOT_BOOTSEL ∨ ((if 1 ≤ s.dev.directory.fwNext ∧ s.dev.directory.fwNext ≤ 3 then s.dev.directory.fwNext else s.dev.directory.fwActive) :: [1, 2, 3].filter (fun k => k != (if 1 ≤ s.dev.directory.fwNext ∧ s.dev.directory.fwNext ≤ 3 then s.dev.directory.fwNext else s.dev.directory.fwActive))).find? s.dev.slotOk = none) :=
  ⟨W.st (fun d => ((W.run d).setF F.TOP_MODE_MODE 4).setF F.HALW_BOOT_BOOTSEL 2), (by decide), (by decide), (by decide), (by decide)⟩
theorem wit_BootAndRecoveryComplete_3 : ∃ (s : State) (x : Stream), (s.live) ∧ (s.dev.booting = true) ∧ (s.dev.boot.fwRunning ≠ 0) ∧ (s.dev.boot.stream = none) ∧ (s.dev.slotFail (min 1 s.dev.directory.strActive) = none) ∧ (s.dev.streamIn (min 1 s.dev.directory.strActive) = some x) :=
  ⟨W.st W.strm, W.strm0, (by decide), (by decide), (by decide), (by decide), (by decide), (by decide)⟩
theorem wit_BootAndRecoveryComplete_4 : ∃ (s : State) (f : LoadFail) (x : Stream), (s.live) ∧ (s.dev.booting = true) ∧ (s.dev.boot.fwRunning ≠ 0) ∧ (s.dev.boot.stream = none) ∧ (s.dev.slotFail (min 1 s.dev.directory.strActive) = some f) ∧ ((s.dev.noteSlot (min 1 s.dev.directory.strActive) f).slotFail (1 - (min 1 s.dev.directory.strActive)) = none) ∧ (((s.dev.noteSlot (min 1 s.dev.directory.strActive) f).raise 0x029 noPlot []).streamIn (1 - (min 1 s.dev.directory.strActive)) = some x) :=
  ⟨W.st W.strmB, ⟨1, 0, 0, 0⟩, W.strm0, (by decide), (by decide), (by decide), (by decide), (by decide), (by decide), (by decide)⟩
theorem wit_BootAndRecoveryComplete_5 : ∃ (s : State) (f f2 : LoadFail), (s.live) ∧ (s.dev.booting = true) ∧ (s.dev.boot.fwRunning ≠ 0) ∧ (s.dev.boot.stream = none) ∧ (s.dev.slotFail (min 1 s.dev.directory.strActive) = some f) ∧ ((s.dev.noteSlot (min 1 s.dev.directory.strActive) f).slotFail (1 - (min 1 s.dev.directory.strActive)) = some f2) :=
  ⟨W.st (fun d => { (W.run d).setF F.TOP_MODE_MODE 4 with boot := { d.boot with fwRunning := 1 } }), ⟨1, 0, 0, 0⟩, ⟨1, 0, 0, 0⟩, (by decide), (by decide), (by decide), (by decide), (by decide), (by decide)⟩
theorem wit_BootAndRecoveryComplete_6 : ∃ (s : State), (s.live) ∧ (s.dev.booting = true) ∧ (s.dev.boot.stream.isSome = true) ∧ (s.dev.nv.stop = .clean) ∧ (s.dev.mode.mapLoaded = false) ∧ (({ ((s.dev.md.dir.filter (fun s => s.1 / 2 ^ 40 != 0)).foldl (fun (e : Dev) s => e.loadEntries (segMap s.1 s.2)) s.dev).countStop.requeueDoomed with mode := { ((s.dev.md.dir.filter (fun s => s.1 / 2 ^ 40 != 0)).foldl (fun (e : Dev) s => e.loadEntries (segMap s.1 s.2)) s.dev).mode with mapLoaded := true } } : Dev).f F.TOP_MODE_MODE = 4) :=
  ⟨W.st W.load, (by decide), (by decide), (by decide), (by decide), (by decide), (by decide)⟩
theorem wit_BootAndRecoveryComplete_7 : ∃ (s : State), (s.live) ∧ (s.dev.booting = true) ∧ (s.dev.boot.stream.isSome = true) ∧ (s.dev.nv.stop = .clean) ∧ (s.dev.mode.mapLoaded = false) ∧ (({ ((s.dev.md.dir.filter (fun s => s.1 / 2 ^ 40 != 0)).foldl (fun (e : Dev) s => e.loadEntries (segMap s.1 s.2)) s.dev).countStop.requeueDoomed with mode := { ((s.dev.md.dir.filter (fun s => s.1 / 2 ^ 40 != 0)).foldl (fun (e : Dev) s => e.loadEntries (segMap s.1 s.2)) s.dev).mode with mapLoaded := true } } : Dev).f F.TOP_MODE_MODE ≠ 4) :=
  ⟨W.st (fun d => (W.load d).setF F.TOP_MODE_MODE 0xB), (by decide), (by decide), (by decide), (by decide), (by decide), (by decide)⟩
theorem wit_BootAndRecoveryComplete_8 : ∃ (s : State), (s.live) ∧ (s.dev.f F.TOP_MODE_MODE = 5) ∧ (s.dev.flag F.MAPW_STAT_ADMIT = false) :=
  ⟨W.st (fun d => (W.run d).setF F.TOP_MODE_MODE 5), (by decide), (by decide), (by decide)⟩
theorem wit_BootAndRecoveryComplete_9 : ∃ (s : State) (seg : Nat), (s.live) ∧ (s.dev.f F.TOP_MODE_MODE = 5) ∧ (s.dev.flag F.MAPW_STAT_ADMIT = true) ∧ (s.dev.ftl.recover.contains seg = true) :=
  ⟨W.st (fun d => ({ (W.run d).setF F.TOP_MODE_MODE 5 with ftl := { d.ftl with recover := [3] } }).setF F.MAPW_STAT_ADMIT 1), 3, (by decide), (by decide), (by decide), (by decide)⟩
theorem wit_BootAndRecoveryComplete_10 : ∃ (s : State) (ms : Nat), (s.live) ∧ (s.dev.f F.TOP_MODE_MODE = 5) ∧ (s.dev.flag F.MAPW_STAT_ADMIT = true) ∧ (s.dev.ftl.recover.isEmpty = true) :=
  ⟨W.st (fun d => ((W.run d).setF F.TOP_MODE_MODE 5).setF F.MAPW_STAT_ADMIT 1), 12, (by decide), (by decide), (by decide), (by decide)⟩
theorem wit_BootAndRecoveryComplete_11 : ∃ (s : State) (ms : Nat), (s.live) ∧ (s.dev.f F.TOP_MODE_MODE = 5) ∧ (s.dev.flag F.MAPW_STAT_ADMIT = true) ∧ (s.dev.ftl.recover.isEmpty = true) :=
  ⟨W.st (fun d => ((W.run d).setF F.TOP_MODE_MODE 5).setF F.MAPW_STAT_ADMIT 1), 12, (by decide), (by decide), (by decide), (by decide)⟩
theorem wit_BootAndRecoveryComplete_12 : ∃ (s : State) (t : Nat × Nat), (s.live) ∧ (s.dev.boot.lcChange = some t) ∧ (s.dev.cleanBefore.stopped = true) :=
  ⟨W.st (fun d => { W.run d with boot := { d.boot with lcChange := some (4, 0) } }), (4, 0), (by decide), (by decide), (by decide)⟩
theorem wit_BootAndRecoveryComplete_13 : ∃ (s : State) (t : Nat × Nat), (s.live) ∧ (s.dev.boot.lcChange = some t) ∧ (s.dev.cleanBefore.stopped = false) :=
  ⟨W.st (fun d => { W.dest d with boot := { d.boot with lcChange := some (4, 0) }, nv := { d.nv with stop := .unclean } }), (4, 0), (by decide), (by decide), (by decide)⟩
theorem wit_StopAndLinksComplete_0 : ∃ (s : State), (s.live) ∧ (s.dev.pins.supply = true) ∧ (s.dev.pins.pwrfailN = true) ∧ (s.dev.f F.TOP_MODE_MODE ≠ 0) ∧ (s.dev.mode.pfStop = false) :=
  ⟨W.st W.up, (by decide), (by decide), (by decide), (by decide), (by decide)⟩
theorem wit_StopAndLinksComplete_1 : ∃ (s : State), (s.live) ∧ (s.dev.pins.supply = true) ∧ (s.dev.pins.pwrfailN = true) ∧ (s.dev.f F.TOP_MODE_MODE ≠ 0) ∧ (s.dev.mode.pfStop = true) :=
  ⟨W.st (fun d => { W.up d with mode := { d.mode with pfStop := true } }), (by decide), (by decide), (by decide), (by decide), (by decide)⟩
theorem wit_StopAndLinksComplete_2 : ∃ (s : State), (s.live) ∧ (s.dev.pins.supply = true) ∧ (s.dev.pins.pwrfailN = true) ∧ (s.dev.f F.TOP_MODE_MODE = 0) ∧ (s.dev.pins.resetN = true) ∧ (s.dev.mode.hold = .none) :=
  ⟨W.st W.run, (by decide), (by decide), (by decide), (by decide), (by decide), (by decide)⟩
theorem wit_StopAndLinksComplete_3 : ∃ (s : State), (s.live) ∧ (s.dev.pins.supply = true) ∧ (s.dev.pins.pwrfailN = true) ∧ (s.dev.f F.TOP_MODE_MODE = 0) ∧ (¬(s.dev.pins.resetN = true ∧ s.dev.mode.hold = .none)) :=
  ⟨W.st id, (by decide), (by decide), (by decide), (by decide), (by decide)⟩
theorem wit_StopAndLinksComplete_4 : ∃ (s : State), (s.live) ∧ (s.dev.mode.pfStop = true) ∧ (s.dev.mode.hold = .none) ∧ (s.dev.stopNow.mode.pfReturned = false) :=
  ⟨W.st (fun d => { W.up d with mode := { d.mode with pfStop := true } }), (by decide), (by decide), (by decide), (by decide)⟩
theorem wit_StopAndLinksComplete_5 : ∃ (s : State), (s.live) ∧ (s.dev.mode.pfStop = true) ∧ (s.dev.mode.hold = .none) ∧ (s.dev.stopNow.mode.pfReturned = true) :=
  ⟨W.st (fun d => { W.up d with mode := { d.mode with pfStop := true, pfReturned := true } }), (by decide), (by decide), (by decide), (by decide)⟩
theorem wit_StopAndLinksComplete_6 : ∃ (s : State), (s.live) ∧ (s.dev.pins.supply = true) ∧ (s.dev.pins.pwrfailN = false) ∧ (s.dev.mode.hold = .pwrfail) :=
  ⟨W.st (fun d => { W.up d with pins := { Pins.init with resetN := true, pwrfailN := false }, mode := { d.mode with hold := .pwrfail } }), (by decide), (by decide), (by decide), (by decide)⟩
theorem wit_StopAndLinksComplete_7 : ∃ (s : State), (s.live) ∧ (s.dev.pins.supply = true) ∧ (s.dev.pins.pwrfailN = false) ∧ (s.dev.mode.hold ≠ .pwrfail) ∧ (s.dev.mode.pfStop = true) :=
  ⟨W.st (fun d => { W.up d with pins := { Pins.init with resetN := true, pwrfailN := false }, mode := { d.mode with pfStop := true } }), (by decide), (by decide), (by decide), (by decide), (by decide)⟩
theorem wit_StopAndLinksComplete_8 : ∃ (s : State), (s.live) ∧ (s.dev.pins.supply = true) ∧ (s.dev.pins.pwrfailN = false) ∧ (s.dev.mode.hold ≠ .pwrfail) ∧ (s.dev.mode.pfStop = false) :=
  ⟨W.st (fun d => { W.run d with pins := { Pins.init with resetN := true, pwrfailN := false } }), (by decide), (by decide), (by decide), (by decide), (by decide)⟩
theorem wit_StopAndLinksComplete_9 : ∃ (s : State), (s.live) ∧ (s.dev.mode.hold = .pwrfailWait) ∧ (s.dev.pins.pwrfailN = true) ∧ (s.dev.pins.resetN = true) :=
  ⟨W.st (fun d => { W.up d with mode := { d.mode with hold := .pwrfailWait } }), (by decide), (by decide), (by decide), (by decide)⟩
theorem wit_StopAndLinksComplete_10 : ∃ (s : State) (port : Nat), (s.live) ∧ (port < 2) ∧ (s.dev.perst port = false) ∧ ((s.dev.setPerst port true).hasPort port = true) :=
  ⟨W.st W.up, 0, (by decide), (by decide), (by decide), (by decide)⟩
theorem wit_StopAndLinksComplete_11 : ∃ (s : State) (port : Nat), (s.live) ∧ (port < 2) ∧ (s.dev.perst port = false) ∧ ((s.dev.setPerst port true).hasPort port = false) :=
  ⟨W.st W.up, 1, (by decide), (by decide), (by decide), (by decide)⟩
theorem wit_StopAndLinksComplete_12 : ∃ (s : State) (port : Nat), (s.live) ∧ (¬(2 ≤ port)) :=
  ⟨W.st W.up, 1, (by decide), (by decide)⟩
theorem wit_StopAndLinksComplete_13 : ∃ (s : State) (port rate width : Nat) (partner64 : Bool), (s.live) ∧ (s.dev.pins.supply = true) ∧ (s.dev.pins.resetN = true) ∧ (s.dev.hasPort port = true) ∧ (s.dev.perst port = false) ∧ (s.dev.portUp port = false) ∧ (¬(rate < 4)) ∧ (¬(6 < rate)) ∧ ([1, 2, 4, 8, 16].contains width = true) ∧ (width = if s.dev.flag F.HIF_PORTCFG_DUAL then 8 else 16) ∧ (rate = 6 ∨ partner64 = false) :=
  ⟨W.st W.up, 0, 6, 16, true, (by decide), (by decide), (by decide), (by decide), (by decide), (by decide), (by decide), (by decide), (by decide), (by decide), (by decide)⟩
theorem wit_StopAndLinksComplete_14 : ∃ (s : State) (port rate width : Nat) (partner64 : Bool), (s.live) ∧ (s.dev.pins.supply = true) ∧ (s.dev.pins.resetN = true) ∧ (s.dev.hasPort port = true) ∧ (s.dev.perst port = false) ∧ (s.dev.portUp port = false) ∧ (¬(rate < 4)) ∧ (¬(6 < rate)) ∧ ([1, 2, 4, 8, 16].contains width = true) ∧ (¬((if s.dev.flag F.HIF_PORTCFG_DUAL then 8 else 16) < width)) ∧ (width < (if s.dev.flag F.HIF_PORTCFG_DUAL then 8 else 16) ∨ (rate < 6 ∧ partner64 = true)) :=
  ⟨W.st W.up, 0, 4, 16, true, (by decide), (by decide), (by decide), (by decide), (by decide), (by decide), (by decide), (by decide), (by decide), (by decide), (by decide)⟩
theorem wit_StopAndLinksComplete_15 : ∃ (s : State) (port : Nat), (s.live) ∧ (s.dev.hasPort port = true) ∧ (s.dev.portUp port = true) :=
  ⟨W.st (fun d => (W.up d).setPort 0 true), 0, (by decide), (by decide), (by decide)⟩
theorem wit_StopAndLinksComplete_16 : ∃ (s : State) (port : Nat), (s.live) ∧ (s.dev.hasPort port = true) ∧ (s.dev.portUp port = true) :=
  ⟨W.st (fun d => (W.up d).setPort 0 true), 0, (by decide), (by decide), (by decide)⟩
theorem wit_PowerAndThermalComplete_0 : ∃ (s : State), (s.live) ∧ (s.dev.flag F.PWR_PSTATE_ENTERING = true) ∧ (s.dev.psMode = true) ∧ (s.dev.quiet = true) ∧ (s.dev.mediaIdle = true) ∧ (s.dev.mode.pfStop = false) ∧ (s.dev.mode.qtest = none) ∧ (s.dev.psWant = 3) :=
  ⟨W.st (fun d => (fun (d : Dev) => d.setCtrl 0 { d.ctrl 0 with en := true, feat := { (d.ctrl 0).feat with ps := 3 } }) ((W.up d).setF F.PWR_PSTATE_ENTERING 1)), (by decide), (by decide), (by decide), (by decide), (by decide), (by decide), (by decide), (by decide)⟩
theorem wit_PowerAndThermalComplete_1 : ∃ (s : State), (s.live) ∧ (s.dev.flag F.PWR_PSTATE_ENTERING = true) ∧ (s.dev.psMode = true) ∧ (s.dev.quiet = true) ∧ (s.dev.mediaIdle = true) ∧ (s.dev.mode.pfStop = false) ∧ (s.dev.mode.qtest = none) ∧ (s.dev.psWant = 4) :=
  ⟨W.st (fun d => (fun (d : Dev) => d.setCtrl 0 { d.ctrl 0 with en := true, feat := { (d.ctrl 0).feat with ps := 4 } }) ((W.up d).setF F.PWR_PSTATE_ENTERING 1)), (by decide), (by decide), (by decide), (by decide), (by decide), (by decide), (by decide), (by decide)⟩
theorem wit_PowerAndThermalComplete_2 : ∃ (s : State), (s.live) ∧ (s.dev.mode.wakePending = true) ∧ (3 ≤ s.dev.f F.PWR_PSTATE_PS) ∧ (s.dev.f F.TOP_MODE_MODE ≠ 0xA) :=
  ⟨W.st (fun d => { (W.up d).setF F.PWR_PSTATE_PS 3 with mode := { d.mode with wakePending := true } }), (by decide), (by decide), (by decide), (by decide)⟩
theorem wit_PowerAndThermalComplete_3 : ∃ (s : State), (s.live) ∧ (3 ≤ s.dev.psWant) ∧ (s.dev.f F.PWR_PSTATE_PS < 3) ∧ (s.dev.quiet = true) ∧ (s.dev.mode.wakeAt + 1 ≤ s.dev.now) ∧ (s.dev.psMode = true) :=
  ⟨W.st (fun d => (fun (d : Dev) => d.setCtrl 0 { d.ctrl 0 with en := true, feat := { (d.ctrl 0).feat with ps := 3 } }) { W.up d with mode := { d.mode with ms := 5 } }), (by decide), (by decide), (by decide), (by decide), (by decide), (by decide)⟩
theorem wit_PowerAndThermalComplete_4 : ∃ (s : State) (p : Nat) (idle target : Nat), (s.live) ∧ (AMap.find (s.dev.ctrl p).feat.ps (s.dev.ctrl p).feat.apstTable = some (idle, target)) ∧ ((s.dev.ctrl p).en = true) ∧ ((s.dev.ctrl p).feat.apst = true) ∧ (idle ≠ 0) ∧ (target ≠ 0) ∧ (s.dev.psAllowed p = true) ∧ (s.dev.f F.TOP_MODE_MODE ≠ 1) :=
  ⟨W.st (fun d => (W.up d).setCtrl 0 { d.ctrl 0 with en := true, feat := { (d.ctrl 0).feat with apst := true, apstTable := [(0, 100, 3)] } }), 0, 100, 3, (by decide), (by decide), (by decide), (by decide), (by decide), (by decide), (by decide), (by decide)⟩
theorem wit_PowerAndThermalComplete_5 : ∃ (s : State), (s.live) ∧ (s.dev.mode.wakePending = true) ∧ (3 ≤ s.dev.f F.PWR_PSTATE_PS) ∧ (({ s.dev with mode := { s.dev.mode with wakePending := false, wakeAt := s.dev.now } } : Dev).f F.TOP_MODE_MODE = 0xA) :=
  ⟨W.st (fun d => { ((W.up d).setF F.PWR_PSTATE_PS 4).setF F.TOP_MODE_MODE 0xA with mode := { d.mode with wakePending := true, dozeFrom := 6 } }), (by decide), (by decide), (by decide), (by decide)⟩
theorem wit_PowerAndThermalComplete_6 : ∃ (s : State) (temps : List Int), (s.live) ∧ (s.dev.pins.supply = true) ∧ (temps.length = 6) ∧ ((s.dev.takeTemps temps).f F.TOP_MODE_MODE = 0) :=
  ⟨W.st W.run, [20, 21, 22, 23, 24, 25], (by decide), (by decide), (by decide), (by decide)⟩
theorem wit_PowerAndThermalComplete_7 : ∃ (s : State) (temps : List Int), (s.live) ∧ (s.dev.pins.supply = true) ∧ (temps.length = 6) ∧ ((s.dev.takeTemps temps).f F.TOP_MODE_MODE ≠ 0) :=
  ⟨W.st W.up, [20, 21, 22, 23, 24, 25], (by decide), (by decide), (by decide), (by decide)⟩
theorem wit_PowerAndThermalComplete_9 : ∃ (s : State), (s.live) ∧ (s.dev.f F.PWR_THERM_LEVEL ≠ 0) ∧ (s.dev.levelOver (s.dev.f F.PWR_THERM_LEVEL) = true) ∧ (s.dev.f F.PWR_THERM_LEVEL ≠ 2 ∨ s.dev.levelOver 1 = true) :=
  ⟨W.st (fun d => (W.up d).setF F.PWR_THERM_LEVEL 1), (by decide), (by decide), (by decide), (by decide)⟩
theorem wit_PowerAndThermalComplete_10 : ∃ (s : State), (s.live) ∧ (s.dev.f F.PWR_THERM_LEVEL = 2) ∧ (s.dev.levelOver 2 = true) ∧ (s.dev.levelOver 1 = false) :=
  ⟨W.st (fun d => (((W.up d).setF F.PWR_THERM_LEVEL 2).setF (F.PWR_TEMP_VALID 0) 1).setF (F.PWR_TEMP_TEMP 0) 97), (by decide), (by decide), (by decide), (by decide)⟩
theorem wit_PowerAndThermalComplete_11 : ∃ (s : State) (up : Bool), (s.live) ∧ (s.dev.pins.supply = true) ∧ (s.dev.pins.resetN = true) ∧ (up = true) ∧ (s.dev.f F.PWR_VCORE_CODE < 16) :=
  ⟨W.st (fun d => (W.up d).setF F.PWR_VCORE_CODE 15), true, (by decide), (by decide), (by decide), (by decide), (by decide)⟩
theorem wit_PowerAndThermalComplete_12 : ∃ (s : State) (up : Bool), (s.live) ∧ (s.dev.pins.supply = true) ∧ (s.dev.pins.resetN = true) ∧ (up = false) ∧ (0 < s.dev.f F.PWR_VCORE_CODE) :=
  ⟨W.st (fun d => (W.up d).setF F.PWR_VCORE_CODE 1), false, (by decide), (by decide), (by decide), (by decide), (by decide)⟩
theorem wit_TestsAndSanitizeComplete_0 : ∃ (s : State) (q : Nat), (s.live) ∧ (s.dev.quadOk q = true) ∧ (s.dev.f F.TOP_QBIST_INTERVAL ≠ 0) ∧ (s.dev.underTest q = false) :=
  ⟨W.st (fun d => (W.up d).setF F.TOP_QBIST_INTERVAL 1), 3, (by decide), (by decide), (by decide), (by decide)⟩
theorem wit_TestsAndSanitizeComplete_1 : ∃ (s : State), (s.live) ∧ (s.dev.quadOk (s.dev.f F.TOP_QBIST_NEXTQ) = true) :=
  ⟨W.st (fun d => (W.up d).setF F.TOP_QBIST_NEXTQ 2), (by decide), (by decide)⟩
theorem wit_TestsAndSanitizeComplete_2 : ∃ (s : State) (t : QTest), (s.live) ∧ (s.dev.mode.qtest = some t) ∧ (t.isolated = false) ∧ (s.dev.media.dies.any (fun x => x.1 / 512 == t.quad && (x.2.busy.toList ++ x.2.suspended.toList ++ x.2.ended.toList).any (fun o => o.cls == .program || o.cls == .erase)) = false) :=
  ⟨W.st (fun d => { W.up d with mode := { d.mode with qtest := some ⟨1, false⟩ } }), ⟨1, false⟩, (by decide), (by decide), (by decide), (by decide)⟩
theorem wit_TestsAndSanitizeComplete_3 : ∃ (s : State) (ms : Nat) (t : QTest), (s.live) ∧ (s.dev.mode.qtest = some t) ∧ (t.isolated = true) :=
  ⟨W.st (fun d => { W.up d with mode := { d.mode with qtest := some ⟨1, true⟩ } }), 9, ⟨1, true⟩, (by decide), (by decide), (by decide)⟩
theorem wit_TestsAndSanitizeComplete_4 : ∃ (s : State) (ms : Nat) (t : QTest), (s.live) ∧ (s.dev.mode.qtest = some t) ∧ (t.isolated = true) :=
  ⟨W.st (fun d => { W.up d with mode := { d.mode with qtest := some ⟨1, true⟩ } }), 9, ⟨1, true⟩, (by decide), (by decide), (by decide)⟩
theorem wit_TestsAndSanitizeComplete_5 : ∃ (s : State) (ok : Bool) (t : SelfTest), (s.live) ∧ (s.dev.mode.selfTest = some t) ∧ (t.quads = []) ∧ (t.slice < 10) ∧ (s.dev.mode.qtest = none) ∧ (t.abort = false) :=
  ⟨W.st (fun d => { W.up d with mode := { d.mode with selfTest := some { extended := true, quads := [], slice := 9, abort := false, failed := none } } }), true, { extended := true, quads := [], slice := 9, abort := false, failed := none }, (by decide), (by decide), (by decide), (by decide), (by decide), (by decide)⟩
theorem wit_TestsAndSanitizeComplete_6 : ∃ (s : State) (ok : Bool) (t : SelfTest), (s.live) ∧ (s.dev.mode.selfTest = some t) ∧ (t.quads = []) ∧ (t.slice < 10) ∧ (s.dev.mode.qtest = none) ∧ (t.abort = true) :=
  ⟨W.st (fun d => { W.up d with mode := { d.mode with selfTest := some { extended := true, quads := [], slice := 9, abort := true, failed := none } } }), true, { extended := true, quads := [], slice := 9, abort := true, failed := none }, (by decide), (by decide), (by decide), (by decide), (by decide), (by decide)⟩
theorem wit_TestsAndSanitizeComplete_7 : ∃ (s : State) (t : SelfTest), (s.live) ∧ (s.dev.mode.selfTest = some t) ∧ (t.extended = true) ∧ (s.dev.mode.qtest = none) ∧ (t.abort = false) ∧ (t.quads = []) ∧ (t.slice = 10) ∧ (t.failed = none) :=
  ⟨W.st (fun d => { W.up d with mode := { d.mode with selfTest := some { extended := true, quads := [], slice := 10, abort := false, failed := none } } }), { extended := true, quads := [], slice := 10, abort := false, failed := none }, (by decide), (by decide), (by decide), (by decide), (by decide), (by decide), (by decide), (by decide)⟩
theorem wit_TestsAndSanitizeComplete_8 : ∃ (s : State) (t : SelfTest) (seg : Nat), (s.live) ∧ (s.dev.mode.selfTest = some t) ∧ (t.extended = true) ∧ (s.dev.mode.qtest = none) ∧ (t.abort = false) ∧ (t.quads = []) ∧ (t.slice = 10) ∧ (t.failed = some seg) :=
  ⟨W.st (fun d => { W.up d with mode := { d.mode with selfTest := some { extended := true, quads := [], slice := 10, abort := false, failed := some 2 } } }), { extended := true, quads := [], slice := 10, abort := false, failed := some 2 }, 2, (by decide), (by decide), (by decide), (by decide), (by decide), (by decide), (by decide), (by decide)⟩
theorem wit_TestsAndSanitizeComplete_9 : ∃ (s : State) (t : SelfTest), (s.live) ∧ (s.dev.mode.selfTest = some t) ∧ (t.extended = true) ∧ (s.dev.mode.qtest = none) ∧ (t.abort = true) :=
  ⟨W.st (fun d => { W.up d with mode := { d.mode with selfTest := some { extended := true, quads := [], slice := 9, abort := true, failed := none } } }), { extended := true, quads := [], slice := 9, abort := true, failed := none }, (by decide), (by decide), (by decide), (by decide), (by decide)⟩
theorem wit_TestsAndSanitizeComplete_10 : ∃ (s : State), (s.live) ∧ (s.dev.f F.TOP_MODE_MODE = 3) :=
  ⟨W.st (fun d => { (W.up d).setF F.TOP_MODE_MODE 3 with nv := { d.nv with sanitize := some 1 } }), (by decide), (by decide)⟩
theorem wit_TestsAndSanitizeComplete_11 : ∃ (s : State), (s.live) ∧ (s.dev.f F.TOP_MODE_MODE = 3) :=
  ⟨W.st (fun d => (W.up d).setF F.TOP_MODE_MODE 3), (by decide), (by decide)⟩
theorem wit_HostQueuesComplete_0 : ∃ (s : State) (p css ams asq acq : Nat), (s.live) ∧ (p < 512) ∧ (s.dev.fnThere p = true) ∧ ((s.dev.ctrl p).en = false) :=
  ⟨W.st W.up, 0, 0, 0, 16, 16, (by decide), (by decide), (by decide), (by decide)⟩
theorem wit_HostQueuesComplete_1 : ∃ (s : State) (p : Nat), (s.live) ∧ ((s.dev.ctrl p).en = true) :=
  ⟨W.st W.cmd, 0, (by decide), (by decide)⟩
theorem wit_HostQueuesComplete_2 : ∃ (s : State) (p : Nat), (s.live) ∧ ((s.dev.ctrl p).en = true) :=
  ⟨W.st W.cmd, 0, (by decide), (by decide)⟩
theorem wit_HostQueuesComplete_3 : ∃ (s : State) (p : Nat), (s.live) ∧ ((s.dev.ctrl p).en = true) :=
  ⟨W.st W.cmd, 0, (by decide), (by decide)⟩
theorem wit_HostQueuesComplete_4 : ∃ (s : State) (p : Nat), (s.live) ∧ (p = 0) ∧ (s.dev.fnThere p = true) :=
  ⟨W.st W.cmd, 0, (by decide), (by decide), (by decide)⟩
theorem wit_HostQueuesComplete_5 : ∃ (s : State) (p : Nat), (s.live) ∧ (p < 512) ∧ (s.dev.fnThere p = true) ∧ (p ≠ 0) :=
  ⟨W.st (fun d => ({ W.up d with host := { d.host with numVfs := [(0, 8)] } }).setCtrl 5 { d.ctrl 5 with en := true }), 5, (by decide), (by decide), (by decide), (by decide)⟩
theorem wit_HostQueuesComplete_6 : ∃ (s : State) (p y v : Nat) (q : Sq), (s.live) ∧ (p < 512) ∧ (s.dev.plotEn p = true) ∧ (s.dev.fnThere p = true) ∧ ((s.dev.ctrl p).sq? y = some q) ∧ (v < q.size) :=
  ⟨W.st W.cmd, 0, 1, 5, { qid := 1, size := 16, cqid := 1, prio := 0, head := 0, tail := 3 }, (by decide), (by decide), (by decide), (by decide), (by decide), (by decide)⟩
theorem wit_HostQueuesComplete_7 : ∃ (s : State) (p y v : Nat) (q : Sq), (s.live) ∧ (p < 512) ∧ (s.dev.plotEn p = true) ∧ (s.dev.fnThere p = true) ∧ ((s.dev.ctrl p).sq? y = some q) ∧ (q.size ≤ v) :=
  ⟨W.st W.cmd, 0, 1, 16, { qid := 1, size := 16, cqid := 1, prio := 0, head := 0, tail := 3 }, (by decide), (by decide), (by decide), (by decide), (by decide), (by decide)⟩
theorem wit_HostQueuesComplete_8 : ∃ (s : State) (p y v : Nat), (s.live) ∧ (p < 512) ∧ (s.dev.plotEn p = true) ∧ (s.dev.fnThere p = true) ∧ ((s.dev.ctrl p).sq? y = none) :=
  ⟨W.st W.cmd, 0, 9, 5, (by decide), (by decide), (by decide), (by decide), (by decide)⟩
theorem wit_HostQueuesComplete_9 : ∃ (s : State) (p y v : Nat) (q : Cq), (s.live) ∧ (p < 512) ∧ (s.dev.plotEn p = true) ∧ (s.dev.fnThere p = true) ∧ ((s.dev.ctrl p).cq? y = some q) ∧ (v < q.size) :=
  ⟨W.st W.cmd, 0, 1, 0, { qid := 1, size := 16, head := 0, tail := 0, phase := true, vec := 0, ien := true, held := [], stalled := false, coalesced := 0 }, (by decide), (by decide), (by decide), (by decide), (by decide), (by decide)⟩
theorem wit_HostQueuesComplete_10 : ∃ (s : State) (p y v : Nat) (q : Cq), (s.live) ∧ (p < 512) ∧ (s.dev.plotEn p = true) ∧ (s.dev.fnThere p = true) ∧ ((s.dev.ctrl p).cq? y = some q) ∧ (q.size ≤ v) :=
  ⟨W.st W.cmd, 0, 1, 16, { qid := 1, size := 16, head := 0, tail := 0, phase := true, vec := 0, ien := true, held := [], stalled := false, coalesced := 0 }, (by decide), (by decide), (by decide), (by decide), (by decide), (by decide)⟩
theorem wit_HostQueuesComplete_11 : ∃ (s : State) (p y v : Nat), (s.live) ∧ (p < 512) ∧ (s.dev.plotEn p = true) ∧ (s.dev.fnThere p = true) ∧ ((s.dev.ctrl p).cq? y = none) :=
  ⟨W.st W.cmd, 0, 9, 0, (by decide), (by decide), (by decide), (by decide), (by decide)⟩
theorem wit_HostQueuesComplete_12 : ∃ (s : State) (p y : Nat) (q : Cq), (s.live) ∧ ((s.dev.ctrl p).cq? y = some q) ∧ (q.full = true) ∧ (q.stalled = false) :=
  ⟨W.st (fun d => (W.up d).setCtrl 0 { d.ctrl 0 with cqs := [{ qid := 1, size := 2, head := 0, tail := 1, phase := true, vec := 0, ien := true, held := [], stalled := false, coalesced := 0 }] }), 0, 1, { qid := 1, size := 2, head := 0, tail := 1, phase := true, vec := 0, ien := true, held := [], stalled := false, coalesced := 0 }, (by decide), (by decide), (by decide), (by decide)⟩
theorem wit_HostQueuesComplete_13 : ∃ (s : State) (p y : Nat) (q : Cq), (s.live) ∧ ((s.dev.ctrl p).cq? y = some q) ∧ (q.coalesced ≠ 0) :=
  ⟨W.st (fun d => (W.up d).setCtrl 0 { d.ctrl 0 with cqs := [{ qid := 1, size := 2, head := 0, tail := 1, phase := true, vec := 0, ien := true, held := [], stalled := false, coalesced := 2 }] }), 0, 1, { qid := 1, size := 2, head := 0, tail := 1, phase := true, vec := 0, ien := true, held := [], stalled := false, coalesced := 2 }, (by decide), (by decide), (by decide)⟩
theorem wit_HostQueuesComplete_14 : ∃ (s : State) (cid bytes : Nat) (what : Fetched) (p : Nat) (k : Nat × Bool × List (Nat × Nat)), (s.live) ∧ (((List.range 512).filter s.dev.eligible) ≠ []) ∧ (p = ((s.dev.fetchWake ((List.range 512).filter s.dev.eligible)).host.arb.pick ((List.range 512).filter s.dev.eligible) ((s.dev.fetchWake ((List.range 512).filter s.dev.eligible)).fetchChoice ((List.range 512).filter s.dev.eligible)))) ∧ (k = ((s.dev.fetchWake ((List.range 512).filter s.dev.eligible)).ctrl p).pickQueue ((s.dev.fetchWake ((List.range 512).filter s.dev.eligible)).fetchQueues p)) ∧ ((s.dev.fetchWake ((List.range 512).filter s.dev.eligible)).outstanding ⟨p, k.1, cid⟩ = false) :=
  ⟨W.st W.cmd, 7, 4096, .known, 0, (0, false, []), (by decide), (by decide), (by decide), (by decide), (by decide)⟩
theorem wit_HostQueuesComplete_15 : ∃ (s : State) (id : CmdId) (held : List Nat), (s.live) ∧ (s.dev.outstanding id = true) ∧ ((s.dev.ctrl id.plot).aers.contains id = false) :=
  ⟨W.st W.cmd, ⟨0, 1, 1⟩, [], (by decide), (by decide), (by decide)⟩
theorem wit_HostQueuesComplete_16 : ∃ (s : State) (id : CmdId) (held : List Nat), (s.live) ∧ (s.dev.outstanding id = false) ∧ (65536 ≤ id.cid) :=
  ⟨W.st W.up, ⟨0, 1, 65536⟩, [7], (by decide), (by decide), (by decide)⟩
theorem wit_HostQueuesComplete_17 : ∃ (s : State) (id : CmdId) (pgen qgen : Nat) (st : Sc) (dw0 dw1 : Nat) (l : Latch), (s.live) ∧ (s.dev.latch? id = some l) ∧ (l.plotGen = pgen) ∧ (l.qGen = qgen) :=
  ⟨W.st W.cmd, ⟨0, 1, 1⟩, 0, 0, .success, 1, 2, { id := ⟨0, 1, 1⟩, plotGen := 0, qGen := 0, at_ := 0, tmax := 5, io := true }, (by decide), (by decide), (by decide), (by decide)⟩
theorem wit_HostQueuesComplete_18 : ∃ (s : State) (id : CmdId) (pgen qgen : Nat) (st : Sc) (dw0 dw1 : Nat) (l : Latch), (s.live) ∧ (s.dev.latch? id = some l) ∧ (l.plotGen ≠ pgen ∨ l.qGen ≠ qgen) :=
  ⟨W.st W.cmd, ⟨0, 1, 1⟩, 1, 0, .success, 1, 2, { id := ⟨0, 1, 1⟩, plotGen := 0, qGen := 0, at_ := 0, tmax := 5, io := true }, (by decide), (by decide), (by decide)⟩
theorem wit_HostQueuesComplete_19 : ∃ (s : State) (id : CmdId) (pgen qgen : Nat) (st : Sc) (dw0 dw1 : Nat), (s.live) ∧ (s.dev.latch? id = none) :=
  ⟨W.st W.cmd, ⟨0, 1, 9⟩, 0, 0, .success, 1, 2, (by decide), (by decide)⟩
theorem wit_HostQueuesComplete_20 : ∃ (s : State) (c : NCmd) (qid cqid size prio : Nat) (pc : Bool), (s.live) ∧ (s.dev.admits c false false true = true) ∧ (pc = true) ∧ (qid ≠ 0) ∧ (¬(s.dev.hostActivity.queueLimit c.id.plot false < qid)) ∧ ((s.dev.hostActivity.ctrl c.id.plot).sq? qid = none) ∧ (s.dev.hostActivity.queueRoom c.id.plot false = true) ∧ (¬(size < 2 ∨ 65536 < size)) ∧ (cqid ≠ 0) ∧ ((s.dev.hostActivity.ctrl c.id.plot).cq? cqid ≠ none) :=
  ⟨W.st (fun d => (W.cmd d).setF (F.PLOT_QV_QMAX 0) 8), W.adm 0, 2, 1, 16, 0, true, (by decide), (by decide), (by decide), (by decide), (by decide), (by decide), (by decide), (by decide), (by decide), (by decide)⟩
theorem wit_HostQueuesComplete_21 : ∃ (s : State) (c : NCmd) (qid size vec : Nat) (ien pc : Bool), (s.live) ∧ (s.dev.admits c false false true = true) ∧ (pc = true) ∧ (qid ≠ 0) ∧ (¬(s.dev.hostActivity.queueLimit c.id.plot true < qid)) ∧ ((s.dev.hostActivity.ctrl c.id.plot).cq? qid = none) ∧ (s.dev.hostActivity.queueRoom c.id.plot true = true) ∧ (¬(size < 2 ∨ 65536 < size)) ∧ (¬(s.dev.hostActivity.f (F.PLOT_QV_VMAX c.id.plot) ≤ vec)) :=
  ⟨W.st (fun d => (W.cmd d).setF (F.PLOT_QV_QMAX 0) 8), W.adm 0, 2, 16, 1, true, true, (by decide), (by decide), (by decide), (by decide), (by decide), (by decide), (by decide), (by decide), (by decide)⟩
theorem wit_HostQueuesComplete_22 : ∃ (s : State) (c : NCmd) (qid : Nat), (s.live) ∧ (s.dev.admits c false false true = true) ∧ (qid ≠ 0) ∧ ((s.dev.hostActivity.ctrl c.id.plot).cq? qid ≠ none) ∧ ((s.dev.hostActivity.ctrl c.id.plot).sqs.any (fun q => q.cqid == qid) = false) :=
  ⟨W.st (fun d => (W.cmd d).setCtrl 0 { (W.cmd d).ctrl 0 with sqs := [] }), W.adm 0, 1, (by decide), (by decide), (by decide), (by decide), (by decide)⟩
theorem wit_HostQueuesComplete_23 : ∃ (s : State) (c : NCmd) (qid : Nat) (unread : List Nat) (q : Sq), (s.live) ∧ (s.dev.admits c false false true = true) ∧ (qid ≠ 0) ∧ ((s.dev.hostActivity.ctrl c.id.plot).sq? qid = some q) ∧ (unread.length = q.waiting) :=
  ⟨W.st W.cmd, W.adm 0, 1, [4, 5, 6], { qid := 1, size := 16, cqid := 1, prio := 0, head := 0, tail := 3 }, (by decide), (by decide), (by decide), (by decide), (by decide)⟩
theorem wit_HostQueuesComplete_24 : ∃ (s : State) (c : NCmd), (s.live) ∧ (s.dev.admits c false false true = true) :=
  ⟨W.st W.cmd, W.adm 0, (by decide), (by decide)⟩
theorem wit_HostQueuesComplete_25 : ∃ (s : State) (c : NCmd), (s.live) ∧ (s.dev.admits c false false true = true) ∧ ((s.dev.hostActivity.ctrl c.id.plot).aers.contains c.id = false) ∧ (¬(16 ≤ (s.dev.hostActivity.ctrl c.id.plot).aers.length)) ∧ ((s.dev.hostActivity.ctrl c.id.plot).asyncPend = []) :=
  ⟨W.st W.cmd, W.adm 0, (by decide), (by decide), (by decide), (by decide), (by decide)⟩
theorem wit_HostQueuesComplete_26 : ∃ (s : State) (c : NCmd) (v : AsyncEv) (rest : List AsyncEv), (s.live) ∧ (s.dev.admits c false false true = true) ∧ ((s.dev.hostActivity.ctrl c.id.plot).aers.contains c.id = false) ∧ (¬(16 ≤ (s.dev.hostActivity.ctrl c.id.plot).aers.length)) ∧ ((s.dev.hostActivity.ctrl c.id.plot).asyncPend = v :: rest) :=
  ⟨W.st (fun d => (W.cmd d).setCtrl 0 { (W.cmd d).ctrl 0 with asyncPend := [⟨1, 1, 2⟩] }), W.adm 0, ⟨1, 1, 2⟩, [], (by decide), (by decide), (by decide), (by decide), (by decide)⟩
theorem wit_HostQueuesComplete_27 : ∃ (s : State) (c : NCmd) (lid lsf lsi csi off len : Nat) (rae : Bool) (size : Nat) (fs : List LogField), (s.live) ∧ (s.dev.admits c false true (sanitizeLogs.contains lid) = true) ∧ (s.dev.hostActivity.logPage c.id.plot c.nsid lid lsf lsi csi = some (size, fs)) ∧ (off % 4 = 0) ∧ (¬(size < off)) ∧ (len % 4 = 0) ∧ (¬(2 ^ 21 < len)) ∧ (¬(lid = 0x02 ∧ c.nsid ≠ 0 ∧ c.nsid ≠ 0xFFFFFFFF ∧ ((s.dev.hostActivity.ns? c.nsid).isNone = true ∨ (c.id.plot ≠ 0 ∧ ¬s.dev.hostActivity.attached c.nsid c.id.plot = true)))) ∧ (¬((lid = 0xC4 ∧ c.id.plot = 0 ∧ 512 ≤ lsi) ∨ (lid = 0x05 ∧ ¬[0, 3, 4].contains csi = true))) ∧ (prpFits c len true = true) :=
  ⟨W.st W.cmd, W.adm 0, 4, 0, 0, 0, 0, 4096, false, 4096, fieldRun 0 4 [], (by decide), (by decide), (by decide), (by decide), (by decide), (by decide), (by decide), (by decide), (by decide), (by decide)⟩
theorem wit_HostQueuesComplete_28 : ∃ (s : State) (c : NCmd) (cns cntid csi : Nat) (m : HostMsg), (s.live) ∧ (s.dev.admits c false true true = true) ∧ (s.dev.hostActivity.identifyReply c.id.plot cns c.nsid cntid csi = some (.inl m)) ∧ (prpFits c 4096 true = true) :=
  ⟨W.st W.cmd, W.adm 0, 6, 0, 3, .ident 0 6 [], (by decide), (by decide), (by decide), (by decide)⟩
theorem wit_FeaturesComplete_0 : ∃ (s : State) (c : NCmd) (fid sel cdw11 : Nat) (f : Features) (dw : Nat) (page : List (Nat × Nat)), (s.live) ∧ (s.dev.admits c false true true = true) ∧ (fid ≠ 0xC0) ∧ (fid ≠ 0xC1) ∧ (¬(2 < sel)) ∧ (f = (if sel = 1 then Features.default else if sel = 2 then (if featureSaves fid then AMap.get Features.default c.id.plot s.dev.hostActivity.nv.saved else Features.default) else (s.dev.hostActivity.ctrl c.id.plot).feat)) ∧ (s.dev.hostActivity.featureOf f c.id.plot fid c.nsid sel cdw11 = some (dw, page)) ∧ (¬(fid = 0x05 ∧ (¬s.dev.hostActivity.attached c.nsid c.id.plot = true ∨ (s.dev.hostActivity.ns? c.nsid).isNone = true))) ∧ (prpFits c (featureBytes fid) true = true) :=
  ⟨W.st W.cmd, W.adm 1, 0x05, 0, 0, (W.cmd State.reset.dev).ctrl 0 |>.feat, 0, [], (by decide), (by decide), (by decide), (by decide), (by decide), (by decide), (by decide), (by decide), (by decide)⟩
theorem wit_FeaturesComplete_1 : ∃ (s : State) (c : NCmd) (fid sel cdw11 : Nat) (dw : Nat) (page : List (Nat × Nat)), (s.live) ∧ (s.dev.admits c false true true = true) ∧ (c.id.plot = 0) ∧ (fid = 0xC0 ∨ fid = 0xC1) ∧ (¬(2 < sel)) ∧ (s.dev.hostActivity.deviceFeature fid sel = some (dw, page)) ∧ (prpFits c (featureBytes fid) true = true) :=
  ⟨W.st W.cmd, W.adm 1, 0xC0, 0, 0, 8, [], (by decide), (by decide), (by decide), (by decide), (by decide), (by decide), (by decide)⟩
theorem wit_FeaturesComplete_2 : ∃ (s : State) (c : NCmd) (fid cdw11 : Nat), (s.live) ∧ (s.dev.admits c false true true = true) ∧ (fid ≠ 0xC0) ∧ (fid ≠ 0xC1) ∧ ((s.dev.hostActivity.featureOf (s.dev.hostActivity.ctrl c.id.plot).feat c.id.plot fid c.nsid 3 cdw11).isSome = true) :=
  ⟨W.st W.cmd, W.adm 1, 0x05, 0, (by decide), (by decide), (by decide), (by decide), (by decide)⟩
theorem wit_FeaturesComplete_3 : ∃ (s : State) (c : NCmd) (save : Bool) (ab lpw mpw hpw : Nat), (s.live) ∧ (s.dev.admitsFeature c save true false true = true) :=
  ⟨W.st W.cmd, W.adm 1, true, 7, 1, 2, 3, (by decide), (by decide)⟩
theorem wit_FeaturesComplete_4 : ∃ (s : State) (c : NCmd) (save : Bool) (ps : Nat), (s.live) ∧ (s.dev.admitsFeature c save false false true = true) ∧ (¬(4 < ps)) :=
  ⟨W.st W.cmd, W.adm 1, false, 4, (by decide), (by decide), (by decide)⟩
theorem wit_FeaturesComplete_5 : ∃ (s : State) (c : NCmd) (save : Bool) (t tsel sel : Nat), (s.live) ∧ (s.dev.admitsFeature c save true false true = true) ∧ (sel ≤ 1) ∧ (tsel = 0 ∨ tsel = 15) :=
  ⟨W.st W.cmd, W.adm 1, true, 300, 15, 1, (by decide), (by decide), (by decide), (by decide)⟩
theorem wit_FeaturesComplete_6 : ∃ (s : State) (c : NCmd) (save : Bool) (tler : Nat) (dulbe : Bool), (s.live) ∧ (s.dev.admitsFeature c save false false true = true) ∧ (dulbe = false) ∧ (c.nsid ≠ 0xFFFFFFFF) ∧ (s.dev.hostActivity.attached c.nsid c.id.plot = true) ∧ ((s.dev.hostActivity.ns? c.nsid).isNone = false) :=
  ⟨W.st W.cmd, W.adm 1, false, 9, false, (by decide), (by decide), (by decide), (by decide), (by decide), (by decide)⟩
theorem wit_FeaturesComplete_7 : ∃ (s : State) (c : NCmd) (save : Bool) (tler : Nat) (dulbe : Bool), (s.live) ∧ (s.dev.admitsFeature c save false false true = true) ∧ (dulbe = false) ∧ (c.nsid = 0xFFFFFFFF) :=
  ⟨W.st W.cmd, W.adm 0xFFFFFFFF, false, 9, false, (by decide), (by decide), (by decide), (by decide)⟩
theorem wit_FeaturesComplete_8 : ∃ (s : State) (c : NCmd) (save : Bool) (nsq ncq : Nat), (s.live) ∧ (s.dev.admitsFeature c save false false true = true) ∧ ((s.dev.hostActivity.ctrl c.id.plot).sqs.any (fun q => q.qid != 0) = false) ∧ ((s.dev.hostActivity.ctrl c.id.plot).cqs.any (fun q => q.qid != 0) = false) ∧ (¬(nsq = 65535 ∨ ncq = 65535)) :=
  ⟨W.st (fun d => (W.cmd d).setCtrl 0 { (W.cmd d).ctrl 0 with sqs := [], cqs := [] }), W.adm 0, false, 3, 3, (by decide), (by decide), (by decide), (by decide), (by decide)⟩
theorem wit_FeaturesComplete_9 : ∃ (s : State) (c : NCmd) (save : Bool) (thr time : Nat), (s.live) ∧ (s.dev.admitsFeature c save false false true = true) :=
  ⟨W.st W.cmd, W.adm 1, false, 3, 4, (by decide), (by decide)⟩
theorem wit_FeaturesComplete_10 : ∃ (s : State) (c : NCmd) (save : Bool) (vec : Nat) (cd : Bool), (s.live) ∧ (s.dev.admitsFeature c save false false true = true) ∧ (¬(s.dev.hostActivity.f (F.PLOT_QV_VMAX c.id.plot) ≤ vec)) :=
  ⟨W.st W.cmd, W.adm 1, false, 7, true, (by decide), (by decide), (by decide)⟩
theorem wit_FeaturesComplete_11 : ∃ (s : State) (c : NCmd) (save : Bool) (dn : Nat), (s.live) ∧ (s.dev.admitsFeature c save false false true = true) :=
  ⟨W.st W.cmd, W.adm 1, false, 1, (by decide), (by decide)⟩
theorem wit_FeaturesComplete_12 : ∃ (s : State) (c : NCmd) (save : Bool) (v : Nat), (s.live) ∧ (s.dev.admitsFeature c save false false true = true) :=
  ⟨W.st W.cmd, W.adm 1, false, 1, (by decide), (by decide)⟩
theorem wit_FeaturesComplete_13 : ∃ (s : State) (c : NCmd) (save on : Bool) (table : List (Nat × Nat × Nat)), (s.live) ∧ (s.dev.admitsFeature c save true false true = true) ∧ (prpFits c 256 false = true) ∧ ((table.any (fun x => decide (4 < x.1) || !(x.2.2 == 0 || x.2.2 == 3 || x.2.2 == 4)) = false)) :=
  ⟨W.st W.cmd, W.adm 1, false, true, [(4, 9, 4)], (by decide), (by decide), (by decide), (by decide)⟩
theorem wit_FeaturesComplete_14 : ∃ (s : State) (c : NCmd) (save : Bool) (t : Nat), (s.live) ∧ (s.dev.admitsFeature c save false false true = true) ∧ (prpFits c 8 false = true) :=
  ⟨W.st W.cmd, W.adm 1, false, 9, (by decide), (by decide), (by decide)⟩
theorem wit_FeaturesComplete_15 : ∃ (s : State) (c : NCmd) (save : Bool) (t1 t2 : Nat), (s.live) ∧ (s.dev.admitsFeature c save true false true = true) ∧ (¬(t1 ≠ 0 ∧ t2 ≠ 0 ∧ t2 ≤ t1)) :=
  ⟨W.st W.cmd, W.adm 1, true, 300, 301, (by decide), (by decide), (by decide)⟩
theorem wit_FeaturesComplete_16 : ∃ (s : State) (c : NCmd), (s.live) ∧ (s.dev.admits c false false true = true) :=
  ⟨W.st W.cmd, W.adm 1, (by decide), (by decide)⟩
theorem wit_FeaturesComplete_17 : ∃ (s : State) (c : NCmd) (save : Bool) (v : Nat), (s.live) ∧ (s.dev.admitsFeature c save true true false = true) ∧ (1 ≤ v % 64) ∧ (v % 64 ≤ 60) :=
  ⟨W.st W.cmd, W.adm 1, true, 60, (by decide), (by decide), (by decide), (by decide)⟩
theorem wit_FeaturesComplete_18 : ∃ (s : State) (c : NCmd) (save : Bool) (v : Nat), (s.live) ∧ (s.dev.admitsFeature c save true true false = true) ∧ (¬(1 ≤ v % 64 ∧ v % 64 ≤ 60)) :=
  ⟨W.st W.cmd, W.adm 1, true, 61, (by decide), (by decide), (by decide)⟩
theorem wit_FeaturesComplete_19 : ∃ (s : State) (c : NCmd) (save : Bool) (set_ ew crit wear : Nat) (zeros : Bool), (s.live) ∧ (s.dev.admitsFeature c save true true false = true) ∧ (prpFits c 16 false = true) ∧ (¬(2 ^ 18 ≤ set_)) ∧ (1 ≤ ew) ∧ (ew ≤ 100) ∧ (crit < ew) ∧ (1 ≤ wear) ∧ (wear ≤ 255) ∧ (zeros = true) :=
  ⟨W.st W.cmd, W.adm 1, true, 2 ^ 18 - 1, 100, 99, 255, true, (by decide), (by decide), (by decide), (by decide), (by decide), (by decide), (by decide), (by decide), (by decide), (by decide)⟩
theorem wit_FeaturesComplete_20 : ∃ (s : State) (c : NCmd) (save : Bool) (set_ ew crit wear : Nat) (zeros : Bool), (s.live) ∧ (s.dev.admitsFeature c save true true false = true) ∧ (prpFits c 16 false = true) ∧ (2 ^ 18 ≤ set_ ∨ ew < 1 ∨ 100 < ew ∨ ew ≤ crit ∨ wear < 1 ∨ 255 < wear ∨ zeros = false) :=
  ⟨W.st W.cmd, W.adm 1, true, 2 ^ 18, 100, 99, 255, true, (by decide), (by decide), (by decide), (by decide)⟩
theorem wit_FeaturesComplete_21 : ∃ (s : State) (c : NCmd) (save : Bool) (v : Nat), (s.live) ∧ (s.dev.admitsFeature c save false false false = true) :=
  ⟨W.st W.cmd, W.adm 1, false, 63, (by decide), (by decide)⟩
theorem wit_AdminCommandsComplete_0 : ∃ (s : State) (c : NCmd) (nsze ncap lbaf pi : Nat) (ext shared : Bool) (iu geom comp : Nat) (refused : Option Nat) (ns : List Ns), (s.live) ∧ (s.dev.admitsUp c true false false = true) ∧ (ns = (s.dev.hostActivity.md.nss.filter (fun n => decide (c.nsid = 0xFFFFFFFF) || n.nsid == c.nsid))) ∧ (ns ≠ []) ∧ (ns.any s.dev.hostActivity.notReady = false) ∧ (ns.any (fun n => n.cluster.isSome) = false ∨ (s.dev.hostActivity.f F.TOP_MODE_MODE ≠ 0xB ∧ s.dev.hostActivity.allInView = true)) :=
  ⟨W.st W.cmd, W.adm 1, 0, 0, 0, 0, false, false, 0, 0, 0, none, [W.rns Resv.init], (by decide), (by decide), (by decide), (by decide), (by decide), (by decide)⟩
theorem wit_AdminCommandsComplete_1 : ∃ (s : State) (c : NCmd) (nsze ncap lbaf pi : Nat) (ext shared : Bool) (iu geom comp : Nat) (refused : Option Nat) (n : Ns), (s.live) ∧ (s.dev.admitsUp c true false false = true) ∧ (prpFits c 4096 false = true) ∧ (s.dev.hostActivity.newNsOk nsze ncap lbaf pi iu geom comp = true) ∧ (n = { nsid := 0, nsze := nsze, ncap := ncap, lbaf := lbaf, iu := iu, pi := pi, ext := ext, comp := comp, attached := [], shared := shared, epoch := 0, test := s.dev.hostActivity.f F.TOP_MODE_MODE == 0xB, resv := Resv.init, cluster := geomOf geom }) ∧ (n.cluster = none) ∧ (¬(1024 ≤ s.dev.hostActivity.md.nss.length ∨ (s.dev.hostActivity.freeNsids false).isEmpty = true)) ∧ (¬(s.dev.hostActivity.mapFree < s.dev.hostActivity.nsMap n)) ∧ (s.dev.hostActivity.capFits n = true) :=
  ⟨W.st W.cap, W.adm 1, 4096, 4096, 0, 0, false, true, 0, 0, 0, none, { W.rns Resv.init with nsid := 0, attached := [], cluster := none }, (by decide), (by decide), (by decide), (by decide), (by decide), (by decide), (by decide), (by decide), (by decide)⟩
theorem wit_AdminCommandsComplete_2 : ∃ (s : State) (c : NCmd) (nsze ncap lbaf pi : Nat) (ext shared : Bool) (iu geom comp : Nat) (refused : Option Nat) (n : Ns), (s.live) ∧ (s.dev.admitsUp c true false false = true) ∧ (prpFits c 4096 false = true) ∧ (s.dev.hostActivity.newNsOk nsze ncap lbaf pi iu geom comp = true) ∧ (n = { nsid := 0, nsze := nsze, ncap := ncap, lbaf := lbaf, iu := iu, pi := pi, ext := ext, comp := comp, attached := [], shared := shared, epoch := 0, test := s.dev.hostActivity.f F.TOP_MODE_MODE == 0xB, resv := Resv.init, cluster := geomOf geom }) ∧ (n.cluster.isSome = true) ∧ (s.dev.hostActivity.allInView = true) ∧ (¬(1024 ≤ s.dev.hostActivity.md.nss.length ∨ (s.dev.hostActivity.freeNsids true).isEmpty = true)) ∧ (¬(s.dev.hostActivity.mapFree < s.dev.hostActivity.nsMap n)) ∧ (s.dev.hostActivity.capFits n = true) :=
  ⟨W.st W.capm, W.adm 1, 4096, 4096, 0, 0, false, true, 0, 1, 0, none, { W.rns Resv.init with nsid := 0, attached := [], cluster := some ⟨4, 1⟩ }, (by decide), (by decide), (by decide), (by decide), (by decide), (by decide), (by decide), (by decide), (by decide), (by decide)⟩
theorem wit_AdminCommandsComplete_3 : ∃ (s : State) (c : NCmd) (detach : Bool) (list : List Nat) (n : Ns), (s.live) ∧ (s.dev.admitsUp c true false false = true) ∧ (s.dev.hostActivity.ns? c.nsid = some n) ∧ (s.dev.hostActivity.notReady n = false) ∧ (prpFits c 4096 false = true) ∧ (detach = true) ∧ (¬(list.isEmpty = true ∨ 2047 < list.length ∨ list.any (fun p => decide (512 ≤ p) || !s.dev.hostActivity.plotEn p) = true ∨ list.eraseDups.length ≠ list.length)) ∧ (list.any (fun p => !n.attached.contains p) = false) :=
  ⟨W.st W.cmd, W.adm 1, true, [0], W.rns Resv.init, (by decide), (by decide), (by decide), (by decide), (by decide), (by decide), (by decide), (by decide)⟩
theorem wit_AdminCommandsComplete_4 : ∃ (s : State) (c : NCmd) (detach : Bool) (list : List Nat) (n : Ns), (s.live) ∧ (s.dev.admitsUp c true false false = true) ∧ (s.dev.hostActivity.ns? c.nsid = some n) ∧ (s.dev.hostActivity.notReady n = false) ∧ (prpFits c 4096 false = true) ∧ (detach = false) ∧ (¬(list.isEmpty = true ∨ 2047 < list.length ∨ list.any (fun p => decide (512 ≤ p) || !s.dev.hostActivity.plotEn p) = true ∨ list.eraseDups.length ≠ list.length)) ∧ (list.any (fun p => n.attached.contains p) = false) ∧ (¬(¬n.shared = true ∧ 1 < n.attached.length + list.length)) :=
  ⟨W.st (fun d => (W.cmd d).setF (F.PLOT_CTL_EN 3) 1), W.adm 1, false, [3], W.rns Resv.init, (by decide), (by decide), (by decide), (by decide), (by decide), (by decide), (by decide), (by decide), (by decide)⟩
theorem wit_AdminCommandsComplete_5 : ∃ (s : State) (c : NCmd) (rt cntid nr : Nat), (s.live) ∧ (s.dev.admitsUp c true false false = true) ∧ (cntid < 512) ∧ (s.dev.hostActivity.primary cntid = false) :=
  ⟨W.st W.cmd, W.adm 1, 0, 5, 0, (by decide), (by decide), (by decide), (by decide)⟩
theorem wit_AdminCommandsComplete_6 : ∃ (s : State) (c : NCmd) (rt cntid nr : Nat), (s.live) ∧ (s.dev.admitsUp c true false false = true) ∧ (cntid < 512) ∧ (s.dev.hostActivity.primary cntid = false) :=
  ⟨W.st W.cmd, W.adm 1, 0, 5, 0, (by decide), (by decide), (by decide), (by decide)⟩
theorem wit_AdminCommandsComplete_7 : ∃ (s : State) (c : NCmd) (act rt cntid nr : Nat), (s.live) ∧ (s.dev.admitsUp c true false false = true) ∧ (act = 1 ∨ act = 8) ∧ (cntid < 512) ∧ (s.dev.hostActivity.primary cntid = decide (act = 1)) ∧ (rt ≤ 1) ∧ (act = 8 → (s.dev.hostActivity.ctrl cntid).offline = true) :=
  ⟨W.st (fun d => (W.cmd d).setCtrl 5 { (W.cmd d).ctrl 5 with offline := true }), W.adm 1, 8, 1, 5, 4, (by decide), (by decide), (by decide), (by decide), (by decide), (by decide), (by decide)⟩
theorem wit_AdminCommandsComplete_8 : ∃ (s : State) (c : NCmd) (lbaf ses pi : Nat) (ext : Bool) (n : Ns), (s.live) ∧ (s.dev.admitsUp c false false false = true) ∧ (s.dev.hostActivity.ns? c.nsid = some n) ∧ (¬(c.id.plot ≠ 0 ∧ ¬n.attached.contains c.id.plot = true)) ∧ (¬(2 < ses)) ∧ (s.dev.hostActivity.notReady n = false) ∧ (¬(3 < lbaf ∨ piTypeOk lbaf pi = false ∨ (n.comp ≠ 0 ∧ (lbaf = 1 ∨ lbaf = 2)))) ∧ (¬(s.dev.hostActivity.mapFree + s.dev.hostActivity.nsMap n < s.dev.hostActivity.nsMap { n with nsze := n.nsze * lbaBytes n.lbaf / lbaBytes lbaf, ncap := n.ncap * lbaBytes n.lbaf / lbaBytes lbaf, lbaf := lbaf, pi := pi, ext := ext })) :=
  ⟨W.st W.cmd, W.adm 1, 0, 1, 0, true, W.rns Resv.init, (by decide), (by decide), (by decide), (by decide), (by decide), (by decide), (by decide), (by decide)⟩
theorem wit_AdminCommandsComplete_9 : ∃ (s : State) (c : NCmd), (s.live) ∧ (s.dev.admitsUp c true false false = true) ∧ (s.dev.hostActivity.isOperating = true) :=
  ⟨W.st W.cmd, W.adm 1, (by decide), (by decide), (by decide)⟩
theorem wit_AdminCommandsComplete_10 : ∃ (s : State) (c : NCmd), (s.live) ∧ (s.dev.admitsUp c true false false = true) ∧ (s.dev.hostActivity.isOperating = true) :=
  ⟨W.st W.cmd, W.adm 1, (by decide), (by decide), (by decide)⟩
theorem wit_AdminCommandsComplete_11 : ∃ (s : State) (c : NCmd) (ok : Bool), (s.live) ∧ (s.dev.admitsUp c true false false = true) ∧ (s.dev.hostActivity.mode.selfTest = none) :=
  ⟨W.st W.cmd, W.adm 1, true, (by decide), (by decide), (by decide)⟩
theorem wit_AdminCommandsComplete_12 : ∃ (s : State) (c : NCmd), (s.live) ∧ (s.dev.admitsUp c true false false = true) ∧ (s.dev.hostActivity.mode.selfTest = none) ∧ (s.dev.hostActivity.isOperating = true) :=
  ⟨W.st W.cmd, W.adm 1, (by decide), (by decide), (by decide), (by decide)⟩
theorem wit_AdminCommandsComplete_13 : ∃ (s : State) (c : NCmd) (t : SelfTest), (s.live) ∧ (s.dev.admitsUp c true false false = true) ∧ (s.dev.hostActivity.mode.selfTest = some t) :=
  ⟨W.st (fun d => { W.cmd d with mode := { (W.cmd d).mode with selfTest := some { extended := true, quads := [], slice := 3, abort := false, failed := none } } }), W.adm 0, { extended := true, quads := [], slice := 3, abort := false, failed := none }, (by decide), (by decide), (by decide)⟩
theorem wit_AdminCommandsComplete_14 : ∃ (s : State) (c : NCmd), (s.live) ∧ (s.dev.admitsUp c true false false = true) ∧ (s.dev.hostActivity.mode.selfTest = none) :=
  ⟨W.st W.cmd, W.adm 0, (by decide), (by decide), (by decide)⟩
theorem wit_AdminCommandsComplete_15 : ∃ (s : State) (c : NCmd) (anchor : Nat) (t : AnchorTok), (s.live) ∧ (s.dev.admitsUp c true false false = true) ∧ (prpFits c 256 false = true) ∧ (s.dev.hostActivity.tokenGood t true = true) ∧ (t.anchor = anchor) :=
  ⟨W.st (fun d => W.memb (W.cmd d)), W.adm 0, 1, W.tok, (by decide), (by decide), (by decide), (by have h : (W.st fun d => W.memb (W.cmd d)).dev.hostActivity.clu.tokens = 0 := rfl; simp [Dev.tokenGood, Dev.cluNonce, W.tok, h]; decide), (by decide)⟩
theorem wit_AdminCommandsComplete_16 : ∃ (s : State) (c : NCmd) (len : Nat) (g : Machine.Graft) (x : Segment), (s.live) ∧ (s.dev.admitsUp c true false false = true) ∧ (¬(len < 1024 ∨ 65536 < len)) ∧ (prpFits c len false = true) ∧ (g.hdr.length = len) ∧ (s.dev.hostActivity.graftFail g = none) ∧ (g.seg = some x) :=
  ⟨W.st W.grf, W.adm 0, 1024, W.graft, W.seg0, (by decide), (by decide), (by decide), (by decide), (by decide), (by decide), (by decide)⟩
theorem wit_AdminCommandsComplete_17 : ∃ (s : State) (c : NCmd) (off len : Nat) (o : Machine.Object), (s.live) ∧ (s.dev.admitsUp c true true false = true) ∧ (off % 4096 = 0) ∧ (len % 4096 = 0) ∧ (len ≠ 0) ∧ (prpFits c len false = true) :=
  ⟨W.st W.cmd, W.adm 1, 4096, 4096, .firmware { hdr := W.hdr 0, rev := 1 }, (by decide), (by decide), (by decide), (by decide), (by decide), (by decide)⟩
theorem wit_AdminCommandsComplete_18 : ∃ (s : State) (c : NCmd) (fs ca : Nat) (k : Nat) (x : Dev) (i : FwImage), (s.live) ∧ (s.dev.admitsUp c true true false = true) ∧ (ca ≤ 2) ∧ ((match s.dev.hostActivity.boot.whole with
          | some (.stream _) => false
          | _ => true) = true ∨ ca = 2) ∧ (¬(3 < fs ∨ (fs = 0 ∧ ca = 2))) ∧ (s.dev.hostActivity.commitSlot fs = (k, x)) ∧ (x.commitImage k ca = some i) ∧ (x.fwRefusal i = none) :=
  ⟨W.st W.dlf, W.adm 1, 3, 1, 3, (W.st W.dlf).dev.hostActivity, { hdr := W.hdr 0, rev := 1 }, (by decide), (by decide), (by decide), (by decide), (by decide), (by rfl), (by rfl), (by decide)⟩
theorem wit_AdminCommandsComplete_19 : ∃ (s : State) (c : NCmd) (fs : Nat) (k : Nat) (x : Dev) (i : FwImage), (s.live) ∧ (s.dev.admitsUp c true true false = true) ∧ ((match s.dev.hostActivity.boot.whole with
          | some (.stream _) => false
          | _ => true) = true) ∧ (fs ≤ 3) ∧ (s.dev.hostActivity.commitSlot fs = (k, x)) ∧ (x.commitImage k 3 = some i) ∧ (x.fwRefusal i = none) :=
  ⟨W.st W.dlf, W.adm 1, 3, 3, (W.st W.dlf).dev.hostActivity, { hdr := W.hdr 0, rev := 1 }, (by decide), (by decide), (by decide), (by decide), (by rfl), (by rfl), (by decide)⟩
theorem wit_AdminCommandsComplete_20 : ∃ (s : State) (c : NCmd) (ca : Nat) (x : Stream), (s.live) ∧ (s.dev.admitsUp c true true false = true) ∧ (ca ≤ 1) ∧ (s.dev.hostActivity.boot.whole = some (.stream x)) ∧ (s.dev.hostActivity.streamFail x = none) :=
  ⟨W.st W.dls, W.adm 1, 1, W.strm0, (by decide), (by decide), (by decide), (by decide), (by decide)⟩
theorem wit_AdminCommandsComplete_21 : ∃ (s : State) (us : Nat) (a : ActDrain), (s.live) ∧ (s.dev.host.drain = some a) ∧ (¬(¬s.dev.drained a.id = true ∨ 1500000 < us)) :=
  ⟨W.st (fun d => { W.up d with host := { d.host with drain := some { id := ⟨0, 0, 1⟩, slot := 2, at_ := 0 } } }), 1500000, { id := ⟨0, 0, 1⟩, slot := 2, at_ := 0 }, (by decide), (by decide), (by decide)⟩
theorem wit_AdminCommandsComplete_22 : ∃ (s : State) (us : Nat) (a : ActDrain), (s.live) ∧ (s.dev.host.drain = some a) :=
  ⟨W.st (fun d => { W.up d with host := { d.host with drain := some { id := ⟨0, 0, 1⟩, slot := 2, at_ := 0 } } }), 1500001, { id := ⟨0, 0, 1⟩, slot := 2, at_ := 0 }, (by decide), (by decide)⟩
theorem wit_AdminCommandsComplete_23 : ∃ (s : State) (c : NCmd) (secp spsp al : Nat), (s.live) ∧ (s.dev.admitsUp c false true false = true) ∧ (prpFits c al true = true) ∧ (secp = 0) ∧ (spsp = 0) :=
  ⟨W.st W.msg, W.adm 0, 0, 0, 4096, (by decide), (by decide), (by decide), (by decide), (by decide)⟩
theorem wit_AdminCommandsComplete_24 : ∃ (s : State) (c : NCmd) (secp spsp al : Nat), (s.live) ∧ (s.dev.admitsUp c false true false = true) ∧ (prpFits c al true = true) ∧ (secp = 0xF0) ∧ (spsp = 1) ∧ (s.dev.hostActivity.boot.msgs.find? (fun x => x.plot == c.id.plot) = none) :=
  ⟨W.st W.cmd, W.adm 0, 0xF0, 1, 4096, (by decide), (by decide), (by decide), (by decide), (by decide), (by decide)⟩
theorem wit_AdminCommandsComplete_25 : ∃ (s : State) (c : NCmd) (secp spsp al : Nat) (m : HalwMsg), (s.live) ∧ (s.dev.admitsUp c false true false = true) ∧ (prpFits c al true = true) ∧ (secp = 0xF0) ∧ (spsp = 1) ∧ (s.dev.hostActivity.boot.msgs.find? (fun x => x.plot == c.id.plot) = some m) ∧ (m.ready = false) :=
  ⟨W.st (fun d => { W.cmd d with boot := { d.boot with msgs := [{ W.hmsg with ready := false }] } }), W.adm 0, 0xF0, 1, 4096, { W.hmsg with ready := false }, (by decide), (by decide), (by decide), (by decide), (by decide), (by rfl), (by decide)⟩
theorem wit_AdminCommandsComplete_26 : ∃ (s : State) (c : NCmd) (secp spsp al : Nat) (m : HalwMsg), (s.live) ∧ (s.dev.admitsUp c false true false = true) ∧ (prpFits c al true = true) ∧ (secp = 0xF0) ∧ (spsp = 1) ∧ (s.dev.hostActivity.boot.msgs.find? (fun x => x.plot == c.id.plot) = some m) ∧ (m.ready = true) :=
  ⟨W.st W.msg, W.adm 0, 0xF0, 1, 4096, W.hmsg, (by decide), (by decide), (by decide), (by decide), (by decide), (by rfl), (by decide)⟩
theorem wit_IoCommandsComplete_0 : ∃ (s : State) (c : NCmd), (s.live) ∧ (c.nsid = 0xFFFFFFFF) ∧ (s.dev.outstanding c.id = true) ∧ (c.rsvd = false) ∧ (s.dev.hostActivity.f F.TOP_MODE_MODE ≠ 0xA) ∧ (s.dev.hostActivity.f F.TOP_MODE_MODE ≠ 1) ∧ (s.dev.hostActivity.f F.TOP_MODE_MODE ≠ 3) :=
  ⟨W.st W.cmd, W.ioc 0xFFFFFFFF, (by decide), (by decide), (by decide), (by decide), (by decide), (by decide), (by decide)⟩
theorem wit_IoCommandsComplete_1 : ∃ (s : State) (c : NCmd) (n : Ns), (s.live) ∧ (c.nsid ≠ 0xFFFFFFFF) ∧ (s.dev.admitsIo c false .write n = true) ∧ (s.dev.hostActivity.mustWait n [] = false) :=
  ⟨W.st W.cmd, W.ioc 1, W.rns Resv.init, (by decide), (by decide), (by decide), (by decide)⟩
theorem wit_IoCommandsComplete_2 : ∃ (s : State) (c : NCmd) (slba : Nat) (data : List (Nat × Nat)) (pi : PiCmd) (bs : List (Nat × Nat)) (n : Ns) (y : Dev), (s.live) ∧ (data ≠ []) ∧ (s.dev.admitsIo c true .write n = true) ∧ (s.dev.hostActivity.mustWait n [(slba, data.length)] = false) ∧ (n.within [(slba, data.length)] = true) ∧ (n.piIn pi slba data = .inl bs) ∧ (dataFits c (n.moves pi.pract data.length) false = true) ∧ (s.dev.hostActivity.overCap n (({ slba := slba, nlb := data.length, kind := .data bs } : WPiece).stores n) = false) ∧ ((s.dev.hostActivity.countWrite c.id.plot n data.length).spent.contains n.nsid = false) ∧ (n.cluster = none) ∧ ((s.dev.hostActivity.countWrite c.id.plot n data.length).ftl.held = []) ∧ (Dev.commitPieces c.id.plot n ((s.dev.hostActivity.countWrite c.id.plot n data.length).cut n ({ slba := slba, nlb := data.length, kind := .data bs } : WPiece)) (s.dev.hostActivity.countWrite c.id.plot n data.length) = (y, [])) :=
  ⟨W.st W.cmd, W.ioc 1, 4, [(5, 0)], ⟨false, 0, 0, 0, 0⟩, [(5, 0)], W.rns Resv.init, (Dev.commitPieces 0 (W.rns Resv.init) (((W.st W.cmd).dev.hostActivity.countWrite 0 (W.rns Resv.init) 1).cut (W.rns Resv.init) { slba := 4, nlb := 1, kind := .data [(5, 0)] }) ((W.st W.cmd).dev.hostActivity.countWrite 0 (W.rns Resv.init) 1)).1, (by decide), (by decide), (by decide), (by decide), (by decide), (by decide +kernel), (by decide), (by decide), (by decide), (by decide), (by decide), (by exact Prod.ext rfl (by decide +kernel))⟩
theorem wit_IoCommandsComplete_3 : ∃ (s : State) (c : NCmd) (slba : Nat) (data : List (Nat × Nat)) (pi : PiCmd) (bs : List (Nat × Nat)) (n : Ns), (s.live) ∧ (data ≠ []) ∧ (s.dev.admitsIo c true .write n = true) ∧ (s.dev.hostActivity.mustWait n [(slba, data.length)] = false) ∧ (n.within [(slba, data.length)] = true) ∧ (n.piIn pi slba data = .inl bs) ∧ (dataFits c (n.moves pi.pract data.length) false = true) ∧ (s.dev.hostActivity.overCap n (({ slba := slba, nlb := data.length, kind := .data bs } : WPiece).stores n) = false) ∧ ((s.dev.hostActivity.countWrite c.id.plot n data.length).spent.contains n.nsid = false) :=
  ⟨W.st W.cmd, W.ioc 1, 4, [(5, 0)], ⟨false, 0, 0, 0, 0⟩, [(5, 0)], W.rns Resv.init, (by decide), (by decide), (by decide), (by decide), (by decide), (by decide +kernel), (by decide), (by decide), (by decide)⟩
theorem wit_IoCommandsComplete_4 : ∃ (s : State) (c : NCmd) (slba : Nat) (data : List (Nat × Nat)) (pi : PiCmd) (st : Sc) (n : Ns), (s.live) ∧ (data ≠ []) ∧ (s.dev.admitsIo c true .write n = true) ∧ (s.dev.hostActivity.mustWait n [(slba, data.length)] = false) ∧ (n.within [(slba, data.length)] = true) ∧ (n.piIn pi slba data = .inr st) ∧ (dataFits c (n.moves pi.pract data.length) false = true) ∧ (s.dev.hostActivity.overCap n (({ slba := slba, nlb := data.length, kind := .data data } : WPiece).stores n) = false) :=
  ⟨W.st (fun d => { W.cmd d with md := { (W.cmd d).md with nss := [{ W.rns Resv.init with lbaf := 1, pi := 1 }] } }), W.ioc 1, 4, [(5, 0)], ⟨false, 1, 4, 0, 0⟩, .referenceTagCheckError, { W.rns Resv.init with lbaf := 1, pi := 1 }, (by decide), (by decide), (by decide), (by decide), (by decide), (by decide +kernel), (by decide), (by decide)⟩
theorem wit_IoCommandsComplete_5 : ∃ (s : State) (c : NCmd) (slba nlb : Nat)  (n : Ns) (y : Dev), (s.live) ∧ (nlb ≠ 0) ∧ (s.dev.admitsIo c true .write n = true) ∧ (s.dev.hostActivity.mustWait n [(slba, nlb)] = false) ∧ (n.within [(slba, nlb)] = true) ∧ (s.dev.hostActivity.overCap n (({ slba := slba, nlb := nlb, kind := .uncorrectable } : WPiece).stores n) = false) ∧ (s.dev.hostActivity.spent.contains n.nsid = false) ∧ (n.cluster = none) ∧ (s.dev.hostActivity.ftl.held = []) ∧ (Dev.commitPieces c.id.plot n (s.dev.hostActivity.cut n ({ slba := slba, nlb := nlb, kind := .uncorrectable } : WPiece)) s.dev.hostActivity = (y, [])) :=
  ⟨W.st W.cmd, W.ioc 1, 4, 1, W.rns Resv.init, (Dev.commitPieces 0 (W.rns Resv.init) ((W.st W.cmd).dev.hostActivity.cut (W.rns Resv.init) { slba := 4, nlb := 1, kind := .uncorrectable }) (W.st W.cmd).dev.hostActivity).1, (by decide), (by decide), (by decide), (by decide), (by decide), (by decide), (by decide), (by decide), (by decide), (by exact Prod.ext rfl (by decide +kernel))⟩
theorem wit_IoCommandsComplete_6 : ∃ (s : State) (c : NCmd) (slba nlb : Nat)  (n : Ns), (s.live) ∧ (nlb ≠ 0) ∧ (s.dev.admitsIo c true .write n = true) ∧ (s.dev.hostActivity.mustWait n [(slba, nlb)] = false) ∧ (n.within [(slba, nlb)] = true) ∧ (s.dev.hostActivity.overCap n (({ slba := slba, nlb := nlb, kind := .uncorrectable } : WPiece).stores n) = false) ∧ (s.dev.hostActivity.spent.contains n.nsid = false) :=
  ⟨W.st W.cmd, W.ioc 1, 4, 1, W.rns Resv.init, (by decide), (by decide), (by decide), (by decide), (by decide), (by decide +kernel), (by decide)⟩
theorem wit_IoCommandsComplete_7 : ∃ (s : State) (c : NCmd) (slba nlb : Nat) (deac : Bool)  (n : Ns) (y : Dev), (s.live) ∧ (nlb ≠ 0) ∧ (s.dev.admitsIo c true .write n = true) ∧ (s.dev.hostActivity.mustWait n [(slba, nlb)] = false) ∧ (n.within [(slba, nlb)] = true) ∧ (s.dev.hostActivity.overCap n (({ slba := slba, nlb := nlb, kind := (if deac then .deallocate else .zeroes) } : WPiece).stores n) = false) ∧ (s.dev.hostActivity.spent.contains n.nsid = false) ∧ (n.cluster = none) ∧ (s.dev.hostActivity.ftl.held = []) ∧ (Dev.commitPieces c.id.plot n (s.dev.hostActivity.cut n ({ slba := slba, nlb := nlb, kind := (if deac then .deallocate else .zeroes) } : WPiece)) s.dev.hostActivity = (y, [])) :=
  ⟨W.st W.cmd, W.ioc 1, 4095, 1, true, W.rns Resv.init, (Dev.commitPieces 0 (W.rns Resv.init) ((W.st W.cmd).dev.hostActivity.cut (W.rns Resv.init) { slba := 4095, nlb := 1, kind := .deallocate }) (W.st W.cmd).dev.hostActivity).1, (by decide), (by decide), (by decide), (by decide), (by decide), (by decide), (by decide), (by decide), (by decide), (by exact Prod.ext rfl (by decide +kernel))⟩
theorem wit_IoCommandsComplete_8 : ∃ (s : State) (c : NCmd) (slba nlb : Nat) (deac : Bool)  (n : Ns), (s.live) ∧ (nlb ≠ 0) ∧ (s.dev.admitsIo c true .write n = true) ∧ (s.dev.hostActivity.mustWait n [(slba, nlb)] = false) ∧ (n.within [(slba, nlb)] = true) ∧ (s.dev.hostActivity.overCap n (({ slba := slba, nlb := nlb, kind := (if deac then .deallocate else .zeroes) } : WPiece).stores n) = false) ∧ (s.dev.hostActivity.spent.contains n.nsid = false) :=
  ⟨W.st W.cmd, W.ioc 1, 4095, 1, true, W.rns Resv.init, (by decide), (by decide), (by decide), (by decide), (by decide), (by decide +kernel), (by decide)⟩
theorem wit_IoCommandsComplete_11 : ∃ (s : State) (w : HeldWrite) (rest : List HeldWrite) (n : Ns), (s.live) ∧ (s.dev.ftl.held = w :: rest) ∧ (({ s.dev with ftl := { s.dev.ftl with held := rest } } : Dev).ns? w.nsid = some n) ∧ (({ s.dev with ftl := { s.dev.ftl with held := rest } } : Dev).flag F.TOP_MODE_CRO = false) ∧ (({ s.dev with ftl := { s.dev.ftl with held := rest } } : Dev).overCap n ((w.pieces.flatMap (fun x => x.stores n)).eraseDups) = false) :=
  ⟨W.st (fun d => { W.cmd d with ftl := { d.ftl with held := [{ id := ⟨0, 1, 1⟩, nsid := 1, pieces := [] }] } }), { id := ⟨0, 1, 1⟩, nsid := 1, pieces := [] }, [], W.rns Resv.init, (by decide), (by decide), (by decide), (by decide), (by decide)⟩
theorem wit_IoCommandsComplete_12 : ∃ (s : State) (c : NCmd) (slba nlb : Nat) (pi : PiCmd) (n : Ns), (s.live) ∧ (nlb ≠ 0) ∧ (s.dev.admitsIo c false .read n = true) ∧ (s.dev.hostActivity.mustWait n [(slba, nlb)] = false) ∧ (n.within [(slba, nlb)] = true) ∧ (dataFits c (n.moves pi.pract nlb) true = true) ∧ (n.pi = 0 ∨ piOk n.pi pi slba = true) ∧ (s.dev.hostActivity.mapHeld n slba nlb = false) :=
  ⟨W.st W.cmd, W.ioc 1, 4095, 1, ⟨false, 0, 0, 0, 0⟩, W.rns Resv.init, (by decide), (by decide), (by decide), (by decide), (by decide), (by decide), (by decide), (by decide)⟩
theorem wit_IoCommandsComplete_13 : ∃ (s : State) (c : NCmd) (slba nlb : Nat) (pi : PiCmd) (n : Ns), (s.live) ∧ (nlb ≠ 0) ∧ (s.dev.admitsIo c false .read n = true) ∧ (s.dev.hostActivity.mustWait n [(slba, nlb)] = false) ∧ (n.within [(slba, nlb)] = true) ∧ (n.pi = 0 ∨ piOk n.pi pi slba = true) ∧ (s.dev.hostActivity.mapHeld n slba nlb = false) :=
  ⟨W.st W.cmd, W.ioc 1, 4095, 1, ⟨false, 0, 0, 0, 0⟩, W.rns Resv.init, (by decide), (by decide), (by decide), (by decide), (by decide), (by decide), (by decide)⟩
theorem wit_IoCommandsComplete_14 : ∃ (s : State) (c : NCmd) (slba : Nat) (data : List (Nat × Nat)) (pi : PiCmd) (n : Ns), (s.live) ∧ (data ≠ []) ∧ (s.dev.admitsIo c false .read n = true) ∧ (s.dev.hostActivity.mustWait n [(slba, data.length)] = false) ∧ (n.within [(slba, data.length)] = true) ∧ (dataFits c (n.moves pi.pract data.length) false = true) ∧ (n.pi = 0 ∨ piOk n.pi pi slba = true) ∧ (s.dev.hostActivity.mapHeld n slba data.length = false) :=
  ⟨W.st W.cmd, W.ioc 1, 4095, [(9, 0)], ⟨false, 0, 0, 0, 0⟩, W.rns Resv.init, (by decide), (by decide), (by decide), (by decide), (by decide), (by decide), (by decide), (by decide)⟩
theorem wit_IoCommandsComplete_15 : ∃ (s : State) (c : NCmd) (ad : Bool) (ranges : List (Nat × Nat)) (n : Ns), (s.live) ∧ (s.dev.admitsIo c ad .write n = true) ∧ (s.dev.hostActivity.mustWait n (ranges.filter (fun r => decide (0 < r.2))) = false) ∧ (n.within (ranges.filter (fun r => decide (0 < r.2))) = true) ∧ ((ad && s.dev.hostActivity.overCap n ((((ranges.filter (fun r => decide (0 < r.2))).map (fun r => ({ slba := r.1, nlb := r.2, kind := .deallocate } : WPiece))).flatMap (fun x => x.stores n)).eraseDups)) = false) ∧ (dataFits c (16 * ranges.length) false = true) ∧ (¬ad = true ∨ (ranges.filter (fun r => decide (0 < r.2))).isEmpty = true) :=
  ⟨W.st W.cmd, W.ioc 1, false, [(0, 8)], W.rns Resv.init, (by decide), (by decide), (by decide), (by decide), (by decide), (by decide), (by decide)⟩
theorem wit_IoCommandsComplete_16 : ∃ (s : State) (c : NCmd) (ranges : List (Nat × Nat)) (n : Ns) (y : Dev), (s.live) ∧ (s.dev.admitsIo c true .write n = true) ∧ (s.dev.hostActivity.mustWait n (ranges.filter (fun r => decide (0 < r.2))) = false) ∧ (n.within (ranges.filter (fun r => decide (0 < r.2))) = true) ∧ ((true && s.dev.hostActivity.overCap n ((((ranges.filter (fun r => decide (0 < r.2))).map (fun r => ({ slba := r.1, nlb := r.2, kind := .deallocate } : WPiece))).flatMap (fun x => x.stores n)).eraseDups)) = false) ∧ (dataFits c (16 * ranges.length) false = true) ∧ ((ranges.filter (fun r => decide (0 < r.2))) ≠ []) ∧ (n.cluster = none) ∧ (s.dev.hostActivity.ftl.held = []) ∧ (Dev.commitPieces c.id.plot n (((ranges.filter (fun r => decide (0 < r.2))).map (fun r => ({ slba := r.1, nlb := r.2, kind := .deallocate } : WPiece))).flatMap (s.dev.hostActivity.cut n)) s.dev.hostActivity = (y, [])) :=
  ⟨W.st W.cmd, W.ioc 1, [(0, 8)], W.rns Resv.init, (Dev.commitPieces 0 (W.rns Resv.init) ((W.st W.cmd).dev.hostActivity.cut (W.rns Resv.init) { slba := 0, nlb := 8, kind := .deallocate }) (W.st W.cmd).dev.hostActivity).1, (by decide), (by decide), (by decide), (by decide), (by decide), (by decide), (by decide), (by decide), (by decide), (by exact Prod.ext rfl (by decide +kernel))⟩
theorem wit_IoCommandsComplete_17 : ∃ (s : State) (c : NCmd) (ranges : List (Nat × Nat)) (n : Ns), (s.live) ∧ (s.dev.admitsIo c true .write n = true) ∧ (s.dev.hostActivity.mustWait n (ranges.filter (fun r => decide (0 < r.2))) = false) ∧ (n.within (ranges.filter (fun r => decide (0 < r.2))) = true) ∧ ((true && s.dev.hostActivity.overCap n ((((ranges.filter (fun r => decide (0 < r.2))).map (fun r => ({ slba := r.1, nlb := r.2, kind := .deallocate } : WPiece))).flatMap (fun x => x.stores n)).eraseDups)) = false) ∧ (dataFits c (16 * ranges.length) false = true) ∧ ((ranges.filter (fun r => decide (0 < r.2))) ≠ []) :=
  ⟨W.st W.cmd, W.ioc 1, [(0, 8)], W.rns Resv.init, (by decide), (by decide), (by decide), (by decide), (by decide), (by decide), (by decide)⟩
theorem wit_IoCommandsComplete_18 : ∃ (s : State) (c : NCmd) (slba : Nat) (ranges : List (Nat × Nat)) (pr pw : PiCmd) (n : Ns) (bs : List (Nat × Nat × BlkMark)) (y : Dev), (s.live) ∧ ((ranges.map Prod.snd).sum ≠ 0) ∧ (ranges.any (fun r => r.2 == 0) = false) ∧ (s.dev.admitsIo c true .write n = true) ∧ (n.resv.bars c.id.plot .read = false) ∧ (s.dev.hostActivity.mustWait n ranges = false) ∧ (n.within ranges = true) ∧ (((ranges.flatMap (fun r => (List.range r.2).map (fun i => ((s.dev.hostActivity.iuBlocksNow n ((r.1 + i) / n.iuBlocks))[(r.1 + i) % n.iuBlocks]?).getD (0, .poisoned)))).zipIdx.map (fun b => n.copyBlock pr pw b.2 b.1)).filterMap Sum.getLeft? = bs) ∧ (s.dev.hostActivity.mustWait n [(slba, (ranges.map Prod.snd).sum)] = false) ∧ (n.within [(slba, (ranges.map Prod.snd).sum)] = true) ∧ (s.dev.hostActivity.overCap n (({ slba := slba, nlb := (ranges.map Prod.snd).sum, kind := .copied bs } : WPiece).stores n) = false) ∧ (dataFits c (32 * ranges.length) false = true) ∧ ((decide (128 < ranges.length) || ranges.any (fun r => decide (4096 < r.2)) || decide (16384 < (ranges.map Prod.snd).sum)) = false) ∧ (ranges.any (fun r => s.dev.hostActivity.mapHeld n r.1 r.2) = false) ∧ (s.dev.hostActivity.spent.contains n.nsid = false) ∧ (n.cluster = none) ∧ (((ranges.flatMap (fun r => (List.range r.2).map (fun i => ((s.dev.hostActivity.iuBlocksNow n ((r.1 + i) / n.iuBlocks))[(r.1 + i) % n.iuBlocks]?).getD (0, .poisoned)))).zipIdx.map (fun b => n.copyBlock pr pw b.2 b.1)).filterMap Sum.getRight? = []) ∧ (s.dev.hostActivity.ftl.held = []) ∧ (Dev.commitPieces c.id.plot n (s.dev.hostActivity.cut n ({ slba := slba, nlb := (ranges.map Prod.snd).sum, kind := .copied bs } : WPiece)) s.dev.hostActivity = (y, [])) :=
  ⟨W.st W.cmd, W.ioc 1, 8, [(0, 1)], ⟨false, 0, 0, 0, 0⟩, ⟨false, 0, 0, 0, 0⟩, W.rns Resv.init, [(0, 0, .good)], (Dev.commitPieces 0 (W.rns Resv.init) ((W.st W.cmd).dev.hostActivity.cut (W.rns Resv.init) { slba := 8, nlb := 1, kind := .copied [(0, 0, .good)] }) (W.st W.cmd).dev.hostActivity).1, (by decide), (by decide), (by decide), (by decide), (by decide), (by decide), (by decide), (by decide +kernel), (by decide), (by decide), (by decide +kernel), (by decide), (by decide), (by decide), (by decide), (by decide), (by decide +kernel), (by decide), (by exact Prod.ext rfl (by decide +kernel))⟩
theorem wit_IoCommandsComplete_19 : ∃ (s : State) (c : NCmd) (slba : Nat) (ranges : List (Nat × Nat)) (pr pw : PiCmd) (n : Ns) (bs : List (Nat × Nat × BlkMark)) (g : ClusterGeom), (s.live) ∧ ((ranges.map Prod.snd).sum ≠ 0) ∧ (ranges.any (fun r => r.2 == 0) = false) ∧ (s.dev.admitsIo c true .write n = true) ∧ (n.resv.bars c.id.plot .read = false) ∧ (s.dev.hostActivity.mustWait n ranges = false) ∧ (n.within ranges = true) ∧ (((ranges.flatMap (fun r => (List.range r.2).map (fun i => ((s.dev.hostActivity.iuBlocksNow n ((r.1 + i) / n.iuBlocks))[(r.1 + i) % n.iuBlocks]?).getD (0, .poisoned)))).zipIdx.map (fun b => n.copyBlock pr pw b.2 b.1)).filterMap Sum.getLeft? = bs) ∧ (s.dev.hostActivity.mustWait n [(slba, (ranges.map Prod.snd).sum)] = false) ∧ (n.within [(slba, (ranges.map Prod.snd).sum)] = true) ∧ (s.dev.hostActivity.overCap n (({ slba := slba, nlb := (ranges.map Prod.snd).sum, kind := .copied bs } : WPiece).stores n) = false) ∧ (dataFits c (32 * ranges.length) false = true) ∧ ((decide (128 < ranges.length) || ranges.any (fun r => decide (4096 < r.2)) || decide (16384 < (ranges.map Prod.snd).sum)) = false) ∧ (ranges.any (fun r => s.dev.hostActivity.mapHeld n r.1 r.2) = false) ∧ (s.dev.hostActivity.spent.contains n.nsid = false) ∧ (n.cluster = some g) :=
  ⟨W.st W.clu, W.ioc 1, 8, [(0, 1)], ⟨false, 0, 0, 0, 0⟩, ⟨false, 0, 0, 0, 0⟩, W.cns, [(0, 0, .good)], ⟨4, 1⟩, (by decide), (by decide), (by decide), (by decide), (by decide), (by decide), (by decide), (by decide +kernel), (by decide), (by decide), (by decide +kernel), (by decide), (by decide), (by decide), (by decide), (by decide)⟩
theorem wit_IoCommandsComplete_20 : ∃ (s : State) (c : NCmd) (slba : Nat) (ranges : List (Nat × Nat)) (pr pw : PiCmd) (n : Ns) (bs : List (Nat × Nat × BlkMark)), (s.live) ∧ ((ranges.map Prod.snd).sum ≠ 0) ∧ (ranges.any (fun r => r.2 == 0) = false) ∧ (s.dev.admitsIo c true .write n = true) ∧ (n.resv.bars c.id.plot .read = false) ∧ (s.dev.hostActivity.mustWait n ranges = false) ∧ (n.within ranges = true) ∧ (((ranges.flatMap (fun r => (List.range r.2).map (fun i => ((s.dev.hostActivity.iuBlocksNow n ((r.1 + i) / n.iuBlocks))[(r.1 + i) % n.iuBlocks]?).getD (0, .poisoned)))).zipIdx.map (fun b => n.copyBlock pr pw b.2 b.1)).filterMap Sum.getLeft? = bs) ∧ (s.dev.hostActivity.mustWait n [(slba, (ranges.map Prod.snd).sum)] = false) ∧ (n.within [(slba, (ranges.map Prod.snd).sum)] = true) ∧ (s.dev.hostActivity.overCap n (({ slba := slba, nlb := (ranges.map Prod.snd).sum, kind := .copied bs } : WPiece).stores n) = false) ∧ (dataFits c (32 * ranges.length) false = true) ∧ (128 < ranges.length ∨ ranges.any (fun r => decide (4096 < r.2)) = true ∨ 16384 < (ranges.map Prod.snd).sum) :=
  ⟨W.st W.cmd, W.ioc 1, 8, List.replicate 129 (0, 1), ⟨false, 0, 0, 0, 0⟩, ⟨false, 0, 0, 0, 0⟩, W.rns Resv.init, List.replicate 129 (0, 0, .good), (by decide), (by decide), (by decide), (by decide), (by decide), (by decide), (by decide), (by decide +kernel), (by decide), (by decide), (by decide +kernel), (by decide), (by decide)⟩
theorem wit_ReservationsComplete_0 : ∃ (s : State) (c : NCmd) (iekey : Bool) (cptpl crkey nrkey : Nat) (n : Ns), (s.live) ∧ (s.dev.admitsIo c false .none n = true) ∧ (dataFits c 16 false = true) ∧ (AMap.find c.id.plot n.resv.regs = none) :=
  ⟨W.resv ((Resv.init)), W.ioc 1, false, 3, 0, 7, W.rns ((Resv.init)), (by decide), (by decide), (by decide), (by decide)⟩
theorem wit_ReservationsComplete_1 : ∃ (s : State) (c : NCmd) (iekey : Bool) (cptpl crkey nrkey : Nat) (n : Ns), (s.live) ∧ (s.dev.admitsIo c false .none n = true) ∧ (dataFits c 16 false = true) ∧ (AMap.find c.id.plot n.resv.regs = some nrkey) :=
  ⟨W.resv ({ Resv.init with regs := [(0, 7)] }), W.ioc 1, false, 0, 0, 7, W.rns ({ Resv.init with regs := [(0, 7)] }), (by decide), (by decide), (by decide), (by decide)⟩
theorem wit_ReservationsComplete_2 : ∃ (s : State) (c : NCmd) (iekey : Bool) (cptpl crkey nrkey : Nat) (k : Nat) (n : Ns), (s.live) ∧ (s.dev.admitsIo c false .none n = true) ∧ (dataFits c 16 false = true) ∧ (AMap.find c.id.plot n.resv.regs = some k) ∧ (k = crkey ∨ iekey = true) :=
  ⟨W.resv ({ Resv.init with regs := [(0, 7)] }), W.ioc 1, false, 0, 7, 0, 7, W.rns ({ Resv.init with regs := [(0, 7)] }), (by decide), (by decide), (by decide), (by decide), (by decide)⟩
theorem wit_ReservationsComplete_3 : ∃ (s : State) (c : NCmd) (iekey : Bool) (cptpl crkey nrkey : Nat) (o : Option Nat) (n : Ns), (s.live) ∧ (s.dev.admitsIo c false .none n = true) ∧ (dataFits c 16 false = true) ∧ (o = AMap.find c.id.plot n.resv.regs) ∧ (iekey = true ∨ o = some crkey) :=
  ⟨W.resv ({ Resv.init with regs := [(0, 7)] }), W.ioc 1, false, 2, 7, 8, some 7, W.rns ({ Resv.init with regs := [(0, 7)] }), (by decide), (by decide), (by decide), (by decide), (by decide)⟩
theorem wit_ReservationsComplete_4 : ∃ (s : State) (c : NCmd) (len : Nat) (n : Ns), (s.live) ∧ (s.dev.admitsIo c false .none n = true) ∧ (dataFits c len true = true) :=
  ⟨W.resv ({ Resv.init with regs := [(0, 7)] }), W.ioc 1, 24, W.rns ({ Resv.init with regs := [(0, 7)] }), (by decide), (by decide), (by decide)⟩
theorem wit_ReservationsComplete_5 : ∃ (s : State) (c : NCmd) (rtype crkey prkey : Nat) (n : Ns), (s.live) ∧ (s.dev.admitsIo c false .none n = true) ∧ (dataFits c 16 false = true) ∧ (¬(rtype < 1)) ∧ (¬(6 < rtype)) ∧ (AMap.find c.id.plot n.resv.regs = some crkey) ∧ (n.resv.rtype = 0) :=
  ⟨W.resv ({ Resv.init with regs := [(0, 7)] }), W.ioc 1, 6, 7, 0, W.rns ({ Resv.init with regs := [(0, 7)] }), (by decide), (by decide), (by decide), (by decide), (by decide), (by decide), (by decide)⟩
theorem wit_ReservationsComplete_6 : ∃ (s : State) (c : NCmd) (rtype crkey prkey : Nat) (n : Ns), (s.live) ∧ (s.dev.admitsIo c false .none n = true) ∧ (dataFits c 16 false = true) ∧ (¬(rtype < 1)) ∧ (¬(6 < rtype)) ∧ (AMap.find c.id.plot n.resv.regs = some crkey) ∧ (n.resv.rtype ≠ 0) :=
  ⟨W.resv ({ Resv.init with regs := [(0, 7)], holder := some 0, rtype := 1 }), W.ioc 1, 6, 7, 0, W.rns ({ Resv.init with regs := [(0, 7)], holder := some 0, rtype := 1 }), (by decide), (by decide), (by decide), (by decide), (by decide), (by decide), (by decide)⟩
theorem wit_ReservationsComplete_7 : ∃ (s : State) (c : NCmd) (racqa rtype : Nat) (iekey : Bool) (crkey prkey : Nat) (takes : Bool) (victims : List Nat) (n : Ns), (s.live) ∧ (s.dev.admitsIo c false .none n = true) ∧ (dataFits c 16 false = true) ∧ (iekey = false) ∧ (racqa = 1 ∨ racqa = 2) ∧ (¬(rtype < 1)) ∧ (¬(6 < rtype)) ∧ (AMap.find c.id.plot n.resv.regs = some crkey) ∧ (takes = (n.resv.rtype != 0 && ((n.resv.shared && prkey == 0) || (!n.resv.shared && (n.resv.holder.bind (fun h => AMap.find h n.resv.regs)) == some prkey)))) ∧ (¬(prkey = 0 ∧ ¬takes = true)) ∧ (victims = (n.resv.regs.filter (fun x => x.1 != c.id.plot && (x.2 == prkey || (takes && n.resv.shared)))).map Prod.fst) ∧ (¬(victims.isEmpty = true ∧ ¬takes = true)) :=
  ⟨W.resv ({ Resv.init with regs := [(0, 7), (3, 9)], holder := some 3, rtype := 1 }), W.ioc 1, 2, 6, false, 7, 9, true, [3], W.rns ({ Resv.init with regs := [(0, 7), (3, 9)], holder := some 3, rtype := 1 }), (by decide), (by decide), (by decide), (by decide), (by decide), (by decide), (by decide), (by decide), (by decide), (by decide), (by decide), (by decide)⟩
theorem wit_ReservationsComplete_8 : ∃ (s : State) (c : NCmd) (rtype crkey : Nat) (n : Ns), (s.live) ∧ (s.dev.admitsIo c false .none n = true) ∧ (dataFits c 8 false = true) ∧ (AMap.find c.id.plot n.resv.regs = some crkey) ∧ (n.resv.holds c.id.plot = true) ∧ (n.resv.rtype = rtype) :=
  ⟨W.resv ({ Resv.init with regs := [(0, 7)], holder := some 0, rtype := 1 }), W.ioc 1, 1, 7, W.rns ({ Resv.init with regs := [(0, 7)], holder := some 0, rtype := 1 }), (by decide), (by decide), (by decide), (by decide), (by decide), (by decide)⟩
theorem wit_ReservationsComplete_9 : ∃ (s : State) (c : NCmd) (rtype crkey : Nat) (n : Ns), (s.live) ∧ (s.dev.admitsIo c false .none n = true) ∧ (dataFits c 8 false = true) ∧ (AMap.find c.id.plot n.resv.regs = some crkey) ∧ (n.resv.holds c.id.plot = false) :=
  ⟨W.resv ({ Resv.init with regs := [(0, 7)] }), W.ioc 1, 1, 7, W.rns ({ Resv.init with regs := [(0, 7)] }), (by decide), (by decide), (by decide), (by decide), (by decide)⟩
theorem wit_ReservationsComplete_10 : ∃ (s : State) (c : NCmd) (rtype crkey : Nat) (n : Ns), (s.live) ∧ (s.dev.admitsIo c false .none n = true) ∧ (dataFits c 8 false = true) ∧ (AMap.find c.id.plot n.resv.regs = some crkey) :=
  ⟨W.resv ({ Resv.init with regs := [(0, 7)], holder := some 0, rtype := 1 }), W.ioc 1, 1, 7, W.rns ({ Resv.init with regs := [(0, 7)], holder := some 0, rtype := 1 }), (by decide), (by decide), (by decide), (by decide)⟩
theorem wit_ComputeCommandsComplete_0 : ∃ (s : State) (c : NCmd) (index set : Nat) (param : List Byte), (s.live) ∧ (s.dev.admitsCompute c computeNsid = true) ∧ (dataFits c param.length false = true) ∧ ((match s.dev.hostActivity.trel.sets.find? (fun z => z.plot == c.id.plot && z.id == set) with
            | some z => set == 0 || (decide (z.gen = s.dev.hostActivity.plotGen c.id.plot) && (paramRanges param).all (fun r => r.2 == 0 || z.holds r))
            | none => set == 0) = true) ∧ (1 ≤ index ∧ index ≤ 8) ∧ (s.dev.hostActivity.prog? c.id.plot index = none) ∧ (¬(index = 2 ∧ ((s.dev.hostActivity.image? c.id.plot (field param 1024 4)).map (fun m => m.gen != s.dev.hostActivity.plotGen c.id.plot)).getD false = true)) :=
  ⟨W.st W.slm, W.ioc 1025, 8, 0, [], (by decide), (by decide), (by decide), (by decide), (by decide), (by decide), (by decide)⟩
theorem wit_ComputeCommandsComplete_1 : ∃ (s : State) (c : NCmd) (index set : Nat) (param : List Byte) (x : LoadedProg), (s.live) ∧ (s.dev.admitsCompute c computeNsid = true) ∧ (dataFits c param.length false = true) ∧ ((match s.dev.hostActivity.trel.sets.find? (fun z => z.plot == c.id.plot && z.id == set) with
            | some z => set == 0 || (decide (z.gen = s.dev.hostActivity.plotGen c.id.plot) && (launchOf param).ranges.all (fun r => r.2 == 0 || z.holds r))
            | none => set == 0) = true) ∧ (8 < index) ∧ (s.dev.hostActivity.prog? c.id.plot index = some x) ∧ (x.gen = s.dev.hostActivity.plotGen c.id.plot) ∧ (x.active = true) ∧ (s.dev.hostActivity.f (F.PLOT_FCORE_CAP c.id.plot) ≠ 0) :=
  ⟨W.st (fun d => { W.slm d with core := { d.core with progs := [{ index := 20, plot := 0, gen := 0, image := [], active := true }] } }), W.ioc 1025, 20, 0, [], { index := 20, plot := 0, gen := 0, image := [], active := true }, (by decide), (by decide), (by decide), (by decide), (by decide), (by decide), (by decide), (by decide), (by decide)⟩
theorem wit_ComputeCommandsComplete_2 : ∃ (s : State) (c : NCmd) (index ptype size off : Nat) (image img : List Byte) (pats : List Rx) (bodyOk sigOk : Bool) (y : Dev), (s.live) ∧ (s.dev.admitsCompute c computeNsid = true) ∧ (dataFits c image.length false = true) ∧ (ptype = 0xE0 ∨ ptype = 0xE1) ∧ (s.dev.hostActivity.loadPiece c.id.plot index ptype size off image = some (img, y)) ∧ (img.length ≠ size) :=
  ⟨W.st W.slm, W.ioc 1025, 21, 0xE0, 4096, 0, [7#8], [7#8], [], true, true, ((W.st W.slm).dev.hostActivity.loadPiece 0 21 0xE0 4096 0 [7#8] |>.getD ([], State.reset.dev)).2, (by decide), (by decide), (by decide), (by decide), (by rfl), (by decide)⟩
theorem wit_ComputeCommandsComplete_3 : ∃ (s : State) (c : NCmd) (index size off : Nat) (image img : List Byte) (pats : List Rx) (bodyOk sigOk : Bool) (y : Dev), (s.live) ∧ (s.dev.admitsCompute c computeNsid = true) ∧ (dataFits c image.length false = true) ∧ (True) ∧ (s.dev.hostActivity.loadPiece c.id.plot index 0xE0 size off image = some (img, y)) ∧ (img.length = size) ∧ (y.indexGen c.id.plot index = none) ∧ (y.imgCheck c.id.plot index img sigOk = none) :=
  ⟨W.st W.slm, W.ioc 1025, 21, 256, 0, W.prog, W.prog, [], true, true, ((W.st W.slm).dev.hostActivity.loadPiece 0 21 0xE0 256 0 W.prog |>.getD ([], State.reset.dev)).2, (by decide), (by decide), (by decide), (by decide), (by decide +kernel), (by decide +kernel), (by decide), (by decide +kernel)⟩
theorem wit_ComputeCommandsComplete_4 : ∃ (s : State) (c : NCmd) (index size off : Nat) (image img : List Byte) (pats : List Rx) (bodyOk sigOk : Bool) (y : Dev), (s.live) ∧ (s.dev.admitsCompute c computeNsid = true) ∧ (dataFits c image.length false = true) ∧ (True) ∧ (s.dev.hostActivity.loadPiece c.id.plot index 0xE1 size off image = some (img, y)) ∧ (img.length = size) ∧ (y.indexGen c.id.plot index = none) ∧ (y.sieveCheck c.id.plot index img pats bodyOk = none) :=
  ⟨W.st W.slm, W.ioc 1025, 41, 64, 0, W.sieveImg, W.sieveImg, [.set [65]], true, true, ((W.st W.slm).dev.hostActivity.loadPiece 0 41 0xE1 64 0 W.sieveImg |>.getD ([], State.reset.dev)).2, (by decide), (by decide), (by decide), (by decide), (by decide +kernel), (by decide +kernel), (by decide), (by decide +kernel)⟩
theorem wit_ComputeCommandsComplete_5 : ∃ (s : State) (c : NCmd) (index ptype size off : Nat) (image : List Byte) (pats : List Rx) (bodyOk sigOk : Bool), (s.live) ∧ (s.dev.admitsCompute c computeNsid = true) ∧ (s.dev.hostActivity.indexGen c.id.plot index = some (s.dev.hostActivity.plotGen c.id.plot)) :=
  ⟨W.st W.slm, W.ioc 1025, 20, 0, 0, 0, [], [], true, true, (by decide), (by decide), (by decide)⟩
theorem wit_ComputeCommandsComplete_6 : ∃ (s : State) (c : NCmd) (index : Nat) (activate : Bool) (x : LoadedProg), (s.live) ∧ (s.dev.admitsCompute c computeNsid = true) ∧ (s.dev.hostActivity.prog? c.id.plot index = some x) ∧ (x.gen = s.dev.hostActivity.plotGen c.id.plot) ∧ (¬(activate = true ∧ s.dev.hostActivity.f (F.PLOT_FCORE_CAP c.id.plot) = 0)) ∧ (¬(¬activate = true ∧ s.dev.hostActivity.core.insts.any (fun i => i.plot == c.id.plot && i.index == index && i.ended.isNone) = true)) :=
  ⟨W.st W.slm, W.ioc 1025, 20, true, { index := 20, plot := 0, gen := 0, image := [], active := false }, (by decide), (by decide), (by decide), (by decide), (by decide), (by decide)⟩
theorem wit_ComputeCommandsComplete_7 : ∃ (s : State) (c : NCmd) (index : Nat) (activate : Bool) (m : Image), (s.live) ∧ (s.dev.admitsCompute c computeNsid = true) ∧ (s.dev.hostActivity.prog? c.id.plot index = none) ∧ (s.dev.hostActivity.image? c.id.plot index = some m) ∧ (m.gen = s.dev.hostActivity.plotGen c.id.plot) ∧ (m.active = false → activate = true → s.dev.hostActivity.imgRoom = true) :=
  ⟨W.st W.slm, W.ioc 1025, 40, true, { index := 40, plot := 0, gen := 0, pats := [], dtiles := 1, nbytes := 64, image := List.replicate 64 0#8, active := false }, (by decide), (by decide), (by decide), (by rfl), (by decide), (by decide)⟩
theorem wit_ComputeCommandsComplete_8 : ∃ (s : State) (c : NCmd) (id : Nat) (ranges : List (Nat × Nat × Nat)) (free : List Nat), (s.live) ∧ (s.dev.admitsCompute c computeNsid = true) ∧ (dataFits c (32 * ranges.length) false = true) ∧ (ranges ≠ []) ∧ (ranges.any (fun r => r.1 != memoryNsid c.id.plot || decide (s.dev.hostActivity.slmBytes c.id.plot < r.2.1 + r.2.2) || r.2.2 == 0) = false) ∧ (free = s.dev.hostActivity.freeSetIds c.id.plot) ∧ (free ≠ []) :=
  ⟨W.st W.slm, W.ioc 1025, 0, [(1026, 0, 4096)], ((List.range 65534).map (fun i => i + 1)).filter (fun i => !(W.st W.slm).dev.hostActivity.trel.sets.any (fun z => z.plot == 0 && z.id == i)), (by decide), (by decide), (by decide), (by decide), (by decide), (by rfl), (by decide +kernel)⟩
theorem wit_ComputeCommandsComplete_9 : ∃ (s : State) (c : NCmd) (id : Nat) (ranges : List (Nat × Nat × Nat)) (x : RangeSet), (s.live) ∧ (s.dev.admitsCompute c computeNsid = true) ∧ (s.dev.hostActivity.trel.sets.find? (fun z => z.plot == c.id.plot && z.id == id) = some x) ∧ (x.gen = s.dev.hostActivity.plotGen c.id.plot) :=
  ⟨W.st W.slm, W.ioc 1025, 3, [], { id := 3, plot := 0, gen := 0, ranges := [(0, 4096)] }, (by decide), (by decide), (by decide), (by decide)⟩
theorem wit_ComputeCommandsComplete_10 : ∃ (s : State) (c : NCmd) (offset bytes : Nat), (s.live) ∧ (s.dev.admitsCompute c (memoryNsid c.id.plot) = true) ∧ (¬(s.dev.hostActivity.slmBytes c.id.plot < offset + bytes)) ∧ (s.dev.hostActivity.chanHeld offset bytes = false) ∧ (dataFits c bytes true = true) :=
  ⟨W.st W.slm, W.ioc 1026, 2 ^ 24 - 8, 8, (by decide), (by decide), (by decide), (by decide), (by decide)⟩
theorem wit_ComputeCommandsComplete_11 : ∃ (s : State) (c : NCmd) (offset : Nat) (data : List Byte), (s.live) ∧ (s.dev.admitsCompute c (memoryNsid c.id.plot) = true) ∧ (¬(s.dev.hostActivity.slmBytes c.id.plot < offset + data.length)) ∧ (s.dev.hostActivity.chanHeld offset data.length = false) ∧ (dataFits c data.length false = true) :=
  ⟨W.st W.slm, W.ioc 1026, 2 ^ 24 - 1, [5#8], (by decide), (by decide), (by decide), (by decide), (by decide)⟩
theorem wit_ComputeCommandsComplete_12 : ∃ (s : State) (c : NCmd) (offset bytes value : Nat), (s.live) ∧ (s.dev.admitsCompute c (memoryNsid c.id.plot) = true) ∧ (¬(s.dev.hostActivity.slmBytes c.id.plot < offset + bytes)) ∧ (s.dev.hostActivity.chanHeld offset bytes = false) :=
  ⟨W.st W.slm, W.ioc 1026, 0, 16, 255, (by decide), (by decide), (by decide), (by decide)⟩
theorem wit_ComputeCommandsComplete_13 : ∃ (s : State) (c : NCmd) (dest : Nat) (sources : List (Nat × Nat × Nat)), (s.live) ∧ (s.dev.admitsCompute c (memoryNsid c.id.plot) = true) ∧ (sources.any (fun r => r.1 != memoryNsid c.id.plot) = false) ∧ (((dest, (sources.map (fun r => r.2.2)).sum) :: sources.map Prod.snd).any (fun r => decide (s.dev.hostActivity.slmBytes c.id.plot < r.1 + r.2)) = false) ∧ (((dest, (sources.map (fun r => r.2.2)).sum) :: sources.map Prod.snd).any (fun r => s.dev.hostActivity.chanHeld r.1 r.2) = false) ∧ (dataFits c (32 * sources.length) false = true) ∧ (sources.any (fun r => decide (r.2.1 < dest + (sources.map (fun r => r.2.2)).sum ∧ dest < r.2.1 + r.2.2)) = false) :=
  ⟨W.st W.slm, W.ioc 1026, 64, [(1026, 0, 64)], (by decide), (by decide), (by decide), (by decide), (by decide), (by decide), (by decide)⟩
theorem wit_PlotsComplete_0 : ∃ (s : State) (n : Nat), (s.live) ∧ (n ≠ 0) ∧ (n < 512) ∧ (s.dev.plotEn n = false) ∧ (¬(s.dev.f F.PLOT_SUMIO_MAXPLOTS ≤ n)) ∧ (s.dev.removing n = false) ∧ (s.dev.totalsRise (s.dev.setF (F.PLOT_CTL_EN n) 1) = false) :=
  ⟨W.st (fun d => (W.up d).setF F.PLOT_SUMIO_MAXPLOTS 512), 511, (by decide), (by decide), (by decide), (by decide), (by decide), (by decide), (by decide)⟩
theorem wit_PlotsComplete_1 : ∃ (s : State) (n : Nat), (s.live) ∧ (n ≠ 0) ∧ (n < 512) ∧ (s.dev.plotEn n = true) :=
  ⟨W.st (fun d => (W.up d).setF (F.PLOT_CTL_EN 3) 1), 3, (by decide), (by decide), (by decide), (by decide)⟩
theorem wit_PlotsComplete_2 : ∃ (s : State) (pf n : Nat), (s.live) ∧ (pf = 0 ∨ (pf = 1 ∧ s.dev.flag F.HIF_PORTCFG_DUAL = true)) :=
  ⟨W.st W.up, 0, 0, (by decide), (by decide)⟩
theorem wit_PlotsComplete_3 : ∃ (s : State) (n : Nat), (s.live) ∧ (n ≠ 0) ∧ (n < 512) ∧ (s.dev.plotEn n = true) ∧ (s.dev.flag (F.PLOT_CTL_RST n) = false) :=
  ⟨W.st (fun d => (W.up d).setF (F.PLOT_CTL_EN 3) 1), 3, (by decide), (by decide), (by decide), (by decide), (by decide)⟩
theorem wit_PlotsComplete_4 : ∃ (s : State) (n : Nat) (held : List Nat), (s.live) ∧ (s.dev.f (F.PLOT_STAT_STATE n) < 2) ∧ (s.dev.flag (F.PLOT_CTL_RST n) = true ∨ s.dev.removing n = true) ∧ (s.dev.genHeld n = false) ∧ (n < 512) :=
  ⟨W.st (fun d => (((W.up d).setF (F.PLOT_CTL_EN 3) 1).setF (F.PLOT_STAT_STATE 3) 1).setF (F.PLOT_CTL_RST 3) 1), 3, [], (by decide), (by decide), (by decide), (by decide), (by decide)⟩
theorem wit_PlotsComplete_5 : ∃ (s : State) (n : Nat), (s.live) ∧ (n < 512) ∧ (s.dev.f (F.PLOT_STAT_STATE n) = 2) :=
  ⟨W.st (fun d => ((W.up d).setF (F.PLOT_CTL_EN 3) 1).setF (F.PLOT_STAT_STATE 3) 2), 3, (by decide), (by decide), (by decide)⟩
theorem wit_PlotsComplete_6 : ∃ (s : State) (n : Nat), (s.live) ∧ (n < 512) ∧ (2 < s.dev.f (F.PLOT_STAT_STATE n)) :=
  ⟨W.st (fun d => ((W.up d).setF (F.PLOT_CTL_EN 3) 1).setF (F.PLOT_STAT_STATE 3) 3), 3, (by decide), (by decide), (by decide)⟩
theorem wit_PlotsComplete_7 : ∃ (s : State) (n v : Nat), (s.live) ∧ (n < 512) :=
  ⟨W.st (fun d => ((W.up d).setF (F.PLOT_QV_VMAX 3) 8).setF (F.PLOT_CTL_EN 3) 1), 3, 4, (by decide), (by decide)⟩
theorem wit_PlotsComplete_8 : ∃ (s : State) (n v : Nat), (s.live) ∧ (n < 512) ∧ (bits v 12 13 = s.dev.f (F.PLOT_QV_VMAX n) ∨ s.dev.plotEn n = false) ∧ (bits v 0 9 ≤ 256) ∧ (1 ≤ bits v 12 13) ∧ (bits v 12 13 ≤ vecMax n) ∧ (s.dev.totalsRise ((s.dev.setF (F.PLOT_QV_QMAX n) (bits v 0 9)).setF (F.PLOT_QV_VMAX n) (bits v 12 13)) = false) :=
  ⟨W.st (fun d => ((W.up d).setF (F.PLOT_QV_VMAX 3) 8).setF (F.PLOT_CTL_EN 3) 1), 3, 0x8100, (by decide), (by decide), (by decide), (by decide), (by decide), (by decide), (by decide)⟩
theorem wit_PlotsComplete_9 : ∃ (s : State) (n v : Nat), (s.live) ∧ (n < 512) ∧ (1 ≤ bits v 0 8) ∧ (bits v 8 17 ≤ 65536) ∧ (n ≠ 0 ∨ 64 ≤ bits v 8 17) ∧ (s.dev.totalsRise ((s.dev.setF (F.PLOT_FETCH_WEIGHT n) (bits v 0 8)).setF (F.PLOT_FETCH_OSHARE n) (bits v 8 17)) = false) :=
  ⟨W.st (fun d => ((W.up d).setF (F.PLOT_QV_VMAX 3) 8).setF (F.PLOT_CTL_EN 3) 1), 3, 0x101, (by decide), (by decide), (by decide), (by decide), (by decide), (by decide)⟩
theorem wit_PlotsComplete_10 : ∃ (s : State) (n v : Nat), (s.live) ∧ (n < 512) ∧ (s.dev.totalsRise (s.dev.slmSize n (bits v 0 16)) = false) :=
  ⟨W.st (fun d => ((W.up d).setF (F.PLOT_QV_VMAX 3) 8).setF (F.PLOT_CTL_EN 3) 1), 3, 0, (by decide), (by decide), (by decide)⟩
theorem wit_PlotsComplete_11 : ∃ (s : State) (n v : Nat), (s.live) ∧ (n < 512) ∧ (1 ≤ bits v 0 8) ∧ (bits v 8 5 ≤ 24) ∧ (s.dev.totalsRise ((s.dev.setF (F.PLOT_FCORE_WEIGHT n) (bits v 0 8)).setF (F.PLOT_FCORE_CAP n) (bits v 8 5)) = false) :=
  ⟨W.st (fun d => ((W.up d).setF (F.PLOT_QV_VMAX 3) 8).setF (F.PLOT_CTL_EN 3) 1), 3, 0x1801, (by decide), (by decide), (by decide), (by decide), (by decide)⟩
theorem wit_PlotsComplete_12 : ∃ (s : State) (n v : Nat), (s.live) ∧ (n < 512) :=
  ⟨W.st (fun d => ((W.up d).setF (F.PLOT_QV_VMAX 3) 8).setF (F.PLOT_CTL_EN 3) 1), 3, 0x1010101, (by decide), (by decide)⟩
theorem wit_PlotsComplete_13 : ∃ (s : State) (n v : Nat), (s.live) ∧ (n < 512) ∧ (bits v 0 7 ≤ 64) ∧ (bits v 8 7 ≤ 64) ∧ (bits v 16 7 ≤ 64) ∧ (bits v 24 7 ≤ 64) ∧ (s.dev.totalsRise ((((s.dev.setF (F.PLOT_ECAP_CIPH n) (bits v 0 7)).setF (F.PLOT_ECAP_DGST n) (bits v 8 7)).setF (F.PLOT_ECAP_CHURN n) (bits v 16 7)).setF (F.PLOT_ECAP_SIEVE n) (bits v 24 7)) = false) :=
  ⟨W.st (fun d => ((W.up d).setF (F.PLOT_QV_VMAX 3) 8).setF (F.PLOT_CTL_EN 3) 1), 3, 0x40404040, (by decide), (by decide), (by decide), (by decide), (by decide), (by decide), (by decide)⟩
theorem wit_PlotsComplete_14 : ∃ (s : State) (n : Nat) (v : Nat), (s.live) ∧ (AMap.find n s.dev.plot.grow = some v) :=
  ⟨W.st (fun d => { W.up d with plot := { d.plot with grow := [(3, 2)] } }), 3, 2, (by decide), (by decide)⟩
theorem wit_PlotsComplete_15 : ∃ (s : State) (n : Nat) (up : Bool) (v : Nat), (s.live) ∧ (s.dev.mbOpen n up = true) ∧ ((s.dev.mbx n).seqOk up v = true) :=
  ⟨W.st W.mb, 3, true, 1, (by decide), (by decide), (by decide)⟩
theorem wit_PlotsComplete_16 : ∃ (s : State) (n : Nat) (up : Bool) (v : Nat), (s.live) ∧ (s.dev.mbOpen n up = true) ∧ ((s.dev.mbx n).seqOk up v = false) :=
  ⟨W.st W.mb, 3, true, 2, (by decide), (by decide), (by decide)⟩
theorem wit_PlotsComplete_17 : ∃ (s : State) (n : Nat) (up : Bool) (v : Nat), (s.live) ∧ (s.dev.mbOpen n (!up) = true) ∧ (1 ≤ seq32 v ((s.dev.mbx n).ack up)) ∧ (seq32 v ((s.dev.mbx n).ack up) ≤ seq32 ((s.dev.mbx n).seq up) ((s.dev.mbx n).ack up)) :=
  ⟨W.st (fun d => ((W.up d).setF (F.PLOT_CTL_EN 3) 1).setMbx 3 { Mbx.init with upSeq := 2 }), 3, true, 2, (by decide), (by decide), (by decide), (by decide)⟩
theorem wit_PlotsComplete_18 : ∃ (s : State) (n : Nat) (tenant : Bool) (v : Nat), (s.live) ∧ (s.dev.mbOpen n tenant = true) ∧ (v ≠ 0) ∧ (v ≠ (s.dev.mbx n).inc tenant) :=
  ⟨W.st W.mb, 3, true, 7, (by decide), (by decide), (by decide), (by decide)⟩
theorem wit_PlotsComplete_19 : ∃ (s : State) (n : Nat) (up : Bool) (w v : Nat), (s.live) ∧ (s.dev.mbOpen n up = true) ∧ (w < 1024) ∧ ((s.dev.mbx n).held up (w / 64) = false) :=
  ⟨W.st W.mb, 3, true, 1023, 7, (by decide), (by decide), (by decide), (by decide)⟩
theorem wit_ChannelCompletes_0 : ∃ (s : State) (die tRead tProg tErase rate jedec : Nat) (page : List Byte) (susp : Bool), (s.live) ∧ (s.dev.chanOk (dieChan die) = true) ∧ ((s.dev.declaredDies (dieChan die)).contains die = true) ∧ (s.dev.f F.TOP_MODE_MODE = 3 ∨ s.dev.f F.TOP_MODE_MODE = 4 ∨ s.dev.f F.TOP_MODE_MODE = 5 ∨ s.dev.f F.TOP_MODE_MODE = 0xB) :=
  ⟨W.st (fun d => { (W.up d).setF F.TOP_MODE_MODE 4 with boot := { d.boot with stream := some W.strm0 } }), 0, 400, 12000, 50000, 4, 0, [], true, (by decide), (by decide), (by decide), (by decide)⟩
theorem wit_ChannelCompletes_1 : ∃ (s : State) (die : Nat) (answers crcOk : Bool) (tRead tProg tErase rate jedec : Nat) (page : List Byte) (susp : Bool), (s.live) ∧ (s.dev.chanOk (dieChan die) = true) ∧ ((s.dev.declaredDies (dieChan die)).contains die = true) ∧ (s.dev.f F.TOP_MODE_MODE = 3 ∨ s.dev.f F.TOP_MODE_MODE = 4 ∨ s.dev.f F.TOP_MODE_MODE = 5 ∨ s.dev.f F.TOP_MODE_MODE = 0xB) ∧ ((answers && crcOk) = false) :=
  ⟨W.st (fun d => { (W.up d).setF F.TOP_MODE_MODE 4 with boot := { d.boot with stream := some W.strm0 } }), 0, false, true, 400, 12000, 50000, 4, 0, [], true, (by decide), (by decide), (by decide), (by decide), (by decide)⟩
theorem wit_ChannelCompletes_2 : ∃ (s : State) (ch : Nat) (passes : List Nat) (temps : List Int) (k : Nat), (s.live) ∧ (s.dev.chanOk ch = true) ∧ (s.dev.flag (F.CHAN_STAT_TRAINED ch) = false) ∧ ((s.dev.chanDies ch).isEmpty = false) ∧ (((List.range 7).filter (fun c => decide (1 ≤ c ∧ c ≤ s.dev.rateCand ch) && passes.contains c)).max? = some k) :=
  ⟨W.st (fun d => { ((W.up d).setF (F.CHAN_DIEPRES_PRES 0 0) 1).setF (F.CHAN_CFG_RATEMAX 0) 5 with media := { d.media with declared := [(0, 4)] } }), 0, [1, 2, 3, 4], [30], 4, (by decide), (by decide), (by decide), (by decide), (by decide)⟩
theorem wit_ChannelCompletes_3 : ∃ (s : State) (ch : Nat) (passes : List Nat) (temps : List Int), (s.live) ∧ (s.dev.chanOk ch = true) ∧ (s.dev.flag (F.CHAN_STAT_TRAINED ch) = false) ∧ ((s.dev.chanDies ch).isEmpty = false) ∧ (((List.range 7).filter (fun c => decide (1 ≤ c ∧ c ≤ s.dev.rateCand ch) && passes.contains c)).max? = none) :=
  ⟨W.st (fun d => { ((W.up d).setF (F.CHAN_DIEPRES_PRES 0 0) 1).setF (F.CHAN_CFG_RATEMAX 0) 5 with media := { d.media with declared := [(0, 4)] } }), 0, [], [30], (by decide), (by decide), (by decide), (by decide), (by decide)⟩
theorem wit_ChannelCompletes_4 : ∃ (s : State) (die : Nat) (w : Nat) (ws : List Nat) (o : DieOp) (x : Dev), (s.live) ∧ (s.dev.dieTakes die = true) ∧ ((s.dev.die die).busy = none) ∧ ((s.dev.die die).ended = none) ∧ ((s.dev.die die).suspended = none) ∧ (((List.range 5).filter (fun c => (((s.dev.die die).queue.take 32).filter s.dev.issuable).any (fun o => o.cls.num == c))) = w :: ws) ∧ ((((s.dev.die die).queue.take 32).filter s.dev.issuable).find? (fun o => o.cls.num == (s.dev.die die).ages.pick (w :: ws) w) = some o) ∧ (s.dev.laneKeys o = some x) :=
  ⟨W.st (W.ch { DieSt.init with queue := [W.op .hostRead] }), 0, 0, [], W.op .hostRead, (W.st (W.ch { DieSt.init with queue := [W.op .hostRead] })).dev, (by decide), (by decide), (by decide), (by decide), (by decide), (by decide), (by decide), (by decide)⟩
theorem wit_ChannelCompletes_5 : ∃ (s : State) (die : Nat) (o : DieOp), (s.live) ∧ (s.dev.dieRuns die = true) ∧ ((s.dev.die die).busy = none) ∧ ((s.dev.die die).ended = none) ∧ ((s.dev.die die).suspended = some o) ∧ (s.dev.dieTakes die = false ∨ (((s.dev.die die).queue.take 32).filter s.dev.issuable).filter (fun o => o.cls == .hostRead) = []) ∧ (¬(s.dev.mode.pfStop = true ∧ o.cls ≠ .program)) :=
  ⟨W.st (W.ch { DieSt.init with suspended := some (W.op .erase) }), 0, W.op .erase, (by decide), (by decide), (by decide), (by decide), (by decide), (by decide), (by decide)⟩
theorem wit_ChannelCompletes_6 : ∃ (s : State) (die : Nat) (o r : DieOp) (rs : List DieOp), (s.live) ∧ (s.dev.dieTakes die = true) ∧ ((s.dev.die die).busy = none) ∧ ((s.dev.die die).ended = none) ∧ ((s.dev.die die).suspended = some o) ∧ ((((s.dev.die die).queue.take 32).filter s.dev.issuable).filter (fun o => o.cls == .hostRead) = r :: rs) :=
  ⟨W.st (W.ch { DieSt.init with suspended := some (W.op .erase), queue := [W.op .hostRead] }), 0, W.op .erase, W.op .hostRead, [], (by decide), (by decide), (by decide), (by decide), (by decide), (by decide)⟩
theorem wit_ChannelCompletes_7 : ∃ (s : State) (die elapsed : Nat), (s.live) ∧ (s.dev.dieState die = 3) ∧ (s.dev.resetIssued die = true) :=
  ⟨W.st (fun d => (W.up d).setF (F.CHAN_DIESTAT_STATE 0 0) 3), 0, 0, (by decide), (by decide), (by decide)⟩
theorem wit_ChannelCompletes_8 : ∃ (s : State) (die elapsed : Nat) (o : DieOp), (s.live) ∧ (s.dev.dieState die ≠ 3) ∧ ((s.dev.die die).busy = some o) :=
  ⟨W.st (W.ch { DieSt.init with busy := some (W.op .program) }), 0, 0, W.op .program, (by decide), (by decide), (by decide)⟩
theorem wit_ChannelCompletes_9 : ∃ (s : State) (die : Nat) (o : DieOp), (s.live) ∧ ((s.dev.die die).busy = some o) :=
  ⟨W.st (W.ch { DieSt.init with busy := some (W.op .erase) }), 0, W.op .erase, (by decide), (by decide)⟩
theorem wit_ChannelCompletes_10 : ∃ (s : State) (die : Nat), (s.live) ∧ (s.dev.dieState die = 3) ∧ (s.dev.resetIssued die = true) :=
  ⟨W.st (fun d => (W.up d).setF (F.CHAN_DIESTAT_STATE 0 0) 3), 0, (by decide), (by decide), (by decide)⟩
theorem wit_ChannelCompletes_11 : ∃ (s : State) (die : Nat) (o : DieOp), (s.live) ∧ ((s.dev.die die).busy = some o) ∧ ((s.dev.die die).suspended = none) ∧ (s.dev.flag (F.CHAN_CFG_SUSP_EN (dieChan die)) = true) ∧ (s.dev.media.suspOk.contains die = true) ∧ (s.dev.dieTakes die = true) ∧ (o.cls = .program ∨ o.cls = .erase) ∧ ((s.dev.die die).queue.any (fun r => r.cls == .hostRead) = true) ∧ (o.suspends < s.dev.f (F.CHAN_DTO_SUSPMAX (dieChan die))) :=
  ⟨W.st (fun d => let u := ((W.ch { DieSt.init with queue := [W.op .hostRead], busy := some (W.op .program) } d).setF (F.CHAN_CFG_SUSP_EN 0) 1).setF (F.CHAN_DTO_SUSPMAX 0) 1; { u with media := { u.media with suspOk := [0] } }), 0, W.op .program, (by decide), (by decide), (by decide), (by decide), (by decide), (by decide), (by decide), (by decide), (by decide)⟩
theorem wit_ChannelCompletes_12 : ∃ (s : State) (loc ptype : Nat) (v : Decode) (r : ReadCw), (s.live) ∧ (s.dev.reading? loc .decode = some r) ∧ (s.dev.underTest (dieChan (locDie loc) / 8) = false) ∧ (s.dev.cw? loc = none) :=
  ⟨W.st (W.ladder .decode []), 0, 0, .clean, W.rd .decode, (by decide), (by decide), (by decide), (by decide)⟩
theorem wit_ChannelCompletes_13 : ∃ (s : State) (loc ptype : Nat) (v : Decode) (r : ReadCw) (w : Cw) (x : Dev), (s.live) ∧ (s.dev.reading? loc .decode = some r) ∧ (s.dev.underTest (dieChan (locDie loc) / 8) = false) ∧ (s.dev.cw? loc = some w) ∧ (s.dev.laneFor (dieChan (locDie loc)) w = some x) :=
  ⟨W.st (W.ladder .decode [(0, W.cw)]), 0, 0, .clean, W.rd .decode, W.cw, (W.st (W.ladder .decode [(0, W.cw)])).dev, (by decide), (by decide), (by decide), (by decide), (by decide)⟩
theorem wit_ChannelCompletes_14 : ∃ (s : State) (die block page : Nat) (ok : List Nat) (expired : Bool) (elapsed : Nat) (w : List ReadCw), (s.live) ∧ (s.dev.rereadable die = true) ∧ (w = s.dev.media.reading.filter (fun r => r.step == .retry && locDie r.loc == die && locBlock r.loc == block && locPage r.loc == page)) ∧ (w ≠ []) ∧ (s.dev.readDeadline die < elapsed) :=
  ⟨W.st (W.ladder .retry [(0, W.cw)]), 0, 0, 0, [], false, 1, [W.rd .retry], (by decide), (by decide), (by decide), (by decide), (by decide)⟩
theorem wit_ChannelCompletes_15 : ∃ (s : State) (die block page : Nat) (ok : List Nat) (expired : Bool) (elapsed : Nat) (r : ReadCw) (t : List ReadCw), (s.live) ∧ (s.dev.rereadable die = true) ∧ (s.dev.media.reading.filter (fun r => r.step == .retry && locDie r.loc == die && locBlock r.loc == block && locPage r.loc == page) = r :: t) ∧ (¬(s.dev.readDeadline die < elapsed)) :=
  ⟨W.st (W.ladder .retry [(0, W.cw)]), 0, 0, 0, [0], false, 0, W.rd .retry, [], (by decide), (by decide), (by decide), (by decide)⟩
theorem wit_ChannelCompletes_16 : ∃ (s : State) (loc : Nat) (v : Decode) (expired : Bool) (elapsed : Nat) (r : ReadCw), (s.live) ∧ (s.dev.reading? loc .soft = some r) ∧ (s.dev.rereadable (locDie loc) = true) ∧ (s.dev.tlerOver r expired = true) :=
  ⟨W.st (fun d => let u := W.ladder .soft [(0, W.cw)] d; { u with media := { u.media with reading := [{ W.rd .soft with cmd := some ⟨0, 1, 1⟩ }] }, host := { u.host with tler := [(1, 5)] }, ftl := { u.ftl with reads := [{ id := ⟨0, 1, 1⟩, nsid := 1, use := .toHost, pi := none, blocks := [] }] } }), 0, .clean, true, 0, { W.rd .soft with cmd := some ⟨0, 1, 1⟩ }, (by decide), (by decide), (by decide), (by decide)⟩
theorem wit_ChannelCompletes_17 : ∃ (s : State) (loc : Nat) (v : Decode) (expired : Bool) (elapsed : Nat) (r : ReadCw), (s.live) ∧ (s.dev.reading? loc .soft = some r) ∧ (s.dev.rereadable (locDie loc) = true) ∧ (s.dev.tlerOver r expired = false) ∧ (s.dev.readDeadline (locDie loc) < elapsed ∨ s.dev.cw? loc = none) :=
  ⟨W.st (W.ladder .soft []), 0, .clean, false, 0, W.rd .soft, (by decide), (by decide), (by decide), (by decide), (by decide)⟩
theorem wit_ChannelCompletes_18 : ∃ (s : State) (loc : Nat) (v : Decode) (expired : Bool) (elapsed : Nat) (r : ReadCw) (w : Cw), (s.live) ∧ (s.dev.reading? loc .soft = some r) ∧ (s.dev.rereadable (locDie loc) = true) ∧ (s.dev.tlerOver r expired = false) ∧ (¬(s.dev.readDeadline (locDie loc) < elapsed)) ∧ (s.dev.cw? loc = some w) :=
  ⟨W.st (W.ladder .soft [(0, W.cw)]), 0, .clean, false, 0, W.rd .soft, W.cw, (by decide), (by decide), (by decide), (by decide), (by decide), (by decide)⟩
theorem wit_ChannelCompletes_19 : ∃ (s : State) (loc : Nat) (unread late : List Nat) (sound expired : Bool) (r : ReadCw), (s.live) ∧ (s.dev.reading? loc .reconstruct = some r) ∧ (s.dev.tlerOver r expired = false) ∧ (s.dev.stripe? (s.dev.blk (locDie loc) (locBlock loc)).group (s.dev.blk (locDie loc) (locBlock loc)).bsn = none ∨ s.dev.memberOf (locDie loc) = none) :=
  ⟨W.st (W.ladder .reconstruct []), 0, [], [], true, false, W.rd .reconstruct, (by decide), (by decide), (by decide), (by decide)⟩
theorem wit_ChannelCompletes_20 : ∃ (s : State) (loc : Nat) (unread late : List Nat) (sound expired : Bool) (r : ReadCw) (x : BStripe) (g j : Nat) (dies : List (Nat × Nat × Nat)), (s.live) ∧ (s.dev.reading? loc .reconstruct = some r) ∧ (s.dev.tlerOver r expired = false) ∧ (s.dev.stripe? (s.dev.blk (locDie loc) (locBlock loc)).group (s.dev.blk (locDie loc) (locBlock loc)).bsn = some x) ∧ (s.dev.memberOf (locDie loc) = some (g, j)) ∧ (dies = (x.blocks.filter (fun jb => !s.dev.memberFailed x.group jb.1)).map (fun jb => (jb.1, s.dev.memberDie x.group jb.1, jb.2))) ∧ ((dies.any (fun y => s.dev.underTest (dieChan y.2.1 / 8)) || (s.dev.row? x.group x.bsn (locPage loc)).any (fun y => s.dev.strp.replay.contains y.index)) = false) :=
  ⟨W.st W.stripe, 0, [], [], true, false, W.rd .reconstruct, { group := 0, bsn := 0, purpose := 0, blocks := [(0, 0)], pmem := 15, qmem := none, isOpen := false, closing := false, next := [], fill := [] }, 0, 0, [(0, 0, 0)], (by decide), (by decide), (by decide), (by decide), (by decide), (by decide), (by decide)⟩
theorem wit_ChannelCompletes_21 : ∃ (s : State) (target : Nat) (temp : Int) (ok : Bool), (s.live) ∧ (s.dev.chanOk (target / 16) = true) ∧ (s.dev.flag (F.CHAN_STAT_TRAINED (target / 16)) = true) ∧ ((s.dev.targetDies target).isEmpty = false) ∧ ((s.dev.targetDies target).any (fun y => !(s.dev.die y).idle) = false) ∧ (s.dev.underTest (target / 16 / 8) = false) ∧ (s.dev.retrainDue target temp = true) :=
  ⟨W.st (W.ch DieSt.init), 0, 40, true, (by decide), (by decide), (by decide), (by decide), (by decide), (by decide), (by decide)⟩
theorem wit_FlashLayerCompletes_0 : ∃ (s : State), (s.live) ∧ (s.dev.f F.TOP_MODE_MODE ≠ 0) :=
  ⟨W.st W.up, (by decide), (by decide)⟩
theorem wit_FlashLayerCompletes_1 : ∃ (s : State) (b : Batch) (rest : List Batch), (s.live) ∧ (s.dev.ftl.closed = b :: rest) :=
  ⟨W.st (fun d => { W.up d with ftl := { d.ftl with closed := [{ bseq := 1, time := 0, recs := [.mapTo 1 0 0 0] }] } }), { bseq := 1, time := 0, recs := [.mapTo 1 0 0 0] }, [], (by decide), (by decide)⟩
theorem wit_FlashLayerCompletes_2 : ∃ (s : State), (s.live) ∧ (s.dev.background = true) ∧ (s.dev.ftl.pass.isEmpty = true) ∧ (s.dev.ftl.copies.isEmpty = true) ∧ (s.dev.ftl.ckptAt + 1000 * s.dev.f F.MAPW_CKPT_PERIOD ≤ s.dev.now) :=
  ⟨W.st (fun d => { (W.up d).setF F.MAPW_CKPT_PERIOD 0 with ftl := { d.ftl with dirty := [1] } }), (by decide), (by decide), (by decide), (by decide), (by decide)⟩
theorem wit_FlashLayerCompletes_3 : ∃ (s : State), (s.live) ∧ (s.dev.background = true) ∧ (s.dev.ftl.pass.isEmpty = true) ∧ (s.dev.ftl.copies.isEmpty = true) ∧ (s.dev.f F.MAPW_CKPT_VOLUME * 268435456 ≤ s.dev.ftl.ckptVol) :=
  ⟨W.st (fun d => { (W.up d).setF F.MAPW_CKPT_VOLUME 0 with ftl := { d.ftl with dirty := [1] } }), (by decide), (by decide), (by decide), (by decide), (by decide)⟩
theorem wit_FlashLayerCompletes_4 : ∃ (s : State), (s.live) ∧ (s.dev.background = true) ∧ (s.dev.ftl.pass.isEmpty = true) ∧ (s.dev.ftl.copies.isEmpty = true) ∧ (50 ≤ s.dev.jfill ∨ s.dev.f F.MAPW_CKPT_DIRTYMAX * 2 ^ 30 < s.dev.dirtyBytes) :=
  ⟨W.st (fun d => { (W.up d).setF F.MAPW_CKPT_DIRTYMAX 0 with ftl := { d.ftl with dirty := [1] } }), (by decide), (by decide), (by decide), (by decide), (by exact Or.inr (by decide))⟩
theorem wit_FlashLayerCompletes_5 : ∃ (s : State) (seg : Nat) (c : SegCopy), (s.live) ∧ (AMap.find seg s.dev.ftl.copies = some c) ∧ (s.dev.segWritten seg c = true) :=
  ⟨W.st W.seg1, 1, W.segc, (by decide), (by decide), (by decide)⟩
theorem wit_FlashLayerCompletes_6 : ∃ (s : State) (seg : Nat), (s.live) ∧ (AMap.find seg s.dev.ftl.copies = none) ∧ (s.dev.ftl.pass.contains seg = true) :=
  ⟨W.st (fun d => { W.up d with ftl := { d.ftl with pass := [1], dirty := [1] } }), 1, (by decide), (by decide), (by decide)⟩
theorem wit_FlashLayerCompletes_7 : ∃ (s : State) (nsid iu g : Nat) (pad : Bool) (n : Ns) (c : Commit) (y : Dev), (s.live) ∧ (s.dev.ns? nsid = some n) ∧ (s.dev.liveCommit nsid iu = some c) ∧ ((c.taken iu || !s.dev.groups.contains g || (n.comp != 0 && (AMap.find (iuKey nsid iu) s.dev.ftl.packed).isNone)) = false) ∧ ((s.dev.paced g (s.dev.iuCodewords n c iu).length).bind (fun e => e.place g 0 (s.dev.iuCodewords n c iu)) = some y) :=
  ⟨W.st W.dest, 1, 0, 0, false, W.rns Resv.init, W.com, W.destOpt.get W.dest_isSome, (by decide), (by decide), (by decide), (by decide), (by exact (Option.some_get _).symm)⟩
theorem wit_FlashLayerCompletes_8 : ∃ (s : State) (nsid iu g : Nat), (s.live) ∧ (s.dev.ns? nsid = none ∨ s.dev.liveCommit nsid iu = none) :=
  ⟨W.st (fun d => { W.grp (W.up d) with strp := { d.strp with stripes := [{ W.bst with isOpen := true }] } }), 1, 0, 0, (by decide), (by decide)⟩
theorem wit_FlashLayerCompletes_9 : ∃ (s : State) (die : Nat) (o : DieOp), (s.live) ∧ ((s.dev.die die).ended = some o) ∧ (o.cls = .program) ∧ (((s.dev.setDie die { s.dev.die die with ended := none }).writePage o).memberOf die = none) :=
  ⟨W.st (W.ch { DieSt.init with ended := some (W.op .program) }), 0, W.op .program, (by decide), (by decide), (by decide), (by decide)⟩
theorem wit_FlashLayerCompletes_10 : ∃ (s : State) (die : Nat) (o : DieOp) (g j : Nat), (s.live) ∧ ((s.dev.die die).ended = some o) ∧ (o.cls = .program) ∧ (((s.dev.setDie die { s.dev.die die with ended := none }).writePage o).memberOf die = some (g, j)) ∧ (o.parity = true) :=
  ⟨W.st (fun d => W.grp (W.ch { DieSt.init with ended := some { W.op .program with parity := true } } d)), 0, { W.op .program with parity := true }, 0, 0, (by decide), (by decide), (by decide), (by decide), (by decide)⟩
theorem wit_FlashLayerCompletes_11 : ∃ (s : State) (die : Nat) (o : DieOp) (g j p : Nat), (s.live) ∧ ((s.dev.die die).ended = some o) ∧ (o.cls = .program) ∧ (((s.dev.setDie die { s.dev.die die with ended := none }).writePage o).memberOf die = some (g, j)) ∧ (o.parity = false) ∧ (p = ((((s.dev.setDie die { s.dev.die die with ended := none }).writePage o).stripe? g o.bsn).map (fun s => s.purpose)).getD 0) :=
  ⟨W.st (fun d => W.grp (W.ch { DieSt.init with ended := some (W.op .program) } d)), 0, W.op .program, 0, 0, 0, (by decide), (by decide), (by decide), (by decide), (by decide), (by decide)⟩
theorem wit_FlashLayerCompletes_12 : ∃ (s : State) (die : Nat) (o : DieOp), (s.live) ∧ ((s.dev.die die).ended = some o) ∧ (o.cls = .program) :=
  ⟨W.st (W.ch { DieSt.init with ended := some (W.op .program) }), 0, W.op .program, (by decide), (by decide), (by decide)⟩
theorem wit_FlashLayerCompletes_13 : ∃ (s : State) (die : Nat) (o : DieOp), (s.live) ∧ ((s.dev.die die).ended = some o) ∧ (o.cls = .erase) :=
  ⟨W.st (W.ch { DieSt.init with ended := some (W.op .erase) }), 0, W.op .erase, (by decide), (by decide), (by decide)⟩
theorem wit_FlashLayerCompletes_14 : ∃ (s : State) (die : Nat) (o : DieOp), (s.live) ∧ ((s.dev.die die).ended = some o) ∧ (o.cls = .erase) :=
  ⟨W.st (W.ch { DieSt.init with ended := some (W.op .erase) }), 0, W.op .erase, (by decide), (by decide), (by decide)⟩
theorem wit_FlashLayerCompletes_15 : ∃ (s : State) (g : Nat), (s.live) ∧ (s.dev.background = true) ∧ (s.dev.flag F.TOP_MODE_CRO = false) :=
  ⟨W.st (fun d => W.grp { W.up d with md := { d.md with blocks := [(5, { Blk.init with state := .closed })] } }), 0, (by decide), (by decide), (by decide)⟩
theorem wit_FlashLayerCompletes_16 : ∃ (s : State) (g : Nat), (s.live) ∧ (s.dev.background = false ∨ s.dev.flag F.TOP_MODE_CRO = true) :=
  ⟨W.st W.run, 0, (by decide), (by decide)⟩
theorem wit_FlashLayerCompletes_17 : ∃ (s : State) (nsid iu : Nat), (s.live) ∧ (entryType (s.dev.entry? nsid iu) ≠ 1) :=
  ⟨W.st W.up, 1, 0, (by decide), (by decide)⟩
theorem wit_FlashLayerCompletes_18 : ∃ (s : State) (nsid iu : Nat), (s.live) ∧ (entryType (s.dev.entry? nsid iu) = 1) :=
  ⟨W.st (fun d => { W.up d with ftl := { d.ftl with map := [(iuKey 1 0, flashEntry 0)] }, flash := { d.flash with cws := [(0, { W.cw with kind := 0 }), (mkLoc 64 0 0 0, { W.cw with kind := 0, reloc := 1 })] } }), 1, 0, (by decide), (by decide)⟩
theorem wit_FlashLayerCompletes_19 : ∃ (s : State) (die block : Nat), (s.live) :=
  ⟨W.st (fun d => (W.up d).setF F.MAPW_RELOC_READMAX 0), 0, 5, (by decide)⟩
theorem wit_FlashLayerCompletes_20 : ∃ (s : State) (die block : Nat), (s.live) :=
  ⟨W.st (fun d => (W.up d).setF F.MAPW_RELOC_RETAIN 0), 0, 5, (by decide)⟩
theorem wit_StripesComplete_0 : ∃ (s : State) (torn : List Nat), (s.live) ∧ (s.dev.flag F.MAPW_STAT_ADMIT = true) :=
  ⟨W.st (fun d => { (W.up d).setF F.MAPW_STAT_ADMIT 1 with strp := { d.strp with replay := [0], slots := [{ index := 0, state := .open, group := 0, bsn := 0, page := 0, done := 0, zero := 0, parityDone := 0, jseq := 1, parity := [] }] } }), [], (by decide), (by decide)⟩
theorem wit_StripesComplete_1 : ∃ (s : State) (g : Nat), (s.live) :=
  ⟨W.st W.up, 0, (by decide)⟩
theorem wit_StripesComplete_2 : ∃ (s : State) (g bsn : Nat) (lost : List (Nat × Nat)) (r : Rebuild) (x : BStripe), (s.live) ∧ (s.dev.strp.rebuilds.find? (fun y => y.group == g) = some r) ∧ (s.dev.stripe? g bsn = some x) ∧ ((r.active && !s.dev.mode.pfStop && !(x.blocks.map (fun jb => s.dev.memberDie g jb.1)).any (fun y => s.dev.underTest (dieChan y / 8)) && r.left.contains bsn && !s.dev.flag F.STRP_RBCFG_PAUSE && s.dev.patrolMode && decide (s.dev.f F.PWR_PSTATE_PS ≤ 2) && (x.blocks.map Prod.fst).all (fun j => r.members.all (fun m => m.1 != j || m.2)) && (!s.dev.flag F.TOP_MODE_CRO || (s.dev.openStripe? g 1).isSome)) = true) :=
  ⟨W.st (fun d => { W.grp (W.up d) with strp := { d.strp with stripes := [W.bst], rebuilds := [{ group := 0, members := [(3, true)], active := true, lost := 0, left := [0] }] } }), 0, 0, [], { group := 0, members := [(3, true)], active := true, lost := 0, left := [0] }, W.bst, (by decide), (by decide), (by decide), (by decide)⟩
theorem wit_StripesComplete_3 : ∃ (s : State) (g bsn page slot : Nat) (f : RakeFinding) (last : Bool) (x : BStripe), (s.live) ∧ (s.dev.stripe? g bsn = some x) ∧ (s.dev.patrolMode = true) ∧ (s.dev.mode.pfStop = false) ∧ ((x.blocks.map (fun jb => s.dev.memberDie g jb.1)).any (fun y => s.dev.underTest (dieChan y / 8)) = false) ∧ (¬(2 < s.dev.f F.PWR_PSTATE_PS)) ∧ (s.dev.f F.STRP_RAKE_DAYS ≠ 0) ∧ (s.dev.rakeStripes.contains (g, bsn) = true) :=
  ⟨W.st (fun d => { W.grp (W.up d) with strp := { d.strp with stripes := [W.bst] } }), 0, 0, 0, 0, .sound, true, W.bst, (by decide), (by decide), (by decide), (by decide), (by decide), (by decide), (by decide), (by decide)⟩
theorem wit_GorwastaLinksComplete_0 : ∃ (s : State) (l : Nat) (x4 reversed : Bool), (s.live) ∧ (s.dev.linkable l = true) ∧ (s.dev.linkState l = 1) ∧ (s.dev.trainOk l = true) ∧ ((s.dev.link l).retrain = false) :=
  ⟨W.st (fun d => ((W.clu d).setF (F.GWL_LSTAT_STATE 0) 1).setLink 0 { GLink.init with train := some (1, 0, 9, 5) }), 0, true, false, (by decide), (by decide), (by decide), (by decide), (by decide)⟩
theorem wit_GorwastaLinksComplete_1 : ∃ (s : State) (l : Nat) (x4 reversed : Bool), (s.live) ∧ (s.dev.linkable l = true) ∧ (s.dev.linkState l = 1) ∧ (s.dev.trainOk l = true) ∧ ((s.dev.link l).retrain = true) :=
  ⟨W.st (fun d => ((W.clu d).setF (F.GWL_LSTAT_STATE 0) 1).setLink 0 { GLink.init with train := some (1, 0, 9, 5), retrain := true }), 0, true, false, (by decide), (by decide), (by decide), (by decide), (by decide)⟩
theorem wit_GorwastaLinksComplete_2 : ∃ (s : State) (l : Nat) (x4 reversed : Bool), (s.live) ∧ (s.dev.linkable l = true) ∧ (s.dev.linkState l = 1) ∧ (s.dev.trainOk l = false) :=
  ⟨W.st (fun d => (W.clu d).setF (F.GWL_LSTAT_STATE 0) 1), 0, true, false, (by decide), (by decide), (by decide), (by decide)⟩
theorem wit_GorwastaLinksComplete_3 : ∃ (s : State) (l : Nat), (s.live) ∧ (s.dev.linkable l = true) ∧ (s.dev.linkUp l = false) ∧ ((s.dev.link l).retrain = false ∨ (s.dev.link l).fails = 0) :=
  ⟨W.st (fun d => (W.clu d).setF (F.GWL_LSTAT_STATE 0) 0), 0, (by decide), (by decide), (by decide), (by decide)⟩
theorem wit_GorwastaLinksComplete_4 : ∃ (s : State) (l : Nat), (s.live) ∧ (s.dev.linkable l = true) ∧ (s.dev.linkUp l = false) ∧ ((s.dev.link l).retrain = true) ∧ (1 ≤ (s.dev.link l).fails) :=
  ⟨W.st (fun d => ((W.clu d).setF (F.GWL_LSTAT_STATE 0) 1).setLink 0 { GLink.init with retrain := true, fails := 1 }), 0, (by decide), (by decide), (by decide), (by decide), (by decide)⟩
theorem wit_GorwastaLinksComplete_5 : ∃ (s : State) (l peer plink cluster rhash : Nat) (x : Dev), (s.live) ∧ (s.dev.linkable l = true) ∧ (s.dev.linkState l = 1) ∧ (x = s.dev.setLink l { s.dev.link l with train := some (peer, plink, cluster, rhash) }) ∧ (x.trainOk l = true) :=
  ⟨W.st (fun d => (W.clu d).setF (F.GWL_LSTAT_STATE 0) 1), 0, 1, 0, 9, 5, ((W.clu State.reset.dev).setF (F.GWL_LSTAT_STATE 0) 1).setLink 0 { GLink.init with train := some (1, 0, 9, 5) }, (by decide), (by decide), (by decide), (by decide), (by decide)⟩
theorem wit_GorwastaLinksComplete_6 : ∃ (s : State) (l peer plink cluster rhash : Nat) (x : Dev), (s.live) ∧ (s.dev.linkable l = true) ∧ (s.dev.linkState l = 1) ∧ (x = s.dev.setLink l { s.dev.link l with train := some (peer, plink, cluster, rhash) }) ∧ (x.trainOk l = false) :=
  ⟨W.st (fun d => (W.clu d).setF (F.GWL_LSTAT_STATE 0) 1), 0, 2, 0, 9, 5, ((W.clu State.reset.dev).setF (F.GWL_LSTAT_STATE 0) 1).setLink 0 { GLink.init with train := some (2, 0, 9, 5) }, (by decide), (by decide), (by decide), (by decide), (by decide)⟩
theorem wit_GorwastaLinksComplete_7 : ∃ (s : State) (l : Nat) (f : GwlFrame), (s.live) ∧ (s.dev.linkUp l = true) ∧ ((s.dev.link l).hunting = false) ∧ (frameFault f = none) ∧ (f.ty = 0) ∧ (f.seq % 65536 = (s.dev.link l).expect) :=
  ⟨W.st W.clu, 0, W.goodf 0, (by decide), (by decide), (by decide), (by decide), (by decide), (by decide)⟩
theorem wit_GorwastaLinksComplete_8 : ∃ (s : State) (l : Nat) (f : GwlFrame), (s.live) ∧ (s.dev.linkUp l = true) ∧ ((s.dev.link l).hunting = false) ∧ (frameFault f = none) ∧ (f.ty = 0) ∧ (f.seq % 65536 ≠ (s.dev.link l).expect) ∧ (seq16 (s.dev.link l).expect f.seq ≤ 512) :=
  ⟨W.st W.clu, 0, W.goodf 65535, (by decide), (by decide), (by decide), (by decide), (by decide), (by decide), (by decide)⟩
theorem wit_GorwastaLinksComplete_9 : ∃ (s : State) (l : Nat) (f : GwlFrame), (s.live) ∧ (s.dev.linkUp l = true) ∧ ((s.dev.link l).hunting = false) ∧ (frameFault f = none) ∧ (f.ty = 0) ∧ (f.seq % 65536 ≠ (s.dev.link l).expect) ∧ (512 < seq16 (s.dev.link l).expect f.seq) :=
  ⟨W.st W.clu, 0, W.goodf 5, (by decide), (by decide), (by decide), (by decide), (by decide), (by decide), (by decide)⟩
theorem wit_GorwastaLinksComplete_10 : ∃ (s : State) (l : Nat) (f : GwlFrame) (k : Nat), (s.live) ∧ (s.dev.linkUp l = true) ∧ ((s.dev.link l).hunting = false) ∧ (frameFault f = some k) :=
  ⟨W.st W.clu, 0, { W.frame 0 1 0 0 with crc := 0 }, 4, (by decide), (by decide), (by decide), (by decide)⟩
theorem wit_GorwastaLinksComplete_11 : ∃ (s : State) (l : Nat) (f : GwlFrame), (s.live) ∧ (s.dev.linkUp l = true) ∧ ((s.dev.link l).hunting = false) ∧ (frameFault f = none) ∧ (f.ty = 1) :=
  ⟨W.st W.clu, 0, W.frame 1 0 0 0, (by decide), (by decide), (by decide), (by decide), (by decide)⟩
theorem wit_GorwastaLinksComplete_12 : ∃ (s : State) (l : Nat) (f : GwlFrame) (k : Nat), (s.live) ∧ (s.dev.linkUp l = true) ∧ ((s.dev.link l).hunting = false) ∧ (frameFault f = some k) :=
  ⟨W.st W.clu, 0, { W.frame 1 0 0 0 with crc := 0 }, 4, (by decide), (by decide), (by decide), (by decide)⟩
theorem wit_GorwastaLinksComplete_13 : ∃ (s : State) (l : Nat) (f : GwlFrame), (s.live) ∧ (s.dev.linkUp l = true) ∧ ((s.dev.link l).hunting = false) ∧ (frameFault f = none) ∧ (f.ty = 2) :=
  ⟨W.st W.clu, 0, W.frame 2 0 0 0, (by decide), (by decide), (by decide), (by decide), (by decide)⟩
theorem wit_GorwastaLinksComplete_14 : ∃ (s : State) (l : Nat) (f : GwlFrame) (k : Nat), (s.live) ∧ (s.dev.linkUp l = true) ∧ ((s.dev.link l).hunting = false) ∧ (frameFault f = some k) :=
  ⟨W.st W.clu, 0, { W.frame 2 0 0 0 with crc := 0 }, 4, (by decide), (by decide), (by decide), (by decide)⟩
theorem wit_GorwastaLinksComplete_15 : ∃ (s : State) (l : Nat) (f : GwlFrame), (s.live) ∧ (s.dev.linkUp l = true) ∧ ((s.dev.link l).hunting = false) ∧ (frameFault f = none) ∧ (f.ty = 3) :=
  ⟨W.st W.clu, 0, W.frame 3 1 0 (1 + 256), (by decide), (by decide), (by decide), (by decide), (by decide)⟩
theorem wit_GorwastaLinksComplete_16_0 : ∃ (d : Dev) (i v : Nat), (i ≠ d.self) ∧ (1 ≤ seqDist v (AMap.get 0 i d.gwl.hbc)) ∧ (seqDist v (AMap.get 0 i d.gwl.hbc) < 2 ^ 31) :=
  ⟨W.clu State.reset.dev, 1, 1, (by decide), (by decide), (by decide)⟩
theorem wit_GorwastaLinksComplete_17 : ∃ (s : State) (l : Nat) (f : GwlFrame) (k : Nat), (s.live) ∧ (s.dev.linkUp l = true) ∧ ((s.dev.link l).hunting = false) ∧ (frameFault f = some k) :=
  ⟨W.st W.clu, 0, { W.frame 3 1 0 0 with crc := 0 }, 4, (by decide), (by decide), (by decide), (by decide)⟩
theorem wit_GorwastaLinksComplete_18 : ∃ (s : State) (l : Nat), (s.live) ∧ (s.dev.linkUp l = true) :=
  ⟨W.st W.clu, 0, (by decide), (by decide)⟩
theorem wit_GorwastaLinksComplete_19 : ∃ (s : State) (l : Nat), (s.live) ∧ (s.dev.linkUp l = true) ∧ (0 < (s.dev.link l).heldAck) :=
  ⟨W.st (fun d => (W.clu d).setLink 0 { GLink.init with heldAck := 1 }), 0, (by decide), (by decide), (by decide)⟩
theorem wit_GorwastaLinksComplete_20 : ∃ (s : State) (l : Nat), (s.live) ∧ (l < 4) ∧ (s.dev.linkUp l = true ∨ (s.dev.link l).retrain = true) :=
  ⟨W.st W.clu, 0, (by decide), (by decide), (by decide)⟩
theorem wit_GorwastaLinksComplete_21 : ∃ (s : State) (l : Nat), (s.live) ∧ (s.dev.linkUp l = true) :=
  ⟨W.st W.clu, 0, (by decide), (by decide)⟩
theorem wit_GorwastaLinksComplete_22 : ∃ (s : State) (l : Nat), (s.live) ∧ (s.dev.linkUp l = true) ∧ ((s.dev.link l).nak = false) :=
  ⟨W.st W.clu, 0, (by decide), (by decide), (by decide)⟩
theorem wit_GorwastaLinksComplete_23 : ∃ (s : State) (l : Nat), (s.live) ∧ (s.dev.linkUp l = true) ∧ ((s.dev.link l).nak = true) :=
  ⟨W.st (fun d => (W.clu d).setLink 0 { GLink.init with nak := true }), 0, (by decide), (by decide), (by decide)⟩
theorem wit_ClusterCompletes_0 : ∃ (s : State) (x : Dev), (s.live) ∧ (s.dev.flag F.GWL_ID_CLUSTER = true) ∧ (x = { s.dev with gwl := { s.dev.gwl with hbc := AMap.set 0 s.dev.self ((AMap.get 0 s.dev.self s.dev.gwl.hbc + 1) % 2 ^ 32) s.dev.gwl.hbc } }) :=
  ⟨W.st W.clu, { W.clu State.reset.dev with gwl := { (W.clu State.reset.dev).gwl with hbc := [(0, 1)] } }, (by decide), (by decide), (by decide)⟩
theorem wit_ClusterCompletes_1 : ∃ (s : State) (i : Nat), (s.live) ∧ (bit (s.dev.f F.GWL_SETS_REACH) i = true) ∧ (i ≠ s.dev.self) ∧ (AMap.get 0 i s.dev.gwl.heardAt + s.dev.f F.GWL_HB_MISS ≤ s.dev.now) :=
  ⟨W.st (fun d => (W.clu d).setF F.GWL_HB_MISS 0), 1, (by decide), (by decide), (by decide), (by decide)⟩
theorem wit_ClusterCompletes_2 : ∃ (s : State) (fresh : Nat) (new : Nat), (s.live) ∧ (s.dev.flag F.GWL_ID_CLUSTER = true) ∧ (new = setMember (s.dev.f F.GWL_SETS_REACH) s.dev.self true) ∧ (new ≠ s.dev.f F.GWL_SETS_VIEWSET) :=
  ⟨W.st (fun d => (W.clu d).setF F.GWL_SETS_REACH 1), 0, 1, (by decide), (by decide), (by decide), (by decide)⟩
theorem wit_ClusterCompletes_3 : ∃ (s : State) (src nsid r j tag : Nat) (n : Ns) (g : ClusterGeom), (s.live) ∧ (s.dev.cns? nsid = some (n, g)) ∧ (j < g.k + g.m) ∧ (src ≠ s.dev.self) :=
  ⟨W.st W.clu, 1, 1, 0, 0, 3, W.cns, ⟨4, 1⟩, (by decide), (by decide), (by decide), (by decide)⟩
theorem wit_ClusterCompletes_4 : ∃ (s : State) (src nsid r j tag : Nat) (n : Ns) (g : ClusterGeom), (s.live) ∧ (s.dev.cns? nsid = some (n, g)) ∧ (j < g.k + g.m) ∧ (src = s.dev.self) ∧ (s.dev.holder r j = s.dev.self) :=
  ⟨W.st W.clu, 0, 1, 0, 0, 3, W.cns, ⟨4, 1⟩, (by decide), (by decide), (by decide), (by decide), (by decide)⟩
theorem wit_ClusterCompletes_5 : ∃ (s : State) (src nsid r j tag : Nat) (n : Ns) (g : ClusterGeom), (s.live) ∧ (s.dev.cns? nsid = some (n, g)) ∧ (j < g.k + g.m) :=
  ⟨W.st W.clu, 1, 1, 0, 1, 7, W.cns, ⟨4, 1⟩, (by decide), (by decide), (by decide)⟩
theorem wit_ClusterCompletes_6 : ∃ (s : State) (src nsid r j tag : Nat) (v : Option Nat) (n : Ns) (g : ClusterGeom) (x : Gather), (s.live) ∧ (s.dev.cns? nsid = some (n, g)) ∧ (s.dev.gwl.gathers.find? (fun x => x.tag == tag && x.nsid == nsid && x.stripe == r && x.asked.contains j) = some x) :=
  ⟨W.st (fun d => { W.clu d with gwl := { (W.clu d).gwl with gathers := [{ tag := 4, nsid := 1, stripe := 0, why := .resync, asked := [1], got := [], left := [] }] } }), 1, 1, 0, 1, 4, none, W.cns, ⟨4, 1⟩, { tag := 4, nsid := 1, stripe := 0, why := .resync, asked := [1], got := [], left := [] }, (by decide), (by decide), (by decide)⟩
theorem wit_ClusterCompletes_7 : ∃ (s : State) (src nsid r j tag : Nat) (n : Ns) (g : ClusterGeom), (s.live) ∧ (s.dev.cns? nsid = some (n, g)) ∧ (s.dev.gwl.gathers.find? (fun x => x.tag == tag && x.nsid == nsid && x.stripe == r && x.asked.contains j) = none) ∧ (src = s.dev.holder r j) ∧ (s.dev.owner g r ≠ src) ∧ (s.dev.gwl.reads.any (fun x => x.tag == tag && x.nsid == nsid && x.parts.any (fun p => p.stripe == r && p.chunk == j && p.data.isNone)) = true) :=
  ⟨W.st (fun d => { W.clu d with gwl := { (W.clu d).gwl with reads := [W.crd] } }), 1, 1, 0, 1, 0, W.cns, ⟨4, 1⟩, (by decide), (by decide), (by decide), (by decide), (by decide), (by decide)⟩
theorem wit_ClusterCompletes_8 : ∃ (s : State) (src nsid r j tag : Nat) (v : Option Nat) (n : Ns) (g : ClusterGeom), (s.live) ∧ (s.dev.cns? nsid = some (n, g)) ∧ (s.dev.gwl.gathers.find? (fun x => x.tag == tag && x.nsid == nsid && x.stripe == r && x.asked.contains j) = none) ∧ (v ≠ none ∨ src ≠ s.dev.holder r j ∨ s.dev.owner g r = src ∨ s.dev.gwl.reads.any (fun x => x.tag == tag && x.nsid == nsid && x.parts.any (fun p => p.stripe == r && p.chunk == j && p.data.isNone)) = false) :=
  ⟨W.st (fun d => { W.clu d with gwl := { (W.clu d).gwl with reads := [W.crd] } }), 1, 1, 0, 1, 0, some 7, W.cns, ⟨4, 1⟩, (by decide), (by decide), (by decide), (by decide)⟩
theorem wit_ClusterCompletes_9 : ∃ (s : State) (src nsid nsze geom lbaf iu pi : Nat) (ext : Bool) (g : ClusterGeom) (n : Ns), (s.live) ∧ (geomOf geom = some g) ∧ (n = { nsid := nsid, nsze := nsze, ncap := nsze, lbaf := lbaf, iu := iu, pi := pi, ext := ext, comp := 0, attached := [], shared := true, epoch := 0, test := false, resv := Resv.init, cluster := some g }) :=
  ⟨W.st (fun d => { W.clu d with md := { (W.clu d).md with nss := [] } }), 1, 769, 0, 1, 0, 0, 0, false, ⟨4, 1⟩, { W.cns with nsid := 769, nsze := 0, ncap := 0, lbaf := 0, attached := [] }, (by decide), (by decide), (by decide)⟩
theorem wit_ClusterCompletes_10 : ∃ (s : State) (src nsid nsze geom lbaf iu pi : Nat) (ext : Bool) (g : ClusterGeom), (s.live) ∧ (geomOf geom = some g) ∧ (nsze ≠ 0) ∧ (s.dev.gwl.reserved.contains (nsid, nsze, geom, lbaf, iu) = true) :=
  ⟨W.st (fun d => { W.clu d with gwl := { (W.clu d).gwl with reserved := [(769, 8, 1, 0, 0)] } }), 1, 769, 8, 1, 0, 0, 0, false, ⟨4, 1⟩, (by decide), (by decide), (by decide), (by decide)⟩
theorem wit_ClusterCompletes_11 : ∃ (s : State) (src nsid geom lbaf iu pi : Nat) (ext : Bool) (g : ClusterGeom), (s.live) ∧ (geomOf geom = some g) ∧ (769 ≤ nsid) :=
  ⟨W.st W.clu, 1, 769, 1, 0, 0, 0, false, ⟨4, 1⟩, (by decide), (by decide), (by decide)⟩
theorem wit_ClusterCompletes_12 : ∃ (s : State) (lead tseq nsid r recv : Nat) (peer : Option Nat) (parts : List (Nat × Nat × Nat)) (n : Ns) (g : ClusterGeom) (ps : List CPart), (s.live) ∧ (s.dev.cns? nsid = some (n, g)) ∧ (s.dev.owner g r = s.dev.self) ∧ (s.dev.gwl.txs.any (fun x => x.tseq == tseq && x.lead == lead && x.stripe == r) = false) ∧ (ps = (match s.dev.gwl.writes.flatMap (fun w => w.reqs.filter (fun q => q.tseq == tseq && q.lead == lead && lead == s.dev.self)) with
        | q :: _ => q.parts.filter (fun p => p.stripe == r)
        | [] => parts.map (fun p => { stripe := r, chunk := p.1, blk := p.2.1, data := some p.2.2, bad := false }))) :=
  ⟨W.st W.clu, 1, 5, 1, 0, 1, none, [], W.cns, ⟨4, 1⟩, [], (by decide), (by decide), (by decide), (by decide), (by decide)⟩
theorem wit_ClusterCompletes_13 : ∃ (s : State) (src lead tseq nsid r j : Nat) (parts : List (Nat × Nat)) (n : Ns) (g : ClusterGeom) (new : Nat), (s.live) ∧ (s.dev.cns? nsid = some (n, g)) ∧ (s.dev.holder r j = s.dev.self) ∧ (j < g.k + g.m) ∧ (s.dev.flag F.TOP_MODE_CRO = false) ∧ (new = mergeParts (lbaBytes n.lbaf) (s.dev.chunk nsid r j) (parts.map (fun p => { stripe := r, chunk := j, blk := p.1, data := some p.2, bad := false }))) :=
  ⟨W.st W.clu, 1, 1, 5, 1, 0, 0, [], W.cns, ⟨4, 1⟩, 0, (by decide), (by decide), (by decide), (by decide), (by decide), (by decide)⟩
theorem wit_ClusterCompletes_14 : ∃ (s : State) (src lead tseq nsid r j x : Nat) (parts : List (Nat × Nat)) (n : Ns) (g : ClusterGeom) (new : Nat), (s.live) ∧ (s.dev.cns? nsid = some (n, g)) ∧ (s.dev.holder r j = s.dev.self) ∧ (j < g.k + g.m) ∧ (s.dev.flag F.TOP_MODE_CRO = false) ∧ (new = Nat.xor (s.dev.chunk nsid r j) x) :=
  ⟨W.st W.clu, 1, 1, 5, 1, 0, 0, 3, [], W.cns, ⟨4, 1⟩, 3, (by decide), (by decide), (by decide), (by decide), (by decide), (by decide)⟩
theorem wit_ClusterCompletes_15 : ∃ (s : State) (src lead tseq nsid r j : Nat) (parts : List (Nat × Nat)) (delta : Option Nat) (n : Ns) (g : ClusterGeom), (s.live) ∧ (s.dev.cns? nsid = some (n, g)) ∧ (s.dev.holder r j = s.dev.self) ∧ (j < g.k + g.m) ∧ (s.dev.flag F.TOP_MODE_CRO = true) :=
  ⟨W.st (fun d => (W.clu d).setF F.TOP_MODE_CRO 1), 1, 1, 5, 1, 0, 0, [], none, W.cns, ⟨4, 1⟩, (by decide), (by decide), (by decide), (by decide), (by decide)⟩
theorem wit_ClusterCompletes_16 : ∃ (s : State) (lead tseq j delta : Nat) (t : CTx) (n : Ns) (g : ClusterGeom), (s.live) ∧ (s.dev.tx? lead tseq = some t) ∧ (s.dev.cns? t.nsid = some (n, g)) :=
  ⟨W.st (fun d => { W.clu d with gwl := { (W.clu d).gwl with txs := [W.tx] }, clu := { (W.clu d).clu with own := [] } }), 1, 5, 0, 0, W.tx, W.cns, ⟨4, 1⟩, (by decide), (by decide), (by decide)⟩
theorem wit_ClusterCompletes_17 : ∃ (s : State) (lead tseq delta : Nat) (t : CTx) (n : Ns) (g : ClusterGeom), (s.live) ∧ (s.dev.tx? lead tseq = some t) ∧ (s.dev.cns? t.nsid = some (n, g)) :=
  ⟨W.st (fun d => { W.clu d with gwl := { (W.clu d).gwl with txs := [W.tx] }, clu := { (W.clu d).clu with own := [] } }), 1, 5, 0, W.tx, W.cns, ⟨4, 1⟩, (by decide), (by decide), (by decide)⟩
theorem wit_ClusterCompletes_18 : ∃ (s : State) (lead tseq j delta : Nat) (t t1 : CTx) (n : Ns) (g : ClusterGeom), (s.live) ∧ (s.dev.tx? lead tseq = some t) ∧ (s.dev.cns? t.nsid = some (n, g)) ∧ (j ≠ 0xFF) ∧ (t1 = { t with need := NSet.del j t.need, delta := if j < g.k then t.delta ++ [(j, delta)] else t.delta, qWait := t.qWait && j != g.k + 1 }) ∧ (t1.need ≠ [] ∨ t1.qWait = true) :=
  ⟨W.st (fun d => { W.clu d with gwl := { (W.clu d).gwl with txs := [W.tx] }, clu := { (W.clu d).clu with own := [] } }), 1, 5, 0, 0, W.tx, { W.tx with need := [1], delta := [(0, 0)] }, W.cns, ⟨4, 1⟩, (by decide), (by decide), (by decide), (by decide), (by decide), (by decide)⟩
theorem wit_ClusterCompletes_19 : ∃ (s : State) (lead tseq j delta : Nat) (t t1 : CTx) (n : Ns) (g : ClusterGeom), (s.live) ∧ (s.dev.tx? lead tseq = some t) ∧ (s.dev.cns? t.nsid = some (n, g)) ∧ (j ≠ 0xFF) ∧ (t1 = { t with need := NSet.del j t.need, delta := if j < g.k then t.delta ++ [(j, delta)] else t.delta, qWait := t.qWait && j != g.k + 1 }) ∧ (t1.need = []) ∧ (t1.qWait = false) ∧ (j < g.k ∨ t.need.isEmpty = false) :=
  ⟨W.st (fun d => { W.clu d with gwl := { (W.clu d).gwl with txs := [{ W.tx with need := [0] }] }, clu := { (W.clu d).clu with own := [] } }), 1, 5, 0, 0, { W.tx with need := [0] }, { W.tx with need := [], delta := [(0, 0)] }, W.cns, ⟨4, 1⟩, (by decide), (by decide), (by decide), (by decide), (by decide), (by decide), (by decide), (by decide)⟩
theorem wit_ClusterCompletes_20 : ∃ (s : State) (lead tseq j delta : Nat) (t t1 : CTx) (n : Ns) (g : ClusterGeom), (s.live) ∧ (s.dev.tx? lead tseq = some t) ∧ (s.dev.cns? t.nsid = some (n, g)) ∧ (j ≠ 0xFF) ∧ (t1 = { t with need := NSet.del j t.need, delta := if j < g.k then t.delta ++ [(j, delta)] else t.delta, qWait := t.qWait && j != g.k + 1 }) ∧ (t1.need = []) ∧ (t1.qWait = false) ∧ (g.k ≤ j) ∧ (t.need = []) :=
  ⟨W.st (fun d => { W.clu d with gwl := { (W.clu d).gwl with txs := [{ W.tx with need := [], qWait := true }] }, clu := { (W.clu d).clu with own := [] } }), 1, 5, 5, 0, { W.tx with need := [], qWait := true }, { W.tx with need := [] }, W.cns, ⟨4, 1⟩, (by decide), (by decide), (by decide), (by decide), (by decide), (by decide), (by decide), (by decide), (by decide)⟩
theorem wit_ClusterCompletes_21 : ∃ (s : State) (x : CEntry) (rest : List CEntry), (s.live) ∧ (rest = s.dev.clu.mirror.filter (fun y => !(y.owner == x.owner && y.tseq == x.tseq && y.lead == x.lead))) ∧ (x.state = 0 ∨ rest.length < 65280) :=
  ⟨W.st W.clu, W.ent, [], (by decide), (by decide), (by decide)⟩
theorem wit_ClusterCompletes_22 : ∃ (s : State) (lead tseq st : Nat) (t : CTx) (x : CEntry), (s.live) ∧ (s.dev.tx? lead tseq = some t) ∧ (s.dev.clu.own.find? (fun (x : CEntry) => x.tseq == tseq && x.lead == lead) = some x) ∧ (lead = s.dev.self) ∧ (st = 3) ∧ (x.state = 3) :=
  ⟨W.st (fun d => { W.clu d with gwl := { (W.clu d).gwl with txs := [{ W.tx with lead := 0 }] }, clu := { (W.clu d).clu with own := [{ W.ent with lead := 0 }] } }), 0, 5, 3, { W.tx with lead := 0 }, { W.ent with lead := 0 }, (by decide), (by decide), (by decide), (by decide), (by decide), (by decide)⟩
theorem wit_ClusterCompletes_23 : ∃ (s : State) (lead tseq st : Nat), (s.live) ∧ (lead ≠ s.dev.self ∨ st ≠ 3) :=
  ⟨W.st W.clu, 1, 5, 3, (by decide), (by decide)⟩
theorem wit_ClusterCompletes_24 : ∃ (s : State) (src lead tseq : Nat) (t : CTx) (x : CEntry), (s.live) ∧ (s.dev.tx? lead tseq = some t) ∧ (s.dev.clu.own.find? (fun (x : CEntry) => x.tseq == tseq && x.lead == lead) = some x) ∧ (lead ≠ s.dev.self) :=
  ⟨W.st (fun d => { W.clu d with gwl := { (W.clu d).gwl with txs := [W.tx] }, clu := { (W.clu d).clu with own := [W.ent] } }), 1, 1, 5, W.tx, W.ent, (by decide), (by decide), (by decide), (by decide)⟩
theorem wit_ClusterCompletes_25 : ∃ (s : State) (src lead tseq : Nat), (s.live) ∧ (s.dev.tx? lead tseq = none ∨ s.dev.clu.own.find? (fun (x : CEntry) => x.tseq == tseq && x.lead == lead) = none ∨ lead = s.dev.self) :=
  ⟨W.st W.clu, 1, 1, 5, (by decide), (by decide)⟩
theorem wit_ClusterCompletes_26 : ∃ (s : State) (lead tseq : Nat) (t : CTx), (s.live) ∧ (s.dev.tx? lead tseq = some t) ∧ (lead ≠ s.dev.self) :=
  ⟨W.st (fun d => { W.clu d with gwl := { (W.clu d).gwl with txs := [W.tx] }, clu := { (W.clu d).clu with own := [] } }), 1, 5, W.tx, (by decide), (by decide), (by decide)⟩
theorem wit_ClusterCompletes_27 : ∃ (s : State) (lead tseq : Nat), (s.live) ∧ (s.dev.tx? lead tseq = none) :=
  ⟨W.st W.clu, 1, 5, (by decide), (by decide)⟩
theorem wit_ClusterCompletes_28 : ∃ (s : State) (lead tseq : Nat), (s.live) ∧ (s.dev.tx? lead tseq = none) ∧ (lead ≠ s.dev.self) :=
  ⟨W.st W.clu, 1, 5, (by decide), (by decide), (by decide)⟩
theorem wit_ClusterCompletes_29 : ∃ (s : State) (lead tseq : Nat) (t : CTx) (x : CEntry) (y : Dev), (s.live) ∧ (s.dev.tx? lead tseq = some t) ∧ (s.dev.clu.own.find? (fun (x : CEntry) => x.tseq == tseq && x.lead == lead) = some x) ∧ (lead ≠ s.dev.self) ∧ (y = (s.dev.freeEntry lead tseq).unlock lead tseq) :=
  ⟨W.st (fun d => { W.clu d with gwl := { (W.clu d).gwl with txs := [W.tx] }, clu := { (W.clu d).clu with own := [W.ent] } }), 1, 5, W.tx, W.ent, (W.st (fun d => { W.clu d with gwl := { (W.clu d).gwl with txs := [W.tx] }, clu := { (W.clu d).clu with own := [W.ent] } })).dev.freeEntry 1 5 |>.unlock 1 5, (by decide), (by decide), (by decide), (by decide), (by decide)⟩
theorem wit_ClusterCompletes_30 : ∃ (s : State) (lead tseq : Nat) (t : CTx) (x : CEntry), (s.live) ∧ (s.dev.tx? lead tseq = some t) ∧ (s.dev.clu.own.find? (fun (x : CEntry) => x.tseq == tseq && x.lead == lead) = some x) ∧ (lead = s.dev.self) ∧ (x.state = 3) :=
  ⟨W.st (fun d => { W.clu d with gwl := { (W.clu d).gwl with txs := [{ W.tx with lead := 0 }] }, clu := { (W.clu d).clu with own := [{ W.ent with lead := 0 }] } }), 0, 5, { W.tx with lead := 0 }, { W.ent with lead := 0 }, (by decide), (by decide), (by decide), (by decide), (by decide)⟩
theorem wit_ClusterCompletes_31 : ∃ (s : State) (i : Nat) (lost : List (Nat × Nat)), (s.live) :=
  ⟨W.st W.clu, 1, [], (by decide)⟩
theorem wit_ClusterCompletes_32 : ∃ (s : State) (lost : List (Nat × Nat)), (s.live) :=
  ⟨W.st W.clu, [], (by decide)⟩
theorem wit_ClusterCompletes_33 : ∃ (s : State) (src lead tseq : Nat) (lost : List (Nat × Nat)) (es : List CEntry), (s.live) ∧ (es = (s.dev.clu.own ++ s.dev.clu.mirror).filter (fun x => entryUsed x && x.lead == lead && x.tseq == tseq)) ∧ (es.any (fun x => x.state == 3) = true) :=
  ⟨W.st (fun d => { W.clu d with clu := { (W.clu d).clu with mirror := [entrySeal { W.ent with owner := 1 }] } }), 1, 1, 5, [], [entrySeal { W.ent with owner := 1 }], (by decide), (by decide), (by decide)⟩
theorem wit_ClusterCompletes_34 : ∃ (s : State) (src lead tseq : Nat) (lost : List (Nat × Nat)) (es : List CEntry) (x : CEntry), (s.live) ∧ (es = (s.dev.clu.own ++ s.dev.clu.mirror).filter (fun x => entryUsed x && x.lead == lead && x.tseq == tseq)) ∧ (es.any (fun x => x.state == 3) = false) ∧ (es.find? (fun x => x.state == 2 && x.owner == s.dev.self) = some x) :=
  ⟨W.st (fun d => { W.clu d with clu := { (W.clu d).clu with own := [entrySeal { W.ent with state := 2 }] } }), 2, 1, 5, [], [entrySeal { W.ent with state := 2 }], entrySeal { W.ent with state := 2 }, (by decide), (by decide), (by decide), (by decide)⟩
theorem wit_ClusterCompletes_35 : ∃ (s : State) (src lead tseq : Nat) (lost : List (Nat × Nat)) (es : List CEntry), (s.live) ∧ (es = (s.dev.clu.own ++ s.dev.clu.mirror).filter (fun x => entryUsed x && x.lead == lead && x.tseq == tseq)) ∧ (es.any (fun x => x.state == 3) = false) ∧ (es.find? (fun x => x.state == 2 && x.owner == s.dev.self) = none) :=
  ⟨W.st W.clu, 1, 1, 5, [], [], (by decide), (by decide), (by decide), (by decide)⟩
theorem wit_ClusterCompletes_36 : ∃ (s : State) (owner nsid r : Nat) (recv : List (Nat × Nat)), (s.live) ∧ (owner ≠ s.dev.self) ∧ (s.dev.gwl.rejoining = true) :=
  ⟨W.st (fun d => { W.clu d with gwl := { (W.clu d).gwl with rejoining := true } }), 1, 1, 0, [], (by decide), (by decide), (by decide)⟩
theorem wit_ClusterCompletes_37 : ∃ (s : State) (owner nsid r : Nat) (x : Dev), (s.live) ∧ (owner ≠ s.dev.self) ∧ (s.dev.gwl.rejoining = true) ∧ (x = { s.dev with gwl := { s.dev.gwl with finished := NSet.add owner s.dev.gwl.finished } }) :=
  ⟨W.st (fun d => { W.clu d with gwl := { (W.clu d).gwl with rejoining := true } }), 1, 1, 0, { W.clu State.reset.dev with gwl := { (W.clu State.reset.dev).gwl with rejoining := true, finished := [1] } }, (by decide), (by decide), (by decide), (by decide)⟩
theorem wit_ClusterCompletes_38 : ∃ (s : State) (owner nsid r : Nat) (recv : List (Nat × Nat)) (last : Bool) (n : Ns) (g : ClusterGeom), (s.live) ∧ (s.dev.cns? nsid = some (n, g)) ∧ (owner = s.dev.self) ∧ (s.dev.owner g r = s.dev.self) ∧ (s.dev.gwl.resync.contains (s.dev.region nsid r) = true) ∧ (s.dev.flag F.GWL_RESYNC_PAUSE = false) ∧ (r < Dev.stripes n g) ∧ (s.dev.gwl.txs.any (fun t => t.nsid == nsid && t.stripe == r) = false) ∧ (s.dev.gwl.gathers.any (fun x => x.nsid == nsid && x.stripe == r && x.why == .resync) = false) :=
  ⟨W.st (fun d => { W.clu d with gwl := { (W.clu d).gwl with resync := [(W.clu d).region 1 0] } }), 0, 1, 0, [], false, W.cns, ⟨4, 1⟩, (by decide), (by decide), (by decide), (by decide), (by decide), (by decide), (by decide), (by decide), (by decide)⟩
theorem wit_ClusterCompletes_39 : ∃ (s : State) (t : AnchorTok), (s.live) ∧ (s.dev.tokenGood t false = true) :=
  ⟨W.st W.clu, W.tok, (by decide), (by decide)⟩
theorem wit_ClusterCompletes_40 : ∃ (s : State) (t : AnchorTok), (s.live) ∧ (s.dev.tokenGood t false = false) :=
  ⟨W.st W.clu, { W.tok with sigOk := false }, (by decide), (by decide)⟩
theorem wit_TrellisCompletes_0 : ∃ (s : State) (q r seq : Nat) (sub k : Nat), (s.live) ∧ (s.dev.quadOk q = true) ∧ (r < 64) ∧ (sub = s.dev.f (F.TREL_RSUB_SUB q r)) ∧ (k = seqDist (seq % 2 ^ 32) sub) ∧ (s.dev.flag (F.TREL_RCTL_EN q r) = true) ∧ (s.dev.flag (F.TREL_RCTL_STALE q r) = false) ∧ (k ≠ 0) ∧ (k ≤ s.dev.ringE q r - seqDist sub (s.dev.f (F.TREL_RACK_ACK q r))) ∧ (((List.range (min k 4096)).map (fun i => (sub + 1 + i) % 2 ^ 32)).any (fun i => (s.dev.ringDesc q r i).subseq != i) = false) :=
  ⟨W.ringed, 0, 0, 1, 0, 1, (by decide), (by decide), (by decide), (by decide), (by decide), (by decide), (by decide), (by decide), (by decide), (by decide)⟩
theorem wit_TrellisCompletes_1 : ∃ (s : State) (q r seq : Nat) (sub k : Nat), (s.live) ∧ (s.dev.quadOk q = true) ∧ (r < 64) ∧ (sub = s.dev.f (F.TREL_RSUB_SUB q r)) ∧ (k = seqDist (seq % 2 ^ 32) sub) ∧ (s.dev.flag (F.TREL_RCTL_EN q r) = true) ∧ (s.dev.flag (F.TREL_RCTL_STALE q r) = false) ∧ (k = 0 ∨ s.dev.ringE q r - seqDist sub (s.dev.f (F.TREL_RACK_ACK q r)) < k) :=
  ⟨W.ringed, 0, 0, 0, 0, 0, (by decide), (by decide), (by decide), (by decide), (by decide), (by decide), (by decide), (by decide)⟩
theorem wit_TrellisCompletes_2 : ∃ (s : State) (q r seq : Nat) (sub k : Nat), (s.live) ∧ (s.dev.quadOk q = true) ∧ (r < 64) ∧ (sub = s.dev.f (F.TREL_RSUB_SUB q r)) ∧ (k = seqDist (seq % 2 ^ 32) sub) ∧ (s.dev.flag (F.TREL_RCTL_EN q r) = true) ∧ (s.dev.flag (F.TREL_RCTL_STALE q r) = false) ∧ (k ≠ 0) ∧ (k ≤ s.dev.ringE q r - seqDist sub (s.dev.f (F.TREL_RACK_ACK q r))) ∧ (((List.range (min k 4096)).map (fun i => (sub + 1 + i) % 2 ^ 32)).any (fun i => (s.dev.ringDesc q r i).subseq != i) = true) :=
  ⟨W.ringed, 0, 0, 2, 0, 2, (by decide), (by decide), (by decide), (by decide), (by decide), (by decide), (by decide), (by decide), (by decide), (by decide)⟩
theorem wit_TrellisCompletes_3 : ∃ (s : State) (q r seq : Nat), (s.live) ∧ (s.dev.quadOk q = true) ∧ (r < 64) ∧ (s.dev.flag (F.TREL_RCTL_EN q r) = false) :=
  ⟨W.st W.up, 0, 0, 1, (by decide), (by decide), (by decide), (by decide)⟩
theorem wit_TrellisCompletes_4 : ∃ (s : State) (q r seq : Nat), (s.live) ∧ (s.dev.quadOk q = true) ∧ (r < 64) ∧ (s.dev.flag (F.TREL_RCTL_EN q r) = true) ∧ (s.dev.flag (F.TREL_RCTL_STALE q r) = true) :=
  ⟨W.st (fun d => ((W.up d).setF (F.TREL_RCTL_EN 0 0) 1).setF (F.TREL_RCTL_STALE 0 0) 1), 0, 0, 1, (by decide), (by decide), (by decide), (by decide), (by decide)⟩
theorem wit_TrellisCompletes_5 : ∃ (s : State) (q r seq : Nat), (s.live) ∧ (s.dev.quadOk q = true) ∧ (r < 64) ∧ (1 ≤ seqDist (seq % 2 ^ 32) (s.dev.f (F.TREL_RACK_ACK q r))) ∧ (seqDist (seq % 2 ^ 32) (s.dev.f (F.TREL_RACK_ACK q r)) ≤ seqDist (s.dev.f (F.TREL_RCMP_CMPSEQ q r)) (s.dev.f (F.TREL_RACK_ACK q r))) :=
  ⟨W.st (fun d => (W.up d).setF (F.TREL_RCMP_CMPSEQ 0 0) 1), 0, 0, 1, (by decide), (by decide), (by decide), (by decide), (by decide)⟩
theorem wit_TrellisCompletes_6 : ∃ (s : State) (q r seq : Nat), (s.live) ∧ (s.dev.quadOk q = true) ∧ (r < 64) ∧ (¬(1 ≤ seqDist (seq % 2 ^ 32) (s.dev.f (F.TREL_RACK_ACK q r)) ∧ seqDist (seq % 2 ^ 32) (s.dev.f (F.TREL_RACK_ACK q r)) ≤ seqDist (s.dev.f (F.TREL_RCMP_CMPSEQ q r)) (s.dev.f (F.TREL_RACK_ACK q r)))) :=
  ⟨W.st W.up, 0, 0, 1, (by decide), (by decide), (by decide), (by decide)⟩
theorem wit_TrellisCompletes_7 : ∃ (s : State) (q r value : Nat) (x : Dev), (s.live) ∧ (s.dev.quadOk q = true) ∧ (r < 64) ∧ (s.dev.flag (F.TREL_RCTL_EN q r) = false) ∧ (bit value 21 = true) ∧ (x = (if 4 ≤ bits value 0 4 ∧ bits value 0 4 ≤ 12 then s.dev.setF (F.TREL_RCTL_LOG2E q r) (bits value 0 4) else s.dev).setF (F.TREL_RCTL_PLOT q r) (bits value 4 9)) :=
  ⟨W.st W.up, 0, 0, 0x200004, (((W.up State.reset.dev).setF (F.TREL_RCTL_LOG2E 0 0) 4).setF (F.TREL_RCTL_PLOT 0 0) 0), (by decide), (by decide), (by decide), (by decide), (by decide), (by decide)⟩
theorem wit_TrellisCompletes_8 : ∃ (s : State) (q r value : Nat), (s.live) ∧ (s.dev.quadOk q = true) ∧ (r < 64) ∧ (s.dev.flag (F.TREL_RCTL_EN q r) = false) ∧ (bit value 21 = false) :=
  ⟨W.st W.up, 0, 0, 4, (by decide), (by decide), (by decide), (by decide), (by decide)⟩
theorem wit_TrellisCompletes_9 : ∃ (s : State) (q r value : Nat), (s.live) ∧ (s.dev.quadOk q = true) ∧ (r < 64) ∧ (s.dev.flag (F.TREL_RCTL_EN q r) = true) ∧ (bit value 21 = false) :=
  ⟨W.st (fun d => (W.up d).setF (F.TREL_RCTL_EN 0 0) 1), 0, 0, 0, (by decide), (by decide), (by decide), (by decide), (by decide)⟩
theorem wit_TrellisCompletes_10 : ∃ (s : State) (q r value : Nat), (s.live) ∧ (s.dev.quadOk q = true) ∧ (r < 64) ∧ (s.dev.flag (F.TREL_RCTL_EN q r) = true) ∧ (bit value 21 = true) :=
  ⟨W.st (fun d => (W.up d).setF (F.TREL_RCTL_EN 0 0) 1), 0, 0, 0x200000, (by decide), (by decide), (by decide), (by decide), (by decide)⟩
theorem wit_TrellisCompletes_11 : ∃ (s : State) (q r u : Nat) (g : Nat) (x : JobDesc) (rest : List (Nat × JobDesc)) (j : Job), (s.live) ∧ (s.dev.quadOk q = true) ∧ (s.dev.underTest q = false) ∧ ((s.dev.startable q).contains r = true) ∧ (g = (s.dev.ringArb q).pick (s.dev.startable q) r) ∧ (takeWait s.dev q g (s.dev.waits q) = some (x, rest)) ∧ (j = s.dev.newJob q g x) ∧ (j.skim = none) :=
  ⟨W.waiting, 0, 0, 0, 0, W.desc, [], W.waiting.dev.newJob 0 0 W.desc, (by decide), (by decide), (by decide), (by decide), (by decide), (by decide), (by rfl), (by decide)⟩
theorem wit_TrellisCompletes_12 : ∃ (s : State) (q r u : Nat) (g : Nat) (x : JobDesc) (rest : List (Nat × JobDesc)) (j : Job) (p : SkimProg) (w : Dev), (s.live) ∧ (s.dev.quadOk q = true) ∧ (s.dev.underTest q = false) ∧ ((s.dev.startable q).contains r = true) ∧ (g = (s.dev.ringArb q).pick (s.dev.startable q) r) ∧ (takeWait s.dev q g (s.dev.waits q) = some (x, rest)) ∧ (j = s.dev.newJob q g x) ∧ (j.skim = some p) ∧ (s.dev.f (F.SKIM_BIND_MODE q u) ≠ 2) ∧ (u < 8) ∧ (s.dev.skimTake q u (skimName q j.slot) = some w) :=
  ⟨W.swait, 0, 0, 0, 0, W.sdesc, [], W.swait.dev.newJob 0 0 W.sdesc, W.skp, (W.swait.dev.skimTake 0 0 (skimName 0 0)).getD W.swait.dev, (by decide), (by decide), (by decide), (by decide), (by decide), (by decide), (by rfl), (by decide +kernel), (by decide), (by decide), (by decide +kernel)⟩
theorem wit_TrellisCompletes_13 : ∃ (s : State) (q slot i : Nat) (c0 : CurdIn) (finds : List Finding) (j : Job), (s.live) ∧ (s.dev.quadOk q = true) ∧ (s.dev.isolated q = false) ∧ (s.dev.job? q slot = some j) ∧ (i ≠ 0) ∧ (i < tplStages j.words) ∧ (i + 1 ≠ tplStages j.words ∨ stageTy j.words i ≠ 0x0B ∨ s.dev.chanHeld (j.desc.outoff + s.dev.outUsed q j) c0.vlen = false) :=
  ⟨W.jobbed, 0, 0, 1, W.curd, [], W.job, (by decide), (by decide), (by decide), (by decide), (by decide), (by decide), (by decide)⟩
theorem wit_TrellisCompletes_14 : ∃ (s : State) (q slot stage : Nat) (curd : CurdIn) (finds : List Finding), (s.live) ∧ (s.dev.quadOk q = true) ∧ (s.dev.isolated q = false) ∧ (s.dev.job? q slot = none) :=
  ⟨W.st W.up, 0, 0, 1, W.curd, [], (by decide), (by decide), (by decide), (by decide)⟩
theorem wit_TrellisCompletes_15 : ∃ (s : State) (q slot stage : Nat) (j : Job), (s.live) ∧ (s.dev.job? q slot = some j) ∧ (0 < j.usedOn stage) :=
  ⟨W.st (fun d => { W.cmd d with trel := { (W.cmd d).trel with jobs := [(0, [{ W.job with used := [(0, 1)] }])] } }), 0, 0, 0, { W.job with used := [(0, 1)] }, (by decide), (by decide), (by decide)⟩
theorem wit_TrellisCompletes_16 : ∃ (s : State) (q slot : Nat) (j : Job), (s.live) ∧ (s.dev.job? q slot = some j) ∧ (j.ending = true ∨ j.drained = true) :=
  ⟨W.st (fun d => { W.cmd d with trel := { (W.cmd d).trel with jobs := [(0, [{ W.job with drained := true }])] } }), 0, 0, { W.job with drained := true }, (by decide), (by decide), (by decide)⟩
theorem wit_TrellisCompletes_17 : ∃ (s : State) (q slot : Nat) (j : Job), (s.live) ∧ (s.dev.job? q slot = some j) ∧ (j.desc.timeout ≠ 0) ∧ (j.drained = false) :=
  ⟨W.st (fun d => { W.cmd d with trel := { (W.cmd d).trel with jobs := [(0, [{ W.job with desc := { W.desc with timeout := 1 } }])] } }), 0, 0, { W.job with desc := { W.desc with timeout := 1 } }, (by decide), (by decide), (by decide), (by decide)⟩
theorem wit_TrellisCompletes_18 : ∃ (s : State) (q : Nat) (x : Segment), (s.live) ∧ (AMap.find q s.dev.trel.swap = some x) ∧ ((s.dev.jobs q).any (fun j => s.dev.graftHolds q j.desc.pid) = false) :=
  ⟨W.st (fun d => { W.up d with trel := { d.trel with swap := [(0, W.seg0)] } }), 0, W.seg0, (by decide), (by decide), (by decide)⟩
theorem wit_NodesComplete_0 : ∃ (s : State) (q un slot unitOff : Nat) (data : List Byte) (poison : List Nat) (untrusted unmapped channel : Bool) (src : Nat) (j : Job) (p : SkimProg) (u : SkimIn), (s.live) ∧ (s.dev.job? q slot = some j) ∧ (j.skim = some p) ∧ (s.dev.quadOk q = true) ∧ (s.dev.quadOk (un / 8) = true) ∧ (u = s.dev.skimIn q un j unitOff p.unit { data := data, poison := poison, unmapped := unmapped, src := src, onChannel := false }) ∧ (s.dev.f (F.SKIM_BIND_MODE (un / 8) (un % 8)) = if channel then 0 else 1) ∧ (channel = false ∨ (u.onChannel = true ∧ un / 8 = q ∧ j.desc.late = false)) ∧ (j.ending = false) ∧ (unitOff % p.unit = 0) ∧ (unitOff + p.unit ≤ j.desc.inlen) ∧ (s.dev.unitInFlight q j p.unit unitOff = true) ∧ (s.dev.fencedInput j unitOff p.unit = true) :=
  ⟨W.sfenced, 0, 0, 0, 0, [], [], false, false, false, 0, W.cjob, W.sprog, W.sfenced.dev.skimIn 0 0 W.cjob 0 W.sprog.unit { data := [], poison := [], unmapped := false, src := 0, onChannel := false }, (by decide), (by decide), (by decide), (by decide), (by decide), (by rfl), (by decide), (by decide), (by decide), (by decide), (by decide), (by decide), (by decide)⟩
theorem wit_NodesComplete_1 : ∃ (s : State) (q un slot unitOff : Nat) (data : List Byte) (poison : List Nat) (untrusted unmapped channel : Bool) (src : Nat) (j : Job) (p : SkimProg) (u : SkimIn) (x : Dev), (s.live) ∧ (s.dev.job? q slot = some j) ∧ (j.skim = some p) ∧ (s.dev.quadOk q = true) ∧ (s.dev.quadOk (un / 8) = true) ∧ (u = s.dev.skimIn q un j unitOff p.unit { data := data, poison := poison, unmapped := unmapped, src := src, onChannel := false }) ∧ (s.dev.f (F.SKIM_BIND_MODE (un / 8) (un % 8)) = if channel then 0 else 1) ∧ (channel = false ∨ (u.onChannel = true ∧ un / 8 = q ∧ j.desc.late = false)) ∧ (j.ending = false) ∧ (unitOff % p.unit = 0) ∧ (unitOff + p.unit ≤ j.desc.inlen) ∧ (s.dev.unitInFlight q j p.unit unitOff = true) ∧ (s.dev.fencedInput j unitOff p.unit = false) ∧ (u.unmapped = true ∨ u.data.length = p.unit) ∧ (s.dev.skimTake (un / 8) (un % 8) (skimName q slot) = some x) :=
  ⟨W.skimmed, 0, 0, 0, 0, List.replicate 4096 0#8, [], false, false, false, 0, W.sjob, W.sprog, W.skimmed.dev.skimIn 0 0 W.sjob 0 W.sprog.unit { data := List.replicate 4096 0#8, poison := [], unmapped := false, src := 0, onChannel := false }, (W.skimmed.dev.skimTake 0 0 (skimName 0 0)).getD W.skimmed.dev, (by decide), (by decide), (by decide), (by decide), (by decide), (by rfl), (by decide), (by decide), (by decide), (by decide), (by decide), (by decide), (by decide), (by decide), (by decide)⟩
theorem wit_NodesComplete_2 : ∃ (s : State) (q u : Nat) (lent : Bool), (s.live) ∧ (s.dev.quadOk q = true) ∧ (u < 8) ∧ (s.dev.f (F.SKIM_BIND_MODE q u) ≠ 2) ∧ ((s.dev.skimJobs q u).isEmpty = true) ∧ (lent = false ∨ s.dev.flag (F.SKIM_BIND_HOLD q u) = false) :=
  ⟨W.st W.up, 0, 0, true, (by decide), (by decide), (by decide), (by decide), (by decide), (by decide)⟩
theorem wit_NodesComplete_3 : ∃ (s : State) (q pipe n : Nat) (ended : Bool), (s.live) ∧ (s.dev.quadOk q = true) ∧ (pipe < 2) :=
  ⟨W.st W.up, 0, 0, 0, false, (by decide), (by decide), (by decide)⟩
theorem wit_NodesComplete_4 : ∃ (s : State) (q n : Nat) (ended : Bool), (s.live) ∧ (s.dev.quadOk q = true) :=
  ⟨W.st W.up, 0, 0, false, (by decide), (by decide)⟩
theorem wit_NodesComplete_5 : ∃ (s : State) (q nsid iu : Nat) (n : Ns) (c : Commit) (x : Dev) (slots : List Slot), (s.live) ∧ (s.dev.ns? nsid = some n) ∧ (s.dev.liveCommit nsid iu = some c) ∧ (s.dev.quadOk q = true) ∧ (n.comp ≠ 0) ∧ (x = s.dev.engTakeInternal 2 q 2 0 (iuUser nsid iu)) ∧ (x.iuHas q nsid iu = true) ∧ (slots = (c.iuSlotsOf n.iuSlots iu).map (fun i => AMap.get ⟨0, 0, 0, false⟩ i s.dev.mram.slots)) ∧ (slots.any (fun i => i.poison || i.umask != 0) = false) :=
  ⟨W.st W.pack, 0, 1, 0, W.cmp, W.com, (W.pack State.reset.dev).engTakeInternal 2 0 2 0 (iuUser 1 0), (W.com.iuSlotsOf W.cmp.iuSlots 0).map (fun i => AMap.get ⟨0, 0, 0, false⟩ i (W.pack State.reset.dev).mram.slots), (by decide), (by decide), (by decide), (by decide), (by decide), (by decide), (by decide), (by decide), (by decide)⟩
theorem wit_NodesComplete_6 : ∃ (s : State) (q nsid iu : Nat) (n : Ns) (c : Commit) (x : Dev) (slots : List Slot), (s.live) ∧ (s.dev.ns? nsid = some n) ∧ (s.dev.liveCommit nsid iu = some c) ∧ (s.dev.quadOk q = true) ∧ (n.comp ≠ 0) ∧ (x = s.dev.engTakeInternal 2 q 2 0 (iuUser nsid iu)) ∧ (x.iuHas q nsid iu = true) ∧ (slots = (c.iuSlotsOf n.iuSlots iu).map (fun i => AMap.get ⟨0, 0, 0, false⟩ i s.dev.mram.slots)) ∧ (slots.any (fun i => i.poison || i.umask != 0) = true) :=
  ⟨W.st W.packp, 0, 1, 0, W.cmp, W.com, (W.packp State.reset.dev).engTakeInternal 2 0 2 0 (iuUser 1 0), (W.com.iuSlotsOf W.cmp.iuSlots 0).map (fun i => AMap.get ⟨0, 0, 0, false⟩ i (W.packp State.reset.dev).mram.slots), (by decide), (by decide), (by decide), (by decide), (by decide), (by decide), (by decide), (by decide), (by decide)⟩
theorem wit_NodesComplete_7 : ∃ (s : State) (nsid iu : Nat) (n : Ns) (cws : List (Option Cw)) (loc q : Nat) (x y : Dev), (s.live) ∧ (s.dev.ns? nsid = some n) ∧ (s.dev.packedAt nsid iu = some loc) ∧ (s.dev.iuGot nsid loc = some cws) ∧ (cws.isEmpty = false) ∧ (q = dieChan (locDie loc) / 8) ∧ (s.dev.quadOk q = true) ∧ (x = s.dev.engTakeInternal 2 q 3 1 (iuUser nsid iu)) ∧ (x.iuHas q nsid iu = true) ∧ (y = (x.bump (F.CHURN_CNT_COUNT q 2) 0x152 q (4096 * cws.length)).engFree 2 q (iuUser nsid iu)) :=
  ⟨W.st W.unpack, 1, 0, W.cmp, ((W.unpack State.reset.dev).iuGot 1 0).getD [], 0, 0, (W.unpack State.reset.dev).engTakeInternal 2 0 3 1 (iuUser 1 0), ((((W.unpack State.reset.dev).engTakeInternal 2 0 3 1 (iuUser 1 0)).bump (F.CHURN_CNT_COUNT 0 2) 0x152 0 (4096 * (((W.unpack State.reset.dev).iuGot 1 0).getD []).length))).engFree 2 0 (iuUser 1 0), (by decide), (by decide), (by decide), (by decide), (by decide), (by decide), (by decide), (by decide), (by decide), (by decide)⟩
theorem wit_NodesComplete_8 : ∃ (s : State) (q t key : Nat) (poisoned : Bool) (bad : List (Nat × Bool)), (s.live) ∧ (s.dev.quadOk q = true) ∧ (s.dev.tblEn q t = true) :=
  ⟨W.st W.table, 0, 0, 7, false, [], (by decide), (by decide), (by decide)⟩
theorem wit_NodesComplete_9 : ∃ (s : State) (q t key : Nat) (poisoned : Bool) (slot : Nat) (bad : List (Nat × Bool)) (j : Job) (k : Nat) (m : Bool), (s.live) ∧ (s.dev.quadOk q = true) ∧ (s.dev.tblEn q t = true) ∧ (s.dev.job? q slot = some j) ∧ (j.desc.prog = 8) ∧ (j.par 64 2 = 256 * q + t) ∧ (j.ending = false) ∧ (s.dev.nextKey j (s.dev.f (F.SIEVE_TBL_KEYW q t)) key poisoned = some (k, m)) :=
  ⟨W.looked, 0, 0, 7, false, 0, [], W.ljob, (((W.looked.dev.nextKey W.ljob 4 7 false).getD (0, false)).1), (((W.looked.dev.nextKey W.ljob 4 7 false).getD (0, false)).2), (by decide), (by decide), (by decide), (by decide), (by decide), (by decide), (by decide), (by decide)⟩
theorem wit_NodesComplete_10 : ∃ (s : State) (q t index : Nat), (s.live) ∧ (s.dev.quadOk q = true) ∧ (t < 256) ∧ (s.dev.flag (F.SIEVE_URES_BUSY q) = false) :=
  ⟨W.st W.table, 0, 0, 2, (by decide), (by decide), (by decide), (by decide)⟩
theorem wit_NodesComplete_11 : ∃ (s : State) (q t index : Nat), (s.live) ∧ (s.dev.quadOk q = true) ∧ (t < 256) ∧ (s.dev.flag (F.SIEVE_URES_BUSY q) = false) :=
  ⟨W.st W.table, 0, 0, 2, (by decide), (by decide), (by decide), (by decide)⟩
theorem wit_NodesComplete_12 : ∃ (s : State) (q t : Nat) (replace : Bool), (s.live) ∧ (s.dev.quadOk q = true) ∧ (t < 256) ∧ (s.dev.flag (F.SIEVE_URES_BUSY q) = false) :=
  ⟨W.st W.table, 0, 0, true, (by decide), (by decide), (by decide), (by decide)⟩
theorem wit_NodesComplete_13 : ∃ (s : State) (q t index : Nat), (s.live) ∧ (s.dev.quadOk q = true) ∧ (t < 256) ∧ (s.dev.flag (F.SIEVE_URES_BUSY q) = false) :=
  ⟨W.st W.table, 0, 0, 2, (by decide), (by decide), (by decide), (by decide)⟩
theorem wit_NodesComplete_14 : ∃ (s : State) (q t : Nat), (s.live) ∧ (s.dev.quadOk q = true) ∧ (t < 256) ∧ (s.dev.flag (F.SIEVE_URES_BUSY q) = false) :=
  ⟨W.st W.table, 0, 0, (by decide), (by decide), (by decide), (by decide)⟩
theorem wit_NodesComplete_15 : ∃ (s : State) (q : Nat) (st i : Nat), (s.live) ∧ ((s.dev.sieve q).upd = some (st, i)) :=
  ⟨W.st (fun d => (W.up d).setSieve 0 { SieveSt.init with upd := some (0, 2) }), 0, 0, 2, (by decide), (by decide)⟩
theorem wit_NodesComplete_16 : ∃ (s : State) (q t value : Nat) (x : Dev), (s.live) ∧ (s.dev.quadOk q = true) ∧ (t < 256) ∧ (s.dev.tblEn q t = false) ∧ (x = ((((s.dev.setF (F.SIEVE_TBL_BASE q t) (bits value 0 16)).setF (F.SIEVE_TBL_SIZE q t) (bits value 16 17)).setF (F.SIEVE_TBL_CLASS q t) (bits value 33 1)).setF (F.SIEVE_TBL_KEYW q t) (bits value 34 5)).setF (F.SIEVE_TBL_PLOT q t) (bits value 40 9)) :=
  ⟨W.st W.up, 0, 0, 0, (((((W.up State.reset.dev).setF (F.SIEVE_TBL_BASE 0 0) 0).setF (F.SIEVE_TBL_SIZE 0 0) 0).setF (F.SIEVE_TBL_CLASS 0 0) 0).setF (F.SIEVE_TBL_KEYW 0 0) 0).setF (F.SIEVE_TBL_PLOT 0 0) 0, (by decide), (by decide), (by decide), (by decide), (by decide)⟩
theorem wit_NodesComplete_17 : ∃ (s : State) (q t value : Nat), (s.live) ∧ (s.dev.quadOk q = true) ∧ (t < 256) ∧ (s.dev.tblEn q t = true) ∧ (bit value 63 = false) :=
  ⟨W.st W.table, 0, 0, 0, (by decide), (by decide), (by decide), (by decide), (by decide)⟩
theorem wit_NodesComplete_18 : ∃ (s : State) (q t value : Nat), (s.live) ∧ (s.dev.quadOk q = true) ∧ (t < 256) ∧ (s.dev.tblEn q t = true) ∧ (bit value 63 = true) :=
  ⟨W.st W.table, 0, 0, 0x8000000000000000, (by decide), (by decide), (by decide), (by decide), (by decide)⟩
theorem wit_CipherAndDigestComplete_0 : ∃ (s : State) (q ch nsid slot purpose : Nat) (n : Ns), (s.live) ∧ (s.dev.quadOk q = true) ∧ (s.dev.ns? nsid = some n) :=
  ⟨W.st W.dest, 0, 0, 1, 0, 0, W.rns Resv.init, (by decide), (by decide), (by decide)⟩
theorem wit_CipherAndDigestComplete_1 : ∃ (s : State) (q slot purpose : Nat) (j : Job), (s.live) ∧ (s.dev.quadOk q = true) ∧ (s.dev.job? q slot = some j) ∧ (j.purpose = 0 ∨ j.purpose ≠ purpose) :=
  ⟨W.jobbed, 0, 0, 2, W.job, (by decide), (by decide), (by decide), (by decide)⟩
theorem wit_CipherAndDigestComplete_2 : ∃ (s : State) (q slot purpose : Nat) (j : Job), (s.live) ∧ (s.dev.quadOk q = true) ∧ (s.dev.job? q slot = some j) ∧ (j.purpose ≠ 0) ∧ (j.purpose = purpose) :=
  ⟨W.xts, 0, 0, 2, W.xjob, (by decide), (by decide), (by decide), (by decide), (by decide)⟩
theorem wit_CipherAndDigestComplete_3 : ∃ (s : State) (q idx : Nat) (k : KeySlot) (t : List GcmEnt) (l : Nat × Nat), (s.live) ∧ ((s.dev.keySlots q).find? (fun k => k.idx == idx) = some k) ∧ (k.label.purpose = 3) ∧ ((match k.lease with
        | none => true
        | some l => decide (l.2 ≤ l.1)) = true) ∧ (gcmRequest s.dev.gcm k.label.plot k.label.ulabel k.label.epoch = (t, .ok l)) :=
  ⟨W.leased, 0, 0, W.gkey, [{ plot := 0, ulabel := 1, epoch := 0, next := leaseMax }], (0, leaseMax), (by decide), (by decide), (by decide), (by decide), (by decide)⟩
theorem wit_CipherAndDigestComplete_4 : ∃ (s : State) (q idx : Nat) (k : KeySlot) (t : List GcmEnt) (c : Nat), (s.live) ∧ ((s.dev.keySlots q).find? (fun k => k.idx == idx) = some k) ∧ (k.label.purpose = 3) ∧ ((match k.lease with
        | none => true
        | some l => decide (l.2 ≤ l.1)) = true) ∧ (gcmRequest s.dev.gcm k.label.plot k.label.ulabel k.label.epoch = (t, .error c)) :=
  ⟨W.unleased, 0, 0, W.gkey, [{ plot := 0, ulabel := 1, epoch := 1, next := leaseMax }], 3, (by decide), (by decide), (by decide), (by decide), (by decide)⟩
theorem wit_CipherAndDigestComplete_5_0 : ∃ (t : List GcmEnt) (plot ulabel epoch : Nat) (x : GcmEnt), (t.find? (fun y => y.plot == plot && y.ulabel == ulabel) = some x) ∧ (x.epoch = epoch) ∧ (x.next + leaseMax ≤ 2 ^ 64) :=
  ⟨[{ plot := 0, ulabel := 1, epoch := 0, next := 5 }], 0, 1, 0, { plot := 0, ulabel := 1, epoch := 0, next := 5 }, (by decide), (by decide), (by decide)⟩
theorem wit_CipherAndDigestComplete_6 : ∃ (s : State) (q slot : Nat) (j : Job) (done : List OutUnit) (o len : Nat) (m : OutRec), (s.live) ∧ (s.dev.job? q slot = some j) ∧ (j.purpose = 3) ∧ (j.par 65 1 = 1) ∧ ((s.dev.jobKey q j).isSome = true) ∧ (done = (s.dev.product q j).units.take j.feed.checked) ∧ (o = (done.map OutUnit.size).sum) ∧ (gcmMsg j.feed.inp ((done.map (fun u => u.size + 40)).sum) (j.desc.inlen - j.skip - (done.map (fun u => u.size + 40)).sum) = some (len, m)) ∧ (len + 40 ≤ m.length) ∧ (41 ≤ m.length) ∧ (o + heldFrom len ≤ j.feed.sent) :=
  ⟨W.gcmt, 0, 0, W.gjob, [], 0, 1, W.gmsg, (by decide), (by decide), (by decide), (by decide), (by decide), (by decide), (by decide), (by decide), (by decide), (by decide), (by decide)⟩
theorem wit_CipherAndDigestComplete_7 : ∃ (s : State) (q n : Nat) (ended : Bool), (s.live) ∧ (s.dev.quadOk q = true) :=
  ⟨W.st W.up, 0, 0, false, (by decide), (by decide)⟩
theorem wit_CipherAndDigestComplete_8 : ∃ (s : State) (q n : Nat) (ended : Bool), (s.live) ∧ (s.dev.quadOk q = true) :=
  ⟨W.st W.up, 0, 0, false, (by decide), (by decide)⟩
theorem wit_CipherAndDigestComplete_9 : ∃ (s : State) (q s_ plot : Nat) (x : Dev), (s.live) ∧ (s.dev.quadOk q = true) ∧ (s_ < 8) ∧ (s.dev.sesState q s_ ≠ 1) ∧ (s.dev.sesState q s_ ≠ 2) ∧ (x = ((((((List.range 8).foldl (fun (y : Dev) i => (y.setF (F.DGST_RES_DIGEST q s_ i) 0).setF (F.DGST_EXP_DIGEST q s_ i) 0) s.dev).setF (F.DGST_SLEN_BYTES q s_) 0).setF (F.DGST_SSTAT_PLOT q s_) plot).setF (F.DGST_SSTAT_ERR q s_) 0).setF (F.DGST_CMP_MATCH q s_) 0).setF (F.DGST_CMP_MATCH_N q s_) 0) :=
  ⟨W.st W.up, 0, 0, 0, ((((((List.range 8).foldl (fun (y : Dev) i => (y.setF (F.DGST_RES_DIGEST 0 0 i) 0).setF (F.DGST_EXP_DIGEST 0 0 i) 0) (W.up State.reset.dev)).setF (F.DGST_SLEN_BYTES 0 0) 0).setF (F.DGST_SSTAT_PLOT 0 0) 0).setF (F.DGST_SSTAT_ERR 0 0) 0).setF (F.DGST_CMP_MATCH 0 0) 0).setF (F.DGST_CMP_MATCH_N 0 0) 0, (by decide), (by decide), (by decide), (by decide), (by decide), (by decide)⟩
theorem wit_CipherAndDigestComplete_10 : ∃ (s : State) (q s_ plot word : Nat), (s.live) ∧ (s.dev.quadOk q = true) ∧ (s_ < 8) ∧ (s.dev.sesOwner q s_ plot = true) ∧ (s.dev.sesState q s_ = 1) :=
  ⟨W.st (fun d => (W.up d).setF (F.DGST_SSTAT_STATE 0 0) 1), 0, 0, 0, 7, (by decide), (by decide), (by decide), (by decide), (by decide)⟩
theorem wit_CipherAndDigestComplete_11 : ∃ (s : State) (q s_ plot word : Nat), (s.live) ∧ (s.dev.quadOk q = true) ∧ (s_ < 8) ∧ (s.dev.sesOwner q s_ plot = true) ∧ (s.dev.sesState q s_ = 1) :=
  ⟨W.st (fun d => (W.up d).setF (F.DGST_SSTAT_STATE 0 0) 1), 0, 0, 0, 7, (by decide), (by decide), (by decide), (by decide), (by decide)⟩
theorem wit_CipherAndDigestComplete_12 : ∃ (s : State) (q s_ plot word : Nat) (poisoned : Bool), (s.live) ∧ (s.dev.quadOk q = true) ∧ (s_ < 8) ∧ (s.dev.sesOwner q s_ plot = true) ∧ (s.dev.sesState q s_ ≠ 1) :=
  ⟨W.st W.up, 0, 0, 0, 7, false, (by decide), (by decide), (by decide), (by decide), (by decide)⟩
theorem wit_CipherAndDigestComplete_13 : ∃ (s : State) (q s_ n plot word : Nat), (s.live) ∧ (s.dev.quadOk q = true) ∧ (s_ < 8) ∧ (1 ≤ n) ∧ (n ≤ 8) ∧ (s.dev.sesOwner q s_ plot = true) ∧ (s.dev.sesState q s_ = 1) :=
  ⟨W.st (fun d => (W.up d).setF (F.DGST_SSTAT_STATE 0 0) 1), 0, 0, 3, 0, 7, (by decide), (by decide), (by decide), (by decide), (by decide), (by decide), (by decide)⟩
theorem wit_CipherAndDigestComplete_14 : ∃ (s : State) (q s_ n plot word : Nat), (s.live) ∧ (s.dev.quadOk q = true) ∧ (s_ < 8) ∧ (1 ≤ n) ∧ (n ≤ 8) ∧ (s.dev.sesOwner q s_ plot = true) ∧ (s.dev.sesState q s_ = 1) :=
  ⟨W.st (fun d => (W.up d).setF (F.DGST_SSTAT_STATE 0 0) 1), 0, 0, 3, 0, 7, (by decide), (by decide), (by decide), (by decide), (by decide), (by decide), (by decide)⟩
theorem wit_CipherAndDigestComplete_15 : ∃ (s : State) (q s_ n plot word : Nat) (poisoned : Bool), (s.live) ∧ (s.dev.quadOk q = true) ∧ (s_ < 8) ∧ (1 ≤ n) ∧ (n ≤ 8) ∧ (s.dev.sesOwner q s_ plot = true) ∧ (s.dev.sesState q s_ ≠ 1) :=
  ⟨W.st W.up, 0, 0, 3, 0, 7, false, (by decide), (by decide), (by decide), (by decide), (by decide), (by decide), (by decide)⟩
theorem wit_CipherAndDigestComplete_16 : ∃ (s : State) (q s_ plot : Nat), (s.live) ∧ (s.dev.quadOk q = true) ∧ (s_ < 8) ∧ (s.dev.sesOwner q s_ plot = true) ∧ (s.dev.sesState q s_ = 1) ∧ ((s.dev.ses q s_).written = false) :=
  ⟨W.st (fun d => (W.up d).setF (F.DGST_SSTAT_STATE 0 0) 1), 0, 0, 0, (by decide), (by decide), (by decide), (by decide), (by decide), (by decide)⟩
theorem wit_CipherAndDigestComplete_17 : ∃ (s : State) (q s_ plot : Nat), (s.live) ∧ (s.dev.quadOk q = true) ∧ (s_ < 8) ∧ (s.dev.sesOwner q s_ plot = true) ∧ (s.dev.sesState q s_ = 1 ∨ s.dev.sesState q s_ = 2) :=
  ⟨W.st (fun d => (W.up d).setF (F.DGST_SSTAT_STATE 0 0) 2), 0, 0, 0, (by decide), (by decide), (by decide), (by decide), (by decide)⟩
theorem wit_CipherAndDigestComplete_18 : ∃ (s : State) (q s_ : Nat) (fault : Bool), (s.live) ∧ (s.dev.quadOk q = true) ∧ (s_ < 8) ∧ (s.dev.sesState q s_ = 2) :=
  ⟨W.st (fun d => (W.up d).setF (F.DGST_SSTAT_STATE 0 0) 2), 0, 0, false, (by decide), (by decide), (by decide), (by decide)⟩
theorem wit_CipherAndDigestComplete_19 : ∃ (s : State) (q s_ : Nat), (s.live) ∧ (s.dev.quadOk q = true) ∧ (s_ < 8) ∧ (s.dev.sesState q s_ = 1) :=
  ⟨W.st (fun d => (W.up d).setF (F.DGST_SSTAT_STATE 0 0) 1), 0, 0, (by decide), (by decide), (by decide), (by decide)⟩
theorem wit_CipherAndDigestComplete_20 : ∃ (s : State) (q s_ i plot value : Nat) (fault : Bool) (x : Dev), (s.live) ∧ (s.dev.quadOk q = true) ∧ (s_ < 8) ∧ (i < 8) ∧ (s.dev.sesOwner q s_ plot = true) ∧ (x = s.dev.setF (F.DGST_EXP_DIGEST q s_ i) value) :=
  ⟨W.st W.up, 0, 0, 0, 0, 7, false, (W.up State.reset.dev).setF (F.DGST_EXP_DIGEST 0 0 0) 7, (by decide), (by decide), (by decide), (by decide), (by decide), (by decide)⟩
theorem wit_ProgramsComplete_0 : ∃ (s : State) (c : Nat) (x : ProgInst), (s.live) ∧ (fieldCore c = true) ∧ (s.dev.quadOk (c / 8) = true) ∧ (s.dev.underTest (c / 8) = false) ∧ (s.dev.coreState c = 0 ∨ s.dev.coreState c = 3) ∧ ((s.dev.cpu c).prog = none) ∧ ((s.dev.cpu c).halted = false) ∧ (s.dev.nextProg (c / 8) = some x) :=
  ⟨W.prg, 0, W.inst, (by decide), (by decide), (by decide), (by decide), (by decide), (by decide), (by decide), (by decide)⟩
theorem wit_ProgramsComplete_1 : ∃ (s : State) (c : Nat), (s.live) ∧ (fieldCore c = true) ∧ ((s.dev.progOn c).isSome = true) ∧ ((s.dev.cpu c).delay.isSome = true ∨ (s.dev.cpu c).prv = true) :=
  ⟨W.onprv, 0, (by decide), (by decide), (by decide), (by decide)⟩
theorem wit_ProgramsComplete_2 : ∃ (s : State) (c : Nat) (x : ProgInst) (w y : Dev), (s.live) ∧ (fieldCore c = true) ∧ ((s.dev.cpu c).delay = none) ∧ ((s.dev.cpu c).prv = false) ∧ (w = s.dev.setCpu c { s.dev.cpu c with preempt := false }) ∧ (w.progOn c = some x) ∧ (y = w.chargeProg x) :=
  ⟨W.onp, 0, W.insc, W.onp.dev.setCpu 0 { W.onp.dev.cpu 0 with preempt := false }, (W.onp.dev.setCpu 0 { W.onp.dev.cpu 0 with preempt := false }).chargeProg W.insc, (by decide), (by decide), (by decide), (by decide), (by decide), (by decide), (by decide)⟩
theorem wit_ProgramsComplete_3 : ∃ (s : State) (c : Nat) (x : ProgInst), (s.live) ∧ (s.dev.atP c = some x) :=
  ⟨W.onp, 0, W.insc, (by decide), (by decide)⟩
theorem wit_ProgramsComplete_4 : ∃ (s : State) (c : Nat) (x : ProgInst), (s.live) ∧ (s.dev.atP c = some x) :=
  ⟨W.onp, 0, W.insc, (by decide), (by decide)⟩
theorem wit_ProgramsComplete_5 : ∃ (s : State) (c : Nat) (x : ProgInst), (s.live) ∧ (s.dev.atP c = some x) ∧ (x.inTrap = false) :=
  ⟨W.onp, 0, W.insc, (by decide), (by decide), (by decide)⟩
theorem wit_ProgramsComplete_6 : ∃ (s : State) (c : Nat) (x : ProgInst), (s.live) ∧ (s.dev.atP c = some x) ∧ (x.inTrap = true) :=
  ⟨W.trp, 0, { W.insc with inTrap := true }, (by decide), (by decide), (by decide)⟩
theorem wit_ProgramsComplete_7 : ∃ (s : State) (c t : Nat) (x : ProgInst) (n : Nat) (z : ProgInst) (y : Dev), (s.live) ∧ (s.dev.atP c = some x) ∧ (n = seqDist (t % 2 ^ 32) x.pinTail) ∧ (1 ≤ n) ∧ (n ≤ seqDist x.pinHead x.pinTail) ∧ (z = { x with pinTail := t % 2 ^ 32, inCurds := x.inCurds.filter (fun c => !decide (seqDist c.1 x.pinTail < n)) }) ∧ (y = (s.dev.setInst z).pinCredit z n) :=
  ⟨W.curded, 0, 1, { W.insc with pinHead := 1, inCurds := [(0, W.curd)] }, 1, { W.insc with pinHead := 1, pinTail := 1 }, (W.curded.dev.setInst { W.insc with pinHead := 1, pinTail := 1 }).pinCredit { W.insc with pinHead := 1, pinTail := 1 } 1, (by decide), (by decide), (by decide), (by decide), (by decide), (by decide), (by decide)⟩
theorem wit_ProgramsComplete_8 : ∃ (s : State) (c t : Nat) (x : ProgInst) (n : Nat), (s.live) ∧ (s.dev.atP c = some x) ∧ (n = seqDist (t % 2 ^ 32) x.pinTail) ∧ (n = 0 ∨ seqDist x.pinHead x.pinTail < n) :=
  ⟨W.onp, 0, 1, W.insc, 1, (by decide), (by decide), (by decide), (by decide)⟩
theorem wit_ProgramsComplete_9 : ∃ (s : State) (c t : Nat) (x : ProgInst) (n : Nat) (ws : List Nat) (y : Dev), (s.live) ∧ (s.dev.atP c = some x) ∧ (n = seqDist (t % 2 ^ 32) x.poutTail) ∧ (ws = (List.range (min n 16)).map (fun i => leNat (x.out.bytes ((x.poutTail + i) % 16 * 0x200 + 0x100) 8))) ∧ (1 ≤ n) ∧ (n ≤ 16) ∧ (seqDist (t % 2 ^ 32) x.poutHead ≤ 16) ∧ (ws.all poutOk = true) ∧ (x.outLast = false) ∧ (ws.dropLast.all (fun w => !bit w 10) = true) ∧ (y = s.dev.setInst { x with poutTail := t % 2 ^ 32, outLast := (ws.getLast?).any (fun w => bit w 10) }) :=
  ⟨W.outed, 0, 1, W.inso, 1, [1], W.outed.dev.setInst { W.inso with poutTail := 1 }, (by decide), (by decide), (by decide), (by decide), (by decide), (by decide), (by decide), (by decide), (by decide), (by decide), (by decide)⟩
theorem wit_ProgramsComplete_10 : ∃ (s : State) (c t : Nat) (x : ProgInst) (n : Nat) (ws : List Nat), (s.live) ∧ (s.dev.atP c = some x) ∧ (n = seqDist (t % 2 ^ 32) x.poutTail) ∧ (ws = (List.range (min n 16)).map (fun i => leNat (x.out.bytes ((x.poutTail + i) % 16 * 0x200 + 0x100) 8))) ∧ (n = 0 ∨ 16 < n ∨ 16 < seqDist (t % 2 ^ 32) x.poutHead ∨ ws.all poutOk = false ∨ x.outLast = true ∨ ws.dropLast.all (fun w => !bit w 10) = false) :=
  ⟨W.onp, 0, 1, W.insc, 1, [0], (by decide), (by decide), (by decide), (by decide), (by decide)⟩
theorem wit_ProgramsComplete_11 : ∃ (s : State) (tag : Nat) (x : ProgInst), (s.live) ∧ (s.dev.inst? tag = some x) ∧ (x.launch.timeout ≠ 0) ∧ (x.started.isSome = true) :=
  ⟨W.timed, 3, { W.insc with launch := { W.lau with timeout := 1 }, started := some 0 }, (by decide), (by decide), (by decide), (by decide)⟩
theorem wit_MemoryAndPoolsComplete_0 : ∃ (s : State) (q sub : Nat) (arrivals : List MemReq) (elapsed : Nat) (errs : List Nat), (s.live) ∧ (sub < 2) ∧ (s.dev.quadOk q = true) ∧ (s.dev.mcRuns q = false) :=
  ⟨W.st (fun d => (W.up d).setF (F.MEMC_STAT_FAULT 0) 1), 0, 0, [], 0, [], (by decide), (by decide), (by decide), (by decide)⟩
theorem wit_MemoryAndPoolsComplete_1 : ∃ (s : State) (q sub : Nat) (arrivals : List MemReq) (elapsed : Nat) (errs : List Nat), (s.live) ∧ (sub < 2) ∧ (s.dev.quadOk q = true) ∧ (s.dev.mcRuns q = true) :=
  ⟨W.sched, 0, 0, [], 0, [], (by decide), (by decide), (by decide), (by decide)⟩
theorem wit_MemoryAndPoolsComplete_2 : ∃ (s : State) (q id : Nat) (errs : List Nat) (slm : Option (Nat × Nat)) (x : DInflight), (s.live) ∧ ((s.dev.mc q).inflight.find? (fun x => x.id == id) = some x) :=
  ⟨W.st (fun d => ((W.up d)).setMc 0 { MemcSt.init with inflight := [{ id := 3, addr := 0, sub := 0, over_ := [] }] }), 0, 3, [], none, { id := 3, addr := 0, sub := 0, over_ := [] }, (by decide), (by decide)⟩
theorem wit_MemoryAndPoolsComplete_3 : ∃ (s : State) (q : Nat), (s.live) ∧ (s.dev.quadOk q = true) :=
  ⟨W.st W.up, 0, (by decide), (by decide)⟩
theorem wit_MemoryAndPoolsComplete_4 : ∃ (s : State) (q : Nat), (s.live) ∧ (s.dev.quadOk q = true) :=
  ⟨W.st W.up, 0, (by decide), (by decide)⟩
theorem wit_MemoryAndPoolsComplete_5 : ∃ (s : State) (q : Nat), (s.live) ∧ (s.dev.quadOk q = true) ∧ ((List.range 2).any (fun i => !(((s.dev.mc q).sub i).rq ++ ((s.dev.mc q).sub i).wq).isEmpty) = true) ∧ ((s.dev.mc q).postponed < 4) :=
  ⟨W.sched, 0, (by decide), (by decide), (by decide), (by decide)⟩
theorem wit_MemoryAndPoolsComplete_6 : ∃ (s : State) (q : Nat), (s.live) ∧ (s.dev.quadOk q = true) ∧ ((List.range 2).any (fun i => !(((s.dev.mc q).sub i).rq ++ ((s.dev.mc q).sub i).wq).isEmpty) = false ∨ 4 ≤ (s.dev.mc q).postponed) :=
  ⟨W.st W.up, 0, (by decide), (by decide), (by decide)⟩
theorem wit_MemoryAndPoolsComplete_7 : ∃ (s : State) (q : Nat), (s.live) :=
  ⟨W.st W.up, 0, (by decide)⟩
theorem wit_MemoryAndPoolsComplete_8 : ∃ (s : State) (q rank drift : Nat), (s.live) ∧ (s.dev.mcRuns q = true) ∧ (s.dev.flag (F.MEMC_STAT_TRAINED q) = true) ∧ (rank ≤ s.dev.mcRanks q) :=
  ⟨W.st (fun d => (W.up d).setF (F.MEMC_STAT_TRAINED 0) 1), 0, 0, 9, (by decide), (by decide), (by decide), (by decide)⟩
theorem wit_MemoryAndPoolsComplete_9 : ∃ (s : State) (q : Nat), (s.live) ∧ (s.dev.quadOk q = true) ∧ (s.dev.flag (F.MEMC_STAT_FBUSY q) = false) ∧ (s.dev.underTest q = false) :=
  ⟨W.st W.up, 0, (by decide), (by decide), (by decide), (by decide)⟩
theorem wit_MemoryAndPoolsComplete_10 : ∃ (s : State) (q : Nat), (s.live) ∧ (s.dev.quadOk q = true) ∧ (s.dev.flag (F.MEMC_STAT_FBUSY q) = true ∨ s.dev.underTest q = true) :=
  ⟨W.st (fun d => (W.up d).setF (F.MEMC_STAT_FBUSY 0) 1), 0, (by decide), (by decide), (by decide)⟩
theorem wit_MemoryAndPoolsComplete_11 : ∃ (s : State) (q : Nat) (x : Dev), (s.live) ∧ (s.dev.quadOk q = true) ∧ (s.dev.flag (F.MEMC_STAT_FBUSY q) = true) ∧ (x = (((s.dev.setF (F.MEMC_STAT_SET q) (1 - s.dev.f (F.MEMC_STAT_SET q))).setF (F.MEMC_STAT_FBUSY q) 0).setF (F.MEMC_STAT_SREF q) 0).setF (F.MEMC_FCHG_GO q) 0) :=
  ⟨W.st (fun d => (W.up d).setF (F.MEMC_STAT_FBUSY 0) 1), 0, (((((W.up State.reset.dev).setF (F.MEMC_STAT_FBUSY 0) 1).setF (F.MEMC_STAT_SET 0) 1).setF (F.MEMC_STAT_FBUSY 0) 0).setF (F.MEMC_STAT_SREF 0) 0).setF (F.MEMC_FCHG_GO 0) 0, (by decide), (by decide), (by decide), (by decide)⟩
theorem wit_MemoryAndPoolsComplete_12 : ∃ (s : State) (q rank window : Nat) (again : List Bool), (s.live) ∧ (s.dev.quadOk q = true) :=
  ⟨W.st W.up, 0, 0, 4, [false], (by decide), (by decide)⟩
theorem wit_MemoryAndPoolsComplete_13 : ∃ (s : State) (q : Nat) (errs : List Nat) (slm : Option (Nat × Nat)), (s.live) ∧ (s.dev.mcRuns q = true) ∧ (6 ≤ s.dev.f F.TOP_MODE_MODE) ∧ (s.dev.f F.TOP_MODE_MODE ≤ 9) ∧ (s.dev.f F.PWR_PSTATE_PS < 3) ∧ (s.dev.f (F.MEMC_SCRUB_HOURS q) ≠ 0) ∧ (s.dev.f (F.MEMC_STAT_CAPGIB q) * 2 ^ 30 ≠ 0) :=
  ⟨W.st (fun d => (W.up d).setF (F.MEMC_STAT_CAPGIB 0) 8), 0, [], none, (by decide), (by decide), (by decide), (by decide), (by decide), (by decide), (by decide)⟩
theorem wit_MemoryAndPoolsComplete_14 : ∃ (s : State) (q b : Nat) (row : Nat), (s.live) ∧ (((s.dev.mc q).bank b).row = some row) ∧ ((((s.dev.mc q).sub 0).rq ++ ((s.dev.mc q).sub 0).wq ++ (((s.dev.mc q).sub 1).rq ++ ((s.dev.mc q).sub 1).wq)).any (fun r => mcBank (s.dev.mcRanks q) r.addr == b && mcRow (s.dev.mcRanks q) r.addr == row) = false) :=
  ⟨W.st (fun d => ((W.up d)).setMc 0 (MemcSt.init.setBank 0 { MemcSt.init.bank 0 with row := some 7 })), 0, 0, 7, (by decide), (by decide), (by decide)⟩
theorem wit_MemoryAndPoolsComplete_15 : ∃ (s : State) (unit quad inst off : Nat) (uncorrectable dirty : Bool), (s.live) ∧ (unit ≠ 8) ∧ (uncorrectable = false ∨ ((unit = 2 ∨ unit = 3 ∨ unit = 4) ∧ dirty = false)) :=
  ⟨W.st W.up, 0, 0, 0, 0, false, false, (by decide), (by decide), (by decide)⟩
theorem wit_MemoryAndPoolsComplete_16 : ∃ (s : State) (unit quad inst off : Nat) (dirty : Bool), (s.live) ∧ (unit ≠ 8) ∧ ((unit = 2 ∨ unit = 3 ∨ unit = 4) → dirty = true) :=
  ⟨W.st W.up, 0, 0, 0, 0, false, (by decide), (by decide), (by decide)⟩
theorem wit_MemoryAndPoolsComplete_17 : ∃ (s : State) (off : Nat) (x : MramBlk) (found : Nat), (s.live) :=
  ⟨W.st W.up, 0, .slot 0, 1, (by decide)⟩
theorem wit_MemoryAndPoolsComplete_18 : ∃ (s : State) (arrivals : List (Nat × Nat × Nat × Bool)) (here : List PReq), (s.live) ∧ (here = s.dev.pail.waiting ++ arrivals.map (fun a => ⟨a.1, a.2.1, a.2.1, a.2.2.1, a.2.2.2⟩)) :=
  ⟨W.st W.up, [], [], (by decide), (by decide)⟩
theorem wit_MemoryAndPoolsComplete_19 : ∃ (s : State) (h owner : Nat) (steward : Bool), (s.live) ∧ (s.dev.flag (F.PAIL_POOLCFG_EN (hPool h)) = true) ∧ (hIndex h < s.dev.f (F.PAIL_POOLCNT_COUNT (hPool h))) ∧ (tagState (s.dev.pailTag h) = 1) ∧ (tagOwner (s.dev.pailTag h) = owner ∨ (steward || owner == 0 || owner == 0x3FF) = true) :=
  ⟨W.st W.tagged, 0, 7, false, (by decide), (by decide), (by decide), (by decide), (by decide)⟩
theorem wit_MemoryAndPoolsComplete_20 : ∃ (s : State) (h owner : Nat) (steward : Bool), (s.live) ∧ (s.dev.flag (F.PAIL_POOLCFG_EN (hPool h)) = false ∨ s.dev.f (F.PAIL_POOLCNT_COUNT (hPool h)) ≤ hIndex h) :=
  ⟨W.st W.up, 0, 7, false, (by decide), (by decide)⟩
theorem wit_MemoryAndPoolsComplete_21 : ∃ (s : State) (h owner : Nat) (steward : Bool), (s.live) ∧ (s.dev.flag (F.PAIL_POOLCFG_EN (hPool h)) = true) ∧ (hIndex h < s.dev.f (F.PAIL_POOLCNT_COUNT (hPool h))) ∧ (tagState (s.dev.pailTag h) ≠ 1) :=
  ⟨W.st W.tagged, 1, 7, false, (by decide), (by decide), (by decide), (by decide)⟩
theorem wit_MemoryAndPoolsComplete_22 : ∃ (s : State) (h owner : Nat) (steward : Bool), (s.live) ∧ (s.dev.flag (F.PAIL_POOLCFG_EN (hPool h)) = true) ∧ (hIndex h < s.dev.f (F.PAIL_POOLCNT_COUNT (hPool h))) ∧ (tagState (s.dev.pailTag h) = 1) ∧ (tagOwner (s.dev.pailTag h) ≠ owner) ∧ ((steward || owner == 0 || owner == 0x3FF) = false) :=
  ⟨W.st W.tagged, 0, 8, false, (by decide), (by decide), (by decide), (by decide), (by decide), (by decide)⟩
theorem wit_MemoryAndPoolsComplete_23 : ∃ (s : State) (n : Nat), (s.live) :=
  ⟨W.st (fun d => (W.up d).setF (F.PAIL_POOLWM_LOW 0) 8), 0, (by decide)⟩
theorem wit_HalwardCompletes_0 : ∃ (s : State) (c : NCmd) (reqId len : Nat) (zeros : Bool), (s.live) ∧ (s.dev.admitsUp c false true false = true) ∧ (prpFits c (16 + len) false = true) :=
  ⟨W.st W.cmd, W.adm 0, 7, 0, true, (by decide), (by decide), (by decide)⟩
theorem wit_HalwardCompletes_1 : ∃ (s : State) (c : NCmd) (reqId len : Nat) (zeros : Bool), (s.live) ∧ (s.dev.admitsUp c false true false = true) ∧ (prpFits c (16 + len) false = true) :=
  ⟨W.st W.cmd, W.adm 0, 7, 0, true, (by decide), (by decide), (by decide)⟩
theorem wit_HalwardCompletes_2 : ∃ (s : State) (c : NCmd) (reqId len challenge mask : Nat) (zeros : Bool), (s.live) ∧ (s.dev.admitsUp c false true false = true) ∧ (prpFits c (16 + len) false = true) :=
  ⟨W.st W.cmd, W.adm 0, 7, 34, 5, 3, true, (by decide), (by decide), (by decide)⟩
theorem wit_HalwardCompletes_3 : ∃ (s : State) (c : NCmd) (reqId len : Nat) (zeros : Bool), (s.live) ∧ (s.dev.admitsUp c false true false = true) ∧ (prpFits c (16 + len) false = true) :=
  ⟨W.st W.cmd, W.adm 0, 7, 0, true, (by decide), (by decide), (by decide)⟩
theorem wit_HalwardCompletes_4 : ∃ (s : State) (c : NCmd) (reqId len : Nat) (zeros : Bool) (t : Token), (s.live) ∧ (s.dev.admitsUp c false true false = true) ∧ (prpFits c (16 + len) false = true) :=
  ⟨W.st W.cmd, W.adm 0, 7, 320, true, W.tkn 1 4 0, (by decide), (by decide), (by decide)⟩
theorem wit_HalwardCompletes_5 : ∃ (s : State) (c : NCmd) (reqId len : Nat) (zeros : Bool) (t : Token), (s.live) ∧ (s.dev.admitsUp c false true false = true) ∧ (prpFits c (16 + len) false = true) :=
  ⟨W.st W.cmd, W.adm 0, 7, 320, true, W.tkn 2 0 2, (by decide), (by decide), (by decide)⟩
theorem wit_HalwardCompletes_6 : ∃ (s : State) (c : NCmd) (reqId : Nat) (zeros : Bool) (chain : List Nat) (leafOk : Bool), (s.live) ∧ (s.dev.admitsUp c false true false = true) ∧ (prpFits c (16 + chain.length) false = true) :=
  ⟨W.st W.prov, W.adm 0, 7, true, [1, 2], true, (by decide), (by decide), (by decide)⟩
theorem wit_HalwardCompletes_7 : ∃ (s : State) (c : NCmd) (reqId : Nat) (zeros : Bool) (slot : Nat) (key : List Byte), (s.live) ∧ (s.dev.admitsUp c false true false = true) ∧ (prpFits c (16 + (1 + key.length)) false = true) :=
  ⟨W.st W.prov, W.adm 0, 7, true, 3, [], (by decide), (by decide), (by decide)⟩
theorem wit_HalwardCompletes_8 : ∃ (s : State), (s.live) :=
  ⟨W.mi, (by decide)⟩
theorem wit_HalwardCompletes_9 : ∃ (s : State), (s.live) :=
  ⟨W.mi, (by decide)⟩
theorem wit_HalwardCompletes_10 : ∃ (s : State), (s.live) :=
  ⟨W.mi, (by decide)⟩
theorem wit_HalwardCompletes_11 : ∃ (s : State), (s.live) :=
  ⟨W.mi, (by decide)⟩
theorem wit_HalwardCompletes_12 : ∃ (s : State), (s.live) :=
  ⟨W.mi, (by decide)⟩
theorem wit_HalwardCompletes_13 : ∃ (s : State), (s.live) :=
  ⟨W.mi, (by decide)⟩
theorem wit_HalwardCompletes_14 : ∃ (s : State), (s.live) :=
  ⟨W.mi, (by decide)⟩
theorem wit_StepRule_0_0 : ∃ (s : State) (c : Instr) (rest : List Instr), (s.pending = c :: rest) :=
  ⟨{ State.reset with pending := [.powerOn] }, .powerOn, [], (by decide)⟩
theorem wit_StepRule_1_0 : ∃ s : State, (s.pending = []) :=
  ⟨State.reset, (by decide)⟩
theorem wit_StepRule_3_0 : ∃ s t : State, (s.pending.all Instr.wf = true) ∧ (step s = .next t) :=
  ⟨State.reset, { State.reset with dev := State.reset.dev.tick }, (by decide), (by rfl)⟩
theorem wit_ResetState_1_0 : ∃ x : Field, (x.key ≠ F.TOP_ID_PART.key) ∧ (x.key ≠ F.HALW_LCS_STATE.key) ∧ (x.key ≠ F.HALW_LCS_LCCOUNT.key) ∧ (x.key ≠ F.HALW_KEYS_BURNED.key) ∧ (x.key ≠ F.HALW_KEYS_AUTH.key) :=
  ⟨F.TOP_MODE_MODE, (by decide), (by decide), (by decide), (by decide), (by decide)⟩
theorem wit_FieldAccessRules_0_0 : ∃ (r : Reg) (v : Nat) (x : Field), (x.ty = RegTy.RO) :=
  ⟨Reg.TOP_MODE, (0 : Nat), F.TOP_MODE_MODE, (by decide)⟩
theorem wit_FieldAccessRules_1_0 : ∃ (d : Dev) (r : Reg) (v : Nat) (x : Field), (x.ty = .RWL) ∧ (d.regLocked r = true) :=
  ⟨State.reset.dev.setF (F.CHAN_CFG_LOCK 0) 1, Reg.CHAN_CFG 0, 0, F.CHAN_CFG_RATEMAX 0, (by decide), (by decide)⟩
theorem wit_FieldAccessRules_2_0 : ∃ (r : Reg) (x : Field), (x.ty = RegTy.WO) :=
  ⟨Reg.TOP_RESET, F.TOP_RESET_KEY, (by decide)⟩
theorem wit_FieldAccessRules_3_0 : ∃ (r : Reg) (v i : Nat) (x : Field), (x.ty = RegTy.W1C) ∧ (r.isEvt = false) ∧ (i < x.width) :=
  ⟨Reg.TOP_RSTCAUSE, 1, 0, F.TOP_RSTCAUSE_POR, (by decide), (by decide), (by decide)⟩
theorem wit_FieldAccessRules_4_0 : ∃ (r : Reg) (v i : Nat) (x : Field), (x.ty = RegTy.W1S) ∧ (r.isEvt = false) ∧ (i < x.width) :=
  ⟨Reg.TOP_QBIST, 1, 0, F.TOP_QBIST_NOW, (by decide), (by decide), (by decide)⟩
theorem wit_FieldAccessRules_5_0 : ∃ (r : Reg) (v : Nat) (x : Field), (x.ty = RegTy.RW) ∧ (r.isEvt = false) ∧ (takeOf r x.lo = .free) :=
  ⟨Reg.HIF_PORTCFG, 1, F.HIF_PORTCFG_RO_EN, (by decide), (by decide), (by decide)⟩
theorem wit_FieldAccessRules_6_0 : ∃ x y : Field, (y.key ≠ x.key) :=
  ⟨F.TOP_MODE_MODE, F.TOP_MODE_PREV, (by decide)⟩
theorem wit_RegisterOffsets_0_0 : ∃ r : Reg, (Reg.valid r = true) :=
  ⟨Reg.MEMC_MARK 3, (by decide)⟩
theorem wit_RegisterOffsets_1_0 : ∃ (o : Nat) (r : Reg), (Reg.ofOffset o = some r) :=
  ⟨0x10, Reg.TOP_MODE, (by decide)⟩
theorem wit_ArbiterBound_0_0 : ∃ (n r : Nat) (pre l : List (List Nat × Nat)), (∀ x ∈ pre ++ l, (∀ w ∈ x.1, w < n) ∧ x.2 ∈ x.1) ∧ (l.length = 15 + n) ∧ (∀ x ∈ l, r ∈ x.1) :=
  ⟨2, 1, [([0], 0)], List.replicate 17 ([0, 1], 0), (by decide), (by decide), (by decide)⟩
theorem wit_ArbiterBound_1_0 : ∃ (n : Nat) (pre : List (List Nat × Nat)), (∀ x ∈ pre, (∀ w ∈ x.1, w < n) ∧ x.2 ∈ x.1) :=
  ⟨2, [([0, 1], 0)], (by decide)⟩
theorem wit_ArbiterBound_3_0 : ∃ (a : Arb) (waiting : List Nat) (r : Nat), (r ∈ a.urgent) ∧ (r ∈ waiting) :=
  ⟨⟨[(1, 15)], [1]⟩, [0, 1], 1, (by decide), (by decide)⟩
theorem wit_FirstCompletionWins_2_0 : ∃ id id2 : CmdId, (id2 ≠ id) :=
  ⟨⟨0, 0, 1⟩, ⟨0, 0, 2⟩, (by decide)⟩
theorem wit_PailFree_0_0 : ∃ (d : Dev) (h o : Nat) (m : Bool), (d.flag (F.PAIL_POOLCFG_EN (hPool h)) = false ∨ d.f (F.PAIL_POOLCNT_COUNT (hPool h)) ≤ hIndex h) :=
  ⟨State.reset.dev, 1, 5, false, (by decide)⟩
theorem wit_PailFree_1_0 : ∃ (d : Dev) (h o : Nat) (m : Bool), (d.flag (F.PAIL_POOLCFG_EN (hPool h)) = true) ∧ (hIndex h < d.f (F.PAIL_POOLCNT_COUNT (hPool h))) ∧ (tagState (d.pailTag h) ≠ 1) :=
  ⟨((State.reset.dev.setF (F.PAIL_POOLCFG_EN 0) 1).setF (F.PAIL_POOLCNT_COUNT 0) 4), 1, 5, false, (by decide), (by decide), (by decide)⟩
theorem wit_PailFree_2_0 : ∃ (d : Dev) (h o : Nat) (m : Bool), (d.flag (F.PAIL_POOLCFG_EN (hPool h)) = true) ∧ (hIndex h < d.f (F.PAIL_POOLCNT_COUNT (hPool h))) ∧ (tagState (d.pailTag h) = 1) ∧ (tagOwner (d.pailTag h) ≠ o) ∧ (m = false) :=
  ⟨((State.reset.dev.setF (F.PAIL_POOLCFG_EN 0) 1).setF (F.PAIL_POOLCNT_COUNT 0) 4).setPailTag 1 (1024 + 5), 1, 6, false, (by decide), (by decide), (by decide), (by decide), (by decide)⟩
theorem wit_PailFree_3_0 : ∃ (d : Dev) (h o : Nat) (m : Bool), (d.flag (F.PAIL_POOLCFG_EN (hPool h)) = true) ∧ (hIndex h < d.f (F.PAIL_POOLCNT_COUNT (hPool h))) ∧ (tagState (d.pailTag h) = 1) ∧ (tagOwner (d.pailTag h) = o ∨ m = true) ∧ (d.pailLost h = true) :=
  ⟨((((State.reset.dev.setF (F.PAIL_POOLCFG_EN 0) 1).setF (F.PAIL_POOLCNT_COUNT 0) 4).setPailTag 1 (1024 + 5)).setF (F.MEMC_STAT_CAPGIB 0) 4).setF F.TOP_UNITS_QRETIRED 1, 1, 5, false, (by decide), (by decide), (by decide), (by decide), (by decide)⟩
theorem wit_PailFree_4_0 : ∃ (d : Dev) (h o : Nat) (m : Bool), (d.flag (F.PAIL_POOLCFG_EN (hPool h)) = true) ∧ (hIndex h < d.f (F.PAIL_POOLCNT_COUNT (hPool h))) ∧ (tagState (d.pailTag h) = 1) ∧ (tagOwner (d.pailTag h) = o ∨ m = true) ∧ (d.pailLost h = false) :=
  ⟨(((State.reset.dev.setF (F.PAIL_POOLCFG_EN 0) 1).setF (F.PAIL_POOLCNT_COUNT 0) 4).setPailTag 1 (1024 + 5)), 1, 5, false, (by decide), (by decide), (by decide), (by decide), (by decide)⟩
theorem wit_CamInsertAtShifts_0_0 : ∃ (cam : List (Nat × CamEnt)) (base size p f : Nat), (p ≤ f) ∧ (f < base + size) ∧ (AMap.find f cam = none) ∧ ((∀ i, p ≤ i → i < f → (AMap.find i cam).isSome = true)) :=
  ⟨[(1, ⟨0, 0, 0⟩), (2, ⟨0, 0, 0⟩)], 0, 16, 1, 3, (by decide), (by decide), (by decide), (by intro i h1 h2; interval_cases i <;> decide)⟩
theorem wit_CamInsertAtShifts_1_0 : ∃ (cam : List (Nat × CamEnt)) (base size p : Nat), ((∀ i, p ≤ i → i < base + size → (AMap.find i cam).isSome = true)) :=
  ⟨[(1, ⟨0, 0, 0⟩)], 0, 2, 1, (by intro i h1 h2; interval_cases i <;> decide)⟩
theorem wit_CamInsertAtShifts_2_0 : ∃ (cam : List (Nat × CamEnt)) (base i : Nat) (x : CamEnt), (AMap.find i cam = some x) :=
  ⟨[(1, ⟨0, 0, 0⟩)], 0, 1, ⟨0, 0, 0⟩, (by decide)⟩
theorem wit_GuardFalse_0_0 : ∃ (d : Dev) (c w next upto : Nat) (f : Dev → Dev), (wordMeaning c w next upto = some f) ∧ (wOp w ≠ 0x3C) ∧ (d.coreRuns c = true) ∧ ((d.cpu c).halted = false) ∧ ((d.cpu c).waiting = false) ∧ (d.irqDue c = false) ∧ (d.fetchTrap c (d.cpu c).pc.toNat = none) ∧ (condHolds (wG w) (d.cpu c).fl = false) :=
  ⟨W.sec.dev, 32, 0x100642C0, 0, 0, vzAdd 32 1 3 4 5 true, (by rfl), (by decide), (by decide), (by decide), (by decide), (by decide), (by decide), (by decide)⟩
theorem wit_GuardFalse_1_0 : ∃ (d : Dev) (c g mode next : Nat), (mode < 3) ∧ (g ≠ 0xF) ∧ (repAccepts mode next = true) ∧ (d.fetchTrap c (((d.cpu c).pc.toNat + 4) % 2 ^ 64) = none) ∧ (d.coreRuns c = true) ∧ ((d.cpu c).halted = false) ∧ ((d.cpu c).waiting = false) ∧ (d.irqDue c = false) ∧ (d.fetchTrap c (d.cpu c).pc.toNat = none) ∧ (condHolds (g) (d.cpu c).fl = false) :=
  ⟨W.sec.dev, 32, 1, 0, 0x0F400000, (by decide), (by decide), (by decide), (by decide), (by decide), (by decide), (by decide), (by decide), (by decide), (by decide)⟩
theorem wit_ScanFreezesThePart_0_0 : ∃ s : State, (s.dev.test.scanStopped = true) :=
  ⟨{ State.reset with dev := { State.reset.dev with test := { State.reset.dev.test with scanStopped := true } } }, (by decide)⟩
theorem wit_ScanFreezesThePart_1_0 : ∃ s : State, (s.dev.test.scanStopped = true) :=
  ⟨{ State.reset with dev := { State.reset.dev with test := { State.reset.dev.test with scanStopped := true } } }, (by decide)⟩
theorem wit_ProtectionInformationRoundTrip_0_0 : ∃ (ty : Nat) (c : PiCmd), (ty = 1 ∨ ty = 3) ∧ (c.app < 2 ^ 16) ∧ (c.ref < 2 ^ 32) :=
  ⟨1, ⟨true, 7, 5, 6, 0xFFFF⟩, (by decide), (by decide), (by decide)⟩

end Sys2Proof.Machine
end

section
/-! PROOFS. Control space: what a write of one field does to it and to every other field (R6, R9), and what an access does by the
register, or half of one, that it names (R10, R11, R17). -/

namespace Sys2Proof.Machine

/-! ### Bits of field values -/

/-- A bit of the part of a written value that a field takes. -/
theorem bit_fieldOf (x : Field) (v : Nat) {i : Nat} (h : i < x.width) : bit (x.of v) i = bit v (x.lo + i) := by
  simp [bit, Field.of, bits, Nat.testBit_mod_two_pow, Nat.testBit_div_two_pow, h, Nat.add_comm]

theorem bit_mod_two_pow (n : Nat) {w i : Nat} (h : i < w) : bit (n % 2 ^ w) i = bit n i := by
  simp [bit, Nat.testBit_mod_two_pow, h]

/-- Taking from `a` the bits it shares with `b` borrows nothing, so halving goes through the subtraction. -/
theorem sub_land_div_two (a b : Nat) : (a - (a &&& b)) / 2 = a / 2 - (a / 2 &&& b / 2) := by
  have hdiv : (a &&& b) / 2 = a / 2 &&& b / 2 := Nat.and_div_two
  have hodd : (a &&& b) % 2 = 1 ↔ a % 2 = 1 ∧ b % 2 = 1 := Nat.and_mod_two_eq_one
  omega

/-- W1C's new value: the old one without the bits written as ones. -/
theorem bit_sub_land (a b i : Nat) : bit (a - Nat.land a b) i = (bit a i && !bit b i) := by
  show (a - (a &&& b)).testBit i = (a.testBit i && !b.testBit i)
  induction i generalizing a b with
  | zero =>
    have hle : a &&& b ≤ a := Nat.and_le_left
    have hodd : (a &&& b) % 2 = 1 ↔ a % 2 = 1 ∧ b % 2 = 1 := Nat.and_mod_two_eq_one
    simp only [Nat.testBit_zero, ← decide_not, ← Bool.decide_and, decide_eq_decide]
    omega
  | succ i ih => simpa [Nat.testBit_succ, sub_land_div_two] using ih (a / 2) (b / 2)

/-- W1S's new value: the old one with the bits written as ones. -/
theorem bit_lor (a b i : Nat) : bit (Nat.lor a b) i = (bit a i || bit b i) := Nat.testBit_or a b i

/-! ### Writing one field (R6, R9) -/

/-- A field of a register outside EVT and PMU reads back what was put into it. -/
theorem Dev.f_putField_same (d : Dev) {r : Reg} (hr : r.isEvt = false) (x : Field) (v : Nat) :
    (d.putField r x v).f x = v % 2 ^ x.width := by
  simp [Dev.putField, hr]

/-- Putting a value into a field leaves the fields of other keys alone, in both register files. -/
theorem Dev.putField_frame (d : Dev) (r : Reg) (v : Nat) {x y : Field} (h : y.key ≠ x.key) :
    (d.putField r x v).f y = d.f y ∧ (d.putField r x v).ef y = d.ef y := by
  unfold Dev.putField
  split
  · exact ⟨Dev.f_setEf d x y v, Dev.ef_setEf_ne d h v⟩
  · exact ⟨Dev.f_setF_ne d h v, Dev.ef_setF d x y v⟩

theorem Dev.takeField_of_free (d : Dev) {r : Reg} {x : Field} (h : takeOf r x.lo = .free) (v : Nat) :
    d.takeField r x v = d.putField r x v := by
  simp [Dev.takeField, h]

/-- A field with a stated range takes some value, or the write has no effect. -/
theorem Dev.takeField_cases (d : Dev) (r : Reg) (x : Field) (v : Nat) :
    d.takeField r x v = d ∨ ∃ u, d.takeField r x v = d.putField r x u := by
  unfold Dev.takeField
  split
  · exact .inr ⟨_, rfl⟩
  · split
    · exact .inr ⟨_, rfl⟩
    · exact .inl rfl
  · exact .inr ⟨_, rfl⟩

/-- All that a write of one field can do, whatever its access type: nothing, or put some value into that field. -/
theorem Dev.writeField_cases (d : Dev) (r : Reg) (v : Nat) (x : Field) :
    d.writeField r v x = d ∨ ∃ u, d.writeField r v x = d.putField r x u := by
  unfold Dev.writeField
  cases x.ty with
  | RW => exact d.takeField_cases r x _
  | RWL =>
    dsimp only
    split
    · exact .inl rfl
    · exact d.takeField_cases r x _
  | W1C => exact .inr ⟨_, rfl⟩
  | W1S => exact .inr ⟨_, rfl⟩
  | _ => exact .inl rfl

theorem Dev.writeField_RO (d : Dev) (r : Reg) (v : Nat) {x : Field} (h : x.ty = .RO) : d.writeField r v x = d := by
  simp [Dev.writeField, h]

theorem Dev.writeField_RWL_locked (d : Dev) {r : Reg} (v : Nat) {x : Field} (h : x.ty = .RWL) (hl : d.regLocked r = true) :
    d.writeField r v x = d := by
  simp [Dev.writeField, h, hl]

theorem Dev.f_writeField_RW (d : Dev) {r : Reg} (v : Nat) {x : Field} (h : x.ty = .RW) (hr : r.isEvt = false)
    (hfree : takeOf r x.lo = .free) : (d.writeField r v x).f x = bits v x.lo x.width := by
  have hw : d.writeField r v x = d.putField r x (x.of v) := by simp [Dev.writeField, h, Dev.takeField_of_free d hfree]
  rw [hw, Dev.f_putField_same d hr]
  exact Nat.mod_mod _ _

theorem Dev.bit_writeField_W1C (d : Dev) {r : Reg} (v : Nat) {i : Nat} {x : Field} (h : x.ty = .W1C) (hr : r.isEvt = false)
    (hi : i < x.width) : bit ((d.writeField r v x).f x) i = (bit (d.f x) i && !bit v (x.lo + i)) := by
  have hw : d.writeField r v x = d.putField r x (d.f x - Nat.land (d.f x) (x.of v)) := by simp [Dev.writeField, h, hr]
  rw [hw, Dev.f_putField_same d hr, bit_mod_two_pow _ hi, bit_sub_land, bit_fieldOf x v hi]

theorem Dev.bit_writeField_W1S (d : Dev) {r : Reg} (v : Nat) {i : Nat} {x : Field} (h : x.ty = .W1S) (hr : r.isEvt = false)
    (hi : i < x.width) : bit ((d.writeField r v x).f x) i = (bit (d.f x) i || bit v (x.lo + i)) := by
  have hw : d.writeField r v x = d.putField r x (Nat.lor (d.f x) (x.of v)) := by simp [Dev.writeField, h, hr]
  rw [hw, Dev.f_putField_same d hr, bit_mod_two_pow _ hi, bit_lor, bit_fieldOf x v hi]

theorem Dev.writeField_frame (d : Dev) (r : Reg) (v : Nat) {x y : Field} (h : y.key ≠ x.key) :
    (d.writeField r v x).f y = d.f y ∧ (d.writeField r v x).ef y = d.ef y := by
  rcases d.writeField_cases r v x with hw | ⟨u, hw⟩ <;> rw [hw]
  · exact ⟨rfl, rfl⟩
  · exact d.putField_frame r u h

theorem Dev.fieldRead_WO (d : Dev) (r : Reg) {x : Field} (h : x.ty = .WO) : d.fieldRead r x = 0 := by
  simp [Dev.fieldRead, h]

/-- Settles O51: each access type's clause is the lemma above of that type; the frame holds since a write of one field puts a
value into that field or does nothing. -/
theorem fieldAccessRules : Obligations.FieldAccessRules :=
  ⟨fun d r v _ h => d.writeField_RO r v h,
   fun d _ v _ h hl => d.writeField_RWL_locked v h hl,
   fun d r _ h => d.fieldRead_WO r h,
   fun d _ v _ _ h hr hi => d.bit_writeField_W1C v h hr hi,
   fun d _ v _ _ h hr hi => d.bit_writeField_W1S v h hr hi,
   fun d _ v _ h hr hfree => d.f_writeField_RW v h hr hfree,
   fun d r v _ _ h => d.writeField_frame r v h⟩

/-! ### Registers without a rule of their own (R17) -/

/-- A register for which no row or rule says what a write does takes it field by field. -/
theorem Dev.regWrite_of_ownWrite_false (d : Dev) (w : Who) {r : Reg} (h : ownWrite r = false) (v : Nat) (whole poisoned : Bool) :
    d.regWrite w r v whole poisoned = d.writeFields r v := by
  unfold Dev.regWrite
  split
  case h_36 => rfl
  all_goals exact absurd h (by simp [ownWrite])

/-! ### Refused accesses (R10, R411) -/

section
variable (d : Dev) (w : Who) (addr size : Nat) (write : Bool)

theorem Dev.csrFault_of_held (h : d.ef F.EVT_BADINFO_VALID = 1) :
    d.csrFault w addr size write = d.raise 0x007 noPlot [addr, w.owner] := by
  simp [Dev.csrFault, h]

theorem Dev.csrFault_of_free (h : d.ef F.EVT_BADINFO_VALID ≠ 1) :
    d.csrFault w addr size write =
      (((((d.setEf F.EVT_BADADDR_OFFSET addr).setEf F.EVT_BADINFO_OWNER w.owner).setEf F.EVT_BADINFO_WRITE (Bool.nat write)).setEf
        F.EVT_BADINFO_WIDE (Bool.nat (size == 8))).setEf F.EVT_BADINFO_VALID 1).raise 0x007 noPlot [addr, w.owner] := by
  simp [Dev.csrFault, h]

end

/-! ### Accesses by what they reach (R10, R11) -/

section
variable {d : Dev} {w : Who} {addr size : Nat} {r : Reg}

theorem Dev.csrRead_of_bad (h : d.target w addr size false = .bad) :
    d.csrRead w addr size = (2 ^ (8 * size) - 1, d.csrFault w addr size false) := by
  simp [Dev.csrRead, h, allOnes]

theorem Dev.csrRead_of_whole (h : d.target w addr size false = .whole r) : d.csrRead w addr size = (d.regRead r, d) := by
  simp [Dev.csrRead, h]

theorem Dev.csrRead_of_low (h : d.target w addr size false = .low r) :
    d.csrRead w addr size = (d.regRead r % 2 ^ 32, { d.dropLatched w with host := { (d.dropLatched w).host with
      readLatch := (w.num, r.addr, d.regRead r / 2 ^ 32) :: (d.dropLatched w).host.readLatch } }) := by
  simp [Dev.csrRead, h]

theorem Dev.csrRead_of_high_latched {v : Nat} (h : d.target w addr size false = .high r) (hv : d.latched w r.addr = some v) :
    d.csrRead w addr size = (v, d.dropLatched w) := by
  simp [Dev.csrRead, h, hv]

theorem Dev.csrRead_of_high_free (h : d.target w addr size false = .high r) (hv : d.latched w r.addr = none) :
    d.csrRead w addr size = (d.regRead r / 2 ^ 32, d) := by
  simp [Dev.csrRead, h, hv]

variable (v : Nat) (poisoned : Bool)

theorem Dev.csrWrite_of_whole (h : d.target w addr size true = .whole r) :
    d.csrWrite w addr size v poisoned = d.regWrite w r v true poisoned := by
  simp [Dev.csrWrite, h]

theorem Dev.csrWrite_of_low (h : d.target w addr size true = .low r) :
    d.csrWrite w addr size v poisoned = { d.dropHeld w with host := { (d.dropHeld w).host with
      writeHold := (w.num, r.addr, v % 2 ^ 32) :: (d.dropHeld w).host.writeHold } } := by
  simp [Dev.csrWrite, h]

theorem Dev.csrWrite_of_high_held {x : Nat × Nat × Nat} (h : d.target w addr size true = .high r)
    (hx : d.host.writeHold.find? (fun y => y.1 == w.num && y.2.1 == r.addr) = some x) :
    d.csrWrite w addr size v poisoned = (d.dropHeld w).regWrite w r (x.2.2 + 2 ^ 32 * (v % 2 ^ 32)) true poisoned := by
  simp [Dev.csrWrite, h, hx]

theorem Dev.csrWrite_of_high_free (h : d.target w addr size true = .high r)
    (hx : d.host.writeHold.find? (fun y => y.1 == w.num && y.2.1 == r.addr) = none) :
    d.csrWrite w addr size v poisoned = d.regWrite w r (d.regRead r % 2 ^ 32 + 2 ^ 32 * (v % 2 ^ 32)) false poisoned := by
  simp [Dev.csrWrite, h, hx]

end

/-! ### Requesters and the address split at 2^32 -/

section
variable (d : Dev) {by_ : Requester} {addr : Nat} (size v : Nat)

/-- Below 2^32, a requester other than a tenant reads control space. -/
theorem Dev.readAt_controlSpace (hby : ∀ n, by_ ≠ .tenant n) (ha : addr < 2 ^ 32) :
    d.readAt by_ addr size = Dev.reply (d.csrRead (whoOf by_) addr size) := by
  have hlow : ¬barBase ≤ addr := Nat.not_le.mpr ha
  cases by_ with
  | tenant n => exact absurd rfl (hby n)
  | _ => simp [Dev.readAt, hlow]

/-- Below 2^32, a requester other than a tenant writes control space. -/
theorem Dev.writeAt_controlSpace (hby : ∀ n, by_ ≠ .tenant n) (ha : addr < 2 ^ 32) :
    d.writeAt by_ addr size v = d.csrWrite (whoOf by_) addr size v false := by
  have hlow : ¬barBase ≤ addr := Nat.not_le.mpr ha
  cases by_ with
  | tenant n => exact absurd rfl (hby n)
  | _ => simp [Dev.writeAt, hlow]

theorem Dev.writeAt_window (by_ : Requester) (ha : 2 ^ 32 ≤ addr) :
    d.writeAt by_ addr size v = d.windowWriteN by_ addr size v :=
  if_pos ha

/-- CSR_BAD_ACCESS of a write that no register takes. -/
theorem csrBadAccess_write_of_bad (hby : ∀ n, by_ ≠ .tenant n) (ha : addr < 2 ^ 32)
    (h : d.target (whoOf by_) addr size true = .bad) :
    csrBadAccess by_ addr size true d = d.csrFault (whoOf by_) addr size true := by
  have hlow : addr < barBase := ha
  cases by_ with
  | tenant n => exact absurd rfl (hby n)
  | _ => simp [csrBadAccess, hlow, h]

/-- CSR_BAD_ACCESS of a read is a read of control space. -/
theorem csrBadAccess_read (hby : ∀ n, by_ ≠ .tenant n) (ha : addr < 2 ^ 32) :
    csrBadAccess by_ addr size false d = Dev.reply (d.csrRead (whoOf by_) addr size) := by
  simp [csrBadAccess, Dev.readAt_controlSpace d size hby ha]

end

/-! ### The rows of control space -/

section
variable {s : State} (hs : s.live) {by_ : Requester} (hby : ∀ n, by_ ≠ .tenant n) {addr : Nat} (ha : addr < 2 ^ 32) {e : Dev}
include hs hby ha

theorem effects_csrWrite {value : Nat} {wide : Bool}
    (h : s.dev.csrWrite (whoOf by_) addr (if wide then 8 else 4) value false = e) :
    Effects (.csrWrite by_ addr value wide) s (fun x => x = e) :=
  effects_run rfl hs ((s.dev.writeAt_controlSpace _ value hby ha).trans h)

theorem effects_csrSplitWriteLow {value : Nat} (h : s.dev.csrWrite (whoOf by_) addr 4 value false = e) :
    Effects (.csrSplitWriteLow by_ addr value) s (fun x => x = e) :=
  effects_run rfl hs ((s.dev.writeAt_controlSpace 4 value hby ha).trans h)

theorem effects_csrSplitWriteHigh {value : Nat} (h : s.dev.csrWrite (whoOf by_) addr 4 value false = e) :
    Effects (.csrSplitWriteHigh by_ addr value) s (fun x => x = e) :=
  effects_run rfl hs ((s.dev.writeAt_controlSpace 4 value hby ha).trans h)

theorem effects_csrSplitReadLow {y : Nat × Dev} (h : s.dev.csrRead (whoOf by_) addr 4 = y) :
    Effects (.csrSplitReadLow by_ addr) s (fun x => x = Dev.reply y) :=
  effects_run rfl hs ((s.dev.readAt_controlSpace 4 hby ha).trans (congrArg Dev.reply h))

theorem effects_csrSplitReadHigh {y : Nat × Dev} (h : s.dev.csrRead (whoOf by_) addr 4 = y) :
    Effects (.csrSplitReadHigh by_ addr) s (fun x => x = Dev.reply y) :=
  effects_run rfl hs ((s.dev.readAt_controlSpace 4 hby ha).trans (congrArg Dev.reply h))

theorem effects_csrBadAccess_read {size : Nat} {y : Nat × Dev} (h : s.dev.csrRead (whoOf by_) addr size = y) :
    Effects (.csrBadAccess by_ addr size false) s (fun x => x = Dev.reply y) :=
  effects_run rfl hs ((csrBadAccess_read s.dev size hby ha).trans (congrArg Dev.reply h))

theorem effects_csrBadAccess_write {size : Nat} (ht : s.dev.target (whoOf by_) addr size true = .bad)
    (h : s.dev.csrFault (whoOf by_) addr size true = e) :
    Effects (.csrBadAccess by_ addr size true) s (fun x => x = e) :=
  effects_run rfl hs ((csrBadAccess_write_of_bad s.dev size hby ha ht).trans h)

end

/-- Settles O24: below 2^32 each row is a read or a write of control space, and what it does is the lemma above about the target that
the access reaches; above, a write is one of the windows. -/
theorem controlSpaceCompletes : Obligations.ControlSpaceCompletes :=
  ⟨fun s _ _ value _ _ hs hby ha ht hown =>
      effects_csrWrite hs hby ha ((Dev.csrWrite_of_whole value false ht).trans (s.dev.regWrite_of_ownWrite_false _ hown value true false)),
   fun _ _ _ value _ _ hs hby ha ht => effects_csrWrite hs hby ha (Dev.csrWrite_of_whole value false ht),
   fun s by_ _ value _ hs hwin => effects_run rfl hs (s.dev.writeAt_window _ value by_ hwin),
   fun s _ _ _ hs hby ha ht hfree => effects_csrBadAccess_write hs hby ha ht (s.dev.csrFault_of_free _ _ _ true hfree),
   fun s _ _ _ hs hby ha ht hheld => effects_csrBadAccess_write hs hby ha ht (s.dev.csrFault_of_held _ _ _ true hheld),
   fun s _ _ _ hs hby ha ht hfree => effects_csrBadAccess_read hs hby ha
      ((Dev.csrRead_of_bad ht).trans (congrArg (Prod.mk _) (s.dev.csrFault_of_free _ _ _ false hfree))),
   fun s _ _ _ hs hby ha ht hheld => effects_csrBadAccess_read hs hby ha
      ((Dev.csrRead_of_bad ht).trans (congrArg (Prod.mk _) (s.dev.csrFault_of_held _ _ _ false hheld))),
   fun _ _ _ _ _ hs hby ha ht => effects_csrBadAccess_read hs hby ha (Dev.csrRead_of_whole ht),
   fun _ _ _ _ hs hby ha ht => effects_csrSplitReadLow hs hby ha (Dev.csrRead_of_low ht),
   fun _ _ _ _ _ hs hby ha ht hv => effects_csrSplitReadHigh hs hby ha (Dev.csrRead_of_high_latched ht hv),
   fun _ _ _ _ hs hby ha ht hv => effects_csrSplitReadHigh hs hby ha (Dev.csrRead_of_high_free ht hv),
   fun _ _ _ value _ hs hby ha ht => effects_csrSplitWriteLow hs hby ha (Dev.csrWrite_of_low value false ht),
   fun _ _ _ value _ _ hs hby ha ht hx => effects_csrSplitWriteHigh hs hby ha (Dev.csrWrite_of_high_held value false ht hx),
   fun _ _ _ value _ hs hby ha ht hx => effects_csrSplitWriteHigh hs hby ha (Dev.csrWrite_of_high_free value false ht hx)⟩

end Sys2Proof.Machine
end

section
/-! PROOFS. Arbitration (R24): what a round does to the ages and to the urgent list, and the bound on a wait that follows from it. -/

namespace Sys2Proof.Machine

/-! ### Rising lists without repeats -/

theorem NSet.mem_add {k j : Nat} {l : List Nat} : j ∈ NSet.add k l ↔ j = k ∨ j ∈ l := by
  induction l with
  | nil => simp [NSet.add]
  | cons i t ih =>
    unfold NSet.add
    split
    · simp
    · split
      · next e => simp [e]
      · simp [ih, or_left_comm]

theorem NSet.pairwise_add (k : Nat) {l : List Nat} (h : l.Pairwise (· < ·)) : (NSet.add k l).Pairwise (· < ·) := by
  induction l with
  | nil => simp [NSet.add]
  | cons i t ih =>
    obtain ⟨hi, ht⟩ := List.pairwise_cons.mp h
    unfold NSet.add
    split
    · next e => exact List.pairwise_cons.mpr ⟨List.forall_mem_cons.mpr ⟨e, fun x hx => e.trans (hi x hx)⟩, h⟩
    · split
      · exact h
      · refine List.pairwise_cons.mpr ⟨fun x hx => ?_, ih ht⟩
        rcases NSet.mem_add.mp hx with rfl | hx
        · omega
        · exact hi x hx

theorem NSet.mem_foldr_add {j : Nat} (l : List Nat) : j ∈ l.foldr NSet.add [] ↔ j ∈ l := by
  induction l with
  | nil => rfl
  | cons k t ih => rw [List.foldr_cons, NSet.mem_add, ih, List.mem_cons]

theorem NSet.nodup_foldr_add (l : List Nat) : (l.foldr NSet.add []).Nodup := by
  have h : (l.foldr NSet.add []).Pairwise (· < ·) := by
    induction l with
    | nil => exact .nil
    | cons k t ih => exact NSet.pairwise_add k ih
  exact h.imp Nat.ne_of_lt

/-! ### One round -/

/-- Setting the keys of a list, each to its own value, in a map. -/
theorem AMap.get_foldl_set (f : Nat → Nat) (r : Nat) (l : List Nat) (m : List (Nat × Nat)) :
    AMap.get 0 r (l.foldl (fun m k => AMap.set 0 k (f k) m) m) = if r ∈ l then f r else AMap.get 0 r m := by
  induction l generalizing m with
  | nil => rfl
  | cons k t ih =>
    rw [List.foldl_cons, ih]
    by_cases hk : r = k
    · subst hk
      simp [AMap.get_set_same]
    · simp [AMap.get_set_ne _ _ hk, hk]

section
variable (a : Arb) (waiting : List Nat)

/-- The granted requester starts again at age zero, every other that waits ages by one up to 15. -/
theorem Arb.age_round (g r : Nat) :
    (a.round waiting g).age r = if r = g then 0 else if r ∈ waiting then min 15 (a.age r + 1) else a.age r := by
  unfold Arb.age Arb.round
  by_cases hg : r = g
  · subst hg
    rw [if_pos rfl, AMap.get_set_same]
  · rw [if_neg hg, AMap.get_set_ne _ _ hg, AMap.get_foldl_set]
    simp [hg, Arb.age]

/-- The urgent requesters after a round: but for the granted one, those that were, and those that wait and reach age 15. -/
theorem Arb.mem_urgent_round {g u : Nat} :
    u ∈ (a.round waiting g).urgent ↔ u ≠ g ∧ (u ∈ a.urgent ∨ u ∈ waiting ∧ a.age u + 1 = 15) := by
  simp only [Arb.round, List.mem_append, NSet.mem_foldr_add, List.mem_filter, bne_iff_ne, Bool.and_eq_true, beq_iff_eq,
    Bool.not_eq_true', List.contains_eq_mem, decide_eq_false_iff_not]
  tauto

/-- No requester is twice in the urgent list. -/
theorem Arb.nodup_urgent_round (g : Nat) (h : a.urgent.Nodup) : (a.round waiting g).urgent.Nodup := by
  refine List.nodup_append'.mpr ⟨h.filter _, NSet.nodup_foldr_add _, fun u hold hnew => ?_⟩
  have hold' : u ∈ a.urgent := (List.mem_filter.mp hold).1
  have hnot : u ∉ a.urgent := by
    have hfresh := (List.mem_filter.mp ((NSet.mem_foldr_add _).mp hnew)).2
    simp only [Bool.and_eq_true, Bool.not_eq_true', List.contains_eq_mem, decide_eq_false_iff_not] at hfresh
    exact hfresh.2
  exact hnot hold'

/-- While an urgent requester waits, the grant is the first urgent one that waits. -/
theorem Arb.find?_pick (choice : Nat) {r : Nat} (hr : r ∈ a.urgent) (hw : r ∈ waiting) :
    a.urgent.find? (fun u => waiting.contains u) = some (a.pick waiting choice) := by
  cases h : a.urgent.find? (fun u => waiting.contains u) with
  | none => exact absurd (List.find?_eq_none.mp h r hr) (by simpa using hw)
  | some u => simp only [Arb.pick, h]

/-- While an urgent requester waits, no other than an urgent one that waits is granted. -/
theorem Arb.pick_mem (choice : Nat) {r : Nat} (hr : r ∈ a.urgent) (hw : r ∈ waiting) :
    a.pick waiting choice ∈ a.urgent ∧ a.pick waiting choice ∈ waiting := by
  have h := a.find?_pick waiting choice hr hw
  exact ⟨List.mem_of_find?_eq_some h, by simpa using List.find?_some h⟩

end

/-! ### What rounds keep -/

/-- An arbiter over `n` requesters: ages reach 15 at most, the urgent requesters are exactly those of age 15, each once. -/
structure Arb.Sound (n : Nat) (a : Arb) : Prop where
  age_le : ∀ r, a.age r ≤ 15
  age_eq_iff : ∀ r, a.age r = 15 ↔ r ∈ a.urgent
  nodup : a.urgent.Nodup
  lt : ∀ u ∈ a.urgent, u < n

theorem Arb.sound_empty (n : Nat) : (⟨[], []⟩ : Arb).Sound n where
  age_le _ := Nat.zero_le _
  age_eq_iff _ := by simp [Arb.age, AMap.get, AMap.find]
  nodup := .nil
  lt := by simp

theorem Arb.Sound.round {n : Nat} {a : Arb} (h : a.Sound n) {waiting : List Nat} (hw : ∀ w ∈ waiting, w < n) (g : Nat) :
    (a.round waiting g).Sound n where
  age_le r := by
    have := h.age_le r
    rw [Arb.age_round]
    split_ifs <;> omega
  age_eq_iff r := by
    have hle := h.age_le r
    rw [Arb.age_round, Arb.mem_urgent_round, ← h.age_eq_iff r]
    split_ifs with hg hr
    · simp [hg]
    · simp only [hg, hr, ne_eq, not_false_eq_true, true_and]
      omega
    · simp [hg, hr]
  nodup := a.nodup_urgent_round waiting g h.nodup
  lt u hu := by
    obtain ⟨-, hu | ⟨hu, -⟩⟩ := (a.mem_urgent_round waiting).mp hu
    · exact h.lt u hu
    · exact hw u hu

theorem Arb.Sound.after {n : Nat} {a : Arb} (h : a.Sound n) {l : List (List Nat × Nat)} (hl : ∀ x ∈ l, ∀ w ∈ x.1, w < n) :
    (a.after l).Sound n := by
  induction l generalizing a with
  | nil => exact h
  | cons x rest ih =>
    obtain ⟨hx, hrest⟩ := List.forall_mem_cons.mp hl
    exact ih (h.round hx _) hrest

/-- There are at most as many urgent requesters as requesters. -/
theorem Arb.Sound.length_urgent_le {n : Nat} {a : Arb} (h : a.Sound n) : a.urgent.length ≤ n := by
  have hsub : a.urgent ⊆ List.range n := fun u hu => List.mem_range.mpr (h.lt u hu)
  simpa using (h.nodup.subperm hsub).length_le

/-! ### The bound -/

/-- What is removed from a list, or appended to it, puts no member of it further back. -/
theorem idxOf_filter_append_le (q : Nat → Bool) {l : List Nat} {r : Nat} (hr : r ∈ l) (hq : q r = true) (t : List Nat) :
    (l.filter q ++ t).idxOf r ≤ l.idxOf r := by
  induction l with
  | nil => simp at hr
  | cons x xs ih =>
    by_cases hx : x = r
    · simp [hx, hq]
    · have hle := ih ((List.mem_cons.mp hr).resolve_left (Ne.symm hx))
      rw [List.idxOf_cons_ne _ hx, List.filter_cons]
      split
      · rw [List.cons_append, List.idxOf_cons_ne _ hx]
        omega
      · omega

/-- When the first member that `p` accepts leaves a list, any other that `p` accepts moves up, whatever is appended. -/
theorem idxOf_filter_append_lt {p : Nat → Bool} {l : List Nat} {g r : Nat} (hg : l.find? p = some g) (hr : r ∈ l) (hp : p r = true)
    (hne : r ≠ g) (t : List Nat) : (l.filter (fun u => u != g) ++ t).idxOf r < l.idxOf r := by
  induction l with
  | nil => simp at hr
  | cons x xs ih =>
    by_cases hx : p x = true
    · obtain rfl : x = g := by simpa [hx] using hg
      have hle := idxOf_filter_append_le (fun u => u != x) ((List.mem_cons.mp hr).resolve_left hne) (by simpa using hne) t
      rw [List.idxOf_cons_ne _ (Ne.symm hne), List.filter_cons_of_neg (by simp)]
      omega
    · have hxr : x ≠ r := fun e => hx (e ▸ hp)
      have hg' : xs.find? p = some g := by simpa [hx] using hg
      have hxg : x ≠ g := fun e => hx (e ▸ List.find?_some hg')
      have hlt := ih hg' ((List.mem_cons.mp hr).resolve_left (Ne.symm hxr))
      rw [List.filter_cons_of_pos (by simpa using hxg), List.cons_append, List.idxOf_cons_ne _ hxr, List.idxOf_cons_ne _ hxr]
      omega

/-- An urgent requester that waits and is not granted moves up in the urgent list. -/
theorem Arb.idxOf_urgent_round_lt (a : Arb) {waiting : List Nat} (choice : Nat) {r : Nat} (hr : r ∈ a.urgent) (hw : r ∈ waiting)
    (hne : r ≠ a.pick waiting choice) : (a.round waiting (a.pick waiting choice)).urgent.idxOf r < a.urgent.idxOf r :=
  idxOf_filter_append_lt (a.find?_pick waiting choice hr hw) hr (by simpa using hw) hne _

/-- An urgent requester that waits is granted within as many rounds as its place in the urgent list. -/
theorem Arb.mem_grants_of_urgent {a : Arb} {r : Nat} {l : List (List Nat × Nat)} (hr : r ∈ a.urgent) (hw : ∀ x ∈ l, r ∈ x.1)
    (hl : a.urgent.idxOf r < l.length) : r ∈ a.grants l := by
  induction l generalizing a with
  | nil => simp at hl
  | cons x rest ih =>
    obtain ⟨hx, hrest⟩ := List.forall_mem_cons.mp hw
    by_cases hg : r = a.pick x.1 x.2
    · exact List.mem_cons.mpr (.inl hg)
    · have hlt := a.idxOf_urgent_round_lt x.2 hr hx hg
      have hstill : r ∈ (a.round x.1 (a.pick x.1 x.2)).urgent := (a.mem_urgent_round x.1).mpr ⟨hg, .inl hr⟩
      exact List.mem_cons_of_mem _ (ih hstill hrest (by rw [List.length_cons] at hl; omega))

/-- A requester that waits is granted within the rounds that bring its age to 15 and one for each requester. -/
theorem Arb.Sound.mem_grants {n : Nat} {a : Arb} (h : a.Sound n) {r : Nat} {l : List (List Nat × Nat)}
    (hn : ∀ x ∈ l, ∀ w ∈ x.1, w < n) (hw : ∀ x ∈ l, r ∈ x.1) (hl : (15 - a.age r) + n ≤ l.length) : r ∈ a.grants l := by
  induction l generalizing a with
  | nil =>
    have hage : a.age r = 15 := by have := h.age_le r; rw [List.length_nil] at hl; omega
    have := h.lt r ((h.age_eq_iff r).mp hage)
    rw [List.length_nil] at hl
    omega
  | cons x rest ih =>
    by_cases hr : r ∈ a.urgent
    · have := List.idxOf_lt_length_of_mem hr
      have := h.length_urgent_le
      exact Arb.mem_grants_of_urgent hr hw (by omega)
    · obtain ⟨hxn, hrestn⟩ := List.forall_mem_cons.mp hn
      obtain ⟨hx, hrest⟩ := List.forall_mem_cons.mp hw
      by_cases hg : r = a.pick x.1 x.2
      · exact List.mem_cons.mpr (.inl hg)
      · have hyoung : a.age r < 15 := lt_of_le_of_ne (h.age_le r) (fun e => hr ((h.age_eq_iff r).mp e))
        have hages : (a.round x.1 (a.pick x.1 x.2)).age r = a.age r + 1 := by
          rw [Arb.age_round, if_neg hg, if_pos hx]
          omega
        refine List.mem_cons_of_mem _ (ih (h.round hxn _) hrestn hrest ?_)
        rw [List.length_cons] at hl
        omega

/-- Settles O54: the arbiters that rounds reach are sound, and in a sound one a requester that waits first ages to 15 and then moves up in
the urgent list, which holds each requester at most once. -/
theorem arbiterBound : Obligations.ArbiterBound := by
  refine ⟨fun n r pre l hmem hlen hwait => ?_, fun n pre r hmem => ?_, Arb.age_round,
    fun a waiting choice _ => a.pick_mem waiting choice⟩
  · obtain ⟨hpre, hl⟩ := List.forall_mem_append.mp hmem
    have hsound := (Arb.sound_empty n).after (fun x hx => (hpre x hx).1)
    exact hsound.mem_grants (fun x hx => (hl x hx).1) hwait (by omega)
  · have hsound := (Arb.sound_empty n).after (fun x hx => (hmem x hx).1)
    exact ⟨hsound.age_le r, hsound.age_eq_iff r⟩

end Sys2Proof.Machine
end

section
/-! PROOFS. Completions (R14): the first one of a command takes its latch away, so that no second one does anything. -/

namespace Sys2Proof.Machine

/-! ### What leaves the latches alone -/

@[simp] theorem Dev.pmuBump_host (d : Dev) (i n : Nat) : (d.pmuBump i n).host = d.host := by
  unfold Dev.pmuBump
  dsimp only
  split
  · rfl
  · split <;> rfl

/-- Folding operations that leave the host interface alone leaves it alone. -/
theorem Dev.foldl_host {α : Type} (f : Dev → α → Dev) (hf : ∀ d a, (f d a).host = d.host) (l : List α) (d : Dev) :
    (l.foldl f d).host = d.host := by
  induction l generalizing d with
  | nil => rfl
  | cons a t ih => rw [List.foldl_cons, ih, hf]

@[simp] theorem Dev.pmuAdd_host (d : Dev) (src q p n : Nat) : (d.pmuAdd src q p n).host = d.host :=
  Dev.foldl_host _ (fun d i => by split <;> simp) _ d

@[simp] theorem Dev.smart_host (d : Dev) (x k n : Nat) : (d.smart x k n).host = d.host := rfl

@[simp] theorem Dev.setCtrl_latches (d : Dev) (p : Nat) (c : Ctrl) : (d.setCtrl p c).host.latches = d.host.latches := rfl
@[simp] theorem Dev.send_latches (d : Dev) (m : HostMsg) : (d.send m).host.latches = d.host.latches := rfl
@[simp] theorem Dev.stat_latches (d : Dev) (p k n : Nat) : (d.stat p k n).host.latches = d.host.latches := rfl

@[simp] theorem Dev.msix_latches (d : Dev) (p v : Nat) : (d.msix p v).host.latches = d.host.latches := by
  unfold Dev.msix
  split <;> rfl

@[simp] theorem Dev.writeCqe_latches (d : Dev) (p : Nat) (q : Cq) (e : Cqe) :
    (d.writeCqe p q e).host.latches = d.host.latches := by
  unfold Dev.writeCqe
  dsimp only
  split
  · rfl
  · split
    · rfl
    · simp

@[simp] theorem Dev.postCqe_latches (d : Dev) (p cq : Nat) (e : Cqe) : (d.postCqe p cq e).host.latches = d.host.latches := by
  unfold Dev.postCqe
  split
  · rfl
  · split
    · rfl
    · exact d.writeCqe_latches _ _ _

/-! ### Completing -/

/-- A completion for a command that is not outstanding changes nothing. -/
theorem Dev.complete_of_latch?_none {d : Dev} {id : CmdId} (h : d.latch? id = none) (st : Sc) (x y : Nat) :
    d.complete id st x y = d := by
  simp only [Dev.complete, h]

/-- A completion takes the latch of its command, where there is one, and no other. -/
theorem Dev.complete_latches (d : Dev) (id : CmdId) (st : Sc) (x y : Nat) :
    (d.complete id st x y).host.latches = d.host.latches.filter (fun l => !(l.id == id)) := by
  cases h : d.latch? id with
  | none =>
    rw [Dev.complete_of_latch?_none h, eq_comm, List.filter_eq_self]
    simpa [Dev.latch?] using h
  | some l =>
    simp only [Dev.complete, h, Dev.postCqe_latches]
    split_ifs <;> simp [Dev.dropLatch]

theorem Dev.latch?_complete_same (d : Dev) (id : CmdId) (st : Sc) (x y : Nat) : (d.complete id st x y).latch? id = none := by
  simp [Dev.latch?, Dev.complete_latches, List.find?_eq_none]

theorem Dev.latch?_complete_ne (d : Dev) {id id2 : CmdId} (h : id2 ≠ id) (st : Sc) (x y : Nat) :
    (d.complete id st x y).latch? id2 = d.latch? id2 := by
  unfold Dev.latch?
  rw [Dev.complete_latches, List.find?_filter]
  congr 1
  funext l
  by_cases hl : l.id = id2 <;> simp [hl, h]

/-- Settles O55: a completion leaves its command without a latch, and one for a command without a latch changes nothing. -/
theorem firstCompletionWins : Obligations.FirstCompletionWins :=
  ⟨fun d id st x y => d.latch?_complete_same id st x y,
   fun d id st st2 x y x2 y2 => Dev.complete_of_latch?_none (d.latch?_complete_same id st x y) st2 x2 y2,
   fun d _ _ st x y h => d.latch?_complete_ne h st x y⟩

end Sys2Proof.Machine
end

section
/-! PROOFS. The step: every command answers a next state with the queue as it was (R17). -/

namespace Sys2Proof.Machine

/-- Whatever the command and the state, `exec` answers a next state that differs in the part alone: each arm is a `run` or a
`runHard`. -/
theorem exec_next (i : Instr) (s : State) : ∃ d : Dev, exec i s = .next { s with dev := d } := by
  cases i <;> exact ⟨_, rfl⟩

theorem step_of_cons {s : State} {c : Instr} {rest : List Instr} (h : s.pending = c :: rest) :
    step s = exec c { s with pending := rest } := by
  simp only [step, h]

theorem step_of_nil {s : State} (h : s.pending = []) : step s = .next { s with dev := s.dev.tick } := by
  simp only [step, h]

/-- A step drops the command at the front of the queue and leaves the rest. -/
theorem pending_of_step {s t : State} (h : step s = .next t) : t.pending = s.pending.tail := by
  cases hp : s.pending with
  | nil =>
    rw [step_of_nil hp] at h
    cases h
    exact hp
  | cons c rest =>
    obtain ⟨d, hd⟩ := exec_next c { s with pending := rest }
    rw [step_of_cons hp, hd] at h
    cases h
    rfl

/-- Settles O49: a step runs the front command, every command answers a next state with its queue, and a tail of a queue of well-formed
commands is one. -/
theorem stepRule : Obligations.StepRule := by
  refine ⟨fun s c rest h => step_of_cons h, fun s h => step_of_nil h, exec_next, fun s t hwf hstep => ?_, rfl⟩
  have htail := pending_of_step hstep
  refine ⟨?_, htail⟩
  rw [htail, List.all_eq_true]
  exact fun c hc => List.all_eq_true.mp hwf c (List.mem_of_mem_tail hc)

end Sys2Proof.Machine
end

section
/-! PROOFS. The host interface: controllers, doorbells, completion queues, the fetch round, the end of commands, queue creation and
deletion and the identification commands (R14, R29, R30, R61 to R65, R70, R73, R74, R91, R104). -/

namespace Sys2Proof.Machine

section
variable {d : Dev} {p y v : Nat}

/-! ### Doorbells (R61, R30) -/

/-- A doorbell of a function that is there, for an enabled plot, is not ignored. -/
theorem doorbell_heard (hp : p < 512) (hen : d.plotEn p = true) (hfn : d.fnThere p = true) :
    ¬(512 ≤ p ∨ ¬d.plotEn p ∨ ¬d.fnThere p) := by
  simp [hp, hen, hfn]

variable (hp : p < 512) (hen : d.plotEn p = true) (hfn : d.fnThere p = true)
include hp hen hfn

theorem sqTailDoorbell_of_none (hq : (d.ctrl p).sq? y = none) : sqTailDoorbell p y v d = d.asyncTo p ⟨0, 0, 1⟩ := by
  unfold sqTailDoorbell
  rw [if_neg (doorbell_heard hp hen hfn), hq]

theorem sqTailDoorbell_of_ge {q : Sq} (hq : (d.ctrl p).sq? y = some q) (hv : q.size ≤ v) :
    sqTailDoorbell p y v d = d.asyncTo p ⟨0, 1, 1⟩ := by
  unfold sqTailDoorbell
  rw [if_neg (doorbell_heard hp hen hfn), hq]
  exact if_pos hv

theorem sqTailDoorbell_of_lt {q : Sq} (hq : (d.ctrl p).sq? y = some q) (hv : v < q.size) :
    sqTailDoorbell p y v d = (d.setCtrl p ((d.ctrl p).setSq { q with tail := v })).hostActivity := by
  unfold sqTailDoorbell
  rw [if_neg (doorbell_heard hp hen hfn), hq]
  exact if_neg (Nat.not_le.mpr hv)

theorem cqHeadDoorbell_of_none (hq : (d.ctrl p).cq? y = none) : cqHeadDoorbell p y v d = d.asyncTo p ⟨0, 0, 1⟩ := by
  unfold cqHeadDoorbell
  rw [if_neg (doorbell_heard hp hen hfn), hq]

theorem cqHeadDoorbell_of_ge {q : Cq} (hq : (d.ctrl p).cq? y = some q) (hv : q.size ≤ v) :
    cqHeadDoorbell p y v d = d.asyncTo p ⟨0, 1, 1⟩ := by
  unfold cqHeadDoorbell
  rw [if_neg (doorbell_heard hp hen hfn), hq]
  exact if_pos hv

theorem cqHeadDoorbell_of_lt {q : Cq} (hq : (d.ctrl p).cq? y = some q) (hv : v < q.size) :
    cqHeadDoorbell p y v d =
      ((Dev.flushHeld p y q.held.length (d.setCtrl p ((d.ctrl p).setCq { q with head := v }))).unstall p y).hostActivity := by
  unfold cqHeadDoorbell
  rw [if_neg (doorbell_heard hp hen hfn), hq]
  exact if_neg (Nat.not_le.mpr hv)

end

/-! ### Completion queues (R30, R79) -/

section
variable {d : Dev} {p y : Nat} {q : Cq} (hq : (d.ctrl p).cq? y = some q)
include hq

theorem hostCqStall_of_full (hf : q.full = true) (hs : q.stalled = false) :
    hostCqStall p y d = (((d.setCtrl p ((d.ctrl p).setCq { q with stalled := true })).stallShow p).bumpStat p 6 1).raise 0x00D p [] := by
  simp [hostCqStall, hq, hf, hs]

theorem interruptCoalescingTimeout_of_coalesced (hc : q.coalesced ≠ 0) :
    interruptCoalescingTimeout p y d = (d.setCtrl p ((d.ctrl p).setCq { q with coalesced := 0 })).msix p q.vec := by
  simp [interruptCoalescingTimeout, hq, hc]

end

/-! ### The end of a command (R14, R29) -/

section
variable {d : Dev} {id : CmdId}

/-- A result of the generations its command was fetched under completes it. -/
theorem internalResult_of_current {l : Latch} (hl : d.latch? id = some l) (st : Sc) (dw0 dw1 : Nat) :
    internalResult id l.plotGen l.qGen st dw0 dw1 d = d.complete id st dw0 dw1 := by
  simp [internalResult, hl]

/-- A result of other generations is discarded and counted. -/
theorem internalResult_of_late {l : Latch} {pgen qgen : Nat} (hl : d.latch? id = some l)
    (hg : l.plotGen ≠ pgen ∨ l.qGen ≠ qgen) (st : Sc) (dw0 dw1 : Nat) :
    internalResult id pgen qgen st dw0 dw1 d = d.lateDiscard id.plot := by
  have hno : ¬(l.plotGen = pgen ∧ l.qGen = qgen) := fun h => hg.elim (· h.1) (· h.2)
  simp only [internalResult, hl, if_neg hno]

/-- A result for a command that has ended is discarded and counted. -/
theorem internalResult_of_ended (hl : d.latch? id = none) (pgen qgen : Nat) (st : Sc) (dw0 dw1 : Nat) :
    internalResult id pgen qgen st dw0 dw1 d = d.lateDiscard id.plot := by
  simp only [internalResult, hl]

theorem cmdTmaxExpired_of_outstanding (ho : d.outstanding id = true) (ha : (d.ctrl id.plot).aers.contains id = false)
    (held : List Nat) : cmdTmaxExpired id held d =
      ((((d.complete id .internalErrorTimeout 0 0).bumpStat id.plot 3 1).raise 0x00C id.plot []).timeoutJobs id).orphan
        (fun x => x == id) := by
  unfold cmdTmaxExpired
  rw [if_pos ho, if_neg (Bool.eq_false_iff.mp ha)]

theorem cmdTmaxExpired_of_ended (ho : d.outstanding id = false) (hid : 65536 ≤ id.cid) (held : List Nat) :
    cmdTmaxExpired id held d = (held.foldl (fun (e : Dev) h => e.pailFree h id.plot true) (d.timeoutJobs id)).forgetOps id := by
  unfold cmdTmaxExpired
  rw [if_neg (by simp [ho]), if_pos hid]

end

/-! ### The fetch round (R91, R64) -/

/-- A round with an eligible plot, whose command identifier is not in use, takes the entry of the plot and queue it grants. -/
theorem fetchRound_of_eligible {d : Dev} {cid bytes : Nat} {what : Fetched} {now qs : List Nat} {e : Dev} {p : Nat}
    {k : Nat × Bool × List (Nat × Nat)} (hnow : now = (List.range 512).filter d.eligible) (hne : now ≠ [])
    (he : e = d.fetchWake now) (hp : p = e.host.arb.pick now (e.fetchChoice now)) (hqs : qs = e.fetchQueues p)
    (hk : k = (e.ctrl p).pickQueue qs) (hfree : e.outstanding ⟨p, k.1, cid⟩ = false) :
    ∃ x y : Dev, x = e.setCtrl p ((e.ctrl p).granted qs k.1 k.2.1 k.2.2) ∧
      y = { x with host := { x.host with
        vt := AMap.set 0 p (x.fetchVt p + (if k.1 = 0 then 1 else max 1 (ceilDiv bytes 4096)) * 65536 /
          max 1 (x.f (F.PLOT_FETCH_WEIGHT p))) x.host.vt
        arb := x.host.arb.round now p } } ∧
      fetchRound cid bytes what d = (y.fetchFrom p k.1 cid).fetched ⟨p, k.1, cid⟩ what := by
  refine ⟨_, _, rfl, rfl, ?_⟩
  unfold fetchRound
  dsimp only
  rw [← hnow, ← he, if_neg (by simpa using hne), ← hp, ← hqs, ← hk, if_neg (by simp [hfree])]

/-! ### Queue creation and deletion (R63, R65, R70) -/

section
variable {d : Dev} {c : NCmd} (h : d.admits c false false true = true) {qid : Nat}
include h

theorem createIoSubmissionQueue_of_admits {cqid size : Nat} (prio : Nat) (hqid : qid ≠ 0)
    (hlimit : ¬d.hostActivity.queueLimit c.id.plot false < qid) (hnew : (d.hostActivity.ctrl c.id.plot).sq? qid = none)
    (hroom : d.hostActivity.queueRoom c.id.plot false = true) (hsize : ¬(size < 2 ∨ 65536 < size)) (hcqid : cqid ≠ 0)
    (hcq : (d.hostActivity.ctrl c.id.plot).cq? cqid ≠ none) :
    createIoSubmissionQueue c qid cqid size prio true d =
      ((d.hostActivity.setCtrl c.id.plot { d.hostActivity.ctrl c.id.plot with
        sqs := (d.hostActivity.ctrl c.id.plot).sqs ++
          [{ qid := qid, size := size, cqid := cqid, prio := prio % 4, head := 0, tail := 0 }] }).queueShow c.id.plot).done c.id
        .success := by
  unfold createIoSubmissionQueue
  rw [Dev.admin_of h]
  dsimp only
  rw [if_neg (by simp), if_neg (by simp [hqid, hlimit, hnew, hroom]), if_neg hsize, if_neg hcqid, if_neg (by simpa using hcq)]

theorem createIoCompletionQueue_of_admits {size vec : Nat} (ien : Bool) (hqid : qid ≠ 0)
    (hlimit : ¬d.hostActivity.queueLimit c.id.plot true < qid) (hnew : (d.hostActivity.ctrl c.id.plot).cq? qid = none)
    (hroom : d.hostActivity.queueRoom c.id.plot true = true) (hsize : ¬(size < 2 ∨ 65536 < size))
    (hvec : ¬d.hostActivity.f (F.PLOT_QV_VMAX c.id.plot) ≤ vec) :
    createIoCompletionQueue c qid size vec ien true d =
      (d.hostActivity.setCtrl c.id.plot { d.hostActivity.ctrl c.id.plot with
        cqs := (d.hostActivity.ctrl c.id.plot).cqs ++
          [{ qid := qid, size := size, head := 0, tail := 0, phase := true, vec := vec, ien := ien, held := [], stalled := false,
             coalesced := 0 }] }).done c.id .success := by
  unfold createIoCompletionQueue
  rw [Dev.admin_of h]
  dsimp only
  rw [if_neg (by simp), if_neg (by simp [hqid, hlimit, hnew, hroom]), if_neg hsize, if_neg hvec]

theorem deleteIoCompletionQueue_of_admits (hqid : qid ≠ 0) (hcq : (d.hostActivity.ctrl c.id.plot).cq? qid ≠ none)
    (hunused : (d.hostActivity.ctrl c.id.plot).sqs.any (fun q => q.cqid == qid) = false) :
    deleteIoCompletionQueue c qid d =
      ((d.hostActivity.setCtrl c.id.plot { d.hostActivity.ctrl c.id.plot with
        cqs := (d.hostActivity.ctrl c.id.plot).cqs.filter (fun q => q.qid != qid) }).stallShow c.id.plot).done c.id .success := by
  unfold deleteIoCompletionQueue
  rw [Dev.admin_of h]
  dsimp only
  rw [if_neg (by simp [hqid, hcq]), if_neg (by simp [hunused])]

theorem asynchronousEventRequest_of_idle (hnew : (d.hostActivity.ctrl c.id.plot).aers.contains c.id = false)
    (hroom : ¬16 ≤ (d.hostActivity.ctrl c.id.plot).aers.length) (hpend : (d.hostActivity.ctrl c.id.plot).asyncPend = []) :
    asynchronousEventRequest c d = d.hostActivity.setCtrl c.id.plot { d.hostActivity.ctrl c.id.plot with
      aers := (d.hostActivity.ctrl c.id.plot).aers ++ [c.id] } := by
  unfold asynchronousEventRequest
  rw [Dev.admin_of h]
  dsimp only
  rw [if_neg (Bool.eq_false_iff.mp hnew), if_neg hroom, hpend]

end

/-- Settles O31: with its checks passed, each command is the branch of its meaning that does its work. -/
theorem hostQueuesComplete : Obligations.HostQueuesComplete := by
  refine ⟨
    fun s p css ams asq acq hs hp hfn hen => effects_run rfl hs ⟨_, rfl, if_neg (by simp [hp, hfn, hen])⟩,
    fun s p hs hen => effects_run rfl hs (if_pos hen),
    fun s p hs hen => effects_run rfl hs (if_pos hen),
    fun s p hs hen => effects_run rfl hs ⟨_, rfl, if_pos hen⟩,
    ?functionLevelReset_zero, ?functionLevelReset_other,
    fun s p y v q hs hp hen hfn hq hv => effects_run rfl hs (sqTailDoorbell_of_lt hp hen hfn hq hv),
    fun s p y v q hs hp hen hfn hq hv => effects_run rfl hs (sqTailDoorbell_of_ge hp hen hfn hq hv),
    fun s p y v hs hp hen hfn hq => effects_run rfl hs (sqTailDoorbell_of_none hp hen hfn hq),
    fun s p y v q hs hp hen hfn hq hv => effects_run rfl hs (cqHeadDoorbell_of_lt hp hen hfn hq hv),
    fun s p y v q hs hp hen hfn hq hv => effects_run rfl hs (cqHeadDoorbell_of_ge hp hen hfn hq hv),
    fun s p y v hs hp hen hfn hq => effects_run rfl hs (cqHeadDoorbell_of_none hp hen hfn hq),
    fun s p y q hs hq hfull hstalled => effects_run rfl hs (hostCqStall_of_full hq hfull hstalled),
    fun s p y q hs hq hc => effects_run rfl hs (interruptCoalescingTimeout_of_coalesced hq hc),
    fun s cid bytes what p k hs hne hp hk hfree =>
      effects_run rfl hs (fetchRound_of_eligible rfl hne rfl hp rfl hk hfree),
    fun s id held hs ho ha => effects_run rfl hs (cmdTmaxExpired_of_outstanding ho ha held),
    fun s id held hs ho hid => effects_run rfl hs (cmdTmaxExpired_of_ended ho hid held),
    ?internalResult_current,
    fun s id pgen qgen st dw0 dw1 l hs hl hg => effects_run rfl hs (internalResult_of_late hl hg st dw0 dw1),
    fun s id pgen qgen st dw0 dw1 hs hl => effects_run rfl hs (internalResult_of_ended hl pgen qgen st dw0 dw1),
    ?createSq, ?createCq,
    fun s c qid hs h hqid hcq hunused => effects_run rfl hs (deleteIoCompletionQueue_of_admits h hqid hcq hunused),
    ?deleteSq,
    fun s c hs h => effects_run rfl hs (Dev.admin_of h _),
    fun s c hs h hnew hroom hpend => effects_run rfl hs (asynchronousEventRequest_of_idle h hnew hroom hpend),
    ?asyncPending, ?getLogPage, ?identify⟩
  case functionLevelReset_zero =>
    rintro s p hs rfl hfn
    refine effects_run rfl hs ?_
    unfold functionLevelReset
    rw [if_neg (by simp [hfn])]
    rfl
  case functionLevelReset_other =>
    intro s p hs hp hfn h0
    refine effects_run rfl hs ⟨_, _, rfl, rfl, ?_⟩
    unfold functionLevelReset
    rw [if_neg (by simp [hp, hfn])]
    exact if_neg h0
  case internalResult_current =>
    rintro s id _ _ st dw0 dw1 l hs hl rfl rfl
    exact effects_run rfl hs (internalResult_of_current hl st dw0 dw1)
  case createSq =>
    rintro s c qid cqid size prio _ hs h rfl hqid hlimit hnew hroom hsize hcqid hcq
    exact effects_run rfl hs (createIoSubmissionQueue_of_admits h prio hqid hlimit hnew hroom hsize hcqid hcq)
  case createCq =>
    rintro s c qid size vec ien _ hs h rfl hqid hlimit hnew hroom hsize hvec
    exact effects_run rfl hs (createIoCompletionQueue_of_admits h ien hqid hlimit hnew hroom hsize hvec)
  case deleteSq =>
    intro s c qid unread q hs h hqid hq hlen
    refine effects_run rfl hs ⟨_, _, _, rfl, rfl, rfl, ?_⟩
    unfold deleteIoSubmissionQueue
    rw [Dev.admin_of h]
    dsimp only
    rw [hq]
    dsimp only
    rw [if_neg hqid, if_neg (not_not.mpr hlen)]
  case asyncPending =>
    intro s c v rest hs h hnew hroom hpend
    refine effects_run rfl hs ⟨_, rfl, ?_⟩
    unfold asynchronousEventRequest
    rw [Dev.admin_of h]
    dsimp only
    rw [if_neg (Bool.eq_false_iff.mp hnew), if_neg hroom, hpend]
  case getLogPage =>
    intro s c lid lsf lsi csi off len rae size fs hs h hlog hoff hsize hlen hmax hns hidx hptr
    refine effects_run rfl hs ⟨_, _, rfl, rfl, ?_⟩
    unfold getLogPage
    rw [Dev.admin_of h]
    dsimp only
    rw [hlog]
    dsimp only
    rw [if_neg (by omega), if_neg hns, if_neg hidx, Dev.withPrp_of hptr]
  case identify =>
    intro s c cns cntid csi m hs h hm hptr
    refine effects_run rfl hs ?_
    unfold identify
    rw [Dev.admin_of h, hm]
    exact Dev.withPrp_of hptr _ _

end Sys2Proof.Machine
end

section
/-! PROOFS. The state after a power-on reset: what reads zero there, and the five fields that show fuses (R33, R300). -/

namespace Sys2Proof.Machine

theorem Mem.byte_init (a : Nat) : Mem.init.byte a = 0 := rfl

/-- At reset the register file lists the fields that show fuses alone, so any field at another place reads its reset value. -/
theorem f_reset_of_notFuse {x : Field} (hid : x.key ≠ F.TOP_ID_PART.key) (hlcs : x.key ≠ F.HALW_LCS_STATE.key)
    (hcount : x.key ≠ F.HALW_LCS_LCCOUNT.key) (hburned : x.key ≠ F.HALW_KEYS_BURNED.key) (hauth : x.key ≠ F.HALW_KEYS_AUTH.key) :
    State.reset.dev.f x = x.reset := by
  simp [Dev.f, RegFile.get, State.reset, AMap.get, AMap.find, hid, hlcs, hcount, hburned, hauth]

/-- Every core is as `CoreSt.reset` has it at reset. -/
theorem cpu_reset (c : Nat) : State.reset.dev.cpu c = CoreSt.reset (coreStart c) := rfl

theorem CoreSt.reg_reset (pc i : Nat) : (CoreSt.reset pc).reg i = 0#64 := by
  unfold CoreSt.reg
  split
  · rfl
  · simp only [CoreSt.reset, Vector.getD, Vector.toArray_replicate, Array.getD_eq_getD_getElem?, Array.getElem?_replicate]
    split <;> rfl

/-- Settles O50: the reset state is written out, and what it does not list reads as an unlisted key. -/
theorem resetState : Obligations.ResetState :=
  ⟨⟨rfl, by decide, by decide, rfl, rfl⟩,
   fun _ hid hlcs hcount hburned hauth => f_reset_of_notFuse hid hlcs hcount hburned hauth,
   fun _ => rfl,
   by decide,
   fun _ => rfl,
   ⟨rfl, rfl, rfl, rfl⟩,
   fun c i => ⟨by rw [cpu_reset, CoreSt.reg_reset], Mem.init_wf, Mem.byte_init⟩,
   ⟨Mem.init_wf, Mem.byte_init, fun _ => ⟨Mem.init_wf, Mem.byte_init⟩⟩⟩

end Sys2Proof.Machine
end

section
/-! PROOFS. The reset inputs, the thermal trip and the loss of power (R34, R148, R428, R440, R447, R458). -/

namespace Sys2Proof.Machine

section
variable {d : Dev} (hs : d.pins.supply = true)
include hs

/-! ### RESET_N (R428, R440, R447) -/

/-- RESET_N falls on a part that runs: a part reset, but where a trip still holds it. -/
theorem resetNAssert_of_high (hr : d.pins.resetN = true) :
    resetNAssert d =
      if d.mode.hold = .trip ∧ d.anySensor 90 then { d with pins := { d.pins with resetN := false } }
      else ({ d with pins := { d.pins with resetN := false } }).partReset .pin :=
  if_neg (by simp [hs, hr])

/-- RESET_N rises: start-up is let run, but where a trip holds the part. -/
theorem resetNRise_of_low {e : Dev} (hr : d.pins.resetN = false)
    (he : e = ({ d with pins := { d.pins with resetN := true, upMs := 0 } }).tapRelease) :
    resetNRise d =
      if e.mode.hold = .trip then e
      else { e.sampleStraps with mode := { e.mode with faultN := false, hold := if e.pins.pwrfailN then .none else .pwrfailWait } } := by
  subst he
  exact if_neg (by simp [hs, hr])

/-! ### The thermal trip (R447) -/

/-- A trip holds the part, after the stop where that has not run. -/
theorem thermalTrip_of_hot (hr : d.pins.resetN = true) (hh : d.mode.hold ≠ .trip) (ht : d.anySensor d.tripTemp = true) :
    thermalTrip d =
      if d.f F.TOP_MODE_MODE = 0 ∨ d.mode.hold = .pwrfail then d.tripHold else d.stopNow.tripHold :=
  if_neg (by simp [hs, hr, hh, ht])

end

/-! ### The software resets (R34, R458) -/

theorem topReset_of_refused {d : Dev} {key : Nat} {go : Bool} (h : key ≠ 0xC3A5 ∨ go = false ∨ d.canReset = false) :
    topReset key go d = d := by
  refine if_neg fun ⟨hkey, hgo, hcan⟩ => ?_
  rcases h with h | h | h
  · exact h hkey
  · simp [h] at hgo
  · simp [h] at hcan

theorem nvmSubsystemReset_of_refused {d : Dev} {p v : Nat} (h : p ≠ 0 ∨ v ≠ 0x4E564D65 ∨ d.canReset = false) :
    nvmSubsystemReset p v d = d := by
  refine if_neg fun ⟨hp, hv, hcan⟩ => ?_
  rcases h with h | h | h
  · exact h hp
  · exact h hv
  · simp [h] at hcan

/-- Settles O25: each reset input is the branch of its meaning that its conditions choose. -/
theorem resetsComplete : Obligations.ResetsComplete :=
  ⟨fun s hs => effects_runHard rfl (if_neg (by simp [hs])),
   fun s hs hr hheld => effects_runHard rfl ((resetNAssert_of_high hs hr).trans (if_neg hheld)),
   fun s hs hr htrip hhot => effects_runHard rfl ((resetNAssert_of_high hs hr).trans (if_pos ⟨htrip, hhot⟩)),
   fun s hs hr htrip => effects_runHard rfl ((resetNRise_of_low hs hr rfl).trans (if_neg htrip)),
   fun s hs hr htrip => effects_runHard rfl ((resetNRise_of_low hs hr rfl).trans (if_pos htrip)),
   fun s key go hs hkey hgo hcan => effects_run rfl hs (if_pos ⟨hkey, hgo, hcan⟩),
   fun s key go hs hno => effects_run rfl hs (topReset_of_refused hno),
   fun s p v hs hp hv hcan => effects_run rfl hs (if_pos ⟨hp, hv, hcan⟩),
   fun s p v hs hno => effects_run rfl hs (nvmSubsystemReset_of_refused hno),
   fun s cid portmode bootsel => effects_runHard rfl rfl,
   fun s hs => effects_runHard rfl (if_neg (by simp [hs])),
   fun s hs hr hheld hhot hdone => effects_runHard rfl ((thermalTrip_of_hot hs hr hheld hhot).trans (if_pos hdone)),
   fun s hs hr hheld hhot hmode hstop =>
     effects_runHard rfl ((thermalTrip_of_hot hs hr hheld hhot).trans (if_neg (not_or.mpr ⟨hmode, hstop⟩)))⟩

end Sys2Proof.Machine
end

section
/-! PROOFS. Start-up self-test: the scrub, the device and quadrant tests, DRAM training and the fills (R38, R41, R43, R357). -/

namespace Sys2Proof.Machine

section
variable {d : Dev} (hself : d.selfTesting = true)
include hself

/-- The device tests end: a failure holds the part, a pass goes on to the first quadrant in service. -/
theorem deviceBistDone_of_selfTesting (hdev : d.mode.devTested = false) (l m k : Bool) (ms misr : Nat) {x : Dev}
    (hx : x = { d.bistResult 0 l m k ms misr with mode := { (d.bistResult 0 l m k ms misr).mode with devTested := true } }) :
    deviceBistDone l m k ms misr d =
      if l || m || k then { x.setMode 0 with mode := { (x.setMode 0).mode with hold := .bistFail, faultN := true } }
      else Dev.skipQuads 4 x := by
  subst hx
  exact if_pos ⟨hself, by simp [hdev]⟩

/-- DRAM training ends: the quadrants whose channel failed are retired, the others are marked trained. -/
theorem dramTrainingDone_of_selfTesting (hdev : d.mode.devTested = true) (hnext : d.mode.nextQ = 4)
    (htrained : d.mode.dramTrained = false) {failed bad : List Nat} (hbad : bad = failed.filter d.quadOk) {x y : Dev}
    (hx : x = if bad.isEmpty then bad.foldl (fun (e : Dev) q => e.markRetired q 3) d
      else (bad.foldl (fun (e : Dev) q => e.markRetired q 3) d).setF F.TOP_MODE_CDEGR 1)
    (hy : y = x.quads.foldl (fun (e : Dev) q => e.setF (F.MEMC_STAT_TRAINED q) 1) x) :
    dramTrainingDone failed d = { y with mode := { y.mode with dramTrained := true } } := by
  subst hbad hx hy
  exact if_pos ⟨hself, hdev, hnext, by simp [htrained]⟩

end

/-- Settles O26: while start-up runs, each step takes the branch that its results choose. -/
theorem startUpCompletes : Obligations.StartUpCompletes := by
  refine ⟨
    fun s hs hstart hmode hscrub => effects_run rfl hs (if_pos ⟨hstart, hmode, by simp [hscrub]⟩),
    fun s ms misr hs hself hdev => effects_run rfl hs (deviceBistDone_of_selfTesting hself hdev false false false ms misr rfl),
    fun s l m k ms misr hs hself hdev hfail =>
      effects_run rfl hs ⟨_, rfl, (deviceBistDone_of_selfTesting hself hdev l m k ms misr rfl).trans (if_pos hfail)⟩,
    fun s l m k ms misr hs hself hdev hnext => effects_run rfl hs (if_pos ⟨hself, hdev, hnext⟩),
    ?noChannelFails, ?channelsFail,
    fun s hs hself hdev hnext hfill => effects_run rfl hs (if_pos ⟨hself, hdev, hnext, by simp [hfill]⟩),
    fun s hs hself htrained hfill => effects_run rfl hs (if_pos ⟨hself, htrained, by simp [hfill]⟩)⟩
  case noChannelFails =>
    intro s failed hs hself hdev hnext htrained hbad
    exact effects_run rfl hs (dramTrainingDone_of_selfTesting hself hdev hnext htrained hbad.symm rfl rfl)
  case channelsFail =>
    intro s failed hs hself hdev hnext htrained hbad
    refine effects_run rfl hs ⟨_, rfl, _, rfl, dramTrainingDone_of_selfTesting hself hdev hnext htrained rfl ?_ rfl⟩
    rw [if_neg (by simpa using hbad)]

end Sys2Proof.Machine
end

section
/-! PROOFS. PWRFAIL_N and the stop, PERST_N and the PCIe link events (R36, R47, R48, R57, R58, R85, R434, R440). -/

namespace Sys2Proof.Machine

section
variable {d : Dev}

/-! ### PWRFAIL_N and the stop (R47, R48, R434) -/

/-- PWRFAIL_N falls on a powered part. -/
theorem pwrfailFall_of_high (hs : d.pins.supply = true) (hp : d.pins.pwrfailN = true) {x : Dev}
    (hx : x = { d with pins := { d.pins with pwrfailN := false } }) :
    pwrfailFall d =
      if d.f F.TOP_MODE_MODE ≠ 0 then
        if d.mode.pfStop then x else { x.raise 0x005 noPlot [] with mode := { d.mode with pfStop := true } }
      else if d.pins.resetN ∧ d.mode.hold = .none then
        { x with mode := { d.mode with hold := .pwrfailWait } }.setF F.HALW_SCRUB_DONE 0
      else x := by
  subst hx
  exact if_neg (by simp [hs, hp])

/-- The stop ends: the part is held, and reset where PWRFAIL_N has returned. -/
theorem pwrfailStopDone_of_stopping (hstop : d.mode.pfStop = true) (hhold : d.mode.hold = .none) :
    pwrfailStopDone d =
      if d.stopNow.mode.pfReturned then { d.stopNow with mode := { d.stopNow.mode with hold := .pwrfail } }.partReset .pfret
      else { d.stopNow with mode := { d.stopNow.mode with hold := .pwrfail } } :=
  if_neg (by simp [hstop, hhold])

/-- PWRFAIL_N rises on a powered part. -/
theorem pwrfailRise_of_low (hs : d.pins.supply = true) (hp : d.pins.pwrfailN = false) {x : Dev}
    (hx : x = { d with pins := { d.pins with pwrfailN := true } }) :
    pwrfailRise d =
      if d.mode.hold = .pwrfail then x.partReset .pfret
      else if d.mode.pfStop then { x with mode := { d.mode with pfReturned := true } } else x := by
  subst hx
  exact if_neg (by simp [hs, hp])

/-! ### PERST_N and the links (R36, R57) -/

theorem perstAssert_of_high {port : Nat} (hport : port < 2) (hp : d.perst port = false) :
    perstAssert port d =
      if (d.setPerst port true).hasPort port then (d.setPerst port true).portReset port else d.setPerst port true :=
  if_neg (by simp [hp, hport])

end

section
variable {d : Dev} {port rate width full : Nat} (hs : d.pins.supply = true) (hr : d.pins.resetN = true)
  (hport : d.hasPort port = true) (hperst : d.perst port = false) (hup : d.portUp port = false) (hlow : ¬rate < 4) (hhigh : ¬6 < rate)
  (hwidth : [1, 2, 4, 8, 16].contains width = true) (hfull : full = if d.flag F.HIF_PORTCFG_DUAL then 8 else 16)
  (hfits : ¬full < width)
include hs hr hport hperst hup hlow hhigh hwidth hfull hfits

/-- A port that trains comes up at its rate and width; `degr` says whether that is degraded. -/
theorem pcieLinkUp_of_trains (partner64 : Bool) {degr : Bool}
    (hdegr : (decide (width < full) || (decide (rate < 6) && partner64)) = degr) {x : Dev}
    (hx : x = ((((((d.setPort port true).setF (F.HIF_PORTSTAT_RATE port) rate).setF (F.HIF_PORTSTAT_WIDTH port) width).setF
      (F.HIF_PORTSTAT_FLIT port) (Bool.nat (rate == 6))).setF (F.HIF_PORTSTAT_DEGR port) (Bool.nat degr)).raise
      (0x1E0 + port) noPlot [1])) :
    pcieLinkUp port rate width partner64 d = if degr then x.raise 0x1E2 noPlot [] else x := by
  subst hfull hdegr hx
  refine if_neg ?_
  simp only [hs, hr, hport, hperst, hup, hwidth, not_true, false_or, or_false, Bool.false_eq_true]
  exact not_or.mpr ⟨hlow, not_or.mpr ⟨hhigh, hfits⟩⟩

end

/-- A link at its full width is not degraded at 64 GT/s, nor with a partner that does not offer that. -/
theorem notDegraded {rate full : Nat} {partner64 : Bool} (hrate : rate = 6 ∨ partner64 = false) :
    (decide (full < full) || (decide (rate < 6) && partner64)) = false := by
  rcases hrate with h | h <;> simp [h]

theorem degraded {rate width full : Nat} {partner64 : Bool} (h : width < full ∨ (rate < 6 ∧ partner64 = true)) :
    (decide (width < full) || (decide (rate < 6) && partner64)) = true := by
  simpa using h

/-- Settles O28: each pin edge and link event takes the branch of its meaning that the part's state chooses. -/
theorem stopAndLinksComplete : Obligations.StopAndLinksComplete := by
  refine ⟨
    fun s hs hsup hpf hmode hstop =>
      effects_run rfl hs ((pwrfailFall_of_high hsup hpf rfl).trans ((if_pos hmode).trans (if_neg (by simp [hstop])))),
    fun s hs hsup hpf hmode hstop =>
      effects_run rfl hs ((pwrfailFall_of_high hsup hpf rfl).trans ((if_pos hmode).trans (if_pos hstop))),
    fun s hs hsup hpf hmode hr hhold =>
      effects_run rfl hs ((pwrfailFall_of_high hsup hpf rfl).trans ((if_neg (not_not.mpr hmode)).trans (if_pos ⟨hr, hhold⟩))),
    fun s hs hsup hpf hmode hheld =>
      effects_run rfl hs ((pwrfailFall_of_high hsup hpf rfl).trans ((if_neg (not_not.mpr hmode)).trans (if_neg hheld))),
    fun s hs hstop hhold hret => effects_run rfl hs ((pwrfailStopDone_of_stopping hstop hhold).trans (if_neg (by simp [hret]))),
    fun s hs hstop hhold hret => effects_run rfl hs ((pwrfailStopDone_of_stopping hstop hhold).trans (if_pos hret)),
    fun s hs hsup hpf hhold => effects_run rfl hs ((pwrfailRise_of_low hsup hpf rfl).trans (if_pos hhold)),
    fun s hs hsup hpf hhold hstop =>
      effects_run rfl hs ((pwrfailRise_of_low hsup hpf rfl).trans ((if_neg hhold).trans (if_pos hstop))),
    fun s hs hsup hpf hhold hstop =>
      effects_run rfl hs ((pwrfailRise_of_low hsup hpf rfl).trans ((if_neg hhold).trans (if_neg (by simp [hstop])))),
    fun s hs hhold hpf hr => effects_run rfl hs (if_pos ⟨hhold, hpf, hr⟩),
    fun s port hs hlt hp hport => effects_run rfl hs ((perstAssert_of_high hlt hp).trans (if_pos hport)),
    fun s port hs hlt hp hport => effects_run rfl hs ((perstAssert_of_high hlt hp).trans (if_neg (by simp [hport]))),
    fun s port hs hlt => effects_run rfl hs (if_neg hlt),
    ?linkFull, ?linkDegraded,
    fun s port hs hport hup => effects_run rfl hs (if_pos ⟨hport, hup⟩),
    fun s port hs hport hup => effects_run rfl hs (if_pos ⟨hport, hup⟩)⟩
  case linkFull =>
    intro s port rate width partner64 hs hsup hr hport hperst hup hlow hhigh hwidth hfull hrate
    refine effects_run rfl hs ?_
    exact pcieLinkUp_of_trains hsup hr hport hperst hup hlow hhigh hwidth hfull (lt_irrefl _) partner64 (notDegraded hrate) rfl
  case linkDegraded =>
    intro s port rate width partner64 hs hsup hr hport hperst hup hlow hhigh hwidth hfits hdegr
    refine effects_run rfl hs ?_
    exact pcieLinkUp_of_trains hsup hr hport hperst hup hlow hhigh hwidth rfl hfits partner64 (degraded hdegr) rfl

end Sys2Proof.Machine
end

section
/-! PROOFS. Power states, the junction sensors, throttling and the core voltage (R50, R51, R431, R445, R446). -/

namespace Sys2Proof.Machine

/-! ### The sensor registers (R445) -/

/-- A field that step `i` of a run of updates gives a value, and no other step touches, has that value after the run. -/
theorem Dev.f_foldl_of_mem {step : Dev → Nat → Dev} {x : Field} {v i : Nat} (hset : ∀ e, (step e i).f x = v)
    (hkeep : ∀ e j, j ≠ i → (step e j).f x = e.f x) {l : List Nat} {d : Dev} (h : i ∈ l ∨ d.f x = v) :
    (l.foldl step d).f x = v := by
  induction l generalizing d with
  | nil => simpa using h
  | cons j t ih =>
    refine ih ?_
    by_cases hj : j = i
    · exact .inr (hj ▸ hset d)
    · rw [hkeep d j hj]
      simpa [Ne.symm hj] using h

/-- The registers of the six sensors lie 32 bits apart. -/
theorem key_PWR_TEMP_TEMP (i : Nat) : (F.PWR_TEMP_TEMP i).key = (F.PWR_TEMP_TEMP 0).key + 32 * i := by
  simp only [Field.key, F.PWR_TEMP_TEMP, Reg.addr]
  omega

theorem key_PWR_TEMP_VALID (i : Nat) : (F.PWR_TEMP_VALID i).key = (F.PWR_TEMP_TEMP 0).key + 32 * i + 8 := by
  simp only [Field.key, F.PWR_TEMP_TEMP, F.PWR_TEMP_VALID, Reg.addr]
  omega

/-- Device metadata is no part of control space. -/
theorem Dev.f_withNv (d : Dev) (n : NvSt) (x : Field) : ({ d with nv := n } : Dev).f x = d.f x := rfl

/-- One sensor's reading shown, with `d` the part before the readings. -/
def Dev.showSensor (d : Dev) (temps : List Int) (e : Dev) (i : Nat) : Dev :=
  (e.setF (F.PWR_TEMP_TEMP i) (if d.sensed i then (sensorTemp temps i % 256).toNat else 0)).setF (F.PWR_TEMP_VALID i)
    (Bool.nat (d.sensed i))

section
variable (d : Dev) (temps : List Int)

/-- Past PWR_THERM, where the hottest sensor is shown, the readings write the sensors' own registers alone. -/
theorem Dev.f_takeTemps {x : Field} (hx : (F.PWR_TEMP_TEMP 0).key ≤ x.key) :
    (d.takeTemps temps).f x = ((List.range 6).foldl (d.showSensor temps) d).f x := by
  have hsens : x.key ≠ F.PWR_THERM_HOTSENS.key := (lt_of_lt_of_le (by decide) hx).ne'
  have htemp : x.key ≠ F.PWR_THERM_HOTTEMP.key := (lt_of_lt_of_le (by decide) hx).ne'
  unfold Dev.takeTemps
  dsimp only
  rw [Dev.f_withNv, Dev.f_setF_ne _ htemp, Dev.f_setF_ne _ hsens]
  rfl

theorem Dev.f_showSensor_ne (e : Dev) {x : Field} {j : Nat} (htemp : x.key ≠ (F.PWR_TEMP_TEMP j).key)
    (hvalid : x.key ≠ (F.PWR_TEMP_VALID j).key) : (d.showSensor temps e j).f x = e.f x :=
  (Dev.f_setF_ne _ hvalid _).trans (Dev.f_setF_ne _ htemp _)

theorem Dev.f_takeTemps_VALID {i : Nat} (hi : i < 6) : (d.takeTemps temps).f (F.PWR_TEMP_VALID i) = Bool.nat (d.sensed i) := by
  rw [Dev.f_takeTemps d temps (by rw [key_PWR_TEMP_VALID i]; omega)]
  refine Dev.f_foldl_of_mem (fun e => ?_) (fun e j hj => Dev.f_showSensor_ne d temps e ?_ ?_) (.inl (List.mem_range.mpr hi))
  · rw [Dev.showSensor, Dev.f_setF_same]
    cases d.sensed i <;> rfl
  · rw [key_PWR_TEMP_VALID i, key_PWR_TEMP_TEMP j]
    omega
  · rw [key_PWR_TEMP_VALID i, key_PWR_TEMP_VALID j]
    omega

theorem Dev.f_takeTemps_TEMP {i : Nat} (hi : i < 6) :
    (d.takeTemps temps).f (F.PWR_TEMP_TEMP i) = if d.sensed i then (sensorTemp temps i % 256).toNat else 0 := by
  rw [Dev.f_takeTemps d temps (by rw [key_PWR_TEMP_TEMP i]; omega)]
  refine Dev.f_foldl_of_mem (fun e => ?_) (fun e j hj => Dev.f_showSensor_ne d temps e ?_ ?_) (.inl (List.mem_range.mpr hi))
  · rw [Dev.showSensor, Dev.f_setF_ne _ (by rw [key_PWR_TEMP_TEMP i, key_PWR_TEMP_VALID i]; omega), Dev.f_setF_same]
    refine Nat.mod_eq_of_lt ?_
    show _ < 256
    split <;> omega
  · rw [key_PWR_TEMP_TEMP i, key_PWR_TEMP_TEMP j]
    omega
  · rw [key_PWR_TEMP_TEMP i, key_PWR_TEMP_VALID j]
    omega

end

section
variable {d : Dev}

/-! ### Power states (R50, R51) -/

/-- The wait and the entry latency end: the wanted power state is entered, PS4 through DOZE. -/
theorem powerStateEntryDone_of_idle {w : Nat} (hent : d.flag F.PWR_PSTATE_ENTERING = true) (hmode : d.psMode = true)
    (hquiet : d.quiet = true) (hidle : d.mediaIdle = true) (hstop : d.mode.pfStop = false) (htest : d.mode.qtest = none)
    (hwant : d.psWant = w) (hw : 3 ≤ w) {x : Dev} (hx : x = (d.setF F.PWR_PSTATE_ENTERING 0).setPs w) :
    powerStateEntryDone d =
      if w = 4 then
        (({ x with mode := { x.mode with wakePending := false, dozeFrom := x.f F.TOP_MODE_MODE } }).selfRefresh true).setMode 0xA
      else { x with mode := { x.mode with wakePending := false } } := by
  subst hwant hx
  exact if_pos ⟨hent, hw, hmode, hquiet, hidle, by simp [hstop], by simp [htest]⟩

/-- The exit latency ends; `woken` is the part with the wake noted. -/
theorem powerStateWakeDone_of_pending (hpend : d.mode.wakePending = true) (hps : 3 ≤ d.f F.PWR_PSTATE_PS) {woken x y : Dev}
    (hwoken : woken = { d with mode := { d.mode with wakePending := false, wakeAt := d.now } })
    (hy : y = if woken.f F.TOP_MODE_MODE = 0xA then woken.selfRefresh false else woken)
    (hx : x = if woken.f F.TOP_MODE_MODE = 0xA then (if y.mode.dozeFrom = 0xB then y.setMode 0xB else y.setMode y.operating) else y) :
    powerStateWakeDone d = x.setPs (if x.psWant < 3 then x.psWant else x.f F.PWR_PSTATE_LASTOP) := by
  subst hwoken hy hx
  exact if_pos ⟨hpend, hps⟩

/-- A controller's autonomous transition from its requested state changes its request. -/
theorem autonomousPowerStateTransition_of_entry {p idle target : Nat}
    (hentry : AMap.find (d.ctrl p).feat.ps (d.ctrl p).feat.apstTable = some (idle, target)) (hen : (d.ctrl p).en = true)
    (hon : (d.ctrl p).feat.apst = true) (hidle : idle ≠ 0) (htarget : target ≠ 0) (hallow : d.psAllowed p = true)
    (hsafe : d.f F.TOP_MODE_MODE ≠ 1) :
    autonomousPowerStateTransition p d =
      (d.setCtrl p { d.ctrl p with feat := { (d.ctrl p).feat with ps := target } }).powerCombine := by
  unfold autonomousPowerStateTransition
  dsimp only
  rw [hentry]
  exact if_neg (by simp [hen, hon, hidle, htarget, hallow, hsafe])

/-! ### Throttling and the core voltage (R431, R446) -/

/-- A level whose conditions are over is left, for level 1 where that one's conditions hold. -/
theorem throttleExit_of_over {n new : Nat} (hn : d.f F.PWR_THERM_LEVEL = n) (h0 : n ≠ 0) (hover : d.levelOver n = true)
    (hnew : (if n = 2 ∧ ¬d.levelOver 1 then 1 else 0) = new) {x : Dev}
    (hx : x = (d.setF F.PWR_THERM_LEVEL new).setF F.PWR_THERM_HOSTCAUSE
      (Bool.nat (new == 1 && d.levelByHost 1 && !d.levelSensor 1))) :
    throttleExit d = (if new = 0 then x.raise 0x031 noPlot [] else x).retune := by
  subst hn hnew hx
  exact if_neg (by simp [h0, hover])

theorem coreVselStep_of_powered (hs : d.pins.supply = true) (hr : d.pins.resetN = true) (up : Bool) :
    coreVselStep up d =
      if up then (if d.f F.PWR_VCORE_CODE < 16 then d.setF F.PWR_VCORE_CODE (d.f F.PWR_VCORE_CODE + 1) else d)
      else (if 0 < d.f F.PWR_VCORE_CODE then d.setF F.PWR_VCORE_CODE (d.f F.PWR_VCORE_CODE - 1) else d) :=
  if_neg (by simp [hs, hr])

/-- The readings of a powered part are stored, and outside RESET they cross the host's thresholds and throttle. -/
theorem sensorRead_of_powered (hs : d.pins.supply = true) {temps : List Int} (hlen : temps.length = 6) {x : Dev}
    (hx : x = if (List.range 6).any (fun i => d.flag (F.PWR_TEMP_VALID i)) then
        (d.takeTemps temps).crossings d.kelvin (d.takeTemps temps).kelvin
      else d.takeTemps temps) :
    sensorRead temps d =
      if (d.takeTemps temps).f F.TOP_MODE_MODE = 0 then d.takeTemps temps
      else (x.throttle.tmtNote (x.f F.PWR_THERM_LEVEL) (x.f F.PWR_THERM_HOSTCAUSE)).refreshWarn := by
  subst hx
  exact if_neg (by simp [hs, hlen])

end

/-- Settles O29: each event takes the branch its conditions choose; the sensors' registers are written one by one. -/
theorem powerAndThermalComplete : Obligations.PowerAndThermalComplete := by
  refine ⟨?enterPs3, ?enterPs4, ?wakeAwake,
    fun s hs hwant hps hquiet hat hmode => effects_run rfl hs (if_pos ⟨hwant, hps, hquiet, hat, hmode⟩),
    fun s p idle target hs hentry hen hon hidle htarget hallow hsafe =>
      effects_run rfl hs (autonomousPowerStateTransition_of_entry hentry hen hon hidle htarget hallow hsafe),
    ?wakeDoze,
    fun s temps hs hsup hlen hmode => effects_run rfl hs ((sensorRead_of_powered hsup hlen rfl).trans (if_pos hmode)),
    fun s temps hs hsup hlen hmode => effects_run rfl hs ⟨_, rfl, (sensorRead_of_powered hsup hlen rfl).trans (if_neg hmode)⟩,
    fun d temps i hi => ⟨d.f_takeTemps_VALID temps hi, d.f_takeTemps_TEMP temps hi⟩,
    ?leaveForZero, ?leaveForOne,
    fun s up hs hsup hr hup hlt =>
      effects_run rfl hs ((coreVselStep_of_powered hsup hr up).trans ((if_pos hup).trans (if_pos hlt))),
    fun s up hs hsup hr hup hlt =>
      effects_run rfl hs ((coreVselStep_of_powered hsup hr up).trans ((if_neg (by simp [hup])).trans (if_pos hlt)))⟩
  case enterPs3 =>
    intro s hs hent hmode hquiet hidle hstop htest hwant
    exact effects_run rfl hs ⟨_, rfl,
      (powerStateEntryDone_of_idle hent hmode hquiet hidle hstop htest hwant le_rfl rfl).trans (if_neg (by decide))⟩
  case enterPs4 =>
    intro s hs hent hmode hquiet hidle hstop htest hwant
    exact effects_run rfl hs ⟨_, rfl,
      (powerStateEntryDone_of_idle hent hmode hquiet hidle hstop htest hwant (by decide) rfl).trans (if_pos rfl)⟩
  case wakeAwake =>
    intro s hs hpend hps hmode
    exact effects_run rfl hs ⟨_, rfl, powerStateWakeDone_of_pending hpend hps rfl (if_neg hmode).symm (if_neg hmode).symm⟩
  case wakeDoze =>
    intro s hs hpend hps hmode
    exact effects_run rfl hs ⟨_, _, rfl, rfl,
      powerStateWakeDone_of_pending hpend hps rfl (if_pos hmode).symm (if_pos hmode).symm⟩
  case leaveForZero =>
    intro s hs h0 hover hone
    exact effects_run rfl hs (throttleExit_of_over rfl h0 hover (if_neg fun ⟨h2, h1⟩ => hone.elim (· h2) h1) rfl)
  case leaveForOne =>
    intro s hs h2 hover hone
    exact effects_run rfl hs (throttleExit_of_over h2 (by decide) hover (if_pos ⟨rfl, by simp [hone]⟩) rfl)

end Sys2Proof.Machine
end

section
/-! PROOFS. The in-field quadrant test, the extended device self-test and the end of a sanitize (R40, R44, R46, R54). -/

namespace Sys2Proof.Machine

section
variable {d : Dev}

/-! ### The quadrant test (R44 to R46) -/

/-- Once its programs and erases have finished, the quadrant under test is isolated with its DRAM in self-refresh. -/
theorem qbistDrainDone_of_drained {t : QTest} (ht : d.mode.qtest = some t) (hiso : t.isolated = false)
    (hdrained : d.media.dies.any (fun x => x.1 / 512 == t.quad &&
      (x.2.busy.toList ++ x.2.suspended.toList ++ x.2.ended.toList).any (fun o => o.cls == .program || o.cls == .erase)) = false) :
    qbistDrainDone d =
      ({ d with mode := { d.mode with qtest := some { t with isolated := true } } }).setF (F.MEMC_STAT_SREF t.quad) 1 := by
  unfold qbistDrainDone
  rw [ht]
  dsimp only
  rw [hdrained, if_neg (by simp [hiso])]

/-- The patterns end on an isolated quadrant: `x` is the part with the result recorded, `y` with a quadrant that passed back in service. -/
theorem qbistPatternsDone_of_isolated {t : QTest} (ht : d.mode.qtest = some t) (hiso : t.isolated = true) (ok : Bool) (ms : Nat)
    {x y z : Dev}
    (hx : x = ((((((({ d with mode := { d.mode with qtest := none } }).setF F.TOP_QBIST_BUSY 0).setF F.BIST_LAST_QUAD t.quad).setF
      F.BIST_LAST_PASS (Bool.nat ok)).setF F.BIST_LAST_VALID 1).setF F.BIST_LAST_MS (min ms 65535)).bistCount 0).bistCount
      (if ok then 1 else 2))
    (hy : y = if ok then ((x.setF (F.MEMC_STAT_SREF t.quad) 0).goAfterTest t.quad).raise 0x004 noPlot [] else x)
    (hz : z = ((if y.f F.TOP_QBIST_NEXTQ = t.quad then y.setF F.TOP_QBIST_NEXTQ (y.quadAfter t.quad) else y).selfTestStep t.quad
      ok).sanitizeGo) :
    qbistPatternsDone ok ms d = (if ok then z else z.retireQuadrant t.quad 1).testSweep := by
  subst hx hy hz
  unfold qbistPatternsDone
  rw [ht]
  exact if_neg (not_not.mpr hiso)

/-! ### The extended self-test (R54) -/

section
variable {t : SelfTest} (ht : d.mode.selfTest = some t)
include ht

theorem mramSliceTestDone_of_due (hquads : t.quads = []) (hslice : t.slice < 10) (hidle : d.mode.qtest = none) (ok : Bool) {x : Dev}
    (hx : x = { d with mode := { d.mode with selfTest := some ({ t with slice := t.slice + 1 }.note ok (16 + t.slice)) } }) :
    mramSliceTestDone ok d = if t.abort then x.endSelfTest 1 0 else x := by
  subst hx
  unfold mramSliceTestDone
  rw [ht]
  exact if_neg (by simp [hquads, hslice, hidle])

variable (hext : t.extended = true) (hidle : d.mode.qtest = none)
include hext hidle

theorem extendedSelfTestDone_of_abort (habort : t.abort = true) : extendedSelfTestDone d = d.endSelfTest 1 0 := by
  unfold extendedSelfTestDone
  rw [ht]
  exact (if_neg (by simp [hext, hidle])).trans (if_pos habort)

/-- With every quadrant and slice tested the self-test ends with its result: 0, or 7 with the first segment that failed. -/
theorem extendedSelfTestDone_of_tested (habort : t.abort = false) (hquads : t.quads = []) (hslice : t.slice = 10) :
    extendedSelfTestDone d =
      match t.failed with
      | some seg => d.endSelfTest 7 seg
      | none => d.endSelfTest 0 0 := by
  unfold extendedSelfTestDone
  rw [ht]
  exact (if_neg (by simp [hext, hidle])).trans ((if_neg (by simp [habort])).trans (if_pos ⟨by simp [hquads], hslice⟩))

end

end

/-- Settles O30: each event of a test or of a sanitize takes the branch that the state of the test chooses. -/
theorem testsAndSanitizeComplete : Obligations.TestsAndSanitizeComplete := by
  refine ⟨
    fun s q hs hquad hint hout => effects_run rfl hs (if_neg (by simp [hquad, hint, hout])),
    fun s hs hquad => effects_run rfl hs (if_neg (not_not.mpr hquad)),
    fun s t hs ht hiso hdrained => effects_run rfl hs (qbistDrainDone_of_drained ht hiso hdrained),
    fun s ms t hs ht hiso => effects_run rfl hs ⟨_, rfl, qbistPatternsDone_of_isolated ht hiso true ms rfl rfl rfl⟩,
    fun s ms t hs ht hiso => effects_run rfl hs ⟨_, rfl, qbistPatternsDone_of_isolated ht hiso false ms rfl rfl rfl⟩,
    fun s ok t hs ht hquads hslice hidle habort =>
      effects_run rfl hs ((mramSliceTestDone_of_due ht hquads hslice hidle ok rfl).trans (if_neg (by simp [habort]))),
    fun s ok t hs ht hquads hslice hidle habort =>
      effects_run rfl hs ((mramSliceTestDone_of_due ht hquads hslice hidle ok rfl).trans (if_pos habort)),
    ?passes, ?fails,
    fun s t hs ht hext hidle habort => effects_run rfl hs (extendedSelfTestDone_of_abort ht hext hidle habort),
    fun s hs hmode => effects_run rfl hs ⟨_, _, rfl, rfl, (if_neg (not_not.mpr hmode)).trans (if_neg (by decide))⟩,
    fun s hs hmode => effects_run rfl hs ((if_neg (not_not.mpr hmode)).trans (if_pos (by decide)))⟩
  case passes =>
    intro s t hs ht hext hidle habort hquads hslice hnone
    refine effects_run rfl hs ?_
    rw [extendedSelfTestDone_of_tested ht hext hidle habort hquads hslice, hnone]
  case fails =>
    intro s t seg hs ht hext hidle habort hquads hslice hseg
    refine effects_run rfl hs ?_
    rw [extendedSelfTestDone_of_tested ht hext hidle habort hquads hslice, hseg]

end Sys2Proof.Machine
end

section
/-! PROOFS. Set Features and Get Features (R50, R51, R64, R72, R78, R79, R82, R84, R159, R446, R457). -/

namespace Sys2Proof.Machine

section
variable {d : Dev} {c : NCmd} {save : Bool}

/-! ### Features with a value to check (R79, R82, R159) -/

theorem setErrorRecovery_of_namespace {tler : Nat} (h : d.admitsFeature c save false false true = true)
    (hone : c.nsid ≠ 0xFFFFFFFF) (hatt : d.hostActivity.attached c.nsid c.id.plot = true)
    (hns : (d.hostActivity.ns? c.nsid).isNone = false) :
    setErrorRecovery c save tler false d = (d.hostActivity.setTler [c.nsid] tler).done c.id .success := by
  unfold setErrorRecovery
  rw [Dev.setFeature_of h]
  exact (if_neg (by decide)).trans ((if_neg hone).trans (if_neg (by simp [hatt, hns])))

theorem setNumberOfQueues_of_noQueues {nsq ncq m a b : Nat} (h : d.admitsFeature c save false false true = true)
    (hsqs : (d.hostActivity.ctrl c.id.plot).sqs.any (fun q => q.qid != 0) = false)
    (hcqs : (d.hostActivity.ctrl c.id.plot).cqs.any (fun q => q.qid != 0) = false) (hvalid : ¬(nsq = 65535 ∨ ncq = 65535))
    (hm : m = d.hostActivity.f (F.PLOT_QV_QMAX c.id.plot)) (ha : a = min (nsq + 1) m) (hb : b = min (ncq + 1) m) :
    setNumberOfQueues c save nsq ncq d =
      (d.hostActivity.setFeat c.id.plot false (fun f => { f with nsq := a, ncq := b })).complete c.id .success
        ((a - 1) + 65536 * (b - 1)) 0 := by
  subst hm ha hb
  unfold setNumberOfQueues
  rw [Dev.setFeature_of h]
  exact (if_neg (by simp [hsqs, hcqs])).trans (if_neg hvalid)

/-- A table of transitions to non-operational states is taken. -/
theorem setAutonomousPst_of_valid {on : Bool} {table : List (Nat × Nat × Nat)} (h : d.admitsFeature c save true false true = true)
    (hptr : prpFits c 256 false = true)
    (hvalid : table.any (fun x => decide (4 < x.1) || !(x.2.2 == 0 || x.2.2 == 3 || x.2.2 == 4)) = false) :
    setAutonomousPst c save on table d =
      (d.hostActivity.setFeat c.id.plot save (fun f => { f with apst := on, apstTable := table })).done c.id .success := by
  unfold setAutonomousPst
  rw [Dev.setFeature_of h, Dev.withPrp_of hptr]
  exact if_neg (Bool.eq_false_iff.mp hvalid)

/-- T_MAX takes 1 to 60 seconds. -/
theorem setCommandBound_of_inRange {v : Nat} (h : d.admitsFeature c save true true false = true) (h1 : 1 ≤ v % 64) (h60 : v % 64 ≤ 60)
    {x : Dev} (hx : x = d.hostActivity.setF F.TOP_TMAX_SECONDS (v % 64)) :
    setCommandBound c save v d =
      (if save = true then { x with nv := { x.nv with savedTmax := some (v % 64) } } else x).done c.id .success := by
  subst hx
  unfold setCommandBound
  rw [Dev.setFeature_of h]
  simp only [Dev.setTmax, h1, h60, and_self, and_true, if_true]

theorem setCommandBound_of_outOfRange {v : Nat} (h : d.admitsFeature c save true true false = true)
    (hv : ¬(1 ≤ v % 64 ∧ v % 64 ≤ 60)) :
    setCommandBound c save v d = d.hostActivity.done c.id .success := by
  unfold setCommandBound
  rw [Dev.setFeature_of h]
  simp only [Dev.setTmax, hv, and_false, if_false]

section
variable {set_ ew crit wear : Nat} (h : d.admitsFeature c save true true false = true) (hptr : prpFits c 16 false = true)
include h hptr

theorem setEarlyWarning_of_inRange (hset : ¬2 ^ 18 ≤ set_) (hew : 1 ≤ ew) (hew100 : ew ≤ 100) (hcrit : crit < ew) (hwear : 1 ≤ wear)
    (hwear255 : wear ≤ 255) {x : Dev} (hx : x = d.hostActivity.putEw set_ ew crit wear) :
    setEarlyWarning c save set_ ew crit wear true d =
      (if save = true then { x with nv := { x.nv with savedEw := some (set_, ew, crit, wear) } } else x).done c.id .success := by
  subst hx
  unfold setEarlyWarning
  rw [Dev.setFeature_of h, Dev.withPrp_of hptr]
  refine if_neg ?_
  simp only [hset, not_true, or_false, false_or]
  omega

theorem setEarlyWarning_of_outOfRange {zeros : Bool}
    (hbad : 2 ^ 18 ≤ set_ ∨ ew < 1 ∨ 100 < ew ∨ ew ≤ crit ∨ wear < 1 ∨ 255 < wear ∨ zeros = false) :
    setEarlyWarning c save set_ ew crit wear zeros d = d.hostActivity.complete c.id (.vendor 0xC7) 0 0 := by
  unfold setEarlyWarning
  rw [Dev.setFeature_of h, Dev.withPrp_of hptr]
  refine if_pos ?_
  rw [Bool.not_eq_true]
  tauto

end

/-! ### Get Features (R79) -/

section
variable {fid sel cdw11 dw : Nat} {page : List (Nat × Nat)} (h : d.admits c false true true = true) (hsel : ¬2 < sel)
  (hptr : prpFits c (featureBytes fid) true = true)
include h hsel hptr

/-- A feature of a controller or namespace is shown: current, default or saved. -/
theorem getFeatures_of_controller {f : Features} (h0 : fid ≠ 0xC0) (h1 : fid ≠ 0xC1)
    (hf : f = (if sel = 1 then Features.default
      else if sel = 2 then (if featureSaves fid then AMap.get Features.default c.id.plot d.hostActivity.nv.saved else Features.default)
      else (d.hostActivity.ctrl c.id.plot).feat))
    (hval : d.hostActivity.featureOf f c.id.plot fid c.nsid sel cdw11 = some (dw, page))
    (hns : ¬(fid = 0x05 ∧ (¬d.hostActivity.attached c.nsid c.id.plot = true ∨ (d.hostActivity.ns? c.nsid).isNone = true))) :
    getFeatures c fid sel cdw11 d =
      (if page.isEmpty then d.hostActivity else d.hostActivity.send (.feature c.id.plot fid page)).complete c.id .success dw 0 := by
  unfold getFeatures
  rw [Dev.admin_of h]
  dsimp only
  rw [← hf, if_neg (by simp [h0, h1]), hval]
  dsimp only
  rw [if_neg (by omega), if_neg (by omega), if_neg hns, Dev.withPrp_of hptr]

/-- A feature of the device is shown to plot 0. -/
theorem getFeatures_of_device (hp : c.id.plot = 0) (hdev : fid = 0xC0 ∨ fid = 0xC1)
    (hval : d.hostActivity.deviceFeature fid sel = some (dw, page)) :
    getFeatures c fid sel cdw11 d =
      (if page.isEmpty then d.hostActivity else d.hostActivity.send (.feature 0 fid page)).complete c.id .success dw 0 := by
  have h5 : fid ≠ 0x05 := by omega
  unfold getFeatures
  rw [Dev.admin_of h]
  dsimp only
  rw [if_pos (by simpa using hdev), if_pos hp, hval]
  dsimp only
  rw [if_neg (by omega), if_neg (by omega), if_neg (by simp [h5]), Dev.withPrp_of hptr, hp]

end

/-- SEL 3 shows a feature's capabilities. -/
theorem getFeatures_capabilities {fid cdw11 : Nat} (h : d.admits c false true true = true) (h0 : fid ≠ 0xC0) (h1 : fid ≠ 0xC1)
    (hval : (d.hostActivity.featureOf (d.hostActivity.ctrl c.id.plot).feat c.id.plot fid c.nsid 3 cdw11).isSome = true) :
    getFeatures c fid 3 cdw11 d =
      d.hostActivity.complete c.id .success (Bool.nat (featureSaves fid) + 2 * Bool.nat (fid == 0x05) + 4) 0 := by
  obtain ⟨⟨dw, page⟩, hv⟩ := Option.isSome_iff_exists.mp hval
  unfold getFeatures
  rw [Dev.admin_of h]
  dsimp only
  rw [if_neg (by simp [h0, h1]), if_neg (by decide), if_neg (by decide), hv]
  dsimp only
  rw [if_neg (by decide), if_pos rfl]

end

/-- Settles O32: an admitted command goes on to its feature, and the checks of its value leave the branch that changes or shows it. -/
theorem featuresComplete : Obligations.FeaturesComplete := by
  refine ⟨
    fun s c fid sel cdw11 f dw page hs h h0 h1 hsel hf hval hns hptr =>
      effects_run rfl hs (getFeatures_of_controller h hsel hptr h0 h1 hf hval hns),
    fun s c fid sel cdw11 dw page hs h hp hdev hsel hval hptr =>
      effects_run rfl hs (getFeatures_of_device h hsel hptr hp hdev hval),
    fun s c fid cdw11 hs h h0 h1 hval => effects_run rfl hs (getFeatures_capabilities h h0 h1 hval),
    fun s c save ab lpw mpw hpw hs h => effects_run rfl hs (Dev.setFeature_of h _),
    fun s c save ps hs h hps => effects_run rfl hs ((Dev.setFeature_of h _).trans (if_neg hps)),
    ?temperatureThreshold,
    ?errorRecovery, ?errorRecoveryAll,
    fun s c save nsq ncq hs h hsqs hcqs hvalid =>
      effects_run rfl hs ⟨_, _, _, rfl, rfl, rfl, setNumberOfQueues_of_noQueues h hsqs hcqs hvalid rfl rfl rfl⟩,
    fun s c save thr time hs h => effects_run rfl hs (Dev.setFeature_of h _),
    fun s c save vec cd hs h hvec => effects_run rfl hs ((Dev.setFeature_of h _).trans (if_neg hvec)),
    fun s c save dn hs h => effects_run rfl hs (Dev.setFeature_of h _),
    fun s c save v hs h => effects_run rfl hs (Dev.setFeature_of h _),
    fun s c save on table hs h hptr hvalid => effects_run rfl hs (setAutonomousPst_of_valid h hptr hvalid),
    fun s c save t hs h hptr => effects_run rfl hs ((Dev.setFeature_of h _).trans (Dev.withPrp_of hptr _ _)),
    fun s c save t1 t2 hs h hvalid => effects_run rfl hs ((Dev.setFeature_of h _).trans (if_neg hvalid)),
    fun s c hs h => effects_run rfl hs (Dev.admin_of h _),
    fun s c save v hs h hlow hhigh => effects_run rfl hs ⟨_, rfl, setCommandBound_of_inRange h hlow hhigh rfl⟩,
    fun s c save v hs h hv => effects_run rfl hs (setCommandBound_of_outOfRange h hv),
    ?earlyWarning,
    fun s c save set_ ew crit wear zeros hs h hptr hbad => effects_run rfl hs (setEarlyWarning_of_outOfRange h hptr hbad),
    fun s c save v hs h => effects_run rfl hs (Dev.setFeature_of h _)⟩
  case temperatureThreshold =>
    intro s c save t tsel sel hs h hsel htsel
    exact effects_run rfl hs ⟨_, rfl, (Dev.setFeature_of h _).trans (if_neg (by omega))⟩
  case errorRecovery =>
    rintro s c save tler _ hs h rfl hone hatt hns
    exact effects_run rfl hs (setErrorRecovery_of_namespace h hone hatt hns)
  case errorRecoveryAll =>
    rintro s c save tler _ hs h rfl hall
    exact effects_run rfl hs ((Dev.setFeature_of h _).trans ((if_neg (by decide)).trans (if_pos hall)))
  case earlyWarning =>
    rintro s c save set_ ew crit wear _ hs h hptr hset hew hew100 hcrit hwear hwear255 rfl
    exact effects_run rfl hs ⟨_, rfl, setEarlyWarning_of_inRange h hptr hset hew hew100 hcrit hwear hwear255 rfl⟩

end Sys2Proof.Machine
end

section
/-! PROOFS. The manager's admin commands: namespaces, allotments, Format, self-tests, sanitize, the anchor, grafts, firmware, streams and
Security Receive (R54, R65, R69, R75, R97, R204, R282, R385, R388, R397). -/

namespace Sys2Proof.Machine

/-! ### Namespaces (R65, R69, R195) -/

section
variable {d : Dev} {c : NCmd}

/-- The namespaces a delete names go, where none of them is out of reach. -/
theorem namespaceManagement_delete {nsze ncap lbaf pi iu geom comp : Nat} {ext shared : Bool} {refused : Option Nat} {ns : List Ns}
    (h : d.admitsUp c true false false = true)
    (hns : ns = d.hostActivity.md.nss.filter (fun n => decide (c.nsid = 0xFFFFFFFF) || n.nsid == c.nsid)) (hne : ns ≠ [])
    (hready : ns.any d.hostActivity.notReady = false)
    (hview : ns.any (fun n => n.cluster.isSome) = false ∨
      (d.hostActivity.f F.TOP_MODE_MODE ≠ 0xB ∧ d.hostActivity.allInView = true)) :
    namespaceManagement c true nsze ncap lbaf pi ext shared iu geom comp refused d =
      (ns.foldl (fun (x : Dev) n => x.dropNs n) d.hostActivity).done c.id .success := by
  have htest : ¬(ns.any (fun n => n.cluster.isSome) = true ∧ d.hostActivity.f F.TOP_MODE_MODE = 0xB) :=
    fun ⟨hc, hm⟩ => hview.elim (fun hno => by simp [hc] at hno) (fun hv => hv.1 hm)
  have hall : ¬(ns.any (fun n => n.cluster.isSome) = true ∧ ¬d.hostActivity.allInView = true) :=
    fun ⟨hc, hv⟩ => hview.elim (fun hno => by simp [hc] at hno) (fun hv' => hv hv'.2)
  obtain ⟨n, rest, rfl⟩ := List.exists_cons_of_ne_nil hne
  unfold namespaceManagement
  rw [Dev.adminUp_of h, if_pos rfl]
  dsimp only
  rw [← hns]
  exact (if_neg htest).trans ((if_neg (Bool.eq_false_iff.mp hready)).trans (if_neg hall))

/-- A create whose fields are in range goes on to `Dev.createNs`. -/
theorem namespaceManagement_create {nsze ncap lbaf pi iu geom comp : Nat} {ext shared : Bool} (refused : Option Nat) {n : Ns}
    (h : d.admitsUp c true false false = true) (hptr : prpFits c 4096 false = true)
    (hok : d.hostActivity.newNsOk nsze ncap lbaf pi iu geom comp = true)
    (hn : n = { nsid := 0, nsze := nsze, ncap := ncap, lbaf := lbaf, iu := iu, pi := pi, ext := ext, comp := comp, attached := [],
                shared := shared, epoch := 0, test := d.hostActivity.f F.TOP_MODE_MODE == 0xB, resv := Resv.init,
                cluster := geomOf geom }) :
    namespaceManagement c false nsze ncap lbaf pi ext shared iu geom comp refused d = d.hostActivity.createNs c n refused := by
  subst hn
  unfold namespaceManagement
  rw [Dev.adminUp_of h, if_neg Bool.false_ne_true, Dev.withPrp_of hptr, if_neg (not_not.mpr hok)]

section
variable {n : Ns} (hfree : ¬(1024 ≤ d.md.nss.length ∨ (d.freeNsids n.cluster.isSome).isEmpty = true))
  (hmap : ¬d.mapFree < d.nsMap n) (hcap : d.capFits n = true)
include hfree hmap hcap

/-- A namespace of this part is created under a free NSID of the part's choice. -/
theorem Dev.createNs_of_local (hc : n.cluster = none) (refused : Option Nat) :
    ∃ (id : Nat) (x : Dev),
      id = (d.freeNsids false).getD (Config.nsidPick d.draw.1 % (d.freeNsids false).length) 0 ∧
      x = { d.draw.2 with md := { d.draw.2.md with nss := d.draw.2.md.nss ++ [{ n with nsid := id }] } } ∧
      d.createNs c n refused = ((x.raiseEpoch id).mapShow).complete c.id .success id 0 := by
  refine ⟨_, _, rfl, rfl, ?_⟩
  unfold Dev.createNs
  dsimp only
  rw [if_neg (by simp [hc]), if_neg hfree, if_neg hmap, if_neg (not_not.mpr hcap)]
  simp only [hc, Option.isSome_none, Bool.false_eq_true, if_false]

/-- A cluster namespace is created once every member holds a share, unless one refuses. -/
theorem Dev.createNs_of_cluster (hc : n.cluster.isSome = true) (hview : d.allInView = true) (refused : Option Nat) :
    ∃ (id : Nat) (x y : Dev),
      id = (d.freeNsids true).getD (Config.nsidPick d.draw.1 % (d.freeNsids true).length) 0 ∧
      x = d.draw.2.tellMembers .reserve id n.nsze ∧ y = x.tellMembers .create id n.nsze ∧
      d.createNs c n refused =
        match refused with
        | some dw => x.complete c.id .namespaceInsufficientCapacity dw 0
        | none =>
          ((({ y with md := { y.md with nss := y.md.nss ++ [{ n with nsid := id }] } } : Dev).raiseEpoch id).mapShow).complete c.id
            .success id 0 := by
  refine ⟨_, _, _, rfl, rfl, rfl, ?_⟩
  unfold Dev.createNs
  dsimp only
  rw [if_neg (by simp [hview]), if_neg hfree, if_neg hmap, if_neg (not_not.mpr hcap)]
  cases refused <;> simp only [hc, if_true]

end

section
variable {list : List Nat} {n : Ns} (h : d.admitsUp c true false false = true) (hn : d.hostActivity.ns? c.nsid = some n)
  (hready : d.hostActivity.notReady n = false) (hptr : prpFits c 4096 false = true)
  (hlist : ¬(list.isEmpty = true ∨ 2047 < list.length ∨
    list.any (fun p => decide (512 ≤ p) || !d.hostActivity.plotEn p) = true ∨ list.eraseDups.length ≠ list.length))
include h hn hready hptr hlist

theorem namespaceAttachment_detach (hall : list.any (fun p => !n.attached.contains p) = false) :
    namespaceAttachment c true list d =
      ((d.hostActivity.setNs { n with attached := n.attached.filter (fun p => !list.contains p) }).nsChanged c.nsid list).done c.id
        .success := by
  unfold namespaceAttachment
  rw [Dev.adminUp_of h, hn]
  dsimp only
  rw [if_neg (Bool.eq_false_iff.mp hready), Dev.withPrp_of hptr, if_neg hlist]
  exact (if_pos rfl).trans (if_neg (Bool.eq_false_iff.mp hall))

theorem namespaceAttachment_attach (hnone : list.any (fun p => n.attached.contains p) = false)
    (hshared : ¬(¬n.shared = true ∧ 1 < n.attached.length + list.length)) :
    namespaceAttachment c false list d =
      ((d.hostActivity.setNs { n with attached := list.foldl (fun l p => NSet.add p l) n.attached }).nsChanged c.nsid list).done c.id
        .success := by
  unfold namespaceAttachment
  rw [Dev.adminUp_of h, hn]
  dsimp only
  rw [if_neg (Bool.eq_false_iff.mp hready), Dev.withPrp_of hptr, if_neg hlist]
  exact (if_neg Bool.false_ne_true).trans ((if_neg (Bool.eq_false_iff.mp hnone)).trans (if_neg hshared))

end

/-- A namespace in reach takes an LBA format that fits it. -/
theorem formatNvm_of_fits {lbaf ses pi : Nat} {ext : Bool} {n n1 : Ns} (h : d.admitsUp c false false false = true)
    (hn : d.hostActivity.ns? c.nsid = some n) (hmine : ¬(c.id.plot ≠ 0 ∧ ¬n.attached.contains c.id.plot = true)) (hses : ¬2 < ses)
    (hready : d.hostActivity.notReady n = false)
    (hformat : ¬(3 < lbaf ∨ piTypeOk lbaf pi = false ∨ (n.comp ≠ 0 ∧ (lbaf = 1 ∨ lbaf = 2))))
    (hn1 : n1 = { n with nsze := n.nsze * lbaBytes n.lbaf / lbaBytes lbaf, ncap := n.ncap * lbaBytes n.lbaf / lbaBytes lbaf,
                         lbaf := lbaf, pi := pi, ext := ext })
    (hfits : ¬d.hostActivity.mapFree + d.hostActivity.nsMap n < d.hostActivity.nsMap n1) {x y : Dev}
    (hx : x = (d.hostActivity.purgeNs c.nsid).setNs n1)
    (hy : y = if ses = 2 then (x.raiseEpoch c.nsid).clearKeys (fun k => k.label.purpose == 1 && k.label.nsid == c.nsid) else x) :
    formatNvm c lbaf ses pi ext d = ((y.mapShow).nsChanged c.nsid n.attached).done c.id .success := by
  subst hn1 hx hy
  unfold formatNvm
  rw [Dev.adminUp_of h, hn]
  dsimp only
  rw [if_neg hmine, if_neg hses, if_neg (Bool.eq_false_iff.mp hready), if_neg hformat, if_neg hfits]

/-! ### Virtualization Management (R65, R97) -/

/-- An action of R97 on a controller of its kind. -/
theorem virtualizationManagement_of_kind {act cntid : Nat} (rt nr : Nat) (h : d.admitsUp c true false false = true)
    (hact : act = 1 ∨ act = 7 ∨ act = 8 ∨ act = 9) (hid : cntid < 512) (hkind : d.hostActivity.primary cntid = decide (act = 1))
    {e x : Dev} (he : e = d.hostActivity) (hx : x = e.ctrlReset cntid) :
    virtualizationManagement c act rt cntid nr d =
      if act = 7 then (x.setCtrl cntid { x.ctrl cntid with offline := true }).done c.id .success
      else if act = 9 then (e.setCtrl cntid { e.ctrl cntid with offline := false }).done c.id .success
      else if 1 < rt then e.done c.id .invalidResourceIdentifier
      else if act = 8 ∧ ¬(e.ctrl cntid).offline then e.done c.id .invalidSecondaryControllerState
      else e.allot c cntid rt nr := by
  subst he hx
  unfold virtualizationManagement
  rw [Dev.adminUp_of h]
  dsimp only
  rw [if_neg (not_not.mpr hact), if_neg (by simp [hid, hkind])]

/-! ### Self-tests (R54) -/

/-- An abort takes effect at once, or, while a unit is out of use, when it is back. -/
theorem selfTestAbort_of_running {t : SelfTest} (h : d.admitsUp c true false false = true) (ht : d.hostActivity.mode.selfTest = some t)
    {x : Dev} (hx : x = ({ d.hostActivity with
      mode := { d.hostActivity.mode with selfTest := some { t with abort := true } } } : Dev).done c.id .success) :
    selfTestAbort c d =
      if t.quads.isEmpty = true ∨ d.hostActivity.mode.qtest.any (fun q => t.quads.contains q.quad) = true then x
      else x.endSelfTest 1 0 := by
  subst hx
  unfold selfTestAbort
  rw [Dev.adminUp_of h, ht]

theorem selfTestAbort_of_none (h : d.admitsUp c true false false = true) (ht : d.hostActivity.mode.selfTest = none) :
    selfTestAbort c d = d.hostActivity.done c.id .success := by
  unfold selfTestAbort
  rw [Dev.adminUp_of h, ht]

/-! ### Sanitize (R65, R282) -/

/-- A sanitize asked for in an operating mode is accepted, and begins once no quadrant is under test. -/
theorem Dev.startSanitize_of_operating {kind : Nat} (h : d.admitsUp c true false false = true)
    (hop : d.hostActivity.isOperating = true) {x : Dev} (hx : x = d.hostActivity.done c.id .success) :
    d.startSanitize c kind = ({ x with mode := { x.mode with sanitizeWait := some kind } }).sanitizeGo := by
  subst hx
  unfold Dev.startSanitize
  rw [Dev.adminUp_of h, if_neg (not_not.mpr hop)]

/-! ### The anchor and grafts (R204, R388) -/

theorem reseatAnchor_of_good {anchor : Nat} {t : AnchorTok} (h : d.admitsUp c true false false = true)
    (hptr : prpFits c 256 false = true) (hgood : d.hostActivity.tokenGood t true = true) (hanchor : t.anchor = anchor) :
    reseatAnchor c anchor t d = ((d.hostActivity.passToken t).reseat t).done c.id .success := by
  unfold reseatAnchor
  rw [Dev.adminUp_of h, Dev.withPrp_of hptr]
  exact if_pos (by simp [hgood, hanchor])

/-- A graft that passes its checks becomes pending. -/
theorem applyGraft_of_good {len : Nat} {g : Graft} {x : Segment} (h : d.admitsUp c true false false = true)
    (hlen : ¬(len < 1024 ∨ 65536 < len)) (hptr : prpFits c len false = true) (hhdr : g.hdr.length = len)
    (hgood : d.hostActivity.graftFail g = none) (hseg : g.seg = some x) {y : Dev}
    (hy : y = { d.hostActivity with
      trel := { d.hostActivity.trel with swap := AMap.put g.quad { x with segver := g.hdr.svn } d.hostActivity.trel.swap },
      boot := { d.hostActivity.boot with graft := some g } }) :
    applyGraft c len g d =
      ((((y.setF F.BRZ_GRAFT_QUAD g.quad).setF F.BRZ_GRAFT_PENDING 1).setF F.BRZ_GRAFT_SEGVER g.hdr.svn).raise 0x02A noPlot
        [g.quad, g.hdr.svn]).done c.id .success := by
  subst hy
  unfold applyGraft
  rw [Dev.adminUp_of h, if_neg hlen, Dev.withPrp_of hptr, if_pos hhdr, hgood, hseg]

/-! ### Firmware and streams (R65, R75, R384, R385) -/

/-- A piece replaces the downloaded pieces that it overlaps. -/
theorem firmwareImageDownload_of_aligned {off len : Nat} {o : Object} (h : d.admitsUp c true true false = true)
    (hoff : off % 4096 = 0) (hlen : len % 4096 = 0) (h0 : len ≠ 0) (hptr : prpFits c len false = true)
    {keep : List (Nat × Nat × Object)}
    (hkeep : keep = d.hostActivity.boot.download.filter (fun p => decide (p.1 + p.2.1 ≤ off) || decide (off + len ≤ p.1))) :
    firmwareImageDownload c off len o d =
      ({ d.hostActivity with boot := { d.hostActivity.boot with download := keep ++ [(off, len, o)] } }).done c.id .success := by
  subst hkeep
  unfold firmwareImageDownload
  rw [Dev.adminUp_of h, if_neg (by simp [hoff, hlen, h0]), Dev.withPrp_of hptr]

/-- A commit of an image that is taken puts it in its slot; `go` is what action 3 does next. -/
theorem Dev.fwCommit_of_image {fs ca k : Nat} {x : Dev} {i : FwImage} (go : Nat → Dev → Dev)
    (hobj : ∀ y, (if ca = 2 then none else d.boot.whole) ≠ some (.stream y)) (hslot : ¬(3 < fs ∨ (fs = 0 ∧ ca = 2))) (hca : ¬3 < ca)
    (hk : d.commitSlot fs = (k, x)) (hi : x.commitImage k ca = some i) (hgood : x.fwRefusal i = none) :
    d.fwCommit c fs ca go =
      if ca = 0 then (x.storeFw k i).done c.id .success
      else if ca = 3 then go k (x.storeFw k i)
      else ((x.storeFw k i).setDirectory (fun g => { g with fwNext := k })).done c.id
        .firmwareActivationRequiresNvmSubsystemReset := by
  unfold Dev.fwCommit
  split
  · next y hy => exact absurd hy (hobj y)
  · rw [if_neg hslot, if_neg hca, hk]
    dsimp only
    rw [hi]
    dsimp only
    rw [hgood]

/-- What an action other than 2 commits is no stream where none has been downloaded whole. -/
theorem BootSt.committed_ne_stream {b : BootSt} {ca : Nat}
    (h : (match b.whole with
      | some (.stream _) => false
      | _ => true) = true ∨ ca = 2) (y : Stream) : (if ca = 2 then none else b.whole) ≠ some (.stream y) := by
  split
  · nofun
  · next hca =>
    intro hy
    rw [hy] at h
    exact h.elim Bool.false_ne_true hca

/-- A stream that passes its checks goes to the slot that is not active. -/
theorem Dev.streamCommit_of_good {ca : Nat} {x : Stream} (hca : ca ≤ 1) (hgood : d.streamFail x = none) {y : Dev}
    (hy : y = { d with
      boot := { d.boot with download := [] },
      bootFlash := if d.directory.strActive = 0 then { d.bootFlash with strB := some x } else { d.bootFlash with strA := some x } }) :
    d.streamCommit c x 0 ca =
      (if ca = 1 then y.setDirectory (fun g => { g with strActive := 1 - min 1 d.directory.strActive }) else y).done c.id
        .success := by
  have hother : 1 - min 1 d.directory.strActive = 0 ↔ d.directory.strActive ≠ 0 := by omega
  subst hy
  unfold Dev.streamCommit
  dsimp only
  rw [if_neg (by omega), hgood]
  dsimp only
  simp only [hother, ne_eq, ite_not]

theorem streamCommit_of_good {ca : Nat} {x : Stream} (h : d.admitsUp c true true false = true) (hca : ca ≤ 1)
    (hx : d.hostActivity.boot.whole = some (.stream x)) :
    streamCommit c 0 ca d = d.hostActivity.streamCommit c x 0 ca := by
  have h2 : ca ≠ 2 := by omega
  unfold streamCommit Dev.fwCommit
  rw [Dev.adminUp_of h, if_neg h2, hx]

/-! ### The drain of an activation (R75) -/

/-- A drain within its bound ends with the new image running. -/
theorem fwActivationDrainDone_of_drained {us : Nat} {a : ActDrain} (ha : d.host.drain = some a)
    (hdone : ¬(¬d.drained a.id = true ∨ 1500000 < us)) {x y z : Dev}
    (hx : x = (d.host.ctrls.map Prod.fst).foldl (fun (e : Dev) p =>
      if bit (e.ctrl p).feat.asyncCfg 9 then e.asyncTo p ⟨2, 1, 0x03⟩ else e) (d.drainShow us false))
    (hy : y = ({ x with boot := { x.boot with firmware := AMap.find a.slot x.bootFlash.fw, fwRunning := a.slot } } : Dev).setDirectory
      (fun g => { g with fwActive := a.slot, fwNext := 0 }))
    (hz : z = if y.boot.svnDone then y.svnTo 0 (svnOfFw y.boot.firmware) else y) :
    fwActivationDrainDone us d = (z.raise 0x1E8 noPlot []).done a.id .success := by
  subst hx hy hz
  unfold fwActivationDrainDone
  rw [ha]
  exact if_neg hdone

theorem fwActivationDrainTimeout_of_draining {us : Nat} {a : ActDrain} (ha : d.host.drain = some a) :
    fwActivationDrainTimeout us d =
      (((d.drainShow us true).setDirectory (fun g => { g with fwNext := a.slot })).raise 0x1E9 noPlot []).done a.id
        .firmwareActivationRequiresMaxTimeViolation := by
  unfold fwActivationDrainTimeout
  rw [ha]

/-! ### Security Receive (R65, R397) -/

section
variable {al : Nat} (h : d.admitsUp c false true false = true) (hptr : prpFits c al true = true)
include h hptr

theorem securityReceive_protocols :
    securityReceive c 0 0 al d =
      (d.hostActivity.send (.bytes c.id.plot ([0, 0, 0, 0, 0, 0, 0, 2, 0x00, 0xF0].take al))).done c.id .success := by
  unfold securityReceive
  rw [Dev.adminUp_of h, Dev.withPrp_of hptr]
  exact if_pos ⟨rfl, rfl⟩

theorem securityReceive_of_none (hm : d.hostActivity.boot.msgs.find? (fun x => x.plot == c.id.plot) = none) :
    securityReceive c 0xF0 1 al d =
      (d.hostActivity.send (.bytes c.id.plot ((halwReply 0 0 6 []).take al))).done c.id .success := by
  unfold securityReceive
  rw [Dev.adminUp_of h, Dev.withPrp_of hptr]
  dsimp only
  rw [if_neg (by decide), if_neg (by decide), hm]

/-- The response held for the plot is handed out once it is ready, and kept where it is cut. -/
theorem securityReceive_of_held {m : HalwMsg} (hm : d.hostActivity.boot.msgs.find? (fun x => x.plot == c.id.plot) = some m)
    {bs : List Nat} (hbs : bs = halwReply m.code m.reqId m.status m.payload) {x : Dev}
    (hx : x = if bs.length ≤ al then
        { d.hostActivity with boot := { d.hostActivity.boot with
          msgs := d.hostActivity.boot.msgs.filter (fun y => y.plot != c.id.plot) } }
      else d.hostActivity) :
    securityReceive c 0xF0 1 al d =
      if ¬m.ready then (d.hostActivity.send (.bytes c.id.plot ((halwReply m.code m.reqId 1 []).take al))).done c.id .success
      else (x.send (.bytes c.id.plot (bs.take al))).done c.id .success := by
  subst hbs hx
  unfold securityReceive
  rw [Dev.adminUp_of h, Dev.withPrp_of hptr]
  dsimp only
  rw [if_neg (by decide), if_neg (by decide), hm]

end

end

/-- Settles O33: an admitted command goes on to its own checks, and those leave the branch that does its work. -/
theorem adminCommandsComplete : Obligations.AdminCommandsComplete := by
  refine ⟨
    fun s c nsze ncap lbaf pi ext shared iu geom comp refused ns hs h hns hne hready hview =>
      effects_run rfl hs (namespaceManagement_delete h hns hne hready hview),
    ?createLocal, ?createCluster, ?detach, ?attach, ?online, ?offline, ?allot,
    fun s c lbaf ses pi ext n hs h hn hmine hses hready hformat hfits =>
      effects_run rfl hs ⟨_, _, rfl, rfl, formatNvm_of_fits h hn hmine hses hready hformat rfl hfits rfl rfl⟩,
    fun s c hs h hop => effects_run rfl hs ⟨_, rfl, Dev.startSanitize_of_operating h hop rfl⟩,
    fun s c hs h hop => effects_run rfl hs ⟨_, rfl, Dev.startSanitize_of_operating h hop rfl⟩,
    fun s c ok hs h ht => effects_run rfl hs ((Dev.adminUp_of h _).trans (if_neg (by simp [ht]))),
    fun s c hs h ht hop =>
      effects_run rfl hs ((Dev.adminUp_of h _).trans ((if_neg (by simp [ht])).trans (if_neg (not_not.mpr hop)))),
    fun s c t hs h ht => effects_run rfl hs ⟨_, rfl, selfTestAbort_of_running h ht rfl⟩,
    fun s c hs h ht => effects_run rfl hs (selfTestAbort_of_none h ht),
    fun s c anchor t hs h hptr hgood hanchor => effects_run rfl hs (reseatAnchor_of_good h hptr hgood hanchor),
    fun s c len g x hs h hlen hptr hhdr hgood hseg =>
      effects_run rfl hs ⟨_, rfl, applyGraft_of_good h hlen hptr hhdr hgood hseg rfl⟩,
    fun s c off len o hs h hoff hlen h0 hptr => effects_run rfl hs (firmwareImageDownload_of_aligned h hoff hlen h0 hptr rfl),
    ?commit, ?activate, ?stream,
    fun s us a hs ha hdone => effects_run rfl hs ⟨_, _, _, rfl, rfl, rfl, fwActivationDrainDone_of_drained ha hdone rfl rfl rfl⟩,
    fun s us a hs ha => effects_run rfl hs (fwActivationDrainTimeout_of_draining ha),
    ?protocols, ?noMessage, ?notReady, ?ready⟩
  case createLocal =>
    intro s c nsze ncap lbaf pi ext shared iu geom comp refused n hs h hptr hok hn hc hfree hmap hcap
    refine effects_run rfl hs ?_
    rw [namespaceManagement_create refused h hptr hok hn]
    exact Dev.createNs_of_local (by simpa [hc] using hfree) hmap hcap hc refused
  case createCluster =>
    intro s c nsze ncap lbaf pi ext shared iu geom comp refused n hs h hptr hok hn hc hview hfree hmap hcap
    refine effects_run rfl hs ?_
    rw [namespaceManagement_create refused h hptr hok hn]
    exact Dev.createNs_of_cluster (by rw [hc]; exact hfree) hmap hcap hc hview refused
  case detach =>
    rintro s c _ list n hs h hn hready hptr rfl hlist hall
    exact effects_run rfl hs (namespaceAttachment_detach h hn hready hptr hlist hall)
  case attach =>
    rintro s c _ list n hs h hn hready hptr rfl hlist hnone hshared
    exact effects_run rfl hs (namespaceAttachment_attach h hn hready hptr hlist hnone hshared)
  case online =>
    intro s c rt cntid nr hs h hid hkind
    exact effects_run rfl hs ((virtualizationManagement_of_kind rt nr h (by decide) hid (by simpa using hkind) rfl rfl).trans
      ((if_neg (show ¬9 = 7 by decide)).trans (if_pos rfl)))
  case offline =>
    intro s c rt cntid nr hs h hid hkind
    exact effects_run rfl hs ⟨_, rfl,
      (virtualizationManagement_of_kind rt nr h (by decide) hid (by simpa using hkind) rfl rfl).trans (if_pos rfl)⟩
  case allot =>
    intro s c act rt cntid nr hs h hact hid hkind hrt hoff
    refine effects_run rfl hs ((virtualizationManagement_of_kind rt nr h (by omega) hid hkind rfl rfl).trans ?_)
    rw [if_neg (by omega), if_neg (by omega), if_neg (by omega), if_neg (fun ⟨h8, hno⟩ => hno (hoff h8))]
  case commit =>
    intro s c fs ca k x i hs h hca hobj hslot hk hi hgood
    refine effects_run rfl hs ((Dev.adminUp_of h _).trans ?_)
    rw [Dev.fwCommit_of_image _ (BootSt.committed_ne_stream hobj) hslot (by omega) hk hi hgood, if_neg (show ca ≠ 3 by omega)]
  case activate =>
    intro s c fs k x i hs h hobj hfs hk hi hgood
    refine effects_run rfl hs ((Dev.adminUp_of h _).trans ?_)
    exact Dev.fwCommit_of_image _ (BootSt.committed_ne_stream (.inl hobj)) (by omega) (by decide) hk hi hgood
  case stream =>
    intro s c ca x hs h hca hx hgood
    exact effects_run rfl hs ⟨_, rfl, (streamCommit_of_good h hca hx).trans (Dev.streamCommit_of_good hca hgood rfl)⟩
  case protocols =>
    rintro s c _ _ al hs h hptr rfl rfl
    exact effects_run rfl hs (securityReceive_protocols h hptr)
  case noMessage =>
    rintro s c _ _ al hs h hptr rfl rfl hm
    exact effects_run rfl hs (securityReceive_of_none h hptr hm)
  case notReady =>
    rintro s c _ _ al m hs h hptr rfl rfl hm hready
    exact effects_run rfl hs ((securityReceive_of_held h hptr hm rfl rfl).trans (if_pos (by simp [hready])))
  case ready =>
    rintro s c _ _ al m hs h hptr rfl rfl hm hready
    exact effects_run rfl hs ⟨_, rfl, (securityReceive_of_held h hptr hm rfl rfl).trans (if_neg (not_not.mpr hready))⟩

end Sys2Proof.Machine
end

section
/-! PROOFS. Protection information (R68): what bytes keep of a number, and the fields that generated protection information holds. -/

namespace Sys2Proof.Machine

/-! ### Numbers and their bytes -/

/-- The low bytes of a number are those of its remainder. -/
theorem leBytes_mod (n v : Nat) : leBytes n (v % 256 ^ n) = leBytes n v := by
  induction n generalizing v with
  | zero => rfl
  | succ n ih =>
    have hlow : BitVec.ofNat 8 (v % 256 ^ (n + 1)) = BitVec.ofNat 8 v :=
      BitVec.eq_of_toNat_eq (Nat.mod_mod_of_dvd v (Dvd.intro_left (256 ^ n) rfl))
    have hhigh : v % 256 ^ (n + 1) / 256 = v / 256 % 256 ^ n := by
      rw [Nat.pow_succ', Nat.mod_mul_right_div_self]
    rw [leBytes, leBytes, hlow, hhigh, ih]

/-- What was put above a remainder. -/
theorem mod_pow_add_mul_div (n v k : Nat) : (v % 256 ^ n + k * 256 ^ n) / 256 ^ n = k := by
  have hpos : 0 < 256 ^ n := Nat.pow_pos (by decide)
  rw [Nat.add_mul_div_right _ _ hpos, Nat.div_eq_of_lt (Nat.mod_lt _ hpos), Nat.zero_add]

/-- What lies above the low bytes does not show in them. -/
theorem leBytes_add_mul (n v k : Nat) : leBytes n (v + k * 256 ^ n) = leBytes n v := by
  rw [← leBytes_mod, Nat.add_mul_mod_self_right, leBytes_mod]

theorem length_leBytes (n v : Nat) : (leBytes n v).length = n := by
  induction n generalizing v with
  | zero => rfl
  | succ n ih => rw [leBytes, List.length_cons, ih]

theorem length_reverse_leBytes (n v : Nat) : (leBytes n v).reverse.length = n := by
  rw [List.length_reverse, length_leBytes]

theorem leNat_leBytes (n v : Nat) : leNat (leBytes n v) = v % 256 ^ n := by
  induction n generalizing v with
  | zero => rw [Nat.pow_zero, Nat.mod_one]; rfl
  | succ n ih => rw [leBytes, leNat, ih, Nat.pow_succ', Nat.mod_mul]; rfl

theorem leBytes_leNat (s : List Byte) : leBytes s.length (leNat s) = s := by
  induction s with
  | nil => rfl
  | cons b t ih =>
    have hb : b.toNat < 256 := b.isLt
    have hlow : BitVec.ofNat 8 (b.toNat + 256 * leNat t) = b :=
      BitVec.eq_of_toNat_eq (by rw [BitVec.toNat_ofNat]; omega)
    have hhigh : (b.toNat + 256 * leNat t) / 256 = leNat t := by omega
    rw [leNat, List.length_cons, leBytes, hlow, hhigh, ih]

theorem leNat_append (s t : List Byte) : leNat (s ++ t) = leNat s + leNat t * 256 ^ s.length := by
  induction s with
  | nil => simp [leNat]
  | cons b s ih => rw [List.cons_append, leNat, leNat, ih, List.length_cons, Nat.pow_succ]; ring

theorem leNat_lt (s : List Byte) : leNat s < 256 ^ s.length := by
  have h := leNat_leBytes s.length (leNat s)
  rw [leBytes_leNat] at h
  exact h ▸ Nat.mod_lt _ (by positivity)

/-- The first bytes of a number made from bytes are the first of these. -/
theorem leBytes_leNat_append (s t : List Byte) : leBytes s.length (leNat (s ++ t)) = s := by
  rw [leNat_append, leBytes_add_mul, leBytes_leNat]

/-- Without its first bytes, a number made from bytes is that made from the rest. -/
theorem leNat_append_div (s t : List Byte) : leNat (s ++ t) / 256 ^ s.length = leNat t := by
  rw [leNat_append, Nat.add_mul_div_right _ _ (by positivity), Nat.div_eq_of_lt (leNat_lt s), Nat.zero_add]

theorem beNat_reverse (s : List Byte) : beNat s.reverse = leNat s := by
  induction s with
  | nil => rfl
  | cons b t ih =>
    have hsnoc : beNat (t.reverse ++ [b]) = 256 * beNat t.reverse + b.toNat := by simp [beNat]
    rw [List.reverse_cons, hsnoc, ih, leNat, Nat.add_comm]

/-- A number written big-endian into `n` bytes reads back, if it fits. -/
theorem beNat_reverse_leBytes {n v : Nat} (h : v < 256 ^ n) : beNat (leBytes n v).reverse = v := by
  rw [beNat_reverse, leNat_leBytes, Nat.mod_eq_of_lt h]

/-! ### The guard is 16 bits -/

theorem crc16Step_lt (c : Nat) : crc16Step c < 2 ^ 16 := by
  have hlow : c * 2 % 65536 < 2 ^ 16 := Nat.mod_lt _ (by decide)
  unfold crc16Step
  split
  · exact Nat.xor_lt_two_pow hlow (by decide)
  · exact hlow

theorem crc16_lt (bs : List Byte) : crc16 bs < 2 ^ 16 := by
  cases bs using List.reverseRecOn with
  | nil => decide
  | append_singleton bs b => rw [crc16, List.foldl_append]; exact crc16Step_lt _

/-! ### The fields of generated protection information -/

section
variable (guard app ref : Nat)

/-- The three fields in the order in which they stand. -/
theorem piBytes_eq : piBytes guard app ref =
    leNat ((leBytes 2 guard).reverse ++ ((leBytes 2 app).reverse ++ (leBytes 4 ref).reverse)) := by
  rw [piBytes, List.append_assoc]

theorem piBytes_div_guard : piBytes guard app ref / 2 ^ 16 = leNat ((leBytes 2 app).reverse ++ (leBytes 4 ref).reverse) := by
  have h := leNat_append_div (leBytes 2 guard).reverse ((leBytes 2 app).reverse ++ (leBytes 4 ref).reverse)
  rwa [length_reverse_leBytes, ← piBytes_eq] at h

theorem piBytes_div_app : piBytes guard app ref / 2 ^ 32 = leNat (leBytes 4 ref).reverse := by
  have h := leNat_append_div (leBytes 2 app).reverse (leBytes 4 ref).reverse
  rwa [length_reverse_leBytes, ← piBytes_div_guard guard, Nat.div_div_eq_div_mul] at h

variable {guard app ref}

theorem piGuard_piBytes (h : guard < 2 ^ 16) : piGuard (piBytes guard app ref) = guard := by
  have hfirst := leBytes_leNat_append (leBytes 2 guard).reverse ((leBytes 2 app).reverse ++ (leBytes 4 ref).reverse)
  rw [length_reverse_leBytes] at hfirst
  rw [piGuard, piBytes_eq, hfirst, beNat_reverse_leBytes h]

theorem piApp_piBytes (h : app < 2 ^ 16) : piApp (piBytes guard app ref) = app := by
  have hfirst := leBytes_leNat_append (leBytes 2 app).reverse (leBytes 4 ref).reverse
  rw [length_reverse_leBytes] at hfirst
  rw [piApp, piBytes_div_guard, hfirst, beNat_reverse_leBytes h]

theorem piRef_piBytes (h : ref < 2 ^ 32) : piRef (piBytes guard app ref) = ref := by
  have hall := leBytes_leNat (leBytes 4 ref).reverse
  rw [length_reverse_leBytes] at hall
  rw [piRef, piBytes_div_app, hall, beNat_reverse_leBytes h]

end

/-! ### A block with generated protection information -/

section
variable (ty : Nat) (c : PiCmd) (i v : Nat)

theorem two_pow_32768 : 2 ^ 32768 = 256 ^ 4096 := by
  rw [show 256 = 2 ^ 8 from rfl, ← Nat.pow_mul]

/-- The data of the block are those it was made from. -/
theorem leBytes_piMake : leBytes 4096 (piMake ty c i v) = leBytes 4096 v := by
  rw [piMake, two_pow_32768, leBytes_add_mul, leBytes_mod]

/-- Its metadata are the guard of its data, the command's application tag and, with Type 1, the reference tag of its place. -/
theorem piMake_div : piMake ty c i v / 2 ^ 32768 =
    piBytes (crc16 (leBytes 4096 v)) (c.app % 65536) (if ty = 1 then (c.ref + i) % 2 ^ 32 else c.ref % 2 ^ 32) := by
  rw [piMake, two_pow_32768, leBytes_mod, mod_pow_add_mul_div]

/-- No check of the command that made it fails: the fields are equal to what the checks compare them with. -/
theorem piCheck_piMake (happ : c.app < 2 ^ 16) : piCheck ty c i (piMake ty c i v) = none := by
  have hguard : piGuard (piMake ty c i v / 2 ^ 32768) = crc16 (leBytes 4096 v) := by
    rw [piMake_div, piGuard_piBytes (crc16_lt _)]
  have happ : piApp (piMake ty c i v / 2 ^ 32768) = c.app := by
    rw [piMake_div, show c.app % 65536 = c.app from Nat.mod_eq_of_lt happ, piApp_piBytes happ]
  have href : ty = 1 → piRef (piMake ty c i v / 2 ^ 32768) = (c.ref + i) % 2 ^ 32 := fun hty => by
    rw [piMake_div, if_pos hty, piRef_piBytes (Nat.mod_lt _ (by decide))]
  unfold piCheck
  dsimp only
  rw [leBytes_piMake, hguard, happ]
  split
  · rfl
  · exact (if_neg fun h => h.2 rfl).trans ((if_neg fun h => h.2 rfl).trans (if_neg fun h => h.2.2 (href h.2.1)))

end

/-- Settles O60: the fields that PRACT = 1 writes read back as they were written, and they are the ones that the checks compare. -/
theorem protectionInformationRoundTrip : Obligations.ProtectionInformationRoundTrip :=
  fun ty i v c _ happ _ => ⟨piCheck_piMake ty c i v happ, leBytes_piMake ty c i v⟩

end Sys2Proof.Machine
end

section
/-! PROOFS. The I/O commands (R66, R68, R72, R137, R141): a change of the media past its checks, the writes that are held, and the
reads. -/

namespace Sys2Proof.Machine

/-! ### The write cache (R139, R141) -/

section
variable {d : Dev} {id : CmdId} {n : Ns} {ps : List WPiece}

/-- Pieces that may be committed now are, in order, and what must wait is held. -/
theorem Dev.commitAll_of_turn {resumed : Bool} {y : Dev} {t : List WPiece} (hy : Dev.commitPieces id.plot n ps d = (y, t))
    (hturn : resumed = true ∨ d.ftl.held = []) :
    d.commitAll id n ps resumed =
      if t = [] then y.done id .success else y.hold { id := id, nsid := n.nsid, pieces := t } resumed := by
  have hno : ¬(¬resumed = true ∧ ¬d.ftl.held.isEmpty = true) := fun ⟨hr, hh⟩ => hturn.elim hr (fun h => hh (by simp [h]))
  unfold Dev.commitAll
  rw [if_neg hno, hy]
  cases t <;> rfl

/-- Writes held earlier go first. -/
theorem Dev.commitAll_of_held (hheld : d.ftl.held ≠ []) :
    d.commitAll id n ps false = d.hold { id := id, nsid := n.nsid, pieces := ps } false :=
  if_pos ⟨Bool.false_ne_true, by simpa using hheld⟩

/-- With no write held and room for every piece, a command completes. -/
theorem Dev.commitAll_of_room {y : Dev} (hheld : d.ftl.held = []) (hy : Dev.commitPieces id.plot n ps d = (y, [])) :
    d.commitAll id n ps false = y.done id .success :=
  (Dev.commitAll_of_turn hy (.inr hheld)).trans (if_pos rfl)

end

/-- The write held longest goes on, within the capacity of its namespace. -/
theorem writeTransferResume_of_held {d d1 : Dev} {w : HeldWrite} {rest : List HeldWrite} {n : Ns} (hheld : d.ftl.held = w :: rest)
    (hd1 : d1 = { d with ftl := { d.ftl with held := rest } }) (hn : d1.ns? w.nsid = some n)
    (hcro : d1.flag F.TOP_MODE_CRO = false) (hcap : d1.overCap n ((w.pieces.flatMap (fun x => x.stores n)).eraseDups) = false) :
    writeTransferResume d = d1.commitAll w.id n w.pieces true := by
  subst hd1
  unfold writeTransferResume
  rw [hheld]
  dsimp only
  rw [hn]
  dsimp only
  rw [if_neg (by simp [hcro]), if_neg (by simp [hcap])]

/-! ### A change of the media (R67, R198) -/

/-- What a change comes to past its checks: a transaction of a cluster namespace, commits to the write cache of any other. -/
def Dev.putPiece (d : Dev) (id : CmdId) (n : Ns) (x : WPiece) : Dev :=
  match n.cluster with
  | some g => d.clusterWrite id n g x.slba ((List.range x.nlb).map (fun i =>
      if (x.block n i).2 = .good then (x.block n i).1 else markBlock (lbaBytes n.lbaf)))
  | none => d.commitAll id n (d.cut n x) false

theorem Dev.putPiece_of_room {d : Dev} {id : CmdId} {n : Ns} {x : WPiece} {y : Dev} (hc : n.cluster = none)
    (hheld : d.ftl.held = []) (hy : Dev.commitPieces id.plot n (d.cut n x) d = (y, [])) :
    d.putPiece id n x = y.done id .success := by
  unfold Dev.putPiece
  rw [hc]
  exact Dev.commitAll_of_room hheld hy

/-- What deallocating ranges comes to past its checks, in the same two ways. -/
def Dev.putRanges (d : Dev) (id : CmdId) (n : Ns) (ps : List WPiece) : Dev :=
  match n.cluster with
  | some g => d.clusterRanges id n g (ps.map (fun y => (y.slba, List.replicate y.nlb 0)))
  | none => d.commitAll id n (ps.flatMap (d.cut n)) false

theorem Dev.putRanges_of_room {d : Dev} {id : CmdId} {n : Ns} {ps : List WPiece} {y : Dev} (hc : n.cluster = none)
    (hheld : d.ftl.held = []) (hy : Dev.commitPieces id.plot n (ps.flatMap (d.cut n)) d = (y, [])) :
    d.putRanges id n ps = y.done id .success := by
  unfold Dev.putRanges
  rw [hc]
  exact Dev.commitAll_of_room hheld hy

/-- A change of blocks within the namespace and its capacity goes on to `rest`, and to the media unless the namespace's key is
spent. -/
theorem Dev.change_of {d : Dev} {c : NCmd} {n : Ns} {slba nlb : Nat} {kind : WriteKind}
    (hwait : d.mustWait n [(slba, nlb)] = false) (hin : n.within [(slba, nlb)] = true)
    (hcap : d.overCap n (({ slba := slba, nlb := nlb, kind := kind } : WPiece).stores n) = false)
    (rest : (Dev → Dev) → Dev → Dev) :
    d.change c n { slba := slba, nlb := nlb, kind := kind } rest =
      rest (fun e => if e.spent.contains n.nsid = true then e.spentRefuse c
        else e.putPiece c.id n { slba := slba, nlb := nlb, kind := kind }) d := by
  unfold Dev.change
  rw [if_neg (Bool.eq_false_iff.mp hwait), if_neg (not_not.mpr hin), if_neg (Bool.eq_false_iff.mp hcap)]
  rfl

section
variable {d : Dev} {c : NCmd} {n : Ns}

/-! ### Flush (R72) -/

/-- A Flush of every namespace that the mode admits. -/
theorem flush_of_all (hall : c.nsid = 0xFFFFFFFF) (hout : d.outstanding c.id = true) (hrsvd : c.rsvd = false)
    (hdoze : d.hostActivity.f F.TOP_MODE_MODE ≠ 0xA) (hsafe : d.hostActivity.f F.TOP_MODE_MODE ≠ 1)
    (hsan : d.hostActivity.f F.TOP_MODE_MODE ≠ 3) : flush c d = d.hostActivity.done c.id .success := by
  unfold flush
  rw [if_pos hall, if_neg (not_not.mpr hout)]
  dsimp only
  rw [if_neg hdoze, if_neg (by simp [hrsvd]), if_neg hsafe, if_neg hsan]

theorem flush_of_admits (hone : c.nsid ≠ 0xFFFFFFFF) (h : d.admitsIo c false .write n = true)
    (hwait : d.hostActivity.mustWait n [] = false) : flush c d = d.hostActivity.done c.id .success := by
  unfold flush
  rw [if_neg hone, Dev.io_of h]
  exact if_neg (Bool.eq_false_iff.mp hwait)

/-! ### Writes (R66, R68) -/

section
variable {slba : Nat} (h : d.admitsIo c true .write n = true)
include h

section
variable {data : List (Nat × Nat)} {pi : PiCmd} (hdata : data ≠ [])
  (hwait : d.hostActivity.mustWait n [(slba, data.length)] = false) (hin : n.within [(slba, data.length)] = true)
  (hptr : dataFits c (n.moves pi.pract data.length) false = true)
include hdata hwait hin hptr

/-- A Write whose protection information is made or passes puts its blocks. -/
theorem write_of_blocks {bs : List (Nat × Nat)} (hpi : n.piIn pi slba data = .inl bs)
    (hcap : d.hostActivity.overCap n (({ slba := slba, nlb := data.length, kind := .data bs } : WPiece).stores n) = false)
    (hspent : (d.hostActivity.countWrite c.id.plot n data.length).spent.contains n.nsid = false) :
    write c slba data pi d =
      (d.hostActivity.countWrite c.id.plot n data.length).putPiece c.id n
        { slba := slba, nlb := data.length, kind := .data bs } := by
  unfold write
  rw [if_neg (by simpa using hdata), Dev.io_of h, hpi]
  dsimp only
  rw [Dev.change_of hwait hin hcap, Dev.withPtr_of hptr]
  exact if_neg (Bool.eq_false_iff.mp hspent)

/-- A Write whose protection information fails ends with that status. -/
theorem write_of_piFail {st : Sc} (hpi : n.piIn pi slba data = .inr st)
    (hcap : d.hostActivity.overCap n
      (({ slba := slba, nlb := data.length, kind := .data data } : WPiece).stores n) = false) :
    write c slba data pi d = d.hostActivity.done c.id st := by
  unfold write
  rw [if_neg (by simpa using hdata), Dev.io_of h, hpi]
  dsimp only
  rw [Dev.change_of hwait hin hcap, Dev.withPtr_of hptr]

end

section
variable {nlb : Nat} (hnlb : nlb ≠ 0) (hwait : d.hostActivity.mustWait n [(slba, nlb)] = false)
  (hin : n.within [(slba, nlb)] = true) (hspent : d.hostActivity.spent.contains n.nsid = false)
include hnlb hwait hin hspent

theorem writeUncorrectable_of
    (hcap : d.hostActivity.overCap n (({ slba := slba, nlb := nlb, kind := .uncorrectable } : WPiece).stores n) = false) :
    writeUncorrectable c slba nlb d =
      d.hostActivity.putPiece c.id n { slba := slba, nlb := nlb, kind := .uncorrectable } := by
  unfold writeUncorrectable
  rw [if_neg hnlb, Dev.io_of h, Dev.change_of hwait hin hcap]
  exact if_neg (Bool.eq_false_iff.mp hspent)

theorem writeZeroes_of {deac : Bool}
    (hcap : d.hostActivity.overCap n
      (({ slba := slba, nlb := nlb, kind := if deac then .deallocate else .zeroes } : WPiece).stores n) = false) :
    writeZeroes c slba nlb deac d =
      d.hostActivity.putPiece c.id n { slba := slba, nlb := nlb, kind := if deac then .deallocate else .zeroes } := by
  unfold writeZeroes
  rw [if_neg hnlb, Dev.io_of h, Dev.change_of hwait hin hcap]
  exact if_neg (Bool.eq_false_iff.mp hspent)

end

end

/-! ### Dataset Management (R66, R139) -/

/-- The ranges that are not empty are deallocated, if that is asked for. -/
theorem datasetManagement_of {ad : Bool} {ranges rs : List (Nat × Nat)} {ps : List WPiece} (h : d.admitsIo c ad .write n = true)
    (hrs : rs = ranges.filter (fun r => decide (0 < r.2)))
    (hps : ps = rs.map (fun r => { slba := r.1, nlb := r.2, kind := .deallocate })) (hwait : d.hostActivity.mustWait n rs = false)
    (hin : n.within rs = true) (hcap : (ad && d.hostActivity.overCap n ((ps.flatMap (fun x => x.stores n)).eraseDups)) = false)
    (hptr : dataFits c (16 * ranges.length) false = true) :
    datasetManagement c ad ranges d =
      if ¬ad = true ∨ rs.isEmpty = true then d.hostActivity.done c.id .success else d.hostActivity.putRanges c.id n ps := by
  subst hps hrs
  unfold datasetManagement
  dsimp only
  rw [Dev.io_of h, if_neg (by simp [hwait]), if_neg (by simp [hin]), if_neg (Bool.eq_false_iff.mp hcap), Dev.withPtr_of hptr]
  rfl

/-! ### Reads (R66, R68) -/

section
variable {slba nlb : Nat} {pi : PiCmd} (h : d.admitsIo c false .read n = true) (hnlb : nlb ≠ 0)
  (hwait : d.hostActivity.mustWait n [(slba, nlb)] = false) (hin : n.within [(slba, nlb)] = true)
  (hpi : n.pi = 0 ∨ piOk n.pi pi slba = true) (hmap : d.hostActivity.mapHeld n slba nlb = false)
include h hnlb hwait hin hpi hmap

/-- A command that reads blocks within the namespace starts its read, once `rest` lets it go on. -/
theorem Dev.reads_of (use : ReadUse) {rest : Ns → (Dev → Dev) → Dev → Dev}
    (hrest : ∀ go, rest n go d.hostActivity = go d.hostActivity) :
    d.reads c slba nlb use pi rest = d.hostActivity.startRead c n slba nlb use pi := by
  have hok : ¬(n.pi ≠ 0 ∧ piOk n.pi pi slba = false) := fun ⟨h0, hf⟩ => hpi.elim h0 (by simp [hf])
  unfold Dev.reads
  rw [if_neg hnlb, Dev.io_of h, if_neg (Bool.eq_false_iff.mp hwait), if_neg (not_not.mpr hin), hrest, if_neg hok,
    if_neg (Bool.eq_false_iff.mp hmap)]

/-- A read whose data pointer is right starts. -/
theorem Dev.reads_withPtr (use : ReadUse) {need : Ns → Nat} {toHost : Bool} (hptr : dataFits c (need n) toHost = true) :
    d.reads c slba nlb use pi (fun n go x => x.withPtr c (need n) toHost go) = d.hostActivity.startRead c n slba nlb use pi :=
  Dev.reads_of h hnlb hwait hin hpi hmap use (fun go => Dev.withPtr_of hptr _ go)

end

/-! ### Copy (R66) -/

/-- The blocks a Copy reads, each made or checked for the destination. -/
def Dev.copyBlocks (d : Dev) (n : Ns) (ranges : List (Nat × Nat)) (pr pw : PiCmd) : List (Sum (Nat × Nat × BlkMark) Sc) :=
  (ranges.flatMap (fun r => (List.range r.2).map (fun i =>
    ((d.iuBlocksNow n ((r.1 + i) / n.iuBlocks))[(r.1 + i) % n.iuBlocks]?).getD (0, .poisoned)))).zipIdx.map
      (fun b => n.copyBlock pr pw b.2 b.1)

/-- Is a Copy of these ranges past the limits that Identify reports? -/
def pastCopyLimits (ranges : List (Nat × Nat)) : Bool :=
  decide (128 < ranges.length) || ranges.any (fun r => decide (4096 < r.2)) || decide (16384 < (ranges.map Prod.snd).sum)

/-- What a Copy does once its data pointer is right: its limits, the channels of its sources, the transaction of a cluster namespace, the
first check of a source that fails, and the write. -/
def Dev.copyGo (d : Dev) (c : NCmd) (n : Ns) (x : WPiece) (ranges : List (Nat × Nat)) (fails : List Sc) : Dev :=
  if pastCopyLimits ranges then d.done c.id .copyRangeSizeLimit
  else if ranges.any (fun r => d.mapHeld n r.1 r.2) then d
  else match n.cluster with
  | some g => if d.spent.contains n.nsid then d.spentRefuse c else d.clusterCopy c.id n g x.slba ranges
  | none => match fails.head? with
    | some st => d.done c.id st
    | none => if d.spent.contains n.nsid then d.spentRefuse c else d.putPiece c.id n x

section
variable {slba : Nat} {ranges : List (Nat × Nat)} {pr pw : PiCmd} {x : WPiece}

/-- An admitted Copy whose sources and destination lie within the namespace and its capacity. -/
theorem copy_of (htotal : (ranges.map Prod.snd).sum ≠ 0) (hranges : ranges.any (fun r => r.2 == 0) = false)
    (h : d.admitsIo c true .write n = true) (hread : n.resv.bars c.id.plot .read = false)
    (hsrcWait : d.hostActivity.mustWait n ranges = false) (hsrcIn : n.within ranges = true)
    {bs : List (Nat × Nat × BlkMark)} (hbs : (d.hostActivity.copyBlocks n ranges pr pw).filterMap Sum.getLeft? = bs)
    (hwait : d.hostActivity.mustWait n [(slba, (ranges.map Prod.snd).sum)] = false)
    (hin : n.within [(slba, (ranges.map Prod.snd).sum)] = true)
    (hcap : d.hostActivity.overCap n
      (({ slba := slba, nlb := (ranges.map Prod.snd).sum, kind := .copied bs } : WPiece).stores n) = false)
    (hptr : dataFits c (32 * ranges.length) false = true) :
    copy c slba 0 ranges pr pw d =
      d.hostActivity.copyGo c n { slba := slba, nlb := (ranges.map Prod.snd).sum, kind := .copied bs } ranges
        ((d.hostActivity.copyBlocks n ranges pr pw).filterMap Sum.getRight?) := by
  have hfmt : ({ c with rsvd := c.rsvd || 0 != 0 } : NCmd) = c := by cases c; simp
  subst hbs
  unfold copy
  dsimp only
  rw [if_neg (by simp [htotal, hranges]), hfmt, Dev.io_of h, if_neg (Bool.eq_false_iff.mp hread),
    if_neg (Bool.eq_false_iff.mp hsrcWait), if_neg (not_not.mpr hsrcIn)]
  exact (Dev.change_of hwait hin hcap _).trans (Dev.withPtr_of hptr _ _)

variable {fails : List Sc}

theorem Dev.copyGo_of_past (h : pastCopyLimits ranges = true) :
    d.copyGo c n x ranges fails = d.done c.id .copyRangeSizeLimit :=
  if_pos h

section
variable (hlimits : pastCopyLimits ranges = false) (hmap : ranges.any (fun r => d.mapHeld n r.1 r.2) = false)
  (hspent : d.spent.contains n.nsid = false)
include hlimits hmap hspent

theorem Dev.copyGo_of_cluster {g : ClusterGeom} (hc : n.cluster = some g) :
    d.copyGo c n x ranges fails = d.clusterCopy c.id n g x.slba ranges := by
  unfold Dev.copyGo
  rw [if_neg (by simp [hlimits]), if_neg (by simp [hmap]), hc]
  exact if_neg (Bool.eq_false_iff.mp hspent)

theorem Dev.copyGo_of_local (hc : n.cluster = none) : d.copyGo c n x ranges [] = d.putPiece c.id n x := by
  unfold Dev.copyGo
  rw [if_neg (by simp [hlimits]), if_neg (by simp [hmap]), hc]
  exact if_neg (Bool.eq_false_iff.mp hspent)

end

end

end

/-- Settles O34: an admitted command past its checks is a change of the media or a read, and a change goes to the write cache, to a
transaction or among the held writes. -/
theorem ioCommandsComplete : Obligations.IoCommandsComplete := by
  refine ⟨
    fun s c hs hall hout hrsvd hdoze hsafe hsan => effects_run rfl hs (flush_of_all hall hout hrsvd hdoze hsafe hsan),
    fun s c n hs hone h hwait => effects_run rfl hs (flush_of_admits hone h hwait),
    fun s c slba data pi bs n y hs hdata h hwait hin hpi hptr hcap hspent hc hheld hy =>
      effects_run rfl hs ((write_of_blocks h hdata hwait hin hptr hpi hcap hspent).trans
        (Dev.putPiece_of_room hc hheld hy)),
    fun s c slba data pi bs n hs hdata h hwait hin hpi hptr hcap hspent =>
      effects_run rfl hs (write_of_blocks h hdata hwait hin hptr hpi hcap hspent),
    fun s c slba data pi st n hs hdata h hwait hin hpi hptr hcap =>
      effects_run rfl hs (write_of_piFail h hdata hwait hin hptr hpi hcap),
    fun s c slba nlb n y hs hnlb h hwait hin hcap hspent hc hheld hy =>
      effects_run rfl hs ((writeUncorrectable_of h hnlb hwait hin hspent hcap).trans (Dev.putPiece_of_room hc hheld hy)),
    fun s c slba nlb n hs hnlb h hwait hin hcap hspent =>
      effects_run rfl hs (writeUncorrectable_of h hnlb hwait hin hspent hcap),
    fun s c slba nlb deac n y hs hnlb h hwait hin hcap hspent hc hheld hy =>
      effects_run rfl hs ((writeZeroes_of h hnlb hwait hin hspent hcap).trans (Dev.putPiece_of_room hc hheld hy)),
    fun s c slba nlb deac n hs hnlb h hwait hin hcap hspent =>
      effects_run rfl hs (writeZeroes_of h hnlb hwait hin hspent hcap),
    fun d id n ps resumed y t hy hturn => Dev.commitAll_of_turn hy hturn,
    fun d id n ps hheld => Dev.commitAll_of_held hheld,
    fun s w rest n hs hheld hn hcro hcap => effects_run rfl hs (writeTransferResume_of_held hheld rfl hn hcro hcap),
    fun s c slba nlb pi n hs hnlb h hwait hin hptr hpi hmap =>
      effects_run rfl hs (Dev.reads_withPtr h hnlb hwait hin hpi hmap _ (need := fun n => n.moves pi.pract nlb) hptr),
    fun s c slba nlb pi n hs hnlb h hwait hin hpi hmap =>
      effects_run rfl hs (Dev.reads_of h hnlb hwait hin hpi hmap _ (fun _ => rfl)),
    fun s c slba data pi n hs hdata h hwait hin hptr hpi hmap =>
      effects_run rfl hs (Dev.reads_withPtr h (by simpa using hdata) hwait hin hpi hmap _
        (need := fun n => n.moves pi.pract data.length) hptr),
    fun s c ad ranges n hs h hwait hin hcap hptr hno =>
      effects_run rfl hs ((datasetManagement_of h rfl rfl hwait hin hcap hptr).trans (if_pos hno)),
    ?deallocateRoom, ?deallocate, ?copyRoom, ?copyCluster, ?copyPast⟩
  case deallocateRoom =>
    intro s c ranges n y hs h hwait hin hcap hptr hne hc hheld hy
    exact effects_run rfl hs ((datasetManagement_of h rfl rfl hwait hin hcap hptr).trans
      ((if_neg (by simpa using hne)).trans (Dev.putRanges_of_room hc hheld hy)))
  case deallocate =>
    intro s c ranges n hs h hwait hin hcap hptr hne
    exact effects_run rfl hs ((datasetManagement_of h rfl rfl hwait hin hcap hptr).trans (if_neg (by simpa using hne)))
  case copyRoom =>
    intro s c slba ranges pr pw n bs y hs htotal hranges h hread hsrcWait hsrcIn hbs hwait hin hcap hptr hlimits hmap hspent hc
      hfails hheld hy
    have hgo := copy_of htotal hranges h hread hsrcWait hsrcIn hbs hwait hin hcap hptr
    exact effects_run rfl hs (hgo.trans ((congrArg _ hfails).trans
      ((Dev.copyGo_of_local hlimits hmap hspent hc).trans (Dev.putPiece_of_room hc hheld hy))))
  case copyCluster =>
    intro s c slba ranges pr pw n bs g hs htotal hranges h hread hsrcWait hsrcIn hbs hwait hin hcap hptr hlimits hmap hspent hc
    exact effects_run rfl hs ((copy_of htotal hranges h hread hsrcWait hsrcIn hbs hwait hin hcap hptr).trans
      (Dev.copyGo_of_cluster hlimits hmap hspent hc))
  case copyPast =>
    intro s c slba ranges pr pw n bs hs htotal hranges h hread hsrcWait hsrcIn hbs hwait hin hcap hptr hpast
    exact effects_run rfl hs ((copy_of htotal hranges h hread hsrcWait hsrcIn hbs hwait hin hcap hptr).trans
      (Dev.copyGo_of_past (by simpa [pastCopyLimits, or_assoc] using hpast)))

end Sys2Proof.Machine
end

section
/-! PROOFS. Reservations (R66, with the rules of NVMe 2.1): what an admitted command of a controller with the right key does. -/

namespace Sys2Proof.Machine

/-- An admitted reservation command whose data pointer is right goes on to its own checks. -/
theorem Dev.resv_of {d : Dev} {c : NCmd} {need : Nat} {read : Bool} {n : Ns} (h : d.admitsIo c false .none n = true)
    (hptr : dataFits c need read = true) (go : Dev → Ns → Dev) : d.resv c need read go = go d.hostActivity n := by
  unfold Dev.resv
  rw [Dev.io_of h, Dev.withPtr_of hptr]

section
variable {d : Dev} {c : NCmd} {n : Ns} (h : d.admitsIo c false .none n = true)
include h

/-! ### Register -/

section
variable (hptr : dataFits c 16 false = true) (iekey : Bool) (cptpl crkey nrkey : Nat) {r0 : Resv}
  (hr0 : r0 = { n.resv with
    gen := (n.resv.gen + 1) % 2 ^ 32, ptpl := if cptpl = 2 then false else if cptpl = 3 then true else n.resv.ptpl })
include hptr

include hr0 in
theorem reservationRegister_of_new (hmine : AMap.find c.id.plot n.resv.regs = none) :
    reservationRegister c 0 iekey cptpl crkey nrkey d =
      d.hostActivity.setResv c n { r0 with regs := AMap.put c.id.plot nrkey n.resv.regs } := by
  subst hr0
  unfold reservationRegister
  rw [Dev.resv_of h hptr]
  dsimp only
  rw [hmine]
  exact if_pos rfl

theorem reservationRegister_of_same (hmine : AMap.find c.id.plot n.resv.regs = some nrkey) :
    reservationRegister c 0 iekey cptpl crkey nrkey d = d.hostActivity.done c.id .success := by
  unfold reservationRegister
  rw [Dev.resv_of h hptr]
  dsimp only
  rw [hmine]
  exact (if_pos rfl).trans (if_pos rfl)

include hr0 in
/-- A registrant unregisters with its key, or without one where the existing key is to be ignored. -/
theorem reservationRegister_unregister {k : Nat} (hmine : AMap.find c.id.plot n.resv.regs = some k)
    (hkey : k = crkey ∨ iekey = true) :
    reservationRegister c 1 iekey cptpl crkey nrkey d =
      (d.hostActivity.resvTell c.nsid 2
        (if n.resv.rtype ≠ 0 ∧ (r0.drop [c.id.plot]).rtype = 0 ∧ 3 ≤ n.resv.rtype then (r0.drop [c.id.plot]).regs.map Prod.fst
        else [])).setResv c n (r0.drop [c.id.plot]) := by
  have hno : ¬(k ≠ crkey ∧ ¬iekey = true) := fun ⟨hk, hi⟩ => hkey.elim hk hi
  subst hr0
  unfold reservationRegister
  rw [Dev.resv_of h hptr]
  dsimp only
  rw [hmine]
  exact (if_neg (by decide)).trans ((if_pos rfl).trans (if_neg hno))

include hr0 in
/-- The key is replaced with the old one given, or without it where the existing key is to be ignored. -/
theorem reservationRegister_replace (hkey : iekey = true ∨ AMap.find c.id.plot n.resv.regs = some crkey) :
    reservationRegister c 2 iekey cptpl crkey nrkey d =
      d.hostActivity.setResv c n { r0 with regs := AMap.put c.id.plot nrkey n.resv.regs } := by
  subst hr0
  unfold reservationRegister
  rw [Dev.resv_of h hptr]
  dsimp only
  rw [if_neg (by decide), if_neg (by decide), if_pos rfl]
  cases hmine : AMap.find c.id.plot n.resv.regs with
  | none => exact if_pos (hkey.resolve_right (by simp [hmine]))
  | some k =>
    have hno : ¬(k ≠ crkey ∧ ¬iekey = true) := fun ⟨hk, hi⟩ => hkey.elim hi (fun hf => hk (by simpa [hmine] using hf))
    exact if_neg hno

end

/-! ### Acquire and preempt -/

section
variable (hptr : dataFits c 16 false = true) {rtype crkey : Nat} (prkey : Nat) (hlow : ¬rtype < 1) (hhigh : ¬6 < rtype)
  (hmine : AMap.find c.id.plot n.resv.regs = some crkey)
include hptr hlow hhigh hmine

theorem reservationAcquire_acquire :
    reservationAcquire c 0 rtype false crkey prkey d =
      if n.resv.rtype = 0 then d.hostActivity.setResv c n { n.resv with holder := some c.id.plot, rtype := rtype }
      else if n.resv.holds c.id.plot = true ∧ n.resv.rtype = rtype then d.hostActivity.done c.id .success
      else d.hostActivity.done c.id .reservationConflict := by
  unfold reservationAcquire
  rw [Dev.resv_of h hptr]
  dsimp only
  rw [if_neg (by simp [hlow, hhigh]), if_neg (by simp [hmine]), if_pos rfl]

/-- Preempting removes the registrants of the given key, and takes the reservation (`takes`) where it is held under that key, or by
all registrants and the key is 0; action 2 also ends the commands of those removed. -/
theorem reservationAcquire_preempt {racqa : Nat} (hact : racqa = 1 ∨ racqa = 2) {takes : Bool} {victims : List Nat}
    (htakes : takes = (n.resv.rtype != 0 && ((n.resv.shared && prkey == 0) ||
      (!n.resv.shared && (n.resv.holder.bind (fun h => AMap.find h n.resv.regs)) == some prkey))))
    (hkey : ¬(prkey = 0 ∧ ¬takes = true))
    (hvictims : victims = (n.resv.regs.filter (fun x => x.1 != c.id.plot && (x.2 == prkey || (takes && n.resv.shared)))).map
      Prod.fst)
    (hsome : ¬(victims.isEmpty = true ∧ ¬takes = true)) {r : Resv}
    (hr : r = if takes = true then
        { n.resv.drop victims with gen := (n.resv.gen + 1) % 2 ^ 32, holder := some c.id.plot, rtype := rtype }
      else { n.resv.drop victims with gen := (n.resv.gen + 1) % 2 ^ 32 }) {x y : Dev}
    (hx : x = d.hostActivity.resvTell c.nsid 1 victims)
    (hy : y = if takes = true ∧ n.resv.rtype ≠ rtype then
        x.resvTell c.nsid 2 ((r.regs.filter (fun z => z.1 != c.id.plot)).map Prod.fst)
      else x) :
    reservationAcquire c racqa rtype false crkey prkey d =
      (if racqa = 2 then y.resvAbort c.nsid victims else y).setResv c n r := by
  have hholder : n.resv.holder.bind (fun h => AMap.find h n.resv.regs) = match n.resv.holder with
      | some h => AMap.find h n.resv.regs
      | none => none := by
    cases n.resv.holder <;> rfl
  rw [hholder] at htakes
  subst hr hy hx hvictims htakes
  unfold reservationAcquire
  rw [Dev.resv_of h hptr]
  dsimp only
  rw [if_neg (by simp [hlow, hhigh]; omega), if_neg (by simp [hmine]), if_neg (by omega)]
  exact (if_neg hkey).trans (if_neg hsome)

end

/-! ### Release and clear -/

section
variable (hptr : dataFits c 8 false = true) {rtype crkey : Nat} (hmine : AMap.find c.id.plot n.resv.regs = some crkey)
include hptr hmine

theorem reservationRelease_of_holder (hholds : n.resv.holds c.id.plot = true) (htype : n.resv.rtype = rtype) :
    reservationRelease c 0 rtype false crkey d =
      (if 3 ≤ rtype then
        d.hostActivity.resvTell c.nsid 2 ((n.resv.regs.filter (fun x => x.1 != c.id.plot)).map Prod.fst)
      else d.hostActivity).setResv c n { n.resv with holder := none, rtype := 0 } := by
  subst htype
  unfold reservationRelease
  rw [Dev.resv_of h hptr]
  dsimp only
  rw [if_neg (by simp), if_neg (by simp [hmine]), if_neg (by decide), if_neg (by simp [hholds]), if_neg (by simp)]

theorem reservationRelease_of_other (hholds : n.resv.holds c.id.plot = false) :
    reservationRelease c 0 rtype false crkey d = d.hostActivity.done c.id .success := by
  unfold reservationRelease
  rw [Dev.resv_of h hptr]
  dsimp only
  rw [if_neg (by simp), if_neg (by simp [hmine]), if_neg (by decide), if_pos (by simp [hholds])]

theorem reservationRelease_clear :
    reservationRelease c 1 rtype false crkey d =
      (d.hostActivity.resvTell c.nsid 3 ((n.resv.regs.filter (fun x => x.1 != c.id.plot)).map Prod.fst)).setResv c n
        { n.resv with regs := [], holder := none, rtype := 0, gen := (n.resv.gen + 1) % 2 ^ 32 } := by
  unfold reservationRelease
  rw [Dev.resv_of h hptr]
  dsimp only
  rw [if_neg (by simp), if_neg (by simp [hmine]), if_pos rfl]

end

end

/-- Settles O35: an admitted reservation command with the right key takes the branch of its action. -/
theorem reservationsComplete : Obligations.ReservationsComplete := by
  refine ⟨
    fun s c iekey cptpl crkey nrkey n hs h hptr hmine =>
      effects_run rfl hs (reservationRegister_of_new h hptr iekey cptpl crkey nrkey rfl hmine),
    fun s c iekey cptpl crkey nrkey n hs h hptr hmine =>
      effects_run rfl hs (reservationRegister_of_same h hptr iekey cptpl crkey nrkey hmine),
    fun s c iekey cptpl crkey nrkey k n hs h hptr hmine hkey =>
      effects_run rfl hs ⟨_, rfl, reservationRegister_unregister h hptr iekey cptpl crkey nrkey rfl hmine hkey⟩,
    ?replace,
    fun s c len n hs h hptr => effects_run rfl hs (Dev.resv_of h hptr _),
    fun s c rtype crkey prkey n hs h hptr hlow hhigh hmine hfree =>
      effects_run rfl hs ((reservationAcquire_acquire h hptr prkey hlow hhigh hmine).trans (if_pos hfree)),
    fun s c rtype crkey prkey n hs h hptr hlow hhigh hmine hheld =>
      effects_run rfl hs ((reservationAcquire_acquire h hptr prkey hlow hhigh hmine).trans (if_neg hheld)),
    ?preempt,
    fun s c rtype crkey n hs h hptr hmine hholds htype =>
      effects_run rfl hs (reservationRelease_of_holder h hptr hmine hholds htype),
    fun s c rtype crkey n hs h hptr hmine hholds => effects_run rfl hs (reservationRelease_of_other h hptr hmine hholds),
    fun s c rtype crkey n hs h hptr hmine => effects_run rfl hs (reservationRelease_clear h hptr hmine)⟩
  case replace =>
    rintro s c iekey cptpl crkey nrkey _ n hs h hptr rfl hkey
    exact effects_run rfl hs (reservationRegister_replace h hptr iekey cptpl crkey nrkey rfl hkey)
  case preempt =>
    rintro s c racqa rtype _ crkey prkey takes victims n hs h hptr rfl hact hlow hhigh hmine htakes hkey hvictims hsome
    exact effects_run rfl hs ⟨_, _, _, rfl, rfl, rfl,
      reservationAcquire_preempt h hptr prkey hlow hhigh hmine hact htakes hkey hvictims hsome (by cases takes <;> rfl) rfl rfl⟩

end Sys2Proof.Machine
end

section
/-! PROOFS. Halward's messages over Security Send and the management endpoint (R86, R393 to R398, R437). -/

namespace Sys2Proof.Machine

/-! ### Messages (R397) -/

/-- A message whose Security Send is admitted: its length and reserved bytes are judged first, then whether this plot may send it in
this state, `barred` being the reason that applies to it; the response waits for its plot and the Security Send completes. -/
theorem Dev.message_of {d : Dev} {c : NCmd} {code reqId len : Nat} {wellFormed mgr : Bool} {go : Dev → Nat × List Nat × Dev}
    {barred : Prop} [Decidable barred] (h : d.admitsUp c false true false = true) (hptr : prpFits c (16 + len) false = true)
    (hbarred : mgr = true ∧ c.id.plot ≠ 0 ∨ stateAnswers d.hostActivity.fuses.state code = false ∧
      ¬(code = 3 ∧ d.hostActivity.fuses.state = 7) ↔ barred) {r : Nat × List Nat × Dev}
    (hr : r = if ¬wellFormed = true then (2, [], d.hostActivity) else if barred then (3, [], d.hostActivity)
      else go d.hostActivity) :
    d.message c code reqId len wellFormed mgr go = (r.2.2.answer c.id.plot code reqId r.1 r.2.1).done c.id .success := by
  subst hr
  unfold Dev.message
  rw [Dev.adminUp_of h, Dev.withPrp_of hptr]
  simp only [hbarred]

/-! ### The management endpoint (R86, R437) -/

/-- A block read with its PEC once the endpoint is up, and no reply before. -/
theorem Dev.miAnswer_of_busOk (d : Dev) (code : Nat) (l : List Nat) :
    d.miAnswer code true l =
      { d with host := { d.host with smbusReply := if d.miUp = true then l ++ [pec code l] else [] } } := by
  unfold Dev.miAnswer
  rw [if_neg (by simp)]
  split <;> rfl

theorem Dev.miAnswer_of_busError (d : Dev) (code : Nat) (l : List Nat) :
    d.miAnswer code false l = ({ d with host := { d.host with smbusReply := [] } } : Dev).raise 0x1EB noPlot [] :=
  if_pos Bool.false_ne_true

/-- Settles O48: an admitted message takes the branch that its length, its plot and the life-cycle state choose, and a block read the
one that the bus chooses. What bars a message comes down to the state, to the plot as well for one of the manager's, and for ATTEST
leaves SCRAPPED out. -/
theorem halwardCompletes : Obligations.HalwardCompletes :=
  ⟨fun _ _ _ _ _ hs h hptr => effects_run rfl hs ⟨_, rfl, Dev.message_of h hptr (by simp) rfl⟩,
   fun _ _ _ _ _ hs h hptr => effects_run rfl hs ⟨_, rfl, Dev.message_of h hptr (by simp) rfl⟩,
   fun _ _ _ _ _ _ _ hs h hptr => effects_run rfl hs ⟨_, rfl, Dev.message_of h hptr (by simp) rfl⟩,
   fun _ _ _ _ _ hs h hptr => effects_run rfl hs ⟨_, rfl, Dev.message_of h hptr (by simp) rfl⟩,
   fun _ _ _ _ _ _ hs h hptr => effects_run rfl hs ⟨_, rfl, Dev.message_of h hptr (by simp) rfl⟩,
   fun _ _ _ _ _ _ hs h hptr => effects_run rfl hs ⟨_, rfl, Dev.message_of h hptr (by simp) rfl⟩,
   fun _ _ _ _ _ _ hs h hptr => effects_run rfl hs ⟨_, rfl, Dev.message_of h hptr (by simp) rfl⟩,
   fun _ _ _ _ _ _ hs h hptr => effects_run rfl hs ⟨_, rfl, Dev.message_of h hptr (by simp) rfl⟩,
   fun s hs => effects_run rfl hs ⟨_, rfl, s.dev.miAnswer_of_busOk 0 _⟩,
   fun s hs => effects_run rfl hs (s.dev.miAnswer_of_busError 0 _),
   fun s hs => effects_run rfl hs ⟨_, rfl, s.dev.miAnswer_of_busOk 8 _⟩,
   fun s hs => effects_run rfl hs (s.dev.miAnswer_of_busError 8 _),
   fun s hs => effects_run rfl hs ⟨_, rfl, s.dev.miAnswer_of_busOk 90 _⟩,
   fun s hs => effects_run rfl hs (s.dev.miAnswer_of_busError 90 _),
   fun _ hs => effects_run rfl hs rfl⟩

end Sys2Proof.Machine
end

section
/-! PROOFS. The plots: enabling and disabling, plot reset and the fill that ends it, shares and mailboxes (R89, R97 to R105, R109). -/

namespace Sys2Proof.Machine

section
variable {d : Dev} {n : Nat}

/-! ### Enabling and disabling (R89) -/

section
variable (hn : n ≠ 0) (hlt : n < 512)
include hn hlt

/-- A plot whose enabling nothing refuses gets an empty mailbox, and STATE leaves ABSENT. -/
theorem plotEnable_of_fits (hen : d.plotEn n = false) (hmax : ¬d.f F.PLOT_SUMIO_MAXPLOTS ≤ n) (hrem : d.removing n = false)
    {x y : Dev} (hx : x = d.setF (F.PLOT_CTL_EN n) 1) (hfits : d.totalsRise x = false)
    (hy : y = if x.f (F.PLOT_STAT_STATE n) = 0 then x.setF (F.PLOT_STAT_STATE n) 1 else x) :
    plotEnable n d = (((y.setMbx n Mbx.init).plotSums).readyAll).powerCombine := by
  subst hx hy
  unfold plotEnable
  rw [if_neg (by simp [hn, hlt, hen]), if_neg hmax, if_neg (Bool.eq_false_iff.mp hrem)]
  dsimp only
  rw [if_neg (Bool.eq_false_iff.mp hfits)]

/-- An enabled plot is disabled: a reset of it that runs becomes the removal, otherwise a reset point is asked for. -/
theorem plotDisable_of_enabled (hen : d.plotEn n = true) {x y : Dev} (hx : x = (d.setF (F.PLOT_CTL_EN n) 0).plotSums)
    (hy : y = (x.setCtrl n { x.ctrl n with rdy := false }).powerCombine) :
    plotDisable n d = if y.f (F.PLOT_STAT_STATE n) = 2 then y.setF (F.PLOT_STAT_STATE n) 3 else y.askReset n := by
  unfold plotDisable
  rw [if_neg (by simp [hn, hlt, hen])]
  dsimp only
  rw [← hx, ← hy]

/-! ### Reset and the fill that ends it (R104, R105, R109) -/

theorem plotRst_of_enabled (hen : d.plotEn n = true) (hrst : d.flag (F.PLOT_CTL_RST n) = false) :
    plotRst n d = (d.setF (F.PLOT_CTL_RST n) 1).askReset n :=
  if_neg (by simp [hn, hlt, hen, hrst])

end

/-- What the end of the SLM fill does before the plot is active again or removed. -/
theorem plotSlmFillDone_of_resetting (hlt : n < 512) (hst : 2 ≤ d.f (F.PLOT_STAT_STATE n)) {x : Dev}
    (hx : x = ((((d.slmFill n).clearCtrl n).raise 0x1E7 n []).powerCombine.setF (F.PLOT_CTL_RST n) 0).setF
      (F.PLOT_STAT_CQSTALL n) 0) :
    plotSlmFillDone n d =
      if d.f (F.PLOT_STAT_STATE n) = 2 then (x.setF (F.PLOT_STAT_STATE n) (Bool.nat (x.plotEn n))).raise 0x1F5 n []
      else (x.raise 0x1F5 n []).plotRemoved n := by
  subst hx
  exact if_pos ⟨hlt, hst⟩

/-! ### Shares (R97) -/

/-- A share in range that carries no total over its limit takes effect, with the sums shown. -/
theorem Dev.tryShare_of_fits {off : Nat} {inRange : Bool} {e : Dev} (hrange : inRange = true) (hfits : d.totalsRise e = false) :
    d.tryShare n off inRange e = e.plotSums := by
  unfold Dev.tryShare
  rw [if_neg (not_not.mpr hrange), if_neg (Bool.eq_false_iff.mp hfits)]

section
variable (hlt : n < 512) (v : Nat)
include hlt

theorem plotShareWrite_psallow : plotShareWrite n 0x00 v d = d.setF (F.PLOT_CTL_PSALLOW n) (bits v 2 1) :=
  (if_neg (Nat.not_le.mpr hlt)).trans (if_pos rfl)

theorem plotShareWrite_ewt :
    plotShareWrite n 0x18 v d = (((d.setF (F.PLOT_EWT_CIPH n) (bits v 0 8)).setF (F.PLOT_EWT_DGST n) (bits v 8 8)).setF
      (F.PLOT_EWT_CHURN n) (bits v 16 8)).setF (F.PLOT_EWT_SIEVE n) (bits v 24 8) := by
  simp [plotShareWrite, Nat.not_le.mpr hlt]

/-- VMAX of an enabled plot stays as it is. -/
theorem plotShareWrite_qv (hvec : bits v 12 13 = d.f (F.PLOT_QV_VMAX n) ∨ d.plotEn n = false) :
    plotShareWrite n 0x08 v d =
      d.tryShare n 0x08 (decide (bits v 0 9 ≤ 256) && decide (1 ≤ bits v 12 13) && decide (bits v 12 13 ≤ vecMax n))
        ((d.setF (F.PLOT_QV_QMAX n) (bits v 0 9)).setF (F.PLOT_QV_VMAX n) (bits v 12 13)) := by
  have hkeeps : ¬(bits v 12 13 ≠ d.f (F.PLOT_QV_VMAX n) ∧ d.plotEn n = true) := by
    rcases hvec with h | h <;> simp [h]
  simp [plotShareWrite, Nat.not_le.mpr hlt, hkeeps]

theorem plotShareWrite_fetch :
    plotShareWrite n 0x0C v d =
      d.tryShare n 0x0C (decide (1 ≤ bits v 0 8) && decide (bits v 8 17 ≤ 65536) && (n != 0 || decide (64 ≤ bits v 8 17)))
        ((d.setF (F.PLOT_FETCH_WEIGHT n) (bits v 0 8)).setF (F.PLOT_FETCH_OSHARE n) (bits v 8 17)) := by
  simp [plotShareWrite, Nat.not_le.mpr hlt]

theorem plotShareWrite_slm : plotShareWrite n 0x10 v d = d.tryShare n 0x10 true (d.slmSize n (bits v 0 16)) := by
  simp [plotShareWrite, Nat.not_le.mpr hlt]

theorem plotShareWrite_fcore :
    plotShareWrite n 0x14 v d =
      d.tryShare n 0x14 (decide (1 ≤ bits v 0 8) && decide (bits v 8 5 ≤ 24))
        ((d.setF (F.PLOT_FCORE_WEIGHT n) (bits v 0 8)).setF (F.PLOT_FCORE_CAP n) (bits v 8 5)) := by
  simp [plotShareWrite, Nat.not_le.mpr hlt]

theorem plotShareWrite_ecap :
    plotShareWrite n 0x1C v d =
      d.tryShare n 0x1C
        (decide (bits v 0 7 ≤ 64) && decide (bits v 8 7 ≤ 64) && decide (bits v 16 7 ≤ 64) && decide (bits v 24 7 ≤ 64))
        ((((d.setF (F.PLOT_ECAP_CIPH n) (bits v 0 7)).setF (F.PLOT_ECAP_DGST n) (bits v 8 7)).setF (F.PLOT_ECAP_CHURN n)
          (bits v 16 7)).setF (F.PLOT_ECAP_SIEVE n) (bits v 24 7)) := by
  simp [plotShareWrite, Nat.not_le.mpr hlt]

end

theorem slmGrowFillDone_of_growing {v : Nat} (hg : AMap.find n d.plot.grow = some v) :
    slmGrowFillDone n d =
      (({ d with plot := { d.plot with grow := AMap.del n d.plot.grow } } : Dev).setF (F.PLOT_SLM_EFFECT n) v).plotSums := by
  simp only [slmGrowFillDone, hg]

/-! ### Mailboxes (R99 to R102) -/

section
variable {up : Bool} (hopen : d.mbOpen n up = true)
include hopen

/-- A SEQ write posts, if it is accepted, and is rejected otherwise. -/
theorem mbSeqWrite_of_open (v : Nat) :
    mbSeqWrite n up v d =
      if (d.mbx n).seqOk up v = true then
        if up = true then (d.setMbx n { d.mbx n with upSeq := v }).raise 0x1F0 n []
        else (d.setMbx n { d.mbx n with dnSeq := v }).raiseTenant 0x1F1 n
      else (d.setMbx n (if up = true then { d.mbx n with trej := true } else { d.mbx n with mrej := true })).raise 0x1F3 n [] :=
  if_neg (not_not.mpr hopen)

/-- A new incarnation marks its side as restarted and tells the other one: a tenant's shows in MBS_RST too, the manager's goes to the
tenant vector as well. -/
theorem mbIncWrite_of_new {v : Nat} (hv : v ≠ 0) (hnew : v ≠ (d.mbx n).inc up) {x : Dev}
    (hx : x = d.setMbx n (if up = true then { d.mbx n with incT := v, trst := true }
      else { d.mbx n with incM := v, mrst := true })) :
    mbIncWrite n up v d =
      if up = true then ({ x with plot := { x.plot with rst := NSet.add n x.plot.rst } } : Dev).raise 0x1F2 n []
      else x.raiseTenant 0x1F2 n := by
  subst hx
  unfold mbIncWrite
  dsimp only
  rw [if_neg (by simp [hopen, hv, hnew])]
  split
  · rfl
  · rfl

theorem mbSlotWrite_of_free {w : Nat} (hw : w < 1024) (hfree : (d.mbx n).held up (w / 64) = false) (v : Nat) :
    mbSlotWrite n up w v d = d.setMbx n (if up = true then { d.mbx n with up := AMap.set 0 w (v % 2 ^ 32) (d.mbx n).up }
      else { d.mbx n with dn := AMap.set 0 w (v % 2 ^ 32) (d.mbx n).dn }) :=
  if_neg (by simp [hopen, hw, hfree])

end

/-- The reader of a ring is its other side; it acknowledges at least one message and none that is not posted. -/
theorem mbAckWrite_of_posted {up : Bool} {v : Nat} (hopen : d.mbOpen n (!up) = true) (hlow : 1 ≤ seq32 v ((d.mbx n).ack up))
    (hhigh : seq32 v ((d.mbx n).ack up) ≤ seq32 ((d.mbx n).seq up) ((d.mbx n).ack up)) :
    mbAckWrite n up v d =
      d.setMbx n (if up = true then { d.mbx n with upAck := v } else { d.mbx n with dnAck := v }) :=
  (if_neg (not_not.mpr hopen)).trans (if_pos ⟨hlow, hhigh⟩)

end

/-- Settles O37: with nothing to refuse it, each command is the branch of its meaning that does its work; a share write is one
`Dev.tryShare` for its register, and the end of the fill goes by whether the plot was being reset or removed. -/
theorem plotsComplete : Obligations.PlotsComplete := by
  refine ⟨
    fun s n hs hn hlt hen hmax hrem hfits =>
      effects_run rfl hs ⟨_, _, rfl, rfl, plotEnable_of_fits hn hlt hen hmax hrem rfl hfits rfl⟩,
    fun s n hs hn hlt hen => effects_run rfl hs ⟨_, rfl, plotDisable_of_enabled hn hlt hen rfl rfl⟩,
    fun s pf n hs hpf => effects_run rfl hs (if_pos hpf),
    fun s n hs hn hlt hen hrst => effects_run rfl hs (plotRst_of_enabled hn hlt hen hrst),
    fun s n held hs hst hask hgen hlt => effects_run rfl hs (if_pos ⟨hst, hask, hgen, hlt⟩),
    fun s n hs hlt hst => effects_run rfl hs ((plotSlmFillDone_of_resetting hlt hst.ge rfl).trans (if_pos hst)),
    fun s n hs hlt hst => effects_run rfl hs ((plotSlmFillDone_of_resetting hlt hst.le rfl).trans (if_neg hst.ne')),
    fun s n v hs hlt => effects_run rfl hs (plotShareWrite_psallow hlt v),
    ?qv, ?fetch,
    fun s n v hs hlt hfits => effects_run rfl hs ((plotShareWrite_slm hlt v).trans (Dev.tryShare_of_fits rfl hfits)),
    ?fcore,
    fun s n v hs hlt => effects_run rfl hs (plotShareWrite_ewt hlt v),
    ?ecap,
    fun s n v hs hg => effects_run rfl hs (slmGrowFillDone_of_growing hg),
    fun s n up v hs hopen hok => effects_run rfl hs ((mbSeqWrite_of_open hopen v).trans (if_pos hok)),
    fun s n up v hs hopen hno => effects_run rfl hs ((mbSeqWrite_of_open hopen v).trans (if_neg (Bool.eq_false_iff.mp hno))),
    fun s n up v hs hopen hlow hhigh => effects_run rfl hs (mbAckWrite_of_posted hopen hlow hhigh),
    fun s n up v hs hopen hv hnew => effects_run rfl hs ⟨_, rfl, mbIncWrite_of_new hopen hv hnew rfl⟩,
    fun s n up w v hs hopen hw hfree => effects_run rfl hs (mbSlotWrite_of_free hopen hw hfree v)⟩
  case qv =>
    intro s n v hs hlt hvec hq hlow hhigh hfits
    exact effects_run rfl hs ((plotShareWrite_qv hlt v hvec).trans (Dev.tryShare_of_fits (by simp [hq, hlow, hhigh]) hfits))
  case fetch =>
    intro s n v hs hlt hw ho hzero hfits
    exact effects_run rfl hs ((plotShareWrite_fetch hlt v).trans (Dev.tryShare_of_fits (by simpa [hw, ho] using hzero) hfits))
  case fcore =>
    intro s n v hs hlt hw hcap hfits
    exact effects_run rfl hs ((plotShareWrite_fcore hlt v).trans (Dev.tryShare_of_fits (by simp [hw, hcap]) hfits))
  case ecap =>
    intro s n v hs hlt hciph hdgst hchurn hsieve hfits
    exact effects_run rfl hs
      ((plotShareWrite_ecap hlt v).trans (Dev.tryShare_of_fits (by simp [hciph, hdgst, hchurn, hsieve]) hfits))

end Sys2Proof.Machine
end

section
/-! PROOFS. The NAND channels: discovery and training, die queues with their polls and timeouts, the read recovery ladder down to
reconstruction, and retraining (R114 to R119, R122 to R126, R130, R152, R169). -/

namespace Sys2Proof.Machine

/-! ### Discovery and training (R114, R130) -/

/-- A declared die of a channel in service is looked for in SANITIZE, BOOT, RECOVER and TEST. -/
theorem dieDiscovery_heard {d : Dev} {die : Nat} (hch : d.chanOk (dieChan die) = true)
    (hdecl : (d.declaredDies (dieChan die)).contains die = true)
    (hmode : d.f F.TOP_MODE_MODE = 3 ∨ d.f F.TOP_MODE_MODE = 4 ∨ d.f F.TOP_MODE_MODE = 5 ∨ d.f F.TOP_MODE_MODE = 0xB) :
    ¬(¬d.chanOk (dieChan die) ∨ ¬(d.declaredDies (dieChan die)).contains die ∨
      ¬(d.f F.TOP_MODE_MODE = 3 ∨ d.f F.TOP_MODE_MODE = 4 ∨ d.f F.TOP_MODE_MODE = 5 ∨ d.f F.TOP_MODE_MODE = 0xB)) := by
  rintro (h | h | h)
  · exact h hch
  · exact h hdecl
  · exact h hmode

section
variable {d : Dev} {ch : Nat}

/-- A channel in service with a die that is present and that is not trained yet trains. -/
theorem channelTraining_heard (hch : d.chanOk ch = true) (htr : d.flag (F.CHAN_STAT_TRAINED ch) = false)
    (hdies : (d.chanDies ch).isEmpty = false) :
    ¬(¬d.chanOk ch ∨ d.flag (F.CHAN_STAT_TRAINED ch) ∨ (d.chanDies ch).isEmpty) := by
  simp [hch, htr, hdies]

/-- A target of a trained channel that is idle, outside a quadrant under test, and due is trained again. -/
theorem targetRetrain_heard {t : Nat} {temp : Int} (hch : d.chanOk (t / 16) = true)
    (htr : d.flag (F.CHAN_STAT_TRAINED (t / 16)) = true) (hdies : (d.targetDies t).isEmpty = false)
    (hidle : (d.targetDies t).any (fun y => !(d.die y).idle) = false) (htest : d.underTest (t / 16 / 8) = false)
    (hdue : d.retrainDue t temp = true) :
    ¬(¬d.chanOk (t / 16) ∨ ¬d.flag (F.CHAN_STAT_TRAINED (t / 16)) ∨ (d.targetDies t).isEmpty ∨
      (d.targetDies t).any (fun y => !(d.die y).idle) ∨ d.underTest (t / 16 / 8) ∨ ¬d.retrainDue t temp) := by
  simp only [hch, htr, hdies, hidle, htest, hdue, not_true, Bool.false_eq_true, or_self, not_false_eq_true]

end

/-! ### Die queues (R115 to R119) -/

theorem Dev.dieRuns_of_dieTakes {d : Dev} {die : Nat} (h : d.dieTakes die = true) : d.dieRuns die = true := by
  simp only [Dev.dieTakes, Bool.and_eq_true] at h
  obtain ⟨⟨hruns, _⟩, _⟩ := h
  exact hruns

section
variable {d : Dev} {die : Nat} {o : DieOp} {q : List DieOp} (hq : q = ((d.die die).queue.take 32).filter d.issuable)

section
variable (hbusy : (d.die die).busy = none) (hended : (d.die die).ended = none)
include hbusy hended

include hq in
/-- The arbiter picks a class among those that wait, and the first issuable operation of the class becomes busy with its keys in the
lane. -/
theorem dieOpIssue_of_waiting (htakes : d.dieTakes die = true) (hsusp : (d.die die).suspended = none) {w : Nat} {ws : List Nat}
    (hwait : (List.range 5).filter (fun c => q.any (fun o => o.cls.num == c)) = w :: ws)
    (hfind : q.find? (fun o => o.cls.num == (d.die die).ages.pick (w :: ws) w) = some o) {x : Dev} (hkeys : d.laneKeys o = some x) :
    dieOpIssue die d = x.setDie die { d.die die with
      busy := some o, queue := (d.die die).queue.erase o,
      ages := (d.die die).ages.round (w :: ws) ((d.die die).ages.pick (w :: ws) w) } := by
  subst hq
  unfold dieOpIssue
  dsimp only
  rw [if_neg (not_not.mpr (Dev.dieRuns_of_dieTakes htakes)), hbusy, hended, hsusp, hwait]
  dsimp only
  rw [if_pos htakes]
  dsimp only
  rw [hfind]
  simp [hkeys]

variable (hsusp : (d.die die).suspended = some o)
include hsusp hq

/-- A suspended operation resumes when the die takes nothing new or no host read can be issued before it. -/
theorem dieOpIssue_resumes (hruns : d.dieRuns die = true)
    (hreads : d.dieTakes die = false ∨ q.filter (fun o => o.cls == .hostRead) = [])
    (hstop : ¬(d.mode.pfStop = true ∧ o.cls ≠ .program)) :
    dieOpIssue die d = d.setDie die { d.die die with busy := some o, suspended := none } := by
  have hnone : (if d.dieTakes die = true then q.filter (fun o => o.cls == .hostRead) else []) = [] := by
    rcases hreads with h | h
    · simp [h]
    · simp [h]
  subst hq
  unfold dieOpIssue
  dsimp only
  rw [if_neg (not_not.mpr hruns), hbusy, hended, hsusp]
  dsimp only
  rw [hnone]
  exact if_neg hstop

/-- A host read goes before the operation that was suspended for it. -/
theorem dieOpIssue_hostRead (htakes : d.dieTakes die = true) {r : DieOp} {rs : List DieOp}
    (hreads : q.filter (fun o => o.cls == .hostRead) = r :: rs) :
    dieOpIssue die d = d.setDie die { d.die die with
      busy := some r, queue := (d.die die).queue.erase r,
      ages := (d.die die).ages.round ((List.range 5).filter (fun c => q.any (fun o => o.cls.num == c))) 0 } := by
  subst hq
  unfold dieOpIssue
  dsimp only
  rw [if_neg (not_not.mpr (Dev.dieRuns_of_dieTakes htakes)), hbusy, hended, hsusp]
  dsimp only
  rw [if_pos htakes, hreads]

end

theorem dieStatusPoll_of_reset (hst : d.dieState die = 3) (hissued : d.resetIssued die = true) (elapsed : Nat) :
    dieStatusPoll die elapsed d =
      if elapsed ≤ d.f (F.CHAN_DTO_MULT (dieChan die)) * 10000 then d.setF (F.CHAN_DIESTAT_STATE (dieChan die) (dieLocal die)) 1
      else d.chanCount (dieChan die) 7 1 :=
  (if_pos hst).trans (if_neg (not_not.mpr hissued))

variable (hbusy : (d.die die).busy = some o)
include hbusy

/-- A poll that finds the die ready in time ends the operation: a program or erase waits for its status to be taken, and the codewords
of a read start down the ladder. A late poll is only counted. -/
theorem dieStatusPoll_of_busy (hst : d.dieState die ≠ 3) (elapsed : Nat) {x y : Dev}
    (hx : x = d.setF (F.CHAN_DIESTAT_CONSEC (dieChan die) (dieLocal die)) 0)
    (hy : y = (x.setDie die { d.die die with busy := none }).countPageRead die o.block) :
    dieStatusPoll die elapsed d =
      if d.deadline o < elapsed then d.chanCount (dieChan die) 7 1
      else if o.cls = .program ∨ o.cls = .erase then x.setDie die { d.die die with busy := none, ended := some o }
      else { y with media := { y.media with reading := y.media.reading ++ readCws o .decode } } := by
  subst hy hx
  unfold dieStatusPoll
  dsimp only
  rw [if_neg hst, hbusy]
  refine if_congr Iff.rfl rfl ?_
  cases o.cls <;> rfl

theorem dieTimeout_of_busy {x : Dev} (hx : x = d.setDie die { d.die die with busy := none }) :
    dieTimeout die d =
      (if o.cls = .program then x.programLost o else if o.cls = .erase then x.blockBad die o.block 2
        else { x with media := { x.media with reading := x.media.reading ++ readCws o .reconstruct } }).countTimeout die o.cls.num := by
  subst hx
  unfold dieTimeout
  dsimp only
  rw [hbusy]
  refine congrArg (fun e => Dev.countTimeout e die o.cls.num) ?_
  cases o.cls <;> rfl

theorem programSuspend_of_busy (hsusp : (d.die die).suspended = none) (hen : d.flag (F.CHAN_CFG_SUSP_EN (dieChan die)) = true)
    (hok : d.media.suspOk.contains die = true) (htakes : d.dieTakes die = true) (hcls : o.cls = .program ∨ o.cls = .erase)
    (hread : (d.die die).queue.any (fun r => r.cls == .hostRead) = true) (hmax : o.suspends < d.f (F.CHAN_DTO_SUSPMAX (dieChan die))) :
    programSuspend die d =
      d.setDie die { d.die die with busy := none, suspended := some { o with suspends := o.suspends + 1 } } := by
  unfold programSuspend
  dsimp only
  rw [hbusy, hsusp]
  exact if_pos ⟨hen, hok, htakes, hcls, hread, hmax⟩

end

/-! ### Hard decode (R122 step 1) -/

section
variable {d : Dev} {loc : Nat} {r : ReadCw} (hread : d.reading? loc .decode = some r)
  (htest : d.underTest (dieChan (locDie loc) / 8) = false) (ptype : Nat) (v : Decode)
include hread htest

theorem codewordDecode_of_erased (hcw : d.cw? loc = none) :
    codewordDecode loc ptype v d =
      ((d.finjItem 3 (dieChan (locDie loc)) (dieLocal (locDie loc))).2).moveReading r { r with step := .reconstruct } := by
  unfold codewordDecode
  rw [hread]
  dsimp only
  rw [if_neg (Bool.eq_false_iff.mp htest), hcw]

/-- With its key in the lane a codeword that decodes and checks is delivered; any other goes to the first retry entry valid for its page
type, or past the table where there is none. -/
theorem codewordDecode_of_keyed {w : Cw} {x y z : Dev} (hcw : d.cw? loc = some w) (hlane : d.laneFor (dieChan (locDie loc)) w = some x)
    (hy : y = ((((x.finjItem 3 (dieChan (locDie loc)) (dieLocal (locDie loc))).2).chanCount (dieChan (locDie loc)) 0 1).almanacCount
      112 1).setBlk (locDie loc) (locBlock loc)
        { d.blk (locDie loc) (locBlock loc) with cwRead := (d.blk (locDie loc) (locBlock loc)).cwRead + 1 })
    (hz : z = y.countMismatch (dieChan (locDie loc)) v) :
    codewordDecode loc ptype v d =
      if y.crcOk w v = true then
        (if v = .corrected then (y.chanCount (dieChan (locDie loc)) 1 1).almanacCount 120 1 else y).deliver r (some w)
      else match z.retryWalk (locDie loc) ptype with
        | [] => z.moveReading r { r with ptype := ptype, step := z.pastRetry loc }
        | i :: _ => (((z.chanCount (dieChan (locDie loc)) 2 1).almanacCount 128 1).noteRetry (locDie loc) (locBlock loc)).moveReading r
            { r with step := .retry, entry := i, tried := 0, ptype := ptype } := by
  subst hz hy
  unfold codewordDecode
  rewrite [hread]
  dsimp only
  rewrite [if_neg (Bool.eq_false_iff.mp htest), hcw]
  dsimp only
  rewrite [hlane]
  rfl

end

/-! ### Retry (R122 step 2) -/

/-- A page with codewords in retry, of a die that can be read now, is reread. -/
theorem readRetryReread_heard {d : Dev} {die : Nat} {w : List ReadCw} (hre : d.rereadable die = true) (hne : w ≠ []) :
    ¬(¬d.rereadable die ∨ w.isEmpty) := by
  simp [hre, hne]

/-! ### Soft decode (R122 step 3) -/

section
variable {d : Dev} {loc : Nat} {r : ReadCw} (hread : d.reading? loc .soft = some r) (hre : d.rereadable (locDie loc) = true)
  (v : Decode) {expired : Bool} (elapsed : Nat)
include hread hre

theorem softDecode_of_expired (hover : d.tlerOver r expired = true) : softDecode loc v expired elapsed d = d.deliver r none := by
  unfold softDecode
  rw [hread]
  exact (if_neg (not_not.mpr hre)).trans (if_pos hover)

variable (hover : d.tlerOver r expired = false) {elapsed}
include hover

/-- Two extra reads that are late count as a timeout, and an erased codeword has nothing to decode: both go to reconstruction. -/
theorem softDecode_of_late_or_erased (h : d.readDeadline (locDie loc) < elapsed ∨ d.cw? loc = none) :
    softDecode loc v expired elapsed d =
      if d.readDeadline (locDie loc) < elapsed then (d.moveReading r { r with step := .reconstruct }).countTimeout (locDie loc) 0
      else d.moveReading r { r with step := .reconstruct } := by
  unfold softDecode
  rw [hread]
  refine (if_neg (not_not.mpr hre)).trans ((if_neg (Bool.eq_false_iff.mp hover)).trans ?_)
  by_cases hlate : d.readDeadline (locDie loc) < elapsed
  · exact (if_pos hlate).trans (if_pos hlate).symm
  · rw [h.resolve_left hlate]

theorem softDecode_of_intime (hlate : ¬d.readDeadline (locDie loc) < elapsed) {w : Cw} (hcw : d.cw? loc = some w) {x y : Dev}
    (hx : x = ((d.countPageRead (locDie loc) (locBlock loc)).countPageRead (locDie loc) (locBlock loc)).setF
      (F.CHAN_DIESTAT_CONSEC (dieChan (locDie loc)) (dieLocal (locDie loc))) 0)
    (hy : y = ({ x with media := { x.media with softs := x.media.softs + 1 } } : Dev).queueCompost (locDie loc) (locBlock loc) 2) :
    softDecode loc v expired elapsed d =
      if y.crcOk w v = true then ((y.chanCount (dieChan (locDie loc)) 3 1).almanacCount 136 1).deliver r (some w)
      else (y.countMismatch (dieChan (locDie loc)) v).moveReading r { r with step := .reconstruct } := by
  subst hy hx
  unfold softDecode
  rw [hread]
  refine (if_neg (not_not.mpr hre)).trans ((if_neg (Bool.eq_false_iff.mp hover)).trans ((if_neg hlate).trans ?_))
  rw [hcw]

end

/-! ### Reconstruction (R122 step 4, R169) -/

section
variable {d : Dev} {loc : Nat} {r : ReadCw} (hread : d.reading? loc .reconstruct = some r) {expired : Bool}
  (hover : d.tlerOver r expired = false) (unread late : List Nat) (sound : Bool)
include hread hover

/-- A codeword of no stripe that the part knows has nothing to be reconstructed from. -/
theorem reconstruction_of_unstriped
    (h : d.stripe? (d.blk (locDie loc) (locBlock loc)).group (d.blk (locDie loc) (locBlock loc)).bsn = none ∨
      d.memberOf (locDie loc) = none) :
    reconstruction loc unread late sound expired d = d.uncorrectable r := by
  unfold reconstruction
  rw [hread]
  refine (if_neg (Bool.eq_false_iff.mp hover)).trans ?_
  rcases h with hstripe | hmember
  · rw [hstripe]
  · rw [hmember]
    cases d.stripe? (d.blk (locDie loc) (locBlock loc)).group (d.blk (locDie loc) (locBlock loc)).bsn with
    | none => rfl
    | some x => rfl

/-- The other members that have not failed are read, each read is counted and each late one is a timeout; what the parity can make good
is delivered, and otherwise the stripe is lost. -/
theorem reconstruction_of_striped {s : BStripe} {g j : Nat} {dies others : List (Nat × Nat × Nat)} {gone : List Nat} {y z : Dev}
    (hstripe : d.stripe? (d.blk (locDie loc) (locBlock loc)).group (d.blk (locDie loc) (locBlock loc)).bsn = some s)
    (hmember : d.memberOf (locDie loc) = some (g, j))
    (hdies : dies = (s.blocks.filter (fun jb => !d.memberFailed s.group jb.1)).map (fun jb => (jb.1, d.memberDie s.group jb.1, jb.2)))
    (hready : (dies.any (fun a => d.underTest (dieChan a.2.1 / 8)) ||
      (d.row? s.group s.bsn (locPage loc)).any (fun a => d.strp.replay.contains a.index)) = false)
    (hothers : others = dies.filter (fun a => a.1 != j))
    (hy : y = others.foldl (fun (e : Dev) a => e.countPageRead a.2.1 a.2.2) d)
    (hz : z = (others.filter (fun a => late.contains a.1)).foldl (fun (e : Dev) a => e.countTimeout a.2.1 0) y)
    (hgone : gone = d.erasures s (locPage loc) (j :: (unread ++ late))) :
    reconstruction loc unread late sound expired d =
      if geomM (d.groupGeom (d.blk (locDie loc) (locBlock loc)).group) < gone.length ∨ d.lostAt loc = true then
        (z.loseStripe s (locPage loc) (locSlot loc) 2).uncorrectable r
      else match ((d.solve s (locPage loc) (locSlot loc) j gone).bind (d.rebuilt loc)).filter (fun _ => sound) with
        | some c => (((z.bump (F.STRP_CNT_COUNT 0) 0x10 0 1).almanacCount 144 1).ewOccur 8).deliver r (some c)
        | none => (z.loseStripe s (locPage loc) (locSlot loc) 2).uncorrectable r := by
  subst hgone hz hy hothers hdies
  unfold reconstruction
  rw [hread]
  refine (if_neg (Bool.eq_false_iff.mp hover)).trans ?_
  rw [hstripe, hmember]
  exact if_neg (Bool.eq_false_iff.mp hready)

end

/-- Settles O38: with nothing to hold it back, each command is the branch of its meaning that does its work. Discovery, training and
retraining come down to one guard; a codeword's step of the ladder goes by what its decode finds and by its deadlines. The time that stands in CHAN_TNOM, the failures that a
passed retraining clears, the class of a reset's timeout and the operation that resumes after one are the model's choices (assumptions 154
to 157). -/
theorem channelCompletes : Obligations.ChannelCompletes := by
  refine ⟨
    fun s die _ _ _ _ _ _ _ hs hch hdecl hmode =>
      effects_run rfl hs ⟨_, _, _, _, rfl, rfl, rfl, rfl, (if_neg (dieDiscovery_heard hch hdecl hmode)).trans (if_pos rfl)⟩,
    fun s die _ _ _ _ _ _ _ _ _ hs hch hdecl hmode hsilent =>
      effects_run rfl hs ((if_neg (dieDiscovery_heard hch hdecl hmode)).trans (if_neg (Bool.eq_false_iff.mp hsilent))),
    ?trains,
    ?untrained,
    fun s die w ws o x hs htakes hbusy hended hsusp hwait hfind hkeys =>
      effects_run rfl hs (dieOpIssue_of_waiting rfl hbusy hended htakes hsusp hwait hfind hkeys),
    fun s die o hs hruns hbusy hended hsusp hreads hstop =>
      effects_run rfl hs (dieOpIssue_resumes rfl hbusy hended hsusp hruns hreads hstop),
    fun s die o r rs hs htakes hbusy hended hsusp hreads =>
      effects_run rfl hs (dieOpIssue_hostRead rfl hbusy hended hsusp htakes hreads),
    fun s die elapsed hs hst hissued => effects_run rfl hs (dieStatusPoll_of_reset hst hissued elapsed),
    fun s die elapsed o hs hst hbusy => effects_run rfl hs ⟨_, rfl, _, rfl, dieStatusPoll_of_busy hbusy hst elapsed rfl rfl⟩,
    fun s die o hs hbusy => effects_run rfl hs ⟨_, rfl, dieTimeout_of_busy hbusy rfl⟩,
    fun s die hs hst hissued => effects_run rfl hs (if_pos ⟨hst, hissued⟩),
    fun s die o hs hbusy hsusp hen hok htakes hcls hread hmax =>
      effects_run rfl hs (programSuspend_of_busy hbusy hsusp hen hok htakes hcls hread hmax),
    fun s loc ptype v r hs hread htest hcw => effects_run rfl hs (codewordDecode_of_erased hread htest ptype v hcw),
    fun s loc ptype v r w x hs hread htest hcw hlane =>
      effects_run rfl hs ⟨_, _, rfl, rfl, codewordDecode_of_keyed hread htest ptype v hcw hlane rfl rfl⟩,
    ?late,
    ?intime,
    fun s loc v expired elapsed r hs hread hre hover => effects_run rfl hs (softDecode_of_expired hread hre v elapsed hover),
    fun s loc v expired elapsed r hs hread hre hover h =>
      effects_run rfl hs (softDecode_of_late_or_erased hread hre v hover h),
    fun s loc v expired elapsed r w hs hread hre hover hlate hcw =>
      effects_run rfl hs ⟨_, _, rfl, rfl, softDecode_of_intime hread hre v hover hlate hcw rfl rfl⟩,
    fun s loc unread late sound expired r hs hread hover h =>
      effects_run rfl hs (reconstruction_of_unstriped hread hover unread late sound h),
    fun s loc unread late sound expired r x g j dies hs hread hover hstripe hmember hdies hready =>
      effects_run rfl hs ⟨_, _, _, _, rfl, rfl, rfl, rfl,
        reconstruction_of_striped hread hover unread late sound hstripe hmember hdies hready rfl rfl rfl rfl⟩,
    fun s target temp ok hs hch htr hdies hidle htest hdue =>
      effects_run rfl hs ⟨_, rfl, if_neg (targetRetrain_heard hch htr hdies hidle htest hdue)⟩⟩
  case trains =>
    intro s ch passes temps k hs hch htr hdies hbest
    refine effects_run rfl hs ((if_neg (channelTraining_heard hch htr hdies)).trans ?_)
    dsimp only
    rw [hbest]
  case untrained =>
    intro s ch passes temps hs hch htr hdies hbest
    refine effects_run rfl hs ((if_neg (channelTraining_heard hch htr hdies)).trans ?_)
    dsimp only
    rw [hbest]
  case late =>
    rintro s die block page ok expired elapsed _ hs hre rfl hne hlate
    exact effects_run rfl hs ((if_neg (readRetryReread_heard hre hne)).trans (if_pos hlate))
  case intime =>
    intro s die block page ok expired elapsed r t hs hre hwalk hlate
    refine effects_run rfl hs ⟨_, _, _, _, rfl, rfl, rfl, rfl, ?_⟩
    unfold readRetryReread
    dsimp only
    rw [hwalk]
    exact (if_neg (readRetryReread_heard hre (List.cons_ne_nil r t))).trans (if_neg hlate)

end Sys2Proof.Machine
end

section
/-! PROOFS. Boot and recovery: the firmware slot and the stream that take effect, the map after a clean stop, the end of recovery, and the
burn of a life-cycle change (R149, R150, R383, R393). -/

namespace Sys2Proof.Machine

/-! ### Firmware (R383 steps 1 to 4) -/

section
variable {d : Dev} (hboot : d.booting = true)
include hboot

section
variable (hidle : d.boot.fwRunning = 0)
include hidle

/-- A booting part that runs no firmware looks for a slot. -/
theorem firmwareVerify_heard : ¬(¬d.booting = true ∨ d.boot.fwRunning ≠ 0) := by
  simp [hboot, hidle]

variable {chosen : Nat}
  (hchosen : chosen = if 1 ≤ d.directory.fwNext ∧ d.directory.fwNext ≤ 3 then d.directory.fwNext else d.directory.fwActive)
include hchosen

/-- The first slot that verifies runs; where it is not the chosen one, FW_FALLBACK is raised. -/
theorem firmwareVerify_of_found (hsel : d.f F.HALW_BOOT_BOOTSEL < 2) {k : Nat}
    (hfind : (chosen :: [1, 2, 3].filter (fun j => j != chosen)).find? d.slotOk = some k) {x : Dev}
    (hx : x = (({ d with boot := { d.boot with firmware := AMap.find k d.bootFlash.fw, fwRunning := k } }).setF F.HALW_BOOT_FWSLOT
      k).setF F.HALW_BOOT_FWFALLBACK (Bool.nat (k != chosen))) :
    firmwareVerify d = (if k = chosen then x else x.raise 0x02C noPlot [chosen, k]).releaseCores := by
  subst hx hchosen
  unfold firmwareVerify
  dsimp only
  rw [if_neg (firmwareVerify_heard hboot hidle), if_neg (Nat.not_le.mpr hsel), hfind]

/-- Recovery boot runs where it is strapped or no slot verifies. -/
theorem firmwareVerify_of_none (h : 2 ≤ d.f F.HALW_BOOT_BOOTSEL ∨
      (chosen :: [1, 2, 3].filter (fun j => j != chosen)).find? d.slotOk = none) :
    firmwareVerify d = d.releaseCores.bootSafe 3 := by
  have hnone : (if 2 ≤ d.f F.HALW_BOOT_BOOTSEL then none
      else (chosen :: [1, 2, 3].filter (fun j => j != chosen)).find? d.slotOk) = none :=
    ite_eq_left_iff.mpr h.resolve_left
  subst hchosen
  unfold firmwareVerify
  dsimp only
  rw [if_neg (firmwareVerify_heard hboot hidle), hnone]

end

/-! ### The stream (R383 steps 5 to 8) -/

/-- The stream `x` of slot `k` takes effect, with `fallback` 1 where the slot is not the active one. -/
def Dev.takeStream (d : Dev) (k fallback : Nat) (x : Stream) : Dev :=
  let y := ((d.setF F.HALW_BOOT_STRSLOT k).setF F.HALW_BOOT_STRFALLBACK fallback).applyStream x
  let z := (((y.firstBoot).bootMembers).bootConds).spareCheck
  ((((z.slmCut true).mapShow).wcShow).journalShow).afterStream

section
variable (hrun : d.boot.fwRunning ≠ 0) (hstream : d.boot.stream = none)
include hrun hstream

/-- A booting part with firmware and no stream looks for a stream. -/
theorem streamVerify_heard : ¬(¬d.booting = true ∨ d.boot.fwRunning = 0 ∨ d.boot.stream.isSome = true) := by
  simp [hboot, hrun, hstream]

variable {a : Nat} (ha : a = min 1 d.directory.strActive)
include ha

theorem streamVerify_of_active (hgood : d.slotFail a = none) {x : Stream} (hin : d.streamIn a = some x) :
    streamVerify d = d.takeStream a 0 x := by
  subst ha
  unfold streamVerify
  dsimp only
  rw [if_neg (streamVerify_heard hboot hrun hstream), hgood]
  dsimp only
  rw [hin, bne_self_eq_false]
  rfl

variable {f : LoadFail} (hbad : d.slotFail a = some f)
include hbad

theorem streamVerify_of_other (hgood : (d.noteSlot a f).slotFail (1 - a) = none) {x : Stream} {y : Dev}
    (hy : y = (d.noteSlot a f).raise 0x029 noPlot []) (hin : y.streamIn (1 - a) = some x) :
    streamVerify d = y.takeStream (1 - a) 1 x := by
  have hother : (1 - a != a) = true := by
    rw [bne_iff_ne]
    omega
  subst hy ha
  unfold streamVerify
  dsimp only
  rw [if_neg (streamVerify_heard hboot hrun hstream), hbad]
  dsimp only
  rw [hgood]
  dsimp only
  rw [hin, hother]
  rfl

theorem streamVerify_of_refused {g : LoadFail} (hworse : (d.noteSlot a f).slotFail (1 - a) = some g) {x : Dev}
    (hx : x = ((d.noteSlot a f).noteSlot (1 - a) g).raise 0x028 noPlot [g.code]) :
    streamVerify d =
      (({ x with boot := { x.boot with firmware := none, fwRunning := 0 } } : Dev).setF F.HALW_BOOT_FWSLOT 0).bootSafe 4 := by
  subst hx ha
  unfold streamVerify
  dsimp only
  rw [if_neg (streamVerify_heard hboot hrun hstream), hbad]
  dsimp only
  rw [hworse]

end

/-! ### The map and recovery (R149, R150) -/

/-- After a clean stop every segment is loaded from its copy; BOOT goes on to the operating mode, TEST stays. -/
theorem mapLoadDone_of_clean (hstream : d.boot.stream.isSome = true) (hclean : d.nv.stop = .clean) (hmap : d.mode.mapLoaded = false)
    {x y : Dev} (hx : x = (d.md.dir.filter (fun s => s.1 / 2 ^ 40 != 0)).foldl (fun (e : Dev) s => e.loadEntries (segMap s.1 s.2)) d)
    (hy : y = { x.countStop.requeueDoomed with mode := { x.mode with mapLoaded := true } }) :
    mapLoadDone d = if y.f F.TOP_MODE_MODE = 4 then y.enterOperating.powerCombine else { y with nv := { y.nv with stop := .unclean } } := by
  subst hy hx
  exact if_pos ⟨hboot, hstream, hclean, Bool.eq_false_iff.mp hmap⟩

end

/-- The interrupted erases are repeated; a segment that could not be read leads to SAFE. -/
theorem recoverDone_of_empty {d : Dev} (hmode : d.f F.TOP_MODE_MODE = 5) (hadmit : d.flag F.MAPW_STAT_ADMIT = true)
    (hempty : d.ftl.recover.isEmpty = true) (ms : Nat) (readable : Bool) {x y z : Dev}
    (hy : y = ((d.md.blocks.filter (fun b => b.2.state == .erasing)).map Prod.fst).foldl
      (fun (e : Dev) b => e.blockErased (b / 8192) (b % 8192)) d)
    (hz : z = { y with nv := { y.nv with recMs := ms }, mode := { y.mode with mapLoaded := true } })
    (hx : x = ((z.requeueDoomed.setF F.MAPW_RECOV_MS ms).raise 0x011 noPlot [ms]).enterOperating) :
    recoverDone ms readable d = if readable = true then
        (((x.setF F.MAPW_STAT_RECOVERING 0).setF F.MAPW_STAT_ADMIT 0).ewSet 13 (decide (10000 < ms))).powerCombine
      else y.enterSafe 5 := by
  subst hx hz hy
  exact (if_pos ⟨hmode, hadmit, hempty⟩).trans (ite_not ..)

/-! ### The life cycle (R393) -/

/-- A change that waits is burned once the part has stopped; until then the command brings the stop forward. -/
theorem lifeCycleBurn_of_change {d : Dev} {t : Nat × Nat} (ht : d.boot.lcChange = some t) :
    lifeCycleBurn d = if d.cleanBefore.stopped = true then
        ({ d.cleanBefore with
          fuses := { d.cleanBefore.fuses with
            lcrec := d.cleanBefore.fuses.lcrec ++ [t.1], revoked := d.cleanBefore.fuses.revoked ||| t.2,
            dus := d.cleanBefore.fuses.dus || d.cleanBefore.fuses.state == 1 }
          nv := { d.cleanBefore.nv with lcPending := true } } : Dev).partReset .lcs
      else d.cleanBefore := by
  unfold lifeCycleBurn
  rw [ht]
  exact ite_not ..

/-- Settles O27: each command goes by what it finds. BOOT takes the first firmware slot that verifies and the first stream that loads,
the map load and the end of recovery enter the operating mode, and a life-cycle change waits for the stop. That TEST keeps its mode, the
segments that recovery takes and the burn that brings the clean stop forward are the model's choices (assumptions 86, 87 and 93). -/
theorem bootAndRecoveryComplete : Obligations.BootAndRecoveryComplete :=
  ⟨fun _ _ hs hboot hidle hsel hfind hk => effects_run rfl hs ((firmwareVerify_of_found hboot hidle rfl hsel hfind rfl).trans
      (congrArg Dev.releaseCores (if_pos hk))),
   fun _ _ hs hboot hidle hsel hfind hk => effects_run rfl hs ((firmwareVerify_of_found hboot hidle rfl hsel hfind rfl).trans
      (congrArg Dev.releaseCores (if_neg hk))),
   fun _ hs hboot hidle h => effects_run rfl hs (firmwareVerify_of_none hboot hidle rfl h),
   fun _ _ hs hboot hrun hstream hgood hin => effects_run rfl hs (streamVerify_of_active hboot hrun hstream rfl hgood hin),
   fun _ _ _ hs hboot hrun hstream hbad hgood hin =>
      effects_run rfl hs ⟨_, rfl, streamVerify_of_other hboot hrun hstream rfl hbad hgood rfl hin⟩,
   fun _ _ _ hs hboot hrun hstream hbad hworse =>
      effects_run rfl hs ⟨_, rfl, streamVerify_of_refused hboot hrun hstream rfl hbad hworse rfl⟩,
   fun _ hs hboot hstream hclean hmap hmode =>
      effects_run rfl hs ((mapLoadDone_of_clean hboot hstream hclean hmap rfl rfl).trans (if_pos hmode)),
   fun _ hs hboot hstream hclean hmap hmode =>
      effects_run rfl hs ⟨_, rfl, (mapLoadDone_of_clean hboot hstream hclean hmap rfl rfl).trans (if_neg hmode)⟩,
   fun _ hs hmode hadmit => effects_run rfl hs ⟨_, rfl, if_pos ⟨hmode, Bool.eq_false_iff.mp hadmit⟩⟩,
   fun _ _ hs hmode hadmit hseg => effects_run rfl hs ⟨_, rfl, _, rfl, if_pos ⟨hmode, hadmit, hseg⟩⟩,
   fun _ ms hs hmode hadmit hempty => effects_run rfl hs ⟨_, rfl, _, rfl, recoverDone_of_empty hmode hadmit hempty ms true rfl rfl rfl⟩,
   fun _ ms hs hmode hadmit hempty => effects_run rfl hs (recoverDone_of_empty hmode hadmit hempty ms false rfl rfl rfl),
   fun _ _ hs ht hstop => effects_run rfl hs ⟨_, rfl, (lifeCycleBurn_of_change ht).trans (if_pos hstop)⟩,
   fun _ _ hs ht hstop => effects_run rfl hs ((lifeCycleBurn_of_change ht).trans (if_neg (Bool.eq_false_iff.mp hstop)))⟩

end Sys2Proof.Machine
end

section
/-! PROOFS. The flash layer: the journal and its checkpoints, destage, the ends of programs and erases, and Compost (R135, R142, R144,
R146, R147, R151 to R153). -/

namespace Sys2Proof.Machine

/-! ### Journal and checkpoints (R142, R144) -/

section
variable {d : Dev}

theorem journalBatchCommit_of_closed {b : Batch} {rest : List Batch} (hclosed : d.ftl.closed = b :: rest) {x : Dev}
    (hx : x = { d with
      ftl := { d.ftl with closed := rest, ckptVol := d.ftl.ckptVol + b.bytes }
      mram := { d.mram with
        batches := d.mram.batches ++ [b], jhead := b.bseq, jtail := if d.mram.batches.isEmpty = true then b.bseq else d.mram.jtail,
        commits := d.mram.commits.map (fun (c : Commit) => c.settle b.recs) } }) :
    journalBatchCommit d =
      ((((x.setF F.MRAMC_JHEAD_BSEQ b.bseq).count 0x51 0 noPlot 1).count 0x52 0 noPlot b.bytes).freeCommits.journalShow).eraseSweep := by
  subst hx
  unfold journalBatchCommit
  rw [hclosed]

/-- With no pass running, any one of the period, the volume, the half-full ring and the dirty limit starts one. -/
theorem checkpointPassStart_of_due (hback : d.background = true) (hpass : d.ftl.pass.isEmpty = true)
    (hcopies : d.ftl.copies.isEmpty = true)
    (hdue : d.ftl.ckptAt + 1000 * d.f F.MAPW_CKPT_PERIOD ≤ d.now ∨ d.f F.MAPW_CKPT_VOLUME * 268435456 ≤ d.ftl.ckptVol ∨
      50 ≤ d.jfill ∨ d.f F.MAPW_CKPT_DIRTYMAX * 2 ^ 30 < d.dirtyBytes) :
    checkpointPassStart d = d.passStart := by
  unfold checkpointPassStart
  dsimp only
  rw [if_pos]
  simp only [hback, hpass, hcopies, Bool.true_and, Bool.and_true, Bool.or_eq_true, decide_eq_true_eq, or_assoc]
  exact hdue

section
variable {seg : Nat}

/-- A copy that is programmed and covered by parity enters the directory, and the journal's tail moves. -/
theorem segmentCopyDone_of_written {c : SegCopy} (hcopy : AMap.find seg d.ftl.copies = some c) (hwritten : d.segWritten seg c = true)
    {x : Dev} (hx : x = { d with
      md := { d.md with dir := AMap.put seg c d.md.dir }, ftl := { d.ftl with copies := AMap.del seg d.ftl.copies } }) :
    segmentCopyDone seg d = (((x.count 0x5B 0 noPlot 1).trimJournal).eraseSweep).passStep := by
  subst hx
  unfold segmentCopyDone
  rw [hcopy]
  exact if_pos hwritten

theorem segmentCopyDone_of_unplaced (hcopy : AMap.find seg d.ftl.copies = none) (hpass : d.ftl.pass.contains seg = true) :
    segmentCopyDone seg d = d.passStep := by
  unfold segmentCopyDone
  rw [hcopy]
  exact if_pos hpass

end

/-! ### Destage (R146, R151, R165) -/

/-- The pages gathered so far for the host's open block stripe of a group are padded and sent. -/
def Dev.padHost (d : Dev) (g : Nat) : Dev :=
  match d.openStripe? g 0 with
  | some w => d.padStripe w
  | none => d

section
variable {nsid iu : Nat} (g : Nat) (pad : Bool)

/-- The codewords of an IU that nothing has taken yet are placed, and the IU is remembered as sent. -/
theorem destage_of_placed {n : Ns} {c : Commit} {x y : Dev} (hns : d.ns? nsid = some n) (hlive : d.liveCommit nsid iu = some c)
    (hopen : (c.taken iu || !d.groups.contains g || (n.comp != 0 && (AMap.find (iuKey nsid iu) d.ftl.packed).isNone)) = false)
    (hplace : (d.paced g (d.iuCodewords n c iu).length).bind (fun e => e.place g 0 (d.iuCodewords n c iu)) = some y)
    (hx : x = y.setCommit { c with sent := c.sent ++ [iu] }) :
    destage nsid iu g pad d = if pad = true then x.padHost g else x := by
  subst hx
  unfold destage
  rw [hns, hlive]
  dsimp only
  rw [if_neg (Bool.eq_false_iff.mp hopen), hplace]
  rfl

/-- Without a namespace or a live record nothing is placed. -/
theorem destage_of_nothing (h : d.ns? nsid = none ∨ d.liveCommit nsid iu = none) :
    destage nsid iu g pad d = if pad = true then d.padHost g else d := by
  unfold destage
  rcases h with hns | hlive
  · rw [hns]
    rfl
  · rw [hlive]
    cases d.ns? nsid with
    | none => rfl
    | some n => rfl

end

/-! ### Ends of programs and erases (R146, R147, R165) -/

/-- Member `j` of a stripe with purpose `p` has its page of data on flash: the row takes it into its parity, the IUs that are whole now
are destaged, and a stripe that is full closes. -/
def Dev.dataWritten (d : Dev) (o : DieOp) (g j p : Nat) : Dev :=
  let y := d.almanacCount (if p = 1 then 256 else if p = 2 then 264 else 248) (4096 * o.cws.length)
  let z := match y.stripe? g o.bsn, y.row? g o.bsn o.page with
    | some w, some r => (y.setRow { r with done := setBit r.done j true }).stageRow w { r with done := setBit r.done j true }
    | _, _ => y
  (if p = 0 then (o.cws.filter (fun c => decide (c.kind ≤ 1))).foldl (fun (a : Dev) c => a.destaged o c) z else z).closeStripe g o.bsn

section
variable {die : Nat} {o : DieOp} (hended : (d.die die).ended = some o) {x : Dev} (hx : x = d.setDie die { d.die die with ended := none })
include hended hx

section
variable (hcls : o.cls = .program)
include hcls

theorem progFail_of_program {y z : Dev}
    (hy : y = (((x.raise 0x015 noPlot [die, o.block, o.page]).almanacCount 176 1).setBlk die o.block
      { d.blk die o.block with doom := 1 }).queueCompost die o.block 2)
    (hz : z = match y.stripe? o.group o.bsn with
      | some w => if o.parity = true then y.reportStripe w else y
      | none => y) :
    progFail die d = (z.programLost o).closeStripe o.group o.bsn := by
  subst hz hy hx
  unfold progFail
  dsimp only
  rw [hended]
  exact if_pos hcls

/-- The page of a program that ended well is on flash; what follows goes by the member that its die is. -/
theorem nandProgramDone_of_program {y : Dev} (hy : y = x.writePage o) :
    nandProgramDone die d = match y.memberOf die with
      | none => y
      | some (g, j) =>
        if o.parity = true then (y.almanacCount 272 (4096 * o.cws.length)).parityWritten o j
        else y.dataWritten o g j (((y.stripe? g o.bsn).map (fun w => w.purpose)).getD 0) := by
  subst hy hx
  unfold nandProgramDone
  dsimp only
  rw [hended]
  exact if_pos hcls

end

section
variable (hcls : o.cls = .erase)
include hcls

theorem eraseDone_of_erase : eraseDone die d = x.blockErased die o.block := by
  subst hx
  unfold eraseDone
  dsimp only
  rw [hended]
  exact if_pos hcls

theorem eraseFail_of_erase :
    eraseFail die d = ((x.raise 0x016 noPlot [die, o.block]).almanacCount 184 1).blockBad die o.block 2 := by
  subst hx
  unfold eraseFail
  dsimp only
  rw [hended]
  exact if_pos hcls

end

end

/-! ### Compost (R151 to R153) -/

/-- The first reason that has a victim gives the block whose relocation starts. -/
theorem compostVictim_of_background (g : Nat) (hback : d.background = true) (hcro : d.flag F.TOP_MODE_CRO = false)
    {l : Nat → Option (Nat × Nat)} {t : List (Nat × Option (Nat × Nat))}
    (hl : l = fun r => (d.ftl.compost.find? (fun c => !c.started && c.reason == r && (d.blk c.die c.block).group == g &&
      (d.blk c.die c.block).state == .closed)).map (fun c => (c.die, c.block)))
    (ht : t = [(1, if d.urgent g = true then (l 1).orElse (fun _ => d.spaceVictim g) else none), (2, l 2), (3, l 3), (4, l 4), (1, l 1),
      (5, l 5), (5, if d.freePermille g < d.f F.MAPW_COMPOST_START then (l 5).orElse (fun _ => d.spaceVictim g) else none)]) :
    compostVictim g d = match t.findSome? (fun t => t.2.map (fun b => (t.1, b))) with
      | some (r, b) => d.freeCheck.startReloc b.1 b.2 r
      | none => d.freeCheck := by
  have hguard : ¬(¬d.background = true ∨ d.flag F.TOP_MODE_CRO = true) := by simp [hback, hcro]
  subst ht hl
  unfold compostVictim
  simp only [if_neg hguard, decide_eq_true_eq]
  rfl

theorem compostVictim_of_held (g : Nat) (h : d.background = false ∨ d.flag F.TOP_MODE_CRO = true) :
    compostVictim g d = d.freeCheck :=
  if_pos (h.imp_left Bool.eq_false_iff.mp)

section
variable {nsid iu : Nat} {copies : List (Nat × Cw)}
  (hcopies : copies = d.flash.cws.filter (fun x => x.2.nsid == nsid && x.2.iu == iu && x.2.cwidx == 0 && decide (x.2.kind ≤ 1)))
include hcopies

/-- A copy of an IU whose entry no longer points to flash is only counted. -/
theorem relocationCopyDone_of_moved (h : entryType (d.entry? nsid iu) ≠ 1) :
    relocationCopyDone nsid iu d = (if copies.isEmpty = true then d else d.count 0x5A 0 noPlot 1).eraseSweep.rebuildSweep := by
  subst hcopies
  exact congrArg (fun e : Dev => e.eraseSweep.rebuildSweep) (if_neg h)

/-- The newest relocated copy with the write sequence of the codeword that the entry points to takes over the entry. -/
theorem relocationCopyDone_of_source (h : entryType (d.entry? nsid iu) = 1) {x : Dev}
    (hx : x = match d.cw? (d.entry? nsid iu % 2 ^ 38) with
      | none => d
      | some old => match (copies.filter (fun x => x.2.wseq == old.wseq && x.1 != d.entry? nsid iu % 2 ^ 38 &&
          (decide (old.reloc < x.2.reloc) ||
            (old.reloc == 255 && x.2.reloc == 255 && !d.ftl.relocBuf.any (fun w => w.nsid == nsid && w.iu == iu))))).getLast? with
        | none => d
        | some c => match d.copyIn (locDie c.1) (locBlock c.1) c.2 with
          | some loc => (d.mapSet nsid iu (flashEntry loc)).jrec (.mapTo nsid iu (flashEntry loc) c.2.reloc)
          | none => d) :
    relocationCopyDone nsid iu d = x.eraseSweep.rebuildSweep := by
  subst hx hcopies
  exact congrArg (fun e : Dev => e.eraseSweep.rebuildSweep) (if_pos h)

end

end

/-- Settles O39: each command goes by the one thing that it finds, the oldest closed batch, the copy, the live record, the operation that
has ended on its die, the victim or the entry, and does its work from there. -/
theorem flashLayerCompletes : Obligations.FlashLayerCompletes :=
  ⟨fun _ hs hmode => effects_run rfl hs (if_neg hmode),
   fun _ _ _ hs hclosed => effects_run rfl hs ⟨_, rfl, journalBatchCommit_of_closed hclosed rfl⟩,
   fun _ hs hback hpass hcopies hdue => effects_run rfl hs (checkpointPassStart_of_due hback hpass hcopies (.inl hdue)),
   fun _ hs hback hpass hcopies hdue => effects_run rfl hs (checkpointPassStart_of_due hback hpass hcopies (.inr (.inl hdue))),
   fun _ hs hback hpass hcopies hdue => effects_run rfl hs (checkpointPassStart_of_due hback hpass hcopies (.inr (.inr hdue))),
   fun _ _ _ hs hcopy hwritten => effects_run rfl hs ⟨_, rfl, segmentCopyDone_of_written hcopy hwritten rfl⟩,
   fun _ _ hs hcopy hpass => effects_run rfl hs (segmentCopyDone_of_unplaced hcopy hpass),
   fun _ _ _ g pad _ _ _ hs hns hlive hopen hplace =>
      effects_run rfl hs ⟨_, rfl, destage_of_placed g pad hns hlive hopen hplace rfl⟩,
   fun _ _ _ g hs h => effects_run rfl hs (destage_of_nothing g true h),
   fun _ _ _ hs hended hcls hmember => effects_run rfl hs ((nandProgramDone_of_program hended rfl hcls rfl).trans (by rw [hmember])),
   fun _ _ _ _ _ hs hended hcls hmember hparity =>
      effects_run rfl hs ((nandProgramDone_of_program hended rfl hcls rfl).trans (by rw [hmember]; exact if_pos hparity)),
   fun _ _ _ _ _ _ hs hended hcls hmember hparity hp => effects_run rfl hs ⟨_, rfl, _, rfl,
      (nandProgramDone_of_program hended rfl hcls rfl).trans (by subst hp; rw [hmember]; exact if_neg (Bool.eq_false_iff.mp hparity))⟩,
   fun _ _ _ hs hended hcls => effects_run rfl hs ⟨_, _, rfl, rfl, progFail_of_program hended rfl hcls rfl rfl⟩,
   fun _ _ _ hs hended hcls => effects_run rfl hs (eraseDone_of_erase hended rfl hcls),
   fun _ _ _ hs hended hcls => effects_run rfl hs (eraseFail_of_erase hended rfl hcls),
   fun _ g hs hback hcro => effects_run rfl hs ⟨_, _, rfl, rfl, compostVictim_of_background g hback hcro rfl rfl⟩,
   fun _ g hs h => effects_run rfl hs (compostVictim_of_held g h),
   fun _ _ _ hs h => effects_run rfl hs (relocationCopyDone_of_moved rfl h),
   fun _ _ _ hs h => effects_run rfl hs ⟨_, rfl, relocationCopyDone_of_source rfl h rfl⟩,
   fun _ _ _ hs => effects_run rfl hs rfl,
   fun _ _ _ hs => effects_run rfl hs (apply_ite Dev.retainCheck ..).symm⟩

end Sys2Proof.Machine
end

section
/-! PROOFS. Die-group redundancy: stripe replay, the map walk and the stripes of a rebuild, Rake (R168, R174, R179, R180). -/

namespace Sys2Proof.Machine

section
variable {d : Dev}

/-- With the tag scan done, the slots in use at the stop are replayed and the stripes open at the stop close; slots that were dealt with
are counted and raise STRIPE_REPLAY. -/
theorem stripeReplay_of_scanned {torn : List Nat} (hadmit : d.flag F.MAPW_STAT_ADMIT = true) {busy : List JSlot}
    (hbusy : busy = d.strp.slots.filter (fun r => r.state != .free && d.strp.replay.contains r.index)) {x y : Dev}
    (hx : x = busy.foldl (fun (a : Dev) r => a.replayRow (torn.contains r.index) r) { d with strp := { d.strp with replay := [] } })
    (hy : y = (((x.strp.stripes.filter (fun w => w.closing)).foldl (fun (a : Dev) w => a.closeStripe w.group w.bsn) x).jshow).freeCommits) :
    stripeReplay torn d = if busy.isEmpty = true then y
      else (y.bump (F.STRP_CNT_COUNT 1) 0x11 0 busy.length).raise 0x01C noPlot [busy.length] := by
  subst hy hx hbusy
  exact if_neg (not_not_intro hadmit)

section
variable {g bsn : Nat} {s : BStripe} (hstripe : d.stripe? g bsn = some s)
include hstripe

/-- A stripe that the rebuild may visit now: its losses are marked, its blocks relocate and it is counted and left behind. -/
theorem rebuildStripe_of_due {r : Rebuild} (lost : List (Nat × Nat)) (hrebuild : d.strp.rebuilds.find? (fun v => v.group == g) = some r)
    (hdue : (r.active && !d.mode.pfStop && !(s.blocks.map (fun jb => d.memberDie g jb.1)).any (fun y => d.underTest (dieChan y / 8)) &&
      r.left.contains bsn && !d.flag F.STRP_RBCFG_PAUSE && d.patrolMode && decide (d.f F.PWR_PSTATE_PS ≤ 2) &&
      (s.blocks.map Prod.fst).all (fun j => r.members.all (fun m => m.1 != j || m.2)) &&
      (!d.flag F.TOP_MODE_CRO || (d.openStripe? g 1).isSome)) = true) {y z : Dev} {rs : List Rebuild}
    (hy : y = lost.foldl (fun (a : Dev) ps => a.loseStripe s ps.1 ps.2 1) d)
    (hrs : rs = y.strp.rebuilds.map (fun v =>
      if v.group == g then { v with left := v.left.filter (fun b => b != bsn), lost := v.lost + lost.length } else v))
    (hz : z = s.blocks.foldl (fun (a : Dev) jb => a.startReloc (d.memberDie g jb.1) jb.2 2)
      { y with strp := { y.strp with rebuilds := rs } }) :
    rebuildStripe g bsn lost d = (z.bump (F.STRP_CNT_COUNT 2) 0x12 0 1).rebuildSweep := by
  subst hz hrs hy
  unfold rebuildStripe
  rw [hrebuild, hstripe]
  exact if_pos hdue

/-- Nothing holds Rake back from the stripe, so it reads the stripe and acts on what it finds. -/
theorem rakeStripeCheck_of_eligible (page slot : Nat) (f : RakeFinding) (last : Bool) (hmode : d.patrolMode = true)
    (hstop : d.mode.pfStop = false)
    (htest : (s.blocks.map (fun jb => d.memberDie g jb.1)).any (fun y => d.underTest (dieChan y / 8)) = false)
    (hpower : ¬2 < d.f F.PWR_PSTATE_PS) (hdays : d.f F.STRP_RAKE_DAYS ≠ 0) (hclosed : d.rakeStripes.contains (g, bsn) = true) {y z : Dev}
    (hy : y = (d.rakeRead s).bump (F.STRP_CNT_COUNT 4) 0x14 0 1)
    (hz : z = match f with
      | .sound => y
      | .hard j => match AMap.find j s.blocks with
        | some b => y.rakeReport (d.memberDie g j) b
        | none => y
      | .reconstructed => s.blocks.foldl (fun (a : Dev) jb => a.rakeReport (d.memberDie g jb.1) jb.2)
          (((y.bump (F.STRP_CNT_COUNT 0) 0x10 0 1).almanacCount 144 1).ewOccur 8)
      | .lost => y.loseStripe s page slot 4
      | .parity => (s.blocks.foldl (fun (a : Dev) jb => a.rakeReport (d.memberDie g jb.1) jb.2)
          (y.bump (F.STRP_CNT_COUNT 5) 0x15 0 1)).raise 0x01B noPlot []) :
    rakeStripeCheck g bsn page slot f last d = if last = true then z.rakeAdvance g bsn else z := by
  have hguard : ¬(!d.patrolMode || d.mode.pfStop ||
      (s.blocks.map (fun jb => d.memberDie g jb.1)).any (fun y => d.underTest (dieChan y / 8)) ||
      decide (2 < d.f F.PWR_PSTATE_PS) || d.f F.STRP_RAKE_DAYS == 0 || !d.rakeStripes.contains (g, bsn)) = true := by
    rw [hmode, hstop, htest, hclosed, decide_eq_false hpower, beq_eq_false_iff_ne.mpr hdays]
    decide
  subst hz hy
  unfold rakeStripeCheck
  rw [hstripe]
  exact if_neg hguard

end

end

/-- Settles O40: replay waits for the tag scan, the map walk is its own effect, and a rebuild and Rake go by the one guard that lets them
visit the stripe. -/
theorem stripesComplete : Obligations.StripesComplete :=
  ⟨fun _ _ hs hadmit => effects_run rfl hs ⟨_, _, rfl, rfl, stripeReplay_of_scanned hadmit rfl rfl rfl⟩,
   fun _ _ hs => effects_run rfl hs ⟨_, rfl, rfl⟩,
   fun _ _ _ lost _ _ hs hrebuild hstripe hdue =>
      effects_run rfl hs ⟨_, _, _, rfl, rfl, rfl, rebuildStripe_of_due hstripe lost hrebuild hdue rfl rfl rfl⟩,
   fun _ _ _ page slot f last _ hs hstripe hmode hstop htest hpower hdays hclosed =>
      effects_run rfl hs ⟨_, _, rfl, rfl,
        rakeStripeCheck_of_eligible hstripe page slot f last hmode hstop htest hpower hdays hclosed rfl rfl⟩⟩

end Sys2Proof.Machine
end

section
/-! PROOFS. Gorwasta links: training and retraining, the frames with their drops, heartbeats, the timers and the hunt (R182, R184 to
R186, R191). -/

namespace Sys2Proof.Machine

section
variable {d : Dev} {l : Nat}

/-! ### Training (R182, R186) -/

section
variable (hlink : d.linkable l = true)
include hlink

section
variable (hstate : d.linkState l = 1)
include hstate

/-- A link of a listed neighbour that trains passes the guard of the training commands. -/
theorem linkTraining_heard : ¬(¬d.linkable l ∨ d.linkState l ≠ 1) := by
  simp [hlink, hstate]

/-- A first training that agrees brings the link up afresh: only the peer's words, the NAK count and what waits stay. -/
theorem gwlLinkUp_of_agreed (x4 reversed : Bool) (hok : d.trainOk l = true) (hfirst : (d.link l).retrain = false) {y z : Dev}
    (hy : y = d.setLink l { GLink.init with train := (d.link l).train, naks := (d.link l).naks, queue := (d.link l).queue })
    (hz : z = (((y.setF (F.GWL_LSTAT_STATE l) (if x4 = true then 3 else 2)).setF (F.GWL_LSTAT_PEER l)
      (Nat.xor d.self (linkMask l))).setF (F.GWL_LSTAT_REVERSED l) (Bool.nat reversed)).raise (0x1C0 + l) noPlot []) :
    gwlLinkUp l x4 reversed d = ((if x4 = true then z.raise (0x1C4 + l) noPlot [] else z).pump l).reroute := by
  subst hz hy
  unfold gwlLinkUp
  rw [if_neg (linkTraining_heard hlink hstate), if_neg (not_not_intro hok)]
  simp only [hfirst, Bool.or_false, Bool.false_eq_true, if_false]

/-- A retraining that agrees keeps the link's frames and resends them. -/
theorem gwlLinkUp_of_retrained (x4 reversed : Bool) (hok : d.trainOk l = true) (hagain : (d.link l).retrain = true) {y z : Dev}
    (hy : y = d.setLink l { d.link l with retrain := false, fails := 0, nak := false, hunting := false })
    (hz : z = (((y.setF (F.GWL_LSTAT_STATE l) (if x4 = true then 3 else 2)).setF (F.GWL_LSTAT_PEER l)
      (Nat.xor d.self (linkMask l))).setF (F.GWL_LSTAT_REVERSED l) (Bool.nat reversed)).resend l) :
    gwlLinkUp l x4 reversed d = ((z.raise (0x1C4 + l) noPlot []).pump l).reroute := by
  subst hz hy
  unfold gwlLinkUp
  rw [if_neg (linkTraining_heard hlink hstate), if_neg (not_not_intro hok)]
  simp only [hagain, Bool.or_true, if_true]

theorem gwlLinkUp_of_disagreed (x4 reversed : Bool) (hbad : d.trainOk l = false) : gwlLinkUp l x4 reversed d = d.wiring l :=
  (if_neg (linkTraining_heard hlink hstate)).trans (if_pos (Bool.eq_false_iff.mp hbad))

section
variable {peer plink cluster rhash : Nat} {x : Dev} (hx : x = d.setLink l { d.link l with train := some (peer, plink, cluster, rhash) })
include hx

theorem gwlTrainFrame_of_agreed (hok : x.trainOk l = true) : gwlTrainFrame l peer plink cluster rhash d = x.sendFrame l 4 := by
  subst hx
  exact (if_neg (linkTraining_heard hlink hstate)).trans (if_pos hok)

theorem gwlTrainFrame_of_disagreed (hbad : x.trainOk l = false) : gwlTrainFrame l peer plink cluster rhash d = x.wiring l := by
  subst hx
  exact (if_neg (linkTraining_heard hlink hstate)).trans (if_neg (Bool.eq_false_iff.mp hbad))

end

end

section
variable (hdown : d.linkUp l = false)
include hdown

/-- The timer of a link of a listed neighbour that is not up is not a late one. -/
theorem trainRetry_heard : ¬(¬d.linkable l ∨ d.linkUp l) := by
  simp [hlink, hdown]

/-- The training that ran out of time begins again; a retraining has failed once more. -/
theorem gwlTrainRetry_of_early (hearly : (d.link l).retrain = false ∨ (d.link l).fails = 0) :
    gwlTrainRetry l d = (d.setF (F.GWL_LSTAT_STATE l) 1).setLink l
      { d.link l with train := none, fails := (d.link l).fails + Bool.nat (d.link l).retrain } := by
  have hnot : ¬((d.link l).retrain = true ∧ 1 ≤ (d.link l).fails) := by
    rintro ⟨hagain, hfails⟩
    rcases hearly with h | h
    · exact Bool.eq_false_iff.mp h hagain
    · omega
  exact (if_neg (trainRetry_heard hlink hdown)).trans (if_neg hnot)

/-- The second failed retraining in a row ends the link. -/
theorem gwlTrainRetry_of_failed (hagain : (d.link l).retrain = true) (hfails : 1 ≤ (d.link l).fails) :
    gwlTrainRetry l d = d.declareDown l :=
  (if_neg (trainRetry_heard hlink hdown)).trans (if_pos ⟨hagain, hfails⟩)

end

end

/-! ### Frames (R184, R185, R191) -/

section
variable {f : GwlFrame} (hup : d.linkUp l = true) (hhunt : (d.link l).hunting = false)
include hup hhunt

/-- A link that is up and does not hunt takes a frame. -/
theorem frame_heard : ¬(¬d.linkUp l ∨ (d.link l).hunting) := by
  simp [hup, hhunt]

/-- A frame that fails a common check is dropped by its cause; without a good header and length the receiver no longer knows where frames
begin, and hunts. -/
theorem Dev.receive_of_fault (ty : Nat) (go : Dev → Dev) {k : Nat} (hfault : frameFault f = some k) {x : Dev} (hx : x = d.dropFrame l k) :
    d.receive l ty f go = if headOk f = true ∧ f.lenOk = true then x else x.setLink l { x.link l with hunting := true } := by
  subst hx
  unfold Dev.receive
  rw [if_neg (frame_heard hup hhunt), hfault]
  by_cases hgood : headOk f = true ∧ f.lenOk = true
  · exact (if_neg (not_or.mpr (hgood.imp not_not_intro not_not_intro))).trans (if_pos hgood).symm
  · exact (if_pos (not_and_or.mp hgood)).trans (if_neg hgood).symm

section
variable (hsound : frameFault f = none)
include hsound

/-- A frame that passes the common checks goes on to what its TYPE does. -/
theorem Dev.receive_of_sound {ty : Nat} (hty : f.ty = ty) (go : Dev → Dev) : d.receive l ty f go = go d := by
  unfold Dev.receive
  rw [if_neg (frame_heard hup hhunt), hsound]
  exact if_pos hty

section
variable (hty : f.ty = 0)
include hty

theorem gwlDataFrame_of_expected (hseq : f.seq % 65536 = (d.link l).expect) {x y : Dev} (hx : x = (d.frameIn l f).lcount l 1 1)
    (hy : y = (x.setLink l { x.link l with
      expect := ((x.link l).expect + 1) % 65536, nak := false, heldAck := (x.link l).heldAck + 1,
      owe := AMap.set 0 f.vc (AMap.get 0 f.vc (x.link l).owe + f.len) (x.link l).owe }).gwlDeliver l f) :
    gwlDataFrame l f d = if 16 ≤ (y.link l).heldAck then y.sendFrame l 1 else y := by
  subst hy hx
  exact (Dev.receive_of_sound hup hhunt hsound hty _).trans (if_pos hseq)

section
variable (hseq : f.seq % 65536 ≠ (d.link l).expect)
include hseq

theorem gwlDataFrame_of_seen (hseen : seq16 (d.link l).expect f.seq ≤ 512) :
    gwlDataFrame l f d = ((d.frameIn l f).lcount l 5 1).sendFrame l 1 :=
  (Dev.receive_of_sound hup hhunt hsound hty _).trans ((if_neg hseq).trans (if_pos hseen))

theorem gwlDataFrame_of_ahead (hahead : 512 < seq16 (d.link l).expect f.seq) : gwlDataFrame l f d = d.dropFrame l 5 :=
  (Dev.receive_of_sound hup hhunt hsound hty _).trans ((if_neg hseq).trans (if_neg (not_le_of_gt hahead)))

end

end

end

end

/-- An advance of a member's counter makes the member reachable. -/
theorem Dev.hear_of_newer {i v : Nat} (hother : i ≠ d.self) (hnew : 1 ≤ seqDist v (AMap.get 0 i d.gwl.hbc))
    (hnear : seqDist v (AMap.get 0 i d.gwl.hbc) < 2 ^ 31) :
    d.hear i v = ({ d with gwl := { d.gwl with hbc := AMap.set 0 i v d.gwl.hbc, heardAt := AMap.put i d.now d.gwl.heardAt } } : Dev).setF
      F.GWL_SETS_REACH (setMember (d.f F.GWL_SETS_REACH) i true) :=
  if_pos ⟨hother, hnew, hnear⟩

/-! ### Timers and the hunt (R184 to R186) -/

theorem gwlReplayTimeout_of_up (hup : d.linkUp l = true) : gwlReplayTimeout l d = d.replay l :=
  if_pos hup

theorem gwlAckHoldTimeout_of_held (hup : d.linkUp l = true) (hheld : 0 < (d.link l).heldAck) :
    gwlAckHoldTimeout l d = d.sendFrame l 1 :=
  if_pos (by rw [hup, decide_eq_true hheld]; rfl)

theorem gwlLinkTimeout_of_silent (hl : l < 4) (hbusy : d.linkUp l = true ∨ (d.link l).retrain = true) :
    gwlLinkTimeout l d = d.declareDown l := by
  have hheard : ¬(4 ≤ l ∨ ¬(d.linkUp l || (d.link l).retrain) = true) :=
    not_or.mpr ⟨not_le_of_gt hl, not_not_intro (Bool.or_eq_true_iff.mpr hbusy)⟩
  exact if_neg hheard

section
variable (hup : d.linkUp l = true)
include hup

theorem gwlFrameHunt_of_found : gwlFrameHunt l true d = d.setLink l { d.link l with hunting := false } :=
  if_neg (not_not_intro hup)

/-- The hunt begins with a NAK unless one is out already. -/
theorem gwlFrameHunt_of_lost :
    gwlFrameHunt l false d = if (d.link l).nak = true then d.setLink l { d.link l with hunting := true, nak := true, naks := (d.link l).naks }
      else (d.setLink l { d.link l with hunting := true, nak := true, naks := satAdd 32 (d.link l).naks 1 }).sendFrame l 2 := by
  unfold gwlFrameHunt
  rw [if_neg (not_not_intro hup)]
  cases h : (d.link l).nak <;> simp [h]

end

end

/-- Settles O41: a training command goes by what the peer said, a frame by the common checks, its TYPE and its SEQ, and a timer by the
link's state. -/
theorem gorwastaLinksComplete : Obligations.GorwastaLinksComplete :=
  ⟨fun _ _ x4 reversed hs hlink hstate hok hfirst =>
      effects_run rfl hs ⟨_, _, rfl, rfl, gwlLinkUp_of_agreed hlink hstate x4 reversed hok hfirst rfl rfl⟩,
   fun _ _ x4 reversed hs hlink hstate hok hagain =>
      effects_run rfl hs ⟨_, _, rfl, rfl, gwlLinkUp_of_retrained hlink hstate x4 reversed hok hagain rfl rfl⟩,
   fun _ _ x4 reversed hs hlink hstate hbad => effects_run rfl hs (gwlLinkUp_of_disagreed hlink hstate x4 reversed hbad),
   fun _ _ hs hlink hdown hearly => effects_run rfl hs (gwlTrainRetry_of_early hlink hdown hearly),
   fun _ _ hs hlink hdown hagain hfails => effects_run rfl hs (gwlTrainRetry_of_failed hlink hdown hagain hfails),
   fun _ _ _ _ _ _ _ hs hlink hstate hx hok => effects_run rfl hs (gwlTrainFrame_of_agreed hlink hstate hx hok),
   fun _ _ _ _ _ _ _ hs hlink hstate hx hbad => effects_run rfl hs (gwlTrainFrame_of_disagreed hlink hstate hx hbad),
   fun _ _ _ hs hup hhunt hsound hty hseq =>
      effects_run rfl hs ⟨_, _, rfl, rfl, gwlDataFrame_of_expected hup hhunt hsound hty hseq rfl rfl⟩,
   fun _ _ _ hs hup hhunt hsound hty hseq hseen => effects_run rfl hs (gwlDataFrame_of_seen hup hhunt hsound hty hseq hseen),
   fun _ _ _ hs hup hhunt hsound hty hseq hahead => effects_run rfl hs (gwlDataFrame_of_ahead hup hhunt hsound hty hseq hahead),
   fun _ _ _ _ hs hup hhunt hfault => effects_run rfl hs ⟨_, rfl, Dev.receive_of_fault hup hhunt 0 _ hfault rfl⟩,
   fun _ _ _ hs hup hhunt hsound hty => effects_run rfl hs (Dev.receive_of_sound hup hhunt hsound hty _),
   fun _ _ _ _ hs hup hhunt hfault => effects_run rfl hs ⟨_, rfl, Dev.receive_of_fault hup hhunt 1 _ hfault rfl⟩,
   fun _ _ _ hs hup hhunt hsound hty => effects_run rfl hs (Dev.receive_of_sound hup hhunt hsound hty _),
   fun _ _ _ _ hs hup hhunt hfault => effects_run rfl hs ⟨_, rfl, Dev.receive_of_fault hup hhunt 2 _ hfault rfl⟩,
   fun _ _ _ hs hup hhunt hsound hty => effects_run rfl hs ⟨_, rfl, Dev.receive_of_sound hup hhunt hsound hty _⟩,
   fun _ _ _ hother hnew hnear => Dev.hear_of_newer hother hnew hnear,
   fun _ _ _ _ hs hup hhunt hfault => effects_run rfl hs ⟨_, rfl, Dev.receive_of_fault hup hhunt 3 _ hfault rfl⟩,
   fun _ _ hs hup => effects_run rfl hs (gwlReplayTimeout_of_up hup),
   fun _ _ hs hup hheld => effects_run rfl hs (gwlAckHoldTimeout_of_held hup hheld),
   fun _ _ hs hl hbusy => effects_run rfl hs ⟨_, rfl, gwlLinkTimeout_of_silent hl hbusy⟩,
   fun _ _ hs hup => effects_run rfl hs (gwlFrameHunt_of_found hup),
   fun _ _ hs hup hnak => effects_run rfl hs ((gwlFrameHunt_of_lost hup).trans (if_neg (Bool.eq_false_iff.mp hnak))),
   fun _ _ hs hup hnak => effects_run rfl hs ((gwlFrameHunt_of_lost hup).trans (if_pos hnak))⟩

end Sys2Proof.Machine
end

section
/-! PROOFS. The cluster: heartbeats and views, forwarded chunks, shares, transactions, their journal, rejoin and the anchor (R191, R192,
R195, R197 to R199, R201, R203, R204). -/

namespace Sys2Proof.Machine

/-! ### What an operation that may not happen leaves -/

/-- `getD` as the branch on whether there is a value. -/
theorem getD_eq_match (o : Option Dev) (x : Dev) : o.getD x = match o with
    | some y => y
    | none => x := by
  cases o with
  | none => rfl
  | some y => rfl

/-- A guard on there being no value, with the value taken after it, is the branch on the value. -/
theorem ite_isNone_getD (r x : Dev) (go : Dev → Dev) (o : Option Dev) : (if o.isNone then r else go (o.getD x)) = match o with
    | none => r
    | some y => go y := by
  cases o with
  | none => rfl
  | some y => rfl

section
variable {d : Dev}

/-! ### Heartbeats and views (R191, R192) -/

theorem heartbeatPeriod_of_member (hcluster : d.flag F.GWL_ID_CLUSTER = true) {x : Dev}
    (hx : x = { d with gwl := { d.gwl with
      hbc := AMap.set 0 d.self ((AMap.get 0 d.self d.gwl.hbc + 1) % 2 ^ 32) d.gwl.hbc } }) :
    heartbeatPeriod d = ((List.range 4).filter x.linkUp).foldl (fun (y : Dev) l => y.sendRaw l 3 x.hbFlit) x := by
  subst hx
  exact if_pos hcluster

theorem memberLost_of_silent {i : Nat} (hreach : bit (d.f F.GWL_SETS_REACH) i = true) (hother : i ≠ d.self)
    (hmiss : AMap.get 0 i d.gwl.heardAt + d.f F.GWL_HB_MISS ≤ d.now) :
    memberLost i d = d.setF F.GWL_SETS_REACH (setMember (d.f F.GWL_SETS_REACH) i false) := by
  have hsilent : (bit (d.f F.GWL_SETS_REACH) i && i != d.self &&
      decide (AMap.get 0 i d.gwl.heardAt + d.f F.GWL_HB_MISS ≤ d.now)) = true := by
    rw [hreach, bne_iff_ne.mpr hother, decide_eq_true hmiss]
    rfl
  exact if_pos hsilent

/-- A reachable set that differs from the view becomes the next view. -/
theorem viewChange_of_changed (fresh : Nat) (hcluster : d.flag F.GWL_ID_CLUSTER = true) {new : Nat}
    (hnew : new = setMember (d.f F.GWL_SETS_REACH) d.self true) (hchanged : new ≠ d.f F.GWL_SETS_VIEWSET) {lost back : List Nat}
    (hlost : lost = (List.range 8).filter (fun i => bit (d.f F.GWL_SETS_VIEWSET) i && !bit new i))
    (hback : back = (List.range 8).filter (fun i => bit new i && !bit (d.f F.GWL_SETS_VIEWSET) i)) {x y z : Dev}
    (hx : x = ((d.setF F.GWL_SETS_VIEWSET new).setF F.GWL_VIEW_VIEW
      ((((d.gwl.heard.filter (fun h => bit new h.1)).map (fun h => h.2.view)).foldl max (d.f F.GWL_VIEW_VIEW)) + 1)).raise 0x1CB noPlot [])
    (hy : y = lost.foldl (fun (a : Dev) i => a.raise 0x1C9 noPlot [i]) x)
    (hz : z = (back.filter (fun i => i != d.self)).foldl (fun (a : Dev) i => a.raise 0x1CA noPlot [i]) y) :
    viewChange fresh d =
      ((z.decideQuorum.startResync ((back.map (fun i => if i = d.self then 0 else 2 ^ i)).sum) fresh).redirect lost d.owner).grantAll := by
  have hguard : ¬(¬d.flag F.GWL_ID_CLUSTER = true ∨ setMember (d.f F.GWL_SETS_REACH) d.self true = d.view) :=
    not_or.mpr ⟨not_not_intro hcluster, hnew ▸ hchanged⟩
  subst hz hy hx hback hlost hnew
  exact if_neg hguard

/-! ### Forwarded chunks (R197) -/

section
variable {nsid : Nat} {n : Ns} {g : ClusterGeom} (hns : d.cns? nsid = some (n, g))
include hns

section
variable (src r j tag : Nat)

/-- What this member asked of itself is taken at once. -/
theorem Dev.answerChunk_own (v : Option Nat) :
    d.answerChunk d.self nsid r j tag v = (d.takeChunk n r j tag v).getD d.discard := by
  unfold Dev.answerChunk
  rw [if_pos rfl, hns]

section
variable {j} (hj : j < g.k + g.m)
include hj

/-- A read of a chunk is answered with the chunk, or with its loss where this member does not hold it sound. -/
theorem chunkForward_of_read : chunkForward src nsid r j tag false d = d.answerChunk src nsid r j tag
    (if d.holder r j ≠ d.self ∨ d.clu.marked.contains (chunkKey nsid r j) = true then none else some (d.chunk nsid r j)) := by
  unfold chunkForward
  rw [hns]
  dsimp only
  rw [if_neg (not_le_of_gt hj), if_neg Bool.false_ne_true]
  exact (apply_ite (d.answerChunk src nsid r j tag) ..).symm

theorem chunkForward_of_far {src : Nat} (hfar : src ≠ d.self) : chunkForward src nsid r j tag false d = d.sendTo
    { dst := src, kind := .result, tag := tag, nsid := nsid, stripe := r, tseq := 0, lead := src,
      vals := if d.holder r j ≠ d.self ∨ d.clu.marked.contains (chunkKey nsid r j) = true then [] else [(j, d.chunk nsid r j)] } := by
  rw [chunkForward_of_read hns src r tag hj]
  unfold Dev.answerChunk
  rw [if_neg hfar]
  split
  · rfl
  · rfl

theorem chunkForward_of_own (hheld : d.holder r j = d.self) : chunkForward d.self nsid r j tag false d =
    (d.takeChunk n r j tag (if d.clu.marked.contains (chunkKey nsid r j) = true then none else some (d.chunk nsid r j))).getD d.discard := by
  rw [chunkForward_of_read hns d.self r tag hj, Dev.answerChunk_own hns r j tag]
  simp only [hheld, ne_eq, not_true_eq_false, false_or]

theorem chunkForward_of_rebuild : chunkForward src nsid r j tag true d = d.rebuildFor g src nsid r j tag := by
  unfold chunkForward
  rw [hns]
  exact (if_neg (not_le_of_gt hj)).trans (if_pos rfl)

end

theorem chunkResult_of_gathering (v : Option Nat) {x : Gather}
    (hgather : d.gwl.gathers.find? (fun x => x.tag == tag && x.nsid == nsid && x.stripe == r && x.asked.contains j) = some x) :
    chunkResult src nsid r j tag v d = d.gatherTake n g x j v := by
  unfold chunkResult
  rw [hns]
  dsimp only
  rw [hgather]

section
variable (hgather : d.gwl.gathers.find? (fun x => x.tag == tag && x.nsid == nsid && x.stripe == r && x.asked.contains j) = none)
include hgather

/-- The holder's own report of a loss that a read waits for goes to the stripe owner, which rebuilds. -/
theorem chunkResult_of_lost {src : Nat} (hholder : src = d.holder r j) (howner : d.owner g r ≠ src)
    (hwaits : d.gwl.reads.any (fun x => x.tag == tag && x.nsid == nsid &&
      x.parts.any (fun p => p.stripe == r && p.chunk == j && p.data.isNone)) = true) :
    chunkResult src nsid r j tag none d = d.askOwner g nsid r j tag := by
  unfold chunkResult
  rw [hns]
  dsimp only
  rw [hgather]
  exact if_pos ⟨rfl, hholder, howner, hwaits⟩

/-- Any other result goes to the reads of its tag, or is late. -/
theorem chunkResult_of_taken {v : Option Nat}
    (hother : v ≠ none ∨ src ≠ d.holder r j ∨ d.owner g r = src ∨ d.gwl.reads.any (fun x => x.tag == tag && x.nsid == nsid &&
      x.parts.any (fun p => p.stripe == r && p.chunk == j && p.data.isNone)) = false) :
    chunkResult src nsid r j tag v d = (d.takeChunk n r j tag v).getD d.discard := by
  unfold chunkResult
  rw [hns]
  dsimp only
  rw [hgather]
  refine if_neg ?_
  rintro ⟨hnone, hholder, howner, hwaits⟩
  rcases hother with h | h | h | h
  · exact h hnone
  · exact h hholder
  · exact howner h
  · exact Bool.eq_false_iff.mp h hwaits

end

end

end

/-! ### Shares (R195) -/

section
variable {geom : Nat} {g : ClusterGeom} (hgeom : geomOf geom = some g) (src nsid nsze lbaf iu pi : Nat) (ext : Bool)
include hgeom

theorem clusterShareReserve_of_deleted (hshared : 769 ≤ nsid) :
    clusterShareReserve src nsid 0 geom lbaf iu pi ext true d = d.deleteNs nsid := by
  unfold clusterShareReserve
  rw [hgeom]
  exact (if_pos rfl).trans ((if_pos rfl).trans (if_pos hshared))

section
variable {n : Ns} (hn : n = {
  nsid := nsid, nsze := nsze, ncap := nsze, lbaf := lbaf, iu := iu, pi := pi, ext := ext, comp := 0, attached := [],
  shared := true, epoch := 0, test := false, resv := Resv.init, cluster := some g })
include hn

/-- A share is refused where the namespace exists, its number is no cluster namespace's, or the map or the flash has no room for it. -/
theorem clusterShareReserve_of_asked :
    clusterShareReserve src nsid nsze geom lbaf iu pi ext false d =
      if (d.ns? nsid).isSome = true ∨ ¬(769 ≤ nsid ∧ nsid ≤ 1024) ∨ d.mapFree < d.nsMap n ∨ d.capFits n = false then
        d.sendTo { dst := src, kind := .refused, nsid := nsid, stripe := 0, tseq := 0, lead := src, vals := [] }
      else ({ d with gwl := { d.gwl with reserved := d.gwl.reserved ++ [(nsid, nsze, geom, lbaf, iu)] } } : Dev).sendTo
        { dst := src, kind := .reserved, nsid := nsid, stripe := 0, tseq := 0, lead := src, vals := [] } := by
  subst hn
  unfold clusterShareReserve
  rw [hgeom]
  exact if_neg Bool.false_ne_true

theorem clusterShareReserve_of_accepted (hsize : nsze ≠ 0) (hreserved : d.gwl.reserved.contains (nsid, nsze, geom, lbaf, iu) = true) :
    clusterShareReserve src nsid nsze geom lbaf iu pi ext true d = ({ d with
      gwl := { d.gwl with reserved := d.gwl.reserved.filter (fun x => x.1 != nsid) }
      md := { d.md with nss := d.md.nss ++ [n] } } : Dev).mapShow := by
  subst hn
  unfold clusterShareReserve
  rw [hgeom]
  exact (if_pos rfl).trans ((if_neg hsize).trans (if_pos hreserved))

end

end

/-! ### Locks and prepared chunks (R198, R200) -/

/-- A chunk of the stripe that this member holds passes the guard of PREPARE. -/
theorem prepare_heard {r j : Nat} {g : ClusterGeom} (hheld : d.holder r j = d.self) (hj : j < g.k + g.m) :
    ¬(d.holder r j ≠ d.self ∨ g.k + g.m ≤ j) :=
  not_or.mpr ⟨not_not_intro hheld, not_le_of_gt hj⟩

section
variable {nsid r : Nat} {n : Ns} {g : ClusterGeom} (hns : d.cns? nsid = some (n, g))
include hns

/-- A request that the owner does not know yet queues for its stripe, and is granted where it is the only one. -/
theorem stripeLock_of_new {lead tseq : Nat} (recv : Nat) (peer : Option Nat) (parts : List (Nat × Nat × Nat))
    (howner : d.owner g r = d.self) (hnew : d.gwl.txs.any (fun x => x.tseq == tseq && x.lead == lead && x.stripe == r) = false)
    {ps : List CPart}
    (hps : ps = match d.gwl.writes.flatMap (fun w => w.reqs.filter (fun q => q.tseq == tseq && q.lead == lead && lead == d.self)) with
      | q :: _ => q.parts.filter (fun p => p.stripe == r)
      | [] => parts.map (fun p => { stripe := r, chunk := p.1, blk := p.2.1, data := some p.2.2, bad := false })) {x : Dev}
    (hx : x = { d with gwl := { d.gwl with txs := d.gwl.txs ++ [{
      tseq := tseq, lead := lead, nsid := nsid, stripe := r, peer := peer, recv := recv, parts := ps, olds := [], granted := false,
      need := [], delta := [], qWait := false, ready := false, peerReady := peer.isNone || lead != d.self }] } }) :
    stripeLock lead tseq nsid r recv peer parts d =
      if d.gwl.txs.any (fun y => y.nsid == nsid && y.stripe == r) = true then x else x.grantLock nsid r := by
  have hguard : ¬(d.owner g r ≠ d.self ∨ d.gwl.txs.any (fun x => x.tseq == tseq && x.lead == lead && x.stripe == r) = true) :=
    not_or.mpr ⟨not_not_intro howner, Bool.eq_false_iff.mp hnew⟩
  subst hx hps
  unfold stripeLock
  rw [hns]
  exact if_neg hguard

section
variable (src lead tseq : Nat) {j : Nat} (parts : List (Nat × Nat)) (delta : Option Nat) (hheld : d.holder r j = d.self)
  (hj : j < g.k + g.m)
include hheld hj

/-- The new content goes under a prepared record, and the change of content to who asked; without room nothing happens yet. -/
theorem prepare_of_writable (hcro : d.flag F.TOP_MODE_CRO = false) {new : Nat}
    (hnew : new = match delta with
      | some x => Nat.xor (d.chunk nsid r j) x
      | none => mergeParts (lbaBytes n.lbaf) (d.chunk nsid r j)
          (parts.map (fun p => { stripe := r, chunk := j, blk := p.1, data := some p.2, bad := false }))) :
    prepare src lead tseq nsid r j parts delta d =
      match d.prep { lead := lead, tseq := tseq, nsid := nsid, stripe := r, chunk := j, data := new } with
      | some y => y.sendTo {
          dst := src, kind := .prepared, nsid := nsid, stripe := r, tseq := tseq, lead := lead,
          vals := [(j, Nat.xor (d.chunk nsid r j) new)] }
      | none => d := by
  subst hnew
  unfold prepare
  rw [hns]
  exact (if_neg (prepare_heard hheld hj)).trans (if_neg (Bool.eq_false_iff.mp hcro))

theorem prepare_of_readOnly (hcro : d.flag F.TOP_MODE_CRO = true) : prepare src lead tseq nsid r j parts delta d = d.sendTo
    { dst := src, kind := .refusal, nsid := nsid, stripe := r, tseq := tseq, lead := lead, vals := [(j, 0)] } := by
  unfold prepare
  rw [hns]
  exact (if_neg (prepare_heard hheld hj)).trans (if_pos hcro)

end

end

/-- With every chunk prepared that was asked for, a transaction does not wait. -/
theorem CTx.not_waiting {t : CTx} (hneed : t.need = []) (hq : t.qWait = false) : ¬(¬t.need.isEmpty ∨ t.qWait) :=
  not_or.mpr ⟨not_not_intro (List.isEmpty_iff.mpr hneed), Bool.eq_false_iff.mp hq⟩

/-- The owner's work after P, which left `y` of the part `d`: the change of Q goes to its holder where that is in view, and otherwise the
owner's side is ready. -/
def Dev.afterP (d : Dev) (lead tseq : Nat) (g : ClusterGeom) (t : CTx) (y : Dev) : Dev :=
  if g.m = 2 ∧ d.inView (d.holder t.stripe (g.k + 1)) = true then
    (y.setTx { t with qWait := true }).sendTo {
      dst := d.holder t.stripe (g.k + 1), kind := .prepareDelta, nsid := t.nsid, stripe := t.stripe, tseq := tseq, lead := lead,
      vals := [(g.k + 1, chunkQ t.delta)] }
  else (y.setTx { t with ready := true }).txStep { t with ready := true }

/-- P of a transaction, prepared where this member holds it; `none` without room. -/
def Dev.prepareP (d : Dev) (lead tseq : Nat) (g : ClusterGeom) (t : CTx) : Option Dev :=
  if (d.holder t.stripe g.k == d.self) = true then d.prep {
    lead := lead, tseq := tseq, nsid := t.nsid, stripe := t.stripe, chunk := g.k,
    data := Nat.xor (d.chunk t.nsid t.stripe g.k) (chunkP t.delta) }
  else some d

/-- The owner's parity of a transaction whose data chunks are all prepared: P, then the rest. Without room for P the transaction waits. -/
def Dev.prepareParity (d : Dev) (lead tseq : Nat) (g : ClusterGeom) (t : CTx) : Dev :=
  match d.prepareP lead tseq g t with
  | none => d
  | some y => d.afterP lead tseq g t y

section
variable {lead tseq : Nat} {t : CTx} (htx : d.tx? lead tseq = some t)

section
variable {n : Ns} {g : ClusterGeom} (hns : d.cns? t.nsid = some (n, g))

include htx hns

theorem prepared_of_refused (j delta : Nat) : prepared lead tseq j delta false d = d.abortTx t .namespaceWriteProtected := by
  unfold prepared
  rw [htx]
  dsimp only
  rw [hns]
  exact if_pos Bool.false_ne_true

theorem prepared_of_participant (delta : Nat) :
    prepared lead tseq 0xFF delta true d = (d.setTx { t with peerReady := true }).txStep { t with peerReady := true } := by
  unfold prepared
  rw [htx]
  dsimp only
  rw [hns]
  exact (if_neg (not_not_intro rfl)).trans (if_pos rfl)

section
variable {j delta : Nat} (hj : j ≠ 0xFF) {t1 : CTx}
  (ht1 : t1 = { t with
    need := NSet.del j t.need, delta := if j < g.k then t.delta ++ [(j, delta)] else t.delta, qWait := t.qWait && j != g.k + 1 })
include hj ht1

/-- A member's chunk is prepared: the transaction waits for the others, goes on to the parity after the last data chunk, or is ready. -/
theorem prepared_of_member : prepared lead tseq j delta true d =
    if ¬t1.need.isEmpty ∨ t1.qWait then d.setTx t1
    else if j < g.k ∨ t.need.isEmpty = false then d.prepareParity lead tseq g t1
    else (d.setTx { t1 with ready := true }).txStep { t1 with ready := true } := by
  have hparity := ite_isNone_getD d d (d.afterP lead tseq g t1) (d.prepareP lead tseq g t1)
  subst ht1
  unfold prepared
  rw [htx]
  dsimp only
  rw [hns]
  dsimp only
  rw [if_neg (not_not_intro rfl), if_neg hj]
  exact ite_congr rfl (fun _ => rfl) fun _ => ite_congr rfl (fun _ => hparity) fun _ => rfl

theorem prepared_of_waiting (hwaits : t1.need ≠ [] ∨ t1.qWait = true) : prepared lead tseq j delta true d = d.setTx t1 :=
  (prepared_of_member htx hns hj ht1).trans (if_pos (hwaits.imp_left (mt List.isEmpty_iff.mp)))

section
variable (hneed : t1.need = []) (hq : t1.qWait = false)
include hneed hq

theorem prepared_of_lastData (hdata : j < g.k ∨ t.need.isEmpty = false) :
    prepared lead tseq j delta true d = d.prepareParity lead tseq g t1 :=
  (prepared_of_member htx hns hj ht1).trans ((if_neg (CTx.not_waiting hneed hq)).trans (if_pos hdata))

theorem prepared_of_lastParity (hparity : g.k ≤ j) (hold : t.need = []) :
    prepared lead tseq j delta true d = (d.setTx { t1 with ready := true }).txStep { t1 with ready := true } := by
  have hlast : ¬(j < g.k ∨ t.need.isEmpty = false) := by
    rw [hold]
    exact not_or.mpr ⟨not_lt_of_ge hparity, nofun⟩
  exact (prepared_of_member htx hns hj ht1).trans ((if_neg (CTx.not_waiting hneed hq)).trans (if_neg hlast))

end

end

end

/-! ### Entries and decisions (R198, R199) -/

section
variable {x : CEntry} (hentry : d.clu.own.find? (fun (x : CEntry) => x.tseq == tseq && x.lead == lead) = some x)
include htx hentry

/-- The mirrored COMMIT entry of the lead is the decision. -/
theorem mirrorAck_of_decided {st : Nat} (hlead : lead = d.self) (hst : st = 3) (hcommit : x.state = 3) :
    mirrorAck lead tseq st d = (d.tellTx t .commit).settle lead tseq true := by
  unfold mirrorAck
  rw [htx, hentry]
  exact if_pos ⟨hlead, hst, hcommit⟩

theorem transactionDone_of_lead (hlead : lead = d.self) (hcommit : x.state = 3) {y : Dev}
    (hy : y = ((t.peer.toList ++ [t.recv]).eraseDups.filter (fun i => i != d.self)).foldl (fun (z : Dev) i =>
      z.sendTo { dst := i, kind := .done, nsid := t.nsid, stripe := t.stripe, tseq := tseq, lead := lead, vals := [] })
      ((d.freeEntry lead tseq).unlock lead tseq)) :
    transactionDone lead tseq d = if t.recv = d.self then y.txEnd lead tseq .success else y := by
  subst hy
  unfold transactionDone
  rw [htx, hentry]
  exact (if_neg (not_not_intro hlead)).trans (if_neg (not_not_intro hcommit))

section
variable (hlead : lead ≠ d.self)
include hlead

/-- The participant of a transaction takes the lead's COMMIT into its own entry and passes it on. -/
theorem clusterCommit_of_participant (src : Nat) :
    clusterCommit src lead tseq d = (((d.settle lead tseq true).putEntry { x with state := 3 }).tellTx t .commit).sendTo
      { dst := src, kind := .committed, nsid := 0, stripe := 0, tseq := tseq, lead := lead, vals := [] } := by
  unfold clusterCommit
  rw [htx, hentry]
  exact congrArg (fun e : Dev => e.sendTo _) (if_neg hlead)

theorem transactionDone_of_participant {y : Dev} (hy : y = (d.freeEntry lead tseq).unlock lead tseq) :
    transactionDone lead tseq d =
      if y.gwl.writes.any (fun w => w.reqs.any (fun q => q.tseq == tseq && q.lead == lead)) = true then y.txEnd lead tseq .success else y := by
  subst hy
  unfold transactionDone
  rw [htx, hentry]
  exact if_pos hlead

end

end

theorem clusterAbort_of_participant (htx : d.tx? lead tseq = some t) (hlead : lead ≠ d.self) :
    clusterAbort lead tseq d = (((d.settle lead tseq false).tellTx t .abort).freeEntry lead tseq).unlock lead tseq := by
  unfold clusterAbort
  rw [htx]
  exact if_neg hlead

end

section
variable {lead tseq : Nat}

theorem mirrorAck_of_other {st : Nat} (h : lead ≠ d.self ∨ st ≠ 3) : mirrorAck lead tseq st d = d := by
  unfold mirrorAck
  split
  · exact if_neg fun ⟨hlead, hst, _⟩ => h.elim (· hlead) (· hst)
  · rfl

/-- A member that is no participant of the transaction only makes its prepared chunks live. -/
theorem clusterCommit_of_member (src : Nat)
    (h : d.tx? lead tseq = none ∨ d.clu.own.find? (fun (x : CEntry) => x.tseq == tseq && x.lead == lead) = none ∨ lead = d.self) :
    clusterCommit src lead tseq d = (d.settle lead tseq true).sendTo
      { dst := src, kind := .committed, nsid := 0, stripe := 0, tseq := tseq, lead := lead, vals := [] } := by
  unfold clusterCommit
  refine congrArg (fun e : Dev => e.sendTo _) ?_
  split
  next t x htx hentry =>
    rcases h with h | h | h
    · rw [htx] at h; cases h
    · rw [hentry] at h; cases h
    · exact if_pos h
  next => rfl

section
variable (htx : d.tx? lead tseq = none)
include htx

theorem clusterAbort_of_receiver : clusterAbort lead tseq d = (d.settle lead tseq false).txEnd lead tseq .namespaceWriteProtected := by
  unfold clusterAbort
  rw [htx]

theorem transactionDone_of_receiver (hlead : lead ≠ d.self) : transactionDone lead tseq d = d.txEnd lead tseq .success := by
  unfold transactionDone
  rw [htx]
  exact if_neg hlead

end

end

/-- An entry that is freed, or that finds room, is stored and acknowledged. -/
theorem mirrorEntry_of_room {x : CEntry} {rest : List CEntry}
    (hrest : rest = d.clu.mirror.filter (fun y => !(y.owner == x.owner && y.tseq == x.tseq && y.lead == x.lead)))
    (hroom : x.state = 0 ∨ rest.length < 65280) :
    mirrorEntry x d =
      (({ d with clu := { d.clu with mirror := if x.state = 0 then rest else rest ++ [entrySeal x] } } : Dev).cjShow).sendTo
        { dst := x.owner, kind := .mirrorAck, nsid := x.nsid, stripe := x.stripe, tseq := x.tseq, lead := x.lead,
          vals := [(0, x.state)] } := by
  have hfull : ¬(x.state ≠ 0 ∧ 65280 ≤ rest.length) := by omega
  subst hrest
  exact if_neg hfull

/-! ### Restart and decisions (R201) -/

section
variable (src : Nat) {lead tseq : Nat} (lost : List (Nat × Nat)) {es : List CEntry}
  (hes : es = (d.clu.own ++ d.clu.mirror).filter (fun x => entryUsed x && x.lead == lead && x.tseq == tseq))
include hes

theorem decisionQuery_of_committed (hcommit : es.any (fun x => x.state == 3) = true) :
    decisionQuery src lead tseq lost d =
      (d.sendTo { dst := src, kind := .commit, nsid := 0, stripe := 0, tseq := tseq, lead := lead, vals := [] }).loseStripes lost := by
  subst hes
  exact congrArg (fun e : Dev => e.loseStripes lost) (if_pos hcommit)

section
variable (hcommit : es.any (fun x => x.state == 3) = false)
include hcommit

/-- A participant that does not know the decision asks the lead. -/
theorem decisionQuery_of_prepared {x : CEntry} (hentry : es.find? (fun x => x.state == 2 && x.owner == d.self) = some x) :
    decisionQuery src lead tseq lost d = (d.ask lead x.nsid x.stripe tseq lead).loseStripes lost := by
  subst hes
  unfold decisionQuery
  dsimp only
  rw [if_neg (Bool.eq_false_iff.mp hcommit), hentry]

/-- Anything else is an abort, which a lead that has not decided carries out so that its answer stays true. -/
theorem decisionQuery_of_undecided (hentry : es.find? (fun x => x.state == 2 && x.owner == d.self) = none) :
    decisionQuery src lead tseq lost d =
      ((match d.tx? lead tseq with
        | some t => if lead = d.self then d.abortTx t .internalError else d
        | none => d).sendTo
        { dst := src, kind := .abort, nsid := 0, stripe := 0, tseq := tseq, lead := lead, vals := [] }).loseStripes lost := by
  subst hes
  unfold decisionQuery
  dsimp only
  rw [if_neg (Bool.eq_false_iff.mp hcommit), hentry]
  cases d.tx? lead tseq with
  | none => rfl
  | some t => rfl

end

end

/-! ### Rejoin (R203) -/

section
variable {owner : Nat} (hother : owner ≠ d.self) (hrejoin : d.gwl.rejoining = true) (nsid r : Nat)
include hother hrejoin

/-- A rejoining member writes the chunks it is sent that it holds. -/
theorem resyncStripe_of_received (recv : List (Nat × Nat)) : resyncStripe owner nsid r recv false d =
    (recv.filter (fun c => d.holder r c.1 == d.self)).foldl (fun (y : Dev) c =>
      match y.writeChunk nsid r c.1 c.2 with
      | some z => z
      | none => y) d := by
  have hstep : (fun (y : Dev) (c : Nat × Nat) => (y.writeChunk nsid r c.1 c.2).getD y) = fun (y : Dev) c =>
      match y.writeChunk nsid r c.1 c.2 with
      | some z => z
      | none => y := funext₂ fun _ _ => getD_eq_match ..
  rw [← hstep]
  exact (if_pos hother).trans ((if_neg (not_not_intro hrejoin)).trans (if_pos Bool.false_ne_true))

/-- The last owner of the view that finishes ends the fenced condition. -/
theorem resyncStripe_of_finished {x : Dev}
    (hx : x = { d with gwl := { d.gwl with finished := NSet.add owner d.gwl.finished } }) :
    resyncStripe owner nsid r [] true d =
      if ((List.range 8).filter (fun i => x.inView i && i != d.self && !bit (x.f F.GWL_SETS_REJSET) i)).all
        (fun i => x.gwl.finished.contains i) = true then x.fenceExit else x := by
  subst hx
  exact (if_pos hother).trans ((if_neg (not_not_intro hrejoin)).trans (if_neg (not_not_intro rfl)))

end

/-- A stripe of a region still to be done, with nothing under way on it, is read for its rejoining members and sent. -/
theorem resyncStripe_of_due {nsid r : Nat} {n : Ns} {g : ClusterGeom} (recv : List (Nat × Nat)) (last : Bool)
    (hns : d.cns? nsid = some (n, g)) (howner : d.owner g r = d.self)
    (htodo : d.gwl.resync.contains (d.region nsid r) = true) (hpause : d.flag F.GWL_RESYNC_PAUSE = false) (hr : r < Dev.stripes n g)
    (hfree : d.gwl.txs.any (fun t => t.nsid == nsid && t.stripe == r) = false)
    (hidle : d.gwl.gathers.any (fun x => x.nsid == nsid && x.stripe == r && x.why == .resync) = false) :
    resyncStripe d.self nsid r recv last d =
      match d.gather g nsid r ((List.range (g.k + g.m)).filter (fun j => bit (d.f F.GWL_SETS_REJSET) (d.holder r j))) .resync with
      | (y, some got) => y.sendStripe n g nsid r got
      | (y, none) => y := by
  have hdue : ¬(¬d.gwl.resync.contains (d.region nsid r) = true ∨ d.flag F.GWL_RESYNC_PAUSE = true ∨ d.owner g r ≠ d.self ∨
      Dev.stripes n g ≤ r ∨ d.gwl.txs.any (fun t => t.nsid == nsid && t.stripe == r) = true ∨
      d.gwl.gathers.any (fun x => x.nsid == nsid && x.stripe == r && x.why == .resync) = true) := by
    simp only [htodo, hpause, howner, hfree, hidle, not_le_of_gt hr, not_true, ne_eq, Bool.false_eq_true, or_self, not_false_eq_true]
  unfold resyncStripe
  rw [if_neg (not_not_intro rfl), hns]
  exact if_neg hdue

end

/-- Settles O42: a command goes by what it finds, the view, the gathering or read of its tag, the reserved share, the transaction with its
entry, or the region that is still to be done. -/
theorem clusterCompletes : Obligations.ClusterCompletes :=
  ⟨fun _ _ hs hcluster hx => effects_run rfl hs (heartbeatPeriod_of_member hcluster hx),
   fun _ _ hs hreach hother hmiss => effects_run rfl hs (memberLost_of_silent hreach hother hmiss),
   fun _ fresh _ hs hcluster hnew hchanged => effects_run rfl hs
      ⟨_, _, _, _, _, rfl, rfl, rfl, rfl, rfl, viewChange_of_changed fresh hcluster hnew hchanged rfl rfl rfl rfl rfl⟩,
   fun _ _ _ r _ tag _ _ hs hns hj hfar => effects_run rfl hs (chunkForward_of_far hns r tag hj hfar),
   fun _ _ _ r _ tag _ _ hs hns hj hself hheld => effects_run rfl hs (hself ▸ (chunkForward_of_own hns r tag hj hheld).trans (getD_eq_match ..)),
   fun _ src _ r _ tag _ _ hs hns hj => effects_run rfl hs (chunkForward_of_rebuild hns src r tag hj),
   fun _ src _ r j tag v _ _ _ hs hns hgather => effects_run rfl hs (chunkResult_of_gathering hns src r j tag v hgather),
   fun _ _ _ r j tag _ _ hs hns hgather hholder howner hwaits =>
      effects_run rfl hs (chunkResult_of_lost hns r j tag hgather hholder howner hwaits),
   fun _ src _ r j tag _ _ _ hs hns hgather hother =>
      effects_run rfl hs ((chunkResult_of_taken hns src r j tag hgather hother).trans (getD_eq_match ..)),
   fun _ src nsid nsze _ lbaf iu pi ext _ _ hs hgeom hn =>
      effects_run rfl hs (clusterShareReserve_of_asked hgeom src nsid nsze lbaf iu pi ext hn),
   fun _ src nsid nsze _ lbaf iu pi ext _ hs hgeom hsize hreserved =>
      effects_run rfl hs (clusterShareReserve_of_accepted hgeom src nsid nsze lbaf iu pi ext rfl hsize hreserved),
   fun _ src nsid _ lbaf iu pi ext _ hs hgeom hshared =>
      effects_run rfl hs (clusterShareReserve_of_deleted hgeom src nsid lbaf iu pi ext hshared),
   fun _ _ _ _ _ recv peer parts _ _ _ hs hns howner hnew hps =>
      effects_run rfl hs ⟨_, rfl, stripeLock_of_new hns recv peer parts howner hnew hps rfl⟩,
   fun _ src lead tseq _ _ _ parts _ _ _ hs hns hheld hj hcro hnew =>
      effects_run rfl hs (prepare_of_writable hns src lead tseq parts none hheld hj hcro hnew),
   fun _ src lead tseq _ _ _ x parts _ _ _ hs hns hheld hj hcro hnew =>
      effects_run rfl hs (prepare_of_writable hns src lead tseq parts (some x) hheld hj hcro hnew),
   fun _ src lead tseq _ _ _ parts delta _ _ hs hns hheld hj hcro =>
      effects_run rfl hs (prepare_of_readOnly hns src lead tseq parts delta hheld hj hcro),
   fun _ _ _ j delta _ _ _ hs htx hns => effects_run rfl hs (prepared_of_refused htx hns j delta),
   fun _ _ _ delta _ _ _ hs htx hns => effects_run rfl hs (prepared_of_participant htx hns delta),
   fun _ _ _ _ _ _ _ _ _ hs htx hns hj ht1 hwaits => effects_run rfl hs (prepared_of_waiting htx hns hj ht1 hwaits),
   fun _ _ _ _ _ _ _ _ _ hs htx hns hj ht1 hneed hq hdata =>
      effects_run rfl hs ((prepared_of_lastData htx hns hj ht1 hneed hq hdata).trans (by subst ht1; rfl)),
   fun _ _ _ _ _ _ _ _ _ hs htx hns hj ht1 hneed hq hparity hold =>
      effects_run rfl hs (prepared_of_lastParity htx hns hj ht1 hneed hq hparity hold),
   fun _ _ _ hs hrest hroom => effects_run rfl hs (mirrorEntry_of_room hrest hroom),
   fun _ _ _ _ _ _ hs htx hentry hlead hst hcommit => effects_run rfl hs (mirrorAck_of_decided htx hentry hlead hst hcommit),
   fun _ _ _ _ hs h => effects_run rfl hs (mirrorAck_of_other h),
   fun _ src _ _ _ _ hs htx hentry hlead => effects_run rfl hs (clusterCommit_of_participant htx hentry hlead src),
   fun _ src _ _ hs h => effects_run rfl hs (clusterCommit_of_member src h),
   fun _ _ _ _ hs htx hlead => effects_run rfl hs (clusterAbort_of_participant htx hlead),
   fun _ _ _ hs htx => effects_run rfl hs (clusterAbort_of_receiver htx),
   fun _ _ _ hs htx hlead => effects_run rfl hs (transactionDone_of_receiver htx hlead),
   fun _ _ _ _ _ _ hs htx hentry hlead hy => effects_run rfl hs (transactionDone_of_participant htx hentry hlead hy),
   fun _ _ _ _ _ hs htx hentry hlead hcommit =>
      effects_run rfl hs ⟨_, rfl, transactionDone_of_lead htx hentry hlead hcommit rfl⟩,
   fun _ _ _ hs => effects_run rfl hs rfl,
   fun _ _ hs => effects_run rfl hs ⟨_, rfl, rfl⟩,
   fun _ src _ _ lost _ hs hes hcommit => effects_run rfl hs (decisionQuery_of_committed src lost hes hcommit),
   fun _ src _ _ lost _ _ hs hes hcommit hentry => effects_run rfl hs (decisionQuery_of_prepared src lost hes hcommit hentry),
   fun _ src _ _ lost _ hs hes hcommit hentry => effects_run rfl hs (decisionQuery_of_undecided src lost hes hcommit hentry),
   fun _ _ nsid r recv hs hother hrejoin => effects_run rfl hs (resyncStripe_of_received hother hrejoin nsid r recv),
   fun _ _ nsid r _ hs hother hrejoin hx => effects_run rfl hs (resyncStripe_of_finished hother hrejoin nsid r hx),
   fun _ _ _ _ recv last _ _ hs hns hself howner htodo hpause hr hfree hidle =>
      effects_run rfl hs (hself ▸ resyncStripe_of_due recv last hns howner htodo hpause hr hfree hidle),
   fun _ _ hs hgood => effects_run rfl hs ⟨_, rfl, if_pos hgood⟩,
   fun _ _ hs hbad => effects_run rfl hs (if_neg (Bool.eq_false_iff.mp hbad))⟩

end Sys2Proof.Machine
end

section
/-! PROOFS. The Trellis: rings with their submissions and acknowledgements, the start of a job, curds under credit, the end of a job and
grafts (R213 to R221, R238). -/

namespace Sys2Proof.Machine

/-! ### Submissions (R218) -/

section
variable {d : Dev} {q r : Nat}

/-- The ring and its quadrant exist: the value goes to the ring. -/
theorem trelRsub_of_ring (hq : d.quadOk q = true) (hr : r < 64) (seq : Nat) :
    trelRsub q r seq d = d.ringSubmit q r (seq % 2 ^ 32) :=
  if_pos (Bool.and_eq_true_iff.mpr ⟨hq, decide_eq_true hr⟩)

theorem Dev.ringSubmit_of_disabled (hen : d.flag (F.TREL_RCTL_EN q r) = false) (v : Nat) : d.ringSubmit q r v = d.ringReject q r 4 :=
  if_pos (Bool.eq_false_iff.mp hen)

variable (hen : d.flag (F.TREL_RCTL_EN q r) = true)
include hen

theorem Dev.ringSubmit_of_stale (hstale : d.flag (F.TREL_RCTL_STALE q r) = true) (v : Nat) :
    d.ringSubmit q r v = (d.ringReject q r 3).raise 0x1F9 (d.f (F.TREL_RCTL_PLOT q r)) [] :=
  (if_neg (not_not_intro hen)).trans (if_pos hstale)

variable {v sub k : Nat} (hfresh : d.flag (F.TREL_RCTL_STALE q r) = false) (hsub : sub = d.f (F.TREL_RSUB_SUB q r))
  (hk : k = seqDist v sub)
include hfresh hsub hk

/-- No new descriptor, or more than the ring has room for. -/
theorem Dev.ringSubmit_of_window (hwin : k = 0 ∨ d.ringE q r - seqDist sub (d.f (F.TREL_RACK_ACK q r)) < k) :
    d.ringSubmit q r v = d.ringReject q r 1 := by
  subst hsub hk
  exact (if_neg (not_not_intro hen)).trans ((if_neg (Bool.eq_false_iff.mp hfresh)).trans (if_pos hwin))

variable (hnew : k ≠ 0) (hroom : k ≤ d.ringE q r - seqDist sub (d.f (F.TREL_RACK_ACK q r)))
include hnew hroom

/-- What is left of a submission in the window is the check of each descriptor's SUBSEQ. -/
theorem Dev.ringSubmit_in_window : d.ringSubmit q r v =
    if ((List.range (min k 4096)).map (fun i => (sub + 1 + i) % 2 ^ 32)).any (fun i => (d.ringDesc q r i).subseq != i)
    then d.ringReject q r 2
    else (d.setF (F.TREL_RSUB_SUB q r) v).setWaits q (d.waits q ++
      ((List.range (min k 4096)).map (fun i => (sub + 1 + i) % 2 ^ 32)).map (fun i => (r, d.ringDesc q r i))) := by
  subst hsub hk
  exact (if_neg (not_not_intro hen)).trans ((if_neg (Bool.eq_false_iff.mp hfresh)).trans
    (if_neg (not_or.mpr ⟨hnew, not_lt_of_ge hroom⟩)))

end

/-! ### Acknowledgements (R219) and the ring control (R216) -/

section
variable {d : Dev} {q r : Nat} (hq : d.quadOk q = true) (hr : r < 64)
include hq hr

/-- An acknowledgement is taken where it moves on by at least one and not past CMPSEQ. -/
theorem trelRack_of_ring (seq : Nat) : trelRack q r seq d =
    if 1 ≤ seqDist (seq % 2 ^ 32) (d.f (F.TREL_RACK_ACK q r)) ∧
        seqDist (seq % 2 ^ 32) (d.f (F.TREL_RACK_ACK q r)) ≤ seqDist (d.f (F.TREL_RCMP_CMPSEQ q r)) (d.f (F.TREL_RACK_ACK q r))
    then d.setF (F.TREL_RACK_ACK q r) (seq % 2 ^ 32) else d.ringReject q r 5 :=
  if_pos (Bool.and_eq_true_iff.mpr ⟨hq, decide_eq_true hr⟩)

theorem ringEnable_of_on (hen : d.flag (F.TREL_RCTL_EN q r) = true) (value : Nat) :
    ringEnable q r value d = if bit value 21 then d else d.setF (F.TREL_RCTL_EN q r) 0 :=
  (if_neg (not_or.mpr ⟨not_not_intro hq, not_le_of_gt hr⟩)).trans (if_pos hen)

/-- A ring that is off takes LOG2E and PLOT, and is then enabled or not. -/
theorem ringEnable_of_off (hen : d.flag (F.TREL_RCTL_EN q r) = false) {value : Nat} {x : Dev}
    (hx : x = (if 4 ≤ bits value 0 4 ∧ bits value 0 4 ≤ 12 then d.setF (F.TREL_RCTL_LOG2E q r) (bits value 0 4) else d).setF
      (F.TREL_RCTL_PLOT q r) (bits value 4 9)) :
    ringEnable q r value d = if bit value 21 then x.ringEnable q r else x := by
  subst hx
  exact (if_neg (not_or.mpr ⟨not_not_intro hq, not_le_of_gt hr⟩)).trans (if_neg (Bool.eq_false_iff.mp hen))

end

/-! ### The start of a job (R215) -/

section
variable {d : Dev} {q r g : Nat} {x : JobDesc} {rest : List (Nat × JobDesc)} {j : Job}
  (hq : d.quadOk q = true) (htest : d.underTest q = false) (hr : (d.startable q).contains r = true)
  (hg : g = (d.ringArb q).pick (d.startable q) r) (htake : takeWait d q g (d.waits q) = some (x, rest)) (hj : j = d.newJob q g x)
include hq htest hr

/-- Nothing keeps the quadrant from a start, and the ring asks for one. -/
theorem startable_open : ¬(¬d.quadOk q = true ∨ d.underTest q = true ∨ ¬(d.startable q).contains r = true) := by
  simp only [hq, htest, hr, not_true, Bool.false_eq_true, or_self, not_false_eq_true]

include hg htake hj

/-- A job without a Skim program starts at once. -/
theorem jobStart_of_plain (hskim : j.skim = none) (u : Nat) {y z : Dev}
    (hy : y = ({ d with
      trel := { d.trel with arbs := AMap.set ⟨[], []⟩ q ((d.ringArb q).round (d.startable q) g) d.trel.arbs } } : Dev).setWaits q rest)
    (hz : z = y.setJobs q (y.jobs q ++ [{ j with unit := none }])) :
    jobStart q r u d =
      (z.setF (F.TREL_RSTAT_ACTIVE q g) (z.f (F.TREL_RSTAT_ACTIVE q g) + 1)).bump (F.TREL_CNT_COUNT q 0) 0x140 q 1 := by
  subst hg hj hy hz
  unfold jobStart
  rw [if_neg (startable_open hq htest hr)]
  simp only [htake, hskim, Option.isSome_none, Bool.false_eq_true, if_false]

/-- A Skim job starts with the context that it takes in its unit. -/
theorem jobStart_of_skim {p : SkimProg} (hskim : j.skim = some p) {u : Nat} (hmode : d.f (F.SKIM_BIND_MODE q u) ≠ 2) (hu : u < 8)
    {w : Dev} (hctx : d.skimTake q u (skimName q j.slot) = some w) {y z : Dev}
    (hy : y = ({ w with
      trel := { w.trel with arbs := AMap.set ⟨[], []⟩ q ((d.ringArb q).round (d.startable q) g) w.trel.arbs } } : Dev).setWaits q rest)
    (hz : z = y.setJobs q (y.jobs q ++ [{ j with unit := some u }])) :
    jobStart q r u d =
      (z.setF (F.TREL_RSTAT_ACTIVE q g) (z.f (F.TREL_RSTAT_ACTIVE q g) + 1)).bump (F.TREL_CNT_COUNT q 0) 0x140 q 1 := by
  subst hg hj hy hz
  have hunit : ¬(d.f (F.SKIM_BIND_MODE q u) = 2 ∨ 8 ≤ u) := not_or.mpr ⟨hmode, not_le_of_gt hu⟩
  unfold jobStart
  rw [if_neg (startable_open hq htest hr)]
  simp only [htake, hskim, hctx, if_neg hunit, Option.isSome_some, if_true]

end

/-! ### Curds and credit (R213, R214, R221) -/

section
variable {d : Dev} {q slot : Nat}

section
variable (hq : d.quadOk q = true) (hiso : d.isolated q = false)
include hq hiso

/-- The quadrant is in service and takes curds. -/
theorem quad_takesCurds : ¬(¬d.quadOk q = true ∨ d.isolated q = true) :=
  not_or.mpr ⟨not_not_intro hq, Bool.eq_false_iff.mp hiso⟩

/-- A curd of a job that has ended is counted and reported. -/
theorem curdArrival_of_noJob (hjob : d.job? q slot = none) (stage : Nat) (curd : CurdIn) (finds : List Finding) :
    curdArrival q slot stage curd finds d =
      (d.bump (F.TREL_CNT_COUNT q 5) 0x145 q 1).raise (quadEvent q 1 2) noPlot [] := by
  unfold curdArrival
  rw [if_neg (quad_takesCurds hq hiso), hjob]

end

/-- A stage behind the first takes curds; the SLM sink, where the channel does not hold its place. -/
theorem stage_takesCurds {i : Nat} {j : Job} {c0 : CurdIn} (hi : i ≠ 0) (hlen : i < tplStages j.words)
    (hroom : i + 1 ≠ tplStages j.words ∨ stageTy j.words i ≠ 0x0B ∨ d.chanHeld (j.desc.outoff + d.outUsed q j) c0.vlen = false) :
    ¬(i = 0 ∨ tplStages j.words ≤ i ∨ (i + 1 = tplStages j.words ∧ stageTy j.words i = 0x0B ∧
      d.chanHeld (j.desc.outoff + d.outUsed q j) c0.vlen = true)) := by
  rintro (h | h | ⟨hlast, hsink, hheld⟩)
  · exact hi h
  · exact not_le_of_gt hlen h
  · simp [hlast, hsink, hheld] at hroom

variable {j : Job} (hjob : d.job? q slot = some j)
include hjob

theorem creditReturn_of_used {stage : Nat} (hused : 0 < j.usedOn stage) :
    creditReturn q slot stage d = d.returnCredit q j stage := by
  unfold creditReturn
  rw [hjob]
  exact if_pos hused

/-! ### The end of a job (R217, R221) -/

theorem jobEnd_of_over (hover : j.ending = true ∨ j.drained = true) : jobEnd q slot d = d.endJob q slot := by
  unfold jobEnd
  rw [hjob]
  exact if_pos (Bool.or_eq_true_iff.mpr hover)

theorem jobTimeout_of_running (htime : j.desc.timeout ≠ 0) (hrun : j.drained = false) :
    jobTimeout q slot d = (d.jobCond q slot .timeout).endJob q slot := by
  unfold jobTimeout
  rw [hjob]
  exact if_neg (not_or.mpr ⟨htime, Bool.eq_false_iff.mp hrun⟩)

end

/-! ### Grafts (R238) -/

/-- The waiting segment swaps in once the graft holds no job that runs. -/
theorem segmentSwapped_of_free {d : Dev} {q : Nat} {x : Segment} (hswap : AMap.find q d.trel.swap = some x)
    (hfree : (d.jobs q).any (fun j => d.graftHolds q j.desc.pid) = false) {y : Dev}
    (hy : y = { d with trel := { d.trel with swap := AMap.del q d.trel.swap } }) :
    segmentSwapped q d =
      ((if y.f F.BRZ_GRAFT_QUAD = q then y.setF F.BRZ_GRAFT_PENDING 0 else y).setSegment q x).raise (quadEvent q 1 3) noPlot [] := by
  subst hy
  unfold segmentSwapped
  rw [hswap]
  exact if_neg (Bool.eq_false_iff.mp hfree)

/-- Settles O43: a ring goes by its enable, its window and the descriptors' numbers, a start by the job's program, a curd by its job and
its stage, and an end by what the job has met. Which cause stands where several apply is the model's choice (log 114). -/
theorem trellisCompletes : Obligations.TrellisCompletes := by
  refine
  ⟨fun _ _ _ seq _ _ hs hq hr hsub hk hen hfresh hnew hroom hseq => effects_run rfl hs ((trelRsub_of_ring hq hr seq).trans
      ((Dev.ringSubmit_in_window hen hfresh hsub hk hnew hroom).trans (if_neg (Bool.eq_false_iff.mp hseq)))),
   fun _ _ _ seq _ _ hs hq hr hsub hk hen hfresh hwin =>
      effects_run rfl hs ((trelRsub_of_ring hq hr seq).trans (Dev.ringSubmit_of_window hen hfresh hsub hk hwin)),
   fun _ _ _ seq _ _ hs hq hr hsub hk hen hfresh hnew hroom hseq => effects_run rfl hs ((trelRsub_of_ring hq hr seq).trans
      ((Dev.ringSubmit_in_window hen hfresh hsub hk hnew hroom).trans (if_pos hseq))),
   fun _ _ _ seq hs hq hr hen => effects_run rfl hs ((trelRsub_of_ring hq hr seq).trans (Dev.ringSubmit_of_disabled hen _)),
   fun _ _ _ seq hs hq hr hen hstale =>
      effects_run rfl hs ((trelRsub_of_ring hq hr seq).trans (Dev.ringSubmit_of_stale hen hstale _)),
   fun _ _ _ seq hs hq hr hnext hdone => effects_run rfl hs ((trelRack_of_ring hq hr seq).trans (if_pos ⟨hnext, hdone⟩)),
   fun _ _ _ seq hs hq hr hbad => effects_run rfl hs ((trelRack_of_ring hq hr seq).trans (if_neg hbad)),
   fun _ _ _ _ _ hs hq hr hen hset hx => effects_run rfl hs ((ringEnable_of_off hq hr hen hx).trans (if_pos hset)),
   fun _ _ _ _ hs hq hr hen hclear =>
      effects_run rfl hs ((ringEnable_of_off hq hr hen rfl).trans (if_neg (Bool.eq_false_iff.mp hclear))),
   fun _ _ _ value hs hq hr hen hclear =>
      effects_run rfl hs ((ringEnable_of_on hq hr hen value).trans (if_neg (Bool.eq_false_iff.mp hclear))),
   fun _ _ _ value hs hq hr hen hset => effects_run rfl hs ((ringEnable_of_on hq hr hen value).trans (if_pos hset)),
   fun _ _ _ u _ _ _ _ hs hq htest hr hg htake hj hskim =>
      effects_run rfl hs ⟨_, _, rfl, rfl, jobStart_of_plain hq htest hr hg htake hj hskim u rfl rfl⟩,
   fun _ _ _ _ _ _ _ _ _ _ hs hq htest hr hg htake hj hskim hmode hu hctx =>
      effects_run rfl hs ⟨_, _, rfl, rfl, jobStart_of_skim hq htest hr hg htake hj hskim hmode hu hctx rfl rfl⟩,
   fun _ _ _ _ _ _ _ hs hq hiso hjob hi hlen hroom => effects_run rfl hs ?_,
   fun _ _ _ stage curd finds hs hq hiso hjob => effects_run rfl hs (curdArrival_of_noJob hq hiso hjob stage curd finds),
   fun _ _ _ _ _ hs hjob hused => effects_run rfl hs (creditReturn_of_used hjob hused),
   fun _ _ _ _ hs hjob hover => effects_run rfl hs (jobEnd_of_over hjob hover),
   fun _ _ _ _ hs hjob htime hrun => effects_run rfl hs (jobTimeout_of_running hjob htime hrun),
   fun _ _ _ hs hswap hfree => effects_run rfl hs ⟨_, rfl, segmentSwapped_of_free hswap hfree rfl⟩⟩
  unfold curdArrival
  rw [if_neg (quad_takesCurds hq hiso), hjob]
  exact if_neg (stage_takesCurds hi hlen hroom)

end Sys2Proof.Machine
end

section
/-! PROOFS. Skim units, the engines' switch points, compressed IUs, and the CAM with its tables (R222 to R225, R241, R253 to R256, R263,
R266 to R275). -/

namespace Sys2Proof.Machine

/-! ### Skim units (R222 to R225) -/

section
variable {d : Dev} {q un slot unitOff : Nat} {data : List Byte} {poison : List Nat} {unmapped channel : Bool} {src : Nat} {j : Job}
  {p : SkimProg} {u : SkimIn}
  (hjob : d.job? q slot = some j) (hskim : j.skim = some p) (hq : d.quadOk q = true) (huq : d.quadOk (un / 8) = true)
  (hu : u = d.skimIn q un j unitOff p.unit { data := data, poison := poison, unmapped := unmapped, src := src, onChannel := false })
  (hmode : d.f (F.SKIM_BIND_MODE (un / 8) (un % 8)) = if channel then 0 else 1)
  (hchan : channel = false ∨ (u.onChannel = true ∧ un / 8 = q ∧ j.desc.late = false)) (hrun : j.ending = false)
  (hpos : unitOff % p.unit = 0) (hend : unitOff + p.unit ≤ j.desc.inlen) (hflight : d.unitInFlight q j p.unit unitOff = true)

section
include hq huq hmode hchan hrun hpos hend hflight

/-- The unit stands where the input unit may be filtered, and that one is in position, in range and in flight. -/
theorem skimUnit_open : ¬(¬d.quadOk q = true ∨ ¬d.quadOk (un / 8) = true ∨
    ¬(d.f (F.SKIM_BIND_MODE (un / 8) (un % 8)) == (if channel then 0 else 1) && (!channel || (u.onChannel && un / 8 == q))) = true ∨
    (channel && j.desc.late) = true ∨ j.ending = true ∨ unitOff % p.unit ≠ 0 ∨ j.desc.inlen < unitOff + p.unit ∨
    ¬d.unitInFlight q j p.unit unitOff = true) := by
  rcases hchan with rfl | ⟨hon, rfl, hearly⟩
  · simp [hq, huq, hmode, hrun, hpos, hend, hflight]
  · simp [hq, hmode, hon, hearly, hrun, hpos, hend, hflight]

end

include hjob hskim hq huq hu hmode hchan hrun hpos hend hflight

/-- A unit whose data the fenced condition keeps away is noted. -/
theorem skimUnit_of_fenced (hfence : d.fencedInput j unitOff p.unit = true) (untrusted : Bool) :
    skimUnit q un slot unitOff data poison untrusted unmapped channel src d = d.setJob q (j.note .fenced) := by
  subst hu
  unfold skimUnit
  simp only [hjob, hskim]
  exact (if_neg (skimUnit_open hq huq hmode hchan hrun hpos hend hflight)).trans (if_pos hfence)

/-- A unit that comes in is counted where it is unmapped, and else filtered into a batch. -/
theorem skimUnit_of_taken (hfence : d.fencedInput j unitOff p.unit = false) (hlen : u.unmapped = true ∨ u.data.length = p.unit)
    {x : Dev} (hctx : d.skimTake (un / 8) (un % 8) (skimName q slot) = some x) (untrusted : Bool) {k : Job} {y : Dev} {a : UnitRun}
    (hk : k = { (x.unitDone j p.unit unitOff).1 with inBytes := j.inBytes + p.unit }) (hy : y = (x.unitDone j p.unit unitOff).2)
    (ha : a = (p.cut u.data u.poison).foldl (fun (a : UnitRun) z => a.piece (un / 8) un p u.data u.poison untrusted unitOff z)
      { job := k, dev := y.skimCount (un / 8) (if channel = true then 6 else 7) 1, recs := [] }) :
    skimUnit q un slot unitOff data poison untrusted unmapped channel src d =
      if u.unmapped = true then y.setJob q { k with sum := { k.sum with unmapped := k.sum.unmapped + 1 } }
      else match batchOf a.recs unitOff u.src untrusted with
        | none => a.dev.setJob q a.job
        | some b => a.dev.setJob q { a.job with batches := a.job.batches ++ [b] } := by
  subst hu hk hy ha
  have hwhole : ¬(¬(d.skimIn q un j unitOff p.unit ⟨data, poison, unmapped, src, false⟩).unmapped = true ∧
      (d.skimIn q un j unitOff p.unit ⟨data, poison, unmapped, src, false⟩).data.length ≠ p.unit) :=
    fun h => hlen.elim h.1 h.2
  unfold skimUnit
  simp only [hjob, hskim, hctx]
  exact (if_neg (skimUnit_open hq huq hmode hchan hrun hpos hend hflight)).trans
    ((if_neg (Bool.eq_false_iff.mp hfence)).trans (if_neg hwhole))

end

/-- An idle unit that is not retired is lent or bound back; a held one is not lent. -/
theorem skimRebind_of_idle {d : Dev} {q u : Nat} {lent : Bool} (hq : d.quadOk q = true) (hu : u < 8)
    (hmode : d.f (F.SKIM_BIND_MODE q u) ≠ 2) (hidle : (d.skimJobs q u).isEmpty = true)
    (hheld : lent = false ∨ d.flag (F.SKIM_BIND_HOLD q u) = false) :
    skimRebind q u lent d = d.setF (F.SKIM_BIND_MODE q u) (Bool.nat lent) := by
  have hlend : ¬(lent && d.flag (F.SKIM_BIND_HOLD q u)) = true := by
    rcases hheld with h | h <;> simp [h]
  exact if_neg (by simp [hq, hu, hmode, hidle, hlend])

/-! ### Compressed IUs (R253 to R256) -/

section
variable {d : Dev} {q nsid iu : Nat} {n : Ns} {c : Commit} {x : Dev} {slots : List Slot}
  (hns : d.ns? nsid = some n) (hcommit : d.liveCommit nsid iu = some c) (hq : d.quadOk q = true) (hcomp : n.comp ≠ 0)
  (hx : x = d.engTakeInternal 2 q 2 0 (iuUser nsid iu)) (hhas : x.iuHas q nsid iu = true)
  (hslots : slots = (c.iuSlotsOf n.iuSlots iu).map (fun i => AMap.get ⟨0, 0, 0, false⟩ i d.mram.slots))
include hns hcommit hq hcomp hx hhas hslots

/-- An IU of clean slots is packed, and both sides of it are counted; one that does not shrink is kept plain, which is counted too. -/
theorem iuCompress_of_clean (hclean : slots.any (fun i => i.poison || i.umask != 0) = false) {k : List Nat} {y z : Dev}
    (hk : k = Fmt.iuPack n.comp (slots.flatMap (fun i => leBytes 4096 i.data)))
    (hy : y = { x with ftl := { x.ftl with packed := AMap.put (iuKey nsid iu) k x.ftl.packed } })
    (hz : z = (y.bump (F.CHURN_CNT_COUNT q 0) 0x150 q n.iuBytes).bump (F.CHURN_CNT_COUNT q 1) 0x151 q
      (((Fmt.iuCoded n.comp (slots.flatMap (fun i => leBytes 4096 i.data))).map List.length).getD 0)) :
    iuCompress q nsid iu d =
      (if k.isEmpty = true then z.bump (F.CHURN_CNT_COUNT q 7) 0x157 q 1 else z).engFree 2 q (iuUser nsid iu) := by
  subst hk hy hz hx hslots
  unfold iuCompress
  simp only [hns, hcommit]
  rw [if_neg (not_or.mpr ⟨not_not_intro hq, hcomp⟩), if_neg (not_not_intro hhas)]
  simp only [hclean, Bool.false_eq_true, if_false]

/-- An IU with poison or a marked block is kept plain (log 113). -/
theorem iuCompress_of_marked (hmarked : slots.any (fun i => i.poison || i.umask != 0) = true) :
    iuCompress q nsid iu d = (({ x with ftl := { x.ftl with packed := AMap.put (iuKey nsid iu) [] x.ftl.packed } } : Dev).bump
      (F.CHURN_CNT_COUNT q 7) 0x157 q 1).engFree 2 q (iuUser nsid iu) := by
  subst hx hslots
  unfold iuCompress
  simp only [hns, hcommit]
  rw [if_neg (not_or.mpr ⟨not_not_intro hq, hcomp⟩), if_neg (not_not_intro hhas)]
  simp only [hmarked, if_true, List.isEmpty_nil]

end

/-- The codewords of a compressed IU that a read waits for are decompressed and checked; poison in one, or a check that fails, delivers
the IU poisoned. -/
theorem iuDecompress_of_got {d : Dev} {nsid iu : Nat} {n : Ns} {cws : List (Option Cw)} {loc q : Nat} {x y : Dev}
    (hns : d.ns? nsid = some n) (hat : d.packedAt nsid iu = some loc) (hgot : d.iuGot nsid loc = some cws)
    (hsome : cws.isEmpty = false) (hquad : q = dieChan (locDie loc) / 8) (hq : d.quadOk q = true)
    (hx : x = d.engTakeInternal 2 q 3 1 (iuUser nsid iu)) (hhas : x.iuHas q nsid iu = true)
    (hy : y = (x.bump (F.CHURN_CNT_COUNT q 2) 0x152 q (4096 * cws.length)).engFree 2 q (iuUser nsid iu)) :
    iuDecompress nsid iu d =
      if cws.any Option.isNone = true then y.deliverIu n loc none
      else match Fmt.iuOpen n.iuBytes ((cws.filterMap id).map Cw.data) with
        | .ok v => (y.bump (F.CHURN_CNT_COUNT q 3) 0x153 q n.iuBytes).deliverIu n loc (some v)
        | .error (f, off) => (y.iuCorrupt q nsid iu f off).deliverIu n loc none := by
  subst hquad hx hy
  have hready : ¬(¬d.quadOk (dieChan (locDie loc) / 8) = true ∨ some loc = none ∨ cws.isEmpty = true) := by
    simp [hq, hsome]
  unfold iuDecompress
  simp only [hat, Option.getD_some, hns, hgot]
  exact (if_neg hready).trans (if_neg (not_not_intro hhas))

/-! ### Searches of the CAM (R266, R268, R274, R275) -/

section
variable {d : Dev} {q t : Nat}

/-- A search for steward code answers in its reply register; the damaged entries that it met are an operand (log 133). -/
theorem Dev.camFind_of_steward (key : Nat) (poisoned : Bool) (bad : List (Nat × Bool)) {y z : Dev} {x : CamHit}
    (hy : y = if poisoned = true then d else d.camRestore q t bad)
    (hx : x = if poisoned = true then { index := 0xFFFFFFFF, result := 0, count := 0, multi := false, hit := false, poisoned := true }
      else { y.camLookup q t (key % 2 ^ 160) with
        poisoned := bad.any (fun b => b.2 && (AMap.find b.1 (d.sieve q).cam).isSome && d.tblIn q t b.1) })
    (hz : z = if x.multi = true
      then (if poisoned = true then y else y.bump (F.SIEVE_CNT_COUNT q 2) 0x15A q 1).bump (F.SIEVE_CNT_COUNT q 3) 0x15B q 1
      else if poisoned = true then y else y.bump (F.SIEVE_CNT_COUNT q 2) 0x15A q 1) :
    d.camFind q t key poisoned none bad = z.setSieve q { z.sieve q with reply := some x } := by
  subst hz hx hy
  rfl

variable (hq : d.quadOk q = true) (hen : d.tblEn q t = true) (key : Nat) (poisoned : Bool) (bad : List (Nat × Bool))
include hq hen

/-- The table is there and may be searched. -/
theorem table_searchable : ¬(¬d.quadOk q = true ∨ ¬d.tblEn q t = true) := not_or.mpr ⟨not_not_intro hq, not_not_intro hen⟩

theorem camSearch_of_steward : camSearch q t key poisoned none bad d = d.camFind q t key poisoned none bad :=
  if_neg (table_searchable hq hen)

/-- A lookup job that names the table searches it for the next key of its input. -/
theorem camSearch_of_job {slot : Nat} {j : Job} {k : Nat} {m : Bool} (hjob : d.job? q slot = some j) (hprog : j.desc.prog = 8)
    (htable : j.par 64 2 = 256 * q + t) (hrun : j.ending = false)
    (hkey : d.nextKey j (d.f (F.SIEVE_TBL_KEYW q t)) key poisoned = some (k, m)) :
    camSearch q t key poisoned (some slot) bad d = d.camFind q t k m (some j.slot) bad := by
  have hnamed : ¬(j.desc.prog ≠ 8 ∨ j.par 64 2 ≠ 256 * q + t ∨ j.ending = true) := by
    simp [hprog, htable, hrun]
  unfold camSearch
  rw [if_neg (table_searchable hq hen), Option.map_some, hjob]
  simp only [if_neg hnamed, hkey]

end

/-! ### Updates of the CAM (R269 to R271) -/

/-- An update command while none is at work records its operation, sets BUSY and applies its result, which is that of the first check
that fails, in the order table enabled, operation valid for the class, INDEX in the table. The table changes at once (log 116). -/
theorem Dev.camStart_of_idle {d : Dev} {q t : Nat} (hq : d.quadOk q = true) (ht : t < 256)
    (hidle : d.flag (F.SIEVE_URES_BUSY q) = false) (op index : Nat) (replace classOk usesIndex : Bool)
    (f : List (Nat × CamEnt) → CamRes) {x y : Dev} {k : CamRes}
    (hx : x = ((((d.setF (F.SIEVE_UCMD_OP q) op).setF (F.SIEVE_UCMD_REPLACE q) (Bool.nat replace)).setF (F.SIEVE_UCMD_TABLE q) t).setF
      (F.SIEVE_UCMD_INDEX q) index).setF (F.SIEVE_URES_BUSY q) 1)
    (hk : k = if ¬d.tblEn q t = true then { status := 3, index := none, cam := (x.sieve q).cam, writes := 0 }
      else if ¬classOk = true then { status := 4, index := none, cam := (x.sieve q).cam, writes := 0 }
      else if (usesIndex && !d.tblIn q t index) = true then { status := 2, index := none, cam := (x.sieve q).cam, writes := 0 }
      else f (x.sieve q).cam)
    (hy : y = x.camApply q t k) :
    d.camStart q op t index replace classOk usesIndex f =
      y.setSieve q { y.sieve q with upd := some (k.status, k.index.getD (d.f (F.SIEVE_URES_INDEX q))) } := by
  subst hy hk hx
  exact if_neg (by simp [hq, ht, hidle])

/-- The end of an update shows its status, and reports that it is done and where it found no room. -/
theorem updateDone_of_pending {d : Dev} {q st i : Nat} (hupd : (d.sieve q).upd = some (st, i)) {x y : Dev}
    (hx : x = d.setSieve q { d.sieve q with upd := none })
    (hy : y = (((x.setF (F.SIEVE_URES_BUSY q) 0).setF (F.SIEVE_URES_DONE q) 1).setF (F.SIEVE_URES_STATUS q) st).setF
      (F.SIEVE_URES_INDEX q) i) :
    updateDone q d = (if st = 1 then y.raise (quadEvent q 3 2) noPlot [] else y).raise (quadEvent q 3 3) noPlot [] := by
  subst hy hx
  unfold updateDone
  rw [hupd]

/-! ### Table descriptors (R267) -/

section
variable {d : Dev} {q t : Nat} (hq : d.quadOk q = true) (ht : t < 256)
include hq ht

/-- A table that is off takes its fields, and is enabled where they fit. -/
theorem sieveTblWrite_of_off (hen : d.tblEn q t = false) {value : Nat} {x : Dev}
    (hx : x = ((((d.setF (F.SIEVE_TBL_BASE q t) (bits value 0 16)).setF (F.SIEVE_TBL_SIZE q t) (bits value 16 17)).setF
      (F.SIEVE_TBL_CLASS q t) (bits value 33 1)).setF (F.SIEVE_TBL_KEYW q t) (bits value 34 5)).setF
      (F.SIEVE_TBL_PLOT q t) (bits value 40 9)) :
    sieveTblWrite q t value d = if bit value 63 && x.tblFit q t then (x.setF (F.SIEVE_TBL_EN q t) 1).tblShow q t else x := by
  subst hx
  exact (if_neg (not_or.mpr ⟨not_not_intro hq, not_le_of_gt ht⟩)).trans (if_neg (Bool.eq_false_iff.mp hen))

/-- A table that is on takes nothing but EN = 0, once no job uses it. -/
theorem sieveTblWrite_of_on (hen : d.tblEn q t = true) (value : Nat) :
    sieveTblWrite q t value d = if bit value 63 then d
      else if d.tblUsed q t then d.setSieve q { d.sieve q with closing := NSet.add t (d.sieve q).closing }
      else d.setF (F.SIEVE_TBL_EN q t) 0 :=
  (if_neg (not_or.mpr ⟨not_not_intro hq, not_le_of_gt ht⟩)).trans (if_pos hen)

end

/-- Settles O44: a Skim unit goes by the fence and by what came in, an IU by its marks, a search by who asks, an update by its checks, and
a table descriptor by its EN. -/
theorem nodesComplete : Obligations.NodesComplete :=
  ⟨fun _ _ _ _ _ _ _ untrusted _ _ _ _ _ _ hs hjob hskim hq huq hu hmode hchan hrun hpos hend hflight hfence => effects_run rfl hs
      (skimUnit_of_fenced hjob hskim hq huq hu hmode hchan hrun hpos hend hflight hfence untrusted),
   fun _ _ _ _ _ _ _ untrusted _ _ _ _ _ _ _ hs hjob hskim hq huq hu hmode hchan hrun hpos hend hflight hfence hlen hctx =>
      effects_run rfl hs ⟨_, _, _, rfl, rfl, rfl,
        skimUnit_of_taken hjob hskim hq huq hu hmode hchan hrun hpos hend hflight hfence hlen hctx untrusted rfl rfl rfl⟩,
   fun _ _ _ _ hs hq hu hmode hidle hheld => effects_run rfl hs (skimRebind_of_idle hq hu hmode hidle hheld),
   fun _ _ _ _ _ hs hq hpipe => effects_run rfl hs (if_pos (Bool.and_eq_true_iff.mpr ⟨hq, decide_eq_true hpipe⟩)),
   fun _ _ _ _ hs hq => effects_run rfl hs (if_pos hq),
   fun _ _ _ _ _ _ _ _ hs hns hcommit hq hcomp hx hhas hslots hclean => effects_run rfl hs
      ⟨_, _, _, rfl, rfl, rfl, iuCompress_of_clean hns hcommit hq hcomp hx hhas hslots hclean rfl rfl rfl⟩,
   fun _ _ _ _ _ _ _ _ hs hns hcommit hq hcomp hx hhas hslots hmarked => effects_run rfl hs
      (iuCompress_of_marked hns hcommit hq hcomp hx hhas hslots hmarked),
   fun _ _ _ _ _ _ _ _ _ hs hns hat hgot hsome hquad hq hx hhas hy => effects_run rfl hs
      (iuDecompress_of_got hns hat hgot hsome hquad hq hx hhas hy),
   fun _ _ _ key poisoned bad hs hq hen => effects_run rfl hs ⟨_, _, _, rfl, rfl, rfl,
      (camSearch_of_steward hq hen key poisoned bad).trans (Dev.camFind_of_steward key poisoned bad rfl rfl rfl)⟩,
   fun _ _ _ key poisoned _ bad _ _ _ hs hq hen hjob hprog htable hrun hkey => effects_run rfl hs
      (camSearch_of_job hq hen key poisoned bad hjob hprog htable hrun hkey),
   fun _ _ _ index hs hq ht hidle => effects_run rfl hs ⟨_, _, _, rfl, rfl, rfl,
      Dev.camStart_of_idle hq ht hidle 0 index false true true _ rfl rfl rfl⟩,
   fun _ _ _ index hs hq ht hidle => effects_run rfl hs ⟨_, _, _, rfl, rfl, rfl,
      Dev.camStart_of_idle hq ht hidle 1 index false _ true _ rfl rfl rfl⟩,
   fun _ _ _ replace hs hq ht hidle => effects_run rfl hs ⟨_, _, _, rfl, rfl, rfl,
      Dev.camStart_of_idle hq ht hidle 2 _ replace _ false _ rfl rfl rfl⟩,
   fun _ _ _ index hs hq ht hidle => effects_run rfl hs ⟨_, _, _, rfl, rfl, rfl,
      Dev.camStart_of_idle hq ht hidle 3 index false true true _ rfl rfl rfl⟩,
   fun _ _ _ hs hq ht hidle => effects_run rfl hs ⟨_, _, _, rfl, rfl, rfl,
      Dev.camStart_of_idle hq ht hidle 4 _ false true false _ rfl rfl rfl⟩,
   fun _ _ _ _ hs hupd => effects_run rfl hs ⟨_, _, rfl, rfl, updateDone_of_pending hupd rfl rfl⟩,
   fun _ _ _ _ _ hs hq ht hen hx => effects_run rfl hs (sieveTblWrite_of_off hq ht hen hx),
   fun _ _ _ value hs hq ht hen hclear =>
      effects_run rfl hs ((sieveTblWrite_of_on hq ht hen value).trans (if_neg (Bool.eq_false_iff.mp hclear))),
   fun _ _ _ value hs hq ht hen hset => effects_run rfl hs ((sieveTblWrite_of_on hq ht hen value).trans (if_pos hset))⟩

end Sys2Proof.Machine
end

section
/-! PROOFS. The tables of SIEVE: what INSERT_AT and DELETE of a class A table leave at every entry (R270). -/

namespace Sys2Proof.Machine

/-- Moves of entries one place up, each read in the old table, so that no move disturbs another: an entry some move writes holds the
old entry below it, every other entry stays. -/
theorem AMap.find_foldr_moveUp {α : Type} {old : List (Nat × α)} {move : Nat → List (Nat × α) → List (Nat × α)}
    (hmove : ∀ i x m, AMap.find i old = some x → move i m = AMap.put (i + 1) x m) (k : Nat) (l : List Nat)
    (hl : ∀ i ∈ l, (AMap.find i old).isSome = true) :
    AMap.find k (l.foldr move old) = if k ∈ l.map (· + 1) then AMap.find (k - 1) old else AMap.find k old := by
  induction l with
  | nil => rfl
  | cons i t ih =>
    obtain ⟨x, hx⟩ := Option.isSome_iff_exists.mp (hl i List.mem_cons_self)
    rw [List.foldr_cons, hmove i x _ hx]
    by_cases hk : k = i + 1
    · subst hk
      simp [AMap.find_put_same, hx]
    · rw [AMap.find_put_ne hk, ih fun j hj => hl j (List.mem_cons_of_mem i hj)]
      simp only [List.map_cons, List.mem_cons, or_iff_right hk]

/-- The entries from `p` up to `f`, each one place up. -/
theorem mem_map_succ_range' {p f i : Nat} (h : p ≤ f) : i ∈ (List.range' p (f - p)).map (· + 1) ↔ p < i ∧ i ≤ f := by
  rw [List.mem_map]
  constructor
  · rintro ⟨j, hj, rfl⟩
    rw [List.mem_range'_1] at hj
    omega
  · intro hi
    exact ⟨i - 1, List.mem_range'_1.mpr (by omega), by omega⟩

section
variable {cam : List (Nat × CamEnt)} {base size p : Nat}

/-- INSERT_AT where `f` is the first free entry at or above `p`. -/
theorem camInsertAt_of_firstFree {f : Nat} (e : CamEnt) (hpf : p ≤ f) (hf : f < base + size) (hfree : AMap.find f cam = none)
    (hused : ∀ i, p ≤ i → i < f → (AMap.find i cam).isSome = true) :
    (camInsertAt cam base size p e).status = 0 ∧ (camInsertAt cam base size p e).writes = f - p + 1 ∧
      ∀ i, AMap.find i (camInsertAt cam base size p e).cam =
        if i = p then some e else if p < i ∧ i ≤ f then AMap.find (i - 1) cam else AMap.find i cam := by
  have hfirst : (List.range' p (base + size - p)).find? (fun i => (AMap.find i cam).isNone) = some f :=
    List.find?_range'_eq_some.mpr ⟨by simp [hfree], List.mem_range'_1.mpr (by omega), fun i hpi hif => by simp [hused i hpi hif]⟩
  simp only [camInsertAt, ← List.range'_eq_map_range, hfirst, true_and]
  intro i
  by_cases hi : i = p
  · rw [if_pos hi, hi, AMap.find_put_same]
  · have hmoved : ∀ j ∈ List.range' p (f - p), (AMap.find j cam).isSome = true := fun j hj => by
      obtain ⟨hpj, hjf⟩ := List.mem_range'_1.mp hj
      exact hused j hpj (by omega)
    rw [if_neg hi, AMap.find_put_ne hi, AMap.find_foldr_moveUp (fun j x m hx => by simp only [hx]) i _ hmoved]
    simp only [mem_map_succ_range' hpf]

/-- INSERT_AT with no free entry from `p` up changes nothing. -/
theorem camInsertAt_of_full (e : CamEnt) (hused : ∀ i, p ≤ i → i < base + size → (AMap.find i cam).isSome = true) :
    camInsertAt cam base size p e = { status := 1, index := none, cam := cam, writes := 0 } := by
  have hnone : (List.range' p (base + size - p)).find? (fun i => (AMap.find i cam).isNone) = none :=
    List.find?_eq_none.mpr fun i hi => by
      obtain ⟨hpi, hitop⟩ := List.mem_range'_1.mp hi
      simp [Option.isSome_iff_ne_none.mp (hused i hpi (by omega))]
  simp only [camInsertAt, ← List.range'_eq_map_range, hnone]

/-- DELETE of a used entry of a class A table. -/
theorem camDeleteAt_of_used {i : Nat} {x : CamEnt} (hx : AMap.find i cam = some x) :
    camDeleteAt cam base i false = { status := 0, index := some i, cam := AMap.del i cam, writes := 1 } := by
  simp [camDeleteAt, hx]

end

/-- A deleted key is gone and every other stays. -/
theorem AMap.find_del {α : Type} (i j : Nat) (m : List (Nat × α)) :
    AMap.find j (AMap.del i m) = if j = i then none else AMap.find j m := by
  split
  · next h => rw [h, AMap.find_del_same]
  · next h => exact AMap.find_del_ne h m

/-- Settles O57: INSERT_AT finds the first free entry and each move reads the old table; DELETE removes one key. -/
theorem camInsertAtShifts : Obligations.CamInsertAtShifts :=
  ⟨fun _ _ _ _ _ e hpf hf hfree hused => camInsertAt_of_firstFree e hpf hf hfree hused,
   fun _ _ _ _ e hused => by simp [camInsertAt_of_full e hused],
   fun cam base i _ hx => by simp [camDeleteAt_of_used (base := base) hx, AMap.find_del]⟩

end Sys2Proof.Machine
end

section
/-! PROOFS. GCM counter values (R284): what a lease request does to the table, and that no sequence of requests leases a value twice. -/

namespace Sys2Proof.Machine

/-! ### The entry of one plot and user label -/

/-- The entry of a plot and user label in the GCM counter table. -/
def gcmEntry (t : List GcmEnt) (plot ulabel : Nat) : Option GcmEnt := t.find? (fun e => e.plot == plot && e.ulabel == ulabel)

section
variable (t : List GcmEnt) (e : GcmEnt)

theorem gcmEntry_append_same (h : gcmEntry t e.plot e.ulabel = none) : gcmEntry (t ++ [e]) e.plot e.ulabel = some e := by
  unfold gcmEntry at h ⊢
  simp [List.find?_append, h]

/-- An entry put in place of one of the same plot and label. -/
theorem gcmEntry_replace_same :
    gcmEntry (t.filter (fun x => !(x.plot == e.plot && x.ulabel == e.ulabel)) ++ [e]) e.plot e.ulabel = some e := by
  refine gcmEntry_append_same _ _ (List.find?_eq_none.mpr fun x hx => ?_)
  simpa only [Bool.not_eq_true', Bool.not_eq_true] using (List.mem_filter.mp hx).2

variable {p u : Nat} (hne : ¬(e.plot = p ∧ e.ulabel = u))
include hne

theorem gcmEntry_append_ne : gcmEntry (t ++ [e]) p u = gcmEntry t p u := by
  simp [gcmEntry, List.find?_append, hne]

theorem gcmEntry_filter_ne :
    gcmEntry (t.filter (fun x => !(x.plot == e.plot && x.ulabel == e.ulabel))) p u = gcmEntry t p u := by
  unfold gcmEntry
  rw [List.find?_filter]
  congr 1
  funext x
  by_cases hx : x.plot = p ∧ x.ulabel = u
  · obtain ⟨rfl, rfl⟩ := hx
    have hkept : (x.plot == e.plot && x.ulabel == e.ulabel) = false := by
      simpa [eq_comm (a := x.plot), eq_comm (a := x.ulabel)] using hne
    simp [hkept]
  · have hother : (x.plot == p && x.ulabel == u) = false := by simpa using hx
    simp [hother]

theorem gcmEntry_replace_ne :
    gcmEntry (t.filter (fun x => !(x.plot == e.plot && x.ulabel == e.ulabel)) ++ [e]) p u = gcmEntry t p u := by
  rw [gcmEntry_append_ne _ _ hne, gcmEntry_filter_ne _ _ hne]

end

/-! ### One request -/

/-- The table `t1` is `t` with the entry `e` put for its plot and label. -/
def GcmPut (t t1 : List GcmEnt) (e : GcmEnt) : Prop :=
  gcmEntry t1 e.plot e.ulabel = some e ∧ (∀ p u, ¬(e.plot = p ∧ e.ulabel = u) → gcmEntry t1 p u = gcmEntry t p u) ∧
    ∀ x ∈ t1, x ∈ t ∨ x = e

theorem gcmPut_append {t : List GcmEnt} {e : GcmEnt} (h : gcmEntry t e.plot e.ulabel = none) : GcmPut t (t ++ [e]) e :=
  ⟨gcmEntry_append_same t e h, fun _ _ hne => gcmEntry_append_ne t e hne, fun x hx => by simpa using hx⟩

theorem gcmPut_replace (t : List GcmEnt) (e : GcmEnt) :
    GcmPut t (t.filter (fun x => !(x.plot == e.plot && x.ulabel == e.ulabel)) ++ [e]) e :=
  ⟨gcmEntry_replace_same t e, fun _ _ hne => gcmEntry_replace_ne t e hne, fun x hx => by
    simp only [List.mem_append, List.mem_filter, List.mem_singleton] at hx
    exact hx.imp And.left id⟩

/-- All that a request can do: a refusal leaves the table; a lease puts the entry of its plot and label at the lease's end, in the
requested epoch, and begins at 0 in a fresh epoch or where the entry of this epoch stood, at most `leaseMax` values in all. -/
theorem gcmRequest_cases (t : List GcmEnt) (plot ulabel epoch : Nat) :
    (∃ c, gcmRequest t plot ulabel epoch = (t, .error c)) ∨
    ∃ t1 first last, gcmRequest t plot ulabel epoch = (t1, .ok (first, last)) ∧
      GcmPut t t1 { plot := plot, ulabel := ulabel, epoch := epoch, next := last } ∧
      (first = 0 ∧ last = leaseMax ∧ (∀ e, gcmEntry t plot ulabel = some e → e.epoch < epoch) ∨
        ∃ e, gcmEntry t plot ulabel = some e ∧ e.epoch = epoch ∧ e.next ≠ 2 ^ 64 ∧ first = e.next ∧
          last = min (e.next + leaseMax) (2 ^ 64)) := by
  unfold gcmRequest
  split
  case h_1 hnone =>
    split
    · exact .inr ⟨_, _, _, rfl, gcmPut_append hnone, .inl ⟨rfl, rfl, by simp [gcmEntry, hnone]⟩⟩
    · exact .inl ⟨_, rfl⟩
  case h_2 e hfind =>
    have hkey : e.plot = plot ∧ e.ulabel = ulabel := by simpa using List.find?_some hfind
    obtain ⟨rfl, rfl⟩ := hkey
    dsimp only
    split
    · exact .inl ⟨_, rfl⟩
    · next hge =>
      split
      · next hlt =>
        exact .inr ⟨_, _, _, rfl, gcmPut_replace t _, .inl ⟨rfl, rfl, fun x hx => by
          obtain rfl : e = x := by simpa [gcmEntry, hfind] using hx
          exact hlt⟩⟩
      · next hle =>
        obtain rfl : epoch = e.epoch := by omega
        split
        · exact .inl ⟨_, rfl⟩
        · next hroom =>
          have hput := gcmPut_replace t { e with next := min (e.next + leaseMax) (2 ^ 64) }
          exact .inr ⟨_, _, _, rfl, hput, .inr ⟨e, hfind, rfl, hroom, rfl, rfl⟩⟩

/-- Every entry's next value is at most 2^64, where a counter is exhausted. -/
def GcmFits (t : List GcmEnt) : Prop := ∀ x ∈ t, x.next ≤ 2 ^ 64

theorem mem_of_gcmEntry {t : List GcmEnt} {p u : Nat} {e : GcmEnt} (h : gcmEntry t p u = some e) : e ∈ t := List.mem_of_find?_eq_some h

/-- A lease from a table that fits holds at least one and at most 65,536 values below 2^64. -/
theorem GcmFits.lease {t t1 : List GcmEnt} (ht : GcmFits t) {plot ulabel epoch first last : Nat}
    (h : gcmRequest t plot ulabel epoch = (t1, .ok (first, last))) : first < last ∧ last ≤ first + 65536 ∧ last ≤ 2 ^ 64 := by
  have hmax : leaseMax = 65536 := rfl
  rcases gcmRequest_cases t plot ulabel epoch with ⟨c, hc⟩ | ⟨_, _, _, hok, -, hvals⟩
  · simp [h] at hc
  · rw [h] at hok
    cases hok
    rcases hvals with ⟨hfirst, hlast, -⟩ | ⟨e, he, -, hroom, hfirst, hlast⟩
    · omega
    · have hle := ht e (mem_of_gcmEntry he)
      omega

theorem GcmFits.request {t : List GcmEnt} (ht : GcmFits t) (plot ulabel epoch : Nat) :
    GcmFits (gcmRequest t plot ulabel epoch).1 := by
  rcases gcmRequest_cases t plot ulabel epoch with ⟨c, hc⟩ | ⟨t1, first, last, hok, ⟨-, -, hmem⟩, -⟩
  · rwa [hc]
  · rw [hok]
    intro x hx
    rcases hmem x hx with hold | rfl
    · exact ht x hold
    · obtain ⟨-, -, hle⟩ := ht.lease hok
      dsimp only
      exact hle

/-! ### Values that are spent -/

/-- No request for this plot, label and epoch is granted a value below `v` any more: the entry stands in a later epoch, or in this one
at `v` or above. -/
def GcmSpent (t : List GcmEnt) (plot ulabel epoch v : Nat) : Prop :=
  ∃ e, gcmEntry t plot ulabel = some e ∧ (epoch < e.epoch ∨ epoch = e.epoch ∧ v ≤ e.next)

section
variable {t t1 : List GcmEnt} {plot ulabel epoch first last : Nat}

/-- A lease spends its values. -/
theorem gcmSpent_of_lease (h : gcmRequest t plot ulabel epoch = (t1, .ok (first, last))) : GcmSpent t1 plot ulabel epoch last := by
  rcases gcmRequest_cases t plot ulabel epoch with ⟨c, hc⟩ | ⟨_, _, _, hok, ⟨hentry, -, -⟩, -⟩
  · simp [h] at hc
  · rw [h] at hok
    cases hok
    exact ⟨_, hentry, .inr ⟨rfl, Nat.le_refl _⟩⟩

/-- A lease begins above what is spent. -/
theorem GcmSpent.le_first {v : Nat} (hv : GcmSpent t plot ulabel epoch v)
    (h : gcmRequest t plot ulabel epoch = (t1, .ok (first, last))) : v ≤ first := by
  obtain ⟨e, he, hspent⟩ := hv
  rcases gcmRequest_cases t plot ulabel epoch with ⟨c, hc⟩ | ⟨_, _, _, hok, -, hvals⟩
  · simp [h] at hc
  · rw [h] at hok
    cases hok
    rcases hvals with ⟨-, -, hfresh⟩ | ⟨x, hx, hepoch, -, rfl, -⟩
    · have := hfresh e he
      omega
    · obtain rfl : e = x := by simpa [he] using hx
      omega

/-- What is spent stays spent, whatever is requested. -/
theorem GcmSpent.request {v : Nat} (hv : GcmSpent t plot ulabel epoch v) (ht : GcmFits t) (p u ep : Nat) :
    GcmSpent (gcmRequest t p u ep).1 plot ulabel epoch v := by
  rcases gcmRequest_cases t p u ep with ⟨c, hc⟩ | ⟨t1, first, last, hok, ⟨hentry, hothers, -⟩, hvals⟩
  · rwa [hc]
  · have hlt := (ht.lease hok).1
    rw [hok]
    obtain ⟨e, he, hspent⟩ := hv
    by_cases hkey : p = plot ∧ u = ulabel
    · obtain ⟨rfl, rfl⟩ := hkey
      refine ⟨_, hentry, ?_⟩
      rcases hvals with ⟨-, -, hfresh⟩ | ⟨x, hx, hepoch, -, hfirst, -⟩
      · have := hfresh e he
        dsimp only
        omega
      · obtain rfl : e = x := by simpa [he] using hx
        dsimp only
        omega
    · exact ⟨e, (hothers _ _ hkey).trans he, hspent⟩

end

/-! ### Sequences of requests -/

/-- A request refused leases nothing; one granted leases first, and the rest follows from the table after it. -/
theorem gcmLeases_cons (t : List GcmEnt) (r : Nat × Nat × Nat) (l : List (Nat × Nat × Nat)) :
    (∃ c, gcmRequest t r.1 r.2.1 r.2.2 = (t, .error c) ∧ gcmLeases t (r :: l) = gcmLeases t l) ∨
    ∃ t1 first last, gcmRequest t r.1 r.2.1 r.2.2 = (t1, .ok (first, last)) ∧
      gcmLeases t (r :: l) = (r.1, r.2.1, r.2.2, first, last) :: gcmLeases t1 l := by
  rcases gcmRequest_cases t r.1 r.2.1 r.2.2 with ⟨c, hc⟩ | ⟨t1, first, last, hok, -⟩
  · exact .inl ⟨c, hc, by simp [gcmLeases, hc]⟩
  · exact .inr ⟨t1, first, last, hok, by simp [gcmLeases, hok]⟩

/-- Every later lease of a plot, label and epoch begins above what is spent of them. -/
theorem GcmSpent.le_leases {t : List GcmEnt} {plot ulabel epoch v : Nat} (hv : GcmSpent t plot ulabel epoch v) (ht : GcmFits t)
    (l : List (Nat × Nat × Nat)) :
    ∀ y ∈ gcmLeases t l, plot = y.1 → ulabel = y.2.1 → epoch = y.2.2.1 → v ≤ y.2.2.2.1 := by
  induction l generalizing t with
  | nil => simp [gcmLeases]
  | cons r l ih =>
    rcases gcmLeases_cons t r l with ⟨c, -, hl⟩ | ⟨t1, first, last, hok, hl⟩
    · rw [hl]
      exact ih hv ht
    · rw [hl]
      have hnext := ht.request r.1 r.2.1 r.2.2
      have hstill := hv.request ht r.1 r.2.1 r.2.2
      rw [hok] at hnext hstill
      intro y hy hp hu he
      rcases List.mem_cons.mp hy with rfl | hy
      · subst hp hu he
        exact hv.le_first hok
      · exact ih hstill hnext y hy hp hu he

/-- From any table that fits, the leases obtained share no value and each is of proper size. -/
theorem GcmFits.leases {t : List GcmEnt} (ht : GcmFits t) (l : List (Nat × Nat × Nat)) :
    (gcmLeases t l).Pairwise (fun x y => x.1 = y.1 → x.2.1 = y.2.1 → x.2.2.1 = y.2.2.1 → x.2.2.2.2 ≤ y.2.2.2.1) ∧
      ∀ x ∈ gcmLeases t l, x.2.2.2.1 < x.2.2.2.2 ∧ x.2.2.2.2 ≤ x.2.2.2.1 + 65536 ∧ x.2.2.2.2 ≤ 2 ^ 64 := by
  induction l generalizing t with
  | nil => simp [gcmLeases]
  | cons r l ih =>
    rcases gcmLeases_cons t r l with ⟨c, -, hl⟩ | ⟨t1, first, last, hok, hl⟩
    · rw [hl]
      exact ih ht
    · have hnext := ht.request r.1 r.2.1 r.2.2
      rw [hok] at hnext
      obtain ⟨hpair, hsize⟩ := ih hnext
      rw [hl, List.pairwise_cons, List.forall_mem_cons]
      exact ⟨⟨(gcmSpent_of_lease hok).le_leases hnext l, hpair⟩, ht.lease hok, hsize⟩

/-- Settles O53, from the empty table: a lease spends its values, what is spent stays spent, and a lease begins above what is spent. -/
theorem gcmLeasesNeverRepeat : Obligations.GcmLeasesNeverRepeat :=
  fun l => GcmFits.leases (fun _ hx => absurd hx List.not_mem_nil) l

end Sys2Proof.Machine
end

section
/-! PROOFS. Control-space offsets (R448): block by block, an offset names the register that stands there, and every register is named
by its own offset. -/

namespace Sys2Proof.Machine

/-! ### Arrays of registers -/

theorem arrayIndex_eq_some {base stride n o i : Nat} (h : arrayIndex base stride n o = some i) :
    o = base + i * stride ∧ i < n := by
  unfold arrayIndex at h
  split at h
  case isTrue hin =>
    obtain ⟨hbase, hmod, hn⟩ := hin
    obtain rfl := Option.some.inj h
    have hdiv := Nat.div_add_mod' (o - base) stride
    omega
  case isFalse => simp at h

theorem arrayIndex2_eq_some {base stride n stride2 m o i j : Nat} (h : arrayIndex2 base stride n stride2 m o = some (i, j)) :
    o = base + i * stride + j * stride2 ∧ i < n ∧ j < m := by
  unfold arrayIndex2 at h
  split at h
  case isTrue hin =>
    obtain ⟨hbase, hn, hmod, hm⟩ := hin
    simp only [Option.some.injEq, Prod.mk.injEq] at h
    obtain ⟨rfl, rfl⟩ := h
    have hdiv := Nat.div_add_mod' (o - base) stride
    have hdiv2 := Nat.div_add_mod' ((o - base) % stride) stride2
    omega
  case isFalse => simp at h

theorem arrayIndex_at {base stride n i : Nat} (hs : 0 < stride) (hi : i < n) : arrayIndex base stride n (base + i * stride) = some i := by
  simp [arrayIndex, hs, hi]

/-- Offsets below an array, past it, and between two of its registers name none of them. -/
theorem arrayIndex_before {base stride n o : Nat} (h : o < base) : arrayIndex base stride n o = none :=
  if_neg fun hin => Nat.not_le.mpr h hin.1

theorem arrayIndex_past {base stride n o : Nat} (h : base + n * stride < o + stride) : arrayIndex base stride n o = none := by
  refine Option.eq_none_iff_forall_ne_some.mpr fun i hi => ?_
  obtain ⟨rfl, hin⟩ := arrayIndex_eq_some hi
  have hmul := Nat.mul_le_mul_right stride hin
  rw [Nat.succ_mul] at hmul
  omega

theorem arrayIndex_between {base stride n b i x : Nat} (hlo : base < b + x) (hhi : b + x < base + stride) :
    arrayIndex base stride n (b + i * stride + x) = none := by
  refine if_neg fun hin => ?_
  have hoff : b + i * stride + x - base = i * stride + (b + x - base) := by omega
  have hmod := hin.2.1
  rw [hoff, Nat.mul_add_mod_self_right, Nat.mod_eq_of_lt (by omega)] at hmod
  omega

theorem arrayIndex_between_first {base stride n b i : Nat} (hlo : base < b) (hhi : b < base + stride) :
    arrayIndex base stride n (b + i * stride) = none := arrayIndex_between (x := 0) hlo hhi

theorem arrayIndex2_at {base stride n stride2 m i j : Nat} (hs : 0 < stride2) (hj : j < m) (hm : m * stride2 ≤ stride) (hi : i < n) :
    arrayIndex2 base stride n stride2 m (base + i * stride + j * stride2) = some (i, j) := by
  have hlt : j * stride2 < stride := Nat.lt_of_lt_of_le (Nat.mul_lt_mul_of_pos_right hj hs) hm
  have hdiv : (i * stride + j * stride2) / stride = i := by
    rw [Nat.mul_comm i, Nat.mul_add_div (by omega), Nat.div_eq_of_lt hlt, Nat.add_zero]
  have hmod : (i * stride + j * stride2) % stride = j * stride2 := by
    rw [Nat.mul_comm i, Nat.mul_add_mod, Nat.mod_eq_of_lt hlt]
  simp [arrayIndex2, hdiv, hmod, hi, hj, hs, Nat.add_assoc]

theorem arrayIndex2_past {base stride n stride2 m o : Nat} (hs : 0 < stride) (h : base + n * stride ≤ o) :
    arrayIndex2 base stride n stride2 m o = none := by
  refine if_neg fun hin => Nat.not_le.mpr hin.2.1 ?_
  rw [Nat.le_div_iff_mul_le hs]
  omega

/-- Past the second level's registers. -/
theorem arrayIndex2_between {base stride n stride2 m b i x : Nat} (hs : 0 < stride2) (hlo : base + m * stride2 ≤ b + x)
    (hhi : b + x < base + stride) : arrayIndex2 base stride n stride2 m (b + i * stride + x) = none := by
  refine if_neg fun hin => Nat.not_le.mpr hin.2.2.2 ?_
  have hoff : b + i * stride + x - base = i * stride + (b + x - base) := by omega
  rw [hoff, Nat.mul_add_mod_self_right, Nat.mod_eq_of_lt (by omega), Nat.le_div_iff_mul_le hs]
  omega

theorem arrayIndex2_between_first {base stride n stride2 m b i : Nat} (hs : 0 < stride2) (hlo : base + m * stride2 ≤ b)
    (hhi : b < base + stride) : arrayIndex2 base stride n stride2 m (b + i * stride) = none := arrayIndex2_between (x := 0) hs hlo hhi

/-! ### What a block's offsets name -/

/-- Every register that the block `f`, which begins at `base`, names stands at the offset that names it, with its indices in range. -/
def Reg.Sound (base : Nat) (f : Nat → Option Reg) : Prop := ∀ o r, f o = some r → r.addr = base + o ∧ r.valid = true

/-- The device blocks: an arm of a block names a fixed register, one of an array, or nothing. -/
theorem Reg.sound_device :
    Sound 0x0 Reg.ofTOP ∧ Sound 0x10000 Reg.ofCLK ∧ Sound 0x20000 Reg.ofPWR ∧ Sound 0x30000 Reg.ofEVT ∧
    Sound 0x40000 Reg.ofPMU ∧ Sound 0x50000 Reg.ofFINJ ∧ Sound 0x60000 Reg.ofBIST ∧ Sound 0x80000 Reg.ofHIF ∧
    Sound 0xa0000 Reg.ofPLOT ∧ Sound 0xc0000 Reg.ofPAIL ∧ Sound 0x100000 Reg.ofSTRP ∧ Sound 0x120000 Reg.ofMAPW ∧
    Sound 0x140000 Reg.ofGWL ∧ Sound 0x180000 Reg.ofHALW ∧ Sound 0x1a0000 Reg.ofBRZ ∧ Sound 0x1c0000 Reg.ofMRAMC := by
  refine ⟨?_, ?_, ?_, ?_, ?_, ?_, ?_, ?_, ?_, ?_, ?_, ?_, ?_, ?_, ?_, ?_⟩
  all_goals
    intro o r h
    simp only [Reg.ofTOP.eq_def, Reg.ofCLK.eq_def, Reg.ofPWR.eq_def, Reg.ofEVT.eq_def, Reg.ofPMU.eq_def, Reg.ofFINJ.eq_def,
      Reg.ofBIST.eq_def, Reg.ofHIF.eq_def, Reg.ofPLOT.eq_def, Reg.ofPAIL.eq_def, Reg.ofSTRP.eq_def, Reg.ofMAPW.eq_def,
      Reg.ofGWL.eq_def, Reg.ofHALW.eq_def, Reg.ofBRZ.eq_def, Reg.ofMRAMC.eq_def] at h
    repeat' split at h
    all_goals cases h <;> simp only [Reg.addr.eq_def, Reg.valid.eq_def, decide_eq_true_eq, and_self]
    all_goals grind only [→ arrayIndex_eq_some]

/-- The blocks of quadrant `q`. -/
theorem Reg.sound_quadrant {q : Nat} (hq : q < 4) :
    Sound (0x1040000 + q * 0x400000) (Reg.ofSKIM q) ∧ Sound (0x1080000 + q * 0x400000) (Reg.ofTREL q) ∧
    Sound (0x10c0000 + q * 0x400000) (Reg.ofCHURN q) ∧ Sound (0x1100000 + q * 0x400000) (Reg.ofSIEVE q) ∧
    Sound (0x1140000 + q * 0x400000) (Reg.ofCIPH q) ∧ Sound (0x1180000 + q * 0x400000) (Reg.ofDGST q) ∧
    Sound (0x11c0000 + q * 0x400000) (Reg.ofMEMC q) := by
  refine ⟨?_, ?_, ?_, ?_, ?_, ?_, ?_⟩
  all_goals
    intro o r h
    simp only [Reg.ofSKIM.eq_def, Reg.ofTREL.eq_def, Reg.ofCHURN.eq_def, Reg.ofSIEVE.eq_def, Reg.ofCIPH.eq_def,
      Reg.ofDGST.eq_def, Reg.ofMEMC.eq_def] at h
    repeat' split at h
    all_goals cases h <;> simp only [Reg.addr.eq_def, Reg.valid.eq_def, Bool.and_eq_true, decide_eq_true_eq]
    all_goals grind only [→ arrayIndex_eq_some, → arrayIndex2_eq_some]

/-- The blocks of flash channel `c`, or of core `c`, which stand eight to a quadrant. -/
theorem Reg.sound_eights {c : Nat} (hc : c < 32) :
    Sound (0x1000000 + c / 8 * 0x400000 + c % 8 * 0x4000) (Reg.ofCHAN c) ∧
      Sound (0x1200000 + c / 8 * 0x400000 + c % 8 * 0x8000) (Reg.ofCORE c) := by
  refine ⟨?_, ?_⟩
  all_goals
    intro o r h
    simp only [Reg.ofCHAN.eq_def, Reg.ofCORE.eq_def] at h
    repeat' split at h
    all_goals cases h <;> simp only [Reg.addr.eq_def, Reg.valid.eq_def, Bool.and_eq_true, decide_eq_true_eq]
    all_goals grind only [→ arrayIndex_eq_some, → arrayIndex2_eq_some]

theorem Reg.Sound.at {base o k : Nat} {f : Nat → Option Reg} {r : Reg} (hf : Sound base f) (h : f k = some r) (ho : base + k = o) :
    r.addr = o ∧ r.valid = true := ho ▸ hf k r h

theorem of_ite_some {c : Prop} [Decidable c] {a b : Option Reg} {r : Reg} {P : Prop} (h : (if c then a else b) = some r)
    (ha : c → a = some r → P) (hb : ¬c → b = some r → P) : P := by
  split at h
  case isTrue hc => exact ha hc h
  case isFalse hc => exact hb hc h

/-- The register at offset `p` of quadrant `q`: the quadrants' part of `Reg.ofOffset`. -/
def Reg.ofQuad (q p : Nat) : Option Reg :=
  if p < 0x20000 then Reg.ofCHAN (q * 8 + p / 0x4000) (p % 0x4000)
  else if p < 0x40000 then none
  else if p < 0x80000 then Reg.ofSKIM q (p - 0x40000)
  else if p < 0xc0000 then Reg.ofTREL q (p - 0x80000)
  else if p < 0x100000 then Reg.ofCHURN q (p - 0xc0000)
  else if p < 0x140000 then Reg.ofSIEVE q (p - 0x100000)
  else if p < 0x180000 then Reg.ofCIPH q (p - 0x140000)
  else if p < 0x1c0000 then Reg.ofDGST q (p - 0x180000)
  else if p < 0x200000 then Reg.ofMEMC q (p - 0x1c0000)
  else if p < 0x240000 then Reg.ofCORE (q * 8 + (p - 0x200000) / 0x8000) ((p - 0x200000) % 0x8000)
  else none

theorem Reg.ofQuad_sound {q p : Nat} {r : Reg} (hq : q < 4) (h : Reg.ofQuad q p = some r) :
    r.addr = 0x1000000 + q * 0x400000 + p ∧ r.valid = true := by
  obtain ⟨hSKIM, hTREL, hCHURN, hSIEVE, hCIPH, hDGST, hMEMC⟩ := Reg.sound_quadrant hq
  refine of_ite_some h (fun _ h => (Reg.sound_eights (by omega)).1.at h (by omega)) fun _ h => ?_
  refine of_ite_some h (fun _ h => by cases h) fun _ h => ?_
  refine of_ite_some h (fun _ h => hSKIM.at h (by omega)) fun _ h => ?_
  refine of_ite_some h (fun _ h => hTREL.at h (by omega)) fun _ h => ?_
  refine of_ite_some h (fun _ h => hCHURN.at h (by omega)) fun _ h => ?_
  refine of_ite_some h (fun _ h => hSIEVE.at h (by omega)) fun _ h => ?_
  refine of_ite_some h (fun _ h => hCIPH.at h (by omega)) fun _ h => ?_
  refine of_ite_some h (fun _ h => hDGST.at h (by omega)) fun _ h => ?_
  refine of_ite_some h (fun _ h => hMEMC.at h (by omega)) fun _ h => ?_
  refine of_ite_some h (fun _ h => (Reg.sound_eights (by omega)).2.at h (by omega)) fun _ h => ?_
  cases h

theorem Reg.ofOffset_sound {o : Nat} {r : Reg} (h : Reg.ofOffset o = some r) : r.addr = o ∧ r.valid = true := by
  obtain ⟨hTOP, hCLK, hPWR, hEVT, hPMU, hFINJ, hBIST, hHIF, hPLOT, hPAIL, hSTRP, hMAPW, hGWL, hHALW, hBRZ, hMRAMC⟩ := Reg.sound_device
  unfold Reg.ofOffset at h
  dsimp only at h
  refine of_ite_some h (fun _ h => ?_) fun _ h => of_ite_some h (fun _ h => ?_) fun _ h => ?_
  · refine of_ite_some h (fun _ h => hTOP.at h (by omega)) fun _ h => ?_
    refine of_ite_some h (fun _ h => hCLK.at h (by omega)) fun _ h => ?_
    refine of_ite_some h (fun _ h => hPWR.at h (by omega)) fun _ h => ?_
    refine of_ite_some h (fun _ h => hEVT.at h (by omega)) fun _ h => ?_
    refine of_ite_some h (fun _ h => hPMU.at h (by omega)) fun _ h => ?_
    refine of_ite_some h (fun _ h => hFINJ.at h (by omega)) fun _ h => ?_
    refine of_ite_some h (fun _ h => hBIST.at h (by omega)) fun _ h => ?_
    refine of_ite_some h (fun _ h => hHIF.at h (by omega)) fun _ h => ?_
    refine of_ite_some h (fun _ h => hPLOT.at h (by omega)) fun _ h => ?_
    refine of_ite_some h (fun _ h => hPAIL.at h (by omega)) fun _ h => ?_
    refine of_ite_some h (fun _ h => hSTRP.at h (by omega)) fun _ h => ?_
    refine of_ite_some h (fun _ h => hMAPW.at h (by omega)) fun _ h => ?_
    refine of_ite_some h (fun _ h => hGWL.at h (by omega)) fun _ h => ?_
    refine of_ite_some h (fun _ h => hHALW.at h (by omega)) fun _ h => ?_
    refine of_ite_some h (fun _ h => hBRZ.at h (by omega)) fun _ h => ?_
    refine of_ite_some h (fun _ h => hMRAMC.at h (by omega)) fun _ h => ?_
    cases h
  · obtain ⟨haddr, hvalid⟩ := Reg.ofQuad_sound (by omega) (p := (o - 0x1000000) % 0x400000) h
    exact ⟨haddr.trans (by omega), hvalid⟩
  · cases h

/-! ### Every register's own offset -/

section
variable {o : Nat}

theorem Reg.ofOffset_PWR (hlo : 0x20000 ≤ o) (hhi : o < 0x30000) : Reg.ofOffset o = Reg.ofPWR (o - 0x20000) := by
  simp (disch := omega) only [Reg.ofOffset, if_pos, if_neg]

theorem Reg.ofOffset_EVT (hlo : 0x30000 ≤ o) (hhi : o < 0x40000) : Reg.ofOffset o = Reg.ofEVT (o - 0x30000) := by
  simp (disch := omega) only [Reg.ofOffset, if_pos, if_neg]

theorem Reg.ofOffset_PMU (hlo : 0x40000 ≤ o) (hhi : o < 0x50000) : Reg.ofOffset o = Reg.ofPMU (o - 0x40000) := by
  simp (disch := omega) only [Reg.ofOffset, if_pos, if_neg]

theorem Reg.ofOffset_FINJ (hlo : 0x50000 ≤ o) (hhi : o < 0x60000) : Reg.ofOffset o = Reg.ofFINJ (o - 0x50000) := by
  simp (disch := omega) only [Reg.ofOffset, if_pos, if_neg]

theorem Reg.ofOffset_BIST (hlo : 0x60000 ≤ o) (hhi : o < 0x80000) : Reg.ofOffset o = Reg.ofBIST (o - 0x60000) := by
  simp (disch := omega) only [Reg.ofOffset, if_pos, if_neg]

theorem Reg.ofOffset_HIF (hlo : 0x80000 ≤ o) (hhi : o < 0xa0000) : Reg.ofOffset o = Reg.ofHIF (o - 0x80000) := by
  simp (disch := omega) only [Reg.ofOffset, if_pos, if_neg]

theorem Reg.ofOffset_PLOT (hlo : 0xa0000 ≤ o) (hhi : o < 0xc0000) : Reg.ofOffset o = Reg.ofPLOT (o - 0xa0000) := by
  simp (disch := omega) only [Reg.ofOffset, if_pos, if_neg]

theorem Reg.ofOffset_PAIL (hlo : 0xc0000 ≤ o) (hhi : o < 0x100000) : Reg.ofOffset o = Reg.ofPAIL (o - 0xc0000) := by
  simp (disch := omega) only [Reg.ofOffset, if_pos, if_neg]

theorem Reg.ofOffset_STRP (hlo : 0x100000 ≤ o) (hhi : o < 0x120000) : Reg.ofOffset o = Reg.ofSTRP (o - 0x100000) := by
  simp (disch := omega) only [Reg.ofOffset, if_pos, if_neg]

theorem Reg.ofOffset_GWL (hlo : 0x140000 ≤ o) (hhi : o < 0x180000) : Reg.ofOffset o = Reg.ofGWL (o - 0x140000) := by
  simp (disch := omega) only [Reg.ofOffset, if_pos, if_neg]

variable {q : Nat}

theorem Reg.ofOffset_quad (hq : q < 4) {p : Nat} (hp : p < 0x400000) : Reg.ofOffset (0x1000000 + q * 0x400000 + p) = Reg.ofQuad q p := by
  have hdiv : (0x1000000 + q * 0x400000 + p - 0x1000000) / 0x400000 = q := by omega
  have hmod : (0x1000000 + q * 0x400000 + p - 0x1000000) % 0x400000 = p := by omega
  unfold Reg.ofOffset
  rw [if_neg (by omega), if_pos (by omega), hdiv, hmod]
  rfl

variable (hq : q < 4)
include hq

theorem Reg.ofOffset_quad_add (hlo : 0x1000000 ≤ o) (hhi : o < 0x1400000) :
    Reg.ofOffset (o + q * 0x400000) = Reg.ofQuad q (o - 0x1000000) := by
  rw [show o + q * 0x400000 = 0x1000000 + q * 0x400000 + (o - 0x1000000) by omega, ofOffset_quad hq (by omega)]

theorem Reg.ofOffset_SKIM (hlo : 0x1040000 ≤ o) (hhi : o < 0x1080000) :
    Reg.ofOffset (o + q * 0x400000) = Reg.ofSKIM q (o - 0x1040000) := by
  simp (disch := omega) only [ofOffset_quad_add hq, ofQuad, if_pos, if_neg, Nat.sub_sub, Nat.reduceAdd]

theorem Reg.ofOffset_TREL (hlo : 0x1080000 ≤ o) (hhi : o < 0x10c0000) :
    Reg.ofOffset (o + q * 0x400000) = Reg.ofTREL q (o - 0x1080000) := by
  simp (disch := omega) only [ofOffset_quad_add hq, ofQuad, if_pos, if_neg, Nat.sub_sub, Nat.reduceAdd]

theorem Reg.ofOffset_CHURN (hlo : 0x10c0000 ≤ o) (hhi : o < 0x1100000) :
    Reg.ofOffset (o + q * 0x400000) = Reg.ofCHURN q (o - 0x10c0000) := by
  simp (disch := omega) only [ofOffset_quad_add hq, ofQuad, if_pos, if_neg, Nat.sub_sub, Nat.reduceAdd]

theorem Reg.ofOffset_SIEVE (hlo : 0x1100000 ≤ o) (hhi : o < 0x1140000) :
    Reg.ofOffset (o + q * 0x400000) = Reg.ofSIEVE q (o - 0x1100000) := by
  simp (disch := omega) only [ofOffset_quad_add hq, ofQuad, if_pos, if_neg, Nat.sub_sub, Nat.reduceAdd]

theorem Reg.ofOffset_CIPH (hlo : 0x1140000 ≤ o) (hhi : o < 0x1180000) :
    Reg.ofOffset (o + q * 0x400000) = Reg.ofCIPH q (o - 0x1140000) := by
  simp (disch := omega) only [ofOffset_quad_add hq, ofQuad, if_pos, if_neg, Nat.sub_sub, Nat.reduceAdd]

theorem Reg.ofOffset_DGST (hlo : 0x1180000 ≤ o) (hhi : o < 0x11c0000) :
    Reg.ofOffset (o + q * 0x400000) = Reg.ofDGST q (o - 0x1180000) := by
  simp (disch := omega) only [ofOffset_quad_add hq, ofQuad, if_pos, if_neg, Nat.sub_sub, Nat.reduceAdd]

theorem Reg.ofOffset_MEMC (hlo : 0x11c0000 ≤ o) (hhi : o < 0x1200000) :
    Reg.ofOffset (o + q * 0x400000) = Reg.ofMEMC q (o - 0x11c0000) := by
  simp (disch := omega) only [ofOffset_quad_add hq, ofQuad, if_pos, if_neg, Nat.sub_sub, Nat.reduceAdd]

end

/-- A flash channel's registers, 16 KiB a channel. -/
theorem Reg.ofOffset_CHAN {c o : Nat} (hc : c < 32) (ho : o < 0x4000) :
    Reg.ofOffset (0x1000000 + (c / 8 * 0x400000 + (c % 8 * 0x4000 + o))) = Reg.ofCHAN c o := by
  have hchan : c / 8 * 8 + (c % 8 * 0x4000 + o) / 0x4000 = c := by omega
  have hreg : (c % 8 * 0x4000 + o) % 0x4000 = o := by omega
  rw [← Nat.add_assoc, ofOffset_quad (by omega) (by omega), ofQuad, if_pos (by omega), hchan, hreg]

/-- A core's registers, 32 KiB a core. -/
theorem Reg.ofOffset_CORE {c o : Nat} (hc : c < 32) (ho : o < 0x8000) :
    Reg.ofOffset (0x1200000 + (c / 8 * 0x400000 + (c % 8 * 0x8000 + o))) = Reg.ofCORE c o := by
  have hcore : c / 8 * 8 + (c % 8 * 0x8000 + o) / 0x8000 = c := by omega
  have hreg : (c % 8 * 0x8000 + o) % 0x8000 = o := by omega
  have hquad : 0x1200000 + (c / 8 * 0x400000 + (c % 8 * 0x8000 + o)) =
      0x1000000 + c / 8 * 0x400000 + (0x200000 + (c % 8 * 0x8000 + o)) := by
    omega
  rw [hquad, ofOffset_quad (by omega) (by omega)]
  simp (disch := omega) only [ofQuad, if_pos, if_neg, Nat.add_sub_cancel_left, hcore, hreg]

/-- The quadrant's part of an offset put last. -/
theorem add_quad_comm (a q x : Nat) : a + q * 0x400000 + x = a + x + q * 0x400000 := Nat.add_right_comm ..

/-- The register's own offset names it. -/
def Reg.Named (r : Reg) : Prop := Reg.ofOffset r.addr = some r

theorem Reg.named_PWR :
    (∀ i < 6, (PWR_TEMP i).Named) := by
  intros
  simp (disch := omega) only [Named, Reg.addr.eq_def, Nat.sub_add_comm, Nat.reduceSub, Reg.ofOffset_PWR]
  simp (disch := omega) only [Reg.ofPWR, arrayIndex_at]

theorem Reg.named_EVT :
    (∀ i < 16, (EVT_PEND i).Named) ∧ (∀ x < 32, (EVT_CPEND x).Named) ∧ (∀ n < 512, (EVT_ROUTE n).Named) := by
  refine ⟨?_, ?_, ?_⟩
  all_goals
    intros
    simp (disch := omega) only [Named, Reg.addr.eq_def, Nat.sub_add_comm, Nat.reduceSub, Reg.ofOffset_EVT]
    simp (disch := omega) only [Reg.ofEVT, arrayIndex_at, arrayIndex_past]

theorem Reg.named_PMU :
    (∀ j < 2, (PMU_OVF j).Named) ∧ (∀ i < 48, (PMU_SEL i).Named) ∧ (∀ i < 48, (PMU_CNT i).Named) := by
  refine ⟨?_, ?_, ?_⟩
  all_goals
    intros
    simp (disch := omega) only [Named, Reg.addr.eq_def, Nat.sub_add_comm, Nat.reduceSub, Reg.ofOffset_PMU]
    simp (disch := omega) only [Reg.ofPMU, arrayIndex_at, arrayIndex_past]

theorem Reg.named_FINJ :
    (∀ i < 16, (FINJ_INJ i).Named) ∧ (∀ i < 16, (FINJ_CNT i).Named) := by
  refine ⟨?_, ?_⟩
  all_goals
    intros
    simp (disch := omega) only [Named, Reg.addr.eq_def, Nat.sub_add_comm, Nat.reduceSub, Reg.ofOffset_FINJ]
    simp (disch := omega) only [Reg.ofFINJ, arrayIndex_at, arrayIndex_between_first]

theorem Reg.named_BIST :
    (∀ u < 5, (BIST_RES u).Named) ∧ (∀ u < 5, (BIST_MISR u).Named) ∧ (∀ k < 4, (BIST_CNT k).Named) := by
  refine ⟨?_, ?_, ?_⟩
  all_goals
    intros
    simp (disch := omega) only [Named, Reg.addr.eq_def, Nat.sub_add_comm, Nat.reduceSub, Reg.ofOffset_BIST]
    simp (disch := omega) only [Reg.ofBIST, arrayIndex_at, arrayIndex_past]

theorem Reg.named_HIF :
    (∀ p < 2, (HIF_PORTSTAT p).Named) := by
  intros
  simp (disch := omega) only [Named, Reg.addr.eq_def, Nat.sub_add_comm, Nat.reduceSub, Reg.ofOffset_HIF]
  simp (disch := omega) only [Reg.ofHIF, arrayIndex_at]

theorem Reg.named_PLOT :
    (∀ n < 512, (PLOT_CTL n).Named) ∧ (∀ n < 512, (PLOT_STAT n).Named) ∧ (∀ n < 512, (PLOT_QV n).Named) ∧
    (∀ n < 512, (PLOT_FETCH n).Named) ∧ (∀ n < 512, (PLOT_SLM n).Named) ∧ (∀ n < 512, (PLOT_FCORE n).Named) ∧
    (∀ n < 512, (PLOT_EWT n).Named) ∧ (∀ n < 512, (PLOT_ECAP n).Named) ∧ (∀ n < 512, (PLOT_USE n).Named) ∧
    (∀ n < 512, (PLOT_STALE n).Named) := by
  refine ⟨?_, ?_, ?_, ?_, ?_, ?_, ?_, ?_, ?_, ?_⟩
  all_goals
    intros
    simp (disch := omega) only [Named, Reg.addr.eq_def, Nat.sub_add_comm, Nat.reduceSub, Reg.ofOffset_PLOT]
    simp (disch := omega) only [Reg.ofPLOT, arrayIndex_at, arrayIndex_between_first]

theorem Reg.named_PAIL :
    (∀ n < 16, (PAIL_POOLCFG n).Named) ∧ (∀ n < 16, (PAIL_POOLBASE n).Named) ∧ (∀ n < 16, (PAIL_POOLCNT n).Named) ∧
    (∀ n < 16, (PAIL_POOLFLOOR n).Named) ∧ (∀ n < 16, (PAIL_POOLSTAT n).Named) ∧ (∀ n < 16, (PAIL_POOLWM n).Named) ∧
    (∀ k < 8, (PAIL_CNT k).Named) := by
  refine ⟨?_, ?_, ?_, ?_, ?_, ?_, ?_⟩
  all_goals
    intros
    simp (disch := omega) only [Named, Reg.addr.eq_def, Nat.sub_add_comm, Nat.reduceSub, Reg.ofOffset_PAIL]
    simp (disch := omega) only [Reg.ofPAIL, arrayIndex_at, arrayIndex_before, arrayIndex_between_first]

theorem Reg.named_STRP :
    (∀ k < 8, (STRP_CNT k).Named) ∧ (∀ g < 128, (STRP_GRP g).Named) ∧ (∀ x < 4096, (STRP_GMEM x).Named) := by
  refine ⟨?_, ?_, ?_⟩
  all_goals
    intros
    simp (disch := omega) only [Named, Reg.addr.eq_def, Nat.sub_add_comm, Nat.reduceSub, Reg.ofOffset_STRP]
    simp (disch := omega) only [Reg.ofSTRP, arrayIndex_at, arrayIndex_past]

theorem Reg.named_GWL :
    (∀ l < 4, (GWL_LSTAT l).Named) ∧ (∀ x < 32, (GWL_LCNT x).Named) := by
  refine ⟨?_, ?_⟩
  all_goals
    intros
    simp (disch := omega) only [Named, Reg.addr.eq_def, Nat.sub_add_comm, Nat.reduceSub, Reg.ofOffset_GWL]
    simp (disch := omega) only [Reg.ofGWL, arrayIndex_at, arrayIndex_past]

theorem Reg.named_SKIM {q : Nat} (hq : q < 4) :
    (∀ u < 8, (SKIM_BIND q u).Named) ∧ (∀ k < 8, (SKIM_CNT q k).Named) := by
  refine ⟨?_, ?_⟩
  all_goals
    intros
    simp (disch := omega) only [Named, Reg.addr.eq_def, add_quad_comm, Nat.sub_add_comm, Nat.reduceSub, Reg.ofOffset_SKIM]
    simp (disch := omega) only [Reg.ofSKIM, arrayIndex_at, arrayIndex_past]

theorem Reg.named_TREL {q : Nat} (hq : q < 4) :
    (TREL_CFG q).Named ∧ (TREL_ERR q).Named ∧ (∀ k < 8, (TREL_CNT q k).Named) ∧ (∀ p < 64, ∀ w < 16, (TREL_PIPE q p w).Named) ∧
    (∀ r < 64, (TREL_RBASE q r).Named) ∧ (∀ r < 64, (TREL_RCTL q r).Named) ∧ (∀ r < 64, (TREL_RSUB q r).Named) ∧
    (∀ r < 64, (TREL_RACK q r).Named) ∧ (∀ r < 64, (TREL_RCMP q r).Named) ∧ (∀ r < 64, (TREL_RSTAT q r).Named) := by
  refine ⟨?_, ?_, ?_, ?_, ?_, ?_, ?_, ?_, ?_, ?_⟩
  all_goals
    intros
    simp (disch := omega) only [Named, Reg.addr.eq_def, add_quad_comm, Nat.sub_add_comm, Nat.reduceSub, Reg.ofOffset_TREL]
    simp (disch := omega) only [Reg.ofTREL, arrayIndex_at, arrayIndex_past, arrayIndex_between_first, arrayIndex2_at, arrayIndex2_past]

theorem Reg.named_CHURN {q : Nat} (hq : q < 4) :
    (CHURN_CFG q).Named ∧ (CHURN_STAT q).Named ∧ (CHURN_ERR q).Named ∧ (CHURN_ERROFF q).Named ∧ (∀ k < 8, (CHURN_CNT q k).Named) := by
  refine ⟨?_, ?_, ?_, ?_, ?_⟩
  all_goals
    intros
    simp (disch := omega) only [Named, Reg.addr.eq_def, add_quad_comm, Nat.sub_add_comm, Nat.reduceSub, Reg.ofOffset_CHURN]
    simp (disch := omega) only [Reg.ofCHURN, arrayIndex_at]

theorem Reg.named_SIEVE {q : Nat} (hq : q < 4) :
    (SIEVE_CFG q).Named ∧ (SIEVE_STAT q).Named ∧ (SIEVE_UCMD q).Named ∧ (SIEVE_URES q).Named ∧ (SIEVE_UVAL q).Named ∧
    (∀ i < 5, (SIEVE_UKEY q i).Named) ∧ (∀ i < 5, (SIEVE_UMASK q i).Named) ∧ (∀ s < 32, (SIEVE_IMG q s).Named) ∧
    (∀ k < 8, (SIEVE_CNT q k).Named) ∧ (∀ t < 256, (SIEVE_TBL q t).Named) ∧ (∀ t < 256, (SIEVE_TUSE q t).Named) := by
  refine ⟨?_, ?_, ?_, ?_, ?_, ?_, ?_, ?_, ?_, ?_, ?_⟩
  all_goals
    intros
    simp (disch := omega) only [Named, Reg.addr.eq_def, add_quad_comm, Nat.sub_add_comm, Nat.reduceSub, Reg.ofOffset_SIEVE]
    simp (disch := omega) only [Reg.ofSIEVE, arrayIndex_at, arrayIndex_past]

theorem Reg.named_CIPH {q : Nat} (hq : q < 4) :
    (CIPH_STAT q).Named ∧ (CIPH_ERR q).Named ∧ (∀ k < 8, (CIPH_CNT q k).Named) := by
  refine ⟨?_, ?_, ?_⟩
  all_goals
    intros
    simp (disch := omega) only [Named, Reg.addr.eq_def, add_quad_comm, Nat.sub_add_comm, Nat.reduceSub, Reg.ofOffset_CIPH]
    simp (disch := omega) only [Reg.ofCIPH, arrayIndex_at]

theorem Reg.named_DGST {q : Nat} (hq : q < 4) :
    (DGST_CFG q).Named ∧ (DGST_STAT q).Named ∧ (∀ k < 8, (DGST_CNT q k).Named) ∧ (∀ s < 8, (DGST_SCTL q s).Named) ∧
    (∀ s < 8, (DGST_SSTAT q s).Named) ∧ (∀ s < 8, (DGST_SEPOCH q s).Named) ∧ (∀ s < 8, (DGST_SLABEL q s).Named) ∧
    (∀ s < 8, (DGST_DATA q s).Named) ∧ (∀ s < 8, ∀ i < 8, (DGST_LAST q s i).Named) ∧
    (∀ s < 8, ∀ i < 8, (DGST_RES q s i).Named) ∧ (∀ s < 8, ∀ i < 8, (DGST_EXP q s i).Named) ∧ (∀ s < 8, (DGST_CMP q s).Named) ∧
    (∀ s < 8, (DGST_SLEN q s).Named) := by
  refine ⟨?_, ?_, ?_, ?_, ?_, ?_, ?_, ?_, ?_, ?_, ?_, ?_, ?_⟩
  all_goals
    intros
    simp (disch := omega) only [Named, Reg.addr.eq_def, add_quad_comm, Nat.sub_add_comm, Nat.reduceSub, Reg.ofOffset_DGST]
    simp (disch := omega) only [Reg.ofDGST, arrayIndex_at, arrayIndex_past, arrayIndex_between, arrayIndex_between_first,
      arrayIndex2_at, arrayIndex2_between, arrayIndex2_between_first]

theorem Reg.named_MEMC {q : Nat} (hq : q < 4) :
    (MEMC_CFG q).Named ∧ (MEMC_STAT q).Named ∧ (MEMC_SCHED q).Named ∧ (MEMC_PAGE q).Named ∧ (MEMC_REF q).Named ∧
    (MEMC_RHT q).Named ∧ (MEMC_FCHG q).Named ∧ (MEMC_RETRY q).Named ∧ (MEMC_SCRUB q).Named ∧ (MEMC_MARK q).Named ∧
    (∀ k < 8, (MEMC_CNT q k).Named) ∧ (∀ x < 32, (MEMC_TSET q x).Named) := by
  refine ⟨?_, ?_, ?_, ?_, ?_, ?_, ?_, ?_, ?_, ?_, ?_, ?_⟩
  all_goals
    intros
    simp (disch := omega) only [Named, Reg.addr.eq_def, add_quad_comm, Nat.sub_add_comm, Nat.reduceSub, Reg.ofOffset_MEMC]
    simp (disch := omega) only [Reg.ofMEMC, arrayIndex_at, arrayIndex_past]

theorem Reg.named_CHAN {ch : Nat} (hch : ch < 32) :
    (CHAN_CFG ch).Named ∧ (CHAN_STAT ch).Named ∧ (CHAN_DTO ch).Named ∧ (∀ k < 3, (CHAN_TNOM ch k).Named) ∧
    (∀ i < 2, (CHAN_DIEPRES ch i).Named) ∧ (∀ i < 2, (CHAN_DIEFAIL ch i).Named) ∧ (∀ i < 2, (CHAN_DIEXR ch i).Named) ∧
    (∀ d < 64, (CHAN_DIESTAT ch d).Named) ∧ (∀ k < 8, (CHAN_CNT ch k).Named) ∧ (∀ e < 64, ∀ w < 4, (CHAN_RETRY ch e w).Named) := by
  refine ⟨?_, ?_, ?_, ?_, ?_, ?_, ?_, ?_, ?_, ?_⟩
  all_goals
    intros
    simp (disch := omega) only [Named, Reg.addr.eq_def, Nat.add_assoc, Reg.ofOffset_CHAN]
    simp (disch := omega) only [Reg.ofCHAN, arrayIndex_at, arrayIndex_past, arrayIndex2_at, ← Nat.add_assoc]

theorem Reg.named_CORE {c : Nat} (hc : c < 32) :
    (CORE_STAT c).Named ∧ (CORE_PROG c).Named ∧ (CORE_PC c).Named ∧ (CORE_TRAP c).Named ∧ (∀ i < 16, (CORE_RGN c i).Named) ∧
    (∀ i < 16, (CORE_RLIM c i).Named) ∧ (∀ n < 8, (CORE_CNT c n).Named) := by
  refine ⟨?_, ?_, ?_, ?_, ?_, ?_, ?_⟩
  all_goals
    intros
    simp (disch := omega) only [Named, Reg.addr.eq_def, Nat.add_assoc, Reg.ofOffset_CORE]
    simp (disch := omega) only [Reg.ofCORE, arrayIndex_at, arrayIndex_past, arrayIndex_between_first]

/-- The registers that stand alone by their offsets; the others by the lemma of their block. -/
theorem Reg.named_of_valid {r : Reg} (h : r.valid = true) : r.Named := by
  cases r
  all_goals simp only [Reg.valid.eq_def, Bool.and_eq_true, decide_eq_true_eq] at h
  case TOP_UNITS | TOP_CHRETIRED | TOP_TMAX | TOP_MODE | TOP_RSTCAUSE | TOP_RESET | TOP_QBIST | TOP_STRAP | TOP_ID |
      PWR_PSTATE | PWR_THERM | PWR_VCORE | HIF_PORTCFG | HIF_DISCARD | HIF_MAPCAP | HIF_ACTDRAIN | PLOT_SUMQV | PLOT_SUMIO |
      PLOT_SLMPOOL | PLOT_ERR | MAPW_STAT | MAPW_CKPT | MAPW_COMPOST | MAPW_RELOC | MAPW_SPARE | MAPW_EWSET | MAPW_EWACT |
      MAPW_RECOV | MRAMC_WC | MRAMC_JHEAD | MRAMC_JTAIL | MRAMC_WSEQ | STRP_CFG | STRP_RBCFG | STRP_RBSTAT | STRP_RAKE |
      STRP_RAKESTAT | STRP_JSTAT | GWL_ID | GWL_CFG | GWL_HB | GWL_VIEW | GWL_SETS | GWL_RESYNC | GWL_CJ | PAIL_ERR |
      PAIL_ERRH | HALW_LCS | HALW_SCRUB | HALW_DIEID | HALW_SVN | HALW_KEYS | HALW_DEBUG | HALW_BOOT | BRZ_STAT |
      BRZ_STREAMID | BRZ_GRAFT | EVT_JCFG | EVT_JSTAT | EVT_JHEAD | EVT_HOST_ACK_SEQ | EVT_BADADDR | EVT_BADINFO | EVT_SWTRIG |
      PMU_CTL | FINJ_CTL | FINJ_SEED | BIST_LAST | CLK_STAT =>
    rfl
  case PWR_TEMP => simp [Reg.named_PWR, h]
  case EVT_PEND | EVT_CPEND | EVT_ROUTE => simp [Reg.named_EVT, h]
  case PMU_OVF | PMU_SEL | PMU_CNT => simp [Reg.named_PMU, h]
  case FINJ_INJ | FINJ_CNT => simp [Reg.named_FINJ, h]
  case BIST_RES | BIST_MISR | BIST_CNT => simp [Reg.named_BIST, h]
  case HIF_PORTSTAT => simp [Reg.named_HIF, h]
  case PLOT_CTL | PLOT_STAT | PLOT_QV | PLOT_FETCH | PLOT_SLM | PLOT_FCORE | PLOT_EWT | PLOT_ECAP | PLOT_USE |
      PLOT_STALE => simp [Reg.named_PLOT, h]
  case PAIL_POOLCFG | PAIL_POOLBASE | PAIL_POOLCNT | PAIL_POOLFLOOR | PAIL_POOLSTAT | PAIL_POOLWM | PAIL_CNT => simp [Reg.named_PAIL, h]
  case STRP_CNT | STRP_GRP | STRP_GMEM => simp [Reg.named_STRP, h]
  case GWL_LSTAT | GWL_LCNT => simp [Reg.named_GWL, h]
  case SKIM_BIND | SKIM_CNT => simp [Reg.named_SKIM, h]
  case TREL_CFG | TREL_ERR | TREL_CNT | TREL_PIPE | TREL_RBASE | TREL_RCTL | TREL_RSUB | TREL_RACK | TREL_RCMP |
      TREL_RSTAT => simp [Reg.named_TREL, h]
  case CHURN_CFG | CHURN_STAT | CHURN_ERR | CHURN_ERROFF | CHURN_CNT => simp [Reg.named_CHURN, h]
  case SIEVE_CFG | SIEVE_STAT | SIEVE_UCMD | SIEVE_URES | SIEVE_UVAL | SIEVE_UKEY | SIEVE_UMASK | SIEVE_IMG | SIEVE_CNT |
      SIEVE_TBL | SIEVE_TUSE => simp [Reg.named_SIEVE, h]
  case CIPH_STAT | CIPH_ERR | CIPH_CNT => simp [Reg.named_CIPH, h]
  case DGST_CFG | DGST_STAT | DGST_CNT | DGST_SCTL | DGST_SSTAT | DGST_SEPOCH | DGST_SLABEL | DGST_DATA | DGST_LAST |
      DGST_RES | DGST_EXP | DGST_CMP | DGST_SLEN => simp [Reg.named_DGST, h]
  case MEMC_CFG | MEMC_STAT | MEMC_SCHED | MEMC_PAGE | MEMC_REF | MEMC_RHT | MEMC_FCHG | MEMC_RETRY | MEMC_SCRUB | MEMC_MARK |
      MEMC_CNT | MEMC_TSET => simp [Reg.named_MEMC, h]
  case CHAN_CFG | CHAN_STAT | CHAN_DTO | CHAN_TNOM | CHAN_DIEPRES | CHAN_DIEFAIL | CHAN_DIEXR | CHAN_DIESTAT | CHAN_CNT |
      CHAN_RETRY => simp [Reg.named_CHAN, h]
  case CORE_STAT | CORE_PROG | CORE_PC | CORE_TRAP | CORE_RGN | CORE_RLIM | CORE_CNT => simp [Reg.named_CORE, h]

/-- Settles O52: the blocks name every register by its own offset, and nothing else. -/
theorem registerOffsets : Obligations.RegisterOffsets :=
  ⟨fun _ h => Reg.named_of_valid h, fun _ _ h => Reg.ofOffset_sound h⟩

end Sys2Proof.Machine
end

section
/-! PROOFS. The flags of a VZ64 core (R310 to R312): what each flag reads after each flag is set, and from that the results and flags of
addition, subtraction, shifts, rotates and division. -/

namespace Sys2Proof.Machine

/-! ### Bits of fl -/

theorem getLsbD_flBit (fl : W64) {i j : Nat} (hi : i < 64) (b : Bool) : (flBit fl i b).getLsbD j = if j = i then b else fl.getLsbD j := by
  have hbit : (BitVec.ofNat 64 (2 ^ i)).getLsbD j = decide (j = i) := by
    rw [BitVec.getLsbD_ofNat, Nat.testBit_two_pow]
    by_cases hj : j = i
    · simp [hj, hi]
    · simp [hj, Ne.symm hj]
  unfold flBit
  cases b with
  | true =>
    rw [if_pos rfl, BitVec.getLsbD_or, hbit]
    by_cases hj : j = i <;> simp [hj]
  | false =>
    rw [if_neg Bool.false_ne_true, BitVec.getLsbD_and, BitVec.getLsbD_not, hbit]
    by_cases hj : j = i
    · simp [hj]
    · cases hfl : fl.getLsbD j
      · simp [hj]
      · simp [hj, BitVec.lt_of_getLsbD hfl]

section
variable (fl : W64) (b : Bool)

theorem getLsbD_setN (j : Nat) : (setN fl b).getLsbD j = if j = 0 then b else fl.getLsbD j := getLsbD_flBit fl (by decide) b
theorem getLsbD_setZ (j : Nat) : (setZ fl b).getLsbD j = if j = 1 then b else fl.getLsbD j := getLsbD_flBit fl (by decide) b
theorem getLsbD_setC (j : Nat) : (setC fl b).getLsbD j = if j = 2 then b else fl.getLsbD j := getLsbD_flBit fl (by decide) b
theorem getLsbD_setV (j : Nat) : (setV fl b).getLsbD j = if j = 3 then b else fl.getLsbD j := getLsbD_flBit fl (by decide) b
theorem getLsbD_setH (j : Nat) : (setH fl b).getLsbD j = if j = 4 then b else fl.getLsbD j := getLsbD_flBit fl (by decide) b
theorem getLsbD_setDZ (j : Nat) : (setDZ fl).getLsbD j = if j = 8 then true else fl.getLsbD j := getLsbD_flBit fl (by decide) true

end

/-- N and Z follow the result, every other bit of fl stays. -/
theorem getLsbD_flNZ (fl r : W64) (j : Nat) :
    (flNZ fl r).getLsbD j = if j = 1 then r == 0#64 else if j = 0 then r.getLsbD 63 else fl.getLsbD j := by
  rw [flNZ, getLsbD_setZ, getLsbD_setN]


/-! ### Addition and subtraction (R310) -/

theorem bit63_eq_msb (a : W64) : a.getLsbD 63 = a.msb := (BitVec.msb_eq_getLsbD_last a).symm

/-- The flags of a sum. -/
theorem sumRes_flags (fl a b : W64) (cin : Bool) (v : W64 → Bool) :
    (sumRes fl a b cin v).val = a + b + (BitVec.ofBool cin).zeroExtend 64 ∧
      fN (sumRes fl a b cin v).fl = (sumRes fl a b cin v).val.getLsbD 63 ∧
      fZ (sumRes fl a b cin v).fl = ((sumRes fl a b cin v).val == 0#64) ∧
      (sumRes fl a b cin v).fl.getLsbD 8 = fl.getLsbD 8 ∧ fDT (sumRes fl a b cin v).fl = fDT fl ∧
      fC (sumRes fl a b cin v).fl = decide (2 ^ 64 ≤ a.toNat + b.toNat + cin.toNat) ∧
      fH (sumRes fl a b cin v).fl = decide (16 ≤ a.toNat % 16 + b.toNat % 16 + cin.toNat) ∧
      fV (sumRes fl a b cin v).fl = v (sumRes fl a b cin v).val := by
  have hcin : (if cin then 1 else 0) = cin.toNat := by cases cin <;> rfl
  have hval : BitVec.ofNat 64 cin.toNat = (BitVec.ofBool cin).zeroExtend 64 := by cases cin <;> rfl
  simp only [sumRes, fN, fZ, fDT, fC, fH, fV, getLsbD_setH, getLsbD_setV, getLsbD_setC, getLsbD_flNZ, hcin, hval]
  simp

/-- Settles O4: an addition and a subtraction are sums, with V by the signs of the operands and of the result. -/
theorem additionFlags : Obligations.AdditionFlags := by
  intro fl a b cin
  obtain ⟨haval, haN, haZ, haDZ, haDT, haC, haH, haV⟩ := sumRes_flags fl a b cin _
  obtain ⟨hsval, hsN, hsZ, hsDZ, hsDT, hsC, hsH, hsV⟩ := sumRes_flags fl a (~~~b) cin _
  refine ⟨haval, hsval, ?_, haC, haH, ?_, hsC, hsH, ?_⟩
  · rw [List.forall_mem_cons, List.forall_mem_singleton]
    exact ⟨⟨haN, haZ, haDZ, haDT⟩, hsN, hsZ, hsDZ, hsDT⟩
  · simp only [← bit63_eq_msb]
    exact haV
  · simp only [← bit63_eq_msb]
    exact hsV


/-! ### Shifts and rotates (R311) -/

/-- A result that gives N and Z, and C when `c` holds a carry. -/
def Res.Shifted (r : Res) (fl v : W64) (c : Bool) : Prop :=
  r.val = v ∧ fN r.fl = v.getLsbD 63 ∧ fZ r.fl = (v == 0#64) ∧ fC r.fl = c ∧ fV r.fl = fV fl ∧ fH r.fl = fH fl

theorem resNZ_shifted (fl v : W64) : (resNZ fl v).Shifted fl v (fC fl) := by
  simp only [Res.Shifted, resNZ, fN, fZ, fC, fV, fH, getLsbD_flNZ]
  simp

theorem resNZC_shifted (fl v : W64) (c : Bool) : (resNZC fl v c).Shifted fl v c := by
  simp only [Res.Shifted, resNZC, fN, fZ, fC, fV, fH, getLsbD_setC, getLsbD_flNZ]
  simp

section
variable (fl a : W64) (n : Nat)

theorem shlRes_shifted : (shlRes fl a n).Shifted fl (a <<< n)
    (if n = 0 then fC fl else if n < 64 then a.getLsbD (64 - n) else if n = 64 then a.getLsbD 63 else false) := by
  unfold shlRes
  split
  · next h => simpa [h] using resNZ_shifted fl a
  · split
    · exact resNZC_shifted ..
    · next h =>
      have hz : a <<< n = 0#64 := BitVec.shiftLeft_eq_zero (Nat.not_lt.mp h)
      rw [hz]
      split <;> exact resNZC_shifted ..

theorem shrRes_shifted : (shrRes fl a n).Shifted fl (a >>> n) (if n = 0 then fC fl else if n ≤ 64 then a.getLsbD (n - 1) else false) := by
  unfold shrRes
  by_cases h0 : n = 0
  · simpa [h0] using resNZ_shifted fl a
  · rw [if_neg h0, if_neg h0]
    by_cases hlt : n < 64
    · rw [if_pos hlt, if_pos hlt.le]
      exact resNZC_shifted ..
    · have hz : a >>> n = 0#64 := BitVec.ushiftRight_eq_zero (Nat.not_lt.mp hlt)
      rw [if_neg hlt, hz]
      by_cases h64 : n = 64
      · simpa [h64] using resNZC_shifted fl 0#64 (a.getLsbD 63)
      · rw [if_neg h64, if_neg (by omega)]
        exact resNZC_shifted ..

/-- From 63 places up an arithmetic shift leaves the sign everywhere. -/
theorem sshiftRight_of_ge (h : 63 ≤ n) : a.sshiftRight n = a.sshiftRight 63 := by
  apply BitVec.eq_of_getLsbD_eq
  intro i hi
  simp only [BitVec.getLsbD_sshiftRight, ← bit63_eq_msb]
  congr 1
  by_cases hlast : n + i < 64
  · obtain rfl : n = 63 := by omega
    rfl
  · rw [if_neg hlast]
    split
    · next h63 => rw [show i = 0 by omega]
    · rfl

theorem sarRes_shifted : (sarRes fl a n).Shifted fl (a.sshiftRight n)
    (if n = 0 then fC fl else if n ≤ 64 then a.getLsbD (n - 1) else a.getLsbD 63) := by
  unfold sarRes
  by_cases h0 : n = 0
  · simpa [h0] using resNZ_shifted fl a
  · rw [if_neg h0, if_neg h0]
    by_cases hlt : n < 64
    · rw [if_pos hlt, if_pos hlt.le]
      exact resNZC_shifted ..
    · rw [if_neg hlt, sshiftRight_of_ge a n (by omega)]
      by_cases h64 : n = 64
      · simpa [h64] using resNZC_shifted fl (a.sshiftRight 63) (a.getLsbD 63)
      · rw [if_neg (by omega)]
        exact resNZC_shifted ..

theorem rorRes_shifted : (rorRes fl a n).Shifted fl (a.rotateRight (n % 64))
    (if n % 64 = 0 then fC fl else (a.rotateRight (n % 64)).getLsbD 63) := by
  unfold rorRes
  by_cases h0 : n % 64 = 0
  · have hrot : a.rotateRight (n % 64) = a := by simp [h0, BitVec.rotateRight_def, BitVec.shiftLeft_eq_zero]
    rw [if_pos h0, if_pos h0, hrot]
    exact resNZ_shifted fl a
  · rw [if_neg h0, if_neg h0]
    exact resNZC_shifted ..

theorem rolRes_shifted : (rolRes fl a n).Shifted fl (a.rotateLeft (n % 64))
    (if n % 64 = 0 then fC fl else (a.rotateLeft (n % 64)).getLsbD 0) := by
  unfold rolRes
  by_cases h0 : n % 64 = 0
  · have hrot : a.rotateLeft (n % 64) = a := by simp [h0, BitVec.rotateLeft_def, BitVec.ushiftRight_eq_zero]
    rw [if_pos h0, if_pos h0, hrot]
    exact resNZ_shifted fl a
  · rw [if_neg h0, if_neg h0]
    exact resNZC_shifted ..

end


/-- Settles O3: the five shifts, each with its value and its carry. -/
theorem shiftResult : Obligations.ShiftResult := by
  intro fl a n _
  obtain ⟨hlval, hlN, hlZ, hlC, hlV, hlH⟩ := shlRes_shifted fl a n
  obtain ⟨hrval, hrN, hrZ, hrC, hrV, hrH⟩ := shrRes_shifted fl a n
  obtain ⟨haval, haN, haZ, haC, haV, haH⟩ := sarRes_shifted fl a n
  obtain ⟨horval, horN, horZ, horC, horV, horH⟩ := rorRes_shifted fl a n
  obtain ⟨holval, holN, holZ, holC, holV, holH⟩ := rolRes_shifted fl a n
  refine ⟨hlval, hrval, haval, horval, holval, ?_, hlC, hrC, haC, horval ▸ horC, holval ▸ holC⟩
  simp only [List.forall_mem_cons, List.not_mem_nil, false_implies, implies_true, and_true, hlval, hrval, haval, horval, holval]
  exact ⟨⟨hlN, hlZ, hlV, hlH⟩, ⟨hrN, hrZ, hrV, hrH⟩, ⟨haN, haZ, haV, haH⟩, ⟨horN, horZ, horV, horH⟩, holN, holZ, holV, holH⟩

/-! ### Division (R312) -/

/-- The signed quotient is that of the integers but for the one that overflows. -/
theorem toInt_ofInt_tdiv {a b : W64} (h : ¬(a = 0x8000000000000000#64 ∧ b = BitVec.allOnes 64)) :
    (BitVec.ofInt 64 (a.toInt.tdiv b.toInt)).toInt = a.toInt.tdiv b.toInt := by
  have hne : a ≠ BitVec.intMin 64 ∨ b ≠ -1#64 := by
    rw [← not_and_or]
    exact h
  rw [← BitVec.toInt_sdiv_of_ne_or_ne a b hne, BitVec.ofInt_toInt]

theorem toInt_ofInt_tmod (a b : W64) : (BitVec.ofInt 64 (a.toInt.tmod b.toInt)).toInt = a.toInt.tmod b.toInt := by
  rw [← BitVec.toInt_srem, BitVec.ofInt_toInt]

section
variable (signed rem : Bool) (fl a b : W64)

/-- The flags that a division leaves, in terms of the V and DZ it works out. -/
theorem divRes_flags :
    fN (divRes signed rem fl a b).1.fl = (divRes signed rem fl a b).1.val.getLsbD 63 ∧
      fZ (divRes signed rem fl a b).1.fl = ((divRes signed rem fl a b).1.val == 0#64) ∧ fC (divRes signed rem fl a b).1.fl = false := by
  simp only [divRes, fN, fZ, fC, getLsbD_setC, getLsbD_flNZ]
  simp

theorem divRes_by_zero :
    (divRes signed rem fl a 0#64).1.val = (if rem then a else 0#64) ∧ fV (divRes signed rem fl a 0#64).2 = false ∧
      (divRes signed rem fl a 0#64).2.getLsbD 8 = true := by
  simp only [divRes, fV, getLsbD_setV, beq_self_eq_true, reduceIte, getLsbD_setDZ]
  simp

variable {b} (hb : b ≠ 0#64)
include hb

theorem divRes_by_nonzero :
    (divRes signed rem fl a b).1.val = (if rem then (divide signed a b).2.1 else (divide signed a b).1) ∧
      fV (divRes signed rem fl a b).2 = (divide signed a b).2.2 ∧ (divRes signed rem fl a b).2.getLsbD 8 = fl.getLsbD 8 := by
  have hz : (b == 0#64) = false := beq_false_of_ne hb
  simp only [divRes, fV, getLsbD_setV, hz]
  simp

end

theorem divide_overflow : divide true 0x8000000000000000#64 (BitVec.allOnes 64) = (0x8000000000000000#64, 0#64, true) := rfl

theorem divide_signed {a b : W64} (h : ¬(a = 0x8000000000000000#64 ∧ b = BitVec.allOnes 64)) :
    divide true a b = (BitVec.ofInt 64 (a.toInt.tdiv b.toInt), BitVec.ofInt 64 (a.toInt.tmod b.toInt), false) := by
  rw [divide, if_pos rfl, if_neg h]

theorem divide_unsigned (a b : W64) : divide false a b = (a / b, a % b, false) := by
  simp [divide, BitVec.udiv_def, BitVec.umod_def]

/-- Settles O6: by zero, the one overflow, and otherwise the integers' or the naturals' quotient and remainder. -/
theorem divisionResult : Obligations.DivisionResult := by
  intro signed rem fl a b
  refine ⟨?_, ?_, ?_, ?_, divRes_flags signed rem fl a b⟩
  · rintro rfl
    exact divRes_by_zero signed rem fl a
  · rintro hb rfl rfl rfl
    simpa only [divide_overflow] using divRes_by_nonzero true rem fl 0x8000000000000000#64 hb
  · rintro hb rfl hfits
    obtain ⟨hval, hV, hDZ⟩ := divRes_by_nonzero true rem fl a hb
    rw [divide_signed hfits] at hval hV
    refine ⟨?_, hV, hDZ⟩
    cases rem
    · simpa [hval] using toInt_ofInt_tdiv hfits
    · simpa [hval] using toInt_ofInt_tmod a b
  · rintro hb rfl
    obtain ⟨hval, hV, hDZ⟩ := divRes_by_nonzero false rem fl a hb
    rw [divide_unsigned] at hval hV
    refine ⟨?_, hV, hDZ⟩
    cases rem <;> simp [hval]

end Sys2Proof.Machine
end

section
/-! PROOFS. Register, division, decimal and immediate instructions of a VZ64 core (R310 to R312, R318 to R321): each row is a case of
its form, whose effect on a core that executes it is stated once. -/

namespace Sys2Proof.Machine

/-! ### Sums without their carry -/

theorem addRes_val (fl a b : W64) : (addRes fl a b false).val = a + b := BitVec.add_zero _

theorem addRes_carry_val (fl a b : W64) (cin : Bool) : (addRes fl a b cin).val = a + b + (if cin then 1#64 else 0#64) := by
  cases cin <;> rfl

theorem subRes_val (fl a b : W64) : (subRes fl a b true).val = a - b := by
  show a + ~~~b + 1#64 = a - b
  rw [BitVec.add_assoc, ← BitVec.neg_eq_not_add, BitVec.sub_eq_add_neg]

theorem subRes_carry_val (fl a b : W64) (cin : Bool) : (subRes fl a b cin).val = a + ~~~b + (if cin then 1#64 else 0#64) := by
  cases cin <;> rfl

/-! ### Register ALU instructions -/

section
variable {i : Instr} {s : State} (hs : s.live) {c g : Nat} (hx : s.dev.executes c g = true) {rd ra rb : Nat} {sf : Bool} {v : W64}
include hs hx

/-- A command that is a register ALU instruction with operation `op`, whose value here is `v`. -/
theorem effects_aluR {fn : Nat} {op : W64 → W64 → W64 → Res} (hi : exec i s = run (fun d => d.aluR fn c g rd ra rb sf op) s)
    (hv : (op (s.dev.flags c) (s.dev.x c ra) (s.dev.x c rb)).val = v) :
    Effects i s (fun e => e = s.dev.writes c rd v
      (if sf then (op (s.dev.flags c) (s.dev.x c ra) (s.dev.x c rb)).fl else s.dev.flags c)) :=
  effects_run hi hs (by rw [Dev.aluR_executes _ _ _ _ _ _ _ _ _ hx, hv])

theorem effects_aluU {fn : Nat} {op : W64 → W64 → Res} (hi : exec i s = run (fun d => d.aluU fn c g rd ra sf op) s)
    (hv : (op (s.dev.flags c) (s.dev.x c ra)).val = v) :
    Effects i s (fun e => e = s.dev.writes c rd v (if sf then (op (s.dev.flags c) (s.dev.x c ra)).fl else s.dev.flags c)) :=
  effects_aluR (op := fun fl a _ => op fl a) hs hx hi hv

/-- One whose value is `f` of its operand, with the flags N and Z. -/
theorem effects_aluNZ {fn : Nat} (f : W64 → W64) (hi : exec i s = run (fun d => d.aluU fn c g rd ra sf (fun fl a => resNZ fl (f a))) s) :
    Effects i s (fun e => e = s.dev.writes c rd (f (s.dev.x c ra))
      (if sf then flNZ (s.dev.flags c) (f (s.dev.x c ra)) else s.dev.flags c)) :=
  effects_aluU (op := fun fl a => resNZ fl (f a)) hs hx hi rfl

end

/-- Settles O1: each row is a register ALU instruction, and its value is its row's. -/
theorem registerAluWritesResult : Obligations.RegisterAluWritesResult :=
  ⟨fun _ _ _ _ _ _ _ hs hx => effects_aluR (op := fun fl a b => addRes fl a b false) hs hx rfl (addRes_val ..),
   fun _ _ _ _ _ _ _ hs hx => effects_aluR (op := fun fl a b => addRes fl a b (fC fl)) hs hx rfl (addRes_carry_val ..),
   fun _ _ _ _ _ _ _ hs hx => effects_aluR (op := fun fl a b => subRes fl a b true) hs hx rfl (subRes_val ..),
   fun _ _ _ _ _ _ _ hs hx => effects_aluR (op := fun fl a b => subRes fl a b (fC fl)) hs hx rfl (subRes_carry_val ..),
   fun _ _ _ _ _ _ _ hs hx => effects_aluR (op := fun fl a b => resNZ fl (a &&& b)) hs hx rfl rfl,
   fun _ _ _ _ _ _ _ hs hx => effects_aluR (op := fun fl a b => resNZ fl (a ||| b)) hs hx rfl rfl,
   fun _ _ _ _ _ _ _ hs hx => effects_aluR (op := fun fl a b => resNZ fl (a ^^^ b)) hs hx rfl rfl,
   fun _ _ _ _ _ _ _ hs hx => effects_aluR (op := fun fl a b => resNZ fl (a &&& ~~~b)) hs hx rfl rfl,
   fun _ _ _ _ _ _ _ hs hx => effects_aluR (op := fun fl a b => resNZ fl (a ||| ~~~b)) hs hx rfl rfl,
   fun _ _ _ _ _ _ _ hs hx => effects_aluR (op := mulRes) hs hx rfl rfl,
   fun _ _ _ _ _ _ _ hs hx => effects_aluR (op := fun fl a b => mulhRes fl (mulhuVal a b)) hs hx rfl rfl,
   fun _ _ _ _ _ _ _ hs hx => effects_aluR (op := fun fl a b => mulhRes fl (mulhsVal a b)) hs hx rfl rfl⟩

/-- Settles O2: the shifts take their amount from rb, the others have one operand. -/
theorem shiftAndUnaryWriteResult : Obligations.ShiftAndUnaryWriteResult :=
  ⟨fun _ _ _ _ _ _ _ hs hx => effects_aluR (op := fun fl a b => shlRes fl a (shiftOf b)) hs hx rfl rfl,
   fun _ _ _ _ _ _ _ hs hx => effects_aluR (op := fun fl a b => shrRes fl a (shiftOf b)) hs hx rfl rfl,
   fun _ _ _ _ _ _ _ hs hx => effects_aluR (op := fun fl a b => sarRes fl a (shiftOf b)) hs hx rfl rfl,
   fun _ _ _ _ _ _ _ hs hx => effects_aluR (op := fun fl a b => rorRes fl a (shiftOf b)) hs hx rfl rfl,
   fun _ _ _ _ _ _ _ hs hx => effects_aluR (op := fun fl a b => rolRes fl a (shiftOf b)) hs hx rfl rfl,
   fun _ _ _ _ _ _ hs hx => effects_aluU (op := fun fl a => subRes fl 0#64 a true) hs hx rfl (subRes_val ..),
   fun _ _ _ _ _ _ hs hx => effects_aluNZ hs hx (fun a => sext 8 a.toNat) rfl,
   fun _ _ _ _ _ _ hs hx => effects_aluNZ hs hx (fun a => sext 16 a.toNat) rfl,
   fun _ _ _ _ _ _ hs hx => effects_aluNZ hs hx (fun a => sext 32 a.toNat) rfl,
   fun _ _ _ _ _ _ hs hx => effects_aluNZ hs hx (fun a => zext 32 a.toNat) rfl,
   fun _ _ _ _ _ _ hs hx => effects_aluNZ hs hx (fun a => BitVec.ofNat 64 (leadZeros a)) rfl,
   fun _ _ _ _ _ _ hs hx => effects_aluNZ hs hx (fun a => BitVec.ofNat 64 (trailZeros a)) rfl,
   fun _ _ _ _ _ _ hs hx => effects_aluNZ hs hx (fun a => BitVec.ofNat 64 (popCount 64 a.toNat)) rfl,
   fun _ _ _ _ _ _ hs hx => effects_aluNZ hs hx (fun a => byteSwap a) rfl⟩

/-! ### Division -/

section
variable {d : Dev} {c g : Nat} (hx : d.executes c g = true) (fn rd ra : Nat) {rb : Nat} (sf signed rem : Bool)
include hx

/-- A division that does not trap. -/
theorem Dev.aluDiv_executes (h : d.x c rb = 0#64 → (d.cpu c).ctl.getLsbD 0 = false) :
    d.aluDiv fn c g rd ra rb sf signed rem = d.writes c rd (divRes signed rem (d.flags c) (d.x c ra) (d.x c rb)).1.val
      (if sf then (divRes signed rem (d.flags c) (d.x c ra) (d.x c rb)).1.fl
        else (divRes signed rem (d.flags c) (d.x c ra) (d.x c rb)).2) := by
  unfold Dev.aluDiv
  rw [Dev.vz_executes _ _ _ _ _ _ _ hx rfl (by simp)]
  refine if_neg ?_
  rintro ⟨hz, hdzt⟩
  exact absurd (h hz) (by simp [hdzt])

/-- A division by zero with ctl.DZT set. -/
theorem Dev.aluDiv_zero_traps (hz : d.x c rb = 0#64) (hdzt : (d.cpu c).ctl.getLsbD 0 = true) :
    d.aluDiv fn c g rd ra rb sf signed rem = (d.setCpu c { d.cpu c with fl := setDZ (d.flags c) }).vzTrap c 7 0 0 := by
  unfold Dev.aluDiv
  rw [Dev.vz_executes _ _ _ _ _ _ _ hx rfl (by simp)]
  exact if_pos ⟨hz, hdzt⟩

end

/-- Settles O5: the four divisions are one form, with and without the trap. -/
theorem divisionCompletes : Obligations.DivisionCompletes :=
  ⟨fun _ _ _ _ _ _ _ hs hx h => effects_run rfl hs (Dev.aluDiv_executes hx _ _ _ _ _ _ h),
   fun _ _ _ _ _ _ _ hs hx h => effects_run rfl hs (Dev.aluDiv_executes hx _ _ _ _ _ _ h),
   fun _ _ _ _ _ _ _ hs hx h => effects_run rfl hs (Dev.aluDiv_executes hx _ _ _ _ _ _ h),
   fun _ _ _ _ _ _ _ hs hx h => effects_run rfl hs (Dev.aluDiv_executes hx _ _ _ _ _ _ h),
   fun _ _ _ _ _ _ _ hs hx hz hdzt => effects_run rfl hs (Dev.aluDiv_zero_traps hx _ _ _ _ _ _ hz hdzt),
   fun _ _ _ _ _ _ _ hs hx hz hdzt => effects_run rfl hs (Dev.aluDiv_zero_traps hx _ _ _ _ _ _ hz hdzt),
   fun _ _ _ _ _ _ _ hs hx hz hdzt => effects_run rfl hs (Dev.aluDiv_zero_traps hx _ _ _ _ _ _ hz hdzt),
   fun _ _ _ _ _ _ _ hs hx hz hdzt => effects_run rfl hs (Dev.aluDiv_zero_traps hx _ _ _ _ _ _ hz hdzt)⟩

/-! ### Decimal instructions -/

section
variable {d : Dev} {c g : Nat} (hx : d.executes c g = true) (fn rd : Nat) {ra rb : Nat} {checkA checkB : Bool} (op : W64 → W64 → W64 → Res)
include hx

/-- A decimal instruction whose checked operands have valid digits. -/
theorem Dev.decR_valid (ha : checkA = true → decOk (d.x c ra) = true) (hb : checkB = true → decOk (d.x c rb) = true) :
    d.decR fn c g rd ra rb checkA checkB op =
      d.writes c rd (op (d.flags c) (d.x c ra) (d.x c rb)).val (op (d.flags c) (d.x c ra) (d.x c rb)).fl := by
  have hok : ((checkA && !decOk (d.x c ra)) || (checkB && !decOk (d.x c rb))) = false := by
    cases checkA <;> cases checkB <;> simp_all
  unfold Dev.decR
  dsimp only
  rw [Dev.vz_executes _ _ _ _ _ _ _ hx rfl (by simp)]
  exact if_neg (by rw [Dev.x, Dev.x] at hok; simp [hok])

/-- One with an invalid digit and fl.DT = 0. -/
theorem Dev.decR_invalid (h : (checkA && !decOk (d.x c ra) || checkB && !decOk (d.x c rb)) = true) (hdt : fDT (d.flags c) = false) :
    d.decR fn c g rd ra rb checkA checkB op = d.writes c rd (BitVec.allOnes 64) (decInvalid (d.flags c)).fl := by
  unfold Dev.decR
  dsimp only
  rw [Dev.vz_executes _ _ _ _ _ _ _ hx rfl (by simp)]
  exact (if_pos h).trans (if_neg (by rw [Dev.flags] at hdt; simp [hdt]))

end

/-- An invalid digit in one of two operands that are both checked. -/
theorem decInvalid_of_or {a b : W64} (h : decOk a = false ∨ decOk b = false) : (true && !decOk a || true && !decOk b) = true := by
  rcases h with h | h <;> simp [h]

/-- Settles O7: each row is a decimal instruction that checks the operands it reads as decimal. -/
theorem decimalCompletes : Obligations.DecimalCompletes :=
  ⟨fun _ _ _ _ _ _ hs hx ha hb => effects_run rfl hs (Dev.decR_valid hx _ _ _ (fun _ => ha) (fun _ => hb)),
   fun _ _ _ _ _ _ hs hx ha hb => effects_run rfl hs (Dev.decR_valid hx _ _ _ (fun _ => ha) (fun _ => hb)),
   fun _ _ _ _ _ _ hs hx ha hb => effects_run rfl hs (Dev.decR_valid hx _ _ _ (fun _ => ha) (fun _ => hb)),
   fun _ _ _ _ _ _ hs hx ha hb => effects_run rfl hs (Dev.decR_valid hx _ _ _ (fun _ => ha) (fun _ => hb)),
   fun _ _ _ _ _ hs hx => effects_run rfl hs (Dev.decR_valid hx _ _ _ nofun nofun),
   fun _ _ _ _ _ hs hx => effects_run rfl hs (Dev.decR_valid hx _ _ _ nofun nofun),
   fun _ _ _ _ _ hs hx => effects_run rfl hs (Dev.decR_valid hx _ _ _ nofun nofun),
   fun _ _ _ _ _ _ hs hx ha => effects_run rfl hs (Dev.decR_valid hx _ _ _ (fun _ => ha) nofun),
   fun _ _ _ _ _ _ hs hx h hdt => effects_run rfl hs (Dev.decR_invalid hx _ _ _ (decInvalid_of_or h) hdt),
   fun _ _ _ _ _ _ hs hx h hdt => effects_run rfl hs (Dev.decR_invalid hx _ _ _ (decInvalid_of_or h) hdt),
   fun _ _ _ _ _ _ hs hx h hdt => effects_run rfl hs (Dev.decR_invalid hx _ _ _ (decInvalid_of_or h) hdt),
   fun _ _ _ _ _ _ hs hx h hdt => effects_run rfl hs (Dev.decR_invalid hx _ _ _ (decInvalid_of_or h) hdt),
   fun _ _ _ _ _ _ hs hx ha hdt => effects_run rfl hs (Dev.decR_invalid hx _ _ _ (by simp [ha]) hdt)⟩

/-- Settles O8: the digits of the examples are computed. -/
theorem decimalWorkedExamples : Obligations.DecimalWorkedExamples := by
  unfold Obligations.DecimalWorkedExamples
  decide

/-! ### Immediate instructions -/

section
variable {i : Instr} {s : State} (hs : s.live) {c g : Nat} (hx : s.dev.executes c g = true) {rd ra imm : Nat} {v : W64}
include hs hx

/-- A command that is an immediate instruction, with its immediate not reserved. -/
theorem effects_aluI {op : Nat} {resv sf : Bool} {f : W64 → W64 → Res} (hresv : resv = false)
    (hi : exec i s = run (fun d => d.aluI op c g rd ra imm resv sf f) s) (hv : (f (s.dev.flags c) (s.dev.x c ra)).val = v) :
    Effects i s (fun e => e = s.dev.writes c rd v (if sf then (f (s.dev.flags c) (s.dev.x c ra)).fl else s.dev.flags c)) := by
  subst hresv
  exact effects_run hi hs (by rw [Dev.aluI_executes _ _ _ _ _ _ _ _ _ hx, hv])

/-- A command that puts a value into rd and leaves the flags. -/
theorem effects_setReg {word : Nat} {resv : Bool} {f : CoreSt → W64} (hresv : resv = false)
    (hi : exec i s = run (fun d => d.vz c g word resv false (fun x e => e.retire c 1 (x.setReg rd (f x)))) s) :
    Effects i s (fun e => e = s.dev.writes c rd (f (s.dev.cpu c)) (s.dev.flags c)) :=
  effects_run hi hs ((Dev.vz_executes _ _ _ _ _ _ _ hx hresv (by simp)).trans (Dev.retire_setReg ..))

end

/-- Settles O9: each row is an immediate instruction, or puts a value into rd. -/
theorem immediateWritesResult : Obligations.ImmediateWritesResult :=
  ⟨fun _ _ _ _ _ imm hs hx => effects_aluI (sf := false) (f := fun fl a => addRes fl a (sext 12 imm) false) hs hx rfl rfl (addRes_val ..),
   fun _ _ _ _ _ imm hs hx => effects_aluI (sf := true) (f := fun fl a => addRes fl a (sext 12 imm) false) hs hx rfl rfl (addRes_val ..),
   fun _ _ _ _ _ imm hs hx => effects_aluI (sf := true) (f := fun fl a => subRes fl a (sext 12 imm) true) hs hx rfl rfl (subRes_val ..),
   fun _ _ _ _ _ imm hs hx => effects_aluI (sf := false) (f := fun fl a => resNZ fl (a &&& sext 12 imm)) hs hx rfl rfl rfl,
   fun _ _ _ _ _ imm hs hx => effects_aluI (sf := false) (f := fun fl a => resNZ fl (a ||| sext 12 imm)) hs hx rfl rfl rfl,
   fun _ _ _ _ _ imm hs hx => effects_aluI (sf := false) (f := fun fl a => resNZ fl (a ^^^ sext 12 imm)) hs hx rfl rfl rfl,
   fun _ _ _ _ _ imm hs hx => effects_aluI (sf := true) (f := fun fl a => resNZ fl (a &&& sext 12 imm)) hs hx rfl rfl rfl,
   fun _ _ _ _ _ imm hs hx h => effects_aluI (sf := false) (f := fun fl a => shlRes fl a imm) hs hx
      (decide_eq_false (Nat.not_le.mpr h)) rfl rfl,
   fun _ _ _ _ _ imm hs hx h => effects_aluI (sf := false) (f := fun fl a => shrRes fl a imm) hs hx
      (decide_eq_false (Nat.not_le.mpr h)) rfl rfl,
   fun _ _ _ _ _ imm hs hx h => effects_aluI (sf := false) (f := fun fl a => sarRes fl a imm) hs hx
      (decide_eq_false (Nat.not_le.mpr h)) rfl rfl,
   fun _ _ _ _ _ imm hs hx h => effects_aluI (sf := false) (f := fun fl a => rorRes fl a imm) hs hx
      (decide_eq_false (Nat.not_le.mpr h)) rfl rfl,
   fun _ _ _ _ x imm hs hx => effects_setReg (f := fun _ => if x then sext 16 imm else zext 16 imm) hs hx rfl rfl,
   fun _ _ _ rd imm hs hx => effects_setReg (f := fun y => (y.xreg rd <<< 16) ||| zext 16 imm) hs hx rfl rfl,
   fun _ _ _ _ imm hs hx => effects_setReg (f := fun y => y.pc + sext 17 imm) hs hx rfl rfl⟩

end Sys2Proof.Machine
end

section
/-! PROOFS. Loads, stores, CAS, block steps, branches and system instructions of a VZ64 core (R300, R305, R313 to R330, R347), and what a
trap and its return leave in the core. -/

namespace Sys2Proof.Machine

/-! ### Memory (R313 to R315) -/

section
variable {d : Dev} {c g : Nat} (hx : d.executes c g = true) (op : Nat) {rd ra imm n : Nat}
include hx

/-- A load that finds no trap and no poison. -/
theorem Dev.load_executes (ext : Nat → W64) {a : Nat} (ha : (d.x c ra + sext 12 imm).toNat = a) (hacc : d.accTrap c a n .load = none)
    (hclean : (d.peek c a n).poison = false) :
    d.load op c g rd ra imm n ext = (d.peek c a n).dev.loads c rd (ext (d.peek c a n).val) ((d.cpu c).reg rd) := by
  have hea : (d.cpu c).ea ra imm = a := ha
  unfold Dev.load
  rw [Dev.vz_executes _ _ _ _ _ _ _ hx rfl (by simp)]
  dsimp only
  rw [hea, hacc]
  dsimp only
  rw [hclean]
  rfl

/-- A store that finds no trap, is taken, and leaves its core running. -/
theorem Dev.storeI_executes {a : Nat} (ha : (d.x c ra + sext 12 imm).toNat = a) (hacc : d.accTrap c a n .store = none) {e : Dev}
    (hpoke : d.poke c a n ((d.x c rd).toNat % 256 ^ n) false = some e) (hruns : e.coreRuns c = true) :
    d.storeI op c g rd ra imm n = e.retire c 1 (e.cpu c) := by
  have hea : (d.cpu c).ea ra imm = a := ha
  unfold Dev.storeI
  rw [Dev.vz_executes _ _ _ _ _ _ _ hx rfl (by simp)]
  dsimp only
  rw [hea, hacc]
  dsimp only
  rw [← Dev.x, hpoke]
  exact if_pos hruns

variable {rb : Nat} (hacc : d.accTrap c (d.x c ra).toNat 8 .atomic = none) (hclean : (d.peek c (d.x c ra).toNat 8).poison = false)
include hacc hclean

/-- CAS on a doubleword that finds no trap and no poison: `e` is the part after the store, or unchanged without one. -/
theorem vzCas_executes {e : Dev} {same : Bool} {old : W64} (hold : BitVec.ofNat 64 (d.peek c (d.x c ra).toNat 8).val = old)
    (hsame : (old == d.x c rd) = same)
    (he : (if same then (d.poke c (d.x c ra).toNat 8 (d.x c rb).toNat false).getD d else d) = e) :
    vzCas c g rd ra rb d = e.swaps c rd old ((d.cpu c).reg rd) (setZ (d.flags c) same) := by
  subst hold hsame he
  unfold vzCas
  rw [Dev.vz_executes _ _ _ _ _ _ _ hx rfl (by simp)]
  dsimp only
  rw [← Dev.x, hacc]
  dsimp only
  rw [hclean]
  rfl

end

/-- Settles O10: each row is a load of its size and extension. -/
theorem loadCompletes : Obligations.LoadCompletes :=
  ⟨fun _ _ _ _ _ _ hs hx hacc hclean => effects_run rfl hs (Dev.load_executes hx _ (sext 8) rfl hacc hclean),
   fun _ _ _ _ _ _ hs hx hacc hclean => effects_run rfl hs (Dev.load_executes hx _ (zext 8) rfl hacc hclean),
   fun _ _ _ _ _ _ hs hx hacc hclean => effects_run rfl hs (Dev.load_executes hx _ (sext 16) rfl hacc hclean),
   fun _ _ _ _ _ _ hs hx hacc hclean => effects_run rfl hs (Dev.load_executes hx _ (zext 16) rfl hacc hclean),
   fun _ _ _ _ _ _ hs hx hacc hclean => effects_run rfl hs (Dev.load_executes hx _ (sext 32) rfl hacc hclean),
   fun _ _ _ _ _ _ hs hx hacc hclean => effects_run rfl hs (Dev.load_executes hx _ (zext 32) rfl hacc hclean),
   fun _ _ _ _ _ _ hs hx hacc hclean => effects_run rfl hs (Dev.load_executes hx _ (zext 64) rfl hacc hclean)⟩

/-- Settles O11: each row is a store of its size. -/
theorem storeCompletes : Obligations.StoreCompletes :=
  ⟨fun _ _ _ _ _ _ _ hs hx hacc hpoke hruns => effects_run rfl hs (Dev.storeI_executes hx _ rfl hacc hpoke hruns),
   fun _ _ _ _ _ _ _ hs hx hacc hpoke hruns => effects_run rfl hs (Dev.storeI_executes hx _ rfl hacc hpoke hruns),
   fun _ _ _ _ _ _ _ hs hx hacc hpoke hruns => effects_run rfl hs (Dev.storeI_executes hx _ rfl hacc hpoke hruns),
   fun _ _ _ _ _ _ _ hs hx hacc hpoke hruns => effects_run rfl hs (Dev.storeI_executes hx _ rfl hacc hpoke hruns)⟩

/-- Settles O13: the comparison is equal, and the store is made, or it is not. -/
theorem casCompletes : Obligations.CasCompletes :=
  ⟨fun _ _ _ _ _ _ _ hs hx hacc hclean heq hpoke => effects_run rfl hs
      (vzCas_executes hx hacc hclean rfl (by simp [heq]) (by simp [hpoke])),
   fun _ _ _ _ _ _ hs hx hacc hclean hne => effects_run rfl hs
      (vzCas_executes hx hacc hclean rfl (beq_false_of_ne hne.symm) rfl)⟩

/-! ### Block instructions (R323 to R325) -/

section
variable {d : Dev} {c g : Nat} (hx : d.executes c g = true)
include hx

/-- A block instruction whose step finds no trap and leaves its core running. -/
theorem Dev.block_executes {fn : Nat} {e : Dev} (hstep : d.blockStep c fn = .next e) (hruns : e.coreRuns c = true) :
    d.block fn c g = e.retire c 1 (e.cpu c) := by
  unfold Dev.block
  rw [Dev.vz_executes _ _ _ _ _ _ _ hx rfl (by simp)]
  rw [hstep]
  exact if_pos hruns

/-- What an executing core has passed: nothing comes before the instruction at its pc, which it may fetch, and whose guard holds. -/
theorem Dev.executes_boundary (k : Dev → Dev) : d.boundary c k = k d := by
  simp only [Dev.executes, Bool.and_eq_true, Bool.not_eq_true'] at hx
  obtain ⟨⟨⟨⟨⟨⟨hruns, hhalt⟩, hpreempt⟩, hwait⟩, hirq⟩, -⟩, -⟩ := hx
  simp [Dev.boundary, hruns, hhalt, hpreempt, hwait, hirq]

theorem Dev.executes_fetch : d.fetchTrap c (d.cpu c).pc.toNat = none := by
  simp only [Dev.executes, Bool.and_eq_true, Option.isNone_iff_eq_none] at hx
  obtain ⟨⟨-, hfetch⟩, -⟩ := hx
  exact hfetch

theorem Dev.executes_guard : condHolds g (d.cpu c).fl = true := by
  simp only [Dev.executes, Bool.and_eq_true] at hx
  exact hx.2

theorem Dev.executes_guard_ne : g ≠ 0xF := by
  rintro rfl
  simpa [condHolds] using Dev.executes_guard hx

/-- REP up to the check of the following word. -/
theorem vzRep_fetched {mode : Nat} (hmode : mode < 3) (hnext : d.fetchTrap c (((d.cpu c).pc.toNat + 4) % 2 ^ 64) = none)
    (next upto : Nat) :
    vzRep c g mode next upto d = if ¬repAccepts mode next then d.repTrap c 2 0 next else Dev.repLoop c mode (next % 8) upto d := by
  have hfields : ¬(g = 0xF ∨ mode = 3) := not_or.mpr ⟨Dev.executes_guard_ne hx, by omega⟩
  unfold vzRep
  rw [Dev.executes_boundary hx]
  dsimp only
  rw [Dev.executes_fetch hx]
  dsimp only
  rw [if_neg hfields, hnext]
  dsimp only
  rw [Dev.executes_guard hx]
  rfl

end

/-- Settles O18: a block instruction is its step, and REP goes by whether it accepts the following word. -/
theorem blockAndRepComplete : Obligations.BlockAndRepComplete :=
  ⟨fun _ _ _ _ hs hx hstep hruns => effects_run rfl hs (Dev.block_executes hx hstep hruns),
   fun _ _ _ _ hs hx hstep hruns => effects_run rfl hs (Dev.block_executes hx hstep hruns),
   fun _ _ _ _ hs hx hstep hruns => effects_run rfl hs (Dev.block_executes hx hstep hruns),
   fun _ _ _ _ hs hx hstep hruns => effects_run rfl hs (Dev.block_executes hx hstep hruns),
   fun _ _ _ _ hs hx hstep hruns => effects_run rfl hs (Dev.block_executes hx hstep hruns),
   fun _ _ _ _ hs hx hstep hruns => effects_run rfl hs (Dev.block_executes hx hstep hruns),
   fun _ _ _ _ hs hx hstep hruns => effects_run rfl hs (Dev.block_executes hx hstep hruns),
   fun _ _ _ _ hs hx hstep hruns => effects_run rfl hs (Dev.block_executes hx hstep hruns),
   fun _ _ _ next upto hs hx hmode hnext hacc => effects_run rfl hs
      ((vzRep_fetched hx hmode hnext next upto).trans (if_neg (not_not_intro hacc))),
   fun _ _ _ _ next upto hs hx hmode hnext hrej => effects_run rfl hs
      ((vzRep_fetched hx hmode hnext next upto).trans (if_pos (by simp [hrej])))⟩

end Sys2Proof.Machine
end

section
/-! PROOFS. Branches, system instructions, traps and their return, guards and conditions of a VZ64 core (R300, R305, R309, R316, R317,
R327 to R330, R347). -/

namespace Sys2Proof.Machine

/-! ### Traps and their return (R328 to R330) -/

/-- The bits that trap entry gives pstat: S, PPRV, IE off, PIE, NEST. -/
theorem getLsbD_pstat_trap (pprv pie : Bool) :
    let p := BitVec.ofNat 64 (1 + (2 * Bool.nat pprv + 8 * Bool.nat pie) + 16)
    p.getLsbD 0 = true ∧ p.getLsbD 1 = pprv ∧ p.getLsbD 2 = false ∧ p.getLsbD 3 = pie ∧ p.getLsbD 4 = true := by
  cases pprv <;> cases pie <;> decide

/-- The bits that RTE gives pstat: PRV and IE from PPRV and PIE, which stay, and NEST off. -/
theorem getLsbD_pstat_rte (pprv pie : Bool) :
    let p := BitVec.ofNat 64 (Bool.nat pprv + 4 * Bool.nat pie + (2 * Bool.nat pprv + 8 * Bool.nat pie))
    p.getLsbD 0 = pprv ∧ p.getLsbD 1 = pprv ∧ p.getLsbD 2 = pie ∧ p.getLsbD 3 = pie ∧ p.getLsbD 4 = false := by
  cases pprv <;> cases pie <;> decide

/-- The fields of tcause do not overlap, and fit. -/
theorem tcause_toNat {cause acc : Nat} (hcause : cause < 256) (hacc : acc < 4) (rep ds : Bool) :
    (BitVec.ofNat 64 (cause + 256 * acc + 1024 * Bool.nat rep + 2048 * Bool.nat ds)).toNat =
      cause + 256 * acc + (if rep then 1024 else 0) + (if ds then 2048 else 0) := by
  rw [BitVec.toNat_ofNat]
  cases rep <;> cases ds <;> simp [Bool.nat] <;> omega

/-- The core that trap entry leaves, before any part the monitor has in it. -/
def CoreSt.trapped (s : CoreSt) (cause acc val at_ : Nat) (rep ds : Bool) : CoreSt :=
  { s with
    tpc := BitVec.ofNat 64 at_
    tfl := s.fl
    tval := BitVec.ofNat 64 val
    tcause := BitVec.ofNat 64 (cause + 256 * acc + 1024 * Bool.nat rep + 2048 * Bool.nat ds)
    pstat := BitVec.ofNat 64 (1 + (2 * Bool.nat (s.pstat.getLsbD 0) + 8 * Bool.nat (s.pstat.getLsbD 2)) + 16)
    pc := s.tbase + BitVec.ofNat 64 (cause * 0x80)
    waiting := false
    delay := none
    inRep := false }

/-- A trap at S, or an interrupt, that is not a double trap ends with the entry. -/
theorem Dev.cpu_trap {d : Dev} {c cause : Nat} (hprv : (d.cpu c).prv = true ∨ cause = 0x10)
    (hnest : (d.cpu c).nest = false ∨ cause = 0x10) (acc val at_ : Nat) (rep ds : Bool) :
    (d.trap c cause acc val at_ rep ds).cpu c = (d.cpu c).trapped cause acc val at_ rep ds := by
  have hdouble : ¬((d.cpu c).nest = true ∧ cause ≠ 0x10) := by
    rintro ⟨hn, hc⟩
    simp [hn, hc] at hnest
  unfold Dev.trap
  dsimp only
  rw [if_neg hdouble, if_pos hprv]
  simp [CoreSt.trapped]

/-- Settles O16: the core that trap entry leaves has each field by definition, or by the layout of pstat and tcause. -/
theorem trapEntry : Obligations.TrapEntry := by
  intro d c cause acc val at_ rep ds hprv hnest hcause hacc
  dsimp only
  rw [Dev.cpu_trap hprv hnest]
  obtain ⟨hS, hPprv, hIe, hPie, hNest⟩ := getLsbD_pstat_trap ((d.cpu c).pstat.getLsbD 0) ((d.cpu c).pstat.getLsbD 2)
  exact ⟨rfl, rfl, rfl, rfl, tcause_toNat hcause hacc rep ds, hS, hIe, hNest, hPprv, hPie, rfl, rfl, rfl, rfl, rfl, rfl, rfl, rfl, rfl⟩

/-- Settles O15: RTE retires, which moves pc, and then writes pc, fl and pstat. -/
theorem rteRestores : Obligations.RteRestores := by
  intro s c g unused hs hx hprv
  refine effects_run rfl hs ?_
  have hcpu : (vzRte c g unused s.dev).cpu c = _ :=
    (congrArg (Dev.cpu · c) (Dev.vz_executes _ _ _ _ _ _ _ hx rfl fun _ => hprv)).trans (Dev.cpu_setCoreState _ _ _ _)
  rw [hcpu, Dev.cpu_setCpu_same, Dev.cpu_retire]
  obtain ⟨hPrv, hPprv, hIe, hPie, hNest⟩ := getLsbD_pstat_rte ((s.dev.cpu c).pstat.getLsbD 1) ((s.dev.cpu c).pstat.getLsbD 3)
  exact ⟨rfl, rfl, hPrv, hIe, hNest, hPprv, hPie, rfl, rfl, rfl⟩

/-! ### Reserved words, guards and conditions (R304, R305) -/

/-- An instruction with a reserved field traps RESERVED_OP after its fetch, whatever its guard. -/
theorem Dev.vz_reserved {d : Dev} {c g : Nat} (hx : d.executes c g = true) (h word : Nat) (needS : Bool) (body : CoreSt → Dev → Dev) :
    d.vz c h word true needS body = d.vzTrap c 1 0 word := by
  unfold Dev.vz
  rw [Dev.executes_boundary hx, Dev.executes_fetch hx]
  rfl

theorem vzReserved_executes {d : Dev} {c g word : Nat} (hx : d.executes c g = true) (hw : wordReserved word = true) :
    vzReserved c word d = d.vzTrap c 1 0 (word % 2 ^ 32) := by
  unfold vzReserved
  rw [if_pos hw]
  exact Dev.vz_reserved hx _ _ _ _

/-- A guard of 0xF reserves the word. -/
theorem wordReserved_of_guard {word : Nat} (hg : word / 2 ^ 28 % 16 = 15) : wordReserved word = true := by
  have hwG : wG (word % 2 ^ 32) = 0xF := by unfold wG; omega
  unfold wordReserved wordMeaning
  dsimp only
  rw [if_pos hwG]
  rfl

/-- Settles O17: the table is `condHolds`; code 0xF is reserved in the guard and in BCC's condition. -/
theorem guardsAndConditions : Obligations.GuardsAndConditions :=
  ⟨fun _ => ⟨rfl, rfl, rfl, rfl, rfl, rfl, rfl, rfl, rfl, rfl, rfl, rfl, rfl, rfl, rfl⟩,
   fun _ _ _ hs hx hg => effects_run rfl hs (vzReserved_executes hx (wordReserved_of_guard hg)),
   fun _ _ _ _ hs hx => effects_run rfl hs (Dev.vz_reserved hx _ _ _ _)⟩

/-! ### Branches and system instructions (R300, R309, R316, R317, R327, R347) -/

section
variable {d : Dev} {c g : Nat} (hx : d.executes c g = true)
include hx

theorem vzBcc_executes {cond : Nat} (hcond : cond < 15) (disp : Nat) :
    vzBcc c g cond disp d =
      if condHolds cond (d.flags c) then d.jump c (d.cpu c) ((d.cpu c).pc + 4#64 * (BitVec.ofNat 18 disp).signExtend 64)
      else d.retire c 1 (d.cpu c) :=
  Dev.vz_executes _ _ _ _ _ _ _ hx (beq_false_of_ne (by omega)) (by simp)

/-- A branch to a register that holds a multiple of 4. -/
theorem Dev.branchReg_executes {ra : Nat} (halign : (d.x c ra).toNat % 4 = 0) (fn : Nat) (link : Bool) :
    d.branchReg fn c g ra link = d.jump c (if link then (d.cpu c).setReg 31 ((d.cpu c).pc + 4#64) else d.cpu c) (d.x c ra) :=
  (Dev.vz_executes _ _ _ _ _ _ _ hx rfl (by simp)).trans (if_neg (not_not_intro halign))

theorem vzMfsr_executes {sr : Nat} (hsr : srExists sr = true) (hprv : srIsS sr = true → (d.cpu c).prv = true) (hcyc : sr ≠ 3)
    (rd unused : Nat) : vzMfsr c g rd sr unused d = d.writes c rd ((d.cpu c).sr c sr 0) (d.flags c) :=
  (Dev.vz_executes _ _ _ _ _ _ _ hx (by simp [hsr]) hprv).trans ((if_neg hcyc).trans (Dev.retire_setReg _ _ _ _))

/-- cyc is a free value, drawn. -/
theorem vzMfsr_cyc_executes (rd unused : Nat) :
    vzMfsr c g rd 3 unused d = d.draw.2.writes c rd (BitVec.ofNat 64 (Config.cycles d.free)) (d.flags c) :=
  (Dev.vz_executes _ _ _ _ _ _ _ hx rfl (by simp [srIsS])).trans ((if_pos rfl).trans (Dev.retire_setReg d.draw.2 _ _ _))

theorem vzMtsr_executes {sr : Nat} (hsr : srExists sr = true) (hprv : srIsS sr = true → (d.cpu c).prv = true) (ra unused : Nat) :
    vzMtsr c g sr ra unused d = d.retire c 1 ((d.cpu c).setSr sr (d.x c ra)) :=
  Dev.vz_executes _ _ _ _ _ _ _ hx (by simp [hsr]) hprv

/-- SVC away from a tenant program. -/
theorem vzSvc_executes (hP : d.atP c = none) (imm : Nat) :
    vzSvc c g imm d = d.trap c 9 0 imm ((d.cpu c).pc + 4#64).toNat false (d.cpu c).delay.isSome := by
  unfold vzSvc
  rw [Dev.vz_executes _ _ _ _ _ _ _ hx rfl (by simp)]
  dsimp only
  rw [hP]

/-- WFE away from a tenant program, with no line pending. -/
theorem vzWfe_executes {e : Dev} (he : d.retire c 1 (d.cpu c) = e) (hline : e.linePending c = false) (hP : e.atP c = none) :
    vzWfe c g d = (e.setCpu c { e.cpu c with waiting := true }).setCoreState c 3 := by
  subst he
  unfold vzWfe
  rw [Dev.vz_executes _ _ _ _ _ _ _ hx rfl (by simp)]
  dsimp only
  rw [if_neg (by simp [hline]), hP]

end

/-- A due interrupt is taken at the boundary of a core that neither waits nor has a quantum end due. -/
theorem vzInterrupt_due {d : Dev} {c : Nat} (hruns : d.coreRuns c = true) (hhalt : (d.cpu c).halted = false)
    (hwait : (d.cpu c).waiting = false) (hpreempt : (d.cpu c).preemptDue = false) (hirq : d.irqDue c = true) :
    vzInterrupt c d = d.takeIrq c (d.cpu c).inRep := by
  simp [vzInterrupt, Dev.boundary, hruns, hhalt, hwait, hpreempt, hirq]

/-- Settles O14: each instruction does what its row says, and a reserved word traps. -/
theorem flowAndSystemComplete : Obligations.FlowAndSystemComplete :=
  ⟨fun _ _ _ _ disp hs hx hcond => effects_run rfl hs (vzBcc_executes hx hcond disp),
   fun _ _ _ _ hs hx => effects_run rfl hs (Dev.vz_executes _ _ _ _ _ _ _ hx rfl (by simp)),
   fun _ _ _ _ hs hx => effects_run rfl hs (Dev.vz_executes _ _ _ _ _ _ _ hx rfl (by simp)),
   fun _ _ _ _ hs hx halign => effects_run rfl hs (Dev.branchReg_executes hx halign 0x00 false),
   fun _ _ _ _ hs hx halign => effects_run rfl hs (Dev.branchReg_executes hx halign 0x01 true),
   fun _ _ _ hs hx => effects_run rfl hs (Dev.vz_executes _ _ _ _ _ _ _ hx rfl (by simp)),
   fun _ _ _ rd _ unused hs hx hsr hprv hcyc => effects_run rfl hs (vzMfsr_executes hx hsr hprv hcyc rd unused),
   fun _ _ _ rd unused hs hx => effects_run rfl hs (vzMfsr_cyc_executes hx rd unused),
   fun _ _ _ _ ra unused hs hx hsr hprv => effects_run rfl hs (vzMtsr_executes hx hsr hprv ra unused),
   fun _ _ _ imm hs hx hP => effects_run rfl hs (vzSvc_executes hx hP imm),
   fun _ _ _ _ hs hx => effects_run rfl hs (Dev.vz_executes _ _ _ _ _ _ _ hx rfl (by simp)),
   fun _ _ _ hs hx hline hP => effects_run rfl hs (vzWfe_executes hx rfl hline hP),
   fun _ _ hs hruns hhalt hwait hpreempt hirq => effects_run rfl hs (vzInterrupt_due hruns hhalt hwait hpreempt hirq),
   fun _ _ _ hs hx hw => effects_run rfl hs (vzReserved_executes hx hw)⟩

end Sys2Proof.Machine
end

section
/-! PROOFS. Instruction words (R302 to R304): the fields read back from a word are those that were put together, and so the decoder gives
each word its instruction with the operands it was made of. -/

namespace Sys2Proof.Machine

/-! ### The fields of a word, by format (R302) -/

/-- A bit put together from what stands above it, itself, and what stands below. -/
theorem testBit_of_eq {w hi lo k : Nat} {b : Bool} (hw : w = hi * 2 ^ (k + 1) + Bool.nat b * 2 ^ k + lo) (hlo : lo < 2 ^ k) :
    w.testBit k = b := by
  have hdiv : w / 2 ^ k = 2 * hi + Bool.nat b := by
    rw [hw, show hi * 2 ^ (k + 1) + Bool.nat b * 2 ^ k + lo = lo + 2 ^ k * (2 * hi + Bool.nat b) by ring,
      Nat.add_mul_div_left _ _ (Nat.two_pow_pos k), Nat.div_eq_of_lt hlo, Nat.zero_add]
  rw [Nat.testBit_eq_decide_div_mod_eq, hdiv]
  cases b <;> simp [Bool.nat]

section
variable {g op : Nat} (hg : g < 15) (hop : op < 64)
include hg hop

theorem wordR_fields {rd ra rb : Nat} (hrd : rd < 32) (hra : ra < 32) (hrb : rb < 32) (sf : Bool) {fn : Nat} (hfn : fn < 64)
    {w : Nat} (hw : wordR g op rd ra rb sf fn = w) :
    wG w = g ∧ wOp w = op ∧ wRd w = rd ∧ wRa w = ra ∧ wRb w = rb ∧ wS w = sf ∧ wFn w = fn := by
  have hs : Bool.nat sf < 2 := by cases sf <;> decide
  have hS : wS w = sf :=
    testBit_of_eq (hi := g * 2 ^ 21 + op * 2 ^ 15 + rd * 2 ^ 10 + ra * 2 ^ 5 + rb) (by rw [← hw, wordR]; omega) hfn
  subst hw
  unfold wordR at *
  unfold wG wOp wRd wRa wRb wFn
  refine ⟨?_, ?_, ?_, ?_, ?_, hS, ?_⟩ <;> omega

theorem wordI_fields {rd ra imm : Nat} (hrd : rd < 32) (hra : ra < 32) (himm : imm < 2 ^ 12)
    {w : Nat} (hw : wordI g op rd ra imm = w) :
    wG w = g ∧ wOp w = op ∧ wRd w = rd ∧ wRa w = ra ∧ w % 2 ^ 12 = imm := by
  subst hw
  unfold wordI wG wOp wRd wRa
  refine ⟨?_, ?_, ?_, ?_, ?_⟩ <;> omega

theorem wordW_fields {rd imm : Nat} (hrd : rd < 32) (x : Bool) (himm : imm < 2 ^ 16)
    {w : Nat} (hw : wordW g op rd x imm = w) :
    wG w = g ∧ wOp w = op ∧ wRd w = rd ∧ w.testBit 16 = x ∧ w % 2 ^ 16 = imm := by
  have hs : Bool.nat x < 2 := by cases x <;> decide
  have hX : w.testBit 16 = x :=
    testBit_of_eq (hi := g * 2 ^ 11 + op * 2 ^ 5 + rd) (by rw [← hw, wordW]; omega) himm
  subst hw
  unfold wordW at *
  unfold wG wOp wRd
  refine ⟨?_, ?_, ?_, hX, ?_⟩ <;> omega

theorem wordA_fields {rd imm : Nat} (hrd : rd < 32) (himm : imm < 2 ^ 17)
    {w : Nat} (hw : wordA g op rd imm = w) :
    wG w = g ∧ wOp w = op ∧ wRd w = rd ∧ w % 2 ^ 17 = imm := by
  subst hw
  unfold wordA wG wOp wRd
  refine ⟨?_, ?_, ?_, ?_⟩ <;> omega

theorem wordB_fields {cond disp : Nat} (hcond : cond < 16) (hdisp : disp < 2 ^ 18)
    {w : Nat} (hw : wordB g op cond disp = w) :
    wG w = g ∧ wOp w = op ∧ w / 2 ^ 18 % 16 = cond ∧ w % 2 ^ 18 = disp := by
  subst hw
  unfold wordB wG wOp
  refine ⟨?_, ?_, ?_, ?_⟩ <;> omega

theorem wordJ_fields {disp : Nat} (hdisp : disp < 2 ^ 22)
    {w : Nat} (hw : wordJ g op disp = w) :
    wG w = g ∧ wOp w = op ∧ w % 2 ^ 22 = disp := by
  subst hw
  unfold wordJ wG wOp
  refine ⟨?_, ?_, ?_⟩ <;> omega

theorem wordX_fields {imm : Nat} (himm : imm < 2 ^ 16)
    {w : Nat} (hw : wordX g op imm = w) :
    wG w = g ∧ wOp w = op ∧ w / 2 ^ 16 % 64 = 0 ∧ w % 2 ^ 16 = imm := by
  subst hw
  unfold wordX wG wOp
  refine ⟨?_, ?_, ?_, ?_⟩ <;> omega

theorem wordP_fields {mode : Nat} (hmode : mode < 3)
    {w : Nat} (hw : wordP g op mode = w) :
    wG w = g ∧ wOp w = op ∧ w % 2 ^ 22 < 3 ∧ w % 4 = mode := by
  subst hw
  unfold wordP wG wOp
  refine ⟨?_, ?_, ?_, ?_⟩ <;> omega

end

/-! ### Decoding -/

/-- Settles O20: the fields of the word, and with them the row of the decoder that its OP and FN name. -/
theorem vzWordsDecode : Obligations.VzWordsDecode := by
  refine ⟨?alu, ?unary, ?decimal, ?imm, ?shiftImm, ?wide, ?address, ?bcc, ?jump, ?branchReg, ?special, ?system, ?trap, ?rep⟩
  case alu =>
    intro c g rd ra rb sf next upto hg hrd hra hrb
    have hf (fn : Nat) (hfn : fn < 64) := wordR_fields hg (op := 0x00) (by decide) hrd hra hrb sf hfn rfl
    simp only [wordMeaning, aluWord, hf, Nat.reduceLT, Nat.ofNat_pos, if_neg hg.ne, and_self]
  case unary =>
    intro c g rd ra sf next upto hg hrd hra
    have hf (fn : Nat) (hfn : fn < 64) := wordR_fields hg (op := 0x00) (by decide) hrd hra (rb := 0) (by decide) sf hfn rfl
    simp only [wordMeaning, aluWord, hf, Nat.reduceLT, if_neg hg.ne, if_true, and_self]
  case decimal =>
    intro c g rd ra rb next upto hg hrd hra hrb
    have hf (op fn : Nat) (hop : op < 64) (hfn : fn < 64) := wordR_fields hg hop hrd hra hrb false hfn rfl
    have hlow : wordR g 0x20 rd ra rb false 0 % 2 ^ 7 = 0 := by simp only [wordR, Bool.nat, Bool.false_eq_true, if_false]; omega
    simp only [wordMeaning, decWord, hf, Nat.reduceLT, Nat.ofNat_pos, if_neg hg.ne, if_pos hlow, Bool.false_eq_true, if_false, and_self]
  case imm =>
    intro c g rd ra imm next upto hg hrd hra himm
    have hf (op : Nat) (hop : op < 64) := wordI_fields hg hop hrd hra himm rfl
    simp only [wordMeaning, hf, Nat.reduceLT, if_neg hg.ne, and_self]
  case shiftImm =>
    intro c g rd ra imm next upto hg hrd hra himm
    have hf (op : Nat) (hop : op < 64) := wordI_fields hg hop hrd hra (by omega : imm < 2 ^ 12) rfl
    simp only [wordMeaning, hf, Nat.reduceLT, if_neg hg.ne, if_pos (show imm < 256 from himm), and_self]
  case wide =>
    intro c g rd x imm next upto hg hrd himm
    have hf (op : Nat) (x : Bool) (hop : op < 64) := wordW_fields hg hop hrd x himm rfl
    simp only [wordMeaning, hf, Nat.reduceLT, if_neg hg.ne, Bool.false_eq_true, if_false, and_self]
  case address =>
    intro c g rd imm next upto hg hrd himm
    have hf := wordA_fields hg (op := 0x12) (by decide) hrd himm rfl
    simp only [wordMeaning, hf, if_neg hg.ne]
  case bcc =>
    intro c g cond disp next upto hg hcond hdisp
    have hf := wordB_fields hg (op := 0x30) (by decide) (by omega : cond < 16) hdisp rfl
    simp only [wordMeaning, hf, if_neg hg.ne, if_neg hcond.ne]
  case jump =>
    intro c g disp next upto hg hdisp
    have hf (op : Nat) (hop : op < 64) := wordJ_fields hg hop hdisp rfl
    simp only [wordMeaning, hf, Nat.reduceLT, if_neg hg.ne, and_self]
  case branchReg =>
    intro c g ra next upto hg hra
    have hf (fn : Nat) (hfn : fn < 64) :=
      wordR_fields hg (op := 0x33) (by decide) (rd := 0) (by decide) hra (rb := 0) (by decide) false hfn rfl
    simp only [wordMeaning, hf, Nat.reduceLT, Nat.ofNat_pos, if_neg hg.ne, if_true, one_ne_zero, if_false, and_self]
  case special =>
    intro c g rd sr next upto hg hrd hsr
    have hsr32 : sr < 32 := by
      simp only [srExists, srIsS, Bool.or_eq_true, Bool.and_eq_true, decide_eq_true_eq, beq_iff_eq] at hsr
      omega
    have hunused (x y fn : Nat) (hfn : fn < 64) : wordR g 0x38 x y 0 false fn / 2 ^ 6 % 2 ^ 6 = 0 := by
      simp only [wordR, Bool.nat, Bool.false_eq_true, if_false]
      omega
    have hf {x y : Nat} (hx : x < 32) (hy : y < 32) (fn : Nat) (hfn : fn < 64) :=
      wordR_fields hg (op := 0x38) (by decide) hx hy (rb := 0) (by decide) false hfn rfl
    simp only [wordMeaning, sysWord, hf hrd hsr32, hf hsr32 hrd, Nat.reduceLT, Nat.ofNat_pos, if_neg hg.ne, if_pos hsr, hunused, and_self]
  case system =>
    intro c g next upto hg
    have hunused (fn : Nat) (hfn : fn < 64) : wordR g 0x3D 0 0 0 false fn % 2 ^ 22 / 2 ^ 6 = 0 := by
      simp only [wordR, Bool.nat, Bool.false_eq_true, if_false]
      omega
    have hrte : wordR g 0x38 0 0 0 false 2 / 2 ^ 6 % 2 ^ 16 = 0 := by simp only [wordR, Bool.nat, Bool.false_eq_true, if_false]; omega
    have hf (op fn : Nat) (hop : op < 64) (hfn : fn < 64) :=
      wordR_fields hg hop (rd := 0) (ra := 0) (rb := 0) (by decide) (by decide) (by decide) false hfn rfl
    simp only [wordMeaning, sysWord, blockWord, hf, Nat.reduceLT, Nat.ofNat_pos, if_neg hg.ne, hrte, hunused, ne_eq,
      not_true_eq_false, if_false, and_self]
  case trap =>
    intro c g imm next upto hg himm
    have hf (op : Nat) (hop : op < 64) := wordX_fields hg hop himm rfl
    simp only [wordMeaning, hf, Nat.reduceLT, if_neg hg.ne, if_true, and_self]
  case rep =>
    intro c g mode next upto hg hmode
    have hf := wordP_fields hg (op := 0x3C) (by decide) hmode rfl
    simp only [wordMeaning, hf, if_neg hg.ne, if_true]

end Sys2Proof.Machine
end

section
/-! PROOFS. The buffer pool manager's free (R379). -/

namespace Sys2Proof.Machine

/-- The performance counters stand in another register file than a block's fields. -/
theorem Dev.f_pmuBump (d : Dev) (i n : Nat) (x : Field) : (d.pmuBump i n).f x = d.f x := by
  unfold Dev.pmuBump
  dsimp only
  split
  · rfl
  · split <;> rfl

theorem Dev.f_count (d : Dev) (src q p n : Nat) (x : Field) : (d.count src q p n).f x = d.f x := by
  unfold Dev.count Dev.pmuAdd
  refine List.foldlRecOn (motive := fun e : Dev => e.f x = d.f x) _ _ rfl fun e he i _ => ?_
  split
  · rw [Dev.f_pmuBump, he]
  · exact he

/-- A counter of the Pail is counted in a register of its own. -/
theorem Dev.f_pailCount_ne (d : Dev) {k : Nat} {x : Field} (h : x.key ≠ (F.PAIL_CNT_COUNT k).key) : (d.pailCount k).f x = d.f x := by
  rw [Dev.pailCount, Dev.bump, Dev.f_count, Dev.f_setF_ne _ h]

theorem Dev.pail_of_still {d e : Dev} (h : e.still = d.still) : e.pail = d.pail := by
  have hpail : e.still.pail = d.still.pail := by rw [h]
  exact hpail

theorem Dev.pail_pailCount (d : Dev) (k : Nat) : (d.pailCount k).pail = d.pail := Dev.pail_of_still (Dev.bump_still _ _ _ _ _)

theorem Dev.pailTag_setPailTag (d : Dev) (h t : Nat) : (d.setPailTag h t).pailTag h = t := AMap.get_set_same _ _ _ _

theorem Dev.pailTag_pailCount (d : Dev) (h k : Nat) : (d.pailCount k).pailTag h = d.pailTag h := by
  rw [Dev.pailTag, Dev.pail_pailCount, Dev.pailTag]

/-- The tag of a retired buffer keeps its owner and shows state 3. -/
theorem tagState_retired (t : Nat) : tagState (3 * 1024 + tagOwner t) = 3 := by
  unfold tagState tagOwner bits
  omega

/-- What PAIL_ERR records of a refused free, before its event: the pools stay. -/
theorem Dev.pailRefuse_eq (d : Dev) (h o : Nat) {cause ev : Nat} (hcause : cause < 4)
    (hev : (if cause = 1 then 0x023 else if cause = 2 then 0x021 else 0x022) = ev) :
    ∃ e : Dev, d.pailRefuse h o cause = e.raise ev (ownerPlot o) [h, o] ∧ e.pail = d.pail ∧ e.f F.PAIL_ERR_VALID = 1 ∧
      e.f F.PAIL_ERR_CAUSE = cause ∧ e.f F.PAIL_ERR_OWNER = o % 1024 ∧ e.f F.PAIL_ERRH_HANDLE = h % 2 ^ 32 := by
  subst hev
  refine ⟨_, rfl, Dev.pail_pailCount _ _, ?_, ?_, ?_, ?_⟩
  · rw [Dev.f_pailCount_ne _ (by decide), Dev.f_setF_ne _ (by decide), Dev.f_setF_same]
    rfl
  · rw [Dev.f_pailCount_ne _ (by decide), Dev.f_setF_ne _ (by decide), Dev.f_setF_ne _ (by decide), Dev.f_setF_same]
    exact Nat.mod_eq_of_lt hcause
  · rw [Dev.f_pailCount_ne _ (by decide), Dev.f_setF_ne _ (by decide), Dev.f_setF_ne _ (by decide), Dev.f_setF_ne _ (by decide),
      Dev.f_setF_same]
    rfl
  · rw [Dev.f_pailCount_ne _ (by decide), Dev.f_setF_same]
    rfl

/-! ### The rows of R379, in order -/

section
variable (d : Dev) (h o : Nat) (m : Bool)

theorem Dev.pailFree_bad (hbad : d.flag (F.PAIL_POOLCFG_EN (hPool h)) = false ∨ d.f (F.PAIL_POOLCNT_COUNT (hPool h)) ≤ hIndex h) :
    d.pailFree h o m = d.pailRefuse h o 1 :=
  if_pos (by simpa using hbad)

variable (hen : d.flag (F.PAIL_POOLCFG_EN (hPool h)) = true) (hcnt : hIndex h < d.f (F.PAIL_POOLCNT_COUNT (hPool h)))
include hen hcnt

theorem Dev.pailFree_double (hfree : tagState (d.pailTag h) ≠ 1) : d.pailFree h o m = d.pailRefuse h o 2 :=
  (if_neg (by simp [hen, hcnt])).trans (if_pos hfree)

theorem Dev.pailFree_foreign (hused : tagState (d.pailTag h) = 1) (howner : tagOwner (d.pailTag h) ≠ o) (hm : m = false) :
    d.pailFree h o m = d.pailRefuse h o 3 :=
  (if_neg (by simp [hen, hcnt])).trans ((if_neg (not_not_intro hused)).trans (if_pos ⟨howner, by simp [hm]⟩))

variable (hused : tagState (d.pailTag h) = 1) (howner : tagOwner (d.pailTag h) = o ∨ m = true)
include hused howner

/-- A free that is performed is counted, and by another than the owner once more. -/
theorem Dev.pailFree_performed :
    d.pailFree h o m =
      let e := if tagOwner (d.pailTag h) ≠ o then (d.pailCount 4).pailCount 5 else d.pailCount 4
      if d.pailLost h then (e.setPailTag h (3 * 1024 + tagOwner (d.pailTag h))).pailCount 7
      else ((e.setPailTag h 0).setPailFree (hPool h) (e.pailFreeCount (hPool h) + 1)).setPailCache (hPool h)
        (min 128 (e.pailCache (hPool h) + 1)) :=
  (if_neg (by simp [hen, hcnt])).trans ((if_neg (not_not_intro hused)).trans (if_neg (by
    rintro ⟨hne, hm⟩
    exact howner.elim hne hm)))

end

/-- Settles O56: the first row that applies, and the tag it leaves. (The model's own definition has the name `pailFree`.) -/
theorem pailFree_byTable : Obligations.PailFree := by
  refine ⟨fun d h o m hbad => ?_, fun d h o m hen hcnt hfree => ?_, fun d h o m hen hcnt hused howner hm => ?_,
    fun d h o m hen hcnt hused howner hlost => ?_, fun d h o m hen hcnt hused howner hlost => ?_⟩
  · rw [Dev.pailFree_bad d h o m hbad]
    exact Dev.pailRefuse_eq d h o (by decide) rfl
  · rw [Dev.pailFree_double d h o m hen hcnt hfree]
    exact Dev.pailRefuse_eq d h o (by decide) rfl
  · rw [Dev.pailFree_foreign d h o m hen hcnt hused howner hm]
    exact Dev.pailRefuse_eq d h o (by decide) rfl
  · have hfreed := (Dev.pailFree_performed d h o m hen hcnt hused howner).trans (if_pos hlost)
    refine ⟨hfreed, ?_⟩
    rw [hfreed, Dev.pailTag_pailCount, Dev.pailTag_setPailTag, tagState_retired]
  · have hfreed := (Dev.pailFree_performed d h o m hen hcnt hused howner).trans (if_neg (by simp [hlost]))
    refine ⟨hfreed, ?_⟩
    rw [hfreed]
    exact congrArg tagState (Dev.pailTag_setPailTag _ h 0)

end Sys2Proof.Machine
end

section
/-! PROOFS. Programs on field cores: grants, quanta, the monitor's calls, port stores and the time limit (R339 to R341, R346, R347, R350,
R351). -/

namespace Sys2Proof.Machine

variable {d : Dev} {c t tag : Nat} {x : ProgInst}

/-! ### Grants and quanta (R94, R339, R346) -/

/-- A free core of a quadrant in service goes to the program that is next. -/
theorem programDispatch_of_next (hfc : fieldCore c = true) (hq : d.quadOk (c / 8) = true) (htest : d.underTest (c / 8) = false)
    (hst : d.coreState c = 0 ∨ d.coreState c = 3) (hprog : (d.cpu c).prog = none) (hhalt : (d.cpu c).halted = false)
    (hnext : d.nextProg (c / 8) = some x) : programDispatch c d = (d.coreRound x.quad x.plot).putProg c x := by
  have hfree : (fieldCore c && d.quadOk (c / 8) && !d.underTest (c / 8) && (d.coreState c == 0 || d.coreState c == 3) &&
      (d.cpu c).prog.isNone && !(d.cpu c).halted) = true := by
    simpa [hfc, hq, htest, hprog, hhalt] using hst
  unfold programDispatch Dev.grantCore
  rw [if_pos hfree, hnext]

/-- Between a load and its slot, and at S, the end of the quantum is noted and waits. -/
theorem quantumEnd_waits (hfc : fieldCore c = true) (hon : (d.progOn c).isSome = true)
    (hbusy : (d.cpu c).delay.isSome = true ∨ (d.cpu c).prv = true) :
    quantumEnd c d = d.setCpu c { d.cpu c with preempt := true } :=
  (if_neg (not_not_intro hfc)).trans (if_pos ⟨hon, hbusy⟩)

theorem quantumEnd_taken (hfc : fieldCore c = true) (hdelay : (d.cpu c).delay = none) (hprv : (d.cpu c).prv = false) :
    quantumEnd c d = d.quantumEnd c :=
  (if_neg (not_not_intro hfc)).trans (if_neg (by simp [hdelay, hprv]))

/-- The program is charged, and leaves where its plot is over its cap or the grant is another's. -/
theorem Dev.quantumEnd_of_progOn {w y : Dev} (hw : w = d.setCpu c { d.cpu c with preempt := false }) (hon : w.progOn c = some x)
    (hy : y = w.chargeProg x) :
    d.quantumEnd c =
      if y.f (F.PLOT_FCORE_CAP x.plot) < y.onCores x.plot ∨ y.corePlot x.quad (y.runnable x.quad ++ [x]) ≠ x.plot ∨
          (y.runnable x.quad).any (fun v => v.plot == x.plot) = true then
        match y.inst? x.tag with
        | some z => (y.offCore c z true).grantCore c
        | none => y
      else y.coreRound x.quad x.plot := by
  subst hw hy
  unfold Dev.quantumEnd
  dsimp only
  rw [hon]
  refine if_congr ?_ rfl rfl
  simp only [Bool.or_eq_true, decide_eq_true_eq, Bool.not_eq_true', Bool.and_eq_false_iff, beq_eq_false_iff_ne, Bool.not_eq_false', ne_eq]

/-! ### The monitor's calls (R347, R350, R351) -/

section
variable (hP : d.atP c = some x)
include hP

theorem programExit_atP : programExit c d = d.svcExit c x := by
  unfold programExit
  rw [hP]

theorem yield_atP : yield c d = d.svcYield c := by
  unfold yield
  rw [hP]

/-- With no delegated trap in progress SVC #2 ends the program. -/
theorem resume_untrapped (htrap : x.inTrap = false) : resume c d = (d.svcEntry c 2).trapEnd c x 9 := by
  unfold resume
  rw [hP]
  exact if_pos (by simp [htrap])

/-- With one, pc and fl come from its frame, which is then free. -/
theorem resume_trapped (htrap : x.inTrap = true) :
    ∃ y z : Dev, y = d.svcEntry c 2 ∧
      z = y.setCpu c { y.cpu c with
        tpc := BitVec.ofNat 64 (leNat ((y.cpu c).tcm.bytes (trapFrame + 8) 8))
        tfl := BitVec.ofNat 64 (leNat ((y.cpu c).tcm.bytes (trapFrame + 24) 8)) &&& 0x1011F#64
        tcm := (y.cpu c).tcm.setBytes (trapFrame + 32) (leBytes 4 0) } ∧
      resume c d = (z.setInst { x with inTrap := false }).svcReturn c := by
  refine ⟨_, _, rfl, rfl, ?_⟩
  unfold resume
  rw [hP]
  exact if_neg (not_not_intro htrap)

/-! ### Port stores (R340, R341) -/

/-- The tail moves within what has been delivered, and the slots' credit is returned. -/
theorem pinTail_moves {n : Nat} {z : ProgInst} {y : Dev} (hn : n = seqDist (t % 2 ^ 32) x.pinTail) (h1 : 1 ≤ n)
    (hroom : n ≤ seqDist x.pinHead x.pinTail)
    (hz : z = { x with pinTail := t % 2 ^ 32, inCurds := x.inCurds.filter (fun c => !decide (seqDist c.1 x.pinTail < n)) })
    (hy : y = (d.setInst z).pinCredit z n) :
    pinTail c t d = y.setCpu c { y.cpu c with pc := (y.cpu c).pc + 4#64, delay := none } := by
  subst hn hz hy
  unfold pinTail Dev.pinTail
  rw [hP]
  dsimp only
  rw [if_pos ⟨h1, hroom⟩]

theorem pinTail_traps {n : Nat} (hn : n = seqDist (t % 2 ^ 32) x.pinTail) (hbad : n = 0 ∨ seqDist x.pinHead x.pinTail < n) :
    pinTail c t d = d.trap c 0xC 2 0x801F004 (d.cpu c).pc.toNat false (d.cpu c).delay.isSome := by
  subst hn
  unfold pinTail Dev.pinTail
  rw [hP]
  dsimp only
  rw [if_neg (by omega)]

variable {n : Nat} {ws : List Nat} (hn : n = seqDist (t % 2 ^ 32) x.poutTail)
  (hws : ws = (List.range (min n 16)).map (fun i => leNat (x.out.bytes ((x.poutTail + i) % 16 * 0x200 + 0x100) 8)))
include hn hws

/-- Curds that pass the checks of R341 are posted, the last of them perhaps marked LAST. -/
theorem poutTail_posts {y : Dev} (h1 : 1 ≤ n) (h16 : n ≤ 16) (hroom : seqDist (t % 2 ^ 32) x.poutHead ≤ 16) (hok : ws.all poutOk = true)
    (hlast : x.outLast = false) (hmid : ws.dropLast.all (fun w => !bit w 10) = true)
    (hy : y = d.setInst { x with poutTail := t % 2 ^ 32, outLast := (ws.getLast?).any (fun w => bit w 10) }) :
    poutTail c t d = y.setCpu c { y.cpu c with pc := (y.cpu c).pc + 4#64, delay := none } := by
  subst hy hn hws
  unfold poutTail Dev.poutTail
  rw [hP]
  dsimp only
  rw [if_pos ⟨h1, h16, hroom, hok, by simp [hlast], hmid⟩, hlast]
  generalize List.getLast? _ = last
  cases last <;> rfl

theorem poutTail_traps (hbad : n = 0 ∨ 16 < n ∨ 16 < seqDist (t % 2 ^ 32) x.poutHead ∨ ws.all poutOk = false ∨ x.outLast = true ∨
      ws.dropLast.all (fun w => !bit w 10) = false) :
    poutTail c t d = d.trap c 0xC 2 0x801F008 (d.cpu c).pc.toNat false (d.cpu c).delay.isSome := by
  have hfail : ¬(1 ≤ n ∧ n ≤ 16 ∧ seqDist (t % 2 ^ 32) x.poutHead ≤ 16 ∧ ws.all poutOk = true ∧ ¬x.outLast = true ∧
      ws.dropLast.all (fun w => !bit w 10) = true) := by
    rintro ⟨h1, h16, hroom, hok, hlast, hmid⟩
    rcases hbad with h | h | h | h | h | h
    · omega
    · omega
    · omega
    · simp [h] at hok
    · exact hlast h
    · simp [h] at hmid
  subst hn hws
  unfold poutTail Dev.poutTail
  rw [hP]
  dsimp only
  rw [if_neg hfail]

end

/-! ### The time limit (R351) -/

theorem programTimeout_ends (hx : d.inst? tag = some x) (htime : x.launch.timeout ≠ 0) (hstart : x.started.isSome = true) :
    programTimeout tag d = d.endProg tag
      { js := .timeout, cause := 0, bits := 0, core := x.core.getD 0 % 8,
        val := if x.core.isSome then (d.cpu (x.core.getD 0)).tval.toNat else 0,
        pc := if x.core.isSome then (d.cpu (x.core.getD 0)).pc.toNat else 0,
        fl := if x.core.isSome then (d.cpu (x.core.getD 0)).fl.toNat else 0 } := by
  unfold programTimeout
  rw [hx]
  exact if_neg (by simp [htime, Option.isSome_iff_ne_none.mp hstart])

/-- Settles O46: each command on a core in the state its clause names. -/
theorem programsComplete : Obligations.ProgramsComplete :=
  ⟨fun _ _ _ hs hfc hq htest hst hprog hhalt hnext => effects_run rfl hs (programDispatch_of_next hfc hq htest hst hprog hhalt hnext),
   fun _ _ hs hfc hon hbusy => effects_run rfl hs (quantumEnd_waits hfc hon hbusy),
   fun _ _ _ _ _ hs hfc hdelay hprv hw hon hy => effects_run rfl hs
      ((quantumEnd_taken hfc hdelay hprv).trans (Dev.quantumEnd_of_progOn hw hon hy)),
   fun _ _ _ hs hP => effects_run rfl hs (programExit_atP hP),
   fun _ _ _ hs hP => effects_run rfl hs (yield_atP hP),
   fun _ _ _ hs hP htrap => effects_run rfl hs (resume_untrapped hP htrap),
   fun _ _ _ hs hP htrap => effects_run rfl hs (resume_trapped hP htrap),
   fun _ _ _ _ _ _ _ hs hP hn h1 hroom hz hy => effects_run rfl hs (pinTail_moves hP hn h1 hroom hz hy),
   fun _ _ _ _ _ hs hP hn hbad => effects_run rfl hs (pinTail_traps hP hn hbad),
   fun _ _ _ _ _ _ _ hs hP hn hws h1 h16 hroom hok hlast hmid hy => effects_run rfl hs
      (poutTail_posts hP hn hws h1 h16 hroom hok hlast hmid hy),
   fun _ _ _ _ _ _ hs hP hn hws hbad => effects_run rfl hs (poutTail_traps hP hn hws hbad),
   fun _ _ _ hs hx htime hstart => effects_run rfl hs (programTimeout_ends hx htime hstart)⟩

end Sys2Proof.Machine
end

section
/-! PROOFS. Keys, GCM leases and tags, engine switches and digest sessions (R278, R284, R288, R291, R293 to R297). -/

namespace Sys2Proof.Machine

variable {d : Dev} {q : Nat}

/-! ### Keys and leases (R278, R284) -/

theorem keyDerivation_lane (hq : d.quadOk q = true) {nsid : Nat} {n : Ns} (hn : d.ns? nsid = some n) (ch slot purpose : Nat) :
    keyDerivation q (some (ch, nsid)) slot purpose d =
      (d.getKey q { purpose := 1, plot := 0, nsid := nsid, epoch := n.epoch, ulabel := 0 } 0 (.lane ch nsid)).2 := by
  unfold keyDerivation
  rw [if_neg (not_not_intro hq)]
  dsimp only
  rw [hn]

section
variable (hq : d.quadOk q = true) {slot purpose : Nat} {j : Job} (hj : d.job? q slot = some j)
include hq hj

theorem keyDerivation_foreign (hp : j.purpose = 0 ∨ j.purpose ≠ purpose) :
    keyDerivation q none slot purpose d = (d.jobCond q slot .badDesc).ciphErr q Js.badDesc.code slot := by
  unfold keyDerivation
  rw [if_neg (not_not_intro hq)]
  dsimp only
  rw [hj]
  exact if_pos hp

/-- A key that cannot be given ends the job. -/
theorem keyDerivation_own (h0 : j.purpose ≠ 0) (hp : j.purpose = purpose) :
    keyDerivation q none slot purpose d =
      match d.getKey q j.label (j.par 64 1) (.job slot) with
      | (some _, y) => y
      | (none, y) => ((y.jobCond q slot .epochExhausted).ciphErr q Js.epochExhausted.code slot).bump (F.CIPH_CNT_COUNT q 7) 0x167 q 1 := by
  unfold keyDerivation
  rw [if_neg (not_not_intro hq)]
  dsimp only
  rw [hj]
  exact if_neg (not_or.mpr ⟨h0, not_not_intro hp⟩)

end

/-- A lease is spent where there is none, or where its values have all been used. -/
theorem lease_spent_cases {l : Option (Nat × Nat)} (h : (match l with | none => true | some l => decide (l.2 ≤ l.1)) = true) :
    l = none ∨ ∃ x, l = some x ∧ x.2 ≤ x.1 := by
  cases l with
  | none => exact .inl rfl
  | some x => exact .inr ⟨x, rfl, of_decide_eq_true h⟩

section
variable {idx : Nat} {k : KeySlot} (hk : (d.keySlots q).find? (fun k => k.idx == idx) = some k) (hpurpose : k.label.purpose = 3)
  (hspent : k.lease = none ∨ ∃ x, k.lease = some x ∧ x.2 ≤ x.1) {t : List GcmEnt}
include hk hpurpose hspent

theorem gcmLease_granted {l : Nat × Nat} (hreq : gcmRequest d.gcm k.label.plot k.label.ulabel k.label.epoch = (t, .ok l)) :
    gcmLease q idx d =
      ({ d with gcm := t } : Dev).setKeySlots q ((d.keySlots q).map (fun x => if x.idx == idx then { x with lease := some l } else x)) := by
  unfold gcmLease
  rw [hk]
  rcases hspent with hl | ⟨x, hl, hle⟩
  · simp [hpurpose, hl, hreq]
  · simp [hpurpose, hl, hreq, hle]

theorem gcmLease_refused {cause : Nat} (hreq : gcmRequest d.gcm k.label.plot k.label.ulabel k.label.epoch = (t, .error cause)) :
    gcmLease q idx d = ((d.refuseUsers q k).bump (F.CIPH_CNT_COUNT q 7) 0x167 q 1).raise (quadEvent q 4 2) noPlot
      [k.label.purpose, k.label.plot, cause] := by
  unfold gcmLease
  rw [hk]
  rcases hspent with hl | ⟨x, hl, hle⟩
  · simp [hpurpose, hl, hreq]
  · simp [hpurpose, hl, hreq, hle]

end

/-- A lease of an epoch that goes on begins where the last one ended. -/
theorem gcmRequest_goes_on {t : List GcmEnt} {plot ulabel epoch : Nat} {x : GcmEnt}
    (hx : t.find? (fun y => y.plot == plot && y.ulabel == ulabel) = some x) (hepoch : x.epoch = epoch) (hroom : x.next + leaseMax ≤ 2 ^ 64) :
    gcmRequest t plot ulabel epoch =
      (t.filter (fun y => !(y.plot == plot && y.ulabel == ulabel)) ++ [{ x with next := x.next + leaseMax }], .ok (x.next, x.next + leaseMax)) := by
  have hnext : x.next ≠ 2 ^ 64 := by unfold leaseMax at hroom; omega
  unfold gcmRequest
  rw [hx]
  dsimp only
  rw [if_neg (by omega), if_neg (by omega), if_neg hnext, min_eq_left hroom]

/-! ### Tags (R288) -/

/-- The next message that a job decrypts is checked when it is in, and sent up to what is held of it. -/
theorem gcmTagCheck_due {slot : Nat} {j : Job} {done : List OutUnit} {o len : Nat} {m : OutRec} (hj : d.job? q slot = some j)
    (hpurpose : j.purpose = 3) (hdec : j.par 65 1 = 1) (hkey : (d.jobKey q j).isSome = true)
    (hdone : done = (d.product q j).units.take j.feed.checked) (ho : o = (done.map OutUnit.size).sum)
    (hmsg : gcmMsg j.feed.inp ((done.map (fun u => u.size + 40)).sum) (j.desc.inlen - j.skip - (done.map (fun u => u.size + 40)).sum) =
      some (len, m)) (hlen : len + 40 ≤ m.length) (hmin : 41 ≤ m.length) (hsent : o + heldFrom len ≤ j.feed.sent) :
    ∃ x y : Job, x = { j with feed := { j.feed with checked := j.feed.checked + 1 } } ∧
      y = (if foul m = true then x.note .poison else x).note .authFail ∧
      gcmTagCheck q slot d =
        if foul m = false ∧ gcmTagOk (toNats (d.keyOf j.label 0)) len m = true then d.setJob q x
        else if foul m = true then d.setJob q { y with tainted := true, untrustedAt := some (y.untrustedAt.getD (o + heldFrom len)) }
        else ((d.setJob q { y with tainted := true, untrustedAt := some (y.untrustedAt.getD (o + heldFrom len)) }).bump
          (F.CIPH_CNT_COUNT q 3) 0x163 q 1).raise (quadEvent q 4 0) noPlot [] := by
  subst ho hdone
  refine ⟨_, _, rfl, rfl, ?_⟩
  unfold gcmTagCheck
  rw [hj]
  dsimp only
  rw [if_neg (by simp [hpurpose, hdec, Option.isSome_iff_ne_none.mp hkey]), hmsg]
  dsimp only
  rw [if_neg (by omega)]
  exact if_congr (by simp) rfl rfl

/-! ### Engine switches (R291) -/

theorem engineSwitch_digest (hq : d.quadOk q = true) (n : Nat) (ended : Bool) :
    engineSwitch q true n ended d = (d.engPoint 1 q 0 n ended 65536).2 := by
  unfold engineSwitch
  rw [if_neg (not_not_intro hq)]
  exact if_neg (by simp)

theorem engineSwitch_cipher (hq : d.quadOk q = true) (n : Nat) (ended : Bool) :
    engineSwitch q false n ended d =
      if (d.engPoint 0 q 0 n ended 65536).1 then (d.engPoint 0 q 0 n ended 65536).2.bump (F.CIPH_CNT_COUNT q 6) 0x166 q 1
      else (d.engPoint 0 q 0 n ended 65536).2 := by
  unfold engineSwitch
  rw [if_neg (not_not_intro hq)]
  exact if_congr (by simp) rfl rfl

/-! ### Digest sessions (R293 to R297) -/

section
variable {s_ plot : Nat} (hq : d.quadOk q = true) (hs8 : s_ < 8)
include hq hs8

/-- A session opens with its results cleared, and with a key where it is an HMAC. -/
theorem dgstOpen_closed (h1 : d.sesState q s_ ≠ 1) (h2 : d.sesState q s_ ≠ 2) {x : Dev}
    (hx : x = ((((((List.range 8).foldl (fun (y : Dev) i => (y.setF (F.DGST_RES_DIGEST q s_ i) 0).setF (F.DGST_EXP_DIGEST q s_ i) 0) d).setF
      (F.DGST_SLEN_BYTES q s_) 0).setF (F.DGST_SSTAT_PLOT q s_) plot).setF (F.DGST_SSTAT_ERR q s_) 0).setF (F.DGST_CMP_MATCH q s_) 0).setF
      (F.DGST_CMP_MATCH_N q s_) 0) :
    ∃ z : Dev → Dev, z = (fun (y : Dev) => ((y.setSes q s_ { DgstSes.init with at_ := y.now }).setSesState q s_ 1).bump
        (F.DGST_CNT_COUNT q 3) 0x16B q 1) ∧
      dgstOpen q s_ plot d =
        match (match x.engTake 1 q plot (x.f (F.DGST_SCTL_URG q s_)) 0 (.session s_) with
          | some y => some y
          | none => if plot = steward then some (x.engTakeInternal 1 q (x.f (F.DGST_SCTL_URG q s_)) 0 (.session s_)) else none) with
        | none => (x.sesError q s_ 1).raise (ctxEvent 1 q) noPlot []
        | some y => if d.f (F.DGST_SCTL_ALG q s_) < 3 then z y
            else match (z y).getKey q
                { purpose := 6, plot := plot, nsid := 0, epoch := (z y).f (F.DGST_SEPOCH_EPOCH q s_),
                  ulabel := (z y).f (F.DGST_SLABEL_ULABEL q s_) } (d.f (F.DGST_SCTL_ALG q s_)) (.session s_) with
              | (some i, w) => w.setSes q s_ { DgstSes.init with at_ := y.now, key := some i }
              | (none, w) => w.sesError q s_ 6 := by
  subst hx
  exact ⟨_, rfl, if_neg (by simp [hq, h1, h2, hs8])⟩

theorem dgstDigestDone_finishing (h2 : d.sesState q s_ = 2) (fault : Bool) :
    ∃ x y : Dev, x = (List.range 8).foldl (fun (z : Dev) i => z.setF (F.DGST_RES_DIGEST q s_ i)
        (leNat (((d.sesDigest q s_).drop (8 * i)).take 8))) d ∧
      y = (x.bump (F.DGST_CNT_COUNT q 0) 0x168 q (d.ses q s_).msg.length).bump (F.DGST_CNT_COUNT q (if d.f (F.DGST_SCTL_ALG q s_) < 3 then 1 else 2))
        (if d.f (F.DGST_SCTL_ALG q s_) < 3 then 0x169 else 0x16A) q 1 ∧
      dgstDigestDone q s_ fault d = ((y.setSesState q s_ 3).sesFree q s_).sesCompare q s_ fault :=
  ⟨_, _, rfl, rfl, if_neg (by simp [hq, h2, hs8])⟩

theorem dgstIdleTimeout_open (h1 : d.sesState q s_ = 1) : dgstIdleTimeout q s_ d = d.sesError q s_ 4 :=
  if_pos (by simp [hq, hs8, h1])

variable (hown : d.sesOwner q s_ plot = true)
include hown

/-- Clean bytes are taken by an open session, and may finish its message. -/
theorem Dev.sesBytes_open (h1 : d.sesState q s_ = 1) (bs : List Byte) (finish : Bool) :
    d.sesBytes q s_ plot bs false finish =
      let e := (d.setSes q s_ { d.ses q s_ with msg := (d.ses q s_).msg ++ bs, at_ := d.now, written := true }).setF (F.DGST_SLEN_BYTES q s_)
        ((d.ses q s_).msg.length + bs.length)
      if finish then e.setSesState q s_ 2 else e :=
  (if_neg (by simp [hq, hs8, hown])).trans ((if_neg (not_not_intro h1)).trans (if_neg (by simp)))

theorem Dev.sesBytes_poisoned (h1 : d.sesState q s_ = 1) (bs : List Byte) (finish : Bool) :
    d.sesBytes q s_ plot bs true finish = (d.setSes q s_ { d.ses q s_ with poisoned := true }).sesError q s_ 3 :=
  (if_neg (by simp [hq, hs8, hown])).trans ((if_neg (not_not_intro h1)).trans (if_pos rfl))

theorem Dev.sesBytes_closed (h1 : d.sesState q s_ ≠ 1) (bs : List Byte) (poisoned finish : Bool) :
    d.sesBytes q s_ plot bs poisoned finish = d.sesError q s_ 2 :=
  (if_neg (by simp [hq, hs8, hown])).trans (if_pos h1)

theorem dgstFin0_empty (h1 : d.sesState q s_ = 1) (hw : (d.ses q s_).written = false) : dgstFin0 q s_ plot d = d.setSesState q s_ 2 :=
  if_pos (by simp [hq, hs8, hown, h1, hw])

theorem dgstAbort_live (hlive : d.sesState q s_ = 1 ∨ d.sesState q s_ = 2) : dgstAbort q s_ plot d = d.sesError q s_ 5 :=
  if_pos (by simpa [hq, hs8, hown] using hlive)

theorem dgstExpWrite_owner {i value : Nat} (hi : i < 8) {x : Dev} (hx : x = d.setF (F.DGST_EXP_DIGEST q s_ i) value) (fault : Bool) :
    dgstExpWrite q s_ i plot value fault d = if x.sesState q s_ = 3 then x.sesCompare q s_ fault else x := by
  subst hx
  exact if_pos (by simp [hq, hs8, hown, hi])

end

/-- LAST adds 1 to 8 bytes. -/
theorem dgstLast_bytes {n : Nat} (h1 : 1 ≤ n) (h8 : n ≤ 8) (s_ plot word : Nat) (poisoned : Bool) :
    dgstLast q s_ n plot word poisoned d = d.sesBytes q s_ plot (leBytes n word) poisoned true := if_pos ⟨h1, h8⟩

/-- Settles O45: each command in the state its clause names. -/
theorem cipherAndDigestComplete : Obligations.CipherAndDigestComplete :=
  ⟨fun _ _ ch _ slot purpose _ hs hq hn => effects_run rfl hs (keyDerivation_lane hq hn ch slot purpose),
   fun _ _ _ _ _ hs hq hj hp => effects_run rfl hs (keyDerivation_foreign hq hj hp),
   fun _ _ _ _ _ hs hq hj h0 hp => effects_run rfl hs (keyDerivation_own hq hj h0 hp),
   fun _ _ _ _ _ _ hs hk hpurpose hspent hreq => effects_run rfl hs (gcmLease_granted hk hpurpose (lease_spent_cases hspent) hreq),
   fun _ _ _ _ _ _ hs hk hpurpose hspent hreq => effects_run rfl hs (gcmLease_refused hk hpurpose (lease_spent_cases hspent) hreq),
   fun _ _ _ _ _ hx hepoch hroom => gcmRequest_goes_on hx hepoch hroom,
   fun _ _ _ _ _ _ _ _ hs hj hpurpose hdec hkey hdone ho hmsg hlen hmin hsent => effects_run rfl hs
      (gcmTagCheck_due hj hpurpose hdec hkey hdone ho hmsg hlen hmin hsent),
   fun _ _ n ended hs hq => effects_run rfl hs (engineSwitch_digest hq n ended),
   fun _ _ n ended hs hq => effects_run rfl hs (engineSwitch_cipher hq n ended),
   fun _ _ _ _ _ hs hq hs8 h1 h2 hx => effects_run rfl hs (dgstOpen_closed hq hs8 h1 h2 hx),
   fun _ _ _ _ _ hs hq hs8 hown h1 => effects_run rfl hs (Dev.sesBytes_open hq hs8 hown h1 _ false),
   fun _ _ _ _ _ hs hq hs8 hown h1 => effects_run rfl hs (Dev.sesBytes_poisoned hq hs8 hown h1 _ false),
   fun _ _ _ _ _ poisoned hs hq hs8 hown h1 => effects_run rfl hs (Dev.sesBytes_closed hq hs8 hown h1 _ poisoned false),
   fun _ _ _ _ _ _ hs hq hs8 h1n hn8 hown h1 => effects_run rfl hs
      ((dgstLast_bytes h1n hn8 _ _ _ _).trans (Dev.sesBytes_open hq hs8 hown h1 _ true)),
   fun _ _ _ _ _ _ hs hq hs8 h1n hn8 hown h1 => effects_run rfl hs
      ((dgstLast_bytes h1n hn8 _ _ _ _).trans (Dev.sesBytes_poisoned hq hs8 hown h1 _ true)),
   fun _ _ _ _ _ _ poisoned hs hq hs8 h1n hn8 hown h1 => effects_run rfl hs
      ((dgstLast_bytes h1n hn8 _ _ _ _).trans (Dev.sesBytes_closed hq hs8 hown h1 _ poisoned true)),
   fun _ _ _ _ hs hq hs8 hown h1 hw => effects_run rfl hs (dgstFin0_empty hq hs8 hown h1 hw),
   fun _ _ _ _ hs hq hs8 hown hlive => effects_run rfl hs (dgstAbort_live hq hs8 hown hlive),
   fun _ _ _ fault hs hq hs8 h2 => effects_run rfl hs (dgstDigestDone_finishing hq hs8 h2 fault),
   fun _ _ _ hs hq hs8 h1 => effects_run rfl hs (dgstIdleTimeout_open hq hs8 h1),
   fun _ _ _ _ _ _ fault _ hs hq hs8 hi hown hx => effects_run rfl hs (dgstExpWrite_owner hq hs8 hown hi hx fault)⟩

end Sys2Proof.Machine
end

section
/-! PROOFS. The commands of the Computational Programs and Subsystem Local Memory command sets (R337, R454). -/

namespace Sys2Proof.Machine

variable {d : Dev} {c : NCmd}

/-! ### Execute Program (R232, R233, R338, R339) -/

/-- The ranges the command names lie within its memory range set, or it names no set. -/
def Dev.setHolds (d : Dev) (plot set : Nat) (ranges : List (Nat × Nat)) : Prop :=
  set = 0 ∨ ∃ z, d.trel.sets.find? (fun z => z.plot == plot && z.id == set) = some z ∧ z.gen = d.plotGen plot ∧
    ranges.all (fun r => r.2 == 0 || z.holds r) = true

/-- The condition of the range set as the obligation states it. -/
theorem Dev.setHolds_of {plot set : Nat} {ranges : List (Nat × Nat)}
    (h : (match d.trel.sets.find? (fun z => z.plot == plot && z.id == set) with
      | some z => set == 0 || (decide (z.gen = d.plotGen plot) && ranges.all (fun r => r.2 == 0 || z.holds r))
      | none => set == 0) = true) : d.setHolds plot set ranges := by
  unfold Dev.setHolds
  cases hz : d.trel.sets.find? (fun z => z.plot == plot && z.id == set) with
  | none =>
    rw [hz] at h
    exact .inl (by simpa using h)
  | some z =>
    rw [hz] at h
    simp only [Bool.or_eq_true, beq_iff_eq, Bool.and_eq_true, decide_eq_true_eq] at h
    exact h.imp id fun ⟨hgen, hall⟩ => ⟨z, rfl, hgen, hall⟩

section
variable {index set : Nat} {param : List Byte} (hc : d.admitsCompute c computeNsid = true) (hptr : dataFits c param.length false = true)
include hc hptr

/-- What is left of the command when no check of its range set refuses it. -/
theorem executeProgram_withinSet {ranges : List (Nat × Nat)}
    (hranges : ranges = if decide (1 ≤ index ∧ index ≤ 8) = true then paramRanges param else (launchOf param).ranges)
    (hset : d.hostActivity.setHolds c.id.plot set ranges)
    (hindex : (1 ≤ index ∧ index ≤ 8) ∨ ∃ x, d.hostActivity.prog? c.id.plot index = some x ∧ x.gen = d.hostActivity.plotGen c.id.plot ∧
      x.active = true)
    (himage : ¬(index = 2 ∧
      ((d.hostActivity.image? c.id.plot (field param 1024 4)).map (fun m => m.gen != d.hostActivity.plotGen c.id.plot)).getD false = true)) :
    executeProgram c index set param d =
      match d.hostActivity.prog? c.id.plot index with
      | some x => if d.hostActivity.f (F.PLOT_FCORE_CAP c.id.plot) = 0 then d.hostActivity.done c.id .invalidField
          else d.hostActivity.runProg c x param
      | none => d.hostActivity.runFixed c index param := by
  unfold executeProgram
  rw [Dev.compute_of hc, Dev.withPtr_of hptr]
  generalize d.hostActivity = e at *
  dsimp only
  rw [← hranges]
  have hnamed : ¬(set ≠ 0 ∧ (e.trel.sets.find? (fun s => s.plot == c.id.plot && s.id == set)).isNone = true) := by
    rcases hset with h0 | ⟨z, hz, -, -⟩
    · simp [h0]
    · simp [hz]
  have hgen : ¬(set ≠ 0 ∧ (e.trel.sets.find? (fun s => s.plot == c.id.plot && s.id == set)).map RangeSet.gen ≠ some (e.plotGen c.id.plot)) := by
    rcases hset with h0 | ⟨z, hz, hgen, -⟩
    · simp [h0]
    · simp [hz, hgen]
  have hfixed : ¬(¬decide (1 ≤ index ∧ index ≤ 8) = true ∧ (e.prog? c.id.plot index).isNone = true) ∧
      ¬(¬decide (1 ≤ index ∧ index ≤ 8) = true ∧ (e.prog? c.id.plot index).map LoadedProg.gen ≠ some (e.plotGen c.id.plot)) ∧
      ¬(¬decide (1 ≤ index ∧ index ≤ 8) = true ∧ (e.prog? c.id.plot index).map LoadedProg.active ≠ some true) := by
    rcases hindex with hi | ⟨x, hx, hxgen, hactive⟩
    · simp [hi]
    · simp [hx, hxgen, hactive]
  obtain ⟨hsome, hprogGen, hactive⟩ := hfixed
  rw [if_neg hsome, if_neg hprogGen, if_neg hactive, if_neg hnamed, if_neg hgen]
  rcases hset with h0 | ⟨z, hz, -, hall⟩
  · rw [if_neg (by subst h0; split <;> simp)]
    exact if_neg himage
  · rw [hz, if_neg (by simp [hall])]
    exact if_neg himage

/-- A fixed program starts. -/
theorem executeProgram_fixed (hset : d.hostActivity.setHolds c.id.plot set (paramRanges param)) (hindex : 1 ≤ index ∧ index ≤ 8)
    (hprog : d.hostActivity.prog? c.id.plot index = none)
    (himage : ¬(index = 2 ∧
      ((d.hostActivity.image? c.id.plot (field param 1024 4)).map (fun m => m.gen != d.hostActivity.plotGen c.id.plot)).getD false = true)) :
    executeProgram c index set param d = d.hostActivity.runFixed c index param := by
  rw [executeProgram_withinSet hc hptr (by simp [hindex]) hset (.inl hindex) himage, hprog]

/-- A loaded program of the plot's generation that is active starts, where the plot may use field cores. -/
theorem executeProgram_loaded {x : LoadedProg} (hset : d.hostActivity.setHolds c.id.plot set (launchOf param).ranges) (hindex : 8 < index)
    (hprog : d.hostActivity.prog? c.id.plot index = some x) (hgen : x.gen = d.hostActivity.plotGen c.id.plot) (hactive : x.active = true)
    (hcap : d.hostActivity.f (F.PLOT_FCORE_CAP c.id.plot) ≠ 0) :
    executeProgram c index set param d = d.hostActivity.runProg c x param := by
  have hnot : ¬(1 ≤ index ∧ index ≤ 8) := by omega
  have himage : ¬(index = 2 ∧
      ((d.hostActivity.image? c.id.plot (field param 1024 4)).map (fun m => m.gen != d.hostActivity.plotGen c.id.plot)).getD false = true) := by
    omega
  rw [executeProgram_withinSet hc hptr (by simp [hnot]) hset (.inr ⟨x, hprog, hgen, hactive⟩) himage, hprog]
  exact if_neg hcap

end

/-! ### Load Program and Program Activation (R260, R337) -/

section
variable {index ptype size off : Nat} {image : List Byte} (pats : List Rx) (bodyOk sigOk : Bool) (hc : d.admitsCompute c computeNsid = true)
include hc

/-- A piece that follows on is kept, and with the last one the whole is verified. -/
theorem loadProgram_piece (hptr : dataFits c image.length false = true) (hty : ptype = 0xE0 ∨ ptype = 0xE1) {img : List Byte} {y : Dev}
    (hload : d.hostActivity.loadPiece c.id.plot index ptype size off image = some (img, y)) :
    loadProgram c index false ptype size off image pats bodyOk sigOk d =
      if img.length = size then y.loadWhole c index ptype img pats bodyOk sigOk else y.done c.id .success := by
  unfold loadProgram
  rw [Dev.compute_of hc]
  dsimp only
  rw [if_neg (by simp), Dev.withPtr_of hptr, if_neg (not_not_intro hty), hload]

theorem loadProgram_unload (hgen : d.hostActivity.indexGen c.id.plot index = some (d.hostActivity.plotGen c.id.plot)) :
    loadProgram c index true ptype size off image pats bodyOk sigOk d = (d.hostActivity.freeIndex c.id.plot index).done c.id .success := by
  unfold loadProgram
  rw [Dev.compute_of hc]
  dsimp only
  rw [if_pos rfl, hgen]
  exact if_neg (not_not_intro rfl)

end

/-- A whole program image that passes its checks is stored under an index that was free. -/
theorem Dev.loadWhole_program {index : Nat} {img : List Byte} (hindex : d.indexGen c.id.plot index = none) {sigOk : Bool}
    (hcheck : d.imgCheck c.id.plot index img sigOk = none) (pats : List Rx) (bodyOk : Bool) :
    d.loadWhole c index 0xE0 img pats bodyOk sigOk =
      (d.setProg { index := index, plot := c.id.plot, gen := d.plotGen c.id.plot, image := img, active := false }).done c.id .success := by
  simp only [Dev.loadWhole, hindex, Option.map_none, Option.getD_none, Bool.false_eq_true, if_false, if_true, hcheck]

/-- A whole Sieve image likewise. -/
theorem Dev.loadWhole_sieve {index : Nat} {img : List Byte} (hindex : d.indexGen c.id.plot index = none) {pats : List Rx} {bodyOk : Bool}
    (hcheck : d.sieveCheck c.id.plot index img pats bodyOk = none) (sigOk : Bool) :
    d.loadWhole c index 0xE1 img pats bodyOk sigOk =
      ({ d with trel := { d.trel with images := d.trel.images ++
        [{ index := index, plot := c.id.plot, gen := d.plotGen c.id.plot, pats := pats, dtiles := field img 12 4, nbytes := field img 16 4,
           image := img, active := false }] } } : Dev).done c.id .success := by
  simp only [Dev.loadWhole, hindex, Option.map_none, Option.getD_none, Bool.false_eq_true, if_false, Nat.reduceEqDiff, hcheck]

section
variable {index : Nat} {activate : Bool} (hc : d.admitsCompute c computeNsid = true)
include hc

theorem programActivation_program {x : LoadedProg} (hprog : d.hostActivity.prog? c.id.plot index = some x)
    (hgen : x.gen = d.hostActivity.plotGen c.id.plot) (hcap : ¬(activate = true ∧ d.hostActivity.f (F.PLOT_FCORE_CAP c.id.plot) = 0))
    (hidle : ¬(¬activate = true ∧
      d.hostActivity.core.insts.any (fun i => i.plot == c.id.plot && i.index == index && i.ended.isNone) = true)) :
    programActivationManagement c index activate d = (d.hostActivity.setProg { x with active := activate }).done c.id .success := by
  unfold programActivationManagement
  rw [Dev.compute_of hc]
  dsimp only
  rw [hprog]
  dsimp only
  rw [if_neg (not_not_intro hgen), if_neg hcap, if_neg hidle]

/-- A Sieve image that is as asked stays; one to be activated needs room. -/
theorem programActivation_image {m : Image} (hprog : d.hostActivity.prog? c.id.plot index = none)
    (himage : d.hostActivity.image? c.id.plot index = some m) (hgen : m.gen = d.hostActivity.plotGen c.id.plot)
    (hroom : m.active = false → activate = true → d.hostActivity.imgRoom = true) :
    programActivationManagement c index activate d =
      if m.active = activate then d.hostActivity.done c.id .success
      else if activate = true then (d.hostActivity.imgActivate m).done c.id .success
      else (d.hostActivity.imgDeactivate m).done c.id .success := by
  unfold programActivationManagement
  rw [Dev.compute_of hc]
  dsimp only
  rw [hprog, himage]
  dsimp only
  rw [if_neg (not_not_intro hgen)]
  by_cases hsame : m.active = activate
  · rw [if_pos hsame, if_pos hsame]
  · rw [if_neg hsame, if_neg hsame]
    cases activate with
    | false => rfl
    | true => exact (if_neg (by simp)).trans (if_pos (hroom (by simpa using hsame) rfl))

/-! ### Memory range sets (R454) -/

/-- The new set takes a number that was free. -/
theorem memoryRangeSetManagement_create {ranges : List (Nat × Nat × Nat)} {free : List Nat} (id : Nat)
    (hptr : dataFits c (32 * ranges.length) false = true) (hne : ranges ≠ [])
    (hok : ranges.any (fun r => r.1 != memoryNsid c.id.plot || decide (d.hostActivity.slmBytes c.id.plot < r.2.1 + r.2.2) || r.2.2 == 0) =
      false)
    (hfree : free = d.hostActivity.freeSetIds c.id.plot) (hsome : free ≠ []) :
    ∃ k : Nat, k ∈ free ∧ memoryRangeSetManagement c true id ranges d =
      ({ d.hostActivity.draw.2 with trel := { d.hostActivity.draw.2.trel with sets := d.hostActivity.draw.2.trel.sets ++
        [{ id := k, plot := c.id.plot, gen := d.hostActivity.plotGen c.id.plot, ranges := ranges.map (fun t => (t.2.1, t.2.2)) }] } } :
          Dev).complete c.id .success k 0 := by
  have hpos : 0 < free.length := List.length_pos_iff.mpr hsome
  have hlt : Config.setPick d.hostActivity.draw.1 % max 1 free.length < free.length := by
    rw [max_eq_right (Nat.succ_le_of_lt hpos)]
    exact Nat.mod_lt _ hpos
  refine ⟨_, List.getElem_mem hlt, ?_⟩
  rw [← List.getD_eq_getElem _ 0 hlt]
  unfold memoryRangeSetManagement
  rw [Dev.compute_of hc]
  dsimp only
  rw [if_pos rfl, Dev.withPtr_of hptr, ← hfree, if_neg (by simp [hne, hok]), if_neg (by simpa using hsome)]

theorem memoryRangeSetManagement_delete {id : Nat} {x : RangeSet}
    (hx : d.hostActivity.trel.sets.find? (fun z => z.plot == c.id.plot && z.id == id) = some x)
    (hgen : x.gen = d.hostActivity.plotGen c.id.plot) (ranges : List (Nat × Nat × Nat)) :
    memoryRangeSetManagement c false id ranges d =
      ({ d.hostActivity with trel := { d.hostActivity.trel with
        sets := d.hostActivity.trel.sets.filter (fun z => !(z.plot == c.id.plot && z.id == id)) } } : Dev).done c.id .success := by
  unfold memoryRangeSetManagement
  rw [Dev.compute_of hc]
  dsimp only
  rw [if_neg (by simp), hx]
  exact if_neg (not_not_intro hgen)

end

/-! ### SLM commands (R95, R454) -/

section
variable (hc : d.admitsCompute c (memoryNsid c.id.plot) = true)
include hc

/-- A command whose ranges lie in the plot's SLM, on channels that serve. -/
theorem Dev.memory_of {rs : Dev → List (Nat × Nat)} {l : List (Nat × Nat)} (hl : rs d.hostActivity = l)
    (hin : l.any (fun r => decide (d.hostActivity.slmBytes c.id.plot < r.1 + r.2)) = false)
    (hheld : l.any (fun r => d.hostActivity.chanHeld r.1 r.2) = false) (go : Dev → Dev) : d.memory c rs go = go d.hostActivity := by
  unfold Dev.memory
  rw [Dev.compute_of hc]
  rw [hl, if_neg (ne_true_of_eq_false hin), if_neg (ne_true_of_eq_false hheld)]

/-- A command with one range. -/
theorem Dev.memory_one {offset bytes : Nat} (hin : ¬d.hostActivity.slmBytes c.id.plot < offset + bytes)
    (hheld : d.hostActivity.chanHeld offset bytes = false) (go : Dev → Dev) :
    d.memory c (fun _ => [(offset, bytes)]) go = go d.hostActivity :=
  Dev.memory_of hc rfl (by simpa using hin) (by simpa using hheld) go

theorem memoryRead_inRange {offset bytes : Nat} (hin : ¬d.hostActivity.slmBytes c.id.plot < offset + bytes)
    (hheld : d.hostActivity.chanHeld offset bytes = false) (hptr : dataFits c bytes true = true) :
    memoryRead c offset bytes d =
      if (d.hostActivity.slm c.id.plot).poisonedRange offset bytes = true then d.hostActivity.done c.id .unrecoveredReadError
      else (d.hostActivity.send (.bytes c.id.plot (((d.hostActivity.slm c.id.plot).bytes offset bytes).map BitVec.toNat))).done c.id .success :=
  (Dev.memory_one hc hin hheld _).trans (Dev.withPtr_of hptr _ _)

theorem memoryWrite_inRange {offset : Nat} {data : List Byte} (hin : ¬d.hostActivity.slmBytes c.id.plot < offset + data.length)
    (hheld : d.hostActivity.chanHeld offset data.length = false) (hptr : dataFits c data.length false = true) :
    memoryWrite c offset data d =
      (d.hostActivity.setSlm c.id.plot ((d.hostActivity.slm c.id.plot).store offset data [])).done c.id .success :=
  (Dev.memory_one hc hin hheld _).trans (Dev.withPtr_of hptr _ _)

theorem memoryFill_inRange {offset bytes : Nat} (hin : ¬d.hostActivity.slmBytes c.id.plot < offset + bytes)
    (hheld : d.hostActivity.chanHeld offset bytes = false) (value : Nat) :
    memoryFill c offset bytes value d =
      (d.hostActivity.setSlm c.id.plot ((d.hostActivity.slm c.id.plot).store offset
        (List.replicate bytes (BitVec.ofNat 8 value)) [])).done c.id .success :=
  Dev.memory_one hc hin hheld _

/-- The sources are read before the destination, which none of them overlaps, is written. -/
theorem memoryCopy_apart {dest total : Nat} {sources : List (Nat × Nat × Nat)} (htotal : total = (sources.map (fun r => r.2.2)).sum)
    (hown : sources.any (fun r => r.1 != memoryNsid c.id.plot) = false)
    (hin : ((dest, total) :: sources.map Prod.snd).any (fun r => decide (d.hostActivity.slmBytes c.id.plot < r.1 + r.2)) = false)
    (hheld : ((dest, total) :: sources.map Prod.snd).any (fun r => d.hostActivity.chanHeld r.1 r.2) = false)
    (hptr : dataFits c (32 * sources.length) false = true)
    (hapart : sources.any (fun r => decide (r.2.1 < dest + total ∧ dest < r.2.1 + r.2.2)) = false) :
    memoryCopy c dest sources d =
      (d.hostActivity.setSlm c.id.plot ((sources.map (fun r =>
          ((d.hostActivity.slm c.id.plot).bytes r.2.1 r.2.2, (d.hostActivity.slm c.id.plot).marks r.2.1 r.2.2))).foldl
        (fun (a : Nat × Mem) (y : List Byte × List Nat) => (a.1 + y.1.length, a.2.store a.1 y.1 y.2))
        (dest, d.hostActivity.slm c.id.plot)).2).done c.id .success := by
  subst htotal
  unfold memoryCopy
  dsimp only
  rw [hown, Dev.memory_of hc (if_neg (by simp)) hin hheld]
  rw [if_neg (by simp), Dev.withPtr_of hptr, if_neg (ne_true_of_eq_false hapart)]

end

/-- Settles O36: each command, admitted and with its data pointer right, past the checks its clause excludes. -/
theorem computeCommandsComplete : Obligations.ComputeCommandsComplete :=
  ⟨fun _ _ _ _ _ hs hc hptr hset hindex hprog himage => effects_run rfl hs
      (executeProgram_fixed hc hptr (Dev.setHolds_of hset) hindex hprog himage),
   fun _ _ _ _ _ _ hs hc hptr hset hindex hprog hgen hactive hcap => effects_run rfl hs
      (executeProgram_loaded hc hptr (Dev.setHolds_of hset) hindex hprog hgen hactive hcap),
   fun _ _ _ _ _ _ _ _ pats bodyOk sigOk _ hs hc hptr hty hload hlen => effects_run rfl hs
      ((loadProgram_piece pats bodyOk sigOk hc hptr hty hload).trans (if_neg hlen)),
   fun _ _ _ _ _ _ _ pats bodyOk sigOk _ hs hc hptr _ hload hlen hindex hcheck => effects_run rfl hs
      ((loadProgram_piece pats bodyOk sigOk hc hptr (.inl rfl) hload).trans
        ((if_pos hlen).trans (Dev.loadWhole_program hindex hcheck pats bodyOk))),
   fun _ _ _ _ _ _ _ pats bodyOk sigOk _ hs hc hptr _ hload hlen hindex hcheck => effects_run rfl hs
      ((loadProgram_piece pats bodyOk sigOk hc hptr (.inr rfl) hload).trans
        ((if_pos hlen).trans (Dev.loadWhole_sieve hindex hcheck sigOk))),
   fun _ _ _ _ _ _ _ pats bodyOk sigOk hs hc hgen => effects_run rfl hs (loadProgram_unload pats bodyOk sigOk hc hgen),
   fun _ _ _ _ _ hs hc hprog hgen hcap hidle => effects_run rfl hs (programActivation_program hc hprog hgen hcap hidle),
   fun _ _ _ _ _ hs hc hprog himage hgen hroom => effects_run rfl hs (programActivation_image hc hprog himage hgen hroom),
   fun _ _ id _ _ hs hc hptr hne hok hfree hsome => effects_run rfl hs (memoryRangeSetManagement_create hc id hptr hne hok hfree hsome),
   fun _ _ _ ranges _ hs hc hx hgen => effects_run rfl hs (memoryRangeSetManagement_delete hc hx hgen ranges),
   fun _ _ _ _ hs hc hin hheld hptr => effects_run rfl hs (memoryRead_inRange hc hin hheld hptr),
   fun _ _ _ _ hs hc hin hheld hptr => effects_run rfl hs (memoryWrite_inRange hc hin hheld hptr),
   fun _ _ _ _ value hs hc hin hheld => effects_run rfl hs (memoryFill_inRange hc hin hheld value),
   fun _ _ _ _ hs hc hown hin hheld hptr hapart => effects_run rfl hs (memoryCopy_apart hc rfl hown hin hheld hptr hapart)⟩

end Sys2Proof.Machine
end

section
/-! PROOFS. Memory controllers, memory errors and buffer pools (R357 to R371, R376 to R379). -/

namespace Sys2Proof.Machine

variable {d : Dev} {q : Nat}

/-! ### Scheduling and reads (R359, R360, R362, R366, R369) -/

section
variable {sub : Nat} (hsub : sub < 2) (hq : d.quadOk q = true) (arrivals : List MemReq) (elapsed : Nat) (errs : List Nat)
include hsub hq

/-- What has come waits in a controller that does not run. -/
theorem memcSchedule_stopped (hruns : d.mcRuns q = false) :
    ∃ (rq wq : List DReq) (dr : Bool),
      rq = (((d.mc q).sub sub).rq.map (fun (z : DReq) => { z with waited := z.waited + elapsed }) ++
        ((arrivals.filter (fun (z : MemReq) => mcSub z.addr == sub)).map toReq).filter (fun (z : DReq) => !z.write)).take 64 ∧
      wq = (((d.mc q).sub sub).wq.map (fun (z : DReq) => { z with waited := z.waited + elapsed }) ++
        ((arrivals.filter (fun (z : MemReq) => mcSub z.addr == sub)).map toReq).filter (fun (z : DReq) => z.write)).take 64 ∧
      dr = (if d.f (F.MEMC_SCHED_WRHI q) < wq.length then true else if wq.length < d.f (F.MEMC_SCHED_WRLO q) then false
        else ((d.mc q).sub sub).draining) ∧
      memcSchedule q sub arrivals elapsed errs d =
        d.setMc q ((d.mc q).setSub sub { (d.mc q).sub sub with rq := rq, wq := wq, draining := dr }) :=
  ⟨_, _, _, rfl, rfl, rfl, (if_pos ⟨hsub, hq⟩).trans (if_pos (by simp [hruns]))⟩

/-- In one that runs the throttled are marked, and the request that is chosen is issued. -/
theorem memcSchedule_running (hruns : d.mcRuns q = true) :
    ∃ (rq wq : List DReq) (dr : Bool) (x : Dev) (c : DSub) (y : Dev) (open_ : List DReq),
      rq = (((d.mc q).sub sub).rq.map (fun (z : DReq) => { z with waited := z.waited + elapsed }) ++
        ((arrivals.filter (fun (z : MemReq) => mcSub z.addr == sub)).map toReq).filter (fun (z : DReq) => !z.write)).take 64 ∧
      wq = (((d.mc q).sub sub).wq.map (fun (z : DReq) => { z with waited := z.waited + elapsed }) ++
        ((arrivals.filter (fun (z : MemReq) => mcSub z.addr == sub)).map toReq).filter (fun (z : DReq) => z.write)).take 64 ∧
      dr = (if d.f (F.MEMC_SCHED_WRHI q) < wq.length then true else if wq.length < d.f (F.MEMC_SCHED_WRLO q) then false
        else ((d.mc q).sub sub).draining) ∧
      x = d.setMc q ((d.mc q).setSub sub { (d.mc q).sub sub with rq := rq, wq := wq, draining := dr }) ∧
      c = { (d.mc q).sub sub with
        rq := rq.map (fun r => if x.mcThrottled q r = true then { r with thr := true } else r)
        wq := wq.map (fun r => if x.mcThrottled q r = true then { r with thr := true } else r)
        draining := dr } ∧
      y = (x.setMc q ((x.mc q).setSub sub c)).mcCount q 5 ((rq ++ wq).filter (fun r => x.mcThrottled q r && !r.thr)).length ∧
      open_ = (c.rq ++ c.wq).filter (fun r => !x.mcThrottled q r) ∧
      memcSchedule q sub arrivals elapsed errs d =
        match y.mcChoose q (if ((dr || c.rq.isEmpty) && !(c.wq.filter (fun r => !x.mcThrottled q r)).isEmpty) = true then
            c.wq.filter (fun r => !x.mcThrottled q r) else c.rq.filter (fun r => !x.mcThrottled q r)) open_ c.arb with
        | none => y
        | some r =>
          let z := y.setMc q ((y.mc q).setSub sub { c with arb := c.arb.round (open_.map (fun v => v.id)) r.id })
          let w := if r.write = true ∧ r.mask % 2 ^ 64 ≠ 2 ^ 64 - 1 then ((z.mcDecode q r.addr errs).2).mcCount q 0 1 else z
          let a := (w.mcIssue q sub r).finjItem 4 q 0
          if a.1 = true then (a.2.setMc q ((a.2.mc q).replayRows (d.mcRanks q) (mcRank (d.mcRanks q) r.addr)
            ((a.2.mc q).retry.drop ((a.2.mc q).retry.length - 1)))).mcReplay q else a.2 :=
  ⟨_, _, _, _, _, _, _, rfl, rfl, rfl, rfl, rfl, rfl, rfl, (if_pos ⟨hsub, hq⟩).trans (if_neg (not_not_intro hruns))⟩

end

/-- A burst in flight is decoded, merged with the writes ahead of it and delivered. -/
theorem dramBurstRead_inflight {id : Nat} {x : DInflight} (hx : (d.mc q).inflight.find? (fun x => x.id == id) = some x) (errs : List Nat)
    (slm : Option (Nat × Nat)) :
    ∃ (r : Bool × Dev) (p : Bool), r = d.mcDecode q x.addr errs ∧
      p = ((r.1 && !(x.over_.any (fun w => w.mask % 2 ^ 64 == 2 ^ 64 - 1))) || x.over_.any (fun w => w.poison)) ∧
      dramBurstRead q id errs slm d = (r.2.setMc q { r.2.mc q with
        inflight := (r.2.mc q).inflight.filter (fun y => y.id != id)
        out := (r.2.mc q).out ++ [{ id := id, data := x.over_.foldl (fun v w => mergeBytes v w.data w.mask) (d.burst q x.addr),
                                    poison := p }] }).slmMark slm p := by
  refine ⟨_, _, rfl, rfl, ?_⟩
  unfold dramBurstRead
  rw [hx]

theorem scrubRead_due (hruns : d.mcRuns q = true) (hlo : 6 ≤ d.f F.TOP_MODE_MODE) (hhi : d.f F.TOP_MODE_MODE ≤ 9)
    (hps : d.f F.PWR_PSTATE_PS < 3) (hhours : d.f (F.MEMC_SCRUB_HOURS q) ≠ 0) (hcap : d.f (F.MEMC_STAT_CAPGIB q) * 2 ^ 30 ≠ 0)
    (errs : List Nat) (slm : Option (Nat × Nat)) :
    ∃ x : Dev, x = ((d.mcDecode q (d.mc q).scrubAt errs).2.mcCount q 0 1).slmMark slm (d.mcDecode q (d.mc q).scrubAt errs).1 ∧
      scrubRead q errs slm d =
        (x.setMc q { x.mc q with scrubAt := ((d.mc q).scrubAt + 64) % (d.f (F.MEMC_STAT_CAPGIB q) * 2 ^ 30) }).setF (F.MEMC_SCRUB_PCT q)
          (((d.mc q).scrubAt + 64) % (d.f (F.MEMC_STAT_CAPGIB q) * 2 ^ 30) * 100 / (d.f (F.MEMC_STAT_CAPGIB q) * 2 ^ 30)) :=
  ⟨_, rfl, if_pos ⟨hruns, hlo, hhi, hps, hhours, hcap⟩⟩

/-- A row that no queued request needs is closed. -/
theorem pageIdleClose_idle {b row : Nat} (hrow : ((d.mc q).bank b).row = some row)
    (hidle : (((d.mc q).sub 0).rq ++ ((d.mc q).sub 0).wq ++ (((d.mc q).sub 1).rq ++ ((d.mc q).sub 1).wq)).any
      (fun r => mcBank (d.mcRanks q) r.addr == b && mcRow (d.mcRanks q) r.addr == row) = false) :
    pageIdleClose q b d = d.setMc q ((d.mc q).setBank b { (d.mc q).bank b with row := none }) := by
  unfold pageIdleClose
  dsimp only
  rw [hrow]
  exact if_neg (ne_true_of_eq_false hidle)

/-! ### Refresh, training, frequency and replay (R357, R361, R363 to R365) -/

section
variable (hq : d.quadOk q = true)
include hq

theorem mr4Poll_hot : mr4Poll q true d = (d.setMc q { d.mc q with cool := 0 }).setF (F.MEMC_STAT_HOTREF q) 1 :=
  (if_neg (not_not_intro hq)).trans (if_pos rfl)

theorem mr4Poll_cool :
    mr4Poll q false d =
      if 2 ≤ (d.mc q).cool + 1 then (d.setMc q { d.mc q with cool := min 2 ((d.mc q).cool + 1) }).setF (F.MEMC_STAT_HOTREF q) 0
      else d.setMc q { d.mc q with cool := min 2 ((d.mc q).cool + 1) } :=
  (if_neg (not_not_intro hq)).trans (if_neg (by simp))

theorem refreshDue_postponed (hbusy : (List.range 2).any (fun i => !(((d.mc q).sub i).rq ++ ((d.mc q).sub i).wq).isEmpty) = true)
    (hfew : (d.mc q).postponed < 4) : refreshDue q d = d.setMc q { d.mc q with postponed := (d.mc q).postponed + 1 } :=
  (if_neg (not_not_intro hq)).trans (if_pos ⟨hbusy, hfew⟩)

/-- With nothing pending, or four postponed, it is issued. -/
theorem refreshDue_issued
    (hdue : (List.range 2).any (fun i => !(((d.mc q).sub i).rq ++ ((d.mc q).sub i).wq).isEmpty) = false ∨ 4 ≤ (d.mc q).postponed) :
    ∃ (n : Nat) (x : Dev),
      n = (if (List.range 2).any (fun i => !(((d.mc q).sub i).rq ++ ((d.mc q).sub i).wq).isEmpty) = true then 1
        else (d.mc q).postponed + 1) ∧
      x = d.setMc q { (if d.flag (F.MEMC_REF_SB q) = true then d.mc q else (d.mc q).closeAll).refreshed n with
        postponed := (d.mc q).postponed + 1 - n } ∧
      refreshDue q d = if d.flag (F.MEMC_STAT_HOTREF q) = true then x.mcCount q 6 n else x := by
  refine ⟨_, _, rfl, rfl, (if_neg (not_not_intro hq)).trans (if_neg ?_)⟩
  rintro ⟨hbusy, hfew⟩
  rcases hdue with h | h
  · exact Bool.false_ne_true (h.symm.trans hbusy)
  · exact absurd hfew (by omega)

theorem memcFchgGo_starts (hbusy : d.flag (F.MEMC_STAT_FBUSY q) = false) (htest : d.underTest q = false) :
    ∃ x : Dev, x = ((d.setF (F.MEMC_FCHG_GO q) 1).setF (F.MEMC_STAT_FBUSY q) 1).setF (F.MEMC_STAT_SREF q) 1 ∧
      memcFchgGo q d = x.fchgClose q := by
  refine ⟨_, rfl, (if_pos hq).trans (congrArg (Dev.fchgClose · q) ?_)⟩
  exact if_neg (by simp [hbusy, htest])

theorem memcFchgGo_waits (hbusy : d.flag (F.MEMC_STAT_FBUSY q) = true ∨ d.underTest q = true) :
    ∃ x : Dev, x = d.setF (F.MEMC_FCHG_GO q) 1 ∧ memcFchgGo q d = (x.setMc q { x.mc q with goWaits := true }).fchgClose q := by
  refine ⟨_, rfl, (if_pos hq).trans (congrArg (Dev.fchgClose · q) ?_)⟩
  exact if_pos (by simpa using hbusy)

theorem freqChangeDone_busy (hbusy : d.flag (F.MEMC_STAT_FBUSY q) = true) {x : Dev}
    (hx : x = (((d.setF (F.MEMC_STAT_SET q) (1 - d.f (F.MEMC_STAT_SET q))).setF (F.MEMC_STAT_FBUSY q) 0).setF (F.MEMC_STAT_SREF q) 0).setF
      (F.MEMC_FCHG_GO q) 0) :
    ∃ y : Dev, y = x.setMc q (x.mc q).closeAll ∧
      freqChangeDone q d = if (y.mc q).goWaits then (y.setMc q { y.mc q with goWaits := false }).fchgGo q else y := by
  subst hx
  exact ⟨_, rfl, if_pos ⟨hq, hbusy⟩⟩

/-- The commands of the window are replayed until ALERT_n does not recur, or the channel fails. -/
theorem caParityAlert_replays (rank window : Nat) (again : List Bool) :
    ∃ (win : List DCmd) (ids : List Nat) (redo : List DInflight) (x y : Dev),
      win = (((d.mc q).retry.filter (fun c => mcRank (d.mcRanks q) c.req.addr == rank)).drop
        (((d.mc q).retry.filter (fun c => mcRank (d.mcRanks q) c.req.addr == rank)).length - window)).filter (fun c => !c.req.write) ∧
      ids = win.map (fun c => c.req.id) ∧
      redo = (win.filter (fun c => (d.mc q).out.any (fun o => o.id == c.req.id))).map (fun c =>
        ({ id := c.req.id, addr := c.req.addr, sub := c.sub,
           over_ := (((d.mc q).sub c.sub).wq.filter (fun w => sameBurst w.addr c.req.addr && decide (w.id < c.req.id))) } : DInflight)) ∧
      x = d.setMc q { (d.mc q).replayRows (d.mcRanks q) rank
          (((d.mc q).retry.filter (fun c => mcRank (d.mcRanks q) c.req.addr == rank)).drop
            (((d.mc q).retry.filter (fun c => mcRank (d.mcRanks q) c.req.addr == rank)).length - window)) with
        out := (d.mc q).out.filter (fun o => !ids.contains o.id)
        inflight := (d.mc q).inflight ++ redo } ∧
      y = (List.range (replayRuns (d.f (F.MEMC_RETRY_MAX q)) 0 again).1).foldl (fun (z : Dev) _ => z.mcReplay q) x ∧
      caParityAlert q rank window again d = if (replayRuns (d.f (F.MEMC_RETRY_MAX q)) 0 again).2 then y.mcFail q ids else y :=
  ⟨_, _, _, _, _, rfl, rfl, rfl, rfl, rfl, if_neg (not_not_intro hq)⟩

end

theorem dqsOscRead_trained {rank : Nat} (hruns : d.mcRuns q = true) (htrained : d.flag (F.MEMC_STAT_TRAINED q) = true)
    (hrank : rank ≤ d.mcRanks q) (drift : Nat) :
    dqsOscRead q rank drift d =
      if 8 < drift then d.setMc q { d.mc q with drift := AMap.set 0 rank 0 (d.mc q).drift, retrains := (d.mc q).retrains + 1 }
      else d.setMc q { d.mc q with drift := AMap.set 0 rank drift (d.mc q).drift } :=
  if_neg (by simp [hruns, htrained, hrank])

/-! ### SRAM and MRAM errors (R370, R371) -/

section
variable {unit : Nat} (hunit : unit ≠ 8) (quad inst off : Nat)
include hunit

/-- An error that is corrected, or met in a clean line of a cache, is counted. -/
theorem sramEccError_fixed {uncorrectable dirty : Bool}
    (hfixed : uncorrectable = false ∨ ((unit = 2 ∨ unit = 3 ∨ unit = 4) ∧ dirty = false)) :
    ∃ x : Dev, x = d.eccCorrect 0 unit quad inst off ∧
      sramEccError unit quad inst off uncorrectable dirty d =
        if unit = 1 ∧ quad < 4 ∧ inst < 8 then x.coreBump (8 * quad + inst) 7 1 else x := by
  refine ⟨_, rfl, (if_neg hunit).trans (if_pos ?_)⟩
  simpa [or_assoc] using hfixed

/-- Any other uncorrectable error poisons what it damages, or is met in the part's own state. -/
theorem sramEccError_lost {dirty : Bool} (hdirty : (unit = 2 ∨ unit = 3 ∨ unit = 4) → dirty = true) :
    ∃ x y : Dev, x = d.eccUncorrect 0 ∧
      y = (if unit = 1 ∧ quad < 4 ∧ inst < 8 then
            x.setCpu (8 * quad + inst) { x.cpu (8 * quad + inst) with tcm := (x.cpu (8 * quad + inst)).tcm.setPoison (8 * off) true }
          else if unit ≤ 7 then
            { x with pail := { x.pail with sramPoison :=
              if x.pail.sramPoison.contains (unit, quad, inst, off / 8) = true then x.pail.sramPoison
              else x.pail.sramPoison ++ [(unit, quad, inst, off / 8)] } }
          else if 9 ≤ unit then { x with sramBad := true } else x) ∧
      sramEccError unit quad inst off true dirty d =
        if (unit == 2 || unit == 3 || unit == 4) = true then y else y.raise 0x025 noPlot [unit, quad, off] := by
  refine ⟨_, _, rfl, rfl, (if_neg hunit).trans (if_neg ?_)⟩
  cases dirty with
  | true => simp
  | false => simpa [and_assoc] using hdirty

end

/-- An injected error adds to what the decoder finds. -/
theorem mramEccError_eq (off : Nat) (x : MramBlk) (found : Nat) :
    ∃ (a b : Bool × Dev) (f : Nat), a = d.finjItem 5 (off / 2 ^ 28) 0 ∧ b = a.2.finjItem 6 (off / 2 ^ 28) 0 ∧
      f = (if b.1 = true then 2 else if a.1 = true ∧ found = 0 then 1 else found) ∧
      mramEccError off x found d =
        if f = 0 then b.2 else if f = 1 then b.2.eccCorrect 2 (off / 2 ^ 28) 0xFF 0 (off / 64 * 64)
        else (((b.2.eccUncorrect 2).raise 0x026 noPlot [off]).ewOccur 17).mramBad x :=
  ⟨_, _, _, rfl, rfl, rfl, rfl⟩

/-! ### Pools (R376 to R379) -/

theorem pailAlloc_eq {arrivals : List (Nat × Nat × Nat × Bool)} {here : List PReq}
    (hhere : here = d.pail.waiting ++ arrivals.map (fun a => ⟨a.1, a.2.1, a.2.1, a.2.2.1, a.2.2.2⟩)) :
    pailAlloc arrivals d = (List.range 16).foldl (Dev.pailPool here) { d with pail := { d.pail with waiting := [] } } := by
  subst hhere
  rfl

/-- The manager frees as PAIL_FREE takes it: steward code, the owner 0, and the steward's own owner ID. -/
theorem pailFree_performed {h owner : Nat} {steward : Bool} (hen : d.flag (F.PAIL_POOLCFG_EN (hPool h)) = true)
    (hcnt : hIndex h < d.f (F.PAIL_POOLCNT_COUNT (hPool h))) (hused : tagState (d.pailTag h) = 1)
    (howner : tagOwner (d.pailTag h) = owner ∨ (steward || owner == 0 || owner == 0x3FF) = true) :
    ∃ x : Dev, x = (if tagOwner (d.pailTag h) ≠ owner then (d.pailCount 4).pailCount 5 else d.pailCount 4) ∧
      pailFree h owner steward d =
        if d.pailLost h = true then (x.setPailTag h (3 * 1024 + tagOwner (d.pailTag h))).pailCount 7
        else ((x.setPailTag h 0).setPailFree (hPool h) (x.pailFreeCount (hPool h) + 1)).setPailCache (hPool h)
          (min 128 (x.pailCache (hPool h) + 1)) :=
  ⟨_, rfl, Dev.pailFree_performed d h owner _ hen hcnt hused howner⟩

/-- Settles O47: each command of the memories and the pools in the state its clause names. -/
theorem memoryAndPoolsComplete : Obligations.MemoryAndPoolsComplete :=
  ⟨fun _ _ _ arrivals elapsed errs hs hsub hq hruns => effects_run rfl hs (memcSchedule_stopped hsub hq arrivals elapsed errs hruns),
   fun _ _ _ arrivals elapsed errs hs hsub hq hruns => effects_run rfl hs (memcSchedule_running hsub hq arrivals elapsed errs hruns),
   fun _ _ _ errs slm _ hs hx => effects_run rfl hs (dramBurstRead_inflight hx errs slm),
   fun _ _ hs hq => effects_run rfl hs (mr4Poll_hot hq),
   fun _ _ hs hq => effects_run rfl hs (mr4Poll_cool hq),
   fun _ _ hs hq hbusy hfew => effects_run rfl hs (refreshDue_postponed hq hbusy hfew),
   fun _ _ hs hq hdue => effects_run rfl hs (refreshDue_issued hq hdue),
   fun _ _ hs => effects_run rfl hs rfl,
   fun _ _ _ drift hs hruns htrained hrank => effects_run rfl hs (dqsOscRead_trained hruns htrained hrank drift),
   fun _ _ hs hq hbusy htest => effects_run rfl hs (memcFchgGo_starts hq hbusy htest),
   fun _ _ hs hq hbusy => effects_run rfl hs (memcFchgGo_waits hq hbusy),
   fun _ _ _ hs hq hbusy hx => effects_run rfl hs (freqChangeDone_busy hq hbusy hx),
   fun _ _ rank window again hs hq => effects_run rfl hs (caParityAlert_replays hq rank window again),
   fun _ _ errs slm hs hruns hlo hhi hps hhours hcap => effects_run rfl hs (scrubRead_due hruns hlo hhi hps hhours hcap errs slm),
   fun _ _ _ _ hs hrow hidle => effects_run rfl hs (pageIdleClose_idle hrow hidle),
   fun _ _ quad inst off _ _ hs hunit hfixed => effects_run rfl hs (sramEccError_fixed hunit quad inst off hfixed),
   fun _ _ quad inst off _ hs hunit hdirty => effects_run rfl hs (sramEccError_lost hunit quad inst off hdirty),
   fun _ off x found hs => effects_run rfl hs (mramEccError_eq off x found),
   fun _ _ _ hs hhere => effects_run rfl hs (pailAlloc_eq hhere),
   fun _ _ _ _ hs hen hcnt hused howner => effects_run rfl hs (pailFree_performed hen hcnt hused howner),
   fun _ h owner _ hs hbad => effects_run rfl hs (Dev.pailFree_bad _ h owner _ hbad),
   fun _ h owner _ hs hen hcnt hfree => effects_run rfl hs (Dev.pailFree_double _ h owner _ hen hcnt hfree),
   fun _ h owner _ hs hen hcnt hused howner hm => effects_run rfl hs (Dev.pailFree_foreign _ h owner _ hen hcnt hused howner hm),
   fun _ _ hs => effects_run rfl hs rfl⟩

end Sys2Proof.Machine
end

section
/-! PROOFS. Test access, the core debug port and the console (R420 to R423). -/

namespace Sys2Proof.Machine

variable {d : Dev}

/-! ### The TAP (R420) -/

section
variable (hsup : d.pins.supply = true)
include hsup

/-- An instruction whose condition holds. -/
theorem Dev.tap_ok {ok : Bool} (hok : ok = true) (go : Dev → Dev) : d.tap ok go = go d :=
  (if_neg (not_not_intro hsup)).trans (if_pos hok)

/-- One whose condition does not hold selects the bypass register. -/
theorem Dev.tap_refused {ok : Bool} (hok : ok = false) (go : Dev → Dev) : d.tap ok go = d.tapBypass :=
  (if_neg (not_not_intro hsup)).trans (if_neg (ne_true_of_eq_false hok))

theorem dbg_opens (hright : d.right 2 = true) (hclosed : (d.tapSelect .dbg).test.dbgActive = false) :
    dbg d = ({ d.tapSelect .dbg with test := { (d.tapSelect .dbg).test with dbgActive := true } }).raise 0x00B noPlot [] :=
  (Dev.tap_ok hsup hright _).trans (if_neg (ne_true_of_eq_false hclosed))

theorem dbg_goes_on (hright : d.right 2 = true) (hopen : (d.tapSelect .dbg).test.dbgActive = true) : dbg d = d.tapSelect .dbg :=
  (Dev.tap_ok hsup hright _).trans (if_pos hopen)

end

/-- SCAN outside TEST, or before the scrub is done. -/
theorem scan_cond_false (h : d.flag F.HALW_SCRUB_DONE = false ∨ d.f F.TOP_MODE_MODE ≠ 0xB) :
    (d.flag F.HALW_SCRUB_DONE && d.f F.TOP_MODE_MODE == 0xB) = false := by
  rcases h with h | h
  · rw [h, Bool.false_and]
  · rw [beq_false_of_ne h, Bool.and_false]

/-- Settles O21: each instruction with its condition, and without it. -/
theorem tapCompletes : Obligations.TapCompletes :=
  ⟨fun _ hsup => effects_runHard rfl (Dev.tap_ok hsup rfl _),
   fun _ hsup => effects_runHard rfl (Dev.tap_ok hsup rfl _),
   fun _ hsup => effects_runHard rfl (Dev.tap_ok hsup rfl _),
   fun _ hsup => effects_runHard rfl (Dev.tap_ok hsup rfl _),
   fun _ _ _ hsup hrst => effects_runHard rfl (Dev.tap_ok hsup (by rw [hrst]; rfl) _),
   fun _ _ _ hsup => effects_runHard rfl (Dev.tap_ok hsup rfl _),
   fun _ hsup hrst => effects_runHard rfl (Dev.tap_ok hsup (by rw [hrst]; rfl) _),
   fun _ hsup hrst => effects_runHard rfl (Dev.tap_ok hsup (by rw [hrst]; rfl) _),
   fun _ hsup hdone hmode => effects_runHard rfl (Dev.tap_ok hsup (by rw [hdone, hmode]; rfl) _),
   fun _ hs hsup hright hclosed => effects_run rfl hs (dbg_opens hsup hright hclosed),
   fun _ hs hsup hright hopen => effects_run rfl hs (dbg_goes_on hsup hright hopen),
   fun _ hs hsup hright => effects_run rfl hs (Dev.tap_refused hsup hright _),
   fun _ _ _ hsup hrst => effects_runHard rfl (Dev.tap_refused hsup (by rw [hrst]; rfl) _),
   fun _ hsup hrst => effects_runHard rfl (Dev.tap_refused hsup (by rw [hrst]; rfl) _),
   fun _ hsup hrst => effects_runHard rfl (Dev.tap_refused hsup (by rw [hrst]; rfl) _),
   fun _ hsup hbad => effects_runHard rfl (Dev.tap_refused hsup (scan_cond_false hbad) _)⟩

/-! ### The core debug port (R422) -/

section
variable {c : Nat} (hon : d.dbgOn c = true) (hhalt : (d.cpu c).halted = true)
include hon hhalt

theorem dbgResume_halted : dbgResume c d = d.setCpu c { d.cpu c with halted := false } := if_pos ⟨hon, hhalt⟩

/-- A step executes what the word at pc means. -/
theorem dbgStep_word {upto : Nat} {m : Dev → Dev}
    (hw : wordMeaning c (d.wordAt c (d.cpu c).pc.toNat) (d.wordAt c (((d.cpu c).pc.toNat + 4) % 2 ^ 64)) upto = some m) :
    dbgStep c upto d = (m (d.setCpu c { d.cpu c with stepping := true, waiting := false })).setCpu c
      { (m (d.setCpu c { d.cpu c with stepping := true, waiting := false })).cpu c with stepping := false } := by
  unfold dbgStep
  rw [if_pos ⟨hon, hhalt⟩]
  dsimp only
  rw [hw]

theorem dbgStep_reserved {upto : Nat}
    (hw : wordMeaning c (d.wordAt c (d.cpu c).pc.toNat) (d.wordAt c (((d.cpu c).pc.toNat + 4) % 2 ^ 64)) upto = none) :
    dbgStep c upto d =
      (vzReserved c (d.wordAt c (d.cpu c).pc.toNat) (d.setCpu c { d.cpu c with stepping := true, waiting := false })).setCpu c
        { (vzReserved c (d.wordAt c (d.cpu c).pc.toNat) (d.setCpu c { d.cpu c with stepping := true, waiting := false })).cpu c with
          stepping := false } := by
  unfold dbgStep
  rw [if_pos ⟨hon, hhalt⟩]
  dsimp only
  rw [hw]

theorem dbgAccess_g (i value : Nat) (write : Bool) :
    dbgAccess c (.g i) write value d =
      if write then d.setCpu c ((d.cpu c).setReg i (BitVec.ofNat 64 value)) else d.dbgShow ((d.cpu c).reg i).toNat :=
  if_pos ⟨hon, hhalt⟩

/-- A special register that exists; cyc is a free value, drawn. -/
theorem dbgAccess_sr {i : Nat} (hi : srExists i = true) (value : Nat) (write : Bool) :
    dbgAccess c (.sr i) write value d =
      if write then d.setCpu c ((d.cpu c).setSr i (BitVec.ofNat 64 value))
      else if i = 3 then d.draw.2.dbgShow ((d.cpu c).sr c i (Config.cycles d.draw.1)).toNat
      else d.dbgShow ((d.cpu c).sr c i 0).toNat :=
  (if_pos ⟨hon, hhalt⟩).trans (if_neg (not_not_intro hi))

/-- Memory that the region table permits at S. -/
theorem dbgAccess_mem {a n : Nat} (hn : n = 1 ∨ n = 2 ∨ n = 4 ∨ n = 8) {write : Bool}
    (hacc : (d.setCpu c { d.cpu c with pstat := (d.cpu c).pstat ||| 1#64 }).accTrap c a n (if write then .store else .load) = none)
    (value : Nat) :
    dbgAccess c (.mem a n) write value d =
      if write then (d.poke c a n (value % 256 ^ n) false).getD d
      else if (d.peek c a n).poison then d else (d.peek c a n).dev.dbgShow (d.peek c a n).val :=
  (if_pos ⟨hon, hhalt⟩).trans ((if_neg (by omega)).trans (if_neg (by rw [hacc]; simp)))

theorem dbgAccess_load {a n : Nat} (hn : n = 1 ∨ n = 2 ∨ n = 4 ∨ n = 8)
    (hacc : (d.setCpu c { d.cpu c with pstat := (d.cpu c).pstat ||| 1#64 }).accTrap c a n .load = none)
    (hclean : (d.peek c a n).poison = false) (value : Nat) :
    dbgAccess c (.mem a n) false value d = (d.peek c a n).dev.dbgShow (d.peek c a n).val :=
  (dbgAccess_mem hon hhalt hn hacc value).trans ((if_neg Bool.false_ne_true).trans (if_neg (ne_true_of_eq_false hclean)))

theorem dbgAccess_store {a n value : Nat} (hn : n = 1 ∨ n = 2 ∨ n = 4 ∨ n = 8)
    (hacc : (d.setCpu c { d.cpu c with pstat := (d.cpu c).pstat ||| 1#64 }).accTrap c a n .store = none)
    (hpoke : (d.poke c a n (value % 256 ^ n) false).isSome = true) :
    some (dbgAccess c (.mem a n) true value d) = d.poke c a n (value % 256 ^ n) false := by
  rw [dbgAccess_mem hon hhalt hn hacc value, if_pos rfl]
  exact Option.getD_of_ne_none (Option.isSome_iff_ne_none.mp hpoke) d

end

/-- Settles O22: each command of the debug port on a core it reaches, and the console's byte with and without the right. -/
theorem debugCompletes : Obligations.DebugCompletes :=
  ⟨fun _ _ hs hon => effects_run rfl hs (if_pos hon),
   fun _ _ hs hon hhalt => effects_run rfl hs (dbgResume_halted hon hhalt),
   fun _ _ _ _ hs hon hhalt hw => effects_run rfl hs (dbgStep_word hon hhalt hw),
   fun _ _ _ hs hon hhalt hw => effects_run rfl hs (dbgStep_reserved hon hhalt hw),
   fun _ _ i value hs hon hhalt => effects_run rfl hs (dbgAccess_g hon hhalt i value true),
   fun _ _ i value hs hon hhalt => effects_run rfl hs (dbgAccess_g hon hhalt i value false),
   fun _ _ _ value hs hon hhalt hi => effects_run rfl hs (dbgAccess_sr hon hhalt hi value true),
   fun _ _ _ value hs hon hhalt hi hcyc => effects_run rfl hs ((dbgAccess_sr hon hhalt hi value false).trans (if_neg hcyc)),
   fun _ _ value hs hon hhalt => effects_run rfl hs (dbgAccess_sr hon hhalt (i := 3) rfl value false),
   fun _ _ _ _ value hs hon hhalt hn hacc hclean => effects_run rfl hs (dbgAccess_load hon hhalt hn hacc hclean value),
   fun _ _ _ _ _ hs hon hhalt hn hacc hpoke => effects_run rfl hs (dbgAccess_store hon hhalt hn hacc hpoke),
   fun _ _ hs hright => effects_run rfl hs (if_neg (ne_true_of_eq_false hright)),
   fun _ _ hs hright => effects_run rfl hs (if_pos hright)⟩

end Sys2Proof.Machine
end

section
/-! PROOFS. Event acknowledgement and routes, the performance counters and the injectors (R399, R402, R408, R412, R415, R416). -/

namespace Sys2Proof.Machine

variable {d : Dev} {i value : Nat}

/-! ### Events (R402, R408) -/

/-- An acknowledgement between the last one and the head is taken, and arms the watermark again below it. -/
theorem evtHostAckSeq_taken (hlo : d.ef F.EVT_HOST_ACK_SEQ_SEQ < value) (hhi : value ≤ d.jhead) :
    evtHostAckSeq value d =
      if (d.setAck value).ef F.EVT_JSTAT_UNACK < (d.setAck value).ef F.EVT_JCFG_HOSTWM then
        { d.setAck value with evt := { (d.setAck value).evt with wmSent := false } }
      else d.setAck value :=
  if_pos ⟨hlo, hhi⟩

theorem evtHostAckSeq_ignored (h : value ≤ d.ef F.EVT_HOST_ACK_SEQ_SEQ ∨ d.jhead < value) : evtHostAckSeq value d = d :=
  if_neg (by omega)

theorem evtRoute_ignored {n : Nat} (h : 512 ≤ n ∨ d.routeOk value = false) : evtRoute n value d = d := by
  refine if_neg ?_
  rintro ⟨hn, hok⟩
  rcases h with h | h
  · omega
  · exact Bool.false_ne_true (h.symm.trans hok)

/-! ### Performance counters (R412, R415) -/

/-- A write takes the low 48 bits, and what a counter that counts meets in that cycle. -/
theorem pmuCntWrite_has (hhas : d.pmuHas i = true) (inc : Nat) :
    pmuCntWrite i value inc d =
      if (d.setEf (F.PMU_CNT_COUNT i) (value % 2 ^ 48)).pmuOn i then (d.setEf (F.PMU_CNT_COUNT i) (value % 2 ^ 48)).pmuBump i inc
      else d.setEf (F.PMU_CNT_COUNT i) (value % 2 ^ 48) :=
  if_pos hhas

/-- A counter carried past 2^48 wraps and sets its flag; without OVFEV nothing else. -/
theorem Dev.pmuBump_wraps {n : Nat} (hwrap : 2 ^ 48 ≤ d.ef (F.PMU_CNT_COUNT i) + n) {e : Dev}
    (he : e = d.setEf (F.PMU_CNT_COUNT i) ((d.ef (F.PMU_CNT_COUNT i) + n) % 2 ^ 48))
    (hquiet : (e.setEf (F.PMU_OVF_OVF (i / 32)) (setBit (e.ef (F.PMU_OVF_OVF (i / 32))) (i % 32) true)).ef (F.PMU_SEL_OVFEV i) ≠ 1) :
    d.pmuBump i n = e.setEf (F.PMU_OVF_OVF (i / 32)) (setBit (e.ef (F.PMU_OVF_OVF (i / 32))) (i % 32) true) := by
  subst he
  exact (if_neg (Nat.not_lt.mpr hwrap)).trans (if_neg hquiet)

theorem pmuOverflow_carried {n : Nat} (hhas : d.pmuHas i = true) (hon : d.pmuOn i = true)
    (hwrap : 2 ^ 48 ≤ d.ef (F.PMU_CNT_COUNT i) + n) : pmuOverflow i n d = d.pmuBump i n :=
  if_pos (by rw [hhas, hon, decide_eq_true hwrap]; rfl)

/-! ### Injectors (R416, R419) -/

section
variable (hi : i < 16)
include hi

/-- While EN = 1 only EN changes. -/
theorem finjEnable_on (hen : d.flag (F.FINJ_INJ_EN i) = true) :
    finjEnable i value d = if bit value 0 then d else (d.setF (F.FINJ_INJ_EN i) 0).finjShow :=
  (if_neg (Nat.not_le.mpr hi)).trans (if_pos hen)

variable (hen : d.flag (F.FINJ_INJ_EN i) = false)
include hen

theorem finjEnable_fields (hbit : bit value 0 = false) : finjEnable i value d = d.finjFields i value :=
  (if_neg (Nat.not_le.mpr hi)).trans ((if_neg (ne_true_of_eq_false hen)).trans (if_pos (ne_true_of_eq_false hbit)))

variable (hbit : bit value 0 = true)
include hbit

theorem finjEnable_refused (hright : d.finjOk = false) : finjEnable i value d = d.setF F.FINJ_CTL_REFUSED 1 :=
  (if_neg (Nat.not_le.mpr hi)).trans ((if_neg (ne_true_of_eq_false hen)).trans ((if_neg (not_not_intro hbit)).trans
    (if_pos (ne_true_of_eq_false hright))))

variable (hright : d.finjOk = true)
include hright

theorem finjEnable_noKind (hkind : 7 ≤ bits value 2 4) : finjEnable i value d = d :=
  (if_neg (Nat.not_le.mpr hi)).trans ((if_neg (ne_true_of_eq_false hen)).trans ((if_neg (not_not_intro hbit)).trans
    ((if_neg (not_not_intro hright)).trans (if_pos hkind))))

/-- An injector is enabled and seeded, with FINJ_ACTIVE when it is the first. -/
theorem finjEnable_enabled (hkind : ¬7 ≤ bits value 2 4) {e : Dev}
    (he : e = ((d.finjFields i value).setF (F.FINJ_INJ_EN i) 1).finjShow) :
    finjEnable i value d =
      if (!d.flag F.FINJ_CTL_ANY) = true then
        ({ e with finj := e.finj.set i ⟨Nat.xor (e.f F.FINJ_SEED_SEED) i⟩ } : Dev).raise 0x009 noPlot []
      else { e with finj := e.finj.set i ⟨Nat.xor (e.f F.FINJ_SEED_SEED) i⟩ } := by
  subst he
  exact (if_neg (Nat.not_le.mpr hi)).trans ((if_neg (ne_true_of_eq_false hen)).trans ((if_neg (not_not_intro hbit)).trans
    ((if_neg (not_not_intro hright)).trans (if_neg hkind))))

end

/-- Settles O23: each write in the state its clause names. -/
theorem eventsAndCountersComplete : Obligations.EventsAndCountersComplete :=
  ⟨fun _ _ hs hlo hhi hfull => effects_run rfl hs ((evtHostAckSeq_taken hlo hhi).trans (if_neg hfull)),
   fun _ _ hs hlo hhi hlow => effects_run rfl hs ((evtHostAckSeq_taken hlo hhi).trans (if_pos hlow)),
   fun _ _ hs h => effects_run rfl hs (evtHostAckSeq_ignored h),
   fun _ _ hs => effects_run rfl hs rfl,
   fun _ _ _ hs hn hok => effects_run rfl hs (if_pos ⟨hn, hok⟩),
   fun _ _ _ hs h => effects_run rfl hs (evtRoute_ignored h),
   fun _ _ hs => effects_run rfl hs rfl,
   fun _ _ hs => effects_run rfl hs rfl,
   fun _ hs => effects_run rfl hs rfl,
   fun _ _ _ inc hs hhas hoff => effects_run rfl hs ((pmuCntWrite_has hhas inc).trans (if_neg (ne_true_of_eq_false hoff))),
   fun _ _ _ inc hs hhas hon => effects_run rfl hs ((pmuCntWrite_has hhas inc).trans (if_pos hon)),
   fun _ _ _ _ hs hhas => effects_run rfl hs (if_neg (ne_true_of_eq_false hhas)),
   fun _ _ _ hs hhas hon hwrap hquiet => effects_run rfl hs
      ((pmuOverflow_carried hhas hon hwrap).trans (Dev.pmuBump_wraps hwrap rfl hquiet)),
   fun _ _ _ hs hhas hon hwrap => effects_run rfl hs (pmuOverflow_carried hhas hon hwrap),
   fun _ _ _ hs hi hen hbit => effects_run rfl hs ((finjEnable_on hi hen).trans (if_neg (ne_true_of_eq_false hbit))),
   fun _ _ _ hs hi hen hbit hright hkind hany => effects_run rfl hs
      ((finjEnable_enabled hi hen hbit hright hkind rfl).trans (if_neg (by rw [hany]; decide))),
   fun _ _ _ hs hi hen hbit hright => effects_run rfl hs (finjEnable_refused hi hen hbit hright),
   fun _ _ _ hs hi hen hbit hright hkind hany => effects_run rfl hs
      ((finjEnable_enabled hi hen hbit hright hkind rfl).trans (if_pos (by rw [hany]; rfl))),
   fun _ _ _ hs hi hen hbit => effects_run rfl hs (finjEnable_fields hi hen hbit),
   fun _ _ _ hs hi hen hbit => effects_run rfl hs ((finjEnable_on hi hen).trans (if_pos hbit)),
   fun _ _ _ hs hi hen hbit hright hkind => effects_run rfl hs (finjEnable_noKind hi hen hbit hright hkind)⟩

end Sys2Proof.Machine
end
